-- ==== Sys2Proof/Word.lean ====
section
/-! DEFINITION. The word types of the FZH256 model: host words, binary64 and binary32 patterns, sparse tables. -/

namespace Sys2Proof

abbrev Byte := BitVec 8
abbrev W16 := BitVec 16
abbrev W32 := BitVec 32
abbrev W48 := BitVec 48
abbrev W64 := BitVec 64

/-- An IEEE 754 binary64 value by its bits (R36). A structure of its own, so that integer arithmetic never
touches it by accident. -/
structure F64 where
  bits : W64
  deriving DecidableEq, Repr

/-- An IEEE 754 binary32 value by its bits (R36: parameters, keeper references, torque references). -/
structure F32 where
  bits : W32
  deriving DecidableEq, Repr

/-- A sparse table: key and entry pairs, keys strictly rising, no entry equal to the table's unlisted value. -/
abbrev Tbl (α : Type) := List (Nat × α)

/-- Positive zero. -/
def F64.zero : F64 := ⟨0⟩
/-- One. -/
def F64.one : F64 := ⟨0x3FF0000000000000⟩

end Sys2Proof
end

