-- ==== Sys2Proof/Machine/Types.lean ====
section
/-! DEFINITION. The component types of the machine's state: every piece of state the spec gives it, as plain data. Each
field's comment gives its width, the file and rule of spec/ that names it, and its reset value. -/

namespace Sys2Proof.Machine

/-! ## Frame, device time, LSYNC (01_frame_tick) -/

/-- The role of the part (00 R8, 01 FRM_STAT.ROLE). -/
inductive Role where
  | head | standby | node | none
  deriving DecidableEq, Repr

/-- Frame tick, device time and the FRM block (01 R25 to R33). -/
structure Frm where
  role : Role := .none           -- FRM_STAT.ROLE, 2 bits | 00 R8, 01 R33 | 0b11
  run : Bool := false            -- FRM_STAT.RUN, 1 bit | 01 R33 | 0
  tsync : Bool := false          -- FRM_STAT.TSYNC, 1 bit | 01 R27, R33 | 0
  now : Nat := 0                 -- device time in units of 0.2 ns, 64-bit ns with fraction | 01 R25 | 0
  frame : W48 := 0               -- frame counter, 48 bits | 01 R26 | 0
  t0 : Nat := 0                  -- T0 of the current frame in units of 0.2 ns | 01 R13, R33 | 0
  tickPend : Bool := false       -- a raised tick that has not taken effect, 1 bit | 01 R15 | DESIGN CHOICE 0, log 2
  first : Bool := true           -- no tick raised yet: the next tick is frame 0, 1 bit | 01 R26 | DESIGN CHOICE 1, log 2
  period : Nat := 0              -- FRM_PERIOD, 20 bits: P in force in ns | 01 R33 | 0
  throt : Bool := false          -- FRM_STAT.THROT, 1 bit | 01 R33 | 0
  minclk : Byte := 0x64          -- FRM_STAT.MINCLK, 8 bits | 01 R33 | 0x64
  lslock : Bool := false         -- FRM_STAT.LSLOCK, 1 bit | 01 R33 | 0
  timeHi : W32 := 0              -- FRM_TIME_HI latch, 32 bits | 01 R28 | 0
  fcntHi : W16 := 0              -- FRM_FCNT_HI latch, 16 bits | 01 R28 | 0
  t0Hi : W32 := 0                -- FRM_T0_HI latch, 32 bits | 01 R28 | 0
  lsinHi : W32 := 0              -- FRM_LSIN_HI latch, 32 bits | 01 R28 | 0
  lsin : W64 := 0                -- LSYNC_IN stamp, 64 bits | 01 R30, R33 | 0
  critEnd : W32 := 0             -- FRM_CRITEND of the previous frame, 32 bits | 01 R33 | 0
  critLast : Nat := 0            -- last critical completion after T0 of this frame, 0.2 ns | 01 R33 | DESIGN CHOICE 0, log 2
  trailLast : Nat := 0           -- last trailing completion after T0 of this frame, 0.2 ns | 01 R33 | DESIGN CHOICE 0, log 2
  turn : Nat := 0                -- FRM_TURNMAX.TURN, 12 bits | 01 R33 | 0
  turnBranch : Nat := 0          -- FRM_TURNMAX.BRANCH, 3 bits | 01 R33 | 0
  ovr : W32 := 0                 -- FRM_OVRSTAT, bits 0 to 4 and 8 to 11 | 01 R33 | 0
  critCnt : Nat := 0             -- FRM_OVRCNT.CRIT_CNT, 16 bits saturating | 01 R33 | 0
  trailCnt : Nat := 0            -- FRM_OVRCNT.TRAIL_CNT, 16 bits saturating | 01 R33 | 0
  critOvr : Bool := false        -- EV_FRAME_OVERRUN raised in this frame, 1 bit | 01 R22 | DESIGN CHOICE 0, log 2
  series : Nat := 0              -- consecutive frames with EV_FRAME_OVERRUN | 01 R22 | DESIGN CHOICE 0, log 2
  seriesDone : Bool := false     -- EV_OVERRUN_SERIES raised in this run, 1 bit | 01 R22 | DESIGN CHOICE 0, log 2
  lsync : Bool := false          -- LSYNC pin, 1 bit | 01 R29 | 0 (driven low)
  lsyncFall : Nat := 0           -- device time of LSYNC's fall, 0.2 ns | 01 R29 | DESIGN CHOICE 0, log 2
  lsTrim : Int := 0              -- FRM_LSTRIM, 16 bits two's complement, 0.01 ppm | 01 R33 | 0
  fixTrim : Int := 0             -- rate trim a new head keeps from its time as standby, 0.01 ppm | 09 R252 | 0
  lsTarget : Int := 0            -- rate trim LOCK mode slews toward, 0.01 ppm | 01 R30 | DESIGN CHOICE 0, log 2
  lsEdge : Option Nat := none    -- device time of the last LSYNC_IN edge, 0.2 ns | 01 R31 | none
  lsMiss : Nat := 0              -- windows without an edge since the last one | 01 R31 | DESIGN CHOICE 0, log 2
  slewRem : Int := 0             -- phase still to be slewed, units of 0.2 ns / 10^8 | 07 R202 | 0
  slewTo : Nat := 0              -- the S at which the slew of this frame ends, device time 0.2 ns | 07 R202 | DESIGN CHOICE 0, log 2
  trimAcc : Int := 0             -- fraction of the rate trim not yet counted in 0.2 ns | 01 R25, R30 | DESIGN CHOICE 0, log 2
  deriving DecidableEq, Repr

/-! ## Axes (02_loop_chain, 03_loop_supervision, 04_line_and_web, 05_profiles_and_steps) -/

/-- The state of an axis, coded 0 to 5 (03 R66). -/
inductive AxState where
  | disabled | opn | freeze | closed | stopping | fault
  deriving DecidableEq, Repr

/-- The stop under way on an axis (03 R69, R86). -/
inductive StopKind where
  | none | command | line | quick
  deriving DecidableEq, Repr

/-- A compensator block: delay lines, clamped output, saturation flag (02 R44, R45). -/
structure Comp where
  e1 : F64 := .zero              -- e[n-1], f64 | 02 R44 | 0
  e2 : F64 := .zero              -- e[n-2], f64 | 02 R44 | 0
  e3 : F64 := .zero              -- e[n-3], f64 | 02 R44 | 0
  u1 : F64 := .zero              -- u[n-1], f64 | 02 R44 | 0
  u2 : F64 := .zero              -- u[n-2], f64 | 02 R44 | 0
  u3 : F64 := .zero              -- u[n-3], f64 | 02 R44 | 0
  out : F64 := .zero             -- u_out of the last frame run, f64 | 02 R45 | 0
  sat : Bool := false            -- saturation flag, 1 bit | 02 R45 | 0
  deriving DecidableEq, Repr

/-- The states of one notch (02 R49). -/
structure Notch where
  s1 : F64 := .zero              -- s1, f64 | 02 R49 | 0
  s2 : F64 := .zero              -- s2, f64 | 02 R49 | 0
  deriving DecidableEq, Repr

/-- Biquad coefficients (02 R50). -/
structure Biquad where
  b0 : F64 := .one               -- b0, f64 | 02 R50 | formed when used, no state
  b1 : F64 := .zero              -- b1, f64 | 02 R50 | formed when used, no state
  b2 : F64 := .zero              -- b2, f64 | 02 R50 | formed when used, no state
  a1 : F64 := .zero              -- a1, f64 | 02 R50 | formed when used, no state
  a2 : F64 := .zero              -- a2, f64 | 02 R50 | formed when used, no state
  deriving DecidableEq, Repr

/-- Feedback conditioning and feedback supervision of one axis (02 R39 to R43, 03 R80 to R84). -/
structure AxFb where
  accN : Nat := 0                -- accepted samples so far, counted to 2 | 02 R39, R495 | none
  q : W16 := 0                   -- q of the last accepted sample, 16 bits | 02 R39 | none yet (accN is 0)
  p32 : W32 := 0                 -- p32 of the last accepted sample, 32 bits | 02 R40 | none yet (accN is 0)
  pos : W64 := 0                 -- P64, 64 bits signed | 02 R40 | 0 (R495)
  posAcc : W64 := 0              -- P64_acc, 64 bits signed | 02 R40 | 0 (R495)
  accAt : Nat := 0               -- frame of the last accepted sample | 02 R42 | DESIGN CHOICE 0, log 3
  gap : Nat := 0                 -- FB_GAP, 16 bits saturating | 02 R39, 15 R390 | 0
  iA : F64 := .zero              -- i_a of the last accepted sample, f64 A | 02 R41 | DESIGN CHOICE 0, log 3
  iB : F64 := .zero              -- i_b, f64 A | 02 R41 | DESIGN CHOICE 0, log 3
  iC : F64 := .zero              -- i_c, f64 A | 02 R41 | DESIGN CHOICE 0, log 3
  iD : F64 := .zero              -- i_d of the frame, f64 A | 02 R53 | DESIGN CHOICE 0, log 3
  iQ : F64 := .zero              -- i_q of the frame, f64 A | 02 R53 | DESIGN CHOICE 0, log 3
  udc : F64 := .zero             -- U_dc of the last accepted sample, f64 V | 02 R43 | DESIGN CHOICE 0, log 3
  tauNode : F64 := .zero         -- node-reported torque of the last accepted sample, f64 N·m | 02 R57 | DESIGN CHOICE 0, log 3
  afl : W16 := 0                 -- AFL of the last accepted sample, 16 bits | 06 R166 | DESIGN CHOICE 0, log 3
  om : F64 := .zero              -- ω_m of the frame, f64 rad/s | 02 R42 | 0 (R495)
  omDiff : F64 := .zero          -- ω_m by difference at the last accepted sample, f64 | 02 R42 | 0 (R495)
  thS : F64 := .zero             -- θ_S of the frame, f64 rad | 02 R42 | DESIGN CHOICE 0, log 3
  pred : Bool := false           -- PRED: predicted frame, 1 bit | 03 R80, R89 | 0
  predRun : Nat := 0             -- consecutive predicted frames | 03 R80 | 0
  frz : Option Nat := .none      -- freeze run in frames | 03 R81 | none
  predRep : Bool := false        -- EV_FB_LOST raised in this run of predicted frames, 1 bit | 03 R80 | DESIGN CHOICE 0, log 3
  frzRep : Bool := false         -- EV_FB_FROZEN raised in this freeze run, 1 bit | 03 R81 | DESIGN CHOICE 0, log 3
  acc : Bool := false            -- the frame's sample was accepted, 1 bit | 02 R39 | DESIGN CHOICE 0, log 3
  est : Bool := false            -- FB_EST: estimated feedback, 1 bit | 03 R83, R89 | 0
  estNext : Bool := false        -- estimated feedback starts at the next frame, 1 bit | 03 R83 | DESIGN CHOICE 0, log 3
  estFrom : Nat := 0             -- first frame of the stay in estimated feedback | 03 R84 | DESIGN CHOICE 0, log 3
  estRem : F64 := .zero          -- count remainder carried in estimated feedback, f64 | 03 R83 | DESIGN CHOICE 0, log 3
  estLeft : Bool := false        -- left estimated feedback, no accepted sample since, 1 bit | 03 R69 | DESIGN CHOICE 0, log 3
  estDone : Bool := false        -- EV_EST_EXPIRED raised in this stay, 1 bit | 03 R84 | DESIGN CHOICE 0, log 3
  wHat : F64 := .zero            -- ω̂, f64 | 02 R57 | 0 (R495)
  tauL : F64 := .zero            -- τ̂_L, f64 | 02 R57 | 0 (R495)
  thHat : F64 := .zero           -- θ̂ at the next S, f64 rad | 02 R57 | formed from P64 (R495): 0
  deriving DecidableEq, Repr

/-- Loop states, outputs and flags of one axis (02 R44 to R56, 03 R67 to R79). -/
structure AxLoop where
  cbP : Comp := {}               -- CB_P | 02 R44 | 0 (R66)
  cbV : Comp := {}               -- CB_V | 02 R44 | 0 (R66)
  n1 : Notch := {}               -- N1 states | 02 R49 | 0 (R66)
  n2 : Notch := {}               -- N2 states | 02 R49 | 0 (R66)
  n3 : Notch := {}               -- N3 states | 02 R49 | 0 (R66)
  n4 : Notch := {}               -- N4 states | 02 R49 | 0 (R66)
  xD : F64 := .zero              -- d integrator, f64 V | 02 R54 | 0 (R66)
  xQ : F64 := .zero              -- q integrator, f64 V | 02 R54 | 0 (R66)
  hP : F64 := .zero              -- H_P, f64 rad/s | 03 R67 | 0 (R495)
  hV : F64 := .zero              -- H_V, f64 N·m | 03 R67 | 0 (R495)
  hD : F64 := .zero              -- H_d, f64 V | 03 R67 | 0 (R495)
  hQ : F64 := .zero              -- H_q, f64 V | 03 R67 | 0 (R495)
  idRef : F64 := .zero           -- i_d* of the last frame, f64 A | 02 R51 | DESIGN CHOICE 0, log 3
  iqRef : F64 := .zero           -- i_q* of the last frame, f64 A | 02 R51 | DESIGN CHOICE 0, log 3
  vD : F64 := .zero              -- v_d after the circle, f64 V | 02 R55 | DESIGN CHOICE 0, log 3
  vQ : F64 := .zero              -- v_q after the circle, f64 V | 02 R55 | DESIGN CHOICE 0, log 3
  vApp : F64 := .zero            -- v_q applied from the last A, f64 V | 03 R83 | DESIGN CHOICE 0, log 3
  tau : F64 := .zero             -- τ after the limit, f64 N·m | 02 R51 | DESIGN CHOICE 0, log 3
  wCmd : F64 := .zero            -- ω_cmd, f64 rad/s | 02 R47, R59 | DESIGN CHOICE 0, log 3
  tauFf : F64 := .zero           -- torque feedforward, f64 N·m | 02 R59 | DESIGN CHOICE 0, log 3
  dA : W16 := 0x8000             -- D_a, 16 bits | 02 R56 | DESIGN CHOICE 0x8000 (as R174 without a valid command), log 3
  dB : W16 := 0x8000             -- D_b, 16 bits | 02 R56 | DESIGN CHOICE 0x8000, log 3
  dC : W16 := 0x8000             -- D_c, 16 bits | 02 R56 | DESIGN CHOICE 0x8000, log 3
  valid : Bool := false          -- the frame's command is valid, 1 bit | 02 R38, 01 R18 | DESIGN CHOICE 0, log 3
  kref0 : F32 := ⟨0⟩             -- keeper reference last sent valid, binary32 | 02 R58 | DESIGN CHOICE 0, log 3
  kref1 : F32 := ⟨0⟩             -- second keeper reference, binary32 | 02 R58 | DESIGN CHOICE 0, log 3
  posSat : Bool := false         -- POS_SAT, 1 bit | 03 R89 | 0
  velSat : Bool := false         -- VEL_SAT, 1 bit | 03 R89 | 0
  tqSat : Bool := false          -- TQ_SAT, 1 bit | 03 R89 | 0
  curSat : Bool := false         -- CUR_SAT, 1 bit | 03 R89 | 0
  lstep : Bool := false          -- LSTEP, 1 bit | 03 R89 | 0
  udcLow : Bool := false         -- EV_UDC_LOW condition of the frame, 1 bit | 02 R43 | DESIGN CHOICE 0, log 3
  satP : Nat := 0                -- saturation-time counter CB_P, frames | 03 R79 | 0
  satV : Nat := 0                -- saturation-time counter CB_V, frames | 03 R79 | 0
  satT : Nat := 0                -- saturation-time counter torque limit, frames | 03 R79 | 0
  satC : Nat := 0                -- saturation-time counter voltage circle, frames | 03 R79 | 0
  satRep : BitVec 4 := 0         -- clamps reported since their counter's last zero, 4 bits | 03 R79 | DESIGN CHOICE 0, log 3
  deriving DecidableEq, Repr

/-- References and adaptation of one axis (02 R60 to R62, 04 R95 to R98, R112). -/
structure AxRef where
  int : W64 := 0                 -- ref_int in force, 64 bits signed | 02 R47 | DESIGN CHOICE 0, log 3
  frac : F64 := .zero            -- ref_frac in force, f64 | 02 R47 | DESIGN CHOICE 0, log 3
  w : F64 := .zero               -- ω_ref in force, f64 | 02 R47 | DESIGN CHOICE 0, log 3
  a : F64 := .zero               -- α_ref in force, f64 | 02 R48 | DESIGN CHOICE 0, log 3
  intN : W64 := 0                -- ref_int for the next S, 64 bits signed | 02 R57 | DESIGN CHOICE 0, log 3
  fracN : F64 := .zero           -- ref_frac for the next S, f64 | 02 R57 | DESIGN CHOICE 0, log 3
  wN : F64 := .zero              -- ω_ref for the next S, f64 | 02 R57 | DESIGN CHOICE 0, log 3
  aN : F64 := .zero              -- α_ref for the next S, f64 | 02 R57 | DESIGN CHOICE 0, log 3
  sJ : F64 := .one               -- s_J in force, f64 | 02 R60 | 1.0 (R495)
  sJn : F64 := .one              -- s_J for the next frame, f64 | 02 R60 | 1.0 (R495)
  dl : F64 := .zero              -- δ in force, f64 | 02 R61 | 0 (R495)
  dlN : F64 := .zero             -- δ for the next frame, f64 | 02 R61 | 0 (R495)
  usedS : Option F32 := .none    -- s_J target of the image last used, binary32 | 15 R496 | none
  usedD : Option F32 := .none    -- δ target of the image last used, binary32 | 15 R496 | none
  usedV : Option F32 := .none    -- velocity target of the image last used, binary32 | 15 R496 | none
  usedVd : Option F32 := .none   -- v_d of the open-loop vector last used, binary32 | 15 R496 | none
  usedVq : Option F32 := .none   -- v_q of the open-loop vector last used, binary32 | 15 R496 | none
  usedTh : Option F32 := .none   -- θ_ol last used, binary32 | 15 R496 | none
  clampS : Bool := false         -- the s_J target is clamped, 1 bit | 02 R62 | DESIGN CHOICE 0, log 3
  clampD : Bool := false         -- the δ target is clamped, 1 bit | 02 R62 | DESIGN CHOICE 0, log 3
  draw : F64 := .zero            -- D_k, f64 | 04 R97 | LF.DRAW at configuration start (R495)
  dia : F64 := .zero             -- D̂, f64 m | 04 R112 | DIA.D_SET at configuration start (R113)
  diaMin : Bool := false         -- D̂ is at DIA.DMIN, 1 bit | 04 R112 | DESIGN CHOICE 0, log 3
  diaMax : Bool := false         -- D̂ is at DIA.DMAX, 1 bit | 04 R112 | DESIGN CHOICE 0, log 3
  trim : F64 := .zero            -- δ_k, total trim, f64 | 04 R98 | 0
  trimSat : Bool := false        -- the total trim is clamped, 1 bit | 04 R98 | DESIGN CHOICE 0, log 3
  rad : F64 := .zero             -- radius R96 used for the frame, f64 m | 04 R107 | DESIGN CHOICE 0, log 3
  deriving DecidableEq, Repr

/-- One plan segment (05 R124): start instant after t_s in s, state in rev, rev/s, rev/s² and jerk in rev/s³. -/
structure Seg where
  tau : F64
  x : F64
  v : F64
  a : F64
  j : F64
  deriving DecidableEq, Repr

/-- A profile plan (05 R124). -/
structure Plan where
  segs : List Seg := []          -- up to 15 segments | 05 R124 | empty
  stop : F64 := .zero            -- end of the last segment after t_s, f64 s | 05 R125 | DESIGN CHOICE 0, log 4
  vEnd : F64 := .zero            -- speed after the last segment, f64 rev/s | 05 R126 | DESIGN CHOICE 0, log 4
  xEnd : F64 := .zero            -- place at the end of the last segment, f64 rev | 05 R124 | DESIGN CHOICE 0, log 4
  limEnd : F64 := .zero          -- end of R129 steps 1 and 2 after t_s, f64 s | 05 R129 | DESIGN CHOICE 0, log 4
  x0 : W64 := 0                  -- X_s, 64 bits signed | 05 R124 | DESIGN CHOICE 0, log 4
  f0 : F64 := .zero              -- f_s, f64 | 05 R124 | DESIGN CHOICE 0, log 4
  ts : Nat := 0                  -- the frame whose S is t_s | 05 R123 | DESIGN CHOICE 0, log 4
  vmode : Bool := false          -- velocity-mode plan, 1 bit | 05 R132 | 0
  target : W64 := 0              -- position target, 64 bits signed | 05 R125 | DESIGN CHOICE 0, log 4
  rev : Bool := false            -- R128 applies, 1 bit | 05 R128 | 0
  pstop : Bool := false          -- a profile stop, 1 bit | 05 R130 | 0
  deriving DecidableEq, Repr

/-- Targets and limits as FP1 last recorded them (05 R123). -/
structure Recd where
  mode : Nat := 0                -- PROF.MODE recorded | 05 R123 | DESIGN CHOICE 0, log 4
  pos : W64 := 0                 -- position target recorded, 64 bits | 05 R123 | DESIGN CHOICE 0, log 4
  vel : F64 := .zero             -- velocity target recorded, f64 | 05 R123 | DESIGN CHOICE 0, log 4
  vmax : F64 := .zero            -- PROF.V_MAX recorded, f64 | 05 R123 | DESIGN CHOICE 0, log 4
  amax : F64 := .zero            -- PROF.A_MAX recorded, f64 | 05 R123 | DESIGN CHOICE 0, log 4
  dmax : F64 := .zero            -- PROF.D_MAX recorded, f64 | 05 R123 | DESIGN CHOICE 0, log 4
  jmax : F64 := .zero            -- PROF.J_MAX recorded, f64 | 05 R123 | DESIGN CHOICE 0, log 4
  dqs : F64 := .zero             -- PROF.D_QS recorded, f64 | 05 R123, R130 | DESIGN CHOICE 0, log 4
  deriving DecidableEq, Repr

/-- The MOTION bits that belong to one frame's reference (05 R132). -/
structure MotBits where
  seg : Nat := 0                 -- MOTION.SEG, 4 bits | 05 R132 | 0
  vmode : Bool := false          -- MOTION.VMODE, 1 bit | 05 R132 | 0
  reversal : Bool := false       -- MOTION.REVERSAL, 1 bit | 05 R132 | 0
  overlim : Bool := false        -- MOTION.OVERLIM, 1 bit | 05 R132 | 0
  atTarget : Bool := false       -- MOTION.AT_TARGET, 1 bit | 05 R132 | 0
  pstop : Bool := false          -- MOTION.PSTOP, 1 bit | 05 R132 | 0
  deriving DecidableEq, Repr

/-- Profile, cam and homing state of one axis (04 R102 to R104, 05 R123 to R143). -/
structure AxMot where
  plan : Plan := {}              -- the plan the trailing kernels evaluate | 05 R123 | none
  planOn : Bool := false         -- a plan governs the reference, 1 bit | 05 R132 | 0
  planNext : Option Plan := .none -- a plan FP1 publishes at the next tick | 05 R123 | none
  recd : Recd := {}              -- what FP1 last recorded as read | 05 R123 | DESIGN CHOICE 0, log 4
  held : Bool := false           -- a profile stop or a homing run rests: only a new target starts a plan, 1 bit | 05 R131, R141 | 0
  cur : MotBits := {}            -- bits of the frame's reference | 05 R132 | 0
  nxt : MotBits := {}            -- bits of the next frame's reference | 05 R132 | 0
  inpos : Bool := false          -- MOTION.INPOS, 1 bit | 05 R132 | 0
  inposN : Nat := 0              -- consecutive frames within PROF.INPOS_WIN | 05 R132 | DESIGN CHOICE 0, log 4
  homing : Bool := false         -- MOTION.HOMING, 1 bit | 05 R132 | 0
  homed : Bool := false          -- MOTION.HOMED, 1 bit | 05 R132 | 0
  camDone : Bool := false        -- MOTION.CAM_DONE, 1 bit | 05 R132 | 0
  stepClamp : Bool := false      -- MOTION.STEP_CLAMP, 1 bit | 05 R132 | 0
  encDev : Bool := false         -- MOTION.ENC_DEV, 1 bit | 05 R132 | 0
  devNew : Bool := false         -- E_0 and K_0 are due: the axis has entered CLOSED, 1 bit | 05 R148 | 0
  encDevN : Nat := 0             -- consecutive frames of deviation | 05 R148 | DESIGN CHOICE 0, log 4
  encDevRep : Bool := false      -- EV_ENC_DEV raised since ENC_DEV was last 0, 1 bit | 05 R148 | DESIGN CHOICE 0, log 4
  dev : F64 := .zero             -- deviation of the frame, f64 steps | 05 R148 | DESIGN CHOICE 0, log 4
  homePhase : Nat := 0           -- 0 none, 1 seeking the stop, 2 backing off, 3 stopping after failure | 05 R141, R143 | 0
  homeStall : Nat := 0           -- consecutive stall frames | 05 R141 | DESIGN CHOICE 0, log 4
  homeFrom : W64 := 0            -- ref_int at the start of homing, 64 bits | 05 R143 | DESIGN CHOICE 0, log 4
  homeFull : Bool := true        -- full torque limits in use, 1 bit | 05 R141, R143 | 1
  stopReq : StopKind := .none    -- a profile stop FP1 has still to plan | 05 R130 | none
  homeReq : Nat := 0             -- 1: FP1 plans the homing move, 2: FP1 plans the back-off | 05 R141 | 0
  phi : F64 := .zero             -- cam master phase, f64 m | 04 R102 | DESIGN CHOICE 0, log 4
  camSeg : Nat := 0              -- cam segment index | 04 R102 | DESIGN CHOICE 0, log 4
  camBase : W64 := 0             -- cam integer count base, 64 bits signed | 04 R102 | DESIGN CHOICE 0, log 4
  camSel : Option Nat := .none   -- the cam table in use when a switch replaced LF.CAM | 04 R104 | none
  camPend : Option (Nat × Nat) := .none -- pending table and the first frame it may act | 04 R104 | none
  camSync : Nat := 0             -- 1: the base follows a closing, 2: a one-shot run starts | 04 R95, R103 | 0
  camRun : Bool := false         -- a one-shot run is under way, 1 bit | 04 R103 | 0
  camHold : Bool := false        -- the reference holds at a one-shot run's end, 1 bit | 04 R103 | 0
  deriving DecidableEq, Repr

/-- One axis. -/
structure Axis where
  st : AxState := .disabled      -- axis state, 3 bits | 03 R66 | 0b000 (R89)
  stop : StopKind := .none       -- stop under way | 03 R69, R86 | none
  stopDone : Bool := false       -- the stop completed in the last frame, 1 bit | 03 R71 | 0
  reinit : Bool := false         -- the closing frame's kernel re-initialises, 1 bit | 03 R75 | 0
  fromOpen : Bool := false       -- the closing frame follows OPEN, 1 bit | 03 R72 | 0
  autoFz : Bool := false         -- an auto-freeze closes at the next boundary, 1 bit | 03 R74 | 0
  nonfin : Bool := false         -- R38 places the axis in FAULT at the next boundary, 1 bit | 02 R38 | 0
  critDone : Bool := false       -- the critical kernel of the frame completed, 1 bit | 01 R18 | DESIGN CHOICE 0, log 3
  aband : Bool := false          -- the critical kernel was abandoned at its deadline, 1 bit | 01 R18 | DESIGN CHOICE 0, log 3
  trailDone : Bool := false      -- the trailing kernel of the frame completed, 1 bit | 01 R20 | DESIGN CHOICE 0, log 3
  skips : Nat := 0               -- trailing kernels skipped since the last one that ran | 01 R20 | DESIGN CHOICE 0, log 3
  fb : AxFb := {}                -- feedback | 02 R39 | see AxFb
  lp : AxLoop := {}              -- loops | 02 R44 | see AxLoop
  rf : AxRef := {}               -- references | 02 R47 | see AxRef
  mo : AxMot := {}               -- motion | 05 R132 | see AxMot
  deriving DecidableEq, Repr

/-! ## Line axes, cams, zones (04_line_and_web) -/

/-- A line state: place, speed, acceleration and the increment of one frame (04 R91). -/
structure LineSt where
  x : F64 := .zero               -- x_L, f64 m | 04 R91 | DESIGN CHOICE 0, log 5
  v : F64 := .zero               -- v_L, f64 m/s | 04 R91 | DESIGN CHOICE 0, log 5
  a : F64 := .zero               -- a_L, f64 m/s² | 04 R91 | DESIGN CHOICE 0, log 5
  dx : F64 := .zero              -- Δx_L, f64 m | 04 R91 | DESIGN CHOICE 0, log 5
  deriving DecidableEq, Repr

/-- One line axis: the publication in use, FP1's own ramp, and the publication due at the next tick. -/
structure Line where
  pub : LineSt := {}             -- state the trailing kernels use | 04 R91, R92 | 0
  own : LineSt := {}             -- FP1's ramp state for S(m+1) | 04 R91 | 0
  ownAt : Nat := 0               -- the frame whose S the ramp state names | 04 R91, R92 | DESIGN CHOICE 0, log 5
  vS : F64 := .zero              -- v_L at S of the present frame, f64 m/s | 03 R71, 04 R91 | DESIGN CHOICE 0, log 5
  next : Option LineSt := .none  -- published at the next tick | 04 R91 | none
  ramp : Plan := {}              -- FP1's ramp plan in m | 04 R93 | none
  rampOn : Bool := false         -- a ramp plan is in progress, 1 bit | 04 R93 | 0
  sp : F64 := .zero              -- setpoint in force, f64 m/s | 04 R93 | 0
  used : F32 := ⟨0⟩              -- process-image setpoint last used, binary32 | 15 R496 | 0 (R395)
  acc : F64 := .zero             -- LINE.ACC the ramp was planned with, f64 | 04 R93 | DESIGN CHOICE 0, log 5
  dec : F64 := .zero             -- deceleration the ramp was planned with, f64 | 04 R93 | DESIGN CHOICE 0, log 5
  jerk : F64 := .zero            -- LINE.JERK the ramp was planned with, f64 | 04 R93 | DESIGN CHOICE 0, log 5
  stop : StopKind := .none       -- the group's stop acting on the line | 04 R116 | none
  deriving DecidableEq, Repr

/-- One knot of a cam table (04 R99). -/
structure Knot where
  x : F64
  y : F64
  s : F64
  deriving DecidableEq, Repr

/-- What a zone's kernels may change in a frame, as it stood before (04 R497). -/
structure ZoneWas where
  has : Bool := false            -- `has` before the frame, 1 bit | 04 R497 | 0
  cb : Comp := {}                -- CB_Z before the frame | 04 R497 | 0
  tStar : F64 := .zero           -- T* before the frame, f64 N | 04 R497 | DESIGN CHOICE 0, log 5
  tStarOn : Bool := false        -- `tStarOn` before the frame, 1 bit | 04 R497 | 0
  ran : Bool := false            -- `ran` before the frame, 1 bit | 04 R497 | 0
  deriving DecidableEq, Repr

/-- One zone (04 R105 to R115). -/
structure Zone where
  that : F64 := .zero            -- T̂, f64 N | 04 R107 | 0
  thatPrev : F64 := .zero        -- T̂[n-1] as neighbours of the frame read it, f64 N | 04 R107 | 0
  has : Bool := false            -- the zone has been computed, 1 bit | 04 R107 | 0
  cb : Comp := {}                -- CB_Z | 04 R109 | 0
  u : F64 := .zero               -- u_z, f64 | 04 R109 | 0
  uPrev : F64 := .zero           -- u_z of the frame before, f64 | 06 R171 | 0
  tStar : F64 := .zero           -- T*, f64 N | 04 R109 | the source's value in the first frame
  tStarOn : Bool := false        -- T* has taken its first value, 1 bit | 04 R109 | 0
  used : Option F32 := .none     -- process-image setpoint last used | 15 R496 | none
  kf : F64 := .zero              -- k_f, f64 | 04 R107 | DESIGN CHOICE 0, log 5
  lcMiss : Nat := 0              -- consecutive frames without a load-cell sample | 04 R108 | 0
  lcRep : Bool := false          -- EV_LC_INVALID raised in this run, 1 bit | 04 R108 | 0
  brk : Nat := 0                 -- consecutive frames of low tension | 04 R115 | 0
  brkRep : Bool := false         -- EV_WEB_BREAK raised in this run, 1 bit | 04 R115 | 0
  ran : Bool := false            -- the controller ran in the last frame, 1 bit | 04 R111 | 0
  hold : Bool := false           -- an auto-freeze holds the zone open for this frame, 1 bit | 04 R111 | 0
  critDone : Bool := false       -- the critical kernel of the frame completed, 1 bit | 04 R107 | DESIGN CHOICE 0, log 5
  aband : Bool := false          -- the critical kernel was marked abandoned, 1 bit | 08 R498 | DESIGN CHOICE 0, log 5
  skip : Bool := false           -- its last trailing kernel was skipped, 1 bit | 01 R20, 13 R338 | 0
  trailDone : Bool := false      -- the trailing kernel of the frame completed, 1 bit | 04 R110 | DESIGN CHOICE 0, log 5
  was : ZoneWas := {}            -- the zone's states before the frame | 04 R497 | none
  nonfin : Bool := false         -- a result of the frame was not finite: contributions are the frame before's, 1 bit | 04 R497 | 0
  cD : F64 := .zero              -- its contribution to the downstream axis, f64 | 04 R110, R497 | 0
  cU : F64 := .zero              -- its contribution to the upstream axis, f64 | 04 R110, R497 | 0
  deriving DecidableEq, Repr

/-- A cam table as installed: header fields and knots (04 R99, R122). -/
structure CamTable where
  npts : Nat := 0                -- CAM.NPTS, 32 bits | 04 R99, R122 | DESIGN CHOICE 0 (no table), log 5
  cyclic : Bool := false         -- FLAGS bit 0 | 04 R99 | DESIGN CHOICE 0, log 5
  xcyc : F64 := .zero            -- CAM.XCYC, f64 m | 04 R99 | DESIGN CHOICE 0, log 5
  yrise : F64 := .zero           -- CAM.YRISE, f64 rev | 04 R99 | DESIGN CHOICE 0, log 5
  knots : List Knot := []        -- knots | 04 R99 | DESIGN CHOICE none, log 5
  deriving DecidableEq, Repr

/-! ## Step channels and encoder inputs (05_profiles_and_steps) -/

/-- One step channel (05 R133 to R140). -/
structure StepCh where
  phi : Int := 0                 -- phase accumulator φ, 64 bits signed, 32 fraction bits | 05 R135 | DESIGN CHOICE 0, log 6
  delta : Int := 0               -- Δ handed over for the next interval, signed 32.32 | 05 R134 | 0
  deltaOn : Bool := false        -- an increment was handed over, 1 bit | 05 R134 | 0
  lastQ : Int := 0               -- last reference handed over, signed with 32 fraction bits | 05 R134 | DESIGN CHOICE 0, log 6
  backlog : Int := 0             -- B, signed 32.32 | 05 R136 | 0
  emit : Int := 0                -- E of the interval, signed 32.32 | 05 R135 | 0
  r : Int := 0                   -- r of the interval | 05 R135 | 0
  rem : Int := 0                 -- rem of the interval | 05 R135 | 0
  nCyc : Nat := 0                -- N, CK_FIELD cycles of the interval | 05 R134 | 0
  done : Nat := 0                -- cycles of the interval already run | 05 R135 | 0
  start : Nat := 0               -- device time of the interval's first cycle, 0.2 ns | 05 R134 | DESIGN CHOICE 0, log 6
  queue : List Int := []         -- pulses carried but not yet emitted, oldest first, in signed runs of one direction | 05 R137, R138 | empty
  clamped : Bool := false        -- the last interval was clamped, 1 bit | 05 R136 | 0
  lastPulse : Option Nat := .none -- device time at which the last pulse started, 0.2 ns | 05 R137 | none
  dirAt : Option Nat := .none    -- device time of the last DIR edge, 0.2 ns | 05 R138 | none
  dirFwd : Bool := true          -- direction DIR shows, 1 bit | 05 R138 | DESIGN CHOICE forward, log 6
  handed : Int := 0              -- LG_STEP demand handed over, 64 bits | 05 R139 | 0
  handFrac : Int := 0            -- fraction of Δ accumulated, 32.32 | 05 R139 | 0
  fwd : Int := 0                 -- forward pulses emitted, 64 bits | 05 R139 | 0
  bwd : Int := 0                 -- reverse pulses emitted, 64 bits | 05 R139 | 0
  wdrn : Int := 0                -- steps withdrawn, 64 bits | 05 R139 | 0
  stopped : Bool := true         -- emission stopped, 1 bit | 05 R133, R139 | 1 (DISABLED)
  idleFrom : Nat := 0            -- device time from which the idle time runs, 0.2 ns | 05 R140 | DESIGN CHOICE 0, log 6
  red : Nat := 0                 -- 0 run current, 1 ramp, 2 hold | 05 R140 | 0
  runAt : Option Nat := .none    -- CREF period from which I_RUN is in force again, device time, 0.2 ns | 05 R140 | none
  rampFrom : Nat := 0            -- device time at which the ramp started, 0.2 ns | 05 R140 | DESIGN CHOICE 0, log 6
  latch : Int := 0               -- E_S, net emitted count latched at S, 64 bits | 05 R148 | 0
  e0 : Int := 0                  -- E_0, 64 bits | 05 R148 | DESIGN CHOICE 0, log 6
  k0 : Int := 0                  -- K_0, 64 bits | 05 R148 | DESIGN CHOICE 0, log 6
  hold0 : Bool := false          -- after a stall: Δ = 0 until the interval ends, 1 bit | 05 R142 | 0
  rebase : Bool := false         -- the reference is re-based at the interval's end, 1 bit | 05 R142 | 0
  deriving DecidableEq, Repr

/-- One encoder input (05 R144 to R147). -/
structure Enc where
  a : Bool := false              -- accepted level of ENCA, 1 bit | 05 R144 | DESIGN CHOICE 0, log 6
  b : Bool := false              -- accepted level of ENCB, 1 bit | 05 R144 | DESIGN CHOICE 0, log 6
  z : Bool := false              -- accepted level of ENCZ, 1 bit | 05 R145 | DESIGN CHOICE 0, log 6
  zFrom : Option Nat := .none    -- device time since which ENCZ has been active, 0.2 ns | 05 R142 | none
  c : W32 := 0                   -- counter C, 32 bits | 05 R144 | DESIGN CHOICE 0, log 6
  recent : List (Nat × Bool) := [] -- edges accepted in the last 100 ns: device time, up | 05 R144 | empty
  latch : W32 := 0               -- C latched at S, 32 bits | 05 R144 | DESIGN CHOICE 0, log 6
  lastLatch : W32 := 0           -- latch the extension was last made against, 32 bits | 05 R144 | DESIGN CHOICE 0, log 6
  ext : Int := 0                 -- extended count, 64 bits signed | 05 R144, R147 | DESIGN CHOICE 0, log 6
  up : Int := 0                  -- LG_ENC up count | 05 R145 | 0
  down : Int := 0                -- LG_ENC down count | 05 R145 | 0
  errs : W32 := 0                -- error count, 32 bits | 05 R145, R147 | 0
  zc : Int := 0                  -- Z latch, extended count | 05 R145, R147 | DESIGN CHOICE 0, log 6
  zt : W64 := 0                  -- Z latch time, ns, 64 bits | 05 R145, R147 | DESIGN CHOICE 0, log 6
  ssiBusy : Bool := false        -- an SSI transfer is under way, 1 bit | 05 R146 | 0
  ssiDue : Nat := 0              -- device time of its delivery, 0.2 ns | 05 R146 | DESIGN CHOICE 0, log 6
  ssiVal : Nat := 0              -- last valid SSI value, up to 32 bits | 05 R146 | DESIGN CHOICE 0, log 6
  ssiHas : Bool := false         -- a valid SSI value has been delivered, 1 bit | 05 R146 | 0
  deriving DecidableEq, Repr

/-! ## Mylia-TT (06_mylia_cycle, 07_mylia_startup_sync) -/

/-- One axis entry of a static frame (06 R166); fields its type does not carry are zero. -/
structure Smp where
  p32 : W32 := 0                 -- P32, 32 bits | 06 R166 | 0
  q : W16 := 0                   -- Q, 16 bits | 06 R166 | 0
  ia : W16 := 0                  -- I_A, 16 bits signed | 06 R166 | 0
  ib : W16 := 0                  -- I_B, 16 bits signed | 06 R166 | 0
  ic : W16 := 0                  -- I_C, 16 bits signed | 06 R166 | 0
  tau : F32 := ⟨0⟩               -- TAU, binary32 N·m | 06 R166 | 0
  afl : W16 := 0                 -- AFL, 16 bits | 06 R166 | 0
  deriving DecidableEq, Repr

/-- A branch port or the firn port (06 R153, R154, R190). -/
structure Port where
  phyOn : Bool := false          -- PHY_RST_N high, 1 bit | 06 R154 | 0 (held low)
  link : Bool := false           -- LINK, 1 bit | 06 R190 | 0
  sync : Bool := false           -- SYNC, 1 bit | 06 R190 | 0
  rate : Nat := 0                -- RATE, 2 bits | 06 R190 | 0b00
  pcsErr : Bool := false         -- PCS_ERR, 1 bit | 06 R190 | 0
  nvalid : Nat := 0              -- NVALID, 6 bits | 06 R190 | 0
  deriving DecidableEq, Repr

/-- The outcome of a static slot or credit (06 R169, R179, R190). -/
inductive Outc where
  | unsched | valid | empty | corrupt | late
  deriving DecidableEq, Repr

/-- The samples of a node's VALID frame in a frame that has ended, kept for critical kernels still at work (02 R39, 06 R165). -/
structure NodeSmp where
  frame : Nat
  smp : List Smp
  aux : List W16
  udc : W16
  deriving DecidableEq, Repr

/-- One node of a branch, as the head keeps it (06 R167 to R170, 07 R200, R203). -/
structure Node where
  prov : Outc := .empty          -- provisional outcome of the frame | 06 R169 | DESIGN CHOICE empty, log 7
  outcome : Outc := .unsched     -- OUTCOME, 3 bits | 06 R190 | 0b000
  cValid : W32 := 0              -- NET_CNT_VALID, 32 bits saturating | 06 R190 | 0
  cEmpty : W32 := 0              -- NET_CNT_EMPTY, 32 bits saturating | 06 R190 | 0
  cCorrupt : W32 := 0            -- NET_CNT_CORRUPT, 32 bits saturating | 06 R190 | 0
  cLate : W32 := 0               -- NET_CNT_LATE, 32 bits saturating | 06 R190 | 0
  cEdge : W32 := 0               -- NET_CNT_EDGE, 32 bits saturating | 06 R190 | 0
  lastOfs : W16 := 0             -- LASTOFS, 16 bits two's complement | 06 R190 | 0
  ofs : Int := 0                 -- offset of the last VALID or LATE frame, 0.2 ns | 06 R167, 13 R337 | 0
  edge : Bool := false           -- EDGE, 1 bit | 06 R190 | 0
  keeper : Bool := false         -- KEEPER, 1 bit | 06 R190 | 0
  ofsMax : W16 := 0x8000         -- OFSMAX, 16 bits | 06 R190 | 0x8000
  ofsMin : W16 := 0x7FFF         -- OFSMIN, 16 bits | 06 R190 | 0x7FFF
  smp : List Smp := []           -- axis entries of the frame's VALID frame | 06 R166 | none
  udc : W16 := 0                 -- UDC of the last VALID frame, 16 bits | 06 R165 | DESIGN CHOICE 0, log 7
  aux : List W16 := []           -- AUX words of the frame's VALID frame | 06 R165 | none
  fresh : Bool := false          -- a VALID frame was accepted in this frame, 1 bit | 06 R167 | 0
  hist : List NodeSmp := []      -- samples of ended frames whose critical kernels are not finished | 02 R39 | none
  nstat : Byte := 0              -- NSTAT of the last VALID frame, 8 bits | 06 R165 | DESIGN CHOICE 0, log 7
  urg : Bool := false            -- REQ.URG of the frame's VALID frame, 1 bit | 06 R165 | 0
  pend : Nat := 0                -- REQ.PEND of the frame's VALID frame, 4 bits | 06 R165 | 0
  evPend : Option Nat := none    -- when a slot event on its 24-cycle path reaches the dispatcher, in 1/25 CK_CORE cycles | 08 R223 | none
  evDone : Bool := false         -- the slot event of the frame reached the dispatcher, 1 bit | 08 R223 | DESIGN CHOICE 0, log 7
  present : Bool := false        -- PRESENT, 1 bit | 07 R200, R215 | 0
  emptyRun : Nat := 0            -- consecutive EMPTY outcomes | 07 R200 | 0
  absent : Nat := 0              -- ABSENT, 16 bits saturating | 07 R215 | 0
  joins : Nat := 0               -- JOINS, 8 bits saturating | 07 R215 | 0
  avgSum : Int := 0              -- sum of offsets of the running average, 0.2 ns | 07 R203 | 0
  avgN : Nat := 0                -- frames in the running average | 07 R203 | 0
  discard : Nat := 0             -- frames whose offsets are still discarded | 07 R203 | 0
  trim : Int := 0                -- NET_DLYTRIM.TRIM, 16 bits two's complement, 0.2 ns | 07 R215 | 0
  trimLim : Bool := false        -- NET_DLYTRIM.LIMIT, 1 bit | 07 R215 | 0
  syncRun : Nat := 0             -- consecutive frames the node was seen in SYNC | 07 R204 | 0
  avgOk : Bool := false          -- the last average was strictly below t_B, 1 bit | 07 R204 | 0
  lSched : Nat := 0               -- LG_SLOT scheduled outcomes, 64 bits | 06 R170 | 0
  lValid : Nat := 0             -- LG_SLOT VALID, 64 bits | 06 R170 | 0
  lEmpty : Nat := 0             -- LG_SLOT EMPTY, 64 bits | 06 R170 | 0
  lCorrupt : Nat := 0           -- LG_SLOT CORRUPT, 64 bits | 06 R170 | 0
  lLate : Nat := 0              -- LG_SLOT LATE, 64 bits | 06 R170 | 0
  sup : List Byte := []          -- safe area of the last VALID frame | 06 R165 | none
  pdIn : List Byte := []         -- class-3 payload received in this frame | 07 R211 | none
  deriving DecidableEq, Repr

/-- A dynamic downlink frame waiting to be sent (06 R180, R183). -/
structure DynFrame where
  cls : Nat
  pos : Nat
  payload : List Byte
  deriving DecidableEq, Repr

/-- One branch as the head runs it (06 R161 to R184). -/
structure Branch where
  inCycle : Bool := false        -- NET_CYCSTAT.BRANCHES bit b | 06 R190 | 0
  stray : W32 := 0               -- NET_STRAY, 32 bits saturating | 06 R190 | 0
  grant : W32 := 0               -- GRANT_UP of the present frame, 32 bits | 06 R162, R178 | 0
  lastNorm : Nat := 0            -- mini-slot of the last normal grant | 06 R178 | DESIGN CHOICE 0, log 7
  credit : Tbl Nat := []         -- provisional outcome of each granted mini-slot of the frame: 1 USED, 2 LATE, 3 CORRUPT | 06 R179 | none
  grants : Nat := 0              -- NET_DYNSTAT.GRANTS, 8 bits | 06 R190 | 0
  used : Nat := 0                -- NET_DYNSTAT.USED, 8 bits | 06 R190 | 0
  slack : Nat := 0               -- NET_DYNSTAT.SLACK, 16 bits | 06 R190 | 0
  slackNow : Nat := 0            -- slack of the present frame's layout | 06 R190 | 0
  crIssued : Nat := 0            -- LG_CRED issued | 06 R179 | 0
  crUsed : Nat := 0              -- LG_CRED used | 06 R179 | 0
  crLate : Nat := 0              -- LG_CRED late | 06 R179 | 0
  crCorrupt : Nat := 0           -- LG_CRED corrupt | 06 R179 | 0
  crEmpty : Nat := 0             -- LG_CRED empty | 06 R179 | 0
  crOut : Nat := 0               -- LG_CRED outstanding | 06 R179 | 0
  packAt : Option Nat := none    -- when t_pack ends after the last critical completion, or t_val and t_pack after the last slot's event on a branch without axes, in 1/25 CK_CORE cycles | 06 R171 | none
  fbT : Nat := 0                 -- last byte of the last critical feedback slot, 0.2 ns | 00 R4 | DESIGN CHOICE 0, log 7
  ddl : Bool := false            -- C_max passed in this frame, 1 bit | 01 R18 | DESIGN CHOICE 0, log 7
  blkSent : Bool := false        -- the command block of the frame was started, 1 bit | 06 R171 | DESIGN CHOICE 0, log 7
  dynAt : Nat := 0               -- earliest start of the next dynamic downlink frame, 0.2 ns | 06 R180 | DESIGN CHOICE 0, log 7
  dynFrom : Nat := 0             -- end of the command block plus 12 byte times, 0.2 ns | 06 R180 | DESIGN CHOICE 0, log 7
  kfSent : Bool := false         -- the keeper frame of the frame was sent, 1 bit | 06 R181 | DESIGN CHOICE 0, log 7
  dynQ : List DynFrame := []     -- dynamic downlink queue | 06 R180 | empty
  csm : List Byte := []          -- last CSM sent | 06 R162 | none
  block : List Byte := []        -- last command block sent | 06 R172 | none
  keeperF : List Byte := []      -- last keeper frame sent | 06 R181 | none
  dynF : List Byte := []         -- last dynamic downlink frame sent | 06 R183 | none
  deriving DecidableEq, Repr

/-- State of the join machine toward one branch (07 R199). -/
inductive JoinSt where
  | listen | settle | sync | hold
  deriving DecidableEq, Repr

/-- A CSM as received and kept for its frame (07 R196, R197). -/
structure Csm where
  fcnt : W48
  t0 : W64
  headId : W64
  epoch : W16
  hash : W32
  grant : W32
  cflags : Byte
  stamp : Nat                    -- arrival of the time-stamp point, device time in 0.2 ns
  port : Nat := 0                -- port it arrived on (09 R239)
  calve : Bool := false          -- the header's CALVE bit (06 R159)
  deriving DecidableEq, Repr

/-- The part's own join state toward one branch, in the standby and node roles (07 R196 to R202). -/
structure Join where
  st : JoinSt := .listen         -- join state | 07 R199 | LISTEN
  block : Bool := false          -- command block of the SETTLE frame observed, 1 bit | 07 R199 | 0
  misses : Nat := 0              -- missed CSMs, 0 to 3 | 07 R199 | 0
  settleN : W48 := 0             -- frame n of the CSM that led to SETTLE | 07 R199 | DESIGN CHOICE 0, log 7
  kept : Option Csm := none      -- the present frame's CSM that is valid for the part, once chosen | 07 R197 | none
  cands : List Csm := []         -- the present frame's well-formed CSMs inside the window | 07 R197, 09 R239 | none
  decided : Bool := false        -- the present frame's choice has been made, 1 bit | 09 R239 | DESIGN CHOICE 0, log 7
  syncFrom : W48 := 0            -- frame in which SYNC was entered | 07 R199 | DESIGN CHOICE 0, log 7
  dTrim : Int := 0               -- path trims received, 0.2 ns | 07 R203 | 0
  dTrimR : Int := 0              -- path trims received in the reverse orientation, 0.2 ns | 09 R238 | 0
  dTrimNew : Int := 0            -- trim that acts from the next valid CSM, 0.2 ns | 07 R203 | 0
  syncRun : Nat := 0             -- consecutive frames in SYNC | 07 R204 | 0
  deriving DecidableEq, Repr

/-- Coldstart state (07 R215). -/
inductive CsState where
  | idle | listening | early | head | yielded | silent | node
  deriving DecidableEq, Repr

/-- The node-role part's process data (07 R206, R211, R212). -/
structure NRole where
  down : List (Nat × List Byte) := [] -- downlink class-3 payloads that have arrived, with their frames | 07 R212 | none
  keep : Nat := 0                -- consecutive A instants without a class-3 frame | 07 R206, R212 | 0
  safe : Bool := false           -- field outputs went to SAFE after K_KEEP, 1 bit | 07 R212 | 0
  ramp : Bool := false           -- step channels are ramping down, 1 bit | 07 R212 | 0
  rampN : Nat := 0               -- frames since the ramp began | 07 R212 | 0
  out : W32 := 0                 -- OUT in force, 32 bits | 07 R212 | DESIGN CHOICE 0, log 7
  runCur : Tbl F32 := []         -- run currents in force, binary32 each | 07 R211 | none
  usedCur : Tbl F32 := []        -- head: run currents last used, by part · 16 + channel | 15 R496 | none
  rate0 : Tbl Int := []          -- step rates at the start of the ramp, signed 32.32 a frame | 07 R212 | none
  upFrame : List Byte := []      -- last process-data frame sent | 07 R211 | none
  sfSent : Tbl Nat := []         -- SEQ plus 1 of the last PDU sent in a class-0 frame, by connection | 11 R306 | none
  statF : List Byte := []        -- last static frame sent | 06 R165, 07 R210 | none
  deriving DecidableEq, Repr

/-- The last frame a part in the node role repeated on a port (06 R155, 07 R205, R210). -/
structure Rep where
  start : Nat := 0               -- start at the transmit pin, device time 0.2 ns | 07 R210 | DESIGN CHOICE 0, log 45
  bytes : List Byte := []        -- the bytes sent | 06 R155 | none
  cut : Bool := false            -- a fence ended it with a PCS error code, 1 bit | 07 R205 | 0
  deriving DecidableEq, Repr

/-- The network side of the part (06, 07). -/
structure Net where
  ports : Tbl Port := []         -- branch ports B0 to B7 | 06 R190 | all Port resets
  firn : Port := {}              -- the firn port | 06 R153, 09 | Port reset
  nodes : Tbl Node := []         -- nodes by branch · 32 + position | 06 R170 | all Node resets
  br : Tbl Branch := []          -- branches 0 to 7 | 06 R161 | all Branch resets
  epoch : W16 := 0               -- NET_CYCSTAT.EPOCH, 16 bits | 06 R190 | 0
  calve : Bool := false          -- NET_CYCSTAT.CALVE, 1 bit | 06 R190 | 0
  hash : W32 := 0                -- NET_SCHHASH, 32 bits | 06 R190 | 0
  sel : Byte := 0                -- NET_SEL BRANCH and POS, 8 bits | 06 R190 | 0
  cs : CsState := .idle          -- NET_CSSTAT.CSTATE, 3 bits | 07 R215 | 0b000
  csEnd : Nat := 0               -- end of the listen window, device time 0.2 ns | 07 R191 | DESIGN CHOICE 0, log 7
  csSeen : Bool := false         -- a foreign CSM was received in the window, 1 bit | 07 R192 | 0
  seenBr : Byte := 0             -- NET_CSSTAT.SEENBR, 8 bits | 07 R215 | 0
  ownSeen : Bool := false        -- NET_CSSTAT.OWNSEEN, 1 bit | 07 R215 | 0
  higher : Bool := false         -- NET_CSSTAT.HIGHER, 1 bit | 07 R215 | 0
  peerId : W64 := 0              -- NET_PEERID, 64 bits | 07 R215 | 0
  peerIdHi : W32 := 0            -- NET_PEERID_HI latch, 32 bits | 07 R215 | 0
  joins : Tbl Join := []         -- join machines by branch | 07 R199 | LISTEN
  obeyId : W64 := 0              -- HEAD_ID obeyed, 64 bits | 07 R196 | DESIGN CHOICE 0, log 7
  obeyEpoch : W16 := 0           -- EPOCH obeyed, 16 bits | 07 R196 | DESIGN CHOICE 0, log 7
  phErr : Tbl Int := []          -- NET_NSYNC.PHERR by branch, 16 bits two's complement, 0.2 ns | 07 R215 | 0
  hashMm : Byte := 0             -- NET_NSYNC.HASH_MM, bit b of branch b | 07 R215 | 0
  rate : Tbl Int := []           -- NET_NRATE.RATE ρ by branch, 16 bits two's complement, 0.01 ppm | 07 R215 | 0
  resync : Tbl W32 := []         -- NET_RESYNC by branch, 32 bits saturating | 07 R215 | 0
  noDyn : Bool := false          -- no dynamic frame in this frame: another head, or another port, is obeyed, 1 bit | 09 R239 | 0
  muteTo : Nat := 0              -- CSMs before this device time are not acted on: the frame of EV_EPOCH_SEEN, 0.2 ns | 09 R256 | DESIGN CHOICE 0, log 7
  rep : Tbl Rep := []            -- frames repeated on B0 and B1 | 06 R155, 07 R210 | none
  orient : Option Bool := none   -- orientation of a node: true toward B0, none until it obeys a head | 09 R238, R239 | none
  orientNext : Option Bool := none -- orientation from the next frame on | 09 R239 | none
  kref : Tbl (Option (F32 × F32)) := []   -- keeper references adopted, by branch · 256 + position · 8 + channel | 06 R182, 09 R237 | none
  krefNext : Tbl (Option (F32 × F32)) := [] -- keeper references in force from the next frame | 06 R182 | none
  nrole : NRole := {}            -- the node role's process data | 07 R210 to R212 | none
  slotFin : Byte := 0        -- branches whose outcomes of the frame are final, 8 bits | 06 R169 | DESIGN CHOICE 0, log 7
  deriving DecidableEq, Repr

/-! ## Dispatcher (08_dispatcher) -/

/-- Class of a descriptor (08 R217): 0 critical, 1 trailing, 2 thread, 3 unused. -/
inductive TaskClass where
  | critical | trailing | thread | unused
  deriving DecidableEq, Repr

/-- State of an instance (08 R217). -/
inductive TaskSt where
  | idle | wait | delay | ready | run | preempted
  deriving DecidableEq, Repr

/-- A task descriptor (08 R217). -/
structure Task where
  cls : TaskClass := .unused     -- CLASS, 2 bits | 08 R217 | DESIGN CHOICE 3 (unused), log 9
  level : Nat := 0               -- LEVEL, 3 bits | 08 R217 | DESIGN CHOICE 0, log 9
  affin : Nat := 0               -- AFFIN, 2 bits | 08 R217 | DESIGN CHOICE 0, log 9
  depInit : Nat := 0             -- DEP_INIT, 8 bits | 08 R217 | DESIGN CHOICE 0, log 9
  obj : W16 := 0                 -- OBJ, 16 bits | 08 R217 | DESIGN CHOICE 0, log 9
  entry : W32 := 0               -- ENTRY, 32 bits | 08 R217 | DESIGN CHOICE 0, log 9
  dep : Nat := 0                 -- DEP, 8 bits | 08 R217 | DESIGN CHOICE 0, log 9
  st : TaskSt := .idle           -- STATE, 4 bits | 08 R217 | DESIGN CHOICE IDLE, log 9
  tmo : Bool := false            -- TMO, 1 bit | 08 R217 | DESIGN CHOICE 0, log 9
  period : Nat := 0              -- PERIOD, 16 bits | 08 R217 | DESIGN CHOICE 0, log 9
  tbase : Nat := 0               -- TBASE, 2 bits | 08 R217 | DESIGN CHOICE 0, log 9
  delay : Nat := 0               -- DELAY, 24 bits | 08 R217 | DESIGN CHOICE 0, log 9
  succ : List Nat := []          -- valid successors SUCC0 to SUCC3, 10 bits each | 08 R217 | DESIGN CHOICE none, log 9
  relcnt : W32 := 0              -- RELCNT, 32 bits | 08 R217 | DESIGN CHOICE 0, log 9
  aband : Bool := false          -- marked abandoned, 1 bit | 08 R225 | 0
  frame : Nat := 0               -- frame of the present instance | 08 R225 | DESIGN CHOICE 0, log 9
  again : Bool := false          -- a new instance waits for the running one to complete, 1 bit | 08 R220 | 0
  againFrame : Nat := 0          -- frame of the waiting instance | 08 R225 | DESIGN CHOICE 0, log 9
  againAb : Bool := false        -- the waiting instance is marked abandoned, 1 bit | 08 R225, R498 | 0
  due : Option Nat := none       -- expiry: frame number or sub-tick number | 08 R227 | none
  dueSub : Bool := false         -- the expiry counts sub-ticks, 1 bit | 08 R227 | DESIGN CHOICE 0, log 9
  dueT : Nat := 0                -- device time of the expiry, the delay list's order, 0.2 ns | 08 R227 | DESIGN CHOICE 0, log 9
  readyCyc : Nat := 0            -- CK_CORE cycle in which it became ready | 08 R224 | DESIGN CHOICE 0, log 9
  byExpiry : Bool := false       -- it became ready by an expiry, 1 bit | 08 R227 | DESIGN CHOICE 0, log 9
  lane : Nat := 0                -- lane group it runs on | 08 R216 | DESIGN CHOICE 0, log 9
  readyAt : Nat := 0             -- device time at which it became ready, 0.2 ns | 14 R369 | DESIGN CHOICE 0, log 9
  deriving DecidableEq, Repr

/-- A thread descriptor as a firmware thread creates it (08 R217, R218). -/
structure ThreadDesc where
  level : Nat
  fp : Fin 4
  depInit : Nat
  obj : W16
  entry : W32
  period : Nat
  tbase : Nat
  delay : Nat
  succ : List (Fin 1024)
  deriving DecidableEq, Repr

/-- What a firmware write to a thread descriptor does (08 R217, R219): it releases it, creates and releases it, or removes it. -/
inductive FwWrite where
  | release
  | create (x : ThreadDesc)
  | remove
  deriving DecidableEq, Repr

/-- The dispatcher (08). -/
structure Dsp where
  tasks : Tbl Task := []         -- descriptors 0 to 1,023 | 08 R217 | all unused
  ready : Tbl (List Nat) := []   -- ready lists: levels 0 and 1, then 8 + FP · 8 + level | 08 R224 | empty
  lanes : Tbl Nat := []          -- lane groups busy: task index + 1 | 08 R216 | free
  running : Tbl Nat := []        -- thread running on each FP: task index + 1 | 08 R226 | none
  delays : List Nat := []        -- delay list, by expiry, then by entry | 08 R227 | empty
  gate : Bool := false           -- trailing gate open, 1 bit | 08 R225 | 0
  gateFrame : Nat := 0           -- frame whose trailing kernels the gate last admitted, plus 1; 0 none yet | 08 R225 | 0
  subTick : Nat := 0             -- sub-ticks since reset | 08 R227, 17 R427 | DESIGN CHOICE 0, log 9
  merged : W32 := 0              -- DSP_MERGED, 32 bits saturating | 08 R233 | 0
  maxDep : Tbl Nat := []         -- DSP_RDYDEP MAX by level, 11 bits | 08 R233 | 0
  preempt : Tbl Nat := []        -- DSP_PREEMPT by FP, 8 bits saturating | 08 R233 | 0
  fault : BitVec 3 := 0          -- DSP_FAULT DEPUF, SUPER, TMO | 08 R233 | 0
  tmoCnt : W32 := 0              -- DSP_TMOCNT, 32 bits saturating | 08 R233 | 0
  descIdx : Nat := 0             -- DSP_DESCIDX, 10 bits | 08 R233 | 0
  desc : Tbl W32 := []           -- DSP_DESC0 to 7, 32 bits each | 08 R233 | 0
  kmask : W16 := 0xFFFF          -- DSP_TRCCTL.KMASK, 16 bits | 08 R233 | 0xFFFF
  lmask : Byte := 0xFF           -- DSP_TRCCTL.LMASK, 8 bits | 08 R233 | 0xFF
  frz : Bool := false            -- DSP_TRCCTL.FREEZE, 1 bit | 08 R233 | 0
  en : Bool := false             -- DSP_TRCCTL.EN, 1 bit | 08 R233 | 0
  wraps : Nat := 0               -- DSP_TRCPOS.WRAPS, 20 bits | 08 R233 | 0
  wrptr : Nat := 0               -- DSP_TRCPOS.WRPTR, 12 bits | 08 R233 | 0
  lost : W32 := 0                -- DSP_TRCLOST, 32 bits saturating | 08 R233 | 0
  idx : Nat := 0                 -- DSP_TRCIDX, 12 bits | 08 R233 | 0
  trc : Tbl (List W32) := []     -- moraine ring: 4,096 entries of four words | 08 R230 | DESIGN CHOICE all zero, log 9
  trcCyc : Nat := 0              -- CK_CORE cycle of the decisions in trcNow | 08 R230 | DESIGN CHOICE 0, log 9
  trcNow : List (Nat × List W32) := [] -- that cycle's decisions by KIND · 1,024 + index | 08 R230 | none
  trcD : List W32 := [0, 0, 0]   -- DSP_TRCD1 to 3, 32 bits each | 08 R233 | 0
  fwOvr : BitVec 4 := 0          -- FPs whose frame-bound thread overran in this frame | 01 R21 | 0
  tRel : Nat := 0                -- LG_TASK released, 64 bits | 08 R229 | 0
  tDone : Nat := 0               -- LG_TASK completed, 64 bits | 08 R229 | 0
  tSuper : Nat := 0              -- LG_TASK superseded, 64 bits | 08 R229 | 0
  tSkip : Nat := 0               -- LG_TASK skipped, 64 bits | 08 R229 | 0
  bind : Tbl (List Nat) := []    -- kernels bound to slot branch · 32 + position; 256 for LN feedback | 08 R221 | none
  deriving DecidableEq, Repr

/-! ## Operands of commands that carry several readings of one event -/

/-- An edge on a pin: the level it leaves and its time-stamp. -/
structure PinEdge where
  rise : Bool
  t : Nat
  deriving DecidableEq, Repr

/-- A port's loss of PCS synchronisation: whether its PHY still reports the link, and when. -/
structure SyncLoss where
  link : Bool
  t : Nat
  deriving DecidableEq, Repr

/-- How a frame arrives: its start time-stamp, and whether the PCS met an error code in it. -/
structure Arrival where
  t : Nat
  err : Bool
  deriving DecidableEq, Repr

/-- A firmware write to the descriptor table: the descriptor and what it does there. -/
structure FwAct where
  d : Fin 1024
  w : FwWrite
  deriving DecidableEq, Repr

/-- A level that has held for run consecutive samples of CK_FIELD, the last of them at t. -/
structure HeldLevel where
  run : Nat
  t : Nat
  deriving DecidableEq, Repr

/-- A pin's level in mV, and when it is read. -/
structure PinReading where
  mv : Nat
  t : Nat
  deriving DecidableEq, Repr

/-! ## Head pairs (09_head_pairs), safety (10_safety_functions, 11_safety_layer) -/

/-- State of a safety group (10 R278). -/
inductive SgState where
  | sto | ss1 | run
  deriving DecidableEq, Repr

/-- Class of a channel fault (10 R287, R294). -/
inductive ChFault where
  | healthy | transient | persistent | diagnosis
  deriving DecidableEq, Repr

/-- A safety PDU by its bytes (11 R295). -/
abbrev Pdu := List Byte

/-- One channel's consumer of one connection (11 R301 to R304). -/
structure ConnRx where
  has : Bool := false            -- a PDU has been accepted, 1 bit | 11 R302 | 0
  seq : W16 := 0                 -- SEQ of the last accepted PDU, 16 bits | 11 R302 | DESIGN CHOICE 0, log 12
  pdu : Pdu := []                -- last accepted PDU | 11 R302 | none
  wd : Nat := 0                  -- device time at which the watchdog expires, 0.2 ns | 11 R303 | DESIGN CHOICE 0, log 12
  wdOn : Bool := false           -- the watchdog runs, 1 bit | 11 R303 | DESIGN CHOICE 0, log 12
  cand : Option (W16 × Pdu) := none -- re-establishment candidate | 11 R304 | none
  fail : Bool := false           -- failure seen by this channel, 1 bit | 11 R303, R304 | 0
  deriving DecidableEq, Repr

/-- One channel's LG_SSEQ terms of a connection (11 R310, 18 R448). -/
structure SsLed where
  x : Nat := 0                   -- X, last accepted SEQ extended, 64 bits | 11 R310 | DESIGN CHOICE 0, log 12
  x0 : Nat := 0                  -- X_0, 64 bits | 11 R310 | DESIGN CHOICE 0, log 12
  issued : Nat := 0              -- issued, 64 bits | 11 R310 | 0
  rel : Nat := 0                 -- released, 64 bits | 11 R310 | 0
  withh : Nat := 0               -- withheld, 64 bits | 11 R310 | 0
  acc : Nat := 0                 -- accepted, 64 bits | 11 R310 | 0
  miss : Nat := 0                -- missed, 64 bits | 11 R310 | 0
  reb : Nat := 0                 -- rebased, 64 bits | 11 R310 | 0
  deriving DecidableEq, Repr

/-- One safety connection (11 R298 to R313). -/
structure Conn where
  tx : W16 := 0                  -- SEQ last assigned, 16 bits | 11 R299 | DESIGN CHOICE 0, log 12
  form : Pdu := []               -- PDU channel A formed, locked in the transmit buffer | 11 R300 | none
  formed : Bool := false         -- a formed PDU awaits channel B's check, 1 bit | 11 R300 | 0
  rel : Pdu := []                -- released PDU, repeated | 11 R299, R300 | none
  txRel : W16 := 0               -- FIO_SFCSEQ.TXSEQ, 16 bits | 11 R313 | 0
  stoTx : Bool := false          -- FIO_SFCSTAT.STO_TX, 1 bit | 11 R313 | 0
  a : ConnRx := {}               -- channel A's consumer | 11 R301 | see ConnRx
  b : ConnRx := {}               -- channel B's consumer | 11 R301 | see ConnRx
  fail : Bool := false           -- FIO_SFCSTAT.FAIL, 1 bit | 11 R313 | 0
  reason : Nat := 0              -- FIO_SFCSTAT.REASON, 3 bits | 11 R313 | 0b000
  rxSeq : W16 := 0               -- FIO_SFCSEQ.RXSEQ, 16 bits | 11 R313 | 0
  stoRx : Bool := false          -- FIO_SFCSTAT.STO_RX, 1 bit | 11 R313 | 0
  missedN : Nat := 0             -- FIO_SFCSTAT.MISSED, 16 bits saturating | 11 R313 | 0
  rej : Nat := 0                 -- FIO_SFCERR.REJ, 8 bits saturating | 11 R313 | 0
  stale : Nat := 0               -- FIO_SFCERR.STALE, 8 bits saturating | 11 R313 | 0
  wdog : Nat := 0                -- FIO_SFCERR.WDOG, 8 bits saturating | 11 R313 | 0
  withheld : Nat := 0            -- FIO_SFCERR.WITHHELD, 8 bits saturating | 11 R313 | 0
  rejEvt : Bool := false         -- EV_SAFE_PDU_REJ raised in this safety cycle, 1 bit | 11 R301 | 0
  v0 : Bool := false             -- SPD0 accepted as valid, 1 bit | 11 R296 | 0
  v1 : Bool := false             -- SPD1 accepted as valid, 1 bit | 11 R296 | 0
  s0 : F32 := ⟨0⟩                -- SPD0 last accepted, binary32 | 11 R296 | DESIGN CHOICE 0, log 12
  s1 : F32 := ⟨0⟩                -- SPD1 last accepted, binary32 | 11 R296 | DESIGN CHOICE 0, log 12
  la : SsLed := {}               -- channel A's LG_SSEQ terms | 11 R310 | see SsLed
  lb : SsLed := {}               -- channel B's LG_SSEQ terms | 11 R310, 18 R448 | see SsLed
  obs : Option W16 := none       -- highest downlink SEQ a standby observed, 16 bits | 11 R309 | none
  base : Bool := false           -- the next passing PDU is the base after a change of head, 1 bit | 11 R309 | 0
  deriving DecidableEq, Repr

/-- What the standby holds of a head's state: a firn image (09 R242). -/
structure Image where
  seq : W32 := 0                 -- firn sequence, 32 bits | 09 R242 | DESIGN CHOICE 0, log 11
  snap : W48 := 0                -- snapshot frame, 48 bits | 09 R242 | DESIGN CHOICE 0, log 11
  hash : W32 := 0                -- SCHED_HASH, 32 bits | 09 R242 | DESIGN CHOICE 0, log 11
  fw : W32 := 0                  -- firmware identity | 09 R242 | DESIGN CHOICE 0, log 11
  epoch : W16 := 0               -- EPOCH, 16 bits | 09 R242 | DESIGN CHOICE 0, log 11
  derate : W32 := 0              -- derating of the groups, 32 bits | 09 R242 | DESIGN CHOICE 0, log 11
  react : Tbl Nat := []          -- reaction in progress of each group | 09 R242 | none
  stops : Tbl StopKind := []     -- stop state of each group | 09 R242 | none
  lines : Tbl Line := []         -- line axes | 09 R242 | none
  conns : Tbl (W16 × W16) := []  -- by connection (its identity): sequence numbers sent and accepted | 09 R242 | none
  axes : Tbl Axis := []          -- axes | 09 R242 | none
  zones : Tbl Zone := []         -- zones | 09 R242 | none
  bytes : List Byte := []        -- standby: the image as received, header and CRC-32 among it | 09 R242, R243 | none
  deriving DecidableEq, Repr

/-- One axis's recorded frame in a shadow record (09 R248). -/
structure ShadowAx where
  smp : Option Smp               -- its static-slot entry as accepted
  udc : W16
  dA : W16
  dB : W16
  dC : W16
  valid : Bool
  k0 : F32
  k1 : F32
  deriving DecidableEq, Repr

/-- A segment frame (09 R243), and on the last segment what the image or shadow record it completes holds in its sections: their
layout inside is open (log 32), so the bytes alone do not say it. -/
structure Segment where
  bytes : List Byte              -- the frame, from destination address to FCS
  img : Option Image             -- what the sections of the assembled image hold, on its last segment (their layout is open, log 32)
  shRec : Tbl ShadowAx           -- what the assembled shadow record holds, on its last segment
  deriving DecidableEq, Repr

/-- Redundancy state (09). -/
structure Red where
  tkStep : Nat := 0              -- RED_STAT.TKSTEP, 4 bits | 09 R264 | 0
  yldPend : Bool := false        -- RED_STAT.YLDPEND, 1 bit | 09 R264 | 0
  fit : Bool := false            -- head: a fit standby is present, 1 bit | 09 R246 | 0
  firnOk : Bool := false         -- the last expected heartbeat or return was received, 1 bit | 09 R264 | 0
  far : Bool := false            -- RED_STAT.END, 1 bit | 09 R264 | 0
  changes : Nat := 0             -- RED_EPOCH.CHANGES, 16 bits saturating | 09 R264 | 0
  health : W32 := 0              -- standby: own health bits of the tests and images, 32 bits | 09 R249 | 0
  peerHealth : W32 := 0          -- head: HEALTH of the last return, 32 bits | 09 R264 | 0
  peerSeq : W32 := 0             -- head: NEWEST of the last return, 32 bits | 09 R264 | 0
  peerFc : W48 := 0              -- head: SNAP_FC of NEWEST, 48 bits | 09 R264 | 0
  peerOn : Bool := false         -- head: a return has been received, 1 bit | 09 R246 | 0
  retFrame : W48 := 0            -- head: frame of the last return, 48 bits | 09 R246 | DESIGN CHOICE 0, log 11
  lostRep : Bool := false        -- EV_FIRN_LOST raised in this loss, 1 bit | 09 R246 | 0
  imgFcHi : W16 := 0             -- RED_IMGFC_HI latch, 16 bits | 09 R264 | 0
  tkFcHi : W16 := 0              -- RED_TKFC_HI latch, 16 bits | 09 R264 | 0
  crcFail : Nat := 0             -- RED_IMGSTAT.CRCFAIL, 8 bits saturating | 09 R264 | 0
  baseMiss : Nat := 0            -- RED_IMGSTAT.BASEMISS, 8 bits saturating | 09 R264 | 0
  nseg : Nat := 0                -- RED_IMGSTAT.NSEG, 8 bits saturating | 09 R264 | 0
  skip : Nat := 0                -- RED_IMGSTAT.SKIP, 4 bits saturating | 09 R264 | 0
  buf0 : Option Image := none    -- buffer 0 | 09 R243, R264 | empty
  buf1 : Option Image := none    -- buffer 1 | 09 R243, R264 | empty
  newest1 : Bool := false        -- buffer 1 holds the newest valid image, 1 bit | 09 R243 | DESIGN CHOICE 0, log 11
  segNext : Nat := 0             -- standby: next segment number expected | 09 R243 | 0
  segBad : Bool := false         -- standby: a segment of the image in assembly is missing, 1 bit | 09 R243 | 0
  retDue : Option (W32 × Nat) := none -- standby: image and RESULT to be answered by a return | 09 R244 | none
  hbRun : Nat := 0               -- absent heartbeats in a row | 09 R246, R264 | 0
  hbRunMax : Nat := 0            -- RED_HBMISS.RUNMAX, 16 bits | 09 R264 | 0
  hbTotal : Nat := 0             -- RED_HBMISS.TOTAL, 16 bits saturating | 09 R264 | 0
  hbHere : Bool := false         -- the frame's heartbeat was received, 1 bit | 09 R241 | 0
  winDone : Byte := 0            -- branches whose CSM window of the frame has closed, 8 bits | 09 R250 | 0
  winCsm : Bool := false         -- some branch delivered a valid CSM in the frame, 1 bit | 09 R250 | 0
  hbClosed : Bool := false       -- the heartbeat window of the frame has closed, 1 bit | 09 R250 | 0
  silent : Nat := 0              -- silent frames in a row | 09 R250 | 0
  decided : Bool := false        -- a takeover is decided, 1 bit | 09 R250 | 0
  decT : Nat := 0                -- decision instant, device time 0.2 ns | 09 R264 | DESIGN CHOICE 0, log 11
  gapFrom : W48 := 0             -- first frame without valid commands, 48 bits | 09 R264 | DESIGN CHOICE 0, log 11
  shRuns : Nat := 0              -- RED_SHADOW.RUNS, 16 bits saturating | 09 R264 | 0
  shFails : Nat := 0             -- RED_SHADOW.FAILS, 16 bits saturating | 09 R264 | 0
  shRec : Tbl ShadowAx := []     -- standby: shadow record received | 09 R248 | none
  shImg : Option Image := none   -- standby: image the shadow record follows | 09 R248 | none
  tkFc : W48 := 0                -- RED_TKFC, 48 bits | 09 R264 | 0
  loadUs : Nat := 0              -- RED_TKTIME.LOAD_US, 16 bits | 09 R264 | 0
  nFault : Nat := 0              -- RED_TKTIME.NFAULT, 8 bits saturating | 09 R264 | 0
  gap : Nat := 0                 -- RED_TKTIME.GAP, 8 bits | 09 R264 | 0
  ystate : Nat := 0              -- RED_YIELD.YSTATE, 2 bits | 09 R264 | 0b00
  yfc : W48 := 0                 -- frame Y, 48 bits | 09 R258, R264 | 0
  yieldJ : W48 := 0              -- frame j in which the yield took effect | 09 R258 | DESIGN CHOICE 0, log 11
  yTries : Nat := 0              -- times the final image was sent | 09 R259 | 0
  yReq : Bool := false           -- a HEAD_YIELD takes effect at the next boundary, 1 bit | 09 R258 | 0
  silentTx : Bool := false       -- nothing is transmitted on branch ports, 1 bit | 09 R256, R258 | 0
  loaded : Bool := false         -- the image is loaded for the restart, 1 bit | 09 R253 | 0
  restart : W48 := 0             -- restart frame R, 48 bits | 09 R254 | DESIGN CHOICE 0, log 11
  restartOn : Bool := false      -- a restart is pending, 1 bit | 09 R254 | 0
  out : Option Image := none     -- head: image in transfer | 09 R243 | none
  outNext : Nat := 0             -- head: next segment to send | 09 R243 | 0
  outN : Nat := 0                -- head: segments of the image in transfer | 09 R243 | 0
  outBase : W32 := 0             -- head: base of the image in transfer | 09 R243 | DESIGN CHOICE 0, log 11
  outBaseFc : W48 := 0           -- head: snapshot frame of that base, 48 bits | 09 R243 | DESIGN CHOICE 0, log 11
  outShFc : W48 := 0             -- head: snapshot frame of the image the shadow record follows | 09 R248 | DESIGN CHOICE 0, log 11
  outFinal : Bool := false       -- head: the image in transfer is FINAL, 1 bit | 09 R258 | 0
  outSh : Tbl ShadowAx := []     -- head: shadow record to send | 09 R248 | none
  outShN : Nat := 0              -- head: shadow segments to send | 09 R248 | 0
  outShNext : Nat := 0           -- head: next shadow segment | 09 R248 | 0
  seq : W32 := 0                 -- head: firn sequence of the last image, 32 bits | 09 R242 | DESIGN CHOICE 0, log 11
  firnTx : List (List Byte) := [] -- firn frames sent in this frame: heartbeat, parameter records, return | 09 R240 | none
  segTx : Option Segment := none -- last segment sent | 09 R243 | none
  paramRec : List (Nat × W64) := [] -- writes of the boundary for the parameter record | 09 R244 | none
  obsState : Tbl (Nat × W48) := [] -- standby: STATE and frame of the last record observed, by axis | 09 R237 | none
  kReport : Tbl (Option (F32 × F32)) := [] -- new head: keeper references reported, by axis | 09 R254 | none
  firnFree : Nat := 0            -- device time from which the firn port is free, 0.2 ns | 09 R240 | DESIGN CHOICE 0, log 11
  asm : List Byte := []          -- standby: data received of the image in assembly | 09 R243 | none
  shSeq : W32 := 0               -- standby: sequence of the shadow record being received, 32 bits | 09 R248 | DESIGN CHOICE 0, log 11
  shNext : Nat := 0              -- standby: its next segment number expected | 09 R248 | 0
  asmSeq : W32 := 0              -- standby: sequence of the image in assembly, 32 bits | 09 R243 | DESIGN CHOICE 0, log 11
  asmHold : Bool := false        -- standby: its base is held, 1 bit | 09 R243 | 0
  loopFail : Byte := 0           -- standby: ports whose last loopback failed, 8 bits | 09 R247 | 0
  judged : Bool := false         -- standby: the frame has been judged for silence, 1 bit | 09 R250 | 0
  load : Option Image := none    -- image carried forward to the restart frame | 09 R253 | none
  prevSmp : Tbl (Option Smp) := [] -- new head: samples of frame R-1, by axis | 09 R254 | none
  shFor : Option W48 := none     -- head: frame whose results the shadow record takes | 09 R248 | none
  outShSeq : W32 := 0            -- head: sequence of the image the shadow record follows | 09 R248 | DESIGN CHOICE 0, log 11
  quitA : Option Nat := none     -- the first A after the head role ended, at which held steps are withdrawn, device time 0.2 ns | 09 R257 | none
  snapAt : Option W48 := none    -- head: frame of the last snapshot taken or skipped | 09 R242 | none
  deriving DecidableEq, Repr

/-- One input pair (10 R269 to R273). -/
structure SinPair where
  a : Bool := false              -- A_RAW: last unmasked sample of SINA, 1 bit | 10 R294 | 0
  b : Bool := false              -- B_RAW: last unmasked sample of SINB, 1 bit | 10 R294 | 0
  onRun : Nat := 0               -- consecutive pairs that show demand | 10 R270 | 0
  offRun : Nat := 0              -- consecutive pairs that show none | 10 R270 | 0
  demand : Bool := false         -- DEMAND: filtered demand, 1 bit | 10 R270, R294 | 0
  discRun : Nat := 0             -- consecutive disagreeing pairs | 10 R271 | 0
  latch : Bool := false          -- LATCH, 1 bit | 10 R272, R294 | 0
  clr : Nat := 0                 -- latch clearing: 0 none, 1 demand seen together | 10 R272 | 0
  bothOn : Nat := 0              -- pairs in a row in which both channels show the demand state | 10 R272 | 0
  bothOff : Nat := 0             -- pairs in a row in which both show the non-demand state | 10 R272 | 0
  onFrom : Option Nat := none    -- safety tick at which the filtered state became non-demand | 10 R283 | none
  tpLowA : Bool := false         -- SINA read inactive within the test window, 1 bit | 10 R273 | 0
  tpLowB : Bool := false         -- SINB read inactive within the test window, 1 bit | 10 R273 | 0
  deriving DecidableEq, Repr

/-- One safety output (10 R274 to R276, R284, R286). -/
structure SOut where
  soh : Bool := false            -- SOH closed, 1 bit | 10 R294 | 0
  sol : Bool := false            -- SOL closed, 1 bit | 10 R294 | 0
  fault : Bool := false          -- FAULT, 1 bit | 10 R294 | 0
  frzA : Bool := false           -- SOH frozen, 1 bit | 10 R286, R294 | 0
  frzB : Bool := false           -- SOL frozen, 1 bit | 10 R286, R294 | 0
  cutA : Bool := false           -- SOH opened by its field die while commanded closed, 1 bit | 12 R331 | 0
  cutB : Bool := false           -- SOL opened by its field die while commanded closed, 1 bit | 12 R331 | 0
  disA : Nat := 0                -- consecutive ticks in which SOH's readback disagrees | 10 R276 | 0
  disB : Nat := 0                -- consecutive ticks in which SOL's readback disagrees | 10 R276 | 0
  rbA : Nat := 0                 -- last readback of SOH, mV | 10 R274 | DESIGN CHOICE 0, log 12
  rbB : Nat := 0                 -- last readback of SOL, mV | 10 R274 | DESIGN CHOICE 0, log 12
  testH : Bool := false          -- high-side off-test in progress, 1 bit | 10 R275 | 0
  testL : Bool := false          -- low-side off-test in progress, 1 bit | 10 R275 | 0
  atH : Nat := 0                 -- start of the last high-side off-test plus 1, device time 0.2 ns; 0 none yet | 10 R275 | 0
  atL : Nat := 0                 -- start of the last low-side off-test plus 1, device time 0.2 ns; 0 none yet | 10 R275 | 0
  limA : Bool := false           -- SOH's current limit acts, 1 bit | 10 R274 | 0
  limB : Bool := false           -- SOL's current limit acts, 1 bit | 10 R274 | 0
  deriving DecidableEq, Repr

/-- One safety group (10 R277 to R284). -/
structure SGroup where
  st : SgState := .sto           -- group state | 10 R278, R294 FIO_SFGRP_STO | STO
  ss1At : Nat := 0               -- safety cycle of SS1 entry, t0 | 10 R280 | DESIGN CHOICE 0, log 12
  ss1V0 : F64 := .zero           -- v_mon at t0, f64 | 10 R281 | DESIGN CHOICE 0, log 12
  ss1r : Bool := false           -- SS1-r monitoring, 1 bit | 10 R281 | 0
  reason : Nat := 0              -- SS1-r end: 1 ZERO, 2 TMAX, 3 ENVELOPE | 10 R281 | 0
  slsRun : Nat := 0              -- consecutive cycles over the SLS limit | 10 R282 | 0
  slsOn : Bool := false          -- SLS in force (FIO_SFGRP_SLS), 1 bit | 10 R282, R294 | 0
  slsReq : Bool := false         -- a violation to be acted on at the cycle end, 1 bit | 10 R282 | 0
  slsRep : Bool := false         -- the violation was raised in this run, 1 bit | 10 R282 | 0
  sbcAt : Option Nat := none     -- safety cycle at which the brake outputs open | 10 R284 | none
  rst : Bool := false            -- a reset received in this cycle, 1 bit | 10 R283 | 0
  v0 : F64 := .zero              -- v_mon at entry into the degraded window, f64 | 10 R286 | DESIGN CHOICE 0, log 12
  tmax : Bool := false           -- SS1_TMAX has expired in this cycle, 1 bit | 10 R281 | 0
  deriving DecidableEq, Repr

/-- One safety channel (10 R266 to R268, R287). -/
structure SChan where
  fault : ChFault := .healthy    -- AFLT or BFLT, 2 bits | 10 R294 | 0b00
  trans : List Nat := []         -- times of transient faults of the last 60 minutes, device time 0.2 ns | 10 R287 | none
  stOk : Bool := true            -- last self-test passed, 1 bit | 10 R268 | DESIGN CHOICE 1, log 12
  deriving DecidableEq, Repr

/-- A safety set in one flash slot, as loaded (10 R290, R291). -/
structure SafeLoad where
  on : Bool := false             -- a load is in progress, 1 bit | 10 R291 | 0
  total : Nat := 0               -- TOTAL, 32 bits | 10 R291 | DESIGN CHOICE 0, log 12
  off : Nat := 0                 -- bytes written so far | 10 R291 | 0
  erase : Bool := false          -- the slot is being erased, 1 bit | 10 R291 | 0
  first : List Byte := []        -- data of the first segment, written after the erase | 10 R291 | none
  ansBuf : Option Nat := none    -- buffer whose answer waits for the erase | 10 R291 | none
  done : Bool := false           -- loaded and checked, waiting for the confirm, 1 bit | 10 R291 | 0
  due : Nat := 0                 -- device time by which the confirm must arrive, 0.2 ns | 10 R291 | DESIGN CHOICE 0, log 12
  deriving DecidableEq, Repr

/-- The safety subsystem (10, 11). -/
structure Saf where
  a : SChan := {}                -- channel A | 10 R265 | see SChan
  b : SChan := {}                -- channel B | 10 R265 | see SChan
  tick : Nat := 0                -- safety ticks of channel A since start | 10 R267 | 0
  tickB : Nat := 0               -- tick exchanges channel B has received | 10 R267 | 0
  cycle : Nat := 0               -- safety cycles ended | 10 R267 | 0
  smpK : Nat := 0                -- sample pairs taken | 10 R269 | 0
  perA : List Nat := []          -- periods of channel A's ticks in this cycle as channel B counts them, ns | 10 R266 | none
  perB : List Nat := []          -- periods of channel B's ticks in this cycle as channel A counts them, ns | 10 R266 | none
  exBad : Bool := false          -- a missing or corrupt exchange in this cycle, 1 bit | 10 R268 | 0
  mismatch : Bool := false       -- a withheld PDU of this cycle enters its comparison, 1 bit | 10 R268, 11 R300 | 0
  cmpBad : Bool := false         -- the last comparison met a mismatch or a missing or corrupt exchange, 1 bit | 10 R268 | 0
  supA : Nat := 0                -- channel A's supply monitor as last exchanged, 0.1 % of nominal | 10 R267 | DESIGN CHOICE 0, log 12
  supB : Nat := 0                -- channel B's supply monitor as last exchanged, 0.1 % of nominal | 10 R267 | DESIGN CHOICE 0, log 12
  diag : Nat := 0                -- safety cycles of the diagnosis still to run, 0 to 2 | 10 R268 | 0
  deg : Bool := false            -- degraded window in force, 1 bit | 10 R286, R294 | 0
  degEnd : Nat := 0              -- device time at which it expires, 0.2 ns | 10 R286 | DESIGN CHOICE 0, log 12
  degAt : Nat := 0               -- safety cycle of its entry | 10 R286 | DESIGN CHOICE 0, log 12
  degExp : Bool := false         -- it has expired, 1 bit | 10 R289 | 0
  clr : Option Nat := none       -- device time until which a SAFE_CLEAR waits for a matching comparison, 0.2 ns | 10 R288 | none
  pairs : Tbl SinPair := []      -- input pairs 0 to 7 | 10 R269 | see SinPair
  outs : Tbl SOut := []          -- outputs 0 to 3 | 10 R274 | see SOut
  groups : Tbl SGroup := []      -- groups 0 to 31 | 10 R277 | see SGroup
  conns : Tbl Conn := []         -- connections 0 to 63 | 11 R298 | see Conn
  setOk : Bool := false          -- SETOK: the safety set runs, 1 bit | 10 R290, R294 | 0
  setCrc : W32 := 0              -- FIO_SFSETCRC, 32 bits | 10 R294 | 0
  stage4 : Bool := false         -- calving stage 4 requests STO, 1 bit | 10 R278 | 0
  tpLow : Tbl Bool := []         -- test-pulse sources low: TPA0, TPA1, TPB0, TPB1 | 10 R273 | high
  tpStart : Tbl Nat := []        -- start of each source's last pulse plus 1, device time 0.2 ns; 0 none yet | 10 R273 | 0
  load : SafeLoad := {}          -- a load of a new set | 10 R291 | none
  mirror : Tbl W32 := []         -- mirrors of R294 and R313 as last copied: words 0 to 8 and 16 + 4·c + k; STO inverted | 10 R294, 11 R313 | 0
  csel : Nat := 0                -- FIO_SFCSEL.CONN, 6 bits | 11 R313 | 0
  params : Tbl W64 := []         -- class 11 parameters of the running set, by key | 10 R290, R293 | none running
  deriving DecidableEq, Repr

/-! ## Field IO (12_field_io) -/

/-- State of a field channel (12 R317, R335). -/
inductive ChState where
  | powerUp | input | output | quiescing | quiesced
  deriving DecidableEq, Repr

/-- One field channel, both sides of its coupler (12 R314 to R332). -/
structure FioCh where
  st : ChState := .powerUp       -- CSTATE without the latch and SAFE codes, 3 bits | 12 R335 | 0b110
  level : Bool := false          -- filtered level, 1 bit | 12 R319 | 0 (FIO_IN)
  inv : Bool := true             -- INVALID: input invalid, 1 bit | 12 R335 | 1
  latched : Bool := false        -- FIO_IN bit: level latched at S, 1 bit | 12 R320, R335 | 0
  invLat : Bool := true          -- INVALID as latched with FIO_IN, 1 bit | 12 R320 | 1
  cmd : Bool := false            -- FIO_OUT bit: commanded value since the last A, 1 bit | 12 R335 | 0
  sw : Bool := false             -- output switch closed, 1 bit | 12 R315 | 0 (open)
  drv : Bool := false            -- level by which the die drives the switch: the coupler's, the SAFE value, or open, 1 bit | 12 R315, R329, R332 | 0 (open)
  swon : Bool := false           -- FIO_SWON bit, 1 bit | 12 R335 | 0
  die : BitVec 5 := 0            -- flags in the die: OVERCUR, THERMAL, OPEN, EXTHIGH, REVERSE from bit 0 | 12 R328 | 0
  live : BitVec 5 := 0           -- live flags as last returned, same order | 12 R335 | 0
  sticky : BitVec 5 := 0         -- sticky copies, same order | 12 R335 | 0
  thcnt : Nat := 0               -- THCNT, 8 bits saturating | 12 R335 | 0
  thAt : Nat := 0                -- device time of the last thermal shutdown, 0.2 ns | 12 R322 | DESIGN CHOICE 0, log 13
  offSeen : Bool := false        -- commanded off at some A since the shutdown, 1 bit | 12 R322 | 0
  openIn : Nat := 0              -- consecutive classifications OPEN | 12 R326 | 0
  openOut : Nat := 0             -- consecutive classifications not OPEN | 12 R326 | 0
  extIn : Nat := 0               -- consecutive classifications EXT_HIGH | 12 R326 | 0
  extOut : Nat := 0              -- consecutive classifications not EXT_HIGH | 12 R326 | 0
  opening : Bool := false        -- a quiesced output opens at the next A, 1 bit | 12 R317 | 0
  resuming : Bool := false       -- INPUT or OUTPUT from the next A, 1 bit | 12 R317 | 0
  coupOut : Bool := false        -- direction the coupler has, 1: logic to field | 12 R315 | 0 (input)
  revBusy : Bool := false        -- coupler reversal under way, 1 bit | 12 R317 | 0
  revN : Nat := 0                -- housekeeping cycles of the reversal | 12 R317 | 0
  dSafe : Nat := 0               -- SAFE value the die holds | 12 R316, R334 | 0 (FIO.SAFE's default)
  dRetry : Bool := false         -- retry mode the die holds, 1 bit | 12 R316, R334 | 0
  dOl : Bool := false            -- open-load enable the die holds, 1 bit | 12 R316 | DESIGN CHOICE 0, log 13
  deriving DecidableEq, Repr

/-- One field die (12 R315, R316, R329 to R332). -/
structure FioDie where
  tj : Byte := 0                 -- TJ, 8 bits | 12 R335 | 0
  vfld : Byte := 0               -- VFLD, 8 bits | 12 R335 | 0
  hkErr : Nat := 0               -- HKERR, 8 bits saturating | 12 R335 | 0
  hkRun : Nat := 0               -- consecutive housekeeping errors | 12 R316 | 0
  hkLost : Bool := true          -- HKLOST, 1 bit | 12 R335 | 1
  present : Bool := false        -- PRESENT, 1 bit | 12 R335 | 0
  refreshed : Bool := false      -- a valid refresh has been received since power-up, 1 bit | 12 R315 | 0
  silFrom : Nat := 0             -- device time of the last valid refresh, 0.2 ns | 12 R329 | DESIGN CHOICE 0, log 13
  silent : Bool := false         -- outputs at SAFE after logic silence, in the die, 1 bit | 12 R329 | 0
  silRep : Bool := false         -- SILENT as reported, 1 bit | 12 R335 | 0
  safe : Bool := false           -- outputs at SAFE after a SAFE order, in the die, 1 bit | 12 R330 | 0
  safeRep : Bool := false        -- SAFEORD as reported, 1 bit | 12 R335 | 0
  backAt : Bool := false         -- outputs follow their commands again from the next A, 1 bit | 12 R329 | 0
  latch : Bool := true           -- off latch in force, in the die, 1 bit | 12 R332 | 1
  latchRep : Bool := true        -- LATCH14 as reported, 1 bit | 12 R335 | 1
  held : Bool := true            -- outputs not re-enabled since the latch, 1 bit | 12 R332 | 1
  reAt : Bool := false           -- outputs re-enable at the next A, 1 bit | 12 R332 | 0
  first : Bool := true           -- the next release is the first since power-up, 1 bit | 12 R332 | 1
  uv : Bool := false             -- undervoltage crossed, in the die, 1 bit | 12 R331 | 0
  uvRep : Bool := false          -- UV16 as reported, 1 bit | 12 R335 | 0
  low : Bool := false            -- low crossed, in the die, 1 bit | 12 R331 | 0
  lowRep : Bool := false         -- LOW18 as reported, 1 bit | 12 R335 | 0
  deriving DecidableEq, Repr

/-- The field IO (12). -/
structure Fio where
  ch : Tbl FioCh := []           -- channels 0 to 31 | 12 R314 | see FioCh
  dies : Tbl FioDie := []        -- dies 1 to 4 | 12 R314 | see FioDie
  ack : W48 := 0                 -- frame in which FP0 last acknowledged the field scan | 12 R316 | DESIGN CHOICE 0, log 13
  acked : Bool := false          -- FP0 has acknowledged the field scan, 1 bit | 12 R316 | 0
  outS : W32 := 0                -- commanded outputs as they stood at S, 32 bits | 13 R337, R338 | 0
  qReq : W32 := 0                -- channels that quiesce at the next boundary, 32 bits | 12 R317, 15 R382 | 0
  rReq : W32 := 0                -- channels that resume at the next boundary, 32 bits | 12 R317, 15 R382 | 0
  aReq : Bool := false           -- FIO_REARM acts at the next boundary, 1 bit | 12 R332, 15 R382 | 0
  order : Bool := false          -- a SAFE order goes out with the next housekeeping cycle, 1 bit | 12 R330 | 0
  hold : Bool := false           -- the SAFE order's hold: ends once a frame tick begins again in the head or node role, 1 bit | 12 R330 | 0
  deriving DecidableEq, Repr

/-! ## Capture (13_capture) -/

/-- State of the capture engine (13 R346, R357). -/
inductive CapSt where
  | idle | holdoff | armed | post | rearm | done | frozen | stopped
  deriving DecidableEq, Repr

/-- A run of missing instants of a record (13 R347), by instants since arming. -/
structure CrevRun where
  cause : Nat := 0               -- cause code | 13 R347 | none
  first : Nat := 0               -- first missing instant, since arming | 13 R348 | none
  len : Nat := 0                 -- missing instants | 13 R348 | none
  tStart : Nat := 0              -- device time of the first, 0.2 ns | 13 R348 | none
  deriving DecidableEq, Repr

/-- One record, in progress or waiting for its samples to leave staging (13 R341, R345). -/
structure CapRec where
  recno : W32 := 0               -- RECNO, 32 bits | 13 R345 | 0
  repoch : W16 := 0              -- REPOCH, 16 bits | 13 R345 | 0
  slot : Nat := 0                -- slot of the record | 13 R346 | 0
  n : Nat := 0                   -- instants since arming | 13 R341 | 0
  trig : Option Nat := .none     -- instant of the trigger sample, since arming | 13 R341 | none
  trigT : Nat := 0               -- device time of the trigger sample, 0.2 ns | 13 R345 | DESIGN CHOICE 0, log 14
  fcnt : W48 := 0                -- frame counter of the trigger sample's frame | 13 R345 | DESIGN CHOICE 0, log 14
  forced : Bool := false         -- FORCED, 1 bit | 13 R345 | 0
  hostTrig : Bool := false       -- HOSTTRIG, 1 bit | 13 R345 | 0
  maskFail : Bool := false       -- MASK_FAIL, 1 bit | 13 R345 | 0
  trunc : Bool := false          -- TRUNCATED, 1 bit | 13 R345 | 0
  dead : W32 := 0xFFFFFFFF       -- DEAD, 32 bits | 13 R344 | 0xFFFF_FFFF (first record)
  nlen : Nat := 0                -- NLEN | 13 R345 | 0
  maskCh : Nat := 0xFF           -- MASKCH | 13 R345 | 0xFF
  maskIdx : W32 := 0xFFFFFFFF    -- MASKIDX, 32 bits | 13 R345 | 0xFFFF_FFFF
  ncrev : Nat := 0               -- NCREV, 16 bits saturating | 13 R345 | 0
  crevSeq : W32 := 0             -- CREVSEQ, 32 bits | 13 R345 | 0
  runs : List CrevRun := []      -- closed runs of the pre-trigger part | 13 R347 | none
  open_ : Option CrevRun := .none -- open run | 13 R347 | none
  lastT : Nat := 0               -- device time of the record's last instant, 0.2 ns | 13 R344 | DESIGN CHOICE 0, log 14
  deriving DecidableEq, Repr

/-- A sample in staging (13 R347). -/
structure StgSmp where
  recno : W32
  repoch : W16
  inst : Nat                     -- instant since arming
  time : Nat
  addr : Nat                     -- capture address of its slot position
  bytes : List Byte
  deriving DecidableEq, Repr

/-- The capture engine (13). -/
structure Cap where
  st : CapSt := .idle            -- CAP_STAT.STATE, 3 bits | 13 R357 | 0b000
  startAt : Bool := false        -- CAPT_START acts at the next frame boundary, 1 bit | 13 R346 | 0
  stopAt : Bool := false         -- CAPT_STOP acts at the next frame boundary, 1 bit | 13 R346, 15 R382 | 0
  forceAt : Bool := false        -- CAPT_FORCE acts at the next frame boundary, 1 bit | 13 R343, 15 R382 | 0
  rowDue : Bool := false         -- the row of the frame that ended is still to be taken, 1 bit | 13 R338 | 0
  wrign : Bool := false          -- CAP_STAT.WRIGN, 1 bit | 13 R357 | 0
  nch : Nat := 0                 -- CAP_STAT.NCH, 7 bits | 13 R357 | 0
  dest : Nat := 0                -- CAP_STAT.DEST, 1 bit | 13 R357 | 0
  src : Nat := 0                 -- CAP_STAT.SRC, 2 bits | 13 R357 | 0
  mode : Nat := 0                -- CAP_STAT.MODE, 1 bit | 13 R357 | 0
  slotSize : W32 := 0            -- CAP_SLOTSIZE, 32 bits | 13 R357 | 0
  recno : W32 := 0               -- RECNO of the next record, 32 bits | 13 R345 | 0
  repoch : W16 := 0              -- REPOCH of the next record, 16 bits | 13 R345 | 0
  cur : CapRec := {}             -- record in progress | 13 R341 | none
  fin : List CapRec := []        -- records whose samples are still in staging, oldest first | 13 R345 | none
  completed : Nat := 0           -- records completed since CAPT_START | 13 R346 | 0
  firstRec : Bool := true        -- the next record is the first since CAPT_START, 1 bit | 13 R344 | 1
  prevLast : Nat := 0            -- device time of the previous record's last sample, 0.2 ns | 13 R344 | DESIGN CHOICE 0, log 14
  lastRecno : W32 := 0           -- CAP_RECNO, 32 bits | 13 R357 | 0
  lastRepoch : W16 := 0          -- REPOCH of that record, 16 bits | 13 R357 | 0
  repochL : W16 := 0             -- CAP_REPOCH latch, 16 bits | 13 R357 | 0
  decim : Nat := 0               -- source instants since the last one kept | 13 R336 | 0
  trigs : List Nat := []         -- occurrences not yet judged at an instant, device times, 0.2 ns | 13 R341, R342 | none
  force : Option Nat := none     -- a CAPT_FORCE is kept: device time at which it took effect, 0.2 ns | 13 R343 | none
  auto : Option Nat := none      -- device time at which the auto timer expires, 0.2 ns | 13 R343 | none
  autoTrig : Bool := false       -- the auto timer has expired: the next instant triggers, 1 bit | 13 R343 | 0
  lvlLow : Bool := false         -- a sample at or below TRIG_LVL - TRIG_HYST has passed, 1 bit | 13 R342 | 0
  lvlHigh : Bool := false        -- a sample at or above TRIG_LVL + TRIG_HYST has passed, 1 bit | 13 R342 | 0
  tapPos : Nat := 0              -- words of the tapped frame so far, its first preamble byte counted; 0 outside a frame | 13 R342 | 0
  tapHit : Bool := false         -- every byte compared so far matched, 1 bit | 13 R342 | DESIGN CHOICE 0, log 14
  stg : List StgSmp := []        -- staging, oldest first | 13 R347 | empty
  fill : Nat := 0                -- staging fill in bytes | 13 R347 | 0
  fillMax : Nat := 0             -- largest fill since the last read, bytes | 13 R357 CAP_STAGE.MAX | 0
  contend : Bool := false        -- a CONTEND crevasse holds admission off, 1 bit | 13 R347 | 0
  cseq : W32 := 0                -- CAP_CREVPOS, 32 bits | 13 R357 | 0
  crevHi : W32 := 0              -- CAP_CREVSMP_HI latch, 32 bits | 13 R357 | 0
  maskFail : Bool := false       -- CAP_MASKSTAT.FAIL, 1 bit | 13 R357 | 0
  maskCh : Nat := 0              -- CAP_MASKSTAT.CH, 6 bits | 13 R357 | 0
  maskIdx : W16 := 0             -- CAP_MASKSTAT.IDX, 16 bits | 13 R357 | 0
  maskRec : W32 := 0             -- CAP_MASKREC, 32 bits | 13 R357 | 0
  deadMax : W32 := 0             -- CAP_DEADMAX, 32 bits | 13 R357 | 0
  nForced : Nat := 0             -- CAP_TRIGCNT.FORCED, 16 bits saturating | 13 R357 | 0
  nEarly : Nat := 0              -- CAP_TRIGCNT.EARLY, 16 bits saturating | 13 R357 | 0
  apBase : Nat := 0              -- CAP_APBASE.BASE, 12 bits | 13 R357 | 0
  owed : Nat := 0                -- LG_CAPT owed, 64 bits | 13 R349 | 0
  stored : Nat := 0              -- LG_CAPT stored, 64 bits | 13 R349 | 0
  crev : Nat := 0                -- LG_CAPT crevasse, 64 bits | 13 R349 | 0
  held : Nat := 0                -- LG_CAPT held, 64 bits | 13 R349 | 0
  mem : List Host.Cell := []     -- capture space by capture address | 13 R352 | unlisted bytes 0: DESIGN CHOICE, log 14
  deriving DecidableEq, Repr

/-! ## Performance counters (14_counters) -/

/-- One programmable counter (14 R359 to R364). -/
structure Pc where
  cnt : Nat := 0                 -- PCk, 48 bits; a carry stands above bit 47 until COUNTER_OVERFLOW | 14 R359 | 0
  ovfn : Nat := 0                -- OVFN, 8 bits saturating | 14 R362 | 0
  ovf : Bool := false            -- PRF_OVF.OVF bit k | 14 R372 | 0
  ovfAtWr : Bool := false        -- PRF_OVF.OVF_AT_WR bit k | 14 R372 | 0
  hiL : W16 := 0                 -- PRF_CNTk_HI.CNT_HI latch, 16 bits | 14 R372 | 0
  ovfnL : Nat := 0               -- PRF_CNTk_HI.OVFN latch, 8 bits | 14 R372 | 0
  event : Nat := 0               -- PRF_CFGk.EVENT, 7 bits | 14 R372 | 0
  mode : Nat := 0                -- PRF_CFGk.MODE, 2 bits | 14 R372 | 0b00
  thresh : Nat := 0              -- PRF_CFGk.THRESH, 16 bits | 14 R372 | 0
  prev : Bool := false           -- v of the cycle before was above 0, 1 bit | 14 R359 | 0
  fresh : Bool := false          -- the next cycle is the first after a change of EVENT or MODE, 1 bit | 14 R359 | 0
  deriving DecidableEq, Repr

/-- One bandwidth monitor (14 R366, R367). -/
structure Bw where
  now : Nat := 0                 -- bytes (monitor 9: units of 64) of the window in progress | 14 R366 | 0
  part : Nat := 0                -- monitor 9: bytes short of a unit | 14 R366 | 0
  last : W32 := 0                -- PRF_BWm_LAST, 32 bits | 14 R372 | 0
  min : W32 := 0xFFFFFFFF        -- PRF_BWm_MIN, 32 bits | 14 R372 | 0xFFFF_FFFF
  max : W32 := 0                 -- PRF_BWm_MAX, 32 bits | 14 R372 | 0
  cnt : W32 := 0                 -- PRF_BWm_CNT, 32 bits | 14 R372 | 0
  win : Nat := 1000              -- window length in force, µs | 14 R367, R371 | 1,000
  skip : Bool := false           -- the window in progress is discarded, 1 bit | 14 R367 | 0
  endAt : Nat := 0               -- device time of the last boundary of its windows, 0.2 ns | 14 R366 | DESIGN CHOICE 0, log 15
  deriving DecidableEq, Repr

/-- A tagged invocation under way (14 R368, R369): times are device times in 0.2 ns. -/
structure TagRun where
  task : Nat
  obj : W16
  crit : Bool
  lane : Nat
  ready : Nat
  fcnt : W16
  disp : Nat
  opnd : Option Nat
  comp : Option Nat
  wb : Option Nat
  abnd : Bool
  branch : Option Nat            -- branch whose packing is still awaited
  deriving DecidableEq, Repr

/-- The PRF block (14). -/
structure Prf where
  cyc : Nat := 0                 -- CYC, 64 bits | 14 R358 | 0
  cycHi : W32 := 0               -- PRF_CYC_HI latch, 32 bits | 14 R372 | 0
  en : Byte := 0                 -- PRF_CTRL.EN, 8 bits | 14 R372 | 0
  frz : Bool := false            -- PRF_CTRL.FREEZE, 1 bit | 14 R372 | 0
  setLo : W32 := 0               -- PRF_SET_LO, 32 bits | 14 R372 | 0
  setHi : W16 := 0               -- PRF_SET_HI, 16 bits | 14 R372 | 0
  pcs : Tbl Pc := []             -- PC0 to PC7 | 14 R359 | see Pc
  pulses : List (Nat × Nat) := [] -- pulse occurrences on their way: event code, CK_CORE cycle of arrival | 14 R361 | none
  core : Nat := 0                -- CK_CORE cycles since the reset | 01 R493, 17 R429 | DESIGN CHOICE 0, log 48
  coreAcc : Nat := 0             -- device time not yet made into CK_CORE cycles, units of 0.05 ns | 17 R429 | 0
  bw : Tbl Bw := []              -- monitors 0 to 9 | 14 R366 | see Bw
  tagEn : Bool := false          -- PRF_TAGCTL.EN, 1 bit | 14 R372 | 0
  tagFrz : Bool := false         -- PRF_TAGCTL.FREEZE, 1 bit | 14 R372 | 0
  tagCls : Nat := 0              -- PRF_TAGCTL.CLASS, 2 bits | 14 R372 | 0b00
  tagN : Nat := 1023             -- PRF_TAGCTL.NM1, 16 bits | 14 R372 | 1,023
  seed : W32 := 1                -- PRF_TAGSEED, 32 bits | 14 R372 | 0x0000_0001
  lfsr : W32 := 1                -- LFSR, 32 bits | 14 R368 | DESIGN CHOICE 1, log 15
  countdown : Nat := 0           -- dispatches to the next tag | 14 R368 | DESIGN CHOICE 0, log 15
  tagRuns : List TagRun := []    -- tagged invocations under way | 14 R369 | none
  tagWraps : Nat := 0            -- PRF_TAGPOS.WRAPS, 24 bits | 14 R372 | 0
  tagPtr : Nat := 0              -- PRF_TAGPOS.WRPTR, 8 bits | 14 R372 | 0
  tagLost : W32 := 0             -- PRF_TAGLOST, 32 bits saturating | 14 R372 | 0
  tagIdx : Nat := 0              -- PRF_TAGIDX.IDX, 8 bits | 14 R372 | 0
  tags : Tbl (List W32) := []    -- tag buffer: 256 entries of eight words | 14 R370 | DESIGN CHOICE all zero, log 15
  tagD : List W32 := [0, 0, 0, 0, 0, 0, 0] -- PRF_TAGD1 to 7, 32 bits each | 14 R372 | 0
  tagCyc : Nat := 0              -- CK_CORE cycle of the last tag entry written | 14 R370 | DESIGN CHOICE 0, log 15
  tagCycN : Nat := 0             -- tag entries written in that cycle | 14 R370 | DESIGN CHOICE 0, log 15
  deriving DecidableEq, Repr

/-! ## Host link, mailboxes, process image, events (15_host_mailboxes) -/

/-- State of a mailbox buffer (15 R378). -/
inductive BufSt where
  | free | host | inflight | fw
  deriving DecidableEq, Repr

/-- A request FP2 has taken and answers later (15 R382). -/
structure Taken where
  mbx : Nat                      -- mailbox
  buf : Nat                      -- buffer
  subs : List Byte               -- AX_CMD: sub-codes of the entries handled so far; OVL_APPLY: the overlay as copied
  ready : Bool                   -- to be decided at the next frame boundary
  deriving DecidableEq, Repr

/-- The values of the frame that has ended: its input image is written, and its capture row closes, by U0 of the next one
(13 R338, 15 R390, R391). -/
structure Feed where
  frame : W48 := 0               -- the frame | 15 R390 | DESIGN CHOICE 0, log 16
  t0 : Nat := 0                  -- its T0, 0.2 ns | 15 R390 | DESIGN CHOICE 0, log 16
  inst : Nat := 0                -- its S, 0.2 ns | 13 R338 | DESIGN CHOICE 0, log 14
  epoch : W16 := 0               -- EPOCH, 16 bits | 15 R390 | DESIGN CHOICE 0, log 16
  role : Nat := 3                -- ROLE as FRM_STAT.ROLE, 2 bits | 15 R390 | DESIGN CHOICE 3, log 16
  ctag : W32 := 0                -- CTAG of the output buffer active in it, 32 bits | 15 R390 | DESIGN CHOICE 0, log 16
  ln : List Byte := []           -- LN area | 15 R390 | none
  outS : W32 := 0                -- commanded outputs at its S, 32 bits | 13 R337 | DESIGN CHOICE 0, log 14
  lines : Tbl LineSt := []       -- line states | 15 R390 | none
  zones : Tbl Zone := []         -- zones | 15 R390 | none
  parts : List (List Byte) := [] -- uplink fields of the node-role parts | 15 R390 | none
  axes : Tbl Axis := []          -- axes | 15 R390 | none
  stat : Tbl W32 := []           -- status words of the axes | 15 R390 | none
  deriving DecidableEq, Repr

/-- The host link, the mailboxes and the process image (15). -/
structure Hst where
  hostsel : Bool := true         -- HOSTSEL as sampled, 1 bit | 15 R402 DEV_HOST, 17 R441 | Strap: DESIGN CHOICE 1 (PCIe), log 16
  linkup : Bool := false         -- DEV_HOST.LINKUP, 1 bit | 15 R402 | 0
  speed : Nat := 0               -- DEV_HOST.SPEED, 2 bits | 15 R402 | 0
  width : Nat := 0               -- DEV_HOST.WIDTH, 2 bits | 15 R402 | 0
  rdata : W32 := 0               -- word the last host read returned, 32 bits | 15 R374, R375 | DESIGN CHOICE 0, log 16
  ur : Bool := false             -- the last BAR0 access completed as an Unsupported Request, 1 bit | 15 R374 | DESIGN CHOICE 0, log 16
  wdArmed : Bool := false        -- DEV_WDSTAT.ARMED, 1 bit | 15 R402 | 0
  wdExp : Bool := false          -- DEV_WDSTAT.EXPIRED, 1 bit | 15 R402 | 0
  wdKey : Bool := false          -- DEV_WDSTAT.BADKEY, 1 bit | 15 R402 | 0
  wdCnt : Nat := 0               -- DEV_WDSTAT.EXPCNT, 13 bits saturating | 15 R402 | 0
  wdDue : Nat := 0               -- device time of the watchdog's expiry, 0.2 ns | 15 R388 | DESIGN CHOICE 0, log 16
  wdRun : Bool := false          -- its timer runs, 1 bit | 15 R388 | 0
  bufs : Tbl BufSt := []         -- state of buffers 0 to 511 | 15 R378 | all FREE
  presented : Option Nat := some 0 -- FREE buffer MBX_ALLOC presents | 15 R402 | 0, VALID 1
  picks : Nat := 0               -- buffers presented so far: argument of the free choice | the model's own | DESIGN CHOICE 0, log 17
  mem : List Host.Cell := []     -- bytes of the mailbox buffers, buffer · 512 + offset | 15 R377 | unlisted bytes 0: DESIGN CHOICE, log 16
  q : Tbl (List Nat) := []       -- requests queued on mailboxes 0 to 31, oldest first | 15 R379 | empty
  ans : Tbl (List Nat) := []     -- answers queued on mailboxes 0 to 31, oldest first | 15 R379 | empty
  taken : List Taken := []       -- requests in FW, in the order FP2 took them | 15 R382, 16 R418 | none
  rr : Nat := 0                  -- mailbox FP2 looks at next | 15 R382 | DESIGN CHOICE 0, log 16
  dbT : Tbl Nat := []            -- device time of the doorbell of a buffer's request, 0.2 ns | 15 R383 | none
  allocs : Nat := 0              -- LG_MBX allocations, 64 bits | 15 R380 | 0
  frees : Nat := 0               -- LG_MBX frees, 64 bits | 15 R380 | 0
  poolB : W32 := 0               -- MBX_POOLB latch, 32 bits | 15 R402 | 0
  err : BitVec 4 := 0            -- MBX_ERR: BADWR, BADDB, BADFREE, QFULL | 15 R402 | 0
  piActive : Nat := 0            -- output buffer ACTIVE | 15 R395 | 0
  piHost : Nat := 2              -- output buffer HOST | 15 R395 | 2
  piPend : Option Nat := none    -- output buffer PENDING | 15 R393, R402 | none
  piSuper : Nat := 0             -- MBX_PISTAT.SUPER, 16 bits saturating | 15 R402 | 0
  committed : Bool := false      -- MBX_PISTAT.COMMITTED, 1 bit | 15 R402 | 0
  wrign : Bool := false          -- MBX_PISTAT.WRIGN, 1 bit | 15 R402 | 0
  cmterr : Bool := false         -- MBX_PISTAT.CMTERR, 1 bit | 15 R402 | 0
  hrdy : Bool := true            -- MBX_PISTAT.HRDY, 1 bit | 15 R402 | 1
  copyFrom : Nat := 0            -- buffer whose copy into HOST is under way | 15 R393 | DESIGN CHOICE 0, log 16
  po : Tbl (List Host.Cell) := [] -- bytes of the three output buffers | 15 R393 | zero (R395)
  pin : Tbl (List Host.Cell) := [] -- bytes of the three input buffers | 15 R391 | unlisted bytes 0: DESIGN CHOICE, log 16
  piWr : List (Nat × W48) := []  -- input buffers being written and their frames, oldest first | 15 R391 | none
  feed : Feed := {}              -- what the frame that ended leaves for its input image and its capture row | 13 R338, 15 R390 | see Feed
  piLast : Nat := 3              -- MBX_PILAST.BUF, 2 bits | 15 R402 | 0b11
  piFcnt : W16 := 0              -- MBX_PILAST.FCNT, 16 bits | 15 R402 | 0
  piDecim : Nat := 1             -- HOST.PI_DECIM in force | 15 R401 | 1
  msix : Tbl W32 := []           -- MSI-X table words | 15 R374 | PRESUMED 0, log 16
  deriving DecidableEq, Repr

/-- An event as raised (15 R399). -/
structure EvEntry where
  time : Nat                     -- device time of the raise, 0.2 ns
  frame : W48
  code : W16
  obj : W16
  react : Nat
  groups : W32
  data : List Byte
  deriving DecidableEq, Repr

/-- Events, reactions, interrupts (15 R397 to R400, 03 R85 to R87). -/
structure Evt where
  istat : Byte := 0              -- EVT_ISTAT.SRC, 8 bits | 15 R402 | 0
  imask : Byte := 0              -- EVT_IMASK.EN, 8 bits | 15 R402 | 0
  ivec : W32 := 0x00FAC688       -- EVT_IVEC, 24 bits | 15 R402 | 0x00FA_C688
  wraps : Nat := 0               -- EVT_RINGPOS.WRAPS, 20 bits | 15 R402 | 0
  wrptr : Nat := 0               -- EVT_RINGPOS.WRPTR, 12 bits | 15 R402 | 0
  lost : W32 := 0                -- EVT_LOST, 32 bits saturating | 15 R402 | 0
  queue : List EvEntry := []     -- up to 64 entries waiting for the ring | 15 R399 | empty
  ring : Tbl (List Byte) := []   -- event ring: 4,096 entries of 32 bytes | 15 R399 | DESIGN CHOICE all zero, log 18
  msgs : Tbl Nat := []           -- MSI-X messages sent, by vector | 15 R398 | 0
  matrix : Tbl Nat := []         -- reaction matrix: event code · 32 + group | 03 R87 | none: defaults
  due : Tbl Nat := []            -- severities raised in this frame, one bit each, by group | 03 R69, R86 | none
  dueLater : Tbl Nat := []       -- the same of occurrences of the next frame, before its tick | 01 R14, 03 R69 | none
  dueNow : Tbl Nat := []         -- severities that act at the boundary | 03 R69, R86 | none
  under : Tbl Nat := []          -- stop reaction under way, by group | 03 R86 | none
  derate : W32 := 0              -- groups derated, 32 bits | 03 R85 | 0
  clrDer : W32 := 0              -- groups whose derating a command clears at the next boundary | 03 R85 | 0
  seen : Tbl (List Nat) := []    -- codes raised in this frame, by object: each is raised once per object and frame | 03 R88, 06 R186, 12 R333 | none
  deriving DecidableEq, Repr

/-! ## Configuration, overlays, flash, lifecycle (16_base_and_rime) -/

/-- A flash slot that CFG_WRITE is filling (16 R411). -/
structure SlotWr where
  next : Nat := 0                -- next contiguous offset | 16 R411 | 0
  wrote : Bool := false          -- a write at offset 0 has started it, 1 bit | 16 R411 | 0
  deriving DecidableEq, Repr

/-- Base configuration, flash and lifecycle (16). -/
structure Cfg where
  flash : List Host.Cell := []   -- NOR flash, 64 MiB, by flash offset | 16 R410 | unlisted bytes 0xFF (erased): PRESUMED, log 19
  slots : Tbl SlotWr := []       -- writes under way, by slot code | 16 R411 | none
  erasing : Option (Nat × List Byte × Nat) := none -- slot under erase, data to write, buffer to answer | 16 R411 | none
  prefFw : Nat := 0              -- boot record: preferred firmware slot, 0 A, 1 B | 16 R410, R413 | DESIGN CHOICE 0, log 19
  prefBase : Nat := 0            -- boot record: preferred base slot, 0 A, 1 B | 16 R410, R412 | DESIGN CHOICE 0, log 19
  safeSlot : Nat := 0            -- boot record: active safety-set slot | 16 R410 | DESIGN CHOICE 0, log 19
  lcy : Nat := 1                 -- lifecycle state, 0 to 3 | 16 R421 | DESIGN CHOICE 1 (PROVISION, as shipped), log 19
  lcyNext : Option Nat := none   -- lifecycle state from the next reset | 16 R421 | none
  cfgKey : Option (BitVec 256) := none -- fused digest of the configuration key | 16 R420 | not provisioned: DESIGN CHOICE, log 19
  safeKey : Option (BitVec 256) := none -- fused digest of the safety key | 16 R420 | not provisioned: DESIGN CHOICE, log 19
  fwOn : Bool := false           -- firmware runs, 1 bit | 16 R413, 17 R442 | 0
  fwSlot : Nat := 255            -- DEV_INFO FW_SLOT: 0 A, 1 B, 255 recovery | 16 R422 | DESIGN CHOICE 255, log 19
  fwVer : W32 := 0               -- DEV_INFO FW_VERSION of the running firmware, 32 bits | 16 R422 | 0 none runs
  fwKcd : W32 := 0               -- kernel-count digest of the running firmware, 32 bits | 16 R409 | 0 none runs
  running : Bool := false        -- a configuration runs, 1 bit | 16 R412 | 0
  cfgSlot : Nat := 255           -- DEV_INFO CFG_SLOT | 16 R422 | 255 none
  cfgState : Nat := 0            -- DEV_INFO CFG_STATE | 16 R422 | 0 none
  reason : Nat := 0              -- DEV_INFO CFG_REASON | 16 R422 | 0 none
  hash : W32 := 0                -- DEV_INFO SCHED_HASH, 32 bits | 16 R422 | 0
  digest : BitVec 256 := 0       -- DEV_INFO CFG_DIGEST, 256 bits | 16 R422 | DESIGN CHOICE 0, log 19
  endAt : Option Nat := none     -- the running configuration ends at the next boundary; base slot then started | 16 R412 | none
  startReq : Option Nat := none  -- base slot to be started by BASE_CONFIG_START | 16 R412, R413 | none
  deriving DecidableEq, Repr

/-! ## Supplies, clocks, reset (17_power_clocks) -/

/-- Cause of a core-die reset (17 R437), in the order of PWR_RSTCAUSE. -/
inductive RstCause where
  | por | brownout | stage4 | pin | vcore | clock | fwdog | host
  deriving DecidableEq, Repr

/-- Supplies, clocks and reset (17). -/
structure Pwr where
  stage : Nat := 0               -- deepest calving stage in force, 0 to 4 | 17 R431, R445 | 0b000
  vmain : Nat := 0               -- PWR_VMAIN.NOW, mV, 16 bits | 17 R445 | 0
  vmainMin : Nat := 0xFFFF       -- PWR_VMAIN.MIN, mV, 16 bits | 17 R445 | 0xFFFF
  vcore : Nat := 0               -- PWR_VCORE.NOW, mV, 16 bits | 17 R445 | 0
  vcoreMin : Nat := 0xFFFF       -- PWR_VCORE.MIN, mV, 16 bits | 17 R445 | 0xFFFF
  droop : Bool := false          -- VCORE strictly below 0.770 V, 1 bit | 17 R429 | 0
  hist : List Nat := []          -- stretched cycles of the last 800 nominal periods, as period numbers, newest first | 17 R430 | none
  periods : Nat := 0             -- nominal CK_CORE periods since the reset | 17 R430 | DESIGN CHOICE 0, log 20
  hold75 : Bool := false         -- PWR_STAT.HOLD75, 1 bit | 17 R445 | 0
  holdEnd : Bool := false        -- full clock again from the next tick, 1 bit | 17 R432 | 0
  holdN : Nat := 0               -- cycles since the last one the hold stretched | 17 R432 | DESIGN CHOICE 0, log 20
  stretched : Bool := false      -- a cycle was stretched in this frame, 1 bit | 17 R430, 01 FRM_STAT.THROT | 0
  frmMin : Nat := 100            -- lowest clock over any 1 µs of this frame, percent | 01 R33 FRM_STAT.MINCLK | 100
  limNow : Bool := false         -- a stretch was denied in this frame, 1 bit | 17 R430 | 0
  limit : Bool := false          -- PWR_STAT.LIMIT, 1 bit | 17 R445 | 0
  viol : Bool := false           -- PWR_STAT.VIOLOW, 1 bit | 17 R445 | 0
  vio33 : Bool := true           -- PWR_STAT.VIO33, 1 bit | 17 R425, R445 | Strap: DESIGN CHOICE 1, log 20
  sl : Nat := 1                  -- PWR_STAT.SL, 2 bits | 17 R445 | 0b01
  droopCnt : W32 := 0            -- PWR_DROOPCNT, 32 bits saturating | 17 R445 | 0
  limCnt : W32 := 0              -- PWR_LIMCNT, 32 bits saturating | 17 R445 | 0
  s1 : Nat := 0                  -- PWR_CALVCNT.S1, 8 bits saturating | 17 R445 | 0
  s2 : Nat := 0                  -- PWR_CALVCNT.S2, 8 bits saturating | 17 R445 | 0
  s3 : Nat := 0                  -- PWR_CALVCNT.S3, 8 bits saturating | 17 R445 | 0
  cause : BitVec 9 := 1          -- PWR_RSTCAUSE, 9 bits | 17 R445 | Cause: DESIGN CHOICE POR, log 20
  boot : Nat := 0                -- PWR_STRAP.BOOT, 2 bits | 17 R445 | Strap: DESIGN CHOICE 0b00, log 20
  clk : BitVec 7 := 0            -- PWR_CLKSTAT, 7 bits | 17 R445 | 0
  sl0cnt : Nat := 0              -- PWR_SLSTAT.SL0CNT, 8 bits saturating | 17 R445 | 0
  sl0why : Nat := 0              -- PWR_SLSTAT.SL0WHY, 4 bits | 17 R445 | 0
  sl1why : Nat := 0              -- PWR_SLSTAT.SL1WHY, 4 bits | 17 R445 | 0
  bCnt : Nat := 0                -- die B's record of SL0 entries since POR, 8 bits saturating | 17 R436 | 0
  bWhy : Nat := 0                -- die B's record of the last entry | 17 R436 | 0
  good : Bool := false           -- PWRGOOD released high, 1 bit | 17 R436 | 0
  stby : Bool := true            -- VSTBY and VSAFB run, 1 bit | 17 R426 | 1 (the core die runs)
  rails : Bool := true           -- the rails of orders 2 to 6 run, 1 bit | 17 R426 | 1 (the core die runs)
  seq : Bool := false            -- the rail sequence is under way, 1 bit | 17 R426 | 0
  up : Bool := true              -- the core die is out of reset, 1 bit | 17 R442 | 1
  rst : Option RstCause := none  -- a core-die reset is under way | 17 R437 | none
  commit : Bool := false         -- its fault-log commit is awaited, 1 bit | 17 R437 | 0
  below3 : Bool := false         -- VMAIN has been strictly below 3.0 V since the last POR, 1 bit | 17 R437 | 0
  s3From : Option Nat := none    -- device time of the present stay in stage 3, 0.2 ns | 17 R432 | none
  fp3Gated : Bool := false       -- FP3 is clock-gated, 1 bit | 17 R432 | 0
  fp3Grace : Bool := false       -- a paused FP3 thread is first judged at the next tick after resuming, 1 bit | 17 R432 | 0
  dramLast : Nat := 0            -- device time of the last DRAM request, 0.2 ns | 17 R432 | DESIGN CHOICE 0, log 20
  selfRef : Bool := false        -- the LPDDR4X is in self-refresh, 1 bit | 17 R432 | 0
  l1 : Bool := false             -- the PCIe link is in L1, 1 bit | 17 R432 | 0
  deriving DecidableEq, Repr

/-! ## Ledgers and the fault log (18_ledgers_longrun) -/

/-- The ledger unit and the fault log (18). -/
structure Lgr where
  opn : Byte := 0x21             -- LGR_STAT.OPEN, 8 bits | 18 R457 | 0x21
  now : Byte := 0                -- LGR_STAT.NOW, 8 bits | 18 R457 | 0
  brk : Byte := 0                -- LGR_STAT.BRK, 8 bits | 18 R457 | 0
  chkCnt : W32 := 0              -- LGR_CHKCNT, 32 bits | 18 R457 | 0
  selL : Nat := 0                -- LGR_SEL.LEDGER, 3 bits | 18 R457 | 0
  selDir : Bool := false         -- LGR_SEL.DIR, 1 bit | 18 R457 | 0
  selInst : Nat := 0             -- LGR_SEL.INST, 8 bits | 18 R457 | 0
  latchFc : W32 := 0             -- LGR_LATCHFC, 32 bits | 18 R457 | 0
  t : List W64 := [0, 0, 0, 0, 0, 0] -- LGR_T0 to T5, 64 bits each | 18 R457 | 0
  diff : W64 := 0                -- LGR_DIFF, 64 bits | 18 R457 | 0
  brkCnt : W32 := 0              -- LGR_BRKCNT, 32 bits saturating | 18 R457 | 0
  firstV : Bool := false         -- LGR_FIRST.VALID, 1 bit | 18 R457 | 0
  firstL : Nat := 0              -- LGR_FIRST.LEDGER, 3 bits | 18 R457 | 0
  firstDir : Bool := false       -- LGR_FIRST.DIR, 1 bit | 18 R457 | 0
  firstInst : Nat := 0           -- LGR_FIRST.INST, 8 bits | 18 R457 | 0
  kept : Tbl Int := []           -- D of the last check: ledger · 1,024 + channel B · 512 + instance · 2 + identity | 18 R450 | 0
  base : Tbl (List Int) := []    -- terms at the opening: ledger · 1,024 + instance · 2 + direction | 18 R449 | none (all zero)
  take : Tbl (List Int) := []    -- snapshot a tick has requested: terms by the same key | 18 R448 | none
  takeFc : W48 := 0              -- its frame, 48 bits | 18 R448 | DESIGN CHOICE 0, log 21
  takeT : Nat := 0               -- its device time, 0.2 ns | 18 R448 | DESIGN CHOICE 0, log 21
  takeDue : Bool := false        -- it is still to be evaluated, 1 bit | 18 R448 | 0
  snap : Tbl (List Int) := []    -- T0 to T5, D and the first identity's D of the last check, by the same key | 18 R448, R457 | none
  snapFc : W48 := 0              -- frame of the last check, 48 bits | 18 R457 | 0
  snapT : Nat := 0               -- device time of the last check, 0.2 ns | 18 R438, R454 | DESIGN CHOICE 0, log 21
  ret : Tbl (List Int) := []     -- retention memory: snap at the last check | 17 R438 | none
  retOpen : Byte := 0            -- retention memory: ledgers open at the last check | 17 R438 | DESIGN CHOICE 0, log 21
  retFc : W48 := 0               -- retention memory: its frame | 17 R438 | DESIGN CHOICE 0, log 21
  retT : Nat := 0                -- retention memory: its device time, 0.2 ns | 17 R438 | DESIGN CHOICE 0, log 21
  retUse : Bool := false         -- the closures of the last reset are still to be written, 1 bit | 17 R438 | 0
  logPend : List (List Byte) := [] -- fault-log entries pending, oldest first | 18 R455 | none
  logFrom : Nat := 0             -- device time from which the oldest has been pending, 0.2 ns | 18 R455 | DESIGN CHOICE 0, log 21
  logFirst : List (List Byte) := [] -- logical entries 0 to 63 | 18 R455 | none
  logRing : List (List Byte) := [] -- logical entries 64 to 511, oldest first | 18 R455 | none
  logSeq : W32 := 0              -- SEQ of the next entry, 32 bits | 18 R454 | DESIGN CHOICE 0, log 21
  logUsed : Nat := 0             -- journal bytes used in the present half of the region | 18 R455 | DESIGN CHOICE 0, log 21
  logHalf : Bool := false        -- the journal is in the second half, 1 bit | 18 R455 | DESIGN CHOICE 0, log 21
  deriving DecidableEq, Repr

end Sys2Proof.Machine
end

