-- ==== Sys2Proof/Syntax.lean ====
section
/-! DEFINITION. The commands of the block: one constructor per row of spec/opcode_table.json, with the operands that the
outside supplies. Times are device times in units of 0.2 ns; byte lists are frames from the destination address to the
FCS. Rows that the state alone decides take no operand. -/

namespace Sys2Proof

/-- A command (spec/opcode_table.json). -/
inductive Instr where
  /-- FRAME_TICK, R15: The head raises the frame tick in the CK_NET cycle that contains T0 of each frame. -/
  | frameTick
  /-- LSYNC_FALL, R29: LSYNC falls when FRAME.LSYNC_W has passed. -/
  | lsyncFall
  /-- TICK_TAKES_EFFECT, R15: After its fixed 3-cycle latency, the tick takes effect in CK_CORE, CK_FP, CK_FIELD and CK_MEM, and the frame-boundary actions run. -/
  | tickTakesEffect
  /-- SAMPLE_INSTANT, R13: At S the local node latches field inputs, encoder counts and emitted step counts, and starts SSI transfers. -/
  | sampleInstant
  /-- APPLY_INSTANT, R13: At A the duties apply, field outputs take their commanded values, and a new step emission interval begins. -/
  | applyInstant
  /-- LN_FEEDBACK_VALID, R221: At S + 500 ns, LN feedback becomes valid and decrements the LN axes' critical kernels. -/
  | lnFeedbackValid
  /-- SLOT_DEADLINE, R168: The latest acceptance instant e_k of a static slot passes in CK_RX. -/
  | slotDeadline (b : Fin 8) (p : Fin 32)
  /-- STATIC_FRAME_RECEIVED, R167: The head receives a static uplink frame and judges it against the slot windows. -/
  | staticFrameReceived (b : Fin 8) (bytes : List Byte) (t : Nat) (err : Bool)
  /-- SLOT_EVENT, R223: A slot's acceptance or deadline reaches the dispatcher 24 CK_CORE cycles later and decrements the bound critical kernels. -/
  | slotEvent (b : Fin 8) (p : Fin 32)
  /-- KERNEL_DISPATCH, R225: The dispatcher places the head of the level-0 list, or of the gated level-1 list, on the lowest free lane group. -/
  | kernelDispatch
  /-- CRITICAL_KERNEL_COMPLETE, R44: An axis's critical kernel completes conditioning, loops, notches, current loop and duties for the frame. -/
  | criticalKernelComplete (i : Fin 256) (t : Nat) (opnd : Nat) (comp : Nat)
  /-- TRAILING_KERNEL_COMPLETE, R57: An axis's trailing kernel completes the observer, references, N4 coefficients, adaptation slew and process-image feed. -/
  | trailingKernelComplete (i : Fin 256) (t : Nat) (opnd : Nat) (comp : Nat)
  /-- ZONE_KERNEL_COMPLETE, R107: A zone's critical kernel completes the web torques, the tension estimate and the CB_Z step. -/
  | zoneKernelComplete (z : Fin 64) (t : Nat) (opnd : Nat) (comp : Nat)
  /-- ZONE_TRAILING_KERNEL_COMPLETE, R110: A zone's trailing kernel sums the trim contributions and updates the roll diameter. -/
  | zoneTrailingKernelComplete (z : Fin 64) (t : Nat) (opnd : Nat) (comp : Nat)
  /-- COMMAND_BLOCK_DEADLINE, R18: At C_max(b) the head marks unfinished critical kernels abandoned and starts the block with them invalid. -/
  | commandBlockDeadline (b : Fin 8)
  /-- OVERRUN_SERIES, R22: A third consecutive frame with EV_FRAME_OVERRUN raises EV_OVERRUN_SERIES. -/
  | overrunSeries
  /-- LN_KERNEL_DEADLINE, R498: At A − 1 µs an unfinished LN critical kernel is abandoned and hands over no increment. -/
  | lnKernelDeadline
  /-- COMMAND_BLOCK_START, R171: After t_pack of packing, the head starts branch b's command block. -/
  | commandBlockStart (b : Fin 8)
  /-- U0_TRAILING_SKIP, R20: At U0 of the next frame, undispatched trailing kernels are skipped and the trailing gate closes. -/
  | u0TrailingSkip
  /-- FW_DEADLINE, R21: A frame-bound thread still running when the next tick takes effect is merged and raises EV_FW_OVERRUN. -/
  | fwDeadline (fp : Fin 4)
  /-- LSYNC_IN_EDGE, R30: An LSYNC_IN edge is time-stamped and, in LOCK mode, trims the device-time rate. -/
  | lsyncInEdge (x : Machine.PinEdge)
  /-- LSYNC_IN_LOSS, R31: Four consecutive windows without an edge raise EV_LSYNC_LOST and clear LSLOCK. -/
  | lsyncInLoss
  /-- SLOT_OUTCOME_FINAL, R169: At E_dyn each static slot's and credit's outcome becomes final and is counted. -/
  | slotOutcomeFinal (b : Fin 8)
  /-- DYNAMIC_UPLINK_RECEIVED, R179: The head receives a dynamic uplink frame in a granted mini-slot and judges its credit. -/
  | dynamicUplinkReceived (b : Fin 8) (bytes : List Byte) (t : Nat) (err : Bool)
  /-- DYNAMIC_DOWNLINK_FRAME, R180: The head sends the next queued dynamic downlink frame that fits before E_dyn. -/
  | dynamicDownlinkFrame (b : Fin 8)
  /-- LINK_DOWN, R186: A branch port in the cycle loses link or PCS synchronisation. -/
  | linkDown (port : Fin 9) (x : Machine.SyncLoss)
  /-- NODE_LOST, R200: Eight consecutive EMPTY outcomes clear a node's PRESENT flag and raise EV_NODE_LOST. -/
  | nodeLost (b : Fin 8) (p : Fin 32)
  /-- DLY_TRIM_AVERAGE, R203: After 256 offsets the head's mean for a node triggers a DLY_TRIM service frame or EV_DLY_TRIM. -/
  | dlyTrimAverage (b : Fin 8) (p : Fin 32)
  /-- DLY_TRIM_RECEIVED, R203: A node-role part receives a DLY_TRIM frame and adds τ to its path delay. -/
  | dlyTrimReceived (b : Fin 8) (bytes : List Byte) (t : Nat)
  /-- COLDSTART_START, R191: A head-role part begins its 2-frame listen window once its branch ports are enabled. -/
  | coldstartStart
  /-- LISTEN_WINDOW_EXPIRY, R192: At the end of the listen window the part sends CSM 0, enters standby, or stays silent. -/
  | listenWindowExpiry
  /-- FOREIGN_CSM, R193: A head receives a CSM from another head and yields, ignores it, or is superseded. -/
  | foreignCsm (b : Fin 8) (bytes : List Byte) (x : Machine.Arrival)
  /-- CSM_RECEIVED, R199: A standby or node-role part judges a CSM and advances its join state and clock correction. -/
  | csmReceived (b : Fin 8) (bytes : List Byte) (x : Machine.Arrival)
  /-- CSM_WINDOW_CLOSE, R199: An expected-CSM window closes without a valid CSM, moving the node to HOLD or LISTEN. -/
  | csmWindowClose (b : Fin 8)
  /-- ORIENTATION_DECISION, R239: At d(n) a node chooses the CSM it obeys from either port and so fixes its orientation. -/
  | orientationDecision
  /-- COMMAND_BLOCK_RECEIVED, R175: A node or standby receives a command block, finds its record and checks it. -/
  | commandBlockReceived (b : Fin 8) (bytes : List Byte) (t : Nat)
  /-- KEEPER_FRAME_RECEIVED, R182: A node or standby adopts the keeper references of a valid keeper frame. -/
  | keeperFrameReceived (b : Fin 8) (bytes : List Byte) (t : Nat)
  /-- NODE_STATIC_TRANSMIT, R163: A node-role part starts its static frame at t_tx(p). -/
  | nodeStaticTransmit
  /-- NODE_DYNAMIC_TRANSMIT, R211: A node-role part sends its process-data frame in a granted mini-slot. -/
  | nodeDynamicTransmit (slot : Fin 32)
  /-- FENCE, R205: At π − 13·t_B a node ends any frame in progress with an error code. -/
  | fence (b : Fin 8)
  /-- PROCESS_DATA_RECEIVED, R212: A node-role part receives a class-3 downlink frame for application at the next A. -/
  | processDataReceived (b : Fin 8) (bytes : List Byte) (t : Nat)
  /-- NROLE_KEEPER_EXPIRY, R212: Passing NROLE.K_KEEP missed frames sends the field outputs to SAFE and ramps the step channels down. -/
  | nroleKeeperExpiry
  /-- FIRMWARE_RELEASE, R219: A firmware write releases a thread descriptor. -/
  | firmwareRelease (x : Machine.FwAct)
  /-- FIRMWARE_SIGNAL, R221: A firmware signal write decrements the named descriptor's DEP. -/
  | firmwareSignal (d : Fin 1024)
  /-- DELAY_EXPIRY, R227: A delay-list entry expires and its task joins its ready list. -/
  | delayExpiry (d : Fin 1024)
  /-- TIMEOUT_EXPIRY, R228: A wait timeout expires with DEP above zero and readies the task with TMO = 1. -/
  | timeoutExpiry (d : Fin 1024)
  /-- THREAD_PREEMPT, R226: A higher-level ready thread pre-empts the running one, starting within 64 CK_FP cycles. -/
  | threadPreempt (fp : Fin 4)
  /-- THREAD_COMPLETE, R226: A thread completes its release, and the next ready thread runs. -/
  | threadComplete (fp : Fin 4) (t : Nat)
  /-- THREAD_BLOCK, R226: A thread blocks on a dependence or delay within its release. -/
  | threadBlock (fp : Fin 4) (base : Fin 3) (delay : Nat) (t : Nat)
  /-- THREAD_YIELD, R226: A running thread yields its processor to a ready thread of equal level. -/
  | threadYield (fp : Fin 4)
  /-- INPOS, R132: PROF.INPOS_T consecutive frames within PROF.INPOS_WIN set INPOS. -/
  | inpos (i : Fin 256)
  /-- SAT_TIME, R79: A clamp counter reaching SUP.NSAT raises EV_SAT_TIME. -/
  | satTime (i : Fin 256) (c : Fin 4)
  /-- FB_LOST, R80: SUP.NPRED + 1 consecutive predicted frames raise EV_FB_LOST and start estimated feedback. -/
  | fbLost (i : Fin 256)
  /-- FB_FROZEN, R81: A freeze run reaching SUP.T_FRZ raises EV_FB_FROZEN and starts estimated feedback. -/
  | fbFrozen (i : Fin 256)
  /-- EST_EXPIRED, R84: N_EST frames of estimated feedback without a completed stop raise EV_EST_EXPIRED. -/
  | estExpired (i : Fin 256)
  /-- WEB_BREAK, R115: ZONE.N_BRK frames of low tension raise EV_WEB_BREAK. -/
  | webBreak (z : Fin 64)
  /-- LC_INVALID, R108: ZONE.N_LC frames without a load-cell sample raise EV_LC_INVALID. -/
  | lcInvalid (z : Fin 64)
  /-- STEP_PULSE, R137: A step channel emits a pulse once its accumulator carries and the spacing allows. -/
  | stepPulse (c : Fin 16)
  /-- DIR_CHANGE, R138: DIR changes after STEP.DIR_HOLD for a reversed pulse. -/
  | dirChange (c : Fin 16)
  /-- CREF_IDLE_EXPIRY, R140: STEP.T_IDLE without pulses or demand starts the standstill current ramp. -/
  | crefIdleExpiry (c : Fin 16)
  /-- CREF_RAMP_COMPLETE, R140: The standstill ramp reaches STEP.I_HOLD after 50 ms. -/
  | crefRampComplete (c : Fin 16)
  /-- STALL, R141: ceil(HOME.T_STALL/P) stall frames complete the stall, re-base the position and plan the back-off. -/
  | stall (i : Fin 256)
  /-- HOME_FLAG_EXPIRY, R142: The driver flag, held active for HOME.T_STALL, detects a step-axis stall. -/
  | homeFlagExpiry (i : Fin 256)
  /-- ENC_EDGE, R144: An encoder A or B level held for ENC.FILT + 1 samples is accepted and counted. -/
  | encEdge (e : Fin 8) (a : Bool) (b : Bool) (l : Machine.HeldLevel)
  /-- ENCZ_EDGE, R145: An accepted rising ENCZ edge latches C and its device time. -/
  | enczEdge (e : Fin 8) (z : Bool) (l : Machine.HeldLevel)
  /-- SSI_DELIVERY, R146: An SSI transfer completes and delivers its value, or is judged invalid. -/
  | ssiDelivery (e : Fin 8) (frame : Nat) (late : Bool)
  /-- ENC_DEV, R148: STEP.DEV_T frames of deviation raise EV_ENC_DEV. -/
  | encDev (i : Fin 256)
  /-- HEARTBEAT_RECEIVED, R241: The standby receives the head's heartbeat, with any yield frame named in it. -/
  | heartbeatReceived (bytes : List Byte) (t : Nat)
  /-- HEARTBEAT_WINDOW_CLOSE, R250: At T0 + P/2 the standby judges whether the frame was silent. -/
  | heartbeatWindowClose
  /-- TAKEOVER_START, R252: The new head sends CSMs with EPOCH + 1 and urgent grants, and raises EV_TAKEOVER. -/
  | takeoverStart
  /-- IMAGE_LOAD_COMPLETE, R253: The standby finishes loading its newest image and FP1 carries it forward to the restart frame. -/
  | imageLoadComplete (t : Nat)
  /-- RESTART_FRAME, R254: In the restart frame the axes start from the image and valid command blocks resume. -/
  | restartFrame
  /-- SNAPSHOT, R242: At the end of the trailing kernels of every RED.N_FIRN-th frame, the head takes a firn image. -/
  | snapshot
  /-- FIRN_SEGMENT_SEND, R243: The head sends the next image or shadow segment that fits before the next T0. -/
  | firnSegmentSend
  /-- FIRN_SEGMENT_RECEIVED, R243: The standby applies a segment and, on the last one, checks the image CRC. -/
  | firnSegmentReceived (seg : Machine.Segment) (t : Nat)
  /-- RETURN_SEND, R244: The standby answers a finished image with a return frame. -/
  | returnSend
  /-- RETURN_RECEIVED, R246: The head takes a return frame, updates fitness, and names Y or resends the final image. -/
  | returnReceived (bytes : List Byte) (t : Nat)
  /-- PARAMETER_RECORD_RECEIVED, R244: The standby applies a parameter record to its parameters and buffers. -/
  | parameterRecordReceived (bytes : List Byte) (t : Nat)
  /-- FIRN_RETURN_TIMEOUT, R246: No return within 2·RED.N_FIRN frames raises EV_FIRN_LOST. -/
  | firnReturnTimeout
  /-- GOLDEN_VECTOR_TEST, R247: Every 320 frames the standby runs the golden vectors on each lane group. -/
  | goldenVectorTest (pass : Byte)
  /-- SRAM_SCRUB_PASS, R247: A full scrub pass of core-die SRAM completes. -/
  | sramScrubPass (ok : Bool)
  /-- LOOPBACK_TEST, R247: Every 100 ms a branch port's transmit path is looped back and tested. -/
  | loopbackTest (b : Fin 8) (ok : Bool)
  /-- SHADOW_COMPUTATION, R248: The standby recomputes a recorded frame and compares the results bit for bit. -/
  | shadowComputation
  /-- YIELD_SILENCE, R258: The yielding head transmits nothing on branch ports from T0(Y). -/
  | yieldSilence
  /-- HANDOVER_START, R258: The standby sends its first CSM at T0(Y) and raises EV_HANDOVER. -/
  | handoverStart
  /-- YIELD_TIMEOUT, R259: No OK return within 4·RED.N_FIRN frames abandons the yield and raises EV_YIELD_FAIL. -/
  | yieldTimeout
  /-- SAFETY_TICK, R267: Channel A's 100 µs safety tick exchanges samples, readbacks and decisions with channel B. -/
  | safetyTick (rb : List Nat)
  /-- TICK_EXCHANGE, R267: Channel B receives the tick exchange and aligns its tick to it. -/
  | tickExchange (ok : Bool) (rb : List Nat)
  /-- SAFETY_INPUT_SAMPLE, R269: Each channel samples its safety inputs every 50 µs. -/
  | safetyInputSample (a : Byte) (b : Byte)
  /-- FILTERED_DEMAND_CHANGE, R270: SIN.FILT consecutive pairs change a pair's filtered demand. -/
  | filteredDemandChange (p : Fin 8)
  /-- DISCREPANCY_FAULT, R271: N_d consecutive disagreeing pairs latch a discrepancy fault. -/
  | discrepancyFault (p : Fin 8)
  /-- TEST_PULSE_START, R273: A test-pulse source goes low for SAFE.TP_W. -/
  | testPulseStart (k : Fin 4)
  /-- TEST_PULSE_WINDOW_END, R273: A test window closes, and an input that read active throughout faults. -/
  | testPulseWindowEnd (k : Fin 4)
  /-- SAFETY_CYCLE_END, R268: At the end of each 1 ms cycle, both channels compare their results, decide group transitions and issue PDUs. -/
  | safetyCycleEnd
  /-- DIAGNOSIS_END, R268: A mismatch diagnosis ends and classes each channel's fault. -/
  | diagnosisEnd (a : Machine.ChFault) (b : Machine.ChFault)
  /-- OUTPUT_FAULT, R276: A readback disagreeing for 2 ticks faults the output and opens its switches. -/
  | outputFault (o : Fin 4)
  /-- OUTPUT_OFF_TEST, R275: Every 100 ms a switch of an on output is opened for its off-test. -/
  | outputOffTest (o : Fin 4) (low : Bool)
  /-- OFF_TEST_WINDOW_END, R275: The off-test window closes and the switch passes or faults. -/
  | offTestWindowEnd (o : Fin 4) (low : Bool) (r : Machine.PinReading)
  /-- SWITCH_LIMIT_EXPIRY, R274: A safety switch's current limit acting for 1 ms opens the switch. -/
  | switchLimitExpiry (o : Fin 4) (low : Bool)
  /-- SS1_TIME_EXPIRY, R280: SG.SS1_T after SS1 entry, an SS1-t group enters STO. -/
  | ss1TimeExpiry (g : Fin 32)
  /-- SS1_TMAX_EXPIRY, R281: SG.SS1_TMAX without reaching zero speed ends SS1-r in STO. -/
  | ss1TmaxExpiry (g : Fin 32)
  /-- SLS_VIOLATION, R282: SG.SLS_N cycles over the limit raise EV_SAFE_SLS and lead to STO or SS1. -/
  | slsViolation (g : Fin 32)
  /-- SBC_DELAY_EXPIRY, R284: SG.SBC_DLY after STO entry, the brake outputs open. -/
  | sbcDelayExpiry (g : Fin 32)
  /-- DEGRADED_WINDOW_EXPIRY, R289: SAFE.T_DEG after a channel fault, every running group enters SS1. -/
  | degradedWindowExpiry
  /-- PDU_RELEASE, R300: Channel B checks channel A's PDU and releases it or withholds it. -/
  | pduRelease (c : Fin 64)
  /-- SAFETY_PDU_RECEIVED, R302: Each channel judges a received PDU by identity, CRC and sequence. -/
  | safetyPduReceived (c : Fin 64) (bytes : List Byte) (t : Nat)
  /-- SAFETY_WATCHDOG_EXPIRY, R303: SC.T_WD without an accepted PDU puts the connection into failure. -/
  | safetyWatchdogExpiry (c : Fin 64) (chB : Bool)
  /-- SAFETY_SET_CHECK, R290: At start, both channels check the safety set's signature and CRC. -/
  | safetySetCheck
  /-- SAFE_CONFIRM_TIMEOUT, R291: No SAFE_CONFIRM within 60 s discards the loaded safety set. -/
  | safeConfirmTimeout
  /-- SAFE_LOAD_ERASE_COMPLETE, R291: The inactive safety-set slot has been erased and the first segment's answer is posted. -/
  | safeLoadEraseComplete
  /-- HOUSEKEEPING_CYCLE, R316: Every 100 µs the field scan refreshes every field die and checks its return. -/
  | housekeepingCycle (down : BitVec 4) (ret : List (Option (Byte × Byte)))
  /-- HOUSEKEEPING_LOST, R316: Three consecutive housekeeping errors make a die HKLOST. -/
  | housekeepingLost (d : Fin 4)
  /-- FIELD_INPUT_CHANGE, R319: An input's filtered level changes after FIO.DEBOUNCE samples at the new level. -/
  | fieldInputChange (c : Fin 32) (level : Bool) (run : Nat)
  /-- QUIESCE_COMPLETE, R317: 1 ms after demagnetisation ends, the channel is QUIESCED. -/
  | quiesceComplete (c : Fin 32)
  /-- COUPLER_REVERSAL_COMPLETE, R317: A QUIESCED channel's coupler completes its reversal. -/
  | couplerReversalComplete (c : Fin 32)
  /-- OVERCUR, R322: An output's current limit starts acting. -/
  | overcur (c : Fin 32) (acts : Bool)
  /-- THERMAL_SHUTDOWN, R322: An output's junction reaches 160 °C and the switch opens. -/
  | thermalShutdown (c : Fin 32) (t : Nat)
  /-- THERMAL_RETRY, R322: After 100 ms and cooling, an automatic-retry output closes again. -/
  | thermalRetry (c : Fin 32) (tj : Nat) (t : Nat)
  /-- REVERSE_SHUTDOWN, R323: A pin above VFLD + 0.3 V opens the switch and sets REVERSE. -/
  | reverseShutdown (c : Fin 32)
  /-- REVERSE_RECLOSE, R323: After 1 ms at or below VFLD, the switch closes again. -/
  | reverseReclose (c : Fin 32)
  /-- DIAG_CLASSIFY, R326: Every 1 ms an open output's pin is classified and its OPEN or EXT_HIGH flags are updated. -/
  | diagClassify (c : Fin 32) (mv : Nat)
  /-- LOGIC_SILENCE_EXPIRY, R329: FIO.T_SILENCE without a valid refresh sends a die's outputs to their SAFE values. -/
  | logicSilenceExpiry (d : Fin 4)
  /-- VFLD_THRESHOLD_CROSS, R331: Five comparisons below a VFLD threshold cross it. -/
  | vfldThresholdCross (d : Fin 4) (k : Fin 3)
  /-- VFLD_THRESHOLD_CLEAR, R331: Five comparisons at or above a clearing level clear a threshold. -/
  | vfldThresholdClear (d : Fin 4) (k : Fin 2)
  /-- OFF_LATCH_RELEASE, R332: 10 ms at or above 18.0 V releases the off latch. -/
  | offLatchRelease (d : Fin 4)
  /-- FIELD_DIE_POWER_UP, R315: A field die powers up with every channel an input and the off latch in force. -/
  | fieldDiePowerUp (d : Fin 4)
  /-- SUB_TICK, R427: The 1 µs sub-tick is issued in CK_FIELD. -/
  | subTick
  /-- CAPTURE_SAMPLE, R341: A capture source instant is admitted to staging, triggers, or joins a crevasse. -/
  | captureSample (w : W16) (t : Nat)
  /-- AUTO_TRIGGER_EXPIRY, R343: CAPT.T_AUTO without a trigger forces one and sets FORCED. -/
  | autoTriggerExpiry
  /-- REARM_COMPLETE, R344: The engine re-arms for the next record. -/
  | rearmComplete (t : Nat)
  /-- STAGING_DRAIN, R347: A staged sample is written to record memory and mask-tested. -/
  | stagingDrain
  /-- RECORD_COMPLETE, R345: A record's last sample leaves staging and its header is completed. -/
  | recordComplete
  /-- CAPTURE_APERTURE_WRITE, R352: A host write through the capture aperture updates an envelope or is ignored. -/
  | captureApertureWrite (off : Nat) (v : W32)
  /-- BW_WINDOW_END, R366: A bandwidth window ends and LAST, MIN, MAX and CNT are updated. -/
  | bwWindowEnd (m : Fin 10)
  /-- INPUT_IMAGE_COMPLETE, R391: The input image is written, SEQ becomes even and PIRDY is set. -/
  | inputImageComplete
  /-- COMMIT_COPY_COMPLETE, R393: The committed buffer has been copied into the new HOST buffer, and HRDY returns to 1. -/
  | commitCopyComplete
  /-- MAILBOX_TIMEOUT, R383: An unanswered request is answered TIMEOUT and raises EV_MBX_TIMEOUT. -/
  | mailboxTimeout (j : Fin 512)
  /-- HOST_WATCHDOG_EXPIRY, R388: HOST.T_HOST without a counted DEV_ALIVE write raises EV_HOST_LOST. -/
  | hostWatchdogExpiry
  /-- EVENT_RING_WRITE, R399: A queued event is written to the event ring and interrupts as its reaction requires. -/
  | eventRingWrite
  /-- LEDGER_CHECK, R448: The ledger unit evaluates every open ledger identity on the tick's snapshots. -/
  | ledgerCheck
  /-- FAULT_LOG_COMMIT, R455: Pending fault-log entries and a commit marker are programmed to flash. -/
  | faultLogCommit
  /-- FAULT_LOG_COMPACT, R455: FP0 copies the log into the other half of the region and erases the full half. -/
  | faultLogCompact
  /-- FLASH_WRITE_COMPLETE, R411: A slot erase and write finish, and a complete slot is verified. -/
  | flashWriteComplete
  /-- BOOT_START, R413: The boot ROM starts the preferred or the fallback firmware slot, or its recovery service. -/
  | bootStart
  /-- BASE_CONFIG_START, R495: A base configuration starts and every axis takes its initial values. -/
  | baseConfigStart
  /-- STANDBY_RAILS_UP, R426: At VMAIN 3.0 V, VSTBY and VSAFB start and die B holds SL0. -/
  | standbyRailsUp
  /-- RAIL_SEQUENCE_START, R426: At VMAIN 4.10 V the PMIC starts the rail sequence. -/
  | railSequenceStart
  /-- RESET_RELEASE, R442: The PMIC releases the core die from reset and samples the straps. -/
  | resetRelease (hostsel : Bool) (boot : Fin 4) (vio : Nat)
  /-- STARTUP_CHECKS_COMPLETE, R436: The start-up checks finish, the service level is set and PWRGOOD is released. -/
  | startupChecksComplete (why : Fin 5)
  /-- DROOP_DETECT, R429: VCORE falls below 0.770 V and CK_CORE cycles are stretched. -/
  | droopDetect (mv : Nat)
  /-- DROOP_CLEAR, R429: VCORE returns to 0.770 V or above and stretching ends. -/
  | droopClear (mv : Nat)
  /-- CALVING_STAGE_ENTRY, R432: VMAIN below the threshold of stage 1, 2 or 3 enters that stage's actions. -/
  | calvingStageEntry (stage : Fin 3) (mv : Nat)
  /-- CALVING_STAGE_4, R434: VMAIN below 4.20 V stops the network, makes outputs safe, puts every group in STO and closes the ledgers. -/
  | calvingStage4 (mv : Nat)
  /-- CALVING_STAGE_EXIT, R431: 1 ms above threshold + 0.10 V leaves stage 1, 2 or 3. -/
  | calvingStageExit (stage : Fin 3) (mv : Nat)
  /-- DRAM_SELF_REFRESH, R432: In stage 2, 2 µs without a request puts the LPDDR4X into self-refresh. -/
  | dramSelfRefresh
  /-- VIO_LOW, R443: VIO below 85 % for 10 µs raises EV_VIO_LOW. -/
  | vioLow
  /-- POWER_ON_RESET, R437: VMAIN rising through 4.10 V from below 3.0 V resets the core die. -/
  | powerOnReset
  /-- BROWNOUT, R437: VMAIN below 4.00 V resets the core die. -/
  | brownout
  /-- RESET_PIN, R437: RESET_N low for at least 1 µs commits the log and resets the core die. -/
  | resetPin
  /-- FW_WATCHDOG_EXPIRY, R437: FP0's hardware watchdog unserviced for 100 ms resets the core die. -/
  | fwWatchdogExpiry
  /-- VCORE_FAULT, R437: VCORE outside its window for 10 µs resets the core die. -/
  | vcoreFault (mv : Nat)
  /-- CLOCK_LOSS, R428: A missing reference or an unlocked PLL resets the core die with cause CLOCK. -/
  | clockLoss (clk : Fin 5)
  /-- CORE_DIE_RESET, R437: After the pending commit, the PMIC warns die B and asserts the core-die reset. -/
  | coreDieReset
  /-- PCIE_REFCLK_LOSS, R428: Loss of PCIE_REFCLK takes the PCIe link down. -/
  | pcieRefclkLoss
  /-- PERST_N, R374: PERST_N resets the PCIe logic only. -/
  | perstN
  /-- BAR0_UNSUPPORTED_ACCESS, R374: A non-word or misaligned BAR0 access completes as an Unsupported Request. -/
  | bar0UnsupportedAccess (off : Nat) (bytes : Nat)
  /-- MAILBOX_BUFFER_WRITE, R378: A host write to a mailbox buffer takes effect in HOST state or sets BADWR. -/
  | mailboxBufferWrite (off : Nat) (v : W32)
  /-- OUTPUT_WINDOW_WRITE, R393: A host write to the output window reaches the HOST buffer, or is ignored while HRDY is 0. -/
  | outputWindowWrite (off : Nat) (v : W32)
  /-- MBX_ALLOC, R379: A read takes the presented FREE buffer into HOST. -/
  | mbxAlloc
  /-- MBX_DB, R379: A doorbell write queues a HOST buffer as a request on its mailbox. -/
  | mbxDb (m : Fin 32) (v : W32)
  /-- MBX_ANS, R379: A read takes the oldest answer buffer of the mailbox into HOST. -/
  | mbxAns (m : Fin 32)
  /-- MBX_FREE, R379: A write returns a HOST buffer to FREE. -/
  | mbxFree (v : W32)
  /-- MBX_PICOMMIT, R393: A write commits the HOST output buffer as PENDING and starts the copy. -/
  | mbxPicommit (v : W32)
  /-- MBX_POOLA, R402: A read returns the pool counts and latches MBX_POOLB. -/
  | mbxPoola
  /-- DEV_ALIVE, R388: A keyed write arms or restarts the host watchdog. -/
  | devAlive (v : W32)
  /-- EVT_ISTAT, R398: A W1C write clears interrupt sources, and a source set in the same cycle sends a new message. -/
  | evtIstat (v : W32)
  /-- PWR_RSTREQ, R437: A keyed write requests a core-die reset with cause HOST. -/
  | pwrRstreq (v : W32)
  /-- PWR_VMAIN, R10: A read returns VMAIN and resets its MIN tracker. -/
  | pwrVmain
  /-- PWR_VCORE, R10: A read returns VCORE and resets its MIN tracker. -/
  | pwrVcore
  /-- FRM_TIME_LO, R28: A read returns device time [31:0] and latches FRM_TIME_HI. -/
  | frmTimeLo
  /-- FRM_FCNT_LO, R28: A read returns the frame counter [31:0] and latches FRM_FCNT_HI. -/
  | frmFcntLo
  /-- FRM_T0_LO, R28: A read returns the current T0 [31:0] and latches FRM_T0_HI. -/
  | frmT0Lo
  /-- FRM_LSIN_LO, R28: A read returns the LSYNC_IN stamp [31:0] and latches FRM_LSIN_HI. -/
  | frmLsinLo
  /-- FRM_TURNMAX, R10: A read returns the worst turnaround and clears it. -/
  | frmTurnmax
  /-- NET_OFSRANGE, R190: A read returns the offset range and resets both trackers. -/
  | netOfsrange
  /-- NET_HEADID_LO, R28: A read returns HEAD_ID [31:0] and latches NET_HEADID_HI. -/
  | netHeadidLo
  /-- NET_PEERID_LO, R28: A read returns the last foreign HEAD_ID [31:0] and latches NET_PEERID_HI. -/
  | netPeeridLo
  /-- DSP_DESCIDX, R233: A write latches the selected descriptor's 8 words into DSP_DESC0-7. -/
  | dspDescidx (v : W32)
  /-- DSP_TRCCTL, R230: A write sets the trace masks, and EN rising zeroes WRPTR, WRAPS and DSP_TRCLOST. -/
  | dspTrcctl (v : W32)
  /-- DSP_TRCD0, R233: A read returns word 0 of the trace entry, latches words 1-3 and advances IDX. -/
  | dspTrcd0
  /-- DSP_RDYDEP, R233: A read returns a level's ready-list depth and clears its MAX. -/
  | dspRdydep (l : Fin 8)
  /-- DSP_PREEMPT, R233: A read returns the per-FP pre-emption counts and clears them. -/
  | dspPreempt
  /-- RED_IMGFC_LO, R28: A read returns the image snapshot frame [31:0] and latches RED_IMGFC_HI. -/
  | redImgfcLo
  /-- RED_TKFC_LO, R28: A read returns the last change-of-head frame [31:0] and latches RED_TKFC_HI. -/
  | redTkfcLo
  /-- RED_HBMISS, R264: A read returns the missed heartbeats and clears RUNMAX. -/
  | redHbmiss
  /-- CAP_RECNO, R28: A read returns the last completed RECNO and latches CAP_REPOCH. -/
  | capRecno
  /-- CAP_CREVSMP_LO, R28: A read returns the crevasse term [31:0] and latches CAP_CREVSMP_HI. -/
  | capCrevsmpLo
  /-- CAP_DEADMAX, R10: A read returns the worst dead time and clears it. -/
  | capDeadmax
  /-- CAP_STAGE, R357: A read returns the staging fill and clears MAX. -/
  | capStage
  /-- PRF_CYC_LO, R363: A read returns CYC [31:0] and latches PRF_CYC_HI. -/
  | prfCycLo
  /-- PRF_CNT_LO, R363: A read snapshots a programmable counter and latches its high bits and OVFN. -/
  | prfCntLo (k : Fin 8)
  /-- PRF_SETCMD, R364: A write loads the selected counters from PRF_SET at the end of one CK_CORE cycle. -/
  | prfSetcmd (v : W32)
  /-- PRF_CTRL, R365: A write changes counter enables or freezes all nine counters at one cycle boundary. -/
  | prfCtrl (v : W32)
  /-- PRF_CFG, R364: A write changes a counter's event, mode or threshold at a cycle boundary. -/
  | prfCfg (k : Fin 8) (v : W32)
  /-- PRF_BW_MINMAX, R366: A read of a bandwidth MIN or MAX returns it and resets it. -/
  | prfBwMinmax (m : Fin 10) (hi : Bool)
  /-- PRF_TAGCTL, R368: A write sets tagging, and EN rising seeds the LFSR and zeroes the tag positions. -/
  | prfTagctl (v : W32)
  /-- PRF_TAGD0, R370: A read returns tag word 0, latches words 1-7 and advances IDX. -/
  | prfTagd0
  /-- LGR_SEL, R457: A write latches the selected ledger instance's terms, D and check frame. -/
  | lgrSel (v : W32)
  /-- REGISTER_WRITE, R10: A host write to any register without a row of its own acts by its access codes. -/
  | registerWrite (off : Nat) (v : W32)
  /-- ECHO, R385: FP2 returns the payload unchanged. -/
  | echo
  /-- DEV_INFO, R422: FP2 answers the firmware, lifecycle, configuration and overlay status. -/
  | devInfo
  /-- PARAM_READ, R386: FP2 answers the values in force at one frame boundary. -/
  | paramRead
  /-- PARAM_WRITE, R386: FP2 judges a set of parameter writes, all or nothing, to take effect at one boundary. -/
  | paramWrite
  /-- PARAM_INFO, R385: FP2 answers the type, units, range and writable-in entry of each key. -/
  | paramInfo
  /-- BAD_OPCODE, R384: A request with an unknown opcode is answered BAD_OPCODE. -/
  | badOpcode
  /-- ENABLE, R69: AX_CMD ENABLE moves a DISABLED axis to OPEN. -/
  | enable
  /-- CLOSE, R69: AX_CMD CLOSE closes an OPEN or FREEZE axis with re-initialisation. -/
  | close
  /-- OPEN, R69: AX_CMD OPEN opens the loop of an axis. -/
  | openLoop
  /-- FREEZE, R69: AX_CMD FREEZE holds a CLOSED axis's outputs. -/
  | freeze
  /-- DISABLE, R69: AX_CMD DISABLE moves any non-FAULT axis to DISABLED. -/
  | disable
  /-- ACK, R69: AX_CMD ACK leaves FAULT when no cause is active. -/
  | ack
  /-- STOP, R130: AX_CMD STOP starts a profile stop of a non-following axis. -/
  | stop
  /-- HOME, R141: AX_CMD HOME starts stall homing of a CLOSED axis. -/
  | home
  /-- DIA_SET, R113: AX_CMD DIA_SET sets the diameter estimate to DIA.D_SET at the next boundary. -/
  | diaSet
  /-- CAM_START, R103: AX_CMD CAM_START starts a one-shot cam run. -/
  | camStart
  /-- CAM_SELECT, R104: AX_CMD CAM_SELECT makes a new cyclic table pending for the next wrap. -/
  | camSelect
  /-- GRP_CLRDERATE, R85: The command clears the derating of the masked groups. -/
  | grpClrderate
  /-- YIELD, R258: The host's yield command starts a planned handover of the whole head. -/
  | yield
  /-- CAM_WRITE, R385: The command writes data into a cam table's staging area. -/
  | camWrite
  /-- CAM_LOAD, R100: The command checks a staged cam table and installs it. -/
  | camLoad
  /-- OVL_APPLY, R416: FP2 copies an overlay slot for decision at the next boundary, or refuses it at once. -/
  | ovlApply
  /-- CFG_WRITE, R411: The command writes data to a flash slot, erasing it first at offset 0. -/
  | cfgWrite
  /-- CFG_ACTIVATE, R412: Activation of a base slot ends the running configuration and starts the new image. -/
  | cfgActivate
  /-- FIRMWARE_ACTIVATE, R413: CFG_ACTIVATE of a firmware slot verifies it and marks it preferred for the next reset. -/
  | firmwareActivate
  /-- KEY_PROVISION, R420: The command fuses the digest of a configuration or safety key. -/
  | keyProvision
  /-- LIFECYCLE, R421: The command moves the lifecycle forward at the next reset. -/
  | lifecycle
  /-- SAFE_RESET, R283: The command requests a reset of a safety group from STO. -/
  | safeReset
  /-- SAFE_CLEAR, R288: The command clears a transient channel fault and ends the degraded window. -/
  | safeClear
  /-- SAFE_LOAD, R291: The command writes one segment of a new safety set into the inactive slot. -/
  | safeLoad
  /-- SAFE_CONFIRM, R291: The command activates a loaded safety set whose CRC it carries. -/
  | safeConfirm
  /-- FIO_QUIESCE, R317: The command starts quiescing the masked field channels. -/
  | fioQuiesce
  /-- FIO_RESUME, R317: The command returns quiesced channels to INPUT or OUTPUT. -/
  | fioResume
  /-- FIO_REARM, R332: The command re-enables outputs after the off latch when FIO.REARM is 1. -/
  | fioRearm
  /-- CAPT_START, R346: The command starts a capture from the next frame boundary. -/
  | captStart
  /-- CAPT_STOP, R346: The command stops the capture, abandoning or truncating the record. -/
  | captStop
  /-- CAPT_FORCE, R343: The command triggers the capture at the first instant after the holdoff. -/
  | captForce
  /-- MATRIX_READ, R494: The command answers the reaction matrix for a run of events. -/
  | matrixRead
  /-- FLOG_READ, R456: The command answers up to 3 fault-log entries from one state of the log. -/
  | flogRead
  /-- LINK_UP, R190: A branch port or the firn port gains PHY link and PCS synchronisation, setting LINK and SYNC and ending its tap LINK crevasse instants. -/
  | linkUp (port : Fin 9) (sync : Bool) (t : Nat)
  /-- PCIE_LINK_UP, R374: The PCIe endpoint completes link training and DEV_HOST.LINKUP, SPEED and WIDTH take their values. -/
  | pcieLinkUp (speed : Nat) (width : Nat)
  /-- SAFETY_CHANNEL_FAULT, R287: A safety channel detects a fault of its own (lockstep compare failure, ECC error, supply outside its window, unlocked PLL) and, if persistent, opens the degraded window. -/
  | safetyChannelFault (chB : Bool) (f : Machine.ChFault)
  /-- COUNTER_OVERFLOW, R362: A programmable counter's addition carries past 2^48 − 1, setting PRF_OVF.OVF bit k and incrementing OVFN. -/
  | counterOverflow (k : Fin 8)
  /-- VIO_RESTORED, R445: VIO returns to at or above 85 % of its mode's nominal and PWR_STAT.VIOLOW clears. -/
  | vioRestored
  deriving DecidableEq, Repr

end Sys2Proof
end

