-- ==== Sys2Proof/Config.lean ====
section
/-! DEFINITION. What an implementation fixes and the spec leaves open: free values (opaque, no body) and the part's
fused values. Each is named in the assumption log. -/

namespace Sys2Proof.Config

/-- FREE VALUE (log 1). Sign and payload of a NaN result, by the operation's operand bits; the spec gives NaN results
no bit pattern (R36, R38). -/
opaque nanPayload : Nat → BitVec 52

/-- FUSED (log 22). HEAD_ID of the part (R8, R215): every part has its own. -/
opaque headId : BitVec 64

/-- FUSED (log 22). DEV_ID.STEP, the silicon stepping (R402). -/
opaque step : BitVec 8

/-- FREE VALUE (log 22). The SHA-256 digest of a byte string (R406, R413, R420), uninterpreted. -/
opaque sha256 : List Byte → BitVec 256

/-- FREE VALUE (log 22). Whether an ECDSA P-256 signature (r, s) over a digest verifies under a public key
(R406, R409, R413, R290), uninterpreted. -/
opaque ecdsaOk : List Byte → BitVec 256 → List Byte → Bool

/-- FREE VALUE (log 22). Whether the digest of a public key is Gysia's test key of the MANUFACTURE state (R421). -/
opaque gysiaKey : BitVec 256 → Bool

/-- FREE VALUE (log 22). Whether a firmware slot's contents carry a signature that verifies against the firmware key
digest fused at manufacture (R413, R420); the layout of a firmware slot is not given. -/
opaque fwSigOk : List Byte → Bool

/-- FREE VALUE (log 22). Version and kernel-count digest of a firmware, by its slot's contents (R406, R413, R422). -/
opaque fwVersion : List Byte → BitVec 32
opaque fwKcd : List Byte → BitVec 32

/-- FREE VALUE (log 22). LENGTH of a firmware slot's image, by its contents (R411): the header's layout is not given. -/
opaque fwLength : List Byte → Nat

/-- FREE VALUE (log 22). Whether every result recorded in a PROOF section passes (R409 reason 4): the section's layout is
not given. -/
opaque proofPasses : List Byte → Bool

/-- FREE VALUE (log 47). Whether the line image with a digest makes an unpaired part a node of another head (R8, R210): the
spec does not say where an image holds it. -/
opaque nodeRole : BitVec 256 → Bool

/-- FREE VALUE (log 33). ENTRY of a descriptor that the firmware writes at configuration start (R217), by its number. -/
opaque kernelEntry : Nat → BitVec 32

/-- FREE VALUE (log 17). Which of the FREE mailbox buffers MBX_ALLOC presents next (R379): the spec names none. -/
opaque freeBuffer : Nat → Nat

/-- FREE VALUE (log 24). Occupancies of R360 that no state of the model determines, by event code and CK_CORE cycle. -/
opaque occupancy : Nat → Nat → Nat

/-- FREE VALUE (log 24). DRAM units of 64 bytes that pass in a window of monitor 9 beside the capture's and the firn's, by window
(R366): no rule gives them. -/
opaque dramUnits : Nat → Nat

/-- FREE VALUE (log 25). The 12-byte record PARAM_INFO answers for a key (R385): its coding is not given. -/
opaque paramInfo : Nat → BitVec 96

/-- FREE VALUE (log 26). The auxiliary words and U_dc word a part in the node role puts into its static frame, by channel (255:
U_dc) and frame: the spec does not say what they hold (R210). -/
opaque auxWord : Nat → Nat → BitVec 16

/-- How many of the edges accepted in the last 100 ns before S the latch of an encoder input includes (05 R144; log 6):
a free value of the input and the frame. -/
opaque encRecent : Nat → Nat → Nat

/-- FREE VALUE (log 21). CAUSE of a ledger's closure at a PIN or HOST reset: the list of R454 holds no code for it. -/
opaque closeCause : BitVec 16

/-- FREE VALUE (log 12). Whether a copy of a safety set passes its signature under the safety key digest and its CRC (R290):
the set's layout is not given. -/
opaque safeSetOk : List Byte → BitVec 256 → Bool

/-- FREE VALUE (log 12). The set CRC of a safety set (R290). -/
opaque safeSetCrc : List Byte → BitVec 32

/-- FREE VALUE (log 12). The value a safety set gives a class-11 parameter, by its key (R290). -/
opaque safeSetParam : List Byte → Nat → BitVec 64

/-- FREE VALUE (log 32). A byte of the sections of an image, by firn sequence and offset: R242 gives each section's size and contents,
not its layout. -/
opaque imageByte : Nat → Nat → BitVec 8

/-- FREE VALUE (log 32). A byte of a shadow record, by firn sequence and offset: R248 gives its contents, not its layout. -/
opaque shadowByte : Nat → Nat → BitVec 8

/-- FREE VALUE (log 20). Whether the host has enabled ASPM L1 when calving stage 1 is entered (R432): it is set in the PCIe
configuration space, which the spec leaves to PCIe. By the number of the entry. -/
opaque aspmL1 : Nat → Bool

/-- FREE VALUE (log 46). The rate trim LOCK mode asks for after an edge, in 0.01 ppm, by the edge's offset from the nearest T0 and the
trim in force: R30 gives its limits and what it is to reach, not the law. -/
opaque lockTrim : Int → Int → Int

end Sys2Proof.Config
end

