-- ==== Sys2Proof/Machine/Events.lean ====
section
/-! DEFINITION. The events the spec defines: code, default reaction and lowest permitted reaction, in ascending code order
(the event tables of R22, R88, R118, R149, R186, R213, R232, R262, R292, R311, R333, R355, R400, R423, R443, R452). -/

namespace Sys2Proof.Machine

/-- One event: its code, its default reaction and the lowest reaction permitted, as severities of R85. -/
structure EvDef where
  code : Nat
  dflt : Nat
  floor : Nat
  deriving DecidableEq, Repr

def evFrameOverrun : Nat := 0x0101
def evOverrunSeries : Nat := 0x0102
def evTrailSkip : Nat := 0x0103
def evFwOverrun : Nat := 0x0104
def evLsyncLost : Nat := 0x0105
def evDepFault : Nat := 0x0110
def evSlotEdge : Nat := 0x0201
def evSlotLate : Nat := 0x0202
def evSlotCorrupt : Nat := 0x0203
def evLinkDown : Nat := 0x0204
def evStray : Nat := 0x0205
def evHeadSeen : Nat := 0x0206
def evCsYield : Nat := 0x0207
def evOwnCsm : Nat := 0x0208
def evNodeJoin : Nat := 0x0209
def evNodeLost : Nat := 0x020A
def evDlyTrim : Nat := 0x020B
def evSyncLoss : Nat := 0x020C
def evSatTime : Nat := 0x0301
def evFbLost : Nat := 0x0302
def evFbFrozen : Nat := 0x0303
def evLimitStep : Nat := 0x0304
def evEstExpired : Nat := 0x0305
def evNonfinite : Nat := 0x0320
def evUdcLow : Nat := 0x0321
def evAdaptClamp : Nat := 0x0322
def evStepRate : Nat := 0x0401
def evEncDev : Nat := 0x0402
def evEncErr : Nat := 0x0403
def evHomeFail : Nat := 0x0404
def evWebBreak : Nat := 0x0501
def evTrimClamp : Nat := 0x0502
def evDiaClamp : Nat := 0x0503
def evLcInvalid : Nat := 0x0504
def evZoneNonfinite : Nat := 0x0505
def evFldLow : Nat := 0x0601
def evFldUv : Nat := 0x0602
def evFldOff : Nat := 0x0603
def evFioOvercur : Nat := 0x0604
def evFioThermal : Nat := 0x0605
def evFioOpen : Nat := 0x0606
def evFioExthigh : Nat := 0x0607
def evFioReverse : Nat := 0x0608
def evFioSilence : Nat := 0x0609
def evFioHklost : Nat := 0x060A
def evSafeSto : Nat := 0x0701
def evSafeSs1 : Nat := 0x0702
def evSafeSls : Nat := 0x0703
def evSafeDisc : Nat := 0x0704
def evSafeTp : Nat := 0x0705
def evSafeOut : Nat := 0x0706
def evSafeChfault : Nat := 0x0707
def evSafeDegraded : Nat := 0x0708
def evSafeDegExp : Nat := 0x0709
def evSafeSs1Fail : Nat := 0x070A
def evSafeSet : Nat := 0x070B
def evSafeConn : Nat := 0x070C
def evSafePduRej : Nat := 0x070D
def evSafeWithheld : Nat := 0x070E
def evTakeover : Nat := 0x0801
def evHandover : Nat := 0x0802
def evStandbyUnfit : Nat := 0x0803
def evFirnLost : Nat := 0x0804
def evEpochSeen : Nat := 0x0805
def evYieldFail : Nat := 0x0806
def evTakeoverAxis : Nat := 0x0807
def evTakeoverRefused : Nat := 0x0808
def evCalve1 : Nat := 0x0901
def evCalve2 : Nat := 0x0902
def evCalve3 : Nat := 0x0903
def evCalve4 : Nat := 0x0904
def evClkLimit : Nat := 0x0905
def evVioLow : Nat := 0x0906
def evHostLost : Nat := 0x0A01
def evHostProto : Nat := 0x0A02
def evMbxTimeout : Nat := 0x0A03
def evEvtLost : Nat := 0x0A04
def evCfgRefused : Nat := 0x0A05
def evOvlApplied : Nat := 0x0A06
def evFwFallback : Nat := 0x0A07
def evMaskFail : Nat := 0x0B01
def evCrevasse : Nat := 0x0B02
def evCaptDone : Nat := 0x0B03
def evLedgerBreak : Nat := 0x0C01

/-- Every event of the spec, ascending by code. -/
def evDefs : List EvDef :=
  [⟨evFrameOverrun, 2, 1⟩,
   ⟨evOverrunSeries, 7, 4⟩,
   ⟨evTrailSkip, 2, 1⟩,
   ⟨evFwOverrun, 2, 1⟩,
   ⟨evLsyncLost, 2, 1⟩,
   ⟨evDepFault, 2, 1⟩,
   ⟨evSlotEdge, 1, 1⟩,
   ⟨evSlotLate, 2, 1⟩,
   ⟨evSlotCorrupt, 1, 1⟩,
   ⟨evLinkDown, 2, 1⟩,
   ⟨evStray, 1, 1⟩,
   ⟨evHeadSeen, 2, 1⟩,
   ⟨evCsYield, 1, 1⟩,
   ⟨evOwnCsm, 2, 1⟩,
   ⟨evNodeJoin, 1, 1⟩,
   ⟨evNodeLost, 2, 1⟩,
   ⟨evDlyTrim, 2, 1⟩,
   ⟨evSyncLoss, 2, 1⟩,
   ⟨evSatTime, 2, 1⟩,
   ⟨evFbLost, 4, 4⟩,
   ⟨evFbFrozen, 4, 4⟩,
   ⟨evLimitStep, 1, 1⟩,
   ⟨evEstExpired, 6, 5⟩,
   ⟨evNonfinite, 6, 6⟩,
   ⟨evUdcLow, 6, 3⟩,
   ⟨evAdaptClamp, 1, 1⟩,
   ⟨evStepRate, 2, 1⟩,
   ⟨evEncDev, 5, 1⟩,
   ⟨evEncErr, 2, 1⟩,
   ⟨evHomeFail, 5, 1⟩] ++
  [⟨evWebBreak, 5, 4⟩,
   ⟨evTrimClamp, 2, 1⟩,
   ⟨evDiaClamp, 2, 1⟩,
   ⟨evLcInvalid, 2, 1⟩,
   ⟨evZoneNonfinite, 5, 4⟩,
   ⟨evFldLow, 2, 1⟩,
   ⟨evFldUv, 2, 2⟩,
   ⟨evFldOff, 4, 2⟩,
   ⟨evFioOvercur, 2, 1⟩,
   ⟨evFioThermal, 2, 1⟩,
   ⟨evFioOpen, 1, 1⟩,
   ⟨evFioExthigh, 2, 1⟩,
   ⟨evFioReverse, 2, 1⟩,
   ⟨evFioSilence, 2, 2⟩,
   ⟨evFioHklost, 2, 2⟩,
   ⟨evSafeSto, 6, 6⟩,
   ⟨evSafeSs1, 5, 4⟩,
   ⟨evSafeSls, 2, 2⟩,
   ⟨evSafeDisc, 2, 2⟩,
   ⟨evSafeTp, 2, 2⟩,
   ⟨evSafeOut, 2, 2⟩,
   ⟨evSafeChfault, 2, 2⟩,
   ⟨evSafeDegraded, 4, 2⟩,
   ⟨evSafeDegExp, 5, 4⟩,
   ⟨evSafeSs1Fail, 6, 6⟩,
   ⟨evSafeSet, 6, 6⟩,
   ⟨evSafeConn, 2, 2⟩,
   ⟨evSafePduRej, 1, 1⟩,
   ⟨evSafeWithheld, 2, 2⟩,
   ⟨evTakeover, 2, 1⟩] ++
  [⟨evHandover, 1, 1⟩,
   ⟨evStandbyUnfit, 2, 1⟩,
   ⟨evFirnLost, 2, 1⟩,
   ⟨evEpochSeen, 2, 1⟩,
   ⟨evYieldFail, 4, 4⟩,
   ⟨evTakeoverAxis, 6, 6⟩,
   ⟨evTakeoverRefused, 2, 1⟩,
   ⟨evCalve1, 1, 1⟩,
   ⟨evCalve2, 2, 1⟩,
   ⟨evCalve3, 7, 4⟩,
   ⟨evCalve4, 6, 6⟩,
   ⟨evClkLimit, 2, 1⟩,
   ⟨evVioLow, 5, 2⟩,
   ⟨evHostLost, 4, 2⟩,
   ⟨evHostProto, 1, 1⟩,
   ⟨evMbxTimeout, 1, 1⟩,
   ⟨evEvtLost, 2, 1⟩,
   ⟨evCfgRefused, 2, 1⟩,
   ⟨evOvlApplied, 1, 1⟩,
   ⟨evFwFallback, 2, 1⟩,
   ⟨evMaskFail, 2, 1⟩,
   ⟨evCrevasse, 1, 1⟩,
   ⟨evCaptDone, 2, 1⟩,
   ⟨evLedgerBreak, 7, 2⟩]

/-- The definition of a code. -/
def evFind (code : Nat) : Option EvDef := evDefs.find? fun e => e.code == code

/-- The default reaction of a code; LOG for a code no table holds. -/
def evDefault (code : Nat) : Nat := ((evFind code).map EvDef.dflt).getD 1

end Sys2Proof.Machine
end

