-- ==== Sys2Proof/Machine/Float.lean ====
section
/-! DEFINITION. Binary64 and binary32 arithmetic, correctly rounded to nearest with ties to even (R36, R37, R491). -/

namespace Sys2Proof.Machine

/-- A binary value taken apart: a finite value is (-1)^neg * m * 2^e. -/
inductive FVal where
  | nan
  | inf (neg : Bool)
  | fin (neg : Bool) (m : Nat) (e : Int)
  deriving DecidableEq, Repr

/-- A binary64 pattern as a value. -/
def F64.val (x : F64) : FVal :=
  let ex : Nat := (x.bits.toNat / 2 ^ 52) % 2048
  let fr : Nat := x.bits.toNat % 2 ^ 52
  if ex = 2047 then (if fr = 0 then .inf x.bits.msb else .nan)
  else if ex = 0 then .fin x.bits.msb fr (-1074)
  else .fin x.bits.msb (fr + 2 ^ 52) ((ex : Int) - 1075)

/-- A binary32 pattern as a value. -/
def F32.val (x : F32) : FVal :=
  let ex : Nat := (x.bits.toNat / 2 ^ 23) % 256
  let fr : Nat := x.bits.toNat % 2 ^ 23
  if ex = 255 then (if fr = 0 then .inf x.bits.msb else .nan)
  else if ex = 0 then .fin x.bits.msb fr (-149)
  else .fin x.bits.msb (fr + 2 ^ 23) ((ex : Int) - 150)

/-- Shift right by k places, rounding to nearest with ties to even; sticky says that the exact value lies strictly
above n and below n + 1. -/
def shiftRne (n k : Nat) (sticky : Bool) : Nat :=
  let q := n / 2 ^ k
  let r := n % 2 ^ k
  let half := 2 ^ (k - 1)
  if k = 0 then n
  else if r > half || (r = half && (sticky || q % 2 = 1)) then q + 1 else q

/-- The magnitude bits nearest to m * 2^e in a format of mant fraction bits and least exponent emin. -/
def roundMag (mant : Nat) (emin : Int) (m : Nat) (e : Int) (sticky : Bool) : Nat :=
  if m = 0 then 0
  else
    let q : Int := max ((m.log2 : Int) + e - mant) emin
    let m' := if q ≤ e then m * 2 ^ (e - q).toNat else shiftRne m (q - e).toNat sticky
    (q - emin).toNat * 2 ^ mant + m'

/-- Round an exact value to binary64; the sign of a zero is neg. -/
def f64Pack (neg : Bool) (m : Nat) (e : Int) (sticky : Bool) : F64 :=
  let mag := min (roundMag 52 (-1074) m e sticky) 0x7FF0000000000000
  ⟨BitVec.ofNat 64 (mag + (if neg then 2 ^ 63 else 0))⟩

/-- Round an exact value to binary32. -/
def f32Pack (neg : Bool) (m : Nat) (e : Int) (sticky : Bool) : F32 :=
  let mag := min (roundMag 23 (-149) m e sticky) 0x7F800000
  ⟨BitVec.ofNat 32 (mag + (if neg then 2 ^ 31 else 0))⟩

/-- A quiet NaN whose sign and payload are free (log 1). -/
def f64Nan (seed : Nat) : F64 :=
  let p := Config.nanPayload seed
  ⟨p.extractLsb' 51 1 ++ (0xFFF#12) ++ p.extractLsb' 0 51⟩

def f64Inf (neg : Bool) : F64 := ⟨if neg then 0xFFF0000000000000 else 0x7FF0000000000000⟩

/-- Not a NaN and not an infinity (R38). -/
def fFinite (x : F64) : Bool := (x.bits.toNat / 2 ^ 52) % 2048 ≠ 2047

def fIsNan (x : F64) : Bool := !fFinite x && x.bits.toNat % 2 ^ 52 ≠ 0

/-- A signed dyadic value n * 2^e. -/
structure Dyadic where
  n : Int
  e : Int
  deriving DecidableEq, Repr

namespace Dy
def scale (n : Int) (k : Nat) : Int := n * (2 ^ k : Nat)
/-- The numerators of a and b at their common (lesser) exponent. -/
def align (a b : Dyadic) : Int × Int × Int :=
  let e := min a.e b.e
  (scale a.n (a.e - e).toNat, scale b.n (b.e - e).toNat, e)
def add (a b : Dyadic) : Dyadic := let (x, y, e) := align a b; ⟨x + y, e⟩
def sub (a b : Dyadic) : Dyadic := let (x, y, e) := align a b; ⟨x - y, e⟩
def mul (a b : Dyadic) : Dyadic := ⟨a.n * b.n, a.e + b.e⟩
def lt (a b : Dyadic) : Bool := let (x, y, _) := align a b; x < y
def le (a b : Dyadic) : Bool := let (x, y, _) := align a b; x ≤ y
def ofInt (n : Int) : Dyadic := ⟨n, 0⟩
def neg (a : Dyadic) : Dyadic := ⟨-a.n, a.e⟩
/-- The greatest integer at or below. -/
def floor (a : Dyadic) : Int := if a.e ≥ 0 then scale a.n a.e.toNat else Int.fdiv a.n (2 ^ (-a.e).toNat : Nat)
end Dy

/-- The exact value of a finite binary64 (zero for the others, which callers test first). -/
def f64Dy (x : F64) : Dyadic :=
  match F64.val x with
  | .fin neg m e => ⟨if neg then -(m : Int) else m, e⟩
  | _ => ⟨0, 0⟩

def f32Dy (x : F32) : Dyadic :=
  match F32.val x with
  | .fin neg m e => ⟨if neg then -(m : Int) else m, e⟩
  | _ => ⟨0, 0⟩

/-- Round a dyadic value once; a zero result takes the sign zneg. -/
def fOfDy (d : Dyadic) (zneg : Bool) : F64 :=
  if d.n = 0 then f64Pack zneg 0 0 false else f64Pack (d.n < 0) d.n.natAbs d.e false

/-- An integer converted to binary64, rounded once (R36). -/
def fOfInt (n : Int) : F64 := fOfDy ⟨n, 0⟩ false
def fOfNat (n : Nat) : F64 := fOfInt n

/-- Binary32 widened exactly (R36). -/
def fWiden (x : F32) : F64 :=
  match F32.val x with
  | .nan => f64Nan x.bits.toNat
  | .inf neg => f64Inf neg
  | .fin neg m e => f64Pack neg m e false

/-- Binary64 rounded to binary32. -/
def fNarrow (x : F64) : F32 :=
  match F64.val x with
  | .nan => ⟨(if x.bits.msb then 0x80000000 else 0) ||| 0x7FC00000 ||| BitVec.ofNat 32 (x.bits.toNat / 2 ^ 29 % 2 ^ 22)⟩
  | .inf neg => ⟨if neg then 0xFF800000 else 0x7F800000⟩
  | .fin neg m e => f32Pack neg m e false

def fneg (x : F64) : F64 := ⟨x.bits ^^^ 0x8000000000000000⟩
def fabs (x : F64) : F64 := ⟨x.bits &&& 0x7FFFFFFFFFFFFFFF⟩

def seed2 (a b : F64) : Nat := a.bits.toNat * 2 ^ 64 + b.bits.toNat

/-- Fused multiply-add a * b + c, rounded once (R36). -/
def ffma (a b c : F64) : F64 :=
  let bad := f64Nan (seed2 a b * 2 ^ 64 + c.bits.toNat)
  match F64.val a, F64.val b, F64.val c with
  | .fin na ma ea, .fin nb mb eb, .fin nc mc ec =>
    let np := na != nb
    let p : Dyadic := ⟨if np then -((ma * mb : Nat) : Int) else (ma * mb : Nat), ea + eb⟩
    let q : Dyadic := ⟨if nc then -(mc : Int) else mc, ec⟩
    fOfDy (Dy.add p q) (np && nc)
  | .fin _ _ _, .fin _ _ _, .inf nc => f64Inf nc
  | .nan, _, _ => bad
  | _, .nan, _ => bad
  | _, _, .nan => bad
  | .inf na, .inf nb, .inf nc => if (na != nb) = nc then f64Inf nc else bad
  | .inf na, .inf nb, .fin _ _ _ => f64Inf (na != nb)
  | .inf na, .fin nb m _, c' =>
    if m = 0 then bad else
    match c' with
    | .inf nc => if (na != nb) = nc then f64Inf nc else bad
    | _ => f64Inf (na != nb)
  | .fin na m _, .inf nb, c' =>
    if m = 0 then bad else
    match c' with
    | .inf nc => if (na != nb) = nc then f64Inf nc else bad
    | _ => f64Inf (na != nb)

def fadd (a b : F64) : F64 := ffma a F64.one b
def fsub (a b : F64) : F64 := ffma a F64.one (fneg b)

/-- Product, rounded once. -/
def fmul (a b : F64) : F64 :=
  match F64.val a, F64.val b with
  | .fin na ma ea, .fin nb mb eb => f64Pack (na != nb) (ma * mb) (ea + eb) false
  | .nan, _ => f64Nan (seed2 a b)
  | _, .nan => f64Nan (seed2 a b)
  | .inf na, .inf nb => f64Inf (na != nb)
  | .inf na, .fin nb m _ => if m = 0 then f64Nan (seed2 a b) else f64Inf (na != nb)
  | .fin na m _, .inf nb => if m = 0 then f64Nan (seed2 a b) else f64Inf (na != nb)

/-- Round the ratio m1 * 2^e1 / m2 (m2 not zero) once. -/
def divPack (neg : Bool) (m1 m2 : Nat) (e : Int) : F64 :=
  let k := 60 + m2.log2 - m1.log2
  let n := m1 * 2 ^ k
  f64Pack neg (n / m2) (e - k) (n % m2 ≠ 0)

/-- Quotient, rounded once. -/
def fdiv (a b : F64) : F64 :=
  match F64.val a, F64.val b with
  | .fin na ma ea, .fin nb mb eb =>
    if mb = 0 then (if ma = 0 then f64Nan (seed2 a b) else f64Inf (na != nb))
    else if ma = 0 then f64Pack (na != nb) 0 0 false
    else divPack (na != nb) ma mb (ea - eb)
  | .nan, _ => f64Nan (seed2 a b)
  | _, .nan => f64Nan (seed2 a b)
  | .inf _, .inf _ => f64Nan (seed2 a b)
  | .inf na, .fin nb _ _ => f64Inf (na != nb)
  | .fin na _ _, .inf nb => f64Pack (na != nb) 0 0 false

/-- The greatest r with r * r ≤ n, found bit by bit from bit k - 1 down. -/
def isqrtBits (n : Nat) : Nat → Nat → Nat
  | 0, r => r
  | k + 1, r => isqrtBits n k (let r' := r + 2 ^ k; if r' * r' ≤ n then r' else r)

def isqrt (n : Nat) : Nat := isqrtBits n (n.log2 / 2 + 1) 0

/-- Square root, correctly rounded (R491). -/
def fsqrt (a : F64) : F64 :=
  match F64.val a with
  | .nan => f64Nan a.bits.toNat
  | .inf neg => if neg then f64Nan a.bits.toNat else f64Inf false
  | .fin neg m e =>
    if m = 0 then a else if neg then f64Nan a.bits.toNat else
    let k : Nat := 120 + (if e % 2 = 0 then 0 else 1)
    let n := m * 2 ^ k
    let r := isqrt n
    f64Pack false r ((e - k) / 2) (r * r ≠ n)

/-- Strictly below; false when either is a NaN. -/
def flt (a b : F64) : Bool :=
  match F64.val a, F64.val b with
  | .nan, _ => false
  | _, .nan => false
  | .inf na, .inf nb => na && !nb
  | .inf na, _ => na
  | _, .inf nb => !nb
  | .fin _ _ _, .fin _ _ _ => Dy.lt (f64Dy a) (f64Dy b)

/-- At or below; false when either is a NaN. -/
def fle (a b : F64) : Bool :=
  match F64.val a, F64.val b with
  | .nan, _ => false
  | _, .nan => false
  | .inf na, .inf nb => na || !nb
  | .inf na, _ => na
  | _, .inf nb => !nb
  | .fin _ _ _, .fin _ _ _ => Dy.le (f64Dy a) (f64Dy b)

/-- Equal as values (a zero equals a zero of the other sign). -/
def feq (a b : F64) : Bool := fle a b && fle b a

/-- The lesser; a NaN operand gives that NaN (log 1). -/
def fmin (a b : F64) : F64 := if fIsNan a then a else if fIsNan b then b else if flt b a then b else a
/-- The greater; a NaN operand gives that NaN (log 1). -/
def fmax (a b : F64) : F64 := if fIsNan a then a else if fIsNan b then b else if flt a b then b else a
/-- min(max(x, lo), hi), as R45 writes it. -/
def fclamp (x lo hi : F64) : F64 := fmin (fmax x lo) hi

/-- The greatest integer at or below a finite value. -/
def ffloorInt (x : F64) : Int := Dy.floor (f64Dy x)
/-- floor as a binary64 value. -/
def ffloor (x : F64) : F64 := if fFinite x then fOfInt (ffloorInt x) else x

/-- The nearest integer to a dyadic value, an exact half to the even one (R56). -/
def dyRound (d : Dyadic) : Int :=
  let m := if d.e ≥ 0 then d.n.natAbs * 2 ^ d.e.toNat else shiftRne d.n.natAbs (-d.e).toNat false
  if d.n < 0 then -(m : Int) else m

def froundInt (x : F64) : Int := dyRound (f64Dy x)

/-- -1, 0 or 1 by sign; 0 for a zero (R106). -/
def fsgn (x : F64) : F64 :=
  if flt F64.zero x then F64.one else if flt x F64.zero then fneg F64.one else F64.zero

def f64two : F64 := ⟨0x4000000000000000⟩
def f64three : F64 := ⟨0x4008000000000000⟩
def f64half : F64 := ⟨0x3FE0000000000000⟩
/-- π₆₄ (R491). -/
def f64pi : F64 := ⟨0x400921FB54442D18⟩
/-- 2π₆₄, exactly twice π₆₄ (R491). -/
def f64twoPi : F64 := ⟨0x401921FB54442D18⟩
/-- √3₆₄ (R491). -/
def f64sqrt3 : F64 := ⟨0x3FFBB67AE8584CAA⟩

/-- θ reduced to [−π₆₄, π₆₄) by the exact remainder of R491. -/
def freduce (x : F64) : F64 :=
  if fFinite x then
    let d := f64Dy x
    let p := f64Dy f64pi
    let (n, q, e) := Dy.align d p
    let k := Int.fdiv (n + q) (2 * q)
    fOfDy ⟨n - 2 * q * k, e⟩ false
  else f64Nan x.bits.toNat

/-- The integer part of π · 2^1800. -/
def piBig : Nat := 0x3243f6a8885a308d313198a2e03707344a4093822299f31d0082efa98ec4e6c89452821e638d01377be5466cf34e90c6cc0ac29b7c97c50dd3f84d5b5b54709179216d5d98979fb1bd1310ba698dfb5ac2ffd72dbd01adfb7b8e1afed6a267e96ba7c9045f12c7f9924a19947b3916cf70801f2e2858efc16636920d871574e69a458fea3f4933d7e0d95748f728eb658718bcd5882154aee7b54a41dc25a59b59c30d5392af26013c5d1b023286085f0ca417918b8db38ef8e79dcb0603a180e6c9e0e8bb01e8a3ed71577c1bd314b2778af2fda55605c60e65525f3aa55ab9457
/-- The integer part of ln 2 · 2^800. -/
def ln2Big : Nat := 0xb17217f7d1cf79abc9e3b39803f2f6af40f343267298b62d8a0d175b8baafa2be7b876206debac98559552fb4afa1b10ed2eae35c138214427573b291169b8253e96ca16224ae8c51acbda11317c387eb9ea9bc3b136603b256fa0ec7657f74b72ce87b1

/-- Fraction bits of the series below. -/
def trigBits : Nat := 512

/-- Sum of the Taylor terms t, t·z/((k+1)(k+2)), … with alternating signs, for z the square of the argument. -/
def trigSeries (z : Nat) : Nat → Nat → Nat → Bool → Int → Int
  | 0, _, _, _, acc => acc
  | fuel + 1, k, t, neg, acc =>
    trigSeries z fuel (k + 2) (t * z / 2 ^ trigBits / ((k + 1) * (k + 2))) (!neg) (if neg then acc - t else acc + t)

/-- sin and cos of a fixed-point argument in [0, π/2], both with trigBits fraction bits. -/
def sinCosFix (r : Nat) : Int × Int :=
  let z := r * r / 2 ^ trigBits
  (trigSeries z 64 1 r false 0, trigSeries z 64 0 (2 ^ trigBits) false 0)

/-- Quadrant and remainder of m · 2^e (e ≥ −1800) over π/2: the count of quarter turns and the rest in fixed point. -/
def quadrant (m : Nat) (e : Int) : Nat × Nat :=
  let x := m * 2 ^ (e + 1800).toNat
  let h := piBig / 2
  (x / h % 4, x % h / 2 ^ (1800 - trigBits))

/-- sin and cos of a finite magnitude m · 2^e, in fixed point. -/
def sinCosMag (m : Nat) (e : Int) : Int × Int :=
  let (q, r) := quadrant m e
  let (s, c) := sinCosFix r
  match q with
  | 0 => (s, c)
  | 1 => (c, -s)
  | 2 => (-s, -c)
  | _ => (-c, s)

def fixPack (neg : Bool) (v : Int) : F64 :=
  f64Pack (neg != (v < 0)) v.natAbs (-(trigBits : Int)) true

/-- |m · 2^e| strictly below 2^−27, where sin x and tan x round to x and cos x rounds to 1. -/
def trigTiny (m : Nat) (e : Int) : Bool := m = 0 || (m.log2 : Int) + e < -27

/-- sin, the binary64 value nearest to the exact function (R491). -/
def fsin (x : F64) : F64 :=
  match F64.val x with
  | .fin neg m e => if trigTiny m e then x else fixPack neg (sinCosMag m e).1
  | _ => f64Nan x.bits.toNat

/-- cos (R491). -/
def fcos (x : F64) : F64 :=
  match F64.val x with
  | .fin _ m e => if trigTiny m e then F64.one else fixPack false (sinCosMag m e).2
  | _ => f64Nan x.bits.toNat

/-- tan (R491). -/
def ftan (x : F64) : F64 :=
  match F64.val x with
  | .fin neg m e =>
    if trigTiny m e then x else
    let (s, c) := sinCosMag m e
    divPack (neg != ((s < 0) != (c < 0))) s.natAbs c.natAbs 0
  | _ => f64Nan x.bits.toNat

/-- Sum of r^k/k! in fixed point. -/
def expSeries (r : Nat) : Nat → Nat → Nat → Nat → Nat
  | 0, _, _, acc => acc
  | fuel + 1, k, t, acc => expSeries r fuel (k + 1) (t * r / 2 ^ trigBits / (k + 1)) (acc + t)

/-- exp (R491). -/
def fexp (x : F64) : F64 :=
  match F64.val x with
  | .nan => f64Nan x.bits.toNat
  | .inf neg => if neg then F64.zero else f64Inf false
  | .fin neg m e =>
    if m = 0 || (m.log2 : Int) + e < -54 then F64.one
    else if (m.log2 : Int) + e ≥ 10 then (if neg then F64.zero else f64Inf false)
    else
      let v : Int := (if neg then -(m : Int) else m) * (2 ^ (e + 800).toNat : Nat)
      let k := Int.fdiv v ln2Big
      let r := (v - k * ln2Big).toNat / 2 ^ (800 - trigBits)
      f64Pack false (expSeries r 120 0 (2 ^ trigBits) 0) (k - trigBits) true

/-- The fourth power as written in R114, formed left to right. -/
def fpow4 (x : F64) : F64 := fmul (fmul (fmul x x) x) x

end Sys2Proof.Machine
end

