-- ==== Sys2Proof/Machine/State.lean ====
section
/-! DEFINITION. The state of the machine, the reasons a step can stop, and the state after reset. -/

namespace Sys2Proof.Machine

/-! ## The machine -/

/-- The state of the FZH256, and the queue of commands that wait. -/
structure State where
  frm : Frm := {}                -- frame tick and device time | 01 R25 to R33 | see Frm
  axes : Tbl Axis := []          -- axes 0 to 255 | 03 R66 | see Axis
  lines : Tbl Line := []         -- line axes 0 to 15 | 04 R91 | see Line
  cams : Tbl CamTable := []      -- cam tables 0 to 63 | 04 R99 | see CamTable
  camStg : Tbl (List Host.Cell) := [] -- staging areas of the cam tables, bytes | 04 R100, 15 R385 | unlisted bytes 0: DESIGN CHOICE, log 5
  zones : Tbl Zone := []         -- zones 0 to 63 | 04 R105 | see Zone
  steps : Tbl StepCh := []       -- step channels 0 to 15 | 05 R133 | see StepCh
  encs : Tbl Enc := []           -- encoder inputs 0 to 7 | 05 R144 | see Enc
  net : Net := {}                -- Mylia-TT | 06, 07 | see Net
  dsp : Dsp := {}                -- dispatcher | 08 | see Dsp
  red : Red := {}                -- head pairs | 09 | see Red
  saf : Saf := {}                -- safety | 10, 11 | see Saf
  fio : Fio := {}                -- field IO | 12 | see Fio
  cap : Cap := {}                -- capture | 13 | see Cap
  prf : Prf := {}                -- performance counters | 14 | see Prf
  host : Hst := {}               -- host link, mailboxes, process image | 15 | see Hst
  evt : Evt := {}                -- events and interrupts | 15 R397 to R400 | see Evt
  params : Tbl W64 := []         -- parameter values in force, by key; unlisted: the default | 16 R403 to R405 | defaults
  cfg : Cfg := {}                -- configuration, flash, lifecycle | 16 | see Cfg
  pwr : Pwr := {}                -- supplies, clocks, reset | 17 | see Pwr
  lgr : Lgr := {}                -- ledgers and fault log | 18 | see Lgr
  pending : List Instr := []     -- commands waiting, first in, first out | the model's own | empty
  deriving DecidableEq, Repr

/-- Reasons for a fault. None is raised: every command of the table has an effect the spec gives. -/
inductive Fault where
  /-- Raised by no meaning of this model; kept so that the type has a name for a stuck step. Safe. -/
  | stuck
  deriving DecidableEq, Repr

/-- Reasons for a refusal. -/
inductive Refusal where
  /-- Raised by the arm of a command that has no meaning yet, with its mnemonic. Safe: nothing is claimed of it. -/
  | notModelled (mnemonic : String)
  deriving DecidableEq, Repr

/-- The machine right after the core die's release from reset (17 R442): every field at the value the spec states, or
at the value the assumption log names. -/
def State.reset : State := {}

end Sys2Proof.Machine
end

