-- ==== Sys2Proof/Machine/Loop.lean ====
section
/-! DEFINITION. The axis loop chain: conditioning, compensators, notches, current loop, duties, re-initialisation
(02_loop_chain, 03_loop_supervision). Sums are folded left to right by fused multiply-adds (R37). -/

namespace Sys2Proof.Machine

/-- The raw parameter values of one instance, by item number. -/
abbrev Par := Nat → W64

def parF (P : Par) (item : Nat) : F64 := fWiden ⟨(P item).setWidth 32⟩
def parN (P : Par) (item : Nat) : Nat := (P item).toNat
def parD (P : Par) (item : Nat) : F64 := ⟨P item⟩
def parI (P : Par) (item : Nat) : Int := (P item).toInt
/-- An unsigned integer parameter converted to binary64 (R36). -/
def parNF (P : Par) (item : Nat) : F64 := fOfNat (parN P item)

/-- a·b + c by one fused multiply-add; c − a·b. -/
def fnma (a b c : F64) : F64 := ffma (fneg a) b c

/-- P in seconds, formed once from the period in ns. -/
def periodSec (ns : Nat) : F64 := fdiv (fOfNat ns) (fOfNat 1000000000)

/-- The coefficients, limits and anti-windup setting of a compensator block (R44, R45). -/
structure CompPar where
  b0 : F64
  b1 : F64
  b2 : F64
  b3 : F64
  a1 : F64
  a2 : F64
  a3 : F64
  umin : F64
  umax : F64
  bc : Bool
  kaw : F64
  deriving DecidableEq, Repr

/-- Block parameters whose coefficient items start at base (POS 103, VEL 203, ZONE 20), the limits at lim,
AW_MODE at aw and K_AW after it. -/
def compPar (P : Par) (base lim aw : Nat) : CompPar :=
  { b0 := parF P base, b1 := parF P (base + 1), b2 := parF P (base + 2), b3 := parF P (base + 3),
    a1 := parF P (base + 4), a2 := parF P (base + 5), a3 := parF P (base + 6),
    umin := parF P lim, umax := parF P (lim + 1), bc := parN P aw = 1, kaw := parF P (aw + 1) }

def posPar (P : Par) : CompPar := compPar P 103 110 112
def velPar (P : Par) : CompPar := compPar P 203 210 212
def zonePar (P : Par) : CompPar := compPar P 20 27 29

/-- u_raw of R44, in the order of the rule. -/
def compRaw (k : CompPar) (c : Comp) (e : F64) : F64 :=
  let acc := fmul k.b0 e
  let acc := ffma k.b1 c.e1 acc
  let acc := ffma k.b2 c.e2 acc
  let acc := ffma k.b3 c.e3 acc
  let acc := fnma k.a1 c.u1 acc
  let acc := fnma k.a2 c.u2 acc
  fnma k.a3 c.u3 acc

/-- One frame of a compensator block (R44, R45). -/
def compStep (k : CompPar) (c : Comp) (e : F64) : Comp :=
  let raw := compRaw k c e
  let out := fclamp raw k.umin k.umax
  let u := if k.bc then ffma k.kaw (fsub out raw) raw else out
  { e1 := e, e2 := c.e1, e3 := c.e2, u1 := u, u2 := c.u1, u3 := c.u2, out := out, sat := !feq out raw }

/-- The held value limited to the block's clamps: H' of R75. -/
def reinitHeld (k : CompPar) (h : F64) : F64 := fclamp h k.umin k.umax

/-- Bumpless re-initialisation of a block from its held value h at the closing error e (R75). -/
def compReinit (k : CompPar) (h e : F64) : Comp :=
  let h' := reinitHeld k h
  let sb := fadd (fadd k.b1 k.b2) k.b3
  let den := fadd (fadd (fadd F64.one k.a1) k.a2) k.a3
  let c := if feq sb F64.zero then F64.zero else fdiv (fnma k.b0 e (fmul h' den)) sb
  { e1 := c, e2 := c, e3 := c, u1 := h', u2 := h', u3 := h', out := h', sat := false }

/-- The coefficients of a notch of type ty at centre frequency f (R50). -/
def notchCoef (ty : Nat) (f zz zp per : F64) : Biquad :=
  if ty = 0 then {} else
  let w := fmul f64twoPi f
  let k := fdiv w (ftan (fdiv (fmul w per) f64two))
  let k2 := fmul k k
  let pw := fmul (fmul f64two zp) w
  let zw := fmul (fmul f64two zz) w
  let d := ffma w w (ffma pw k k2)
  let b1 := fdiv (fmul f64two (fnma k k (fmul w w))) d
  let a2 := fdiv (ffma w w (fnma pw k k2)) d
  if ty = 1 then
    { b0 := fdiv (ffma w w (ffma zw k k2)) d, b1 := b1, b2 := fdiv (ffma w w (fnma zw k k2)) d, a1 := b1, a2 := a2 }
  else
    let ww := fmul w w
    { b0 := fdiv ww d, b1 := fdiv (fmul (fmul f64two w) w) d, b2 := fdiv ww d, a1 := b1, a2 := a2 }

/-- One frame of a notch in transposed direct form II (R49): output and new states. -/
def notchStep (ty : Nat) (c : Biquad) (n : Notch) (x : F64) : F64 × Notch :=
  if ty = 0 then (x, {}) else
  let y := fadd (fmul c.b0 x) n.s1
  (y, { s1 := fadd (fnma c.a1 y (fmul c.b1 x)) n.s2, s2 := fnma c.a2 y (fmul c.b2 x) })

/-- Steady states of a notch for a constant input (R76). -/
def notchReinit (ty : Nat) (c : Biquad) (h : F64) : Notch :=
  if ty = 0 then {} else { s1 := fmul h (fsub F64.one c.b0), s2 := fmul h (fsub c.b2 c.a2) }

/-- The coefficients of N1 to N4 in force: N4's centre is shifted by δ (R50). -/
def notchCoefs (P : Par) (per dl : F64) (k : Nat) : Biquad :=
  let f := parF P (301 + 8 * k)
  notchCoef (parN P (300 + 8 * k)) (if k = 3 then fmul f (fadd F64.one dl) else f)
    (parF P (302 + 8 * k)) (parF P (303 + 8 * k)) per

/-- The notches N1 to N4 in turn; in the closing frame (h is the limited CB_V value) each starts in its steady state. -/
def notchChain (P : Par) (per dl : F64) (h : Option F64) (l : AxLoop) (x : F64) : F64 × AxLoop :=
  let one (k : Nat) (n : Notch) (x : F64) : F64 × Notch :=
    let ty := parN P (300 + 8 * k)
    let c := notchCoefs P per dl k
    let n := match h with
      | some h => notchReinit ty c h
      | none => n
    notchStep ty c n x
  let (x, n1) := one 0 l.n1 x
  let (x, n2) := one 1 l.n2 x
  let (x, n3) := one 2 l.n3 x
  let (x, n4) := one 3 l.n4 x
  (x, { l with n1 := n1, n2 := n2, n3 := n3, n4 := n4 })

/-- The field-weakening characteristic FW (R51), from point k on. -/
def fwFrom (P : Par) (wx : F64) : Nat → Nat → F64
  | 0, k => parF P (536 + k)
  | n + 1, k =>
    let x0 := parF P (520 + k)
    let x1 := parF P (521 + k)
    if flt wx x1 then
      let d0 := parF P (536 + k)
      let s := fdiv (fsub (parF P (537 + k)) d0) (fsub x1 x0)
      ffma s (fsub wx x0) d0
    else fwFrom P wx n (k + 1)

def fieldWeak (P : Par) (wx : F64) : F64 :=
  if fIsNan wx then wx
  else if fle wx (parF P 520) then parF P 536
  else fwFrom P wx 15 0

/-- The factor a derating of the group puts on the torque and current limits (R85). -/
def derateFactor (derated : Bool) (pct : Nat) : F64 :=
  if derated then fdiv (fOfNat pct) (fOfNat 100) else F64.one

/-- A limit in use: the parameter times the derating and the homing fraction (R85, R141). -/
def limitInUse (P : Par) (derated homing : Bool) (x : F64) : F64 :=
  let x := if derated then fmul x (derateFactor true (parN P 807)) else x
  if homing then fmul x (fdiv (parNF P 962) (fOfNat 100)) else x

/-- The voltage circle of R55, d axis first: v_d, v_q and whether a clamp acted. -/
def circle (P : Par) (udc vd vq : F64) : F64 × F64 × Bool :=
  let r := fdiv (fmul (parF P 509) udc) f64sqrt3
  let d := fclamp vd (fneg r) r
  let h := fsqrt (fmax (fnma d d (fmul r r)) F64.zero)
  let q := fclamp vq (fneg h) h
  (d, q, !feq d vd || !feq q vq)

/-- One duty word (R56 steps 3 and 4). -/
def dutyWord (v udc : F64) : W16 :=
  let d := fmul (fadd f64half (fdiv v udc)) (fOfNat 65535)
  BitVec.ofNat 16 (min (froundInt d).toNat 65535)

/-- The three duties of a voltage vector at angle th (R53, R56), and the numbers they were formed from. -/
def duties (vd vq th udc : F64) : (W16 × W16 × W16) × List F64 :=
  let c := fcos th
  let s := fsin th
  let va := fnma vq s (fmul vd c)
  let vb := ffma vq c (fmul vd s)
  let k := fdiv f64sqrt3 f64two
  let half := fdiv (fneg va) f64two
  let pb := ffma k vb half
  let pc := fnma k vb half
  let v0 := fdiv (fneg (fadd (fmax (fmax va pb) pc) (fmin (fmin va pb) pc))) f64two
  let a := fadd va v0
  let b := fadd pb v0
  let c' := fadd pc v0
  ((dutyWord a udc, dutyWord b udc, dutyWord c' udc), [fdiv a udc, fdiv b udc, fdiv c' udc])

/-- θ_A = θ_S + ω_e·(A − S), the angle advanced from S to A (R53): A − S is formed first, and the product is folded into the sum (R37). -/
def advancedAngle (ths we per : F64) : F64 := ffma we (fdiv per f64two) ths

/-- The mechanical angle within one revolution (R42). -/
def thetaM (P : Par) (pos : W64) : F64 :=
  let cpr := parN P 64
  fdiv (fmul f64twoPi (fOfInt (pos.toInt.fmod cpr))) (fOfNat cpr)

/-- θ_S, reduced to [−π, π) (R42). -/
def thetaS (P : Par) (pos : W64) : F64 :=
  freduce (fadd (fmul (parNF P 66) (thetaM P pos)) (parF P 67))

def omegaE (P : Par) (om : F64) : F64 := fmul (parNF P 66) om

/-- Counts of movement in one frame at speed w (R57, R83). -/
def countsPerFrame (P : Par) (per w : F64) : F64 := fdiv (fmul (fmul w per) (parNF P 64)) f64twoPi

/-- A raw current word as amperes (R41). -/
def phaseCurrent (P : Par) (raw : W16) (k : Nat) : F64 :=
  fsub (fmul (parF P 71) (fOfInt raw.toInt)) (parF P (68 + k))

/-- Clarke and Park transforms at θ_S (R52, R53): i_d and i_q. -/
def parkCurrents (P : Par) (ia ib ic ths : F64) : F64 × F64 :=
  let two := parN P 72 = 2
  let al := if two then ia else fdiv (fsub (fsub (fmul f64two ia) ib) ic) f64three
  let be := if two then fdiv (ffma f64two ib ia) f64sqrt3 else fdiv (fsub ib ic) f64sqrt3
  let c := fcos ths
  let s := fsin ths
  (ffma be s (fmul al c), ffma be c (fmul (fneg al) s))

/-- The open-loop vector of an axis: v_d, v_q, θ_ol (R68). -/
structure OlVec where
  vd : F64
  vq : F64
  th : F64
  deriving DecidableEq, Repr

/-- What the frame's kernel needs beside the axis itself. -/
structure CritIn where
  per : F64                      -- P in s
  udcLsb : F64                   -- NODE.UDC_LSB of the axis's node
  udcRaw : W16                   -- UDC of the node's VALID frame
  frame : Nat                    -- the frame the kernel belongs to
  smp : Option Smp               -- the axis's entry of the node's VALID frame of that frame
  derated : Bool                 -- derating of the axis's group
  ol : OlVec                     -- open-loop vector
  sent : Bool                    -- the result comes in time to be sent
  rest : Bool                    -- the line axis the axis follows is at rest, or it follows none
  deriving DecidableEq, Repr

/-- Frames from frame a to frame b, modulo the width of FCNT48. -/
def framesFrom (a b : Nat) : Nat := (b + 2 ^ 48 - a) % 2 ^ 48

/-- The sample is new: the slot was valid, and q differs from the last accepted q or none was accepted yet (R39, R495). -/
def sampleNew (fb : AxFb) (m : Option Smp) : Bool :=
  match m with
  | none => false
  | some m => fb.accN = 0 || m.q ≠ fb.q

/-- Position extension and sample fields at an accepted sample (R39, R40, R495). -/
def acceptSample (P : Par) (ty : Nat) (I : CritIn) (m : Smp) (fb : AxFb) : AxFb :=
  let first := fb.accN = 0
  let d : W64 := if first then m.p32.signExtend 64 else (m.p32 - fb.p32).signExtend 64
  let d := if parN P 65 = 1 then -d else d
  let acc := if first then d else fb.posAcc + d
  let k := framesFrom fb.accAt I.frame
  let diff := fdiv (fmul f64twoPi (fOfInt (acc - fb.posAcc).toInt))
    (fmul (fmul (parNF P 64) (fOfNat k)) I.per)
  { fb with
    accN := min (fb.accN + 1) 2
    gap := if first || m.q = fb.q + 1 then fb.gap else min (fb.gap + 1) 65535
    q := m.q, p32 := m.p32, posAcc := acc, accAt := I.frame, afl := m.afl
    omDiff := if first then fb.omDiff else diff
    pos := if fb.est then fb.pos else acc
    iA := if ty = 1 then phaseCurrent P m.ia 0 else fb.iA
    iB := if ty = 1 then phaseCurrent P m.ib 1 else fb.iB
    iC := if ty = 1 && parN P 72 = 3 then phaseCurrent P m.ic 2 else fb.iC
    udc := fmul (fOfNat I.udcRaw.toNat) I.udcLsb
    tauNode := if ty = 2 then fWiden m.tau else fb.tauNode
    estLeft := fb.estLeft && fb.est
    acc := true, pred := false }

/-- The prediction of P64 in a frame without an accepted sample, outside estimated feedback (R57). -/
def predictPos (P : Par) (per : F64) (fb : AxFb) : AxFb :=
  { fb with
    pos := if fb.est then fb.pos else fb.pos + BitVec.ofInt 64 (froundInt (countsPerFrame P per fb.wHat))
    acc := false, pred := true }

/-- The advance of P64 in estimated feedback (R83). -/
def estAdvance (P : Par) (per : F64) (fb : AxFb) : AxFb :=
  let c := fadd (countsPerFrame P per fb.om) fb.estRem
  let n := froundInt c
  { fb with pos := fb.pos + BitVec.ofInt 64 n, estRem := fsub c (fOfInt n) }

/-- The speed taken in estimated feedback by a SERVO-C axis (R83): back-EMF when it is strong enough, else ω̂. -/
def estSpeed (P : Par) (vq : F64) (fb : AxFb) : F64 × Bool :=
  let den := fadd (fmul (parF P 501) fb.iD) (parF P 503)
  let tenth : F64 := ⟨0x3FB999999999999A⟩
  if fb.acc && fle (parF P 806) (fabs (omegaE P fb.wHat)) && fle (fmul tenth (parF P 503)) den then
    (fdiv (fdiv (fnma (parF P 515) fb.iQ vq) den) (parNF P 66), true)
  else (fb.wHat, false)

/-- Feedback conditioning of one frame (R39 to R42, R80, R83, R495). DESIGN CHOICES (log 3): ω_m of a SERVO-P axis, of which
R59 computes none, stays 0, also at its closing and in the stop test; in a predicted frame of OPEN, FREEZE or DISABLED, whose
frame before formed no i_d*, i_q*, those last formed are taken. -/
def condition (P : Par) (ty : Nat) (I : CritIn) (l : AxLoop) (fb : AxFb) : AxFb :=
  let fb1 := match I.smp with
    | some m => if sampleNew fb (some m) then acceptSample P ty I m fb else predictPos P I.per fb
    | none => predictPos P I.per fb
  let fb2 := if fb1.est && ty ≠ 3 then estAdvance P I.per fb1 else fb1
  let ths := if ty = 1 then thetaS P fb2.pos else fb2.thS
  let (iD, iQ) :=
    if ty ≠ 1 then (fb2.iD, fb2.iQ)
    else if fb2.acc then parkCurrents P fb2.iA fb2.iB fb2.iC ths else (l.idRef, l.iqRef)
  let fb3 := { fb2 with thS := ths, iD := iD, iQ := iQ }
  let om :=
    if ty = 3 then fb3.om
    else if fb3.est then (if ty = 1 then (estSpeed P l.vApp fb3).1 else fb3.wHat)
    else if parN P 200 = 1 then fb3.wHat
    else if fb3.accN < 2 then F64.zero
    else if fb3.acc then fb3.omDiff else fb3.wHat
  { fb3 with om := om }

/-- Supervision of the feedback (R80, R81, R84) in the frame's state; d0 says that an accepted sample left P64 unchanged. -/
def superviseFb (P : Par) (running : Bool) (d0 : Bool) (fb : AxFb) : AxFb :=
  if !running then { fb with predRun := 0, predRep := false, frz := none, frzRep := false } else
  let predRun := if fb.pred then fb.predRun + 1 else 0
  let frz :=
    if fb.est then none
    else if fb.pred then fb.frz
    else match fb.frz with
      | some n => if d0 then some (n + 1) else none
      | none => if d0 && flt (parF P 802) (fabs fb.wHat) then some 1 else none
  { fb with
    predRun := predRun, predRep := fb.predRep && fb.pred
    frz := frz, frzRep := fb.frzRep && frz.isSome }

/-- The references of the frame (R47, R48). -/
structure Refs where
  int : W64
  frac : F64
  w : F64
  a : F64
  deriving DecidableEq, Repr

/-- e_p of R47. -/
def posErr (P : Par) (r : Refs) (pos : W64) : F64 :=
  fmul (fdiv f64twoPi (parNF P 64)) (fadd (fOfInt (r.int - pos).toInt) r.frac)

/-- The position loop (R47), re-initialised from H_P when re is set (R75). -/
def posLoop (P : Par) (re : Bool) (r : Refs) (pos : W64) (l : AxLoop) : AxLoop :=
  let k := posPar P
  let e := posErr P r pos
  let c := compStep k (if re then compReinit k l.hP e else l.cbP) e
  { l with cbP := c, hP := c.out, posSat := c.sat, wCmd := ffma (parF P 100) r.w c.out }

/-- VEL.KAFF · MECH.J · s_J (R48). -/
def accFf (P : Par) (sJ : F64) : F64 := fmul (fmul (parF P 201) (parF P 600)) sJ

/-- The velocity loop (R48), re-initialised from H_V when re is set; τ_c and the limited held value. -/
def velLoop (P : Par) (re : Bool) (r : Refs) (sJ om : F64) (l : AxLoop) : F64 × AxLoop :=
  let k := velPar P
  let e := fsub l.wCmd om
  let e := if parN P 202 = 1 then fmul sJ e else e
  let c := compStep k (if re then compReinit k l.hV e else l.cbV) e
  (ffma (accFf P sJ) r.a c.out, { l with cbV := c, hV := c.out, velSat := c.sat })

/-- τ limited to the limits in use (R51). -/
def torqueLimit (P : Par) (derated homing : Bool) (x : F64) (l : AxLoop) : AxLoop :=
  let t := fclamp x (fneg (limitInUse P derated homing (parF P 401))) (limitInUse P derated homing (parF P 400))
  { l with tau := t, tqSat := !feq t x }

/-- The current references (R51). The limit of i_q* is zero where |i_d*| equals I_max, as the rule says. -/
def currentRefs (P : Par) (derated : Bool) (we udc : F64) (l : AxLoop) : AxLoop :=
  let imax := limitInUse P derated false (parF P 508)
  let wx := fdiv (fmul (fabs we) (parF P 514)) udc
  let fw := fieldWeak P wx
  let idr := fmax fw (fneg imax)
  let h := if feq idr (fneg imax) then F64.zero else fsqrt (fnma idr idr (fmul imax imax))
  let raw := fdiv l.tau (parF P 500)
  let iqr := fclamp raw (fneg h) h
  { l with idRef := idr, iqRef := iqr, tqSat := l.tqSat || !feq idr fw || !feq iqr raw }

/-- New integrator state of one current axis (R55). -/
def piUpdate (P : Par) (per ki kp x e dec v raw : F64) : F64 :=
  let kip := fmul ki per
  if parN P 510 = 0 then
    if feq v raw then ffma kip e x else fsub (fnma kp e v) dec
  else ffma (parF P 511) (fsub v raw) (ffma kip e x)

/-- The current loop (R54, R55, R76): PIs with decoupling, circle, integrators; the voltages land in vD and vQ.
The second component says that a re-initialised voltage differs from its held value (R78). -/
def currentLoop (P : Par) (re : Bool) (per we : F64) (fb : AxFb) (l : AxLoop) : AxLoop × Bool :=
  let ed := fsub l.idRef fb.iD
  let eq := fsub l.iqRef fb.iQ
  let dec := parN P 512 = 1
  let dd := if dec then fmul (fmul (fneg we) (parF P 502)) fb.iQ else F64.zero
  let dq := if dec then fmul we (fadd (fmul (parF P 501) fb.iD) (parF P 503)) else F64.zero
  let kpd := parF P 504
  let kpq := parF P 506
  let (hd, hq, _) := circle P fb.udc l.hD l.hQ
  let xD := if re then fsub (fnma kpd ed hd) dd else l.xD
  let xQ := if re then fsub (fnma kpq eq hq) dq else l.xQ
  let rd := if re then hd else fadd (fadd (fmul kpd ed) xD) dd
  let rq := if re then hq else fadd (fadd (fmul kpq eq) xQ) dq
  let (vd, vq, sat) := circle P fb.udc rd rq
  let xD' := if fb.acc then piUpdate P per (parF P 505) kpd xD ed dd vd rd else xD
  let xQ' := if fb.acc then piUpdate P per (parF P 507) kpq xQ eq dq vq rq else xQ
  ({ l with xD := xD', xQ := xQ', vD := vd, vQ := vq, hD := vd, hQ := vq, curSat := sat },
    re && (!feq hd l.hD || !feq hq l.hQ))

/-- Set the duty words; the numbers behind them are kept for the test of R38. -/
def setDuties (vd vq th udc : F64) (l : AxLoop) : AxLoop × List F64 :=
  let ((a, b, c), xs) := duties vd vq th udc
  ({ l with dA := a, dB := b, dC := c }, xs)

def midDuties (l : AxLoop) : AxLoop := { l with dA := 0x8000, dB := 0x8000, dC := 0x8000 }

/-- The loops at rest: states and held values zero (R66, R68). -/
def loopZero (l : AxLoop) : AxLoop :=
  midDuties { l with
    cbP := {}, cbV := {}, n1 := {}, n2 := {}, n3 := {}, n4 := {}, xD := .zero, xQ := .zero
    hP := .zero, hV := .zero, hD := .zero, hQ := .zero
    posSat := false, velSat := false, tqSat := false, curSat := false, lstep := false, udcLow := false
    tau := .zero, wCmd := .zero, tauFf := .zero
    satP := 0, satV := 0, satT := 0, satC := 0, satRep := 0 }

def flagsClear (l : AxLoop) : AxLoop :=
  { l with posSat := false, velSat := false, tqSat := false, curSat := false, lstep := false, udcLow := false }

/-- One saturation-time counter of a CLOSED or STOPPING frame (R79). -/
def satCount (flag : Bool) (n : Nat) : Nat := if flag then n + 1 else 0

/-- The saturation-time counters after the frame (R77, R79, R80). -/
def satCounters (re pred : Bool) (l : AxLoop) : AxLoop :=
  let l := if re then { l with satP := 0, satV := 0, satT := 0, satC := 0, satRep := 0 } else l
  if pred then l else
  let keep (b : Bool) (k : Nat) : BitVec 4 := if b then BitVec.ofNat 4 (2 ^ k) else 0
  { l with
    satP := satCount l.posSat l.satP, satV := satCount l.velSat l.satV
    satT := satCount l.tqSat l.satT, satC := satCount l.curSat l.satC
    satRep := l.satRep &&& (keep l.posSat 0 ||| keep l.velSat 1 ||| keep l.tqSat 2 ||| keep l.curSat 3) }

/-- The chain of a closed SERVO-C, SERVO-V or SERVO-P axis (R47 to R56, R59, R75 to R78). -/
def closedChain (P : Par) (ty : Nat) (I : CritIn) (re : Bool) (r : Refs) (sJ dl : F64) (homing : Bool)
    (fb : AxFb) (l : AxLoop) : AxLoop × List F64 :=
  let l := flagsClear l
  let hV := l.hV
  let l := posLoop P re r fb.pos l
  if ty = 3 then ({ l with tauFf := fmul (accFf P sJ) r.a }, []) else
  let h' := reinitHeld (velPar P) hV
  let stepV := re && !feq h' hV
  let (tc, l) := velLoop P re r sJ fb.om l
  let (x, l) := notchChain P I.per dl (if re then some h' else none) l tc
  let l := torqueLimit P I.derated homing x l
  if ty = 2 then ({ l with lstep := stepV }, []) else
  let we := omegaE P fb.om
  let l := currentRefs P I.derated we fb.udc l
  if flt fb.udc (parF P 513) then
    ({ midDuties l with curSat := true, udcLow := true, lstep := stepV }, [])
  else
    let (l, stepI) := currentLoop P re I.per we fb l
    let (l, xs) := setDuties l.vD l.vQ (advancedAngle fb.thS we I.per) fb.udc l
    ({ l with lstep := stepV || stepI }, xs)

/-- The held outputs of FREEZE (R67). -/
def freezeChain (P : Par) (ty : Nat) (I : CritIn) (r : Refs) (sJ : F64) (homing : Bool)
    (fb : AxFb) (l : AxLoop) : AxLoop × List F64 :=
  let l := flagsClear l
  if ty = 3 then
    ({ l with wCmd := ffma (parF P 100) r.w l.hP, tauFf := fmul (accFf P sJ) r.a }, [])
  else if ty = 2 then (torqueLimit P I.derated homing l.hV l, [])
  else if flt fb.udc (parF P 513) then ({ midDuties l with curSat := true, udcLow := true }, [])
  else
    let (vd, vq, sat) := circle P fb.udc l.hD l.hQ
    let l := { l with vD := vd, vQ := vq, curSat := sat }
    setDuties vd vq (advancedAngle fb.thS (omegaE P fb.om) I.per) fb.udc l

/-- OPEN: nothing, or the open-loop vector of a SERVO-C axis (R68). -/
def openChain (P : Par) (ty : Nat) (I : CritIn) (fb : AxFb) (l : AxLoop) : AxLoop × List F64 :=
  let l := loopZero l
  if ty = 1 && parN P 808 = 1 then
    let (vd, vq, sat) := circle P fb.udc I.ol.vd I.ol.vq
    let l := { l with vD := vd, vQ := vq, hD := vd, hQ := vq, curSat := sat }
    if flt fb.udc (parF P 513) then ({ midDuties l with curSat := true, udcLow := true }, [])
    else setDuties vd vq I.ol.th fb.udc l
  else ({ l with vD := .zero, vQ := .zero }, [])

/-- Every number R38 tests: the outputs and new states of the kernel. -/
def critNumbers (fb : AxFb) (l : AxLoop) : List F64 :=
  let comp (c : Comp) := [c.e1, c.u1, c.e2, c.u2, c.e3, c.u3, c.out]
  [fb.om, fb.thS, fb.iD, fb.iQ, fb.udc, fb.tauNode, fb.estRem, fb.omDiff,
    l.xD, l.xQ, l.hP, l.hV, l.hD, l.hQ, l.idRef, l.iqRef, l.vD, l.vQ, l.tau, l.wCmd, l.tauFf,
    fWiden (fNarrow l.tau), fWiden (fNarrow l.wCmd), fWiden (fNarrow l.tauFf),
    fWiden (fNarrow l.idRef), fWiden (fNarrow l.iqRef),
    l.n1.s1, l.n1.s2, l.n2.s1, l.n2.s2, l.n3.s1, l.n3.s2, l.n4.s1, l.n4.s2]
    ++ comp l.cbP ++ comp l.cbV

/-- CTRL.EN: the power-stage enable the axis state prescribes (R66, R68, 06 R173). -/
def axisEn (P : Par) (ty : Nat) (st : AxState) : Bool :=
  match st with
  | .disabled => false
  | .fault => false
  | .opn => ty = 1 && parN P 808 = 1
  | .freeze => true
  | .closed => true
  | .stopping => true

def AxState.code : AxState → Nat
  | .disabled => 0
  | .opn => 1
  | .freeze => 2
  | .closed => 3
  | .stopping => 4
  | .fault => 5

def AxState.isClosed : AxState → Bool
  | .closed => true
  | .stopping => true
  | _ => false

/-- The loop is open: coefficients may be written (R64, R66). -/
def AxState.loopOpen : AxState → Bool
  | .disabled => true
  | .opn => true
  | .freeze => true
  | _ => false

def AxState.supervised : AxState → Bool
  | .disabled => false
  | .fault => false
  | _ => true

/-- The references of the frame: measured place and speed in a closing frame that follows OPEN (R72). -/
def frameRefs (ax : Axis) (fb : AxFb) : Refs :=
  if ax.fromOpen && ax.st.isClosed then { int := fb.pos, frac := .zero, w := fb.om, a := .zero }
  else { int := ax.rf.int, frac := ax.rf.frac, w := ax.rf.w, a := ax.rf.a }

/-- v_q as the frame's duties apply it: none while the power stage is off or the duties stand at 0x8000 (R43, R66). -/
def AxLoop.applied (st : AxState) (l : AxLoop) : F64 :=
  if st = .disabled || st = .fault || l.udcLow then F64.zero else l.vQ

/-- Keeper reference of the frame, for SERVO-C and SERVO-V (R58). DESIGN CHOICE (log 3): in a state in which R51 is not run, a
SERVO-C axis repeats the pair last formed. -/
def keeperRef (ty : Nat) (l : AxLoop) : F32 × F32 :=
  if ty = 1 then (fNarrow l.idRef, fNarrow l.iqRef) else (fNarrow l.tau, ⟨0⟩)

/-- The critical kernel of a SERVO-C, SERVO-V or SERVO-P axis for one frame, before the test of R38:
the new axis and the numbers that R38 tests beside its states. What is not sent leaves the keeper reference and the v_q applied
as they were (R58, R83; DESIGN CHOICE for v_q, log 3). -/
def servoCrit (P : Par) (ty : Nat) (I : CritIn) (ax : Axis) : Axis × List F64 :=
  let fb := condition P ty I ax.lp ax.fb
  let d0 := fb.acc && ax.fb.accN ≠ 0 && fb.posAcc = ax.fb.posAcc
  let fb := superviseFb P ax.st.supervised d0 fb
  let r := frameRefs ax fb
  let homing := !ax.mo.homeFull
  let re := ax.reinit && ax.st.isClosed
  let (l, xs) := match ax.st with
    | .disabled => (loopZero ax.lp, [])
    | .fault => (loopZero ax.lp, [])
    | .opn => openChain P ty I fb ax.lp
    | .freeze => freezeChain P ty I r ax.rf.sJ homing fb ax.lp
    | .closed => closedChain P ty I re r ax.rf.sJ ax.rf.dl homing fb ax.lp
    | .stopping => closedChain P ty I re r ax.rf.sJ ax.rf.dl homing fb ax.lp
  let l := if ax.st.isClosed then satCounters re fb.pred l else l
  let kr := keeperRef ty l
  let sent := I.sent && !ax.aband
  let l := { l with
    valid := sent
    vApp := if sent then l.applied ax.st else l.vApp
    kref0 := if sent && ty ≠ 3 then kr.1 else l.kref0
    kref1 := if sent && ty ≠ 3 then kr.2 else l.kref1 }
  ({ ax with
     fb := fb, lp := l, reinit := false, fromOpen := false, critDone := true
     stopDone := ax.st = .stopping && feq r.w F64.zero && I.rest && fle (fabs fb.om) (parF P 805)
     rf := if ax.st.isClosed then { ax.rf with int := r.int, frac := r.frac, w := r.w, a := r.a } else ax.rf },
   xs)

/-- R38: the states from before the frame, no valid command, FAULT at the next boundary. -/
def nonfiniteAxis (ax : Axis) : Axis :=
  { ax with critDone := true, nonfin := true, reinit := false, fromOpen := false
            lp := { midDuties ax.lp with valid := false } }

end Sys2Proof.Machine
end

