-- ==== Sys2Proof/Machine/Tables.lean ====
section
/-! DEFINITION. Sparse tables and byte memories in canonical form, little- and big-endian byte strings. -/

namespace Sys2Proof.Machine

/-! ## Sparse tables: keys strictly rising, no entry equal to the unlisted value d. A byte memory is a table of bytes. -/

/-- The entry of key k; d where no entry is listed. -/
def tget {α : Type} (d : α) : Tbl α → Nat → α
  | [], _ => d
  | (a, v) :: r, k => if k = a then v else tget d r k

/-- The table with v at key k, in canonical form. -/
def tset {α : Type} [DecidableEq α] (d : α) (k : Nat) (v : α) : Tbl α → Tbl α
  | [] => if v = d then [] else [(k, v)]
  | (a, x) :: r =>
    if k < a then (if v = d then (a, x) :: r else (k, v) :: (a, x) :: r)
    else if k = a then (if v = d then r else (k, v) :: r)
    else (a, x) :: tset d k v r

/-- The table with its entry at k changed by f. -/
def tmod {α : Type} [DecidableEq α] (d : α) (k : Nat) (f : α → α) (t : Tbl α) : Tbl α := tset d k (f (tget d t k)) t

/-- Change the entries of keys lo to lo + n − 1 by f. -/
def tmodRange {α : Type} [DecidableEq α] (d : α) (f : Nat → α → α) (lo : Nat) : Nat → Tbl α → Tbl α
  | 0, t => t
  | n + 1, t => tmod d (lo + n) (f (lo + n)) (tmodRange d f lo n t)

/-- Every listed entry changed by f, in canonical form. -/
def tmap {α : Type} [DecidableEq α] (d : α) (f : α → α) (t : Tbl α) : Tbl α :=
  (t.map fun x => (x.1, f x.2)).filter fun x => decide (x.2 ≠ d)

/-- Canonical form, from a lower bound of the keys on. -/
def twfFrom {α : Type} [DecidableEq α] (d : α) : Nat → Tbl α → Bool
  | _, [] => true
  | lo, (a, v) :: r => decide (lo ≤ a) && decide (v ≠ d) && twfFrom d (a + 1) r

/-- Canonical form of a table with unlisted value d. -/
def twf {α : Type} [DecidableEq α] (d : α) (t : Tbl α) : Bool := twfFrom d 0 t

/-! ## Byte memories -/

/-- What a byte that nothing has written reads as in volatile memory (logs 5, 14, 16) and in erased flash (log 19). -/
def ramByte : Byte := 0
def flashByte : Byte := 0xFF

/-- n bytes from address a on. -/
def mread (d : Byte) (m : List Host.Cell) (a : Nat) : Nat → List Byte
  | 0 => []
  | n + 1 => tget d m a :: mread d m (a + 1) n

/-- The memory with the bytes of bs stored from address a on. -/
def mwrite (d : Byte) (m : List Host.Cell) (a : Nat) : List Byte → List Host.Cell
  | [] => m
  | b :: bs => mwrite d (tset d a b m) (a + 1) bs

/-- The memory with n bytes from address a on back at what unlisted bytes read as. -/
def merase (m : List Host.Cell) (a n : Nat) : List Host.Cell := m.filter fun c => c.1 < a || a + n ≤ c.1

/-- Canonical form of a byte memory. -/
def Memory.wf (d : Byte) (m : List Host.Cell) : Bool := twf d m

/-! ## Byte strings -/

/-- n bytes of v, least significant first. -/
def leBytes : Nat → Nat → List Byte
  | 0, _ => []
  | n + 1, v => BitVec.ofNat 8 v :: leBytes n (v / 256)

/-- The number a little-endian byte string holds. -/
def leNat : List Byte → Nat
  | [] => 0
  | b :: bs => b.toNat + 256 * leNat bs

/-- n bytes of v, most significant first. -/
def beBytes (n v : Nat) : List Byte := (leBytes n v).reverse

/-- The number a big-endian byte string holds. -/
def beNat (bs : List Byte) : Nat := leNat bs.reverse

/-- n bytes at offset o of a byte string; bytes past its end read as zero. -/
def slice (bs : List Byte) (o n : Nat) : List Byte :=
  let x := (bs.drop o).take n
  x ++ List.replicate (n - x.length) 0

/-- Big-endian and little-endian fields of a byte string. -/
def beAt (bs : List Byte) (o n : Nat) : Nat := beNat (slice bs o n)
def leAt (bs : List Byte) (o n : Nat) : Nat := leNat (slice bs o n)

/-- Bits lo to lo + n − 1 of a number. -/
def bitsOf (v lo n : Nat) : Nat := v / 2 ^ lo % 2 ^ n

/-- One bit of a number. -/
def bitOf (v k : Nat) : Bool := v / 2 ^ k % 2 = 1

def b2n (b : Bool) : Nat := if b then 1 else 0

/-- n as a saturating count of w bits. -/
def satAdd (w n k : Nat) : Nat := min (n + k) (2 ^ w - 1)

/-- A 32-bit count that saturates. -/
def satInc (x : W32) : W32 := if x = 0xFFFFFFFF then x else x + 1

/-- A 32-bit count increased by k, saturating. -/
def satInc32 (x : W32) (k : Nat) : W32 := BitVec.ofNat 32 (satAdd 32 x.toNat k)

/-- Two's complement of an integer in w bits, as a number. -/
def twos (w : Nat) (i : Int) : Nat := (BitVec.ofInt w i).toNat

end Sys2Proof.Machine
end

