-- ==== Sys2Proof/Machine/Params.lean ====
section
/-! DEFINITION. The parameters: every table of the spec's parameter classes 0 to 16 with types, ranges, defaults and
"writable in" entries, and the judgement of a value against its range (R403 to R405, R492). -/

namespace Sys2Proof.Machine

/-- Parameter types (R386). -/
inductive PTy where
  | u8 | u16 | u32 | u64 | i64 | f32 | f64 | en | bo
  deriving DecidableEq, Repr

/-- "Writable in" entries (R405). -/
inductive WrIn where
  | base | any | loop | zone | capt | fioq | safe | ro
  deriving DecidableEq, Repr

/-- Ranges. Bounds of binary32 and binary64 parameters are given by their bits, rounded as R492 says. -/
inductive Rng where
  | any                                   -- every value of the type
  | nat (lo hi : Nat)
  | nat2 (lo hi a b : Nat)                -- lo to hi, or a, or b
  | step (lo hi st : Nat)                 -- lo to hi in steps of st from lo
  | quarter (lo : Nat)                    -- lo to a quarter of the frame period
  | f32 (lo hi : W32)
  | f32z (lo hi : W32)                    -- zero, or lo to hi
  | f64 (lo hi : W64)
  | finite
  | nonneg                                -- finite, at or above 0
  | draw                                  -- -10 to 10, not 0
  | perP (lo : W32) (num : W64)           -- lo to num/P
  | sig                                   -- a code of R337
  deriving DecidableEq, Repr

/-- n consecutive items from item on. -/
structure ParamRow where
  item : Nat
  n : Nat
  ty : PTy
  dflt : W64
  rng : Rng
  wr : WrIn
  deriving DecidableEq, Repr

/-- Class 1, instances 0 to 0 (spec files 01). -/
def params1_0_1 : List ParamRow :=
  [⟨0, 1, .u32, 0x7A12, .nat 15625 1000000, .base⟩,
   ⟨1, 1, .u32, 0x3E8, .quarter 200, .base⟩,
   ⟨2, 1, .u8, 0x50, .nat 50 90, .base⟩,
   ⟨8, 1, .bo, 0x0, .nat 0 1, .any⟩,
   ⟨9, 1, .u16, 0x3E8, .step 100 10000 100, .any⟩,
   ⟨10, 1, .en, 0x0, .nat 0 2, .base⟩,
   ⟨11, 1, .en, 0x0, .nat 0 1, .base⟩]

/-- Class 5, instances 0 to 255 (spec files 02, 03, 04, 05). -/
def params5_0_256 : List ParamRow :=
  [⟨0, 1, .en, 0x0, .nat 0 4, .base⟩,
   ⟨1, 1, .u16, 0x100, .nat 0 256, .base⟩,
   ⟨2, 1, .u8, 0x0, .nat 0 7, .base⟩,
   ⟨3, 1, .u8, 0x0, .nat 0 31, .base⟩,
   ⟨64, 1, .u32, 0x100000, .nat 4 2147483648, .loop⟩,
   ⟨65, 1, .en, 0x0, .nat 0 1, .loop⟩,
   ⟨66, 1, .u8, 0x4, .nat 1 64, .loop⟩,
   ⟨67, 1, .f32, 0x0, .f32 0xC0490FDB 0x40490FDB, .loop⟩,
   ⟨68, 3, .f32, 0x0, .f32 0xC2480000 0x42480000, .loop⟩,
   ⟨71, 1, .f32, 0x3A83126F, .f32 0x358637BD 0x3DCCCCCD, .base⟩,
   ⟨72, 1, .u8, 0x3, .nat 2 3, .base⟩,
   ⟨100, 1, .f32, 0x3F800000, .f32 0x00000000 0x40000000, .loop⟩,
   ⟨103, 9, .f32, 0x0, .finite, .loop⟩,
   ⟨112, 1, .en, 0x0, .nat 0 1, .loop⟩,
   ⟨113, 1, .f32, 0x3F800000, .f32 0x00000000 0x3F800000, .loop⟩,
   ⟨200, 1, .en, 0x0, .nat 0 1, .loop⟩,
   ⟨201, 1, .f32, 0x3F800000, .f32 0x00000000 0x40000000, .loop⟩,
   ⟨202, 1, .bo, 0x0, .nat 0 1, .loop⟩,
   ⟨203, 9, .f32, 0x0, .finite, .loop⟩,
   ⟨212, 1, .en, 0x0, .nat 0 1, .loop⟩,
   ⟨213, 1, .f32, 0x3F800000, .f32 0x00000000 0x3F800000, .loop⟩,
   ⟨300, 1, .en, 0x0, .nat 0 2, .loop⟩,
   ⟨308, 1, .en, 0x0, .nat 0 2, .loop⟩,
   ⟨316, 1, .en, 0x0, .nat 0 2, .loop⟩,
   ⟨324, 1, .en, 0x0, .nat 0 2, .loop⟩,
   ⟨301, 1, .f32, 0x447A0000, .perP 0x41200000 0x3FD999999999999A, .loop⟩,
   ⟨309, 1, .f32, 0x447A0000, .perP 0x41200000 0x3FD999999999999A, .loop⟩,
   ⟨317, 1, .f32, 0x447A0000, .perP 0x41200000 0x3FD999999999999A, .loop⟩,
   ⟨325, 1, .f32, 0x447A0000, .perP 0x41200000 0x3FD999999999999A, .loop⟩,
   ⟨302, 1, .f32, 0x3CA3D70A, .f32 0x00000000 0x3F800000, .loop⟩,
   ⟨310, 1, .f32, 0x3CA3D70A, .f32 0x00000000 0x3F800000, .loop⟩,
   ⟨318, 1, .f32, 0x3CA3D70A, .f32 0x00000000 0x3F800000, .loop⟩,
   ⟨326, 1, .f32, 0x3CA3D70A, .f32 0x00000000 0x3F800000, .loop⟩,
   ⟨303, 1, .f32, 0x3E99999A, .f32 0x3C23D70A 0x40000000, .loop⟩,
   ⟨311, 1, .f32, 0x3E99999A, .f32 0x3C23D70A 0x40000000, .loop⟩,
   ⟨319, 1, .f32, 0x3E99999A, .f32 0x3C23D70A 0x40000000, .loop⟩,
   ⟨327, 1, .f32, 0x3E99999A, .f32 0x3C23D70A 0x40000000, .loop⟩,
   ⟨328, 1, .en, 0x0, .nat 0 1, .loop⟩,
   ⟨400, 2, .f32, 0x0, .f32 0x00000000 0x461C4000, .any⟩,
   ⟨500, 1, .f32, 0x3F800000, .f32 0x3A83126F 0x42C80000, .loop⟩] ++
  [⟨501, 2, .f32, 0x3A83126F, .f32 0x358637BD 0x3F800000, .loop⟩,
   ⟨503, 1, .f32, 0x0, .f32 0x00000000 0x41200000, .loop⟩,
   ⟨504, 1, .f32, 0x0, .f32 0x00000000 0x461C4000, .loop⟩,
   ⟨506, 1, .f32, 0x0, .f32 0x00000000 0x461C4000, .loop⟩,
   ⟨505, 1, .f32, 0x0, .f32 0x00000000 0x4CBEBC20, .loop⟩,
   ⟨507, 1, .f32, 0x0, .f32 0x00000000 0x4CBEBC20, .loop⟩,
   ⟨508, 1, .f32, 0x0, .f32 0x00000000 0x447A0000, .any⟩,
   ⟨509, 1, .f32, 0x3F733333, .f32 0x3F4CCCCD 0x3F800000, .loop⟩,
   ⟨510, 1, .en, 0x0, .nat 0 1, .loop⟩,
   ⟨511, 1, .f32, 0x3F800000, .f32 0x00000000 0x3F800000, .loop⟩,
   ⟨512, 1, .bo, 0x1, .nat 0 1, .loop⟩,
   ⟨513, 1, .f32, 0x41200000, .f32 0x3F800000 0x42C80000, .loop⟩,
   ⟨514, 1, .f32, 0x440C0000, .f32 0x41200000 0x44960000, .loop⟩,
   ⟨520, 1, .f32, 0x0, .finite, .loop⟩,
   ⟨521, 1, .f32, 0x49742400, .finite, .loop⟩,
   ⟨522, 1, .f32, 0x49F42400, .finite, .loop⟩,
   ⟨523, 1, .f32, 0x4A371B00, .finite, .loop⟩,
   ⟨524, 1, .f32, 0x4A742400, .finite, .loop⟩,
   ⟨525, 1, .f32, 0x4A989680, .finite, .loop⟩,
   ⟨526, 1, .f32, 0x4AB71B00, .finite, .loop⟩,
   ⟨527, 1, .f32, 0x4AD59F80, .finite, .loop⟩,
   ⟨528, 1, .f32, 0x4AF42400, .finite, .loop⟩,
   ⟨529, 1, .f32, 0x4B095440, .finite, .loop⟩,
   ⟨530, 1, .f32, 0x4B189680, .finite, .loop⟩,
   ⟨531, 1, .f32, 0x4B27D8C0, .finite, .loop⟩,
   ⟨532, 1, .f32, 0x4B371B00, .finite, .loop⟩,
   ⟨533, 1, .f32, 0x4B465D40, .finite, .loop⟩,
   ⟨534, 1, .f32, 0x4B559F80, .finite, .loop⟩,
   ⟨535, 1, .f32, 0x4B64E1C0, .finite, .loop⟩,
   ⟨536, 16, .f32, 0x0, .f32 0xC47A0000 0x00000000, .loop⟩,
   ⟨600, 1, .f32, 0x3A83126F, .f32 0x358637BD 0x461C4000, .loop⟩,
   ⟨601, 1, .f32, 0x0, .f32 0x00000000 0x42C80000, .loop⟩,
   ⟨602, 1, .f32, 0x43960000, .perP 0x3F800000 0x3FC999999999999A, .loop⟩,
   ⟨700, 1, .en, 0x0, .nat 0 2, .loop⟩,
   ⟨515, 1, .f32, 0x0, .f32 0x00000000 0x42C80000, .loop⟩,
   ⟨800, 1, .u16, 0xC80, .nat 1 65535, .any⟩,
   ⟨801, 1, .u8, 0x2, .nat 0 8, .any⟩,
   ⟨802, 1, .f32, 0x41200000, .f32 0x3C23D70A 0x447A0000, .any⟩,
   ⟨803, 1, .u16, 0x40, .nat 2 65535, .any⟩,
   ⟨804, 1, .f32, 0x40000000, .f32 0x3DCCCCCD 0x40000000, .any⟩] ++
  [⟨805, 1, .f32, 0x3F000000, .f32 0x3A83126F 0x42C80000, .any⟩,
   ⟨806, 1, .f32, 0x42480000, .f32 0x3F800000 0x461C4000, .any⟩,
   ⟨807, 1, .u8, 0x32, .nat 10 100, .any⟩,
   ⟨808, 1, .en, 0x0, .nat 0 1, .loop⟩,
   ⟨900, 1, .en, 0x0, .nat 0 2, .base⟩,
   ⟨901, 1, .u8, 0x0, .nat 0 15, .base⟩,
   ⟨902, 1, .f64, 0x3FF0000000000000, .draw, .any⟩,
   ⟨903, 1, .f32, 0x3C23D70A, .f32 0x38D1B717 0x3F800000, .any⟩,
   ⟨904, 1, .f32, 0x3DCCCCCD, .f32 0x3BA3D70A 0x40A00000, .loop⟩,
   ⟨905, 1, .en, 0x0, .nat 0 1, .base⟩,
   ⟨906, 1, .f32, 0x3D4CCCCD, .f32 0x00000000 0x3F000000, .any⟩,
   ⟨907, 1, .f32, 0x0, .f32 0x00000000 0x447A0000, .loop⟩,
   ⟨908, 1, .u8, 0x0, .nat 0 63, .loop⟩,
   ⟨920, 1, .u16, 0xFFFF, .nat2 0 255 65535 65535, .base⟩,
   ⟨921, 1, .f32, 0x3F000000, .finite, .any⟩,
   ⟨922, 1, .f32, 0x3DCCCCCD, .f32 0x3C23D70A 0x40A00000, .base⟩,
   ⟨923, 1, .f32, 0x40000000, .f32 0x3C23D70A 0x40A00000, .base⟩,
   ⟨924, 1, .f32, 0x3F800000, .f32 0x3C23D70A 0x42C80000, .any⟩,
   ⟨925, 1, .f32, 0x38D1B717, .f32 0x358637BD 0x3C23D70A, .any⟩,
   ⟨926, 1, .f32, 0x3F000000, .f32 0x3C23D70A 0x42C80000, .any⟩,
   ⟨927, 1, .en, 0x2, .nat 0 2, .base⟩,
   ⟨928, 1, .f32, 0x0, .f32 0x00000000 0x461C4000, .loop⟩,
   ⟨929, 1, .f32, 0x0, .f32 0x00000000 0x49742400, .loop⟩,
   ⟨930, 1, .f32, 0x3DCCCCCD, .f32 0x00000000 0x40A00000, .loop⟩,
   ⟨940, 1, .en, 0x0, .nat 0 1, .any⟩,
   ⟨941, 1, .f32, 0x41200000, .f32 0x3A83126F 0x461C4000, .any⟩,
   ⟨942, 2, .f32, 0x42480000, .f32 0x3A83126F 0x49742400, .any⟩,
   ⟨944, 1, .f32, 0x43FA0000, .f32 0x3C23D70A 0x4CBEBC20, .any⟩,
   ⟨945, 1, .f32, 0x43480000, .f32 0x3A83126F 0x49742400, .any⟩,
   ⟨946, 1, .en, 0x0, .nat 0 1, .any⟩,
   ⟨947, 1, .i64, 0x0, .any, .any⟩,
   ⟨948, 1, .f32, 0x0, .finite, .any⟩,
   ⟨949, 1, .u32, 0x64, .nat 0 2147483648, .any⟩,
   ⟨950, 1, .u16, 0x20, .nat 1 65535, .any⟩,
   ⟨960, 1, .en, 0x0, .nat 0 1, .loop⟩,
   ⟨961, 1, .f32, 0x3DCCCCCD, .f32 0x38D1B717 0x41200000, .loop⟩,
   ⟨962, 1, .u8, 0x1E, .nat 5 100, .loop⟩,
   ⟨963, 1, .u8, 0x50, .nat 10 100, .loop⟩,
   ⟨964, 1, .f32, 0x3C23D70A, .f32 0x38D1B717 0x3F800000, .loop⟩,
   ⟨965, 1, .u16, 0x14, .nat 1 1000, .loop⟩] ++
  [⟨966, 1, .i64, 0x0, .any, .loop⟩,
   ⟨967, 1, .u32, 0x3E8, .nat 0 2147483648, .loop⟩,
   ⟨968, 1, .f32, 0x41200000, .f32 0x3C23D70A 0x461C4000, .loop⟩,
   ⟨969, 1, .en, 0x0, .nat 0 2, .loop⟩,
   ⟨970, 1, .u8, 0x0, .nat 0 7, .loop⟩,
   ⟨971, 1, .u32, 0x20, .nat 1 2147483648, .loop⟩]

/-- Class 8, instances 0 to 15 (spec files 04). -/
def params8_0_16 : List ParamRow :=
  [⟨0, 1, .bo, 0x0, .nat 0 1, .base⟩,
   ⟨1, 1, .u8, 0x0, .nat 0 31, .base⟩,
   ⟨2, 1, .f32, 0x41200000, .f32 0x3C23D70A 0x42C80000, .base⟩,
   ⟨3, 2, .f32, 0x3F000000, .f32 0x3A83126F 0x42C80000, .any⟩,
   ⟨5, 1, .f32, 0x3F800000, .f32 0x3A83126F 0x447A0000, .any⟩,
   ⟨6, 1, .f32, 0x3E800000, .f32 0x3A83126F 0x42C80000, .any⟩,
   ⟨7, 1, .f32, 0x3F800000, .f32 0x3A83126F 0x42C80000, .any⟩,
   ⟨8, 1, .en, 0x0, .nat 0 1, .any⟩,
   ⟨9, 1, .f32, 0x0, .finite, .any⟩]

/-- Class 6, instances 0 to 63 (spec files 04). -/
def params6_0_64 : List ParamRow :=
  [⟨0, 1, .bo, 0x0, .nat 0 1, .any⟩,
   ⟨1, 2, .u8, 0x0, .nat 0 255, .base⟩,
   ⟨3, 2, .u8, 0xFF, .nat2 0 63 255 255, .base⟩,
   ⟨5, 1, .en, 0x0, .nat 0 1, .base⟩,
   ⟨6, 1, .f32, 0x3F000000, .f32 0x00000000 0x3F800000, .zone⟩,
   ⟨7, 1, .f32, 0x43480000, .perP 0x3F800000 0x3FB999999999999A, .zone⟩,
   ⟨8, 1, .u16, 0x0, .nat 0 256, .base⟩,
   ⟨9, 1, .u8, 0x0, .nat 0 7, .base⟩,
   ⟨10, 1, .f32, 0x3F800000, .finite, .zone⟩,
   ⟨11, 1, .f32, 0x0, .finite, .zone⟩,
   ⟨12, 1, .u16, 0x20, .nat 1 65535, .any⟩,
   ⟨13, 1, .en, 0x0, .nat 0 1, .any⟩,
   ⟨14, 1, .f32, 0x0, .f32 0x00000000 0x49742400, .any⟩,
   ⟨15, 1, .f32, 0x447A0000, .f32 0x3F800000 0x4B189680, .any⟩,
   ⟨20, 7, .f32, 0x0, .finite, .zone⟩,
   ⟨27, 2, .f32, 0x0, .f32 0xBF000000 0x3F000000, .zone⟩,
   ⟨29, 1, .en, 0x0, .nat 0 1, .zone⟩,
   ⟨30, 1, .f32, 0x3F800000, .f32 0x00000000 0x3F800000, .zone⟩,
   ⟨40, 1, .f32, 0x3F800000, .f32 0xC0000000 0x40000000, .zone⟩,
   ⟨41, 3, .f32, 0x0, .f32 0xC0000000 0x40000000, .zone⟩,
   ⟨50, 1, .f32, 0x0, .f32 0x00000000 0x49742400, .any⟩,
   ⟨51, 1, .u16, 0x140, .nat 1 65535, .any⟩,
   ⟨52, 1, .f32, 0x3F000000, .f32 0x00000000 0x42C80000, .any⟩]

/-- Class 9, instances 0 to 15 (spec files 05). -/
def params9_0_16 : List ParamRow :=
  [⟨0, 1, .u16, 0xFFFF, .nat2 0 255 65535 65535, .base⟩,
   ⟨1, 1, .u32, 0x7A120, .nat 1000 5000000, .base⟩,
   ⟨2, 1, .u8, 0x8, .nat 2 100, .base⟩,
   ⟨3, 2, .u16, 0xC8, .step 20 10000 10, .base⟩,
   ⟨5, 1, .bo, 0x0, .nat 0 1, .base⟩,
   ⟨6, 1, .en, 0x0, .nat 0 1, .base⟩,
   ⟨7, 1, .f32, 0x40000000, .f32 0x3DCCCCCD 0x41A00000, .base⟩,
   ⟨8, 1, .f32, 0x3F800000, .f32 0x00000000 0x41A00000, .any⟩,
   ⟨9, 1, .u8, 0x28, .nat 0 100, .any⟩,
   ⟨10, 1, .u16, 0x1F4, .nat 1 60000, .any⟩,
   ⟨11, 1, .u8, 0xFF, .nat2 0 7 255 255, .base⟩,
   ⟨12, 1, .f64, 0x3FF0000000000000, .f64 0x3EB0C6F7A0B5ED8D 0x412E848000000000, .loop⟩,
   ⟨13, 1, .u32, 0x40, .nat 1 2147483648, .any⟩,
   ⟨14, 1, .u16, 0x20, .nat 1 65535, .any⟩]

/-- Class 9, instances 0 to 7 (spec files 05). -/
def params9_0_8 : List ParamRow :=
  [⟨64, 1, .en, 0x0, .nat 0 2, .base⟩,
   ⟨65, 1, .u8, 0x2, .nat 0 7, .base⟩,
   ⟨66, 1, .bo, 0x0, .nat 0 1, .base⟩,
   ⟨67, 1, .u32, 0xF4240, .nat 100000 10000000, .base⟩,
   ⟨68, 1, .u8, 0x19, .nat 8 32, .base⟩,
   ⟨69, 1, .en, 0x0, .nat 0 1, .base⟩,
   ⟨70, 1, .u16, 0x0, .step 0 1000 10, .base⟩,
   ⟨71, 1, .u32, 0x10000, .nat 1 2147483648, .any⟩,
   ⟨72, 1, .en, 0x0, .nat 0 2, .base⟩]

/-- Class 2, instances 0 to 0 (spec files 06, 07, 09). -/
def params2_0_1 : List ParamRow :=
  [⟨0, 1, .en, 0x1, .nat 0 1, .base⟩,
   ⟨1, 1, .u16, 0x88B5, .nat 1536 65535, .base⟩,
   ⟨2, 1, .u16, 0x4D59, .nat 0 65535, .base⟩,
   ⟨3, 1, .u16, 0x80, .step 64 512 8, .base⟩,
   ⟨4, 1, .u32, 0x0, .any, .base⟩,
   ⟨5, 1, .u32, 0x8CA, .quarter 500, .base⟩,
   ⟨16, 1, .u8, 0x0, .nat 0 7, .base⟩,
   ⟨17, 1, .u8, 0x0, .nat 0 31, .base⟩,
   ⟨18, 1, .u16, 0x20, .nat 3 320, .base⟩,
   ⟨19, 1, .u16, 0x32, .nat 1 10000, .base⟩,
   ⟨6, 1, .u32, 0x0, .any, .base⟩]

/-- Class 3, instances 0 to 7 (spec files 06, 07). -/
def params3_0_8 : List ParamRow :=
  [⟨0, 1, .bo, 0x0, .nat 0 1, .base⟩,
   ⟨1, 1, .u8, 0x0, .nat 0 32, .base⟩,
   ⟨2, 1, .u16, 0x0, .step 0 256 2, .base⟩,
   ⟨3, 1, .u8, 0x20, .nat 0 32, .base⟩,
   ⟨32, 32, .u8, 0x0, .nat 0 31, .base⟩,
   ⟨64, 1, .u16, 0x12C, .nat 1 1000, .base⟩]

/-- Class 4, instances 0 to 127 (spec files 06, 07). -/
def params4_0_128 : List ParamRow :=
  [⟨0, 1, .u16, 0x0, .nat 0 255, .base⟩,
   ⟨1, 1, .u16, 0x12C, .nat 1 1000, .base⟩,
   ⟨2, 1, .u16, 0x44C, .nat 100 10000, .base⟩,
   ⟨3, 1, .u16, 0x276, .nat 0 5000, .base⟩,
   ⟨4, 1, .u16, 0x1F4, .nat 0 10000, .base⟩,
   ⟨5, 1, .u8, 0x0, .nat 0 8, .base⟩,
   ⟨6, 1, .u8, 0x0, .step 0 64 2, .base⟩,
   ⟨7, 1, .u16, 0x12C, .nat 64 1518, .base⟩,
   ⟨8, 1, .f32, 0x3CCCCCCD, .f32 0x3A83126F 0x3F800000, .base⟩,
   ⟨9, 1, .u16, 0x20, .nat 3 320, .base⟩,
   ⟨10, 1, .u16, 0x64, .nat 1 60000, .base⟩,
   ⟨11, 1, .bo, 0x0, .nat 0 1, .base⟩]

/-- Class 14, instances 0 to 0 (spec files 09). -/
def params14_0_1 : List ParamRow :=
  [⟨0, 1, .bo, 0x0, .nat 0 1, .base⟩,
   ⟨1, 2, .u64, 0x0, .any, .base⟩,
   ⟨3, 1, .u16, 0x20, .nat 8 256, .base⟩,
   ⟨4, 1, .u8, 0x4, .nat 2 64, .any⟩,
   ⟨5, 1, .bo, 0x1, .nat 0 1, .any⟩]

/-- Class 11, instances 0 to 0 (spec files 10). -/
def params11_0_1 : List ParamRow :=
  [⟨0, 1, .u16, 0x1E, .nat 1 600, .safe⟩,
   ⟨1, 1, .u16, 0x64, .nat 10 1000, .safe⟩,
   ⟨2, 1, .u16, 0x12C, .step 200 1000 50, .safe⟩,
   ⟨3, 1, .u16, 0x12C, .step 100 400 50, .safe⟩]

/-- Class 11, instances 8 to 15 (spec files 10). -/
def params11_8_8 : List ParamRow :=
  [⟨0, 1, .en, 0x0, .nat 0 1, .safe⟩,
   ⟨1, 1, .u8, 0x6, .nat 1 20, .safe⟩,
   ⟨2, 1, .u16, 0x14, .nat 1 1000, .safe⟩,
   ⟨3, 1, .bo, 0x1, .nat 0 1, .safe⟩,
   ⟨4, 1, .u8, 0x0, .nat 0 1, .safe⟩]

/-- Class 11, instances 32 to 63 (spec files 10). -/
def params11_32_32 : List ParamRow :=
  [⟨0, 1, .u8, 0x0, .any, .safe⟩,
   ⟨1, 1, .en, 0x0, .nat 0 2, .safe⟩,
   ⟨2, 1, .u64, 0x0, .any, .safe⟩,
   ⟨3, 2, .u8, 0x0, .nat 0 15, .safe⟩,
   ⟨5, 1, .u32, 0x0, .any, .safe⟩,
   ⟨6, 1, .u32, 0x3E8, .nat 10 600000, .safe⟩,
   ⟨7, 1, .u32, 0x1F4, .nat 0 60000, .safe⟩,
   ⟨8, 1, .f32, 0x3E4CCCCD, .f32 0x3A83126F 0x42C80000, .safe⟩,
   ⟨9, 1, .f32, 0x3E99999A, .f32 0x00000000 0x41200000, .safe⟩,
   ⟨10, 1, .f32, 0x3D4CCCCD, .f32 0x3A83126F 0x3F800000, .safe⟩,
   ⟨11, 1, .u32, 0xEA60, .nat 100 600000, .safe⟩,
   ⟨12, 1, .u8, 0xFF, .nat2 0 7 254 255, .safe⟩,
   ⟨13, 1, .f32, 0x3F000000, .f32 0x3C23D70A 0x42C80000, .safe⟩,
   ⟨14, 1, .u8, 0x3, .nat 1 100, .safe⟩,
   ⟨15, 1, .en, 0x1, .nat 0 1, .safe⟩,
   ⟨16, 1, .f32, 0x0, .f32z 0x3C23D70A 0x42C80000, .safe⟩,
   ⟨17, 1, .f32, 0x3E4CCCCD, .f32 0x3A83126F 0x42C80000, .safe⟩,
   ⟨18, 1, .u16, 0x0, .nat 0 1000, .safe⟩,
   ⟨19, 1, .en, 0x0, .nat 0 1, .safe⟩,
   ⟨20, 1, .u8, 0x0, .nat 0 7, .safe⟩]

/-- Class 11, instances 64 to 127 (spec files 10, 11). -/
def params11_64_64 : List ParamRow :=
  [⟨16, 2, .f32, 0x3F800000, .f32 0x38D1B717 0x41A00000, .safe⟩,
   ⟨0, 1, .bo, 0x0, .nat 0 1, .safe⟩,
   ⟨1, 1, .u32, 0x1, .nat 1 0xFFFFFFFE, .safe⟩,
   ⟨2, 1, .u16, 0x0, .nat 0 255, .safe⟩,
   ⟨3, 1, .u16, 0x14, .nat 2 1000, .safe⟩,
   ⟨4, 1, .u8, 0xC, .nat 4 32, .safe⟩,
   ⟨5, 1, .u8, 0x2, .nat 0 2, .safe⟩,
   ⟨6, 2, .en, 0x0, .nat 0 1, .safe⟩]

/-- Class 10, instances 0 to 31 (spec files 12). -/
def params10_0_32 : List ParamRow :=
  [⟨0, 1, .en, 0x0, .nat 0 1, .fioq⟩,
   ⟨1, 1, .u16, 0x3E8, .nat 1 65535, .any⟩,
   ⟨2, 1, .en, 0x0, .nat 0 2, .any⟩,
   ⟨3, 1, .en, 0x0, .nat 0 1, .any⟩,
   ⟨4, 1, .bo, 0x1, .nat 0 1, .any⟩,
   ⟨5, 1, .u8, 0xFF, .nat2 0 31 255 255, .base⟩,
   ⟨6, 1, .f32, 0x0, .f32 0x00000000 0x42C80000, .base⟩,
   ⟨7, 1, .f32, 0x3F000000, .f32 0x00000000 0x3F000000, .base⟩,
   ⟨8, 1, .u16, 0x1, .nat 1 1000, .base⟩]

/-- Class 10, instances 0 to 0 (spec files 12). -/
def params10_0_1 : List ParamRow :=
  [⟨64, 1, .u16, 0x14, .nat 1 1000, .base⟩,
   ⟨65, 1, .en, 0x0, .nat 0 1, .any⟩]

/-- Class 12, instances 0 to 0 (spec files 13). -/
def params12_0_1 : List ParamRow :=
  [⟨0, 1, .en, 0x0, .nat 0 2, .capt⟩,
   ⟨1, 1, .u16, 0x1, .nat 1 65535, .capt⟩,
   ⟨2, 1, .u8, 0x8, .nat 1 64, .capt⟩,
   ⟨3, 1, .u32, 0x400, .nat 16 65536, .capt⟩,
   ⟨4, 1, .u8, 0xA, .nat 0 100, .capt⟩,
   ⟨5, 1, .u32, 0x10, .nat 1 65536, .capt⟩,
   ⟨6, 2, .en, 0x0, .nat 0 1, .capt⟩,
   ⟨8, 1, .u16, 0x0, .nat 0 1024, .base⟩,
   ⟨9, 1, .en, 0x0, .nat 0 6, .capt⟩,
   ⟨10, 1, .en, 0x0, .nat 0 1, .capt⟩,
   ⟨11, 1, .u32, 0x186A0, .nat 1 10000000, .capt⟩,
   ⟨12, 1, .u8, 0x0, .nat 0 63, .capt⟩,
   ⟨13, 1, .en, 0x0, .nat 0 2, .capt⟩,
   ⟨14, 1, .f64, 0x0, .finite, .capt⟩,
   ⟨15, 1, .f64, 0x0, .nonneg, .capt⟩,
   ⟨16, 1, .u16, 0x0, .any, .capt⟩,
   ⟨17, 1, .u16, 0xFFFF, .any, .capt⟩,
   ⟨18, 1, .u8, 0x0, .nat 0 31, .capt⟩,
   ⟨19, 1, .u8, 0x0, .nat 0 8, .capt⟩,
   ⟨20, 1, .en, 0x0, .nat 0 1, .capt⟩,
   ⟨21, 1, .u16, 0xE, .nat 0 1510, .capt⟩,
   ⟨22, 2, .u64, 0x0, .any, .capt⟩,
   ⟨24, 1, .bo, 0x1, .nat 0 1, .capt⟩,
   ⟨25, 1, .bo, 0x0, .nat 0 1, .capt⟩,
   ⟨64, 64, .u8, 0x1, .sig, .capt⟩,
   ⟨128, 64, .u16, 0x0, .any, .capt⟩,
   ⟨192, 64, .bo, 0x0, .nat 0 1, .capt⟩,
   ⟨256, 64, .u16, 0x2, .nat 2 4096, .capt⟩,
   ⟨320, 64, .u16, 0x1, .nat 1 65535, .capt⟩,
   ⟨384, 64, .u16, 0x0, .nat 0 65535, .capt⟩]

/-- Class 13, instances 0 to 0 (spec files 14). -/
def params13_0_1 : List ParamRow :=
  [⟨0, 10, .u32, 0x3E8, .nat 1 1000000, .any⟩,
   ⟨16, 8, .en, 0x2, .nat 0 2, .any⟩]

/-- Class 0, instances 0 to 0 (spec files 15). -/
def params0_0_1 : List ParamRow :=
  [⟨16, 1, .bo, 0x1, .nat 0 1, .base⟩,
   ⟨17, 1, .u16, 0x14, .nat 1 1000, .any⟩,
   ⟨18, 1, .u32, 0x186A0, .nat 200 10000000, .any⟩,
   ⟨19, 1, .u8, 0x1, .nat 1 64, .any⟩]

/-- Class 16, instances 0 to 0 (spec files 16). -/
def params16_0_1 : List ParamRow :=
  [⟨0, 1, .u16, 0x0, .any, .ro⟩,
   ⟨1, 1, .u8, 0xFF, .any, .ro⟩,
   ⟨2, 1, .u64, 0x0, .any, .ro⟩,
   ⟨16, 16, .u32, 0x0, .any, .ro⟩,
   ⟨32, 16, .en, 0x0, .any, .ro⟩]

/-- Class 15, instances 0 to 0 (spec files 17). -/
def params15_0_1 : List ParamRow :=
  [⟨0, 1, .u16, 0x1F4, .nat 100 50000, .any⟩,
   ⟨1, 1, .u32, 0x3A98, .nat 0 1000000, .base⟩,
   ⟨2, 1, .f32, 0x0, .f32 0x00000000 0x42C80000, .base⟩]

/-- Class 7, read-only copies of the cam table headers (R122): the values are the installed table's. -/
def params7_0_64 : List ParamRow :=
  [⟨0, 1, .u32, 0x0, .any, .ro⟩,
   ⟨1, 1, .en, 0x0, .any, .ro⟩,
   ⟨2, 2, .f64, 0x0, .any, .ro⟩]

/-- The instance spaces: class, first instance, instances, rows. -/
def paramSpaces : List (Nat × Nat × Nat × List ParamRow) :=
  [(0, 0, 1, params0_0_1), (1, 0, 1, params1_0_1), (2, 0, 1, params2_0_1), (3, 0, 8, params3_0_8),
   (4, 0, 128, params4_0_128), (5, 0, 256, params5_0_256), (6, 0, 64, params6_0_64), (7, 0, 64, params7_0_64),
   (8, 0, 16, params8_0_16), (9, 0, 16, params9_0_16), (9, 0, 8, params9_0_8), (10, 0, 32, params10_0_32),
   (10, 0, 1, params10_0_1)] ++
  [(11, 0, 1, params11_0_1), (11, 8, 8, params11_8_8), (11, 32, 32, params11_32_32), (11, 64, 64, params11_64_64),
   (12, 0, 1, params12_0_1), (13, 0, 1, params13_0_1), (14, 0, 1, params14_0_1), (15, 0, 1, params15_0_1),
   (16, 0, 1, params16_0_1)]

/-- The row that holds an item. -/
def rowFind (item : Nat) : List ParamRow → Option ParamRow
  | [] => none
  | r :: rs => if r.item ≤ item ∧ item < r.item + r.n then some r else rowFind item rs

def spaceFind (c i n : Nat) : List (Nat × Nat × Nat × List ParamRow) → Option ParamRow
  | [] => none
  | (c', b, k, rows) :: rest =>
    if c = c' ∧ b ≤ i ∧ i < b + k then
      match rowFind n rows with
      | some r => some r
      | none => spaceFind c i n rest
    else spaceFind c i n rest

/-- The parameter c.i.n, or none where the key names no parameter (R404). -/
def paramRow (c i n : Nat) : Option ParamRow := spaceFind c i n paramSpaces

/-- Key of c.i.n (R403). -/
def pkey (c i n : Nat) : Nat := c * 2 ^ 18 + i * 2 ^ 10 + n

def keyClass (k : Nat) : Nat := k / 2 ^ 18
def keyInst (k : Nat) : Nat := k / 2 ^ 10 % 2 ^ 8
def keyItem (k : Nat) : Nat := k % 2 ^ 10

/-- Values by key. -/
abbrev PLook := Nat → W64

/-- The default of c.i.n. The two defaults that depend on the instance or another parameter are BRANCH.MS_OWN_m
(m mod BRANCH.NODES) and SIN.TPSRC (n mod 2). nodes is the branch's BRANCH.NODES. -/
def paramDefault (nodes c i n : Nat) : W64 :=
  if c = 3 ∧ 32 ≤ n ∧ n < 64 then BitVec.ofNat 64 ((n - 32) % nodes)
  else if c = 11 ∧ 8 ≤ i ∧ i < 16 ∧ n = 4 then BitVec.ofNat 64 ((i - 8) % 2)
  else match paramRow c i n with
    | some r => r.dflt
    | none => 0

/-- The value of c.i.n in a table of values that lists no key at its default. -/
def paramIn (t : Tbl W64) (c i n : Nat) : W64 :=
  tget (paramDefault (tget 0 t (pkey 3 i 1)).toNat c i n) t (pkey c i n)

/-- A value slot that holds a value of the type, unused bytes zero or sign-extended (R386). -/
def slotFits (ty : PTy) (v : W64) : Bool :=
  match ty with
  | .u8 => v.toNat < 2 ^ 8
  | .u16 => v.toNat < 2 ^ 16
  | .u32 | .f32 | .en => v.toNat < 2 ^ 32
  | .bo => v.toNat < 2 ^ 32
  | .u64 | .i64 | .f64 => true

/-- Order of two binary32 values by their bits. -/
def f32le (a b : W32) : Bool := fle (fWiden ⟨a⟩) (fWiden ⟨b⟩)

/-- The codes of R337. -/
def capSignals : List Nat :=
  [0x01, 0x02, 0x03, 0x04, 0x05, 0x06, 0x07, 0x08, 0x09, 0x0A, 0x0B, 0x0C, 0x0D, 0x0E, 0x0F, 0x10, 0x20, 0x21, 0x22,
   0x30, 0x31, 0x32, 0x40, 0x41, 0x42, 0x43, 0x44]

/-- A value against its own range (R492); L gives the values that would be in force. -/
def inRange (L : PLook) (ty : PTy) (rng : Rng) (v : W64) : Bool :=
  let w : W32 := v.setWidth 32
  let x := if ty = .f32 then fWiden ⟨w⟩ else (⟨v⟩ : F64)
  let p := (L (pkey 1 0 0)).toNat
  match rng with
  | .any => true
  | .nat lo hi => lo ≤ v.toNat && v.toNat ≤ hi
  | .nat2 lo hi a b => (lo ≤ v.toNat && v.toNat ≤ hi) || v.toNat = a || v.toNat = b
  | .step lo hi st => lo ≤ v.toNat && v.toNat ≤ hi && (v.toNat - lo) % st = 0
  | .quarter lo => lo ≤ v.toNat && 4 * v.toNat ≤ p
  | .f32 lo hi => f32le lo w && f32le w hi
  | .f32z lo hi => feq x F64.zero || (f32le lo w && f32le w hi)
  | .f64 lo hi => fle ⟨lo⟩ x && fle x ⟨hi⟩
  | .finite => fFinite x
  | .nonneg => fFinite x && fle F64.zero x
  | .draw => fFinite x && fle (fneg (fOfNat 10)) x && fle x (fOfNat 10) && !feq x F64.zero
  | .perP lo num => f32le lo w && f32le w (fNarrow (fdiv ⟨num⟩ (periodSec p))).bits
  | .sig => capSignals.contains v.toNat

/-- The exact value of a stored binary32 coefficient. -/
def coefDy (L : PLook) (c i n : Nat) : Dyadic := f32Dy ⟨(L (pkey c i n)).setWidth 32⟩

/-- R46: z³ + a1·z² + a2·z + a3 has no root of modulus above 1, and of modulus 1 at most a single root at z = 1. The
criterion of Jury, in exact arithmetic. -/
def denomOk (a1 a2 a3 : Dyadic) : Bool :=
  let one := Dy.ofInt 1
  let zero := Dy.ofInt 0
  let p1 := Dy.add one (Dy.add a1 (Dy.add a2 a3))
  if Dy.le p1 zero && Dy.le zero p1 then
    let b := Dy.add one a1
    let c := Dy.neg a3
    Dy.lt c one && Dy.lt (Dy.neg one) c && Dy.lt zero (Dy.add one (Dy.add b c)) && Dy.lt zero (Dy.add (Dy.sub one b) c)
  else
    let m1 := Dy.sub (Dy.add (Dy.sub one a1) a2) a3
    let d := Dy.sub one (Dy.mul a3 a3)
    let e := Dy.sub (Dy.mul a3 a1) a2
    Dy.lt zero p1 && Dy.lt zero m1 && Dy.lt zero d && Dy.lt e d && Dy.lt (Dy.neg d) e

def denomAt (L : PLook) (c i n : Nat) : Bool := denomOk (coefDy L c i n) (coefDy L c i (n + 1)) (coefDy L c i (n + 2))

/-- Order of two binary32 parameters. -/
def parLe (L : PLook) (c i m n : Nat) : Bool := f32le ((L (pkey c i m)).setWidth 32) ((L (pkey c i n)).setWidth 32)
/-- |m| at or below n. -/
def parWithin (L : PLook) (c i m n : Nat) : Bool :=
  fle (fabs (fWiden ⟨(L (pkey c i m)).setWidth 32⟩)) (fWiden ⟨(L (pkey c i n)).setWidth 32⟩)
def parLt (L : PLook) (c i m n : Nat) : Bool :=
  flt (fWiden ⟨(L (pkey c i m)).setWidth 32⟩) (fWiden ⟨(L (pkey c i n)).setWidth 32⟩)

/-- CUR.FWX strictly increasing (R65). -/
def fwxOk (L : PLook) (i : Nat) : Nat → Bool
  | 0 => true
  | k + 1 => parLt L 5 i (520 + k) (521 + k) && fwxOk L i k

/-- R82. -/
def freezeOk (L : PLook) (i : Nat) : Bool :=
  let v := fWiden ⟨(L (pkey 5 i 802)).setWidth 32⟩
  let x := fmul (fmul (fmul v (fOfNat (L (pkey 5 i 803)).toNat)) (periodSec (L (pkey 1 0 0)).toNat)) (fOfNat (L (pkey 5 i 64)).toNat)
  !flt (fdiv x f64twoPi) f64two

/-- HOME.SRC for an axis of this type (R150): 0 for SERVO-C and SERVO-V, 1 and 2 for STEP. -/
def homeSrcOk (ty src : Nat) : Bool := if src = 0 then ty == 1 || ty == 2 else ty == 4

/-- The conditions between parameters that item n of c.i takes part in (R492): R46, UMIN ≤ UMAX, R82, R65, R112, R119,
R120, R137, R150, R188. HOME.SRC is judged where a value for it is given: its default 0 suits no STEP or SERVO-P axis, and such an axis
needs none (log 19). -/
def dependOk (L : PLook) (c i n : Nat) : Bool :=
  if c = 1 ∧ n = 9 then 2 * (L (pkey 1 0 9)).toNat < (L (pkey 1 0 0)).toNat
  else if c = 5 then
    (if n = 110 ∨ n = 111 then parLe L 5 i 110 111 else true) &&
    (if n = 210 ∨ n = 211 then parLe L 5 i 210 211 else true) &&
    (if 107 ≤ n ∧ n ≤ 109 then denomAt L 5 i 107 else true) &&
    (if 207 ≤ n ∧ n ≤ 209 then denomAt L 5 i 207 else true) &&
    (if n = 64 ∨ n = 802 ∨ n = 803 then freezeOk L i else true) &&
    (if 520 ≤ n ∧ n ≤ 535 then fwxOk L i 15 else true) &&
    (if n = 921 ∨ n = 922 ∨ n = 923 then parLe L 5 i 922 921 && parLe L 5 i 921 923 && parLt L 5 i 922 923 else true) &&
    (if n = 941 ∨ n = 948 then parWithin L 5 i 948 941 else true) &&
    (if n = 969 then homeSrcOk (L (pkey 5 i 0)).toNat (L (pkey 5 i 969)).toNat else true)
  else if c = 6 then
    (if n = 27 ∨ n = 28 then parLe L 6 i 27 28 else true) && (if 24 ≤ n ∧ n ≤ 26 then denomAt L 6 i 24 else true)
  else if c = 8 then (if n = 2 ∨ n = 9 then parWithin L 8 i 9 2 else true)
  else if c = 9 then
    (if n = 7 ∨ n = 8 then parLe L 9 i 8 7 else true) &&
    (if n = 1 ∨ n = 2 then decide ((L (pkey 9 i 2)).toNat + 2 ≤ 100000000 / (L (pkey 9 i 1)).toNat) else true)
  else if c = 3 ∧ 32 ≤ n ∧ n < 64 then decide ((L (pkey 3 i n)).toNat < (L (pkey 3 i 1)).toNat)
  else if c = 11 ∧ 64 ≤ i ∧ (n = 4 ∨ n = 5) then 4 + 4 * (L (pkey 11 i 5)).toNat ≤ (L (pkey 11 i 4)).toNat
  else true

/-- A value for c.i.n judged whole: the slot, its range, the conditions it takes part in. -/
def valueOk (L : PLook) (r : ParamRow) (c i n : Nat) (v : W64) : Bool :=
  slotFits r.ty v && inRange L r.ty r.rng v && dependOk L c i n

/-! ## The parameters of a state -/

/-- The value in force of c.i.n; the cam copies of class 7 are the installed table's header. -/
def State.par (s : State) (c i n : Nat) : W64 :=
  if c = 7 then
    let t := tget {} s.cams i
    if n = 0 then BitVec.ofNat 64 t.npts
    else if n = 1 then (if t.cyclic then 1 else 0)
    else if n = 2 then t.xcyc.bits
    else t.yrise.bits
  else if c = 11 then paramIn s.saf.params c i n
  else paramIn s.params c i n

/-- The parameters of instance i of class c, by item. -/
def State.P (s : State) (c i : Nat) : Par := s.par c i

/-- A parameter as a natural number. -/
def State.pn (s : State) (c i n : Nat) : Nat := (s.par c i n).toNat

/-- The values in force, by key. -/
def State.look (s : State) : PLook := fun k => s.par (keyClass k) (keyInst k) (keyItem k)

/-- A table of values with c.i.n at v, no key listed at its default. -/
def paramSetIn (t : Tbl W64) (c i n : Nat) (v : W64) : Tbl W64 :=
  tset (paramDefault (tget 0 t (pkey 3 i 1)).toNat c i n) (pkey c i n) v t

/-- The state with parameter c.i.n at v. -/
def State.setPar (s : State) (c i n : Nat) (v : W64) : State := { s with params := paramSetIn s.params c i n v }

end Sys2Proof.Machine
end

