-- ==== Sys2Proof/Machine/Ops.lean ====
section
/-! DEFINITION. The shared operations: device time and CK_CORE cycles, performance counters, interrupts, raising an event,
the fault log, capture triggers, mailbox buffers. Device times are in units of 0.2 ns. -/

namespace Sys2Proof.Machine

/-! ## Units of device time -/

/-- Nanoseconds in units of device time. -/
def nsT (n : Nat) : Nat := 5 * n
def usT (n : Nat) : Nat := 5000 * n
def msT (n : Nat) : Nat := 5000000 * n
/-- The integer part of a device time in ns (R25). -/
def toNs (t : Nat) : Nat := t / 5

/-- One CK_NET cycle of 3.2 ns, one CK_FIELD cycle of 10 ns. -/
def netCycle : Nat := 16
def fieldCycle : Nat := 50

/-- t_B: one byte time at the link rate (R153): 3.2 ns at 2.5 Gbit/s, 8 ns at 1.0 Gbit/s. -/
def State.tB (s : State) : Nat := if s.pn 2 0 0 = 1 then 16 else 40

/-- The frame period in units of device time. -/
def State.per (s : State) : Nat := nsT s.frm.period

/-- S = T0 + FRAME.S_OFS (R13). -/
def State.instS (s : State) : Nat := s.frm.t0 + nsT (s.pn 1 0 1)
/-- A = S + P/2 (R13). -/
def State.instA (s : State) : Nat := s.instS + s.per / 2
/-- The reverse orientation (R238): the head is the far part, or the node obeys a head on its far side. -/
def State.rev (s : State) : Bool := if s.frm.role = .node then s.net.orient == some false else s.red.far
/-- U0 = S + NET.U0_OFS, or U0_R = S + NET.U0R_OFS in the reverse orientation (R164, R238). -/
def State.instU0 (s : State) : Nat := s.instS + nsT (s.pn 2 0 (if s.rev then 6 else 4))
/-- T0 of the next frame. -/
def State.nextT0 (s : State) : Nat := s.frm.t0 + s.per
/-- The sample instant of the next frame. -/
def State.nextS (s : State) : Nat := s.nextT0 + nsT (s.pn 1 0 1)

/-- Part of the machine: the head, with its tick running. -/
def State.isHead (s : State) : Bool := s.frm.role == .head && s.frm.run

/-! ## Axes, zones and their parameters -/

def State.axis (s : State) (i : Nat) : Axis := tget {} s.axes i
def State.setAxis (s : State) (i : Nat) (a : Axis) : State := { s with axes := tset {} i a s.axes }
def State.zone (s : State) (z : Nat) : Zone := tget {} s.zones z
def State.setZone (s : State) (z : Nat) (a : Zone) : State := { s with zones := tset {} z a s.zones }
def State.line (s : State) (l : Nat) : Line := tget {} s.lines l
def State.setLine (s : State) (l : Nat) (a : Line) : State := { s with lines := tset {} l a s.lines }
def State.cam (s : State) (c : Nat) : CamTable := tget {} s.cams c
def State.step_ (s : State) (c : Nat) : StepCh := tget {} s.steps c
def State.setStep (s : State) (c : Nat) (a : StepCh) : State := { s with steps := tset {} c a s.steps }
def State.enc (s : State) (e : Nat) : Enc := tget {} s.encs e
def State.setEnc (s : State) (e : Nat) (a : Enc) : State := { s with encs := tset {} e a s.encs }
def State.port (s : State) (b : Nat) : Port := tget {} s.net.ports b
def State.setPort (s : State) (b : Nat) (p : Port) : State := { s with net := { s.net with ports := tset {} b p s.net.ports } }
def State.branch (s : State) (b : Nat) : Branch := tget {} s.net.br b
def State.setBranch (s : State) (b : Nat) (x : Branch) : State := { s with net := { s.net with br := tset {} b x s.net.br } }
def nodeKey (b p : Nat) : Nat := b * 32 + p
def State.node (s : State) (b p : Nat) : Node := tget {} s.net.nodes (nodeKey b p)
def State.setNode (s : State) (b p : Nat) (n : Node) : State :=
  { s with net := { s.net with nodes := tset {} (nodeKey b p) n s.net.nodes } }
def State.join (s : State) (b : Nat) : Join := tget {} s.net.joins b
def State.setJoin (s : State) (b : Nat) (j : Join) : State := { s with net := { s.net with joins := tset {} b j s.net.joins } }
def State.fch (s : State) (c : Nat) : FioCh := tget {} s.fio.ch c
def State.setFch (s : State) (c : Nat) (x : FioCh) : State := { s with fio := { s.fio with ch := tset {} c x s.fio.ch } }
def State.die (s : State) (d : Nat) : FioDie := tget {} s.fio.dies d
def State.setDie (s : State) (d : Nat) (x : FioDie) : State := { s with fio := { s.fio with dies := tset {} d x s.fio.dies } }
def State.task (s : State) (d : Nat) : Task := tget {} s.dsp.tasks d
def State.setTask (s : State) (d : Nat) (x : Task) : State := { s with dsp := { s.dsp with tasks := tset {} d x s.dsp.tasks } }
def State.conn (s : State) (c : Nat) : Conn := tget {} s.saf.conns c
def State.setConn (s : State) (c : Nat) (x : Conn) : State := { s with saf := { s.saf with conns := tset {} c x s.saf.conns } }
def State.sgrp (s : State) (g : Nat) : SGroup := tget {} s.saf.groups g
def State.setSgrp (s : State) (g : Nat) (x : SGroup) : State := { s with saf := { s.saf with groups := tset {} g x s.saf.groups } }
def State.sout (s : State) (o : Nat) : SOut := tget {} s.saf.outs o
def State.setSout (s : State) (o : Nat) (x : SOut) : State := { s with saf := { s.saf with outs := tset {} o x s.saf.outs } }
def State.spair (s : State) (p : Nat) : SinPair := tget {} s.saf.pairs p
def State.setSpair (s : State) (p : Nat) (x : SinPair) : State := { s with saf := { s.saf with pairs := tset {} p x s.saf.pairs } }

/-- AX.TYPE of an axis. -/
def State.axType (s : State) (i : Nat) : Nat := s.pn 5 i 0
/-- AX.GROUP of an axis. -/
def State.axGroup (s : State) (i : Nat) : Nat := s.pn 5 i 3
/-- AX.NODE of an axis: branch, position; 0x100 is the local node. -/
def State.axNode (s : State) (i : Nat) : Nat := s.pn 5 i 1
/-- An axis of the local node (R105). -/
def State.isLn (s : State) (i : Nat) : Bool := s.axNode i == 256
/-- The branch of a branch axis. -/
def State.axBranch (s : State) (i : Nat) : Nat := s.axNode i / 32 % 8
def State.axPos (s : State) (i : Nat) : Nat := s.axNode i % 32
/-- A zone that is defined (R105). -/
def State.zoneDef (s : State) (z : Nat) : Bool := s.pn 6 z 1 != s.pn 6 z 2

/-- The axes of the configuration, ascending. -/
def State.axisIds (s : State) : List Nat := (List.range 256).filter fun i => s.axType i != 0
/-- The zones of the configuration, ascending. -/
def State.zoneIds (s : State) : List Nat := (List.range 64).filter fun z => s.zoneDef z

/-- The derating of an axis's group is in force (R85). -/
def State.derated (s : State) (i : Nat) : Bool := bitOf s.evt.derate.toNat (s.axGroup i)

/-- Change every listed axis. -/
def State.mapAxes (s : State) (f : Nat → Axis → Axis) (l : List Nat) : State :=
  l.foldl (fun s i => s.setAxis i (f i (s.axis i))) s

/-! ## Interrupts (R397, R398) -/

/-- Vector of source k (R398). -/
def vecOf (ivec : W32) (k : Nat) : Nat := bitsOf ivec.toNat (3 * k) 3

/-- The OR, over the sources routed to vector v, of ISTAT AND IMASK. -/
def vecLevel (e : Evt) (istat : Byte) (v : Nat) : Bool :=
  (List.range 8).any fun k => vecOf e.ivec k == v && bitOf istat.toNat k && bitOf e.imask.toNat k

/-- The interrupt status becomes ist, the sources in re having fallen and risen (R398): each vector whose level rises sends
one message in PCIe mode. The result also tells how many messages or IRQ_N assertions that was. -/
def Evt.withStat (e : Evt) (pcie : Bool) (ist re : Byte) : Evt × Nat :=
  let low := ist &&& ~~~re
  if pcie then
    (List.range 8).foldl (fun (x : Evt × Nat) v =>
      if vecLevel e ist v && !(vecLevel e e.istat v && vecLevel e (e.istat &&& low) v) then
        ({ x.1 with msgs := tmod 0 v (· + 1) x.1.msgs }, x.2 + 1)
      else x) ({ e with istat := ist }, 0)
  else
    ({ e with istat := ist },
      if (ist &&& e.imask) != 0 && (e.istat &&& e.imask) == 0 then 1 else 0)

/-! ## Performance counters (R358 to R365) -/

/-- Add occurrences of pulse event c, to arrive lat CK_CORE cycles on (R361). -/
def State.pulseN (s : State) (c lat n : Nat) : State :=
  { s with prf := { s.prf with pulses := s.prf.pulses ++ List.replicate n (c, s.prf.cyc + lat) } }

/-- One occurrence within CK_CORE, and one in another domain. -/
def State.pulse (s : State) (c : Nat) : State := s.pulseN c 1 1
def State.pulseX (s : State) (c : Nat) : State := s.pulseN c 3 1

/-- Set interrupt source k (R397). -/
def State.irq (s : State) (k : Nat) : State :=
  let ist := s.evt.istat ||| BitVec.ofNat 8 (2 ^ k)
  let (e, n) := s.evt.withStat s.host.hostsel ist 0
  { s with evt := e }.pulseN 0x4C 3 n

/-- FRM_STAT.ROLE changes: source ROLE (R397). -/
def State.setRole (s : State) (r : Role) : State :=
  if s.frm.role = r then s else { s with frm := { s.frm with role := r } }.irq 7

/-- Event codes of kind O (R360), and the DRAM and SRAM pulses whose occurrences no rule gives (log 24). -/
def prfOccCode (c : Nat) : Bool :=
  c ≤ 4 || c == 0x40 || c == 0x41 || c == 0x44 || c == 0x45 || c == 8 || c == 9 || c == 0x0F || (0x10 ≤ c && c < 0x20 && (c % 4 == 0 || c % 4 == 3)) ||
  (0x30 ≤ c && c < 0x40) || c == 0x42 || c == 0x43 || c == 0x46 || c == 0x47 || c == 0x4A || c == 0x5E || c == 0x5F

/-- Staging fill in KiB rounded up. -/
def kib (n : Nat) : Nat := (n + 1023) / 1024

/-- Ready threads of levels 2 to 7 on FPn. -/
def State.readyThreads (s : State) (n : Nat) : Nat :=
  ((List.range 8).map fun l => if 2 ≤ l then (tget [] s.dsp.ready (8 + 8 * n + l)).length else 0).sum

/-- The present value of an occupancy event (R360); those no state determines are free values (log 24). -/
def State.occ (s : State) (c : Nat) : Nat :=
  if c = 1 then ((List.range 8).filter fun k => tget 0 s.dsp.lanes k != 0).length
  else if c = 2 then (tget [] s.dsp.ready 0).length
  else if c = 3 then (tget [] s.dsp.ready 1).length
  else if c = 4 then s.dsp.delays.length
  else if c = 0x0F then b2n s.dsp.gate
  else if 0x10 ≤ c ∧ c < 0x20 then
    (if c % 4 = 0 then b2n (tget 0 s.dsp.running ((c - 0x10) / 4) != 0) else s.readyThreads ((c - 0x10) / 4))
  else if c = 0x46 then kib s.cap.fill
  else if c = 0x47 then b2n s.cap.cur.open_.isSome
  else if c = 0x5E then b2n (2 ≤ s.pwr.stage)
  else if c = 0x5F then 1
  else if c = 0 then min (Config.occupancy c s.prf.cyc) 32
  else if c = 8 ∨ c = 9 then min (Config.occupancy c s.prf.cyc) 8
  else if c = 0x43 then min (Config.occupancy c s.prf.cyc) 1
  else if c = 0x42 then min (Config.occupancy c s.prf.cyc) 64
  else if c = 0x4A then min (Config.occupancy c s.prf.cyc) 32
  else min (Config.occupancy c s.prf.cyc) 2048

/-- n cycles of a constant value v on one counter (R359). -/
def pcConst (p : Pc) (v n : Nat) : Pc :=
  if n = 0 then p else
  let inc :=
    if p.mode = 0 then v * n
    else if p.mode = 1 then b2n (v > 0 && !p.prev && !p.fresh)
    else if p.mode = 2 then (if v > p.thresh then n else 0)
    else 0
  { p with cnt := p.cnt + inc, prev := v > 0, fresh := false }

/-- Count one occurrence at cycle d in a list of (cycle, occurrences), ascending. -/
def duesAdd (d : Nat) : List (Nat × Nat) → List (Nat × Nat)
  | [] => [(d, 1)]
  | (a, n) :: r => if d < a then (d, 1) :: (a, n) :: r else if d = a then (a, n + 1) :: r else (a, n) :: duesAdd d r

/-- The cycles from c0 (excluded) to c1 on a pulse counter, with the occurrences of each cycle. -/
def pcPulses (p : Pc) (c1 : Nat) : List (Nat × Nat) → Nat → Pc
  | [], c0 => pcConst p 0 (c1 - c0)
  | (d, n) :: r, c0 => pcPulses (pcConst (pcConst p 0 (d - c0 - 1)) n 1) c1 r d

/-- Whether the counters are frozen (R365). -/
def State.prfFrozen (s : State) : Bool := s.prf.frz || 1 ≤ s.pwr.stage

/-- n CK_CORE cycles pass on counter k: CYC stands before them. -/
def State.pcCycles (s : State) (n k : Nat) : Pc :=
  let p := tget {} s.prf.pcs k
  if s.prfFrozen || !bitOf s.prf.en.toNat k then p
  else if prfOccCode p.event then pcConst p (s.occ p.event) n
  else
    let due := (s.prf.pulses.filter fun x => x.1 == p.event && x.2 ≤ s.prf.cyc + n).foldl
      (fun l x => duesAdd (max x.2 (s.prf.cyc + 1)) l) []
    pcPulses p (s.prf.cyc + n) due s.prf.cyc

/-- n CK_CORE cycles pass: CYC and the programmable counters (R358, R359). -/
def State.cycles (s : State) (n : Nat) : State :=
  if n = 0 then s else
  let pcs := (List.range 8).foldl (fun t k => tset {} k (s.pcCycles n k) t) s.prf.pcs
  let left := s.prf.pulses.filter fun x => s.prf.cyc + n < x.2
  { s with prf := { s.prf with
      pcs := pcs, pulses := left, cyc := if s.prfFrozen then s.prf.cyc else s.prf.cyc + n, core := s.prf.core + n } }

/-! ## Droop throttling and the passing of time (R25, R429, R430, R432) -/

/-- Stretched cycles among the last 800 nominal periods. -/
def recentStretch (hist : List Nat) (p : Nat) : List Nat := hist.filter fun x => p < x + 800

/-- One CK_CORE cycle while a droop is detected: stretched unless the limiter denies it. -/
def State.droopCycle (s : State) : State :=
  let h := recentStretch s.pwr.hist s.pwr.periods
  if h.length < 200 then
    let h' := s.pwr.periods :: h
    let pct := (800 - h'.length) * 100 / 800
    ({ s with pwr := { s.pwr with hist := h', periods := s.pwr.periods + 2, stretched := true,
                                  frmMin := min s.pwr.frmMin pct } }.pulse 0x20).cycles 1
  else
    { s with pwr := { s.pwr with hist := h, periods := s.pwr.periods + 1, limNow := true } }.cycles 1

/-- Cycles while a droop is detected, from acc units of 0.05 ns; n bounds their number. -/
def State.droopRun (s : State) : Nat → Nat → State × Nat
  | 0, acc => (s, acc)
  | n + 1, acc =>
    let len := if (recentStretch s.pwr.hist s.pwr.periods).length < 200 then 50 else 25
    if acc < len then (s, acc) else s.droopCycle.droopRun n (acc - len)

/-- Cycles under the 75 % hold of stage 2: every third one is stretched (R432). -/
def State.holdRun (s : State) (acc : Nat) : State × Nat :=
  let total := acc + 25 * (s.pwr.holdN % 3)
  let k := 3 * (total / 100) + min (total % 100 / 25) 2
  let used := 100 * (total / 100) + 25 * min (total % 100 / 25) 2
  let n := k - s.pwr.holdN % 3
  if n = 0 then (s, acc) else
  let s := s.pulseN 0x20 n (total / 100)
  ({ s with pwr := { s.pwr with holdN := k % 3, periods := s.pwr.periods + (used - 25 * (s.pwr.holdN % 3)) / 25,
                                stretched := true, frmMin := min s.pwr.frmMin 75 } }.cycles n, total - used)

/-- dt units of device time pass in CK_CORE. -/
def State.coreTime (s : State) (dt : Nat) : State :=
  if !s.pwr.up then s else
  let acc := s.prf.coreAcc + 4 * dt
  let (s, rest) :=
    if s.pwr.hold75 then s.holdRun acc
    else if s.pwr.droop then s.droopRun (acc / 25) acc
    else ({ s with pwr := { s.pwr with periods := s.pwr.periods + acc / 25 } }.cycles (acc / 25), acc % 25)
  { s with prf := { s.prf with coreAcc := rest } }

/-! ## Lengths in CK_CORE cycles (R15, R493; log 48)

A phase counts CK_CORE cycles in twenty-fifths: the whole cycles since the reset and the part of the present one. -/

/-- The length of n cycles under a droop, in 0.05 ns, from a history and a period number. -/
def droopLen : List Nat → Nat → Nat → Nat
  | _, _, 0 => 0
  | h, p, n + 1 =>
    let h := recentStretch h p
    if h.length < 200 then 50 + droopLen (p :: h) (p + 2) n else 25 + droopLen h (p + 1) n

/-- The length of the next n CK_CORE cycles as the clock runs now, in 0.05 ns. -/
def State.coreLen (s : State) (n : Nat) : Nat :=
  if !s.pwr.up then 25 * n
  else if s.pwr.hold75 then
    let f := fun (m : Nat) => 100 * (m / 3) + 25 * (m % 3)
    f (s.pwr.holdN % 3 + n) - f (s.pwr.holdN % 3)
  else if s.pwr.droop then droopLen s.pwr.hist s.pwr.periods n
  else 25 * n

/-- The present phase, and the phase at a device time t that is past or present. -/
def State.phase (s : State) : Nat := 25 * s.prf.core + min s.prf.coreAcc 24
def State.phaseAt (s : State) (t : Nat) : Nat := s.phase - 4 * (s.frm.now - t)

/-- The device time at which phase p is reached, as the clock runs now: the present time where it is past. -/
def State.timeOfPhase (s : State) (p : Nat) : Nat :=
  let d := p - s.phase
  s.frm.now + (s.coreLen (d / 25) + d % 25 + 3) / 4

/-- The device time n CK_CORE cycles from now. -/
def State.cycleTime (s : State) (n : Nat) : Nat := s.timeOfPhase (s.phase + 25 * n)

/-- The phase at which something raised in a cycle of another domain that ends now takes effect in CK_CORE: the third CK_CORE
cycle from the first that begins at or after now (R15). -/
def State.latencyPhase (s : State) : Nat :=
  25 * (s.prf.core + (if s.prf.coreAcc = 0 then 2 else 3))

/-! ## The slew of a follower (R202) -/

/-- What a slew of at most 500 ppm takes off a remainder in dt units of device time, in 10^-8 units. -/
def slewPart (rem : Int) (dt : Nat) : Int := max (-(dt * 50000 : Nat)) (min (dt * 50000 : Nat) rem)

/-- The slew that has acted when device time has gone from the present time to t, up to the next S. -/
def State.slewOver (s : State) (t : Nat) : Int := slewPart s.frm.slewRem (min t s.frm.slewTo - s.frm.now)

/-- Device time reaches t (R25: it never decreases); CK_CORE runs on with it, and the slew of R202 with both. -/
def State.advance (s : State) (t : Nat) : State :=
  let dt := t - s.frm.now
  { s with frm := { s.frm with now := s.frm.now + dt, slewRem := s.frm.slewRem - s.slewOver t } }.coreTime dt

/-! ## Capture triggers (R341, R342) -/

/-- The capture engine runs: no state of R346 in which it is stopped. -/
def CapSt.runs (x : CapSt) : Bool := x != .idle && x != .done && x != .frozen && x != .stopped

/-- A trigger occurrence of source src at device time t: the first sample instant at or after it judges it. -/
def State.capTrigger (s : State) (src t : Nat) : State :=
  if s.pn 12 0 9 != src || !s.cap.st.runs then s else { s with cap := { s.cap with trigs := s.cap.trigs ++ [t] } }

/-- The frame an occurrence at the present time belongs to: the next one from its T0 on, though its tick is still to come
(R14). -/
def State.frameNow (s : State) : W48 :=
  if s.frm.run && !s.frm.first && decide (s.nextT0 ≤ s.frm.now) then s.frm.frame + 1 else s.frm.frame

/-! ## The fault log (R454, R455) -/

/-- A fault-log entry. -/
def logEntry (time : Nat) (frame : W48) (kind led : Nat) (code cause : Nat) (seq : W32) (data : List Byte) : List Byte :=
  leBytes 8 (toNs time) ++ leBytes 6 frame.toNat ++ leBytes 1 kind ++ leBytes 1 led ++ leBytes 2 code ++ leBytes 2 cause ++
  leBytes 4 0 ++ leBytes 4 seq.toNat ++ leBytes 4 0 ++ slice data 0 96

/-- An entry becomes pending. -/
def State.logAt (s : State) (time : Nat) (frame : W48) (kind led code cause : Nat) (data : List Byte) : State :=
  let e := logEntry time frame kind led code cause s.lgr.logSeq data
  { s with lgr := { s.lgr with
      logFrom := if s.lgr.logPend.isEmpty then s.frm.now else s.lgr.logFrom,
      logPend := s.lgr.logPend ++ [e], logSeq := s.lgr.logSeq + 1 } }

def State.log (s : State) (kind led code cause : Nat) (data : List Byte) : State :=
  s.logAt s.frm.now s.frameNow kind led code cause data

/-! ## Raising an event (R11, R85, R86, R399, R455) -/

/-- The reaction of an event for a group (R87). -/
def State.reaction (s : State) (code g : Nat) : Nat := tget (evDefault code) s.evt.matrix (code * 32 + g)

/-- The groups of a mask, ascending. -/
def groupsOf (m : Nat) : List Nat := (List.range 32).filter fun g => bitOf m g

/-- The most severe reaction of an event over a mask of groups. -/
def State.worst (s : State) (code m : Nat) : Nat := ((groupsOf m).map (s.reaction code)).foldl max 1

/-- The bytes of a ring entry with its sequence number (R399). -/
def ringBytes (e : EvEntry) (seq : Nat) : List Byte :=
  leBytes 8 (toNs e.time) ++ leBytes 6 e.frame.toNat ++ leBytes 2 e.code.toNat ++ leBytes 2 e.obj.toNat ++
  leBytes 1 e.react ++ leBytes 1 0 ++ leBytes 4 e.groups.toNat ++ slice e.data 0 6 ++ leBytes 2 seq

/-- The sequence number the entry k places behind the ring's write pointer takes. -/
def Evt.seqAt (e : Evt) (k : Nat) : Nat := (e.wraps * 4096 + e.wrptr + k) % 65536

/-- The reactions of an event fall due at the next boundary: per group, one bit for each severity (R69, R86). -/
def dueMerge (m code : Nat) (react : Nat → Nat → Nat) (t : Tbl Nat) : Tbl Nat :=
  (groupsOf m).foldl (fun t g => tmod 0 g (2 ^ react code g ||| ·) t) t

/-- Enter an event into the queue of the ring, its reactions falling due, without the check for loss. An occurrence of the next
frame, whose tick is still to come (R14), falls due a boundary later. -/
def State.raiseCore (s : State) (code obj groups : Nat) (data : List Byte) : State :=
  let react := s.worst code groups
  let e : EvEntry := { time := s.frm.now, frame := s.frameNow, code := BitVec.ofNat 16 code, obj := BitVec.ofNat 16 obj,
                       react := react, groups := BitVec.ofNat 32 groups, data := data }
  let s := s.pulse 0x50
  let s := if code = evFrameOverrun then s.pulse 0x5C else s
  let full := 64 ≤ s.evt.queue.length
  let seq := s.evt.seqAt s.evt.queue.length
  let next : Bool := e.frame != s.frm.frame
  let s := { s with evt := { s.evt with
      due := if next then s.evt.due else dueMerge groups code s.reaction s.evt.due,
      dueLater := if next then dueMerge groups code s.reaction s.evt.dueLater else s.evt.dueLater,
      queue := if full then s.evt.queue else s.evt.queue ++ [e],
      lost := if full then satInc s.evt.lost else s.evt.lost } }
  let s := if 6 ≤ react ∨ code / 256 = 12 ∨ code = evCalve4 then s.log 1 0 code 0 (ringBytes e seq) else s
  if (code &&& s.pn 12 0 17) = (s.pn 12 0 16 &&& s.pn 12 0 17) then s.capTrigger 2 s.frm.now else s

/-- Every group (R86). -/
def allGroups : Nat := 0xFFFFFFFF
/-- The device as the object of an event (R399). -/
def devObj : Nat := 0xFFFF

/-- Whether a code has been raised for an object in this frame. -/
def State.seenEv (s : State) (code obj : Nat) : Bool := (tget [] s.evt.seen obj).contains code
def State.markEv (s : State) (code obj : Nat) : State :=
  { s with evt := { s.evt with seen := tmod [] obj (code :: ·) s.evt.seen } }

/-- Raise an event, with EV_EVT_LOST once a frame where the queue is full (R399). -/
def State.raise (s : State) (code obj groups : Nat) (data : List Byte) : State :=
  let full := 64 ≤ s.evt.queue.length
  let s := s.raiseCore code obj groups data
  if full ∧ !s.seenEv evEvtLost devObj then (s.raiseCore evEvtLost devObj allGroups []).markEv evEvtLost devObj else s

/-- Raise an event of an object at most once in a frame. -/
def State.raiseOnce (s : State) (code obj groups : Nat) (data : List Byte) : State :=
  if s.seenEv code obj then s else (s.raise code obj groups data).markEv code obj

/-- An event of the device as a whole. -/
def State.raiseDev (s : State) (code : Nat) (data : List Byte) : State := s.raise code devObj allGroups data
def State.raiseDevOnce (s : State) (code : Nat) (data : List Byte) : State := s.raiseOnce code devObj allGroups data

/-- An event of one axis: its group (R86), once per axis and frame (R88). -/
def State.raiseAx (s : State) (code i : Nat) (data : List Byte) : State :=
  s.raiseOnce code i (2 ^ s.axGroup i) data

/-- The groups of the axes a node carries; all where it carries none (R86). -/
def State.nodeGroups (s : State) (addr : Nat) : Nat :=
  let m := (s.axisIds.filter fun i => s.axNode i == addr).foldl (fun m i => m ||| 2 ^ s.axGroup i) 0
  if m = 0 then allGroups else m

/-- An event of a node, once per node and frame (R186). The object is the node's address. -/
def State.raiseNode (s : State) (code b p : Nat) (data : List Byte) : State :=
  s.raiseOnce code (nodeKey b p) (s.nodeGroups (nodeKey b p)) data

/-- The groups of a zone's two axes. -/
def State.zoneGroups (s : State) (z : Nat) : Nat := 2 ^ s.axGroup (s.pn 6 z 1) ||| 2 ^ s.axGroup (s.pn 6 z 2)

/-- The passing of time, a frame in which the limiter denies a stretch being counted once, with EV_CLK_LIMIT in a head (R430). -/
def State.goto (s : State) (t : Nat) : State :=
  let s := s.advance t
  if s.pwr.limNow ∧ !s.seenEv evClkLimit devObj then
    let s := { s with pwr := { s.pwr with limCnt := satInc s.pwr.limCnt } }
    (if s.frm.role = .head then s.raiseDev evClkLimit [] else s).markEv evClkLimit devObj
  else s

/-- Device time reaches a phase of CK_CORE. -/
def State.gotoPhase (s : State) (p : Nat) : State := s.goto (s.timeOfPhase p)

/-- What was raised in the cycle of another domain that ends at e takes effect in CK_CORE (R15). -/
def State.gotoLatency (s : State) (e : Nat) : State :=
  let s := s.goto e
  s.gotoPhase s.latencyPhase

/-! ## Mailbox buffers (R381) -/

/-- n bytes at offset o of buffer j. -/
def State.bufBytes (s : State) (j o n : Nat) : List Byte := mread ramByte s.host.mem (512 * j + o) n
def State.reqOp (s : State) (j : Nat) : Nat := leNat (s.bufBytes j 0 2)

/-! ## Bandwidth monitors (R366) -/

/-- n bytes pass at monitor m; monitor 9 counts in units of 64 bytes. -/
def State.bwBytes (s : State) (m n : Nat) : State :=
  { s with prf := { s.prf with bw := tmod {} m (fun b =>
      if m = 9 then { b with now := b.now + (b.part + n) / 64, part := (b.part + n) % 64 } else { b with now := b.now + n }) s.prf.bw } }

/-- A frame of n bytes passes at the PCS of branch port b, with its preamble and SFD: 0 received, 1 transmitted. -/
def State.bwFrame (s : State) (b dir n : Nat) : State :=
  let d := s.pn 13 0 (16 + b)
  if b < 8 ∧ (d = 2 ∨ d = dir) then s.bwBytes b (n + 8) else s

end Sys2Proof.Machine
end

