-- ==== Sys2Proof/Machine/Operands.lean ====
section
/-! DEFINITION. The forms of the frames on the branch ports and the firn port, and of the safety PDUs: check values, the
Mylia header, and each frame type's fields (R157 to R183, R211, R240 to R244, R295 to R307). A frame is the list of its
bytes from the destination address to the FCS. -/

namespace Sys2Proof.Machine

/-! ## Check values -/

/-- One bit of a reflected CRC with polynomial p. -/
def crcBit (p x : W32) : W32 := if x &&& 1 = 1 then (x >>> 1) ^^^ p else x >>> 1

/-- n bits of a reflected CRC. -/
def crcBits (p : W32) : Nat → W32 → W32
  | 0, x => x
  | n + 1, x => crcBits p n (crcBit p x)

/-- A reflected CRC over bytes, from a register value. -/
def crcFrom (p : W32) : W32 → List Byte → W32
  | x, [] => x
  | x, b :: bs => crcFrom p (crcBits p 8 (x ^^^ b.setWidth 32)) bs

/-- The CRC-32 of the IEEE 802.3 FCS computation. -/
def crc32 (bs : List Byte) : W32 := ~~~(crcFrom 0xEDB88320 0xFFFFFFFF bs)

/-- SCRC: CRC-32C with the register loaded with SC.ID (R297). -/
def scrc (id : W32) (bs : List Byte) : W32 := ~~~(crcFrom 0x82F63B78 id bs)

/-- One bit of the CRC-8 with polynomial 0x07, unreflected. -/
def crc8Bit (x : Byte) : Byte := if x.msb then (x <<< 1) ^^^ 0x07 else x <<< 1
def crc8Bits : Nat → Byte → Byte
  | 0, x => x
  | n + 1, x => crc8Bits n (crc8Bit x)
def crc8From : Byte → List Byte → Byte
  | x, [] => x
  | x, b :: bs => crc8From (crc8Bits 8 (x ^^^ b)) bs
/-- HCHK's CRC (R159). -/
def crc8 (bs : List Byte) : Byte := crc8From 0 bs

/-- A frame with its FCS: the CRC's least significant byte leaves first, as IEEE 802.3 sends it. -/
def withFcs (bs : List Byte) : List Byte := bs ++ leBytes 4 (crc32 bs).toNat

/-- The FCS of a frame is correct. -/
def fcsOk (f : List Byte) : Bool :=
  4 ≤ f.length && f.drop (f.length - 4) == leBytes 4 (crc32 (f.take (f.length - 4))).toNat

/-- Zero bytes up to a length. -/
def padTo (n : Nat) (bs : List Byte) : List Byte := bs ++ List.replicate (n - bs.length) 0

/-! ## Addresses and the Mylia header (R158, R159) -/

/-- Destination, source and EtherType: 14 bytes. src is byte 3 and byte 5 of the source address. -/
def State.macs (s : State) (port src3 src5 : Nat) : List Byte :=
  let p1 := s.pn 2 0 2 / 256
  let p0 := s.pn 2 0 2 % 256
  [0x03, BitVec.ofNat 8 p1, BitVec.ofNat 8 p0, 0xFF, BitVec.ofNat 8 port, 0xFF,
   0x02, BitVec.ofNat 8 p1, BitVec.ofNat 8 p0, BitVec.ofNat 8 src3, BitVec.ofNat 8 port, BitVec.ofNat 8 src5] ++
  beBytes 2 (s.pn 2 0 1)

/-- The Mylia header. -/
structure Hdr where
  ty : Nat
  branch : Nat := 0
  pos : Nat := 0
  fcnt : Nat
  epoch : Nat
  dir : Bool := false
  calve : Bool := false
  keeper : Bool := false
  deriving DecidableEq, Repr

/-- The eight header bytes. -/
def Hdr.bytes (h : Hdr) : List Byte :=
  let b := [BitVec.ofNat 8 (16 + h.ty), BitVec.ofNat 8 (h.branch * 32 + h.pos)] ++ beBytes 2 (h.fcnt % 65536) ++
    beBytes 2 h.epoch ++ [BitVec.ofNat 8 (128 * b2n h.dir + 64 * b2n h.calve + 32 * b2n h.keeper)]
  b ++ [crc8 b]

/-- A frame's header fields. -/
def frameHdr (f : List Byte) : Hdr :=
  { ty := beAt f 14 1 % 16, branch := beAt f 15 1 / 32, pos := beAt f 15 1 % 32, fcnt := beAt f 16 2, epoch := beAt f 18 2,
    dir := bitOf (beAt f 20 1) 7, calve := bitOf (beAt f 20 1) 6, keeper := bitOf (beAt f 20 1) 5 }

/-- VER of a frame. -/
def frameVer (f : List Byte) : Nat := beAt f 14 1 / 16

/-- HCHK is correct. -/
def hchkOk (f : List Byte) : Bool := 22 ≤ f.length && slice f 21 1 == [crc8 (slice f 14 7)]

/-- No PCS error code, FCS and HCHK correct (R167). -/
def intact (f : List Byte) (err : Bool) : Bool := !err && fcsOk f && hchkOk f

/-- Rank of the part in its role: 0 the head, 1 the standby (R8, R158). -/
def State.rank (s : State) : Nat := if s.frm.role = .standby then 1 else 0

/-- A frame the head sends on branch b, from its payload (without FCS). -/
def State.headFrame (s : State) (b ty pos : Nat) (payload : List Byte) : List Byte :=
  withFcs (s.macs b s.rank 0xFF ++
    { ty := ty, branch := b, pos := pos, fcnt := s.frm.frame.toNat, epoch := s.net.epoch.toNat, calve := s.net.calve : Hdr }.bytes ++
    payload)

/-- A frame the part sends in the node role, padded to a length without FCS. -/
def State.nodeFrame (s : State) (ty len : Nat) (keeper : Bool) (payload : List Byte) : List Byte :=
  let b := s.pn 2 0 16
  let p := s.pn 2 0 17
  withFcs (padTo len (s.macs b 0x10 p ++
    { ty := ty, branch := b, pos := p, fcnt := s.frm.frame.toNat, epoch := s.net.obeyEpoch.toNat, dir := true,
      keeper := keeper : Hdr }.bytes ++ payload))

/-- A firn frame (R240). -/
def State.firnFrame (s : State) (ty : Nat) (fcnt : Nat) (dir : Bool) (payload : List Byte) : List Byte :=
  withFcs (padTo 60 (s.macs 8 s.rank 0xFF ++
    { ty := ty, fcnt := fcnt, epoch := (if dir then s.net.obeyEpoch else s.net.epoch).toNat, dir := dir : Hdr }.bytes ++ payload))

/-! ## Nodes of the configuration -/

/-- The instance of class 4 that declares the node at an address; the class's defaults hold where none does. -/
def State.nodeInst (s : State) (addr : Nat) : Nat := ((List.range 128).find? fun j => s.pn 4 j 0 == addr).getD 127
def State.nodePar (s : State) (b p n : Nat) : Nat := s.pn 4 (s.nodeInst (nodeKey b p)) n

/-- Insert an axis by its AX.CHAN. -/
def chanInsert (ch : Nat → Nat) (i : Nat) : List Nat → List Nat
  | [] => [i]
  | j :: r => if ch i < ch j then i :: j :: r else j :: chanInsert ch i r

/-- The axes of a node in AX.CHAN order. -/
def State.nodeAxes (s : State) (b p : Nat) : List Nat :=
  (s.axisIds.filter fun i => s.axNode i == nodeKey b p).foldl (fun l i => chanInsert (fun k => s.pn 5 k 2) i l) []

/-- The axes of branch b. -/
def State.branchAxes (s : State) (b : Nat) : List Nat := s.axisIds.filter fun i => !s.isLn i && s.axBranch i == b

/-- N_s, L_s in byte times, guard G (R161). -/
def State.nS (s : State) (b : Nat) : Nat := s.pn 3 b 1
def State.lS (s : State) : Nat := s.pn 2 0 3
def guardB : Nat := 32

/-- Index from 0 of the slot of position p: slot N_s − k serves it in the reverse orientation (R163, R238). -/
def State.slotIdx (s : State) (b p : Nat) : Nat := if s.rev then s.nS b - 1 - p else p
/-- The nominal start of the slot of position p of branch b (R167). -/
def State.slotStart (s : State) (b p : Nat) : Nat := s.instU0 + s.slotIdx b p * s.lS * s.tB
/-- e_k of the slot of position p (R168). -/
def State.slotEnd (s : State) (b p : Nat) : Nat := s.instU0 + (s.slotIdx b p + 1) * s.lS * s.tB - 16 * s.tB
/-- D0(b) (R161). -/
def State.dynStart (s : State) (b : Nat) : Nat := s.instU0 + s.nS b * s.lS * s.tB
/-- E_dyn (R161). -/
def State.eDyn (s : State) : Nat := s.nextT0 - nsT (s.pn 2 0 5)
/-- Byte times a frame occupies, with preamble and SFD. -/
def wireB (f : List Byte) : Nat := 8 + f.length
/-- Path delay D_p of position p of branch b, in 0.2 ns (R156). -/
def State.pathDelay (s : State) (b p : Nat) : Nat := nsT (((List.range (p + 1)).map fun q => s.nodePar b q 1).sum)
/-- End delay Δ_b (R195). -/
def State.endDelay (s : State) (b : Nat) : Nat :=
  (if s.nS b = 0 then 0 else s.pathDelay b (s.nS b - 1)) + nsT (s.pn 3 b 64)

/-- D_p, or D'_p = Δ_b − D_p in the reverse orientation (R238). -/
def State.nodeDelay (s : State) (b p : Nat) : Nat := if s.rev then s.endDelay b - s.pathDelay b p else s.pathDelay b p
/-- The positions of branch b in slot order. -/
def State.slotOrder (s : State) (b : Nat) : List Nat := if s.rev then (List.range (s.nS b)).reverse else List.range (s.nS b)

/-- W(p) in byte times (R177). -/
def State.msWidth (s : State) (b p : Nat) : Nat := 64 * ((s.nodePar b p 7 + 8 + guardB + 63) / 64)
/-- Owner of mini-slot m of branch b. -/
def State.msOwner (s : State) (b m : Nat) : Nat := s.pn 3 b (32 + m)
/-- M_b. -/
def State.mB (s : State) (b : Nat) : Nat := s.pn 3 b 3
/-- w_m under a grant map (R177). -/
def State.msW (s : State) (b : Nat) (grant : Nat) (m : Nat) : Nat :=
  if bitOf grant m then s.msWidth b (s.msOwner b m) else 64
/-- H_m (R177). -/
def State.msStart (s : State) (b grant m : Nat) : Nat :=
  s.dynStart b + s.tB * ((List.range m).map (s.msW b grant)).sum

/-! ## Cycle Start Marker (R162, R196) -/

/-- The CSM the head sends. -/
def State.csmFrame (s : State) (b grant : Nat) (kref : Bool) : List Byte :=
  s.headFrame b 1 0 (beBytes 6 s.frm.frame.toNat ++ beBytes 8 (toNs s.frm.t0) ++ beBytes 8 Config.headId.toNat ++
    beBytes 4 s.net.hash.toNat ++ beBytes 4 grant ++ [BitVec.ofNat 8 (b2n kref + 2 * b2n s.red.fit)] ++ List.replicate 7 0)

/-- A frame that has the form of a CSM: FCS, HCHK, VER, TYPE and DIR (R191). -/
def isCsm (f : List Byte) : Bool :=
  fcsOk f && hchkOk f && frameVer f == 1 && (frameHdr f).ty == 1 && !(frameHdr f).dir

/-- The fields of a CSM whose time-stamp point arrived at stamp. -/
def csmOf (f : List Byte) (stamp : Nat) : Csm :=
  { fcnt := BitVec.ofNat 48 (beAt f 22 6), t0 := BitVec.ofNat 64 (beAt f 28 8), headId := BitVec.ofNat 64 (beAt f 36 8),
    epoch := BitVec.ofNat 16 (beAt f 18 2), hash := BitVec.ofNat 32 (beAt f 44 4), grant := BitVec.ofNat 32 (beAt f 48 4),
    cflags := BitVec.ofNat 8 (beAt f 52 1), stamp := stamp, calve := (frameHdr f).calve }

/-- EPOCH e is strictly higher than e0 (R198). -/
def epochAbove (e e0 : W16) : Bool := 1 ≤ (e - e0).toNat && (e - e0).toNat ≤ 32767

/-- Serial order of firn sequences (R242). -/
def seqAbove (a b : W32) : Bool := 1 ≤ (a - b).toNat && (a - b).toNat ≤ 2 ^ 31 - 1

/-! ## Static uplink frame (R165, R166) -/

/-- Size of an axis entry by AX.TYPE. -/
def entrySize (ty : Nat) : Nat := if ty = 1 then 14 else if ty = 2 then 12 else 8

/-- An axis entry at an offset of a static frame. -/
def smpAt (ty : Nat) (f : List Byte) (o : Nat) : Smp :=
  let p : W32 := BitVec.ofNat 32 (beAt f o 4)
  let q : W16 := BitVec.ofNat 16 (beAt f (o + 4) 2)
  let w : Nat → W16 := fun k => BitVec.ofNat 16 (beAt f (o + k) 2)
  if ty = 1 then { p32 := p, q := q, ia := w 6, ib := w 8, ic := w 10, afl := w 12 }
  else if ty = 2 then { p32 := p, q := q, tau := ⟨BitVec.ofNat 32 (beAt f (o + 6) 4)⟩, afl := w 10 }
  else { p32 := p, q := q, afl := w 6 }

/-- The entries of axes of the given types, from offset o, and the offset after them. -/
def smpsAt (f : List Byte) : List Nat → Nat → List Smp × Nat
  | [], o => ([], o)
  | ty :: r, o => let (l, e) := smpsAt f r (o + entrySize ty); (smpAt ty f o :: l, e)

/-! ## Command block (R172 to R174) -/

/-- Size of an axis entry of a record. -/
def recEntrySize (ty : Nat) : Nat := if ty = 1 then 7 else if ty = 2 then 5 else 9

/-- CTRL. -/
def ctrlByte (st : Nat) (en valid : Bool) : Byte := BitVec.ofNat 8 (32 * st + 2 * b2n en + b2n valid)

/-- An axis entry of a record: duties or torque reference or speed and feedforward, then CTRL. -/
def recEntry (ty : Nat) (ax : Axis) (en valid : Bool) : List Byte :=
  let ctrl := ctrlByte ax.st.code en valid
  if ty = 1 then
    (if valid then beBytes 2 ax.lp.dA.toNat ++ beBytes 2 ax.lp.dB.toNat ++ beBytes 2 ax.lp.dC.toNat
     else [0x80, 0, 0x80, 0, 0x80, 0]) ++ [ctrl]
  else if ty = 2 then beBytes 4 (fNarrow ax.lp.tau).bits.toNat ++ [ctrl]
  else beBytes 4 (fNarrow ax.lp.wCmd).bits.toNat ++ beBytes 4 (fNarrow ax.lp.tauFf).bits.toNat ++ [ctrl]

/-- RCRC of a record's bytes before it (R174). -/
def rcrc (fcnt epoch : Nat) (rec : List Byte) : List Byte :=
  beBytes 4 (crc32 (beBytes 2 (fcnt % 65536) ++ beBytes 2 epoch ++ rec)).toNat

/-- The axis is sent with a valid command (R18, R38). -/
def Axis.cmdValid (ax : Axis) : Bool := ax.critDone && !ax.aband && ax.lp.valid

/-- The record of position p of branch b. -/
def State.recordOf (s : State) (b p : Nat) : List Byte :=
  let axs := s.nodeAxes b p
  let body := (axs.map fun i =>
    let ax := s.axis i
    recEntry (s.axType i) ax (axisEn (s.P 5 i) (s.axType i) ax.st) ax.cmdValid).flatten
  let r := [BitVec.ofNat 8 p, BitVec.ofNat 8 (2 + body.length + 4)] ++ body
  r ++ rcrc s.frm.frame.toNat s.net.epoch.toNat r

/-- Released PDUs placed by SC.PLACE_DN on branch b, back to back in ascending connection index (R306, R307). -/
def State.downPdus (s : State) (b place : Nat) : List Byte :=
  (((List.range 64).filter fun c => s.pn 11 (64 + c) 0 = 1 && s.pn 11 (64 + c) 2 / 32 = b && s.pn 11 (64 + c) 7 = place).map
    fun c => (s.conn c).rel).flatten

/-- The command block the head sends on branch b. -/
def State.blockFrame (s : State) (b : Nat) : List Byte :=
  let n := s.nS b
  let sl := s.pn 3 b 2
  let recs := ((s.slotOrder b).reverse.map fun p => s.recordOf b p).flatten
  s.headFrame b 2 0 ([BitVec.ofNat 8 n, 0] ++ beBytes 2 sl ++ beBytes 4 (toNs (s.instA - s.frm.t0)) ++
    slice (s.downPdus b 0) 0 sl ++ recs)

/-- Find a record by following RLEN from an offset: its bytes. fuel bounds the records looked at. -/
def findRecord (f : List Byte) (pos : Nat) : Nat → Nat → Option (List Byte)
  | 0, _ => none
  | n + 1, o =>
    let len := beAt f (o + 1) 1
    if len < 6 then none
    else if beAt f o 1 % 32 = pos then some (slice f o len)
    else findRecord f pos n (o + len)

/-- A record's RCRC is correct under a frame's FCNT and EPOCH. -/
def recordOk (f rec : List Byte) : Bool :=
  let n := rec.length
  rec.drop (n - 4) == rcrc (beAt f 16 2) (beAt f 18 2) (rec.take (n - 4))

/-! ## Dynamic frames, keeper frame (R181, R183) -/

/-- A dynamic frame's payload part: CLASS, zero, PLEN, payload. -/
def dynPayload (cls : Nat) (payload : List Byte) : List Byte :=
  [BitVec.ofNat 8 cls, 0] ++ beBytes 2 payload.length ++ payload

/-- A dynamic downlink frame to position pos of branch b, at least 64 bytes with its FCS. -/
def State.dynFrame (s : State) (b : Nat) (d : DynFrame) : List Byte :=
  withFcs (padTo 60 (s.macs b s.rank 0xFF ++
    { ty := 5, branch := b, pos := d.pos, fcnt := s.frm.frame.toNat, epoch := s.net.epoch.toNat, calve := s.net.calve : Hdr }.bytes ++
    dynPayload d.cls d.payload))

/-- CLASS and payload of a dynamic frame. -/
def dynClass (f : List Byte) : Nat := beAt f 22 1
def dynBody (f : List Byte) : List Byte := slice f 26 (beAt f 24 2)

/-- The keeper frame of branch b: one entry per SERVO-C or SERVO-V axis, in slot order. -/
def State.keeperFrame (s : State) (b : Nat) : List Byte :=
  let ents := ((s.slotOrder b).map fun p =>
    ((s.nodeAxes b p).filter fun i => s.axType i == 1 || s.axType i == 2).map fun i =>
      let l := (s.axis i).lp
      [BitVec.ofNat 8 p, BitVec.ofNat 8 (s.pn 5 i 2)] ++ beBytes 4 l.kref0.bits.toNat ++ beBytes 4 l.kref1.bits.toNat).flatten
  s.headFrame b 6 0 ([BitVec.ofNat 8 ents.length, 0] ++ ents.flatten)

/-- The entries of a keeper frame: position, channel, references. -/
def keeperEntries (f : List Byte) : List (Nat × Nat × F32 × F32) :=
  (List.range (beAt f 22 1)).map fun k =>
    let o := 24 + 10 * k
    (beAt f o 1 % 32, beAt f (o + 1) 1 % 8, ⟨BitVec.ofNat 32 (beAt f (o + 2) 4)⟩, ⟨BitVec.ofNat 32 (beAt f (o + 6) 4)⟩)

/-! ## Firn frames (R241, R244) -/

/-- The heartbeat of the present frame. -/
def State.heartbeatFrame (s : State) : List Byte :=
  let imgSeq := match s.red.out with
    | some i => i.seq
    | none => s.red.seq
  let named := s.red.ystate = 2
  s.firnFrame 8 s.frm.frame.toNat false (beBytes 6 s.frm.frame.toNat ++ beBytes 8 Config.headId.toNat ++
    beBytes 4 imgSeq.toNat ++ beBytes 6 (if named then s.red.yfc.toNat else 0) ++
    [BitVec.ofNat 8 (b2n s.red.yldPend + 2 * b2n named)] ++ List.replicate 13 0)

/-- A parameter of 64 bits. -/
def wideParam (k : Nat) : Bool :=
  match paramRow (keyClass k) (keyInst k) (keyItem k) with
  | some r => r.ty == .u64 || r.ty == .i64 || r.ty == .f64
  | none => false

/-- The entries of one write: a 64-bit value travels as two entries of one key, low half first (log 32). -/
def paramEntryBytes (k : Nat) (v : W64) : List (List Byte) :=
  let lo := beBytes 4 k ++ beBytes 4 (v.toNat % 2 ^ 32)
  if wideParam k then [lo, beBytes 4 k ++ beBytes 4 (v.toNat / 2 ^ 32)] else [lo]

/-- A parameter record: the frame its writes take effect from, and the entries. -/
def State.paramFrame (s : State) (l : List (Nat × W64)) : List Byte :=
  let ents := (l.map fun kv => paramEntryBytes kv.1 kv.2).flatten
  s.firnFrame 0xA s.frm.frame.toNat false (beBytes 6 s.frm.frame.toNat ++ beBytes 2 ents.length ++ ents.flatten)

/-- The entries of a parameter record, as key and 32-bit value. -/
def paramEntries (f : List Byte) : List (Nat × Nat) :=
  (List.range (beAt f 28 2)).map fun k => (beAt f (30 + 8 * k) 4 % 2 ^ 24, beAt f (34 + 8 * k) 4)

/-! ## Safety PDUs (R295 to R297) -/

/-- A PDU with its SCRC. -/
def pduBytes (id : W32) (seq : W16) (texp ctrl : Nat) (payload : List Byte) : Pdu :=
  let b := beBytes 4 id.toNat ++ beBytes 2 seq.toNat ++ beBytes 2 texp ++ [BitVec.ofNat 8 ctrl, BitVec.ofNat 8 payload.length] ++ payload
  b ++ beBytes 4 (scrc id b).toNat

def pduId (p : Pdu) : Nat := beAt p 0 4
def pduSeq (p : Pdu) : W16 := BitVec.ofNat 16 (beAt p 4 2)
def pduTexp (p : Pdu) : Nat := beAt p 6 2
def pduCtrl (p : Pdu) : Nat := beAt p 8 1
def pduLen (p : Pdu) : Nat := beAt p 9 1
def pduSto (p : Pdu) : Bool := bitOf (pduCtrl p) 0

/-- SCRC of a PDU is correct for an identity. -/
def scrcOk (id : W32) (p : Pdu) : Bool :=
  14 ≤ p.length && p.length = 14 + pduLen p && p.drop (10 + pduLen p) == beBytes 4 (scrc id (p.take (10 + pduLen p))).toNat

/-- The PDUs of a safe area: a reader stops at the first position whose ID is zero (R306). n bounds their number. -/
def safePdus (a : List Byte) : Nat → List Pdu
  | 0 => []
  | n + 1 => if a.length < 14 ∨ pduId a = 0 then [] else slice a 0 (14 + pduLen a) :: safePdus (a.drop (14 + pduLen a)) n

/-- The step channel bound to an axis (R133). -/
def State.chanOf (s : State) (i : Nat) : Option Nat := (List.range 16).find? fun c => s.pn 9 c 0 == i

/-- The SSI input a STEP axis's trailing kernel reads (R146, R148). -/
def State.ssiInput (s : State) (i : Nat) : Option Nat :=
  match s.chanOf i with
  | none => none
  | some c =>
    let e := s.pn 9 c 11
    if s.axType i = 4 ∧ e < 8 ∧ s.pn 9 e 64 = 2 then some e else none

/-- What the current reference follows at device time t: 0 run current, 1 ramp, 2 hold (R140). -/
def StepCh.redAt (c : StepCh) (t : Nat) : Nat :=
  match c.runAt with
  | some r => if r ≤ t then 0 else c.red
  | none => c.red

end Sys2Proof.Machine
end

