-- ==== Sys2Proof/Machine/Dispatcher.lean ====
section
/-! DEFINITION. The dispatcher (R216 to R233): the moraine ring, releases, dependence counters, ready lists, lane groups,
firmware threads, the delay list, the trailing gate, overruns and skips; kernel tagging (R368 to R370). -/

namespace Sys2Proof.Machine

/-- What a command's meaning answers. -/
abbrev Out := Host.Outcome State Fault Refusal

/-! ## Descriptors and lists -/

/-- Descriptor numbers of the kernels the firmware writes at configuration start (log 33). -/
def dAxCrit (i : Nat) : Nat := i
def dAxTrail (i : Nat) : Nat := 256 + i
def dZnCrit (z : Nat) : Nat := 512 + z
def dZnTrail (z : Nat) : Nat := 576 + z

/-- The ready list a task belongs to (R224): levels 0 and 1 are shared, the others exist per firmware processor. -/
def readyKey (t : Task) : Nat := if t.cls = .thread then 8 + 8 * t.affin + t.level else t.level

def State.readyList (s : State) (k : Nat) : List Nat := tget [] s.dsp.ready k
def State.setReady (s : State) (k : Nat) (l : List Nat) : State := { s with dsp := { s.dsp with ready := tset [] k l s.dsp.ready } }

/-- Depth of level l, summed over servers (R233). -/
def State.levelDepth (s : State) (l : Nat) : Nat :=
  if l < 2 then (s.readyList l).length
  else ((List.range 4).map fun fp => (s.readyList (8 + 8 * fp + l)).length).sum

/-! ## The moraine ring (R230, R231) -/

/-- One entry of the ring. -/
def trcEntry (now : Nat) (fcnt kind level server : Nat) (abnd : Bool) (task seq dep qd : Nat) : List W32 :=
  let ns := toNs now
  [BitVec.ofNat 32 ns, BitVec.ofNat 32 (fcnt % 65536 * 65536 + ns / 2 ^ 32 % 65536),
   BitVec.ofNat 32 (kind * 2 ^ 28 + level * 2 ^ 25 + server * 2 ^ 21 + b2n abnd * 2 ^ 20 + task),
   BitVec.ofNat 32 (seq % 65536 * 65536 + dep % 256 * 256 + min qd 255)]

/-- A decision of a kind is enabled for a task. -/
def State.trcOn (s : State) (kind d : Nat) : Bool :=
  s.dsp.en && bitOf s.dsp.kmask.toNat kind && bitOf s.dsp.lmask.toNat (s.task d).level && s.pwr.stage == 0

/-- An enabled decision is lost. -/
def State.trcLose (s : State) : State := { s with dsp := { s.dsp with lost := satInc s.dsp.lost } }.pulse 0x4E

/-- An entry of the ring with its SEQ, from its place in the write order (R231). -/
def withSeq (pos : Nat) : List W32 → List W32
  | [a, b, c, d] => [a, b, c, d ||| BitVec.ofNat 32 (pos % 65536 * 65536)]
  | l => l

/-- A decision of the present cycle takes its place among the others, ascending by KIND and descriptor (R230). -/
def insDecision (k : Nat) (e : List W32) : List (Nat × List W32) → List (Nat × List W32)
  | [] => [(k, e)]
  | x :: r => if k < x.1 then (k, e) :: x :: r else x :: insDecision k e r

/-- The ring holds at most two decisions of a cycle (R230): old of them stand before its pointer and are written anew. -/
def Dsp.writeNow (x : Dsp) (cyc : Nat) (l : List (Nat × List W32)) (old : Nat) : Dsp :=
  let pos := x.wraps * 4096 + x.wrptr + 2 ^ 32 - old
  let p := x.wrptr + (min l.length 2 - old)
  { x with
    trcCyc := cyc, trcNow := l,
    trc := ((l.take 2).zipIdx).foldl (fun t y => tset [] ((pos + y.2) % 4096) (withSeq (pos + y.2) y.1.2) t) x.trc,
    wrptr := p % 4096, wraps := (x.wraps + p / 4096) % 2 ^ 20 }

/-- A decision on task d at a server (15: none), made n CK_CORE cycles from now. -/
def State.traceIn (s : State) (n kind d server : Nat) : State :=
  if !s.trcOn kind d then s
  else if s.dsp.frz then s.trcLose
  else
    let t := s.task d
    let e := trcEntry (s.cycleTime n) s.frameNow.toNat kind t.level server t.aband d 0 t.dep (s.readyList (readyKey t)).length
    let now := if s.dsp.trcCyc = s.prf.core + n then s.dsp.trcNow else []
    let s := { s with dsp := s.dsp.writeNow (s.prf.core + n) (insDecision (kind * 1024 + d) e now) (min now.length 2) }
    if now.length < 2 then s.pulse 0x4D else s.trcLose

/-- A decision of the present cycle. -/
def State.trace (s : State) (kind d server : Nat) : State := s.traceIn 0 kind d server

/-! ## Kernel tagging (R368 to R370) -/

/-- Next state of the Galois LFSR x^32 + x^22 + x^2 + x + 1, in its right-shifting form (log 34). -/
def lfsrNext (x : W32) : W32 := if x &&& 1 = 1 then (x >>> 1) ^^^ 0x80200003 else x >>> 1

/-- The tag countdown is loaded anew. -/
def Prf.tagReload (p : Prf) : Prf :=
  let l := lfsrNext p.lfsr
  let n := p.tagN + 1
  { p with lfsr := l, countdown := n / 2 + l.toNat % n }

/-- PRF_TAGCTL.CLASS selects a kernel class. -/
def tagSelects (cls : Nat) (crit : Bool) : Bool := cls = 0 || (cls = 1 && crit) || (cls = 2 && !crit)

/-- Dispatch of kernel d on lane group k, for the tagger. -/
def State.tagDispatch (s : State) (d k : Nat) : State :=
  let t := s.task d
  let crit : Bool := t.cls == .critical
  if s.prf.tagEn && tagSelects s.prf.tagCls crit then
    if s.prf.countdown ≤ 1 then
      let r : TagRun := { task := d, obj := t.obj, crit := crit, lane := k, ready := t.readyAt, fcnt := s.frm.frame.setWidth 16,
                          disp := s.frm.now, opnd := none, comp := none, wb := none, abnd := t.aband, branch := none }
      { s with prf := { s.prf.tagReload with tagRuns := s.prf.tagRuns ++ [r] } }
    else { s with prf := { s.prf with countdown := s.prf.countdown - 1 } }
  else s

/-- A stage's delta from READY: 0xFFFF where the stage did not occur. -/
def tagDelta (ready : Nat) : Option Nat → Nat
  | none => 0xFFFF
  | some t => min (toNs t - toNs ready) 0xFFFE

/-- The eight words of a tag entry. -/
def tagWords (r : TagRun) (pack : Option Nat) (seq : Nat) : List W32 :=
  let ns := toNs r.ready
  [BitVec.ofNat 32 ns, BitVec.ofNat 32 (r.fcnt.toNat * 65536 + ns / 2 ^ 32 % 65536),
   BitVec.ofNat 32 ((if r.crit then 0 else 2 ^ 30) + r.lane * 2 ^ 27 + b2n r.abnd * 2 ^ 26 + r.task * 65536 + r.obj.toNat),
   BitVec.ofNat 32 (tagDelta r.ready (some r.disp) * 65536 + tagDelta r.ready r.opnd),
   BitVec.ofNat 32 (tagDelta r.ready r.comp * 65536 + tagDelta r.ready r.wb),
   BitVec.ofNat 32 (tagDelta r.ready pack * 65536 + seq % 65536), 0, 0]

/-- A tag entry falls due. -/
def State.tagWrite (s : State) (r : TagRun) (pack : Option Nat) : State :=
  let n := if s.prf.tagCyc = s.prf.cyc then s.prf.tagCycN else 0
  if s.prf.tagFrz || s.prfFrozen || 2 ≤ n then { s with prf := { s.prf with tagLost := satInc s.prf.tagLost } }
  else
    let p := s.prf.tagPtr
    { s with prf := { s.prf with
        tags := tset [] p (tagWords r pack (s.prf.tagWraps * 256 + p)) s.prf.tags, tagPtr := (p + 1) % 256,
        tagWraps := if p = 255 then (s.prf.tagWraps + 1) % 2 ^ 24 else s.prf.tagWraps,
        tagCyc := s.prf.cyc, tagCycN := n + 1 } }.pulse 0x4F

/-- The kernel of task d completes: OPND, COMP and WB of its tagged invocation. A critical kernel of a branch axis whose
duties will be sent awaits its packing; any other entry is written now, with hand-over to the LN as PACK where ln holds. -/
def State.tagComplete (s : State) (d : Nat) (opnd comp t : Nat) (branch : Option Nat) (ln : Bool) : State :=
  match s.prf.tagRuns.find? fun r => r.task == d && r.wb.isNone with
  | none => s
  | some r =>
    let r' := { r with opnd := some opnd, comp := some comp, wb := some t, abnd := (s.task d).aband }
    let rest := s.prf.tagRuns.filter fun x => !(x.task == d && x.wb.isNone)
    if branch.isSome && !r'.abnd then { s with prf := { s.prf with tagRuns := rest ++ [{ r' with branch := branch }] } }
    else { s with prf := { s.prf with tagRuns := rest } }.tagWrite r' (if ln && !r'.abnd then some t else none)

/-- Branch b's command block starts: its awaited invocations are packed. -/
def State.tagPack (s : State) (b : Nat) : State :=
  let due := s.prf.tagRuns.filter fun r => r.branch == some b
  let s := { s with prf := { s.prf with tagRuns := s.prf.tagRuns.filter fun r => r.branch != some b } }
  due.foldl (fun s r => s.tagWrite r (some s.frm.now)) s

/-! ## Readying, dispatching to processors -/

/-- DSP_RDYDEP.MAX of level l follows its depth (R233). -/
def State.noteDepth (s : State) (l : Nat) : State :=
  { s with dsp := { s.dsp with maxDep := tmod 0 l (max (s.levelDepth l)) s.dsp.maxDep } }

/-- x became ready in cycle c and stands behind task d, which becomes ready in c as well: by an expiry, or with a higher index
(R224, R227). -/
def Task.behind (c d : Nat) (x : Nat) (t : Task) : Bool := t.readyCyc == c && (t.byExpiry || decide (d < x))

/-- Task d takes its place in a ready list: the tail, but for those of its own cycle that stand behind it. -/
def State.placeReady (s : State) (c d : Nat) (l : List Nat) : List Nat :=
  let behind := fun x => (s.task x).behind c d x
  let r := l.reverse
  (r.dropWhile behind).reverse ++ d :: (r.takeWhile behind).reverse

/-- Task d becomes ready n CK_CORE cycles from now, by an expiry where exp holds, and enters its ready list (R221, R224, R227). -/
def State.enterReady (s : State) (n : Nat) (exp : Bool) (d : Nat) : State :=
  let t := s.task d
  let k := readyKey t
  let c := s.prf.core + n
  let s := s.setTask d { t with st := .ready, readyAt := s.cycleTime n, due := none, readyCyc := c, byExpiry := exp }
  let s := s.setReady k (if exp then s.readyList k ++ [d] else s.placeReady c d (s.readyList k))
  { s with dsp := { s.dsp with delays := s.dsp.delays.filter (· != d) } }.noteDepth t.level

/-- The highest level (lowest number) of FPn with a ready thread. -/
def State.topLevel (s : State) (fp : Nat) : Option Nat :=
  (List.range 8).find? fun l => 2 ≤ l && !(s.readyList (8 + 8 * fp + l)).isEmpty

/-- FPn, when no thread runs on it, takes the head of its highest non-empty level, n CK_CORE cycles from now. A clock-gated FP3
starts nothing. -/
def State.startThread (s : State) (n fp : Nat) : State :=
  if tget 0 s.dsp.running fp ≠ 0 ∨ (fp = 3 ∧ s.pwr.fp3Gated) then s
  else match s.topLevel fp with
    | none => s
    | some l =>
      match s.readyList (8 + 8 * fp + l) with
      | [] => s
      | d :: r =>
        let again : Bool := (s.task d).st == .preempted
        let s := s.setReady (8 + 8 * fp + l) r
        let s := s.setTask d { s.task d with st := .run }
        let s := { s with dsp := { s.dsp with running := tset 0 fp (d + 1) s.dsp.running } }
        (s.traceIn n (if again then 7 else 4) d (8 + fp)).pulse (0x11 + 4 * fp)

/-- A task has entered its ready list: a thread starts in that cycle on a processor that runs none. -/
def State.kick (s : State) (n d : Nat) : State :=
  let t := s.task d
  if t.cls = .thread then s.startThread n t.affin else s

/-! ## Releases (R219, R220) -/

/-- The expiry of a wait on timebase b that begins now: frame or sub-tick number, and the device time the delay list is sorted
by (R227). -/
def State.dueOf (s : State) (b n : Nat) : Option (Nat × Nat) :=
  if b = 1 then some (s.frm.frame.toNat + n, s.frm.t0 + n * s.per)
  else if b = 2 then some (s.dsp.subTick + n, (s.frm.now / usT 1 + n) * usT 1)
  else none

/-- Task d enters the delay list: by expiry, behind those of the same instant (R227). -/
def State.enterDelay (s : State) (d : Nat) : State :=
  let l := s.dsp.delays.filter (· != d)
  let before := fun x => decide ((s.task x).dueT ≤ (s.task d).dueT)
  { s with dsp := { s.dsp with delays := l.takeWhile before ++ d :: l.dropWhile before } }

/-- Task d, its DEP standing, passes through WAIT or DELAY on a timebase, or becomes ready at once (R219, R226). -/
def State.beginWait (s : State) (d base delay : Nat) : State :=
  let t := s.task d
  match s.dueOf base delay with
  | none => if t.dep = 0 then s.enterReady 0 false d else s.setTask d { t with st := .wait, due := none }
  | some (n, at_) =>
    (s.setTask d { t with st := if t.dep = 0 then .delay else .wait, due := some n, dueSub := base == 2, dueT := at_ }).enterDelay d

/-- The instance of descriptor d that begins now, a waiting one with its frame and mark: DEP, TMO and the wait it enters. -/
def State.startInstance (s : State) (d : Nat) : State :=
  let t := s.task d
  let t := { t with dep := t.depInit, tmo := false, aband := t.again && t.againAb, again := false, againAb := false,
                    frame := if t.again then t.againFrame else s.frm.frame.toNat }
  (s.setTask d t).beginWait d t.tbase t.delay

/-- Task d's thread starts on an idle processor where the instance that began now is ready. -/
def State.kickReady (s : State) (d : Nat) : State := if (s.task d).st = .ready then s.kick 0 d else s

/-- Take task d out of every list. -/
def State.unlist (s : State) (d : Nat) : State :=
  let k := readyKey (s.task d)
  let s := s.setReady k ((s.readyList k).filter (· != d))
  { s with dsp := { s.dsp with delays := s.dsp.delays.filter (· != d) } }

/-- A pending instance of kernel d is dropped as superseded. -/
def State.supersede (s : State) (d : Nat) : State :=
  let s := s.trace 0xB d 15
  { s with dsp := { s.dsp with tSuper := s.dsp.tSuper + 1, fault := s.dsp.fault ||| 2 } }.pulse 0xC

/-- A release is counted (R229, RELCNT) and traced, the instance standing as it leaves it. -/
def State.countRelease (s : State) (d : Nat) : State :=
  let s := s.setTask d { s.task d with relcnt := (s.task d).relcnt + 1 }
  { s with dsp := { s.dsp with tRel := s.dsp.tRel + 1 } }.trace 1 d 15

/-- FP3 resumes from its clock gating at a release (R432): the threads paused in it go on, and are not judged at this tick. -/
def State.fp3Resume (s : State) : State :=
  { s with pwr := { s.pwr with fp3Gated := false, fp3Grace := true } }.startThread 0 3

/-- A new instance of d waits until the one before has completed (R220). -/
def State.waitAgain (s : State) (d : Nat) : State :=
  s.setTask d { s.task d with again := true, againAb := false, againFrame := s.frm.frame.toNat }

/-- A release of descriptor d. A trailing kernel that has not been dispatched keeps its instance until U0 (log 35); a
thread still pending merges the release (R21). -/
def State.releaseTask (s : State) (d : Nat) : State :=
  let t := s.task d
  if t.cls = .unused then s
  else if t.st = .idle then ((s.startInstance d).countRelease d).kickReady d
  else if t.cls = .thread then
    if t.affin = 3 ∧ s.pwr.fp3Grace then s else
    let fwo := if t.period = 1 then s.dsp.fwOvr ||| BitVec.ofNat 4 (2 ^ t.affin) else s.dsp.fwOvr
    { s with dsp := { s.dsp with merged := satInc s.dsp.merged, fwOvr := fwo } }
  else if t.st = .run ∨ t.cls = .trailing then
    ((if t.again then s.supersede d else s).waitAgain d).countRelease d
  else (((s.unlist d).supersede d).startInstance d).countRelease d

/-- A release of descriptor d; none is made of a thread of FP3 while stage 2 gates it (R432). -/
def State.releaseOne (s : State) (d : Nat) : State :=
  let t := s.task d
  if t.cls = .thread ∧ t.affin = 3 ∧ s.pwr.fp3Gated then
    if 2 ≤ s.pwr.stage then s else s.fp3Resume.releaseTask d
  else s.releaseTask d

/-- A release of d and of its successors (R219); n bounds the length of a chain. -/
def State.release (s : State) : Nat → Nat → State
  | 0, _ => s
  | n + 1, d =>
    let s := s.releaseOne d
    (s.task d).succ.foldl (fun s x => s.release n x) s

/-- Bound on the length of successor chains: there are no more descriptors, so every chain without a cycle is followed whole. -/
def chainMax : Nat := 1024

/-- Every descriptor whose PERIOD divides the frame number is released at the tick (R219); kernels only in a head whose
axes run or start (R237, R252). -/
def State.releaseFrame (s : State) (kernels : Bool) : State :=
  let ds := s.dsp.tasks.filterMap fun x =>
    if x.2.period ≠ 0 ∧ s.frm.frame.toNat % x.2.period = 0 ∧ (kernels ∨ x.2.cls = .thread) then some x.1 else none
  let s := ds.foldl (fun s d => s.release chainMax d) s
  { s with pwr := { s.pwr with fp3Grace := false } }

/-! ## Dependence counters (R221, R222) -/

/-- A trailing kernel whose SSI input has not been delivered yet: it becomes ready with the delivery (R146). -/
def State.ssiWaits (s : State) (d : Nat) : Bool :=
  decide (256 ≤ d ∧ d < 512) && match s.ssiInput (d - 256) with
    | some e => (s.enc e).ssiBusy
    | none => false

/-- A decrement of descriptor d's DEP, n CK_CORE cycles from now. One that comes after the task's timeout, or finds it at zero
after one, is discarded (R222, R228); a thread that has blocked again takes it. -/
def State.decrement (s : State) (n d : Nat) : State :=
  let t := s.task d
  let s := s.pulse 0xD
  if t.tmo ∧ (t.dep = 0 ∨ t.st ≠ .wait) then s
  else if t.dep = 0 then
    ({ s with dsp := { s.dsp with fault := s.dsp.fault ||| 1 } }.traceIn n 0xC d 15).raiseDevOnce evDepFault []
  else
    let s := s.setTask d { t with dep := t.dep - 1 }
    if t.dep = 1 ∧ t.st = .wait ∧ !s.ssiWaits d then ((s.enterReady n false d).traceIn n 2 d 15).kick n d else s

/-- Several descriptors' decrements of one cycle. -/
def State.decrements (s : State) (n : Nat) (l : List Nat) : State := l.foldl (fun s d => s.decrement n d) s

/-- Instance d completes at a server: its successors' DEP fall by one in the next CK_CORE cycle, and a new instance that
waited begins (R220, R221). -/
def State.complete (s : State) (d server : Nat) : State :=
  let s := s.trace 5 d server
  let t := s.task d
  let s := s.setTask d { t with st := .idle }
  let s := { s with dsp := { s.dsp with tDone := s.dsp.tDone + 1 } }
  let s := s.decrements 1 t.succ
  if t.again then (s.startInstance d).kickReady d else s

/-- Kernel d completes on its lane group. -/
def State.completeKernel (s : State) (d : Nat) : State :=
  let k := (s.task d).lane
  let s := { s with dsp := { s.dsp with lanes := tset 0 k 0 s.dsp.lanes } }.pulse 7
  s.complete d k

/-- Kernel d runs. -/
def State.running (s : State) (d : Nat) : Bool := (s.task d).st == .run

/-! ## The trailing gate (R225) -/

/-- A critical instance that holds the gate of frame f. -/
def Task.holdsGate (f : Nat) (t : Task) : Bool :=
  t.cls == .critical && ((t.again && t.againFrame == f && !t.againAb) || (t.st != .idle && t.frame == f && !t.aband))

/-- The gate of the present frame opens once its tick has taken effect and nothing holds it. -/
def State.gateCheck (s : State) : State :=
  let f := s.frm.frame.toNat
  if s.dsp.gate ∨ s.dsp.gateFrame = f + 1 ∨ !s.frm.run ∨ s.frm.first ∨ s.frm.tickPend ∨ s.dsp.tasks.any (fun x => x.2.holdsGate f) then s
  else { s with dsp := { s.dsp with gate := true, gateFrame := f + 1 } }

/-- An instance of the task is still to be marked abandoned: the waiting one, else the present one. -/
def Task.unmarked (t : Task) : Bool := if t.again then !t.againAb else t.st != .idle && !t.aband

/-- The mark of a missed deadline (R225, R498): on the instance of the frame that misses it. -/
def Task.mark (t : Task) : Task := if t.again then { t with againAb := true } else { t with aband := true }

/-- Critical kernels are marked abandoned (R225, R498). -/
def State.abandon (s : State) (ds : List Nat) : State :=
  let l := ds.filter fun d => (s.task d).unmarked
  let s := l.foldl (fun s d => (s.setTask d (s.task d).mark).trace 8 d 15) s
  (s.pulseN 0xA 1 l.length).gateCheck

/-! ## Commands -/

/-- The lowest-numbered free lane group. -/
def State.freeLane (s : State) : Option Nat := (List.range 8).find? fun k => tget 0 s.dsp.lanes k == 0

/-- Place the head of a shared level on a lane group, in the cycle in which it is ready or later. -/
def State.place (s : State) (l k : Nat) : State :=
  match s.readyList l with
  | [] => s
  | d :: r =>
    let s := (s.goto (s.task d).readyAt).setReady l r
    let s := s.setTask d { s.task d with st := .run, lane := k }
    let s := { s with dsp := { s.dsp with lanes := tset 0 k (d + 1) s.dsp.lanes } }
    ((s.trace 4 d k).pulse (if l = 0 then 5 else 6)).tagDispatch d k

/-- A trailing kernel stands at the head of level 1 that the open gate admits. -/
def State.gateAdmits (s : State) : Bool :=
  s.dsp.gate && match s.readyList 1 with
    | [] => false
    | d :: _ => (s.task d).frame + 1 == s.dsp.gateFrame

/-- KERNEL_DISPATCH (R225). A standby dispatches none (R237), a new head none before its axes have started (R254). -/
def execKernelDispatch (s : State) : Out :=
  let s := s.gateCheck
  .next <| match s.freeLane with
    | none => s
    | some k =>
      if s.red.restartOn ∨ s.frm.role = .standby then s
      else if !(s.readyList 0).isEmpty then s.place 0 k
      else if s.gateAdmits then s.place 1 k
      else s

/-- CK_CORE cycles of a slot event's path to the dispatcher, and of decrement and insertion after it; together t_val (R223). -/
def pathCycles : Nat := 24
def insertCycles : Nat := 8
/-- CK_CORE cycles of t_pack (R171). -/
def packCycles : Nat := 128

/-- The kernels bound to a slot key. -/
def State.bound (s : State) (k : Nat) : List Nat := tget [] s.dsp.bind k

/-- SLOT_EVENT (R223): the first event of a slot in a frame decrements its bound kernels, which stand in their list after the
cycles of insertion. -/
def execSlotEvent (b : Fin 8) (p : Fin 32) (s : State) : Out :=
  let n := s.node b p
  .next <| match n.evPend with
    | none => s
    | some ph =>
      let s := s.gotoPhase ph
      let s := s.setNode b p { n with evPend := none, evDone := true }
      if n.evDone then s else s.decrements insertCycles (s.bound (nodeKey b p))

/-- LN_FEEDBACK_VALID (R221): S + 500 ns. -/
def execLnFeedbackValid (s : State) : Out :=
  .next <| if !s.frm.run then s else
    let s := s.goto (s.instS + nsT 500)
    s.decrements 0 (s.bound 256)

/-- The firmware admits a thread descriptor (R217, R218): an index that no kernel holds, a level from 2 to 7, field values that
the words of R217 can carry, successors that are valid descriptors. -/
def State.admits (s : State) (d : Nat) (x : ThreadDesc) : Bool :=
  let c := (s.task d).cls
  (c == .unused || c == .thread) && decide (2 ≤ x.level ∧ x.level ≤ 7 ∧ x.depInit ≤ 255 ∧ x.period < 65536 ∧ x.tbase ≤ 2) &&
  decide (x.succ.length ≤ 4) && x.succ.all (fun y => (s.task y).cls != .unused) && (s.task d).st == .idle &&
  (x.tbase == 0 || decide (1 ≤ x.delay ∧ x.delay < (if x.tbase = 1 then 65536 else 2 ^ 24)))

/-- The descriptor a firmware thread creates. -/
def ThreadDesc.task (x : ThreadDesc) : Task :=
  { cls := .thread, level := x.level, affin := x.fp, depInit := x.depInit, obj := x.obj, entry := x.entry, period := x.period,
    tbase := x.tbase, delay := x.delay, succ := x.succ.map fun y => y.val }

/-- The release of a thread by a firmware write. -/
def State.releaseThread (s : State) (d : Nat) : State :=
  if (s.task d).cls = .thread then
    let s := s.release chainMax d
    { s with pwr := { s.pwr with fp3Grace := false } }
  else s

/-- FIRMWARE_RELEASE (R219): a firmware write releases a thread. The same write may create its descriptor, which the firmware
refuses where it departs from R218, or remove it (R217; log 33). -/
def execFirmwareRelease (x : FwAct) (s : State) : Out :=
  .next <| match x.w with
    | .release => s.releaseThread x.d
    | .create y => if s.admits x.d y then (s.setTask x.d y.task).releaseThread x.d else s
    | .remove => if (s.task x.d).cls = .thread ∧ (s.task x.d).st = .idle then s.setTask x.d {} else s

/-- FIRMWARE_SIGNAL (R221): a firmware signal write naming a descriptor. -/
def execFirmwareSignal (d : Fin 1024) (s : State) : Out :=
  .next <| if (s.task d).cls = .unused then s else s.decrement 0 d

/-- An entry of the delay list whose instant has been reached. -/
def State.expired (s : State) (d : Nat) : Bool :=
  let t := s.task d
  match t.due with
  | none => false
  | some n => if t.dueSub then n ≤ s.dsp.subTick else n ≤ s.frm.frame.toNat

/-- The entry that leaves the delay list next (R227): the first whose instant has been reached. -/
def State.leaves (s : State) (d : Nat) : Bool := s.dsp.delays.find? (fun x => s.expired x) == some d

/-- The CK_CORE cycle in which an expiry is decided (R227): a sub-tick comes with the latency of R15, a frame tick has taken
effect. -/
def State.gotoExpiry (s : State) (d : Nat) : State :=
  if (s.task d).dueSub ∧ (s.task d).due = some s.dsp.subTick then s.gotoLatency (s.frm.now / usT 1 * usT 1 + fieldCycle) else s

/-- DELAY_EXPIRY (R227). -/
def execDelayExpiry (d : Fin 1024) (s : State) : Out :=
  .next <| if s.leaves d ∧ (s.task d).st = .delay then
    (((s.gotoExpiry d).enterReady 0 true d).trace 3 d 15).kick 0 d
  else s

/-- TIMEOUT_EXPIRY (R228): the task becomes ready with TMO = 1. -/
def execTimeoutExpiry (d : Fin 1024) (s : State) : Out :=
  .next <| if s.leaves d ∧ (s.task d).st = .wait ∧ (s.task d).dep ≠ 0 then
    let s := s.gotoExpiry d
    let s := s.setTask d { s.task d with tmo := true }
    let s := { s with dsp := { s.dsp with tmoCnt := satInc s.dsp.tmoCnt, fault := s.dsp.fault ||| 4 } }
    (((s.enterReady 0 true d).trace 0xA d 15).pulse 0xE).kick 0 d
  else s

/-- The thread that executes on FPn; a clock-gated FP3 executes none (R432). -/
def State.runningOn (s : State) (fp : Nat) : Option Nat :=
  let x := tget 0 s.dsp.running fp
  if x = 0 ∨ (fp = 3 ∧ s.pwr.fp3Gated) then none else some (x - 1)

/-- FPn runs no thread. -/
def State.idleFp (s : State) (fp : Nat) : State := { s with dsp := { s.dsp with running := tset 0 fp 0 s.dsp.running } }

/-- THREAD_PREEMPT (R226): a thread of a strictly higher level takes the processor. -/
def execThreadPreempt (fp : Fin 4) (s : State) : Out :=
  .next <| match s.runningOn fp, s.topLevel fp with
    | some d, some l =>
      let t := s.task d
      if l < t.level then
        let s := s.setTask d { t with st := .preempted }
        let s := (s.setReady (readyKey t) (d :: s.readyList (readyKey t))).noteDepth t.level
        let s := { s with dsp := { s.dsp with preempt := tmod 0 fp (fun n => satAdd 8 n 1) s.dsp.preempt } }
        (((s.idleFp fp).trace 6 d (8 + fp)).pulse (0x12 + 4 * fp)).startThread 0 fp
      else s
    | _, _ => s

/-- The thread on FPn completes its release; the next ready thread runs (R226). -/
def State.finishThread (s : State) (fp : Nat) : State :=
  match s.runningOn fp with
  | none => s
  | some d => ((s.idleFp fp).complete d (8 + fp)).startThread 0 fp

/-- THREAD_BLOCK (R226): at t the thread waits inside its release, on its present DEP, on a delay, or on both. DEP and TMO are not
reloaded; the descriptor keeps its own timebase and delay. -/
def execThreadBlock (fp : Fin 4) (base : Fin 3) (delay t : Nat) (s : State) : Out :=
  .next <| match s.runningOn fp with
    | none => s
    | some d => (((s.goto t).idleFp fp).beginWait d base (delay % 2 ^ 24)).startThread 0 fp

/-- THREAD_YIELD (R226): the thread goes to the tail of its level's list. -/
def execThreadYield (fp : Fin 4) (s : State) : Out :=
  .next <| match s.runningOn fp with
    | none => s
    | some d => ((s.idleFp fp).enterReady 0 false d).startThread 0 fp

/-- SUB_TICK (R227): the 1 µs sub-tick. -/
def execSubTick (s : State) : Out :=
  let s := (s.goto ((s.frm.now / usT 1 + 1) * usT 1)).pulseX 0x23
  .next { s with dsp := { s.dsp with subTick := s.dsp.subTick + 1 } }

/-! ## Overruns and skips (R18, R20 to R22, R498) -/

/-- EV_FRAME_OVERRUN of axis i (R18). -/
def State.frameOverrun (s : State) (i : Nat) : State :=
  let first := !s.frm.critOvr
  let s := { s with frm := { s.frm with
      critOvr := true, ovr := s.frm.ovr ||| 1, critCnt := if first then satAdd 16 s.frm.critCnt 1 else s.frm.critCnt } }
  s.raiseAx evFrameOverrun i []

/-- The zones of which every axis's kernel has been marked abandoned or its deadline has passed (R498). -/
def State.zoneDue (s : State) (z : Nat) : Bool :=
  let past := fun i => if s.isLn i then s.instA ≤ s.frm.now + usT 1 else (s.branch (s.axBranch i)).ddl
  past (s.pn 6 z 1) && past (s.pn 6 z 2)

/-- Tension-zone kernels whose deadline has passed are marked abandoned. -/
def State.abandonZones (s : State) : State :=
  let zs := s.zoneIds.filter fun z => s.zoneDue z && (s.task (dZnCrit z)).st != .idle
  let s := zs.foldl (fun s z => s.setZone z { s.zone z with aband := !(s.zone z).critDone }) s
  s.abandon (zs.map dZnCrit)

/-- Axes' unfinished critical kernels miss their deadline. -/
def State.missDeadline (s : State) (ids : List Nat) : State :=
  let l := ids.filter fun i => !(s.axis i).critDone && !(s.axis i).aband
  let s := s.mapAxes (fun _ a => { a with aband := true }) l
  let s := l.foldl (fun s i => s.frameOverrun i) s
  s.abandon (l.map dAxCrit)

/-- LN_KERNEL_DEADLINE (R498): A − 1 µs. An LN kernel that is not finished hands over no increment (R134). -/
def execLnKernelDeadline (s : State) : Out :=
  .next <| if !s.frm.run then s else
    let s := s.goto (s.instA - usT 1)
    (s.missDeadline (s.axisIds.filter s.isLn)).abandonZones

/-- OVERRUN_SERIES (R22): the third frame of an unbroken run. -/
def execOverrunSeries (s : State) : Out :=
  .next <| if s.frm.critOvr ∧ 2 ≤ s.frm.series ∧ !s.frm.seriesDone then
    { s with frm := { s.frm with seriesDone := true, ovr := s.frm.ovr ||| 2 } }.raiseDev evOverrunSeries []
  else s

/-- An undispatched trailing kernel of an earlier frame. -/
def Task.skippable (f : Nat) (t : Task) : Bool :=
  t.cls == .trailing && t.frame < f && (t.st == .wait || t.st == .delay || t.st == .ready)

/-- The trailing kernel d is skipped: counted, its event raised, and the instance that waited for it begins. -/
def State.skipOne (s : State) (d : Nat) : State :=
  let t := s.task d
  let s := s.unlist d
  let s := (s.setTask d { t with st := .idle }).trace 9 d 15
  let s := { s with dsp := { s.dsp with tSkip := s.dsp.tSkip + 1 } }.pulse 0xB
  let s := if d < 512 then
      let i := d - 256
      (s.setAxis i { s.axis i with skips := (s.axis i).skips + 1 }).raise evTrailSkip i (2 ^ s.axGroup i) []
    else (s.setZone (d - 576) { s.zone (d - 576) with skip := true }).raise evTrailSkip (d - 576) (s.zoneGroups (d - 576)) []
  if t.again then (s.startInstance d).kickReady d else s

/-- U0_TRAILING_SKIP (R20, R225): undispatched trailing kernels of the previous frame are skipped, the gate closes. -/
def execU0TrailingSkip (s : State) : Out :=
  .next <| if !s.frm.run then s else
    let s := s.goto s.instU0
    let f := s.frm.frame.toNat
    let l := s.dsp.tasks.filterMap fun x => if x.2.skippable f then some x.1 else none
    let s := l.foldl (fun s d => s.skipOne d) s
    let s := if l.isEmpty then s else
      { s with frm := { s.frm with ovr := s.frm.ovr ||| 4, trailCnt := satAdd 16 s.frm.trailCnt 1 } }
    { s with dsp := { s.dsp with gate := if s.dsp.gateFrame = f + 1 then s.dsp.gate else false } }.gateCheck

/-- FW_DEADLINE (R21): the frame-bound thread of FPn has overrun its tick. -/
def execFwDeadline (fp : Fin 4) (s : State) : Out :=
  let bit : BitVec 4 := BitVec.ofNat 4 (2 ^ fp.val)
  .next <| if s.dsp.fwOvr &&& bit = 0 then s else
    { s with dsp := { s.dsp with fwOvr := s.dsp.fwOvr &&& ~~~bit },
             frm := { s.frm with ovr := s.frm.ovr ||| 8 ||| BitVec.ofNat 32 (2 ^ (8 + fp.val)) } }.raiseDev evFwOverrun []

/-! ## Register words (R217, R233) -/

def TaskClass.code : TaskClass → Nat
  | .critical => 0
  | .trailing => 1
  | .thread => 2
  | .unused => 3

def TaskSt.code : TaskSt → Nat
  | .idle => 0
  | .wait => 1
  | .delay => 2
  | .ready => 3
  | .run => 4
  | .preempted => 5

/-- Two successor fields of a descriptor word. -/
def succWord (l : List Nat) (k : Nat) : W32 :=
  let f : Nat → Nat := fun j => match l[j]? with
    | some d => 32768 + d
    | none => 0
  BitVec.ofNat 32 (f (k + 1) * 65536 + f k)

/-- The eight words of a descriptor. -/
def Task.words (t : Task) : List W32 :=
  [BitVec.ofNat 32 (t.cls.code * 2 ^ 30 + t.level * 2 ^ 27 + t.affin * 2 ^ 25 + t.depInit * 65536 + t.obj.toNat), t.entry,
   BitVec.ofNat 32 (t.dep * 2 ^ 24 + t.st.code * 2 ^ 20 + b2n t.tmo * 2 ^ 19 + t.period),
   BitVec.ofNat 32 (t.tbase * 2 ^ 30 + t.delay), succWord t.succ 0, succWord t.succ 2, t.relcnt, 0]

end Sys2Proof.Machine
end

