-- ==== Sys2Proof/Machine/Relay.lean ====
section
/-! DEFINITION. A part in the node role on its branch: its delays with the path trims, the frames it repeats between B0 and B1,
the fences they meet (R155, R160, R163, R203, R205, R210, R238); the reception of a frame at a port. -/

namespace Sys2Proof.Machine

/-! ## Delays -/

/-- The branch a reception at port b belongs to. -/
def State.joinKey (s : State) (b : Nat) : Nat := if s.frm.role = .node then s.pn 2 0 16 else b

/-- The branch NET_NSYNC describes and the clock follows (R202, R215; log 37): in the node role NROLE.BRANCH, else the
lowest-numbered one in SYNC. -/
def State.syncBranch (s : State) : Nat :=
  if s.frm.role = .node then s.pn 2 0 16
  else ((List.range 8).find? fun b => (s.join b).st == .sync).getD 0

/-- The part's own delay toward the head it hears at a port, in 0.2 ns: Δ_b in the standby role; in the node role D_p at B0
and D'_p at the other port, with the trims received (R202, R203, R238). -/
def State.ownDelay (s : State) (k port : Nat) : Int :=
  if s.frm.role = .node then
    let j := s.join k
    let d := s.pathDelay k (s.pn 2 0 17)
    if port = 0 then (d : Int) + j.dTrim else ((s.endDelay k - d : Nat) : Int) + j.dTrimR
  else (s.endDelay k : Int)

/-- The port on the head's side in the orientation the part is in (R210, R238). -/
def State.headPort (s : State) : Nat := if s.rev then 1 else 0

/-- The start of a frame that is to reach the head port at t: t less the part's own D_p with its trims (R163, R177, R203). -/
def State.txAt (s : State) (t : Nat) : Nat := ((t : Int) - s.ownDelay (s.pn 2 0 16) s.headPort).toNat

/-- t_tx(p) of the part in the node role (R163). -/
def State.ownSlot (s : State) : Nat := s.txAt (s.slotStart (s.pn 2 0 16) (s.pn 2 0 17))

/-- The part transmits on its branch: in HOLD, and in SYNC from the frame after it was entered (R199). -/
def State.nodeSpeaks (s : State) : Bool :=
  let j := s.join (s.pn 2 0 16)
  s.frm.role == .node && s.frm.run && !s.red.silentTx && (j.st == .hold || (j.st == .sync && j.syncFrom != s.frm.frame))

/-- The grant map of the frame's valid CSM. -/
def State.ownGrant (s : State) : Nat :=
  match (s.join (s.pn 2 0 16)).kept with
  | some c => c.grant.toNat
  | none => 0

/-! ## Fences (R205) -/

/-- The pass instants π of the node's head-side port in the present frame. -/
def State.passes (s : State) : List Nat :=
  let b := s.pn 2 0 16
  let g := s.ownGrant
  ((List.range (s.nS b)).filter fun k => s.slotIdx b (s.pn 2 0 17) ≤ k).map (fun k => s.txAt (s.instU0 + k * s.lS * s.tB)) ++
  ((List.range (s.mB b)).filter fun m => bitOf g m).map (fun m => s.txAt (s.msStart b g m)) ++ [s.txAt s.eDyn]

/-- The fences of the present frame: 13 byte times before each pass. -/
def State.fences (s : State) : List Nat := s.passes.map fun t => t - 13 * s.tB

/-- Start and byte times of the frames the part sends itself in the present frame. -/
def State.ownFrames (s : State) : List (Nat × Nat) :=
  let b := s.pn 2 0 16
  let g := s.ownGrant
  if !s.nodeSpeaks then [] else
  (s.ownSlot, s.lS - guardB) ::
  ((List.range (s.mB b)).filter fun m => bitOf g m && s.msOwner b m == s.pn 2 0 17).map fun m =>
    (s.txAt (s.msStart b g m), s.msWidth b (s.pn 2 0 17) - guardB)

/-- A frame that begins to arrive at t for repeat on the head side is discarded: from 13 byte times before a frame of the part's
own until 12 byte times after it. -/
def State.yieldsTo (s : State) (t : Nat) : Bool :=
  s.ownFrames.any fun x => decide (x.1 ≤ t + 13 * s.tB ∧ t ≤ x.1 + (x.2 + 12) * s.tB)

/-- A repeated frame that a fence at t meets in progress ends there with a PCS error code; its remaining bytes are discarded. -/
def Rep.fence (tB t : Nat) (r : Rep) : Rep :=
  if r.start < t ∧ t < r.start + wireB r.bytes * tB then { r with bytes := r.bytes.take ((t - r.start) / tB - 8), cut := true } else r

/-- A part in the node role repeats a frame that began to arrive at t on port b: 40 byte times later on its other port (R210),
whatever the frame's TYPE (R160). Toward the head, a frame beside the part's own is discarded, and a fence cuts it. -/
def State.relay (s : State) (b t : Nat) (f : List Byte) : State :=
  let q := 1 - b
  let r : Rep := { start := t + 40 * s.tB, bytes := f }
  if s.frm.role ≠ .node ∨ 2 ≤ b ∨ (q = s.headPort ∧ s.yieldsTo t) then s
  else
    let r := if q = s.headPort then s.fences.foldl (fun r x => r.fence s.tB x) r else r
    { s with net := { s.net with rep := tset {} q r s.net.rep } }.bwFrame q 1 r.bytes.length

/-! ## A reception -/

/-- A reception has ended: device time reaches its last byte, the bytes pass the port's monitor, a PCS error is flagged, and a
part in the node role repeats the frame. -/
def State.rxFrame (s : State) (b t : Nat) (f : List Byte) (err : Bool) : State :=
  let s := (s.goto (t + wireB f * s.tB)).bwFrame b 0 f.length
  let s := if err then s.setPort b { s.port b with pcsErr := true } else s
  s.relay b t f

end Sys2Proof.Machine
end

