-- ==== Sys2Proof/Machine/Network.lean ====
section
/-! DEFINITION. The Mylia-TT cycle as the head runs it: static slots and their outcomes, dynamic credits, the command block,
dynamic downlink frames, path trims, links (R153 to R190, R200, R203). Frame receptions carry the device time t of the frame's
start (its first preamble byte) at the port. -/

namespace Sys2Proof.Machine

/-- The head runs its cycle on branch b. -/
def State.headBranch (s : State) (b : Nat) : Bool := s.isHead && (s.branch b).inCycle

/-! ## Static slots (R167 to R170, R200) -/

/-- Offset of a frame's start from a nominal start, in 0.2 ns. -/
def offsetOf (t nominal : Nat) : Int := (t : Int) - nominal

/-- An offset in ns, rounded to the nearest, halves away from zero, saturating (R190). -/
def offsetNs (o : Int) : W16 :=
  let m := (o.natAbs * 2 + 5) / 10
  BitVec.ofInt 16 (if o < 0 then -(min m 32767 : Nat) else (min m 32767 : Nat))

/-- The acceptance window: |offset| at or below G/2 (R167). -/
def inWindow (tB : Nat) (o : Int) : Bool := o.natAbs ≤ 16 * tB

/-- The slot whose acceptance window holds a start, among n slots. -/
def State.slotClaim (s : State) (b t : Nat) : Nat → Option Nat
  | 0 => none
  | p + 1 => if inWindow s.tB (offsetOf t (s.slotStart b p)) then some p else s.slotClaim b t p

/-- A frame passes every test of R167 but the window. -/
def State.staticOk (s : State) (b p : Nat) (f : List Byte) (err : Bool) : Bool :=
  let h := frameHdr f
  intact f err && h.ty == 3 && h.dir && h.branch == b && h.pos == p && h.fcnt == s.frm.frame.toNat % 65536 &&
  h.epoch == s.net.epoch.toNat && f.length == s.lS - guardB - 8

/-- A node's offset registers after a VALID or LATE frame (R190). -/
def Node.seeOffset (n : Node) (o : Int) : Node :=
  let w := offsetNs o
  { n with lastOfs := w, ofs := o,
           ofsMax := if n.ofsMax = 0x8000 ∨ n.ofsMax.slt w then w else n.ofsMax,
           ofsMin := if n.ofsMin = 0x7FFF ∨ w.slt n.ofsMin then w else n.ofsMin }

/-- The running average of R203 takes an offset at or below G byte times. -/
def Node.average (n : Node) (tB : Nat) (o : Int) : Node :=
  if o.natAbs ≤ guardB * tB ∧ n.discard = 0 then { n with avgSum := n.avgSum + o, avgN := n.avgN + 1 } else n

/-- A stray frame on branch b (R169). -/
def State.stray (s : State) (b : Nat) : State :=
  let x := s.branch b
  (s.setBranch b { x with stray := satInc x.stray }).raiseOnce evStray b allGroups []

/-- The contents of a VALID static frame as the head keeps them (R165). -/
def State.nodeTake (s : State) (b p : Nat) (f : List Byte) (n : Node) : Node :=
  let types := (s.nodeAxes b p).map s.axType
  let (smp, o) := smpsAt f types 28
  let naux := s.nodePar b p 5
  let nstat : Byte := BitVec.ofNat 8 (beAt f 22 1)
  { n with prov := .valid, smp := smp, udc := BitVec.ofNat 16 (beAt f 26 2),
           aux := (List.range naux).map (fun k => BitVec.ofNat 16 (beAt f (o + 2 * k) 2)),
           fresh := true, nstat := nstat, urg := bitOf (beAt f 23 1) 7, pend := beAt f 23 1 % 16,
           sup := slice f (o + 2 * naux) (s.nodePar b p 6), keeper := nstat.msb }

/-- The head's critical slots on branch b: the positions that carry axes. -/
def State.lastCritPos (s : State) (b : Nat) : Option Nat :=
  (s.slotOrder b).reverse.find? fun p => !(s.nodeAxes b p).isEmpty

/-- The slot of position p has its event at device time t: on its way to the dispatcher (R223). -/
def State.slotHappens (s : State) (b p t : Nat) : State :=
  let n := s.node b p
  let s := if n.evDone ∨ n.evPend.isSome then s
    else s.setNode b p { n with evPend := some (s.phaseAt t + 25 * pathCycles) }
  if n.evDone ∨ n.evPend.isSome then s
  else if s.lastCritPos b = some p then s.setBranch b { s.branch b with fbT := t }
  else if (s.branchAxes b).isEmpty ∧ s.slotIdx b p + 1 = s.nS b then
    s.setBranch b { s.branch b with packAt := some (s.phaseAt t + 25 * (pathCycles + insertCycles + packCycles)) }
  else s

/-- A VALID frame of the slot of position p. -/
def State.slotValid (s : State) (b p t : Nat) (f : List Byte) : State :=
  let o := offsetOf t (s.slotStart b p)
  let n := s.nodeTake b p f (((s.node b p).seeOffset o).average s.tB o)
  let isEdge : Bool := 8 * s.tB < o.natAbs
  let join := !n.present
  let n := { n with edge := isEdge, cEdge := if isEdge then satInc n.cEdge else n.cEdge, present := true,
                    joins := if join then satAdd 8 n.joins 1 else n.joins }
  let s := s.setNode b p n
  let s := if isEdge then (s.pulseX 0x59).raiseNode evSlotEdge b p [] else s
  let s := if (frameHdr f).keeper then s.pulseX 0x5A else s
  let s := if join then s.raiseNode evNodeJoin b p [] else s
  s.slotHappens b p (t + wireB f * s.tB)

/-- A static uplink frame judged against the slots (R167, R169). -/
def State.judgeStatic (s : State) (b t : Nat) (f : List Byte) (err : Bool) : State :=
  let h := frameHdr f
  match s.slotClaim b t (s.nS b) with
  | some p =>
    let n := s.node b p
    if n.prov = .valid then s.stray b
    else if s.staticOk b p f err then s.slotValid b p t f
    else s.setNode b p { n with prov := if n.prov = .late then .late else .corrupt }
  | none =>
    if hchkOk f ∧ h.ty = 3 ∧ h.branch = b ∧ h.pos < s.nS b ∧ h.fcnt = s.frm.frame.toNat % 65536 then
      let n := s.node b h.pos
      if n.prov = .valid then s.stray b
      else
        let o := offsetOf t (s.slotStart b h.pos)
        s.setNode b h.pos { (n.seeOffset o).average s.tB o with prov := .late }
    else s.stray b

/-- STATIC_FRAME_RECEIVED (R167). In the node role the part repeats the frame (R155, R210). -/
def execStaticFrameReceived (b : Fin 8) (bytes : List Byte) (t : Nat) (err : Bool) (s : State) : Out :=
  .next <| if s.frm.role = .node then s.rxFrame b t bytes err
    else if !s.headBranch b then s else
    let s := s.rxFrame b t bytes err
    if s.net.slotFin.getLsbD b then s.stray b else s.judgeStatic b t bytes err

/-- SLOT_DEADLINE (R168): e_k passes without an accepted frame. -/
def execSlotDeadline (b : Fin 8) (p : Fin 32) (s : State) : Out :=
  .next <| if !s.headBranch b ∨ s.nS b ≤ p.val then s else
    let s := s.goto (s.slotEnd b p)
    s.slotHappens b p (s.slotEnd b p)

/-! ## Dynamic credits (R177 to R179) -/

/-- One grant, if the budget holds it: the map, what each position was granted, the budget left. -/
structure GrantAcc where
  map : Nat := 0
  got : Tbl Nat := []
  budget : Int := 0
  last : Nat := 0
  deriving DecidableEq, Repr

def State.grantTry (s : State) (b m lim : Nat) (normal : Bool) (g : GrantAcc) : GrantAcc :=
  let p := s.msOwner b m
  let cost : Int := ((s.msWidth b p - 64) * s.tB : Nat)
  if !bitOf g.map m ∧ tget 0 g.got p < lim ∧ cost ≤ g.budget then
    { map := g.map + 2 ^ m, got := tmod 0 p (· + 1) g.got, budget := g.budget - cost, last := if normal then m else g.last }
  else g

/-- The requests of a node in the frame before: URG and PEND of its VALID static frame. -/
def Node.wantsUrg (n : Node) : Bool := n.fresh && n.urg
def Node.pends (n : Node) : Nat := if n.fresh then n.pend else 0

/-- A new head bridges: its restart frame is still to come (R252). -/
def State.bridging (s : State) : Bool := s.red.restartOn && decide (s.frm.frame.toNat < s.red.restart.toNat)

/-- A new head's first two frames grant one mini-slot to every node (R252). -/
def State.bridgeGrant (s : State) : Bool := s.red.restartOn && decide (s.frm.frame.toNat ≤ s.red.tkFc.toNat + 1)

/-- The grant map of the next frame (R178); under CALVE only the urgent pass (R184). -/
def State.grantMap (s : State) (b : Nat) : GrantAcc :=
  let mB := s.mB b
  let last := (s.branch b).lastNorm
  let g0 : GrantAcc := { budget := (s.eDyn : Int) - (s.dynStart b + 64 * mB * s.tB : Nat), last := last }
  let g1 := (List.range mB).foldl (fun g m =>
    let n := s.node b (s.msOwner b m)
    if n.wantsUrg || s.bridgeGrant then s.grantTry b m (max n.pends 1) false g else g) g0
  if s.net.calve then g1
  else (List.range mB).foldl (fun g k =>
    let m := (last + 1 + k) % mB
    s.grantTry b m (s.node b (s.msOwner b m)).pends true g) g1

/-- The granted mini-slot whose window holds a start. -/
def State.dynClaim (s : State) (b grant t : Nat) : Nat → Option Nat
  | 0 => none
  | m + 1 => if bitOf grant m && inWindow s.tB (offsetOf t (s.msStart b grant m)) then some m else s.dynClaim b grant t m

/-- A dynamic uplink frame passes every test but the window (R179). -/
def State.dynOk (s : State) (b m : Nat) (f : List Byte) (err : Bool) : Bool :=
  let h := frameHdr f
  intact f err && h.ty == 4 && h.dir && h.branch == b && h.pos == s.msOwner b m && h.fcnt == s.frm.frame.toNat % 65536 &&
  h.epoch == s.net.epoch.toNat && f.length + 8 + guardB ≤ s.msWidth b (s.msOwner b m)

/-- The keeper references a keeper report gives (R183), by the sender's axes. -/
def State.keeperReport (s : State) (b p : Nat) (body : List Byte) : State :=
  (List.range (body.length / 12)).foldl (fun s k =>
    let ch := beAt body (12 * k) 1
    let r0 : F32 := ⟨BitVec.ofNat 32 (beAt body (12 * k + 4) 4)⟩
    let r1 : F32 := ⟨BitVec.ofNat 32 (beAt body (12 * k + 8) 4)⟩
    match (s.nodeAxes b p).find? fun i => s.pn 5 i 2 == ch with
    | some i => { s with red := { s.red with kReport := tset none i (some (r0, r1)) s.red.kReport } }
    | none => s) s

/-- What the head does with a used credit's frame: keeper reports and node-role process data are kept. -/
def State.dynTake (s : State) (b p : Nat) (f : List Byte) : State :=
  if dynClass f = 1 then s.keeperReport b p (dynBody f)
  else if dynClass f = 3 then s.setNode b p { s.node b p with pdIn := dynBody f }
  else s

/-- Outcome of mini-slot m: 1 USED, 2 LATE, 3 CORRUPT; the first of these in that order stands. -/
def State.credit (s : State) (b m c : Nat) : State :=
  let x := s.branch b
  s.setBranch b { x with credit := tmod 0 m (fun o => if o = 0 then c else min o c) x.credit }

/-- DYNAMIC_UPLINK_RECEIVED (R179). In the node role the part repeats the frame (R155, R210). -/
def execDynamicUplinkReceived (b : Fin 8) (bytes : List Byte) (t : Nat) (err : Bool) (s : State) : Out :=
  .next <| if s.frm.role = .node then s.rxFrame b t bytes err
    else if !s.headBranch b then s else
    let s := s.rxFrame b t bytes err
    let x := s.branch b
    let g := x.grant.toNat
    let h := frameHdr bytes
    if s.net.slotFin.getLsbD b then s.stray b
    else match s.dynClaim b g t (s.mB b) with
      | some m =>
        if tget 0 x.credit m = 1 then s.stray b
        else if s.dynOk b m bytes err then (s.credit b m 1).dynTake b h.pos bytes
        else s.credit b m 3
      | none =>
        match (List.range (s.mB b)).find? fun m => bitOf g m && s.msOwner b m == h.pos && tget 0 x.credit m != 1 with
        | some m =>
          if hchkOk bytes ∧ h.ty = 4 ∧ h.branch = b.val ∧ h.fcnt = s.frm.frame.toNat % 65536 then s.credit b m 2 else s.stray b
        | none => s.stray b

/-! ## Outcomes become final (R169, R170, R179) -/

/-- The final outcome of a node's slot: counters, ledger terms, runs. -/
def Node.final (n : Node) : Node :=
  let n := { n with lSched := n.lSched + 1, discard := n.discard - 1, syncRun := if n.prov = Outc.valid then n.syncRun + 1 else 0,
                    emptyRun := if n.prov = Outc.empty then n.emptyRun + 1 else 0,
                    absent := if n.prov = Outc.valid then 0 else satAdd 16 n.absent 1 }
  match n.prov with
  | .valid => { n with cValid := satInc n.cValid, lValid := n.lValid + 1 }
  | .late => { n with cLate := satInc n.cLate, lLate := n.lLate + 1 }
  | .corrupt => { n with cCorrupt := satInc n.cCorrupt, lCorrupt := n.lCorrupt + 1 }
  | _ => { n with cEmpty := satInc n.cEmpty, lEmpty := n.lEmpty + 1 }

def State.finalSlot (s : State) (b p : Nat) : State :=
  let n := s.node b p
  let s := s.setNode b p n.final
  let s := if n.prov = .valid then s else s.pulseX (0x28 + b)
  if n.prov = .late then s.raiseNode evSlotLate b p []
  else if n.prov = .corrupt then s.raiseNode evSlotCorrupt b p []
  else s

/-- Credits of one outcome (1 USED, 2 LATE, 3 CORRUPT; 0 EMPTY) among a frame's granted mini-slots. -/
def Branch.credits (x : Branch) (o : Nat) : Nat :=
  ((List.range 32).filter fun m => bitOf x.grant.toNat m && tget 0 x.credit m == o).length

def Branch.finalCredits (x : Branch) : Branch :=
  { x with crUsed := x.crUsed + x.credits 1, crLate := x.crLate + x.credits 2, crCorrupt := x.crCorrupt + x.credits 3,
           crEmpty := x.crEmpty + x.credits 0, crOut := x.crOut - (x.credits 0 + x.credits 1 + x.credits 2 + x.credits 3) }

/-- SLOT_OUTCOME_FINAL (R169): E_dyn of the frame. -/
def execSlotOutcomeFinal (b : Fin 8) (s : State) : Out :=
  .next <| if !s.headBranch b ∨ s.net.slotFin.getLsbD b then s else
    let s := s.goto s.eDyn
    let s := { s with net := { s.net with slotFin := s.net.slotFin ||| BitVec.ofNat 8 (2 ^ b.val) } }
    let s := (List.range (s.nS b)).foldl (fun s p => s.finalSlot b p) s
    s.setBranch b (s.branch b).finalCredits

/-- NODE_LOST (R200): 8 consecutive EMPTY frames. -/
def execNodeLost (b : Fin 8) (p : Fin 32) (s : State) : Out :=
  let n := s.node b p
  .next <| if n.present ∧ 8 ≤ n.emptyRun then (s.setNode b p { n with present := false }).raiseNode evNodeLost b p [] else s

/-! ## The command block (R18, R171 to R176) -/

/-- Bytes of the record of position p: POS, RLEN, entries, RCRC. -/
def State.recordLen (s : State) (b p : Nat) : Nat := 6 + ((s.nodeAxes b p).map fun i => recEntrySize (s.axType i)).sum

/-- d_rec(p) in 0.2 ns (R176). -/
def State.dRec (s : State) (b p : Nat) : Nat :=
  let n := 8 + 30 + s.pn 3 b 2 + (((List.range (s.nS b)).filter fun q => s.slotIdx b p ≤ s.slotIdx b q).map (s.recordLen b)).sum
  s.nodeDelay b p + n * s.tB + nsT (s.nodePar b p 3)

/-- C_max(b) = A − the largest t_lead + d_rec of the branch (R17, R18, R176). -/
def State.cMax (s : State) (b : Nat) : Nat :=
  s.instA - ((List.range (s.nS b)).map fun p => nsT (s.nodePar b p 4) + s.dRec b p).foldl max 0

/-- The critical kernels of branch b have all completed or been abandoned. -/
def State.branchDone (s : State) (b : Nat) : Bool :=
  (s.branchAxes b).all fun i => (s.axis i).critDone || (s.axis i).aband

/-- The phase at which branch b's command block is packed (R171): t_pack after its last critical completion; on a branch without
axes t_val + t_pack after its last slot's event, or after U0 where it has no slot; none as long as neither has come. -/
def State.packPhase (s : State) (b : Nat) : Option Nat :=
  if s.nS b = 0 then some (s.phaseAt s.instU0 + 25 * (pathCycles + insertCycles + packCycles)) else (s.branch b).packAt

/-- C(b) (R171), seen from U0 or later: never after C_max(b). -/
def State.blockAt (s : State) (b : Nat) : Nat :=
  match s.packPhase b with
  | some p => min (s.timeOfPhase p) (s.cMax b)
  | none => s.cMax b

/-- The queue of dynamic downlink frames after a safety frame and the process-data frames of this frame have entered it; an
entry of the same class and position takes the new payload and keeps its place. -/
def dynEnter (d : DynFrame) (q : List DynFrame) : List DynFrame :=
  if q.any fun x => x.cls == d.cls && x.pos == d.pos && (x.cls == 0 || x.cls == 3) then
    q.map fun x => if x.cls == d.cls && x.pos == d.pos then d else x
  else if d.cls = 0 then d :: q else q ++ [d]

/-- The command block of branch b starts now (R171, R172): the turnaround is measured, the dynamic downlink segment is laid
out, the branch's tagged invocations are packed. -/
def State.startBlock (s : State) (b : Nat) : State :=
  let x := s.branch b
  let f := s.blockFrame b
  let stop := s.frm.now + (wireB f + 12) * s.tB
  let turn := min ((s.frm.now - x.fbT + 4) / 5) 4095
  let meas : Bool := !(s.branchAxes b).isEmpty && decide (s.frm.turn < turn)
  let s := s.setBranch b { x with block := f, blkSent := true, dynFrom := stop, dynAt := stop }
  let s := { s with frm := { s.frm with turn := if meas then turn else s.frm.turn, turnBranch := if meas then b else s.frm.turnBranch } }
  let sf := s.downPdus b 1
  let s := if sf.isEmpty then s else
    s.setBranch b { s.branch b with dynQ := dynEnter { cls := 0, pos := 0, payload := sf } (s.branch b).dynQ }
  (((s.pulseX 0x25).bwFrame b 1 f.length)).tagPack b

/-- COMMAND_BLOCK_START (R171). -/
def execCommandBlockStart (b : Fin 8) (s : State) : Out :=
  let x := s.branch b
  .next <| if !s.headBranch b ∨ s.red.silentTx ∨ s.bridging ∨ x.blkSent ∨ !s.branchDone b ∨ (s.packPhase b).isNone then s
    else
      let s := s.goto (min s.instU0 (s.cMax b))
      (s.goto (s.blockAt b)).startBlock b

/-- COMMAND_BLOCK_DEADLINE (R18): C_max(b). In a new head's bridging frames no kernel has been released that could miss it and no
block is sent; the dynamic downlink segment starts here (R252) and its safety frame carries every downlink PDU (R309). -/
def execCommandBlockDeadline (b : Fin 8) (s : State) : Out :=
  .next <| if !s.headBranch b then s else
    let s := s.goto (s.cMax b)
    let s := s.setBranch b { s.branch b with ddl := true }
    let s := if s.bridging then s else (s.missDeadline (s.branchAxes b)).abandonZones
    if s.red.silentTx ∨ (s.branch b).blkSent then s
    else if s.bridging then
      let sf := s.downPdus b 0 ++ s.downPdus b 1
      let x := s.branch b
      s.setBranch b { x with blkSent := true, dynFrom := s.frm.now, dynAt := s.frm.now,
                             dynQ := if sf.isEmpty then x.dynQ else dynEnter { cls := 0, pos := 0, payload := sf } x.dynQ }
    else s.startBlock b

/-! ## Dynamic downlink frames (R180, R181, R184) -/

/-- The head sends keeper frames: not in the bridging frames of a takeover or yield (R181, R252, R258). -/
def State.sendsKeeper (s : State) : Bool := !s.bridging

/-- The next start on the 64-byte-time grid of the segment at or after dynAt and the present time. -/
def Branch.gridStart (x : Branch) (tB now : Nat) : Nat :=
  x.dynFrom + 64 * tB * ((max x.dynAt now - x.dynFrom + 64 * tB - 1) / (64 * tB))

/-- A frame that starts at t has its last byte at or before E_dyn. -/
def State.dynFits (s : State) (t : Nat) (f : List Byte) : Bool := t + wireB f * s.tB ≤ s.eDyn

/-- The head sends a dynamic downlink or keeper frame on branch b at device time t. -/
def State.sendDyn (s : State) (b t : Nat) (f : List Byte) : State :=
  let s := s.goto t
  (s.setBranch b { s.branch b with dynAt := t + (wireB f + 12) * s.tB }).bwFrame b 1 f.length

/-- A trim has been sent to position p: this frame's offsets and those of the next 4 frames are discarded, then a new average
starts (R203). -/
def Node.sentTrim (n : Node) : Node := { n with discard := 5, avgSum := 0, avgN := 0 }

/-- DYNAMIC_DOWNLINK_FRAME (R180): the keeper frame, then safety frames, then the others. -/
def execDynamicDownlinkFrame (b : Fin 8) (s : State) : Out :=
  let x := s.branch b
  .next <| if !s.headBranch b ∨ s.red.silentTx ∨ !x.blkSent then s else
    let t := x.gridStart s.tB s.frm.now
    let kf := s.keeperFrame b
    if s.sendsKeeper ∧ !x.kfSent ∧ s.dynFits t kf then
      let s := s.sendDyn b t kf
      s.setBranch b { s.branch b with kfSent := true, keeperF := kf }
    else
      match x.dynQ.find? fun d => (!s.net.calve || d.cls == 0) && s.dynFits t (s.dynFrame b d) with
      | none => s
      | some d =>
        let f := s.dynFrame b d
        let s := s.sendDyn b t f
        let s := s.setBranch b { s.branch b with dynF := f, dynQ := (s.branch b).dynQ.erase d }
        if d.cls = 2 then s.setNode b d.pos (s.node b d.pos).sentTrim else s

/-! ## Path trims (R203) -/

/-- A quotient rounded to the nearest integer, halves away from zero. -/
def roundDiv (a : Int) (n : Nat) : Int :=
  let q := (a.natAbs * 2 + n) / (2 * n)
  if a < 0 then -(q : Int) else q

/-- The payload of a DLY_TRIM service frame: τ in 0.2 ns, two's complement, most significant byte first (log 36). -/
def trimPayload (tau : Int) : List Byte := beBytes 2 (twos 16 tau)

/-- DLY_TRIM_AVERAGE (R203): 256 offsets have been averaged. A trim enters the downlink queue; its offsets are discarded from the
frame that sends it on (State.sentTrim). -/
def execDlyTrimAverage (b : Fin 8) (p : Fin 32) (s : State) : Out :=
  let n := s.node b p
  .next <| if !s.headBranch b ∨ n.avgN < 256 then s else
    let small : Bool := n.avgSum.natAbs < 256 * s.tB
    let tau := roundDiv n.avgSum 512
    let n' := { n with avgSum := 0, avgN := 0, avgOk := small }
    if small ∨ n.trimLim then s.setNode b p n'
    else if 16 * s.tB < (n.trim + tau).natAbs then (s.setNode b p { n' with trimLim := true }).raiseNode evDlyTrim b p []
    else
      let s := s.setNode b p { n' with trim := n.trim + tau }
      s.setBranch b { s.branch b with dynQ := dynEnter { cls := 2, pos := p, payload := trimPayload tau } (s.branch b).dynQ }

/-! ## The samples of a frame -/

def indexIn (i : Nat) : List Nat → Nat
  | [] => 0
  | x :: r => if x = i then 0 else indexIn i r + 1

/-- The samples of the VALID frame of a node in frame f: the present frame, or an ended one that a kernel still works on. -/
def State.nodeSmp (s : State) (b p f : Nat) : Option NodeSmp :=
  let n := s.node b p
  if f = s.frm.frame.toNat then (if n.fresh then some ⟨f, n.smp, n.aux, n.udc⟩ else none)
  else n.hist.find? fun x => x.frame == f

/-- The axis's entry of its node's VALID frame of frame f (R39). -/
def State.axSample (s : State) (i f : Nat) : Option Smp :=
  if s.isLn i then none else
  match s.nodeSmp (s.axBranch i) (s.axPos i) f with
  | some x => x.smp[indexIn i (s.nodeAxes (s.axBranch i) (s.axPos i))]?
  | none => none

/-- UDC of that frame (R43). -/
def State.axUdc (s : State) (i f : Nat) : W16 :=
  match s.nodeSmp (s.axBranch i) (s.axPos i) f with
  | some x => x.udc
  | none => 0

/-! ## Links (R153, R154, R186, R190) -/

def State.portOf (s : State) (k : Nat) : Port := if k < 8 then s.port k else s.net.firn
def State.setPortOf (s : State) (k : Nat) (p : Port) : State :=
  if k < 8 then s.setPort k p else { s with net := { s.net with firn := p } }

/-- LINK_UP: the PHY of an enabled port reports its link; sync where the PCS is synchronised as well. -/
def execLinkUp (port : Fin 9) (sync : Bool) (t : Nat) (s : State) : Out :=
  let p := s.portOf port
  .next <| if p.phyOn then (s.goto t).setPortOf port { p with link := true, sync := sync } else s

/-- LINK_DOWN (R186): a port loses PCS synchronisation, and its link where the PHY no longer reports it. -/
def execLinkDown (port : Fin 9) (x : SyncLoss) (s : State) : Out :=
  let p := s.portOf port
  let s := (s.goto x.t).setPortOf port { p with link := p.link && x.link, sync := false }
  .next <| if port.val < 8 ∧ (s.branch port).inCycle then s.raiseOnce evLinkDown port allGroups [] else s

/-! ## Register reads with side effects (R190, R215) -/

/-- The word a host read returns. -/
def State.hostWord (s : State) (w : W32) : State :=
  ({ s with host := { s.host with rdata := w, ur := false } }.pulseX 0x48).bwBytes 8 4

/-- A host write of one word arrives (R360, R366). -/
def State.hostWrite (s : State) : State := ({ s with host := { s.host with ur := false } }.pulseX 0x49).bwBytes 8 4

/-- The node NET_SEL selects. -/
def State.selBranch (s : State) : Nat := s.net.sel.toNat / 32
def State.selPos (s : State) : Nat := s.net.sel.toNat % 32

/-- NET_OFSRANGE: both fields are returned and set back. -/
def execNetOfsrange (s : State) : Out :=
  let n := s.node s.selBranch s.selPos
  let s' := s.hostWord (BitVec.ofNat 32 (n.ofsMax.toNat * 65536 + n.ofsMin.toNat))
  .next (s'.setNode s.selBranch s.selPos { n with ofsMax := 0x8000, ofsMin := 0x7FFF })

/-- NET_HEADID_LO. The high half it latches is fused and never changes (R28, R215). -/
def execNetHeadidLo (s : State) : Out := .next (s.hostWord (Config.headId.setWidth 32))

/-- NET_PEERID_LO: latches the high half. -/
def execNetPeeridLo (s : State) : Out :=
  let s' := s.hostWord (s.net.peerId.setWidth 32)
  .next { s' with net := { s'.net with peerIdHi := (s.net.peerId >>> 32).setWidth 32 } }

end Sys2Proof.Machine
end

