-- ==== Sys2Proof/Machine/Flags.lean ====
section
/-! DEFINITION. Status words and register views: what a host read of each read-only or read-write register returns (R33, R190,
R215, R233). A read without a side effect changes nothing, so it is a function of the state. -/

namespace Sys2Proof.Machine

/-- A word from fields: value and lowest bit. -/
def wordOf (l : List (Nat × Nat)) : W32 := BitVec.ofNat 32 ((l.map fun x => x.1 * 2 ^ x.2).sum)

/-! ## FRM (R33) -/

def Role.code : Role → Nat
  | .head => 0
  | .standby => 1
  | .node => 2
  | .none => 3

/-- FRM_STAT. TSYNC is always 1 in the head role while RUN is 1. -/
def State.frmStat (s : State) : W32 :=
  let f := s.frm
  let ts := f.tsync || (f.role == .head && f.run)
  wordOf [(f.role.code, 0), (b2n f.run, 2), (b2n ts, 3), (b2n f.throt, 4), (b2n f.lslock, 5), (f.minclk.toNat, 8)]

/-- FRM_LSYNC. -/
def State.frmLsync (s : State) : W32 :=
  wordOf [(s.pn 1 0 8, 0), (s.pn 1 0 11, 1), (s.pn 1 0 10, 2), (s.pn 1 0 9 / 100, 8)]

def State.timeNs (s : State) : W64 := BitVec.ofNat 64 (toNs s.frm.now)
def State.t0Ns (s : State) : W64 := BitVec.ofNat 64 (toNs s.frm.t0)

/-- Low and high halves of a 64-bit value. -/
def lo32 (x : W64) : W32 := x.setWidth 32
def hi32 (x : W64) : W32 := (x >>> 32).setWidth 32

/-- The FRM block, by offset from its base. -/
def State.frmReg (s : State) (o : Nat) : Option W32 :=
  let f := s.frm
  if o = 0x00 then some (BitVec.ofNat 32 f.period)
  else if o = 0x04 then some s.frmStat
  else if o = 0x08 then some (lo32 s.timeNs)
  else if o = 0x0C then some f.timeHi
  else if o = 0x10 then some (f.frame.setWidth 32)
  else if o = 0x14 then some (f.fcntHi.setWidth 32)
  else if o = 0x18 then some (lo32 s.t0Ns)
  else if o = 0x1C then some f.t0Hi
  else if o = 0x20 then some f.critEnd
  else if o = 0x24 then some (wordOf [(f.turn, 0), (f.turnBranch, 12)])
  else if o = 0x28 then some f.ovr
  else if o = 0x2C then some (wordOf [(f.critCnt, 0), (f.trailCnt, 16)])
  else if o = 0x30 then some s.frmLsync
  else if o = 0x34 then some (lo32 f.lsin)
  else if o = 0x38 then some f.lsinHi
  else if o = 0x3C then some (BitVec.ofNat 32 (twos 16 f.lsTrim))
  else none

/-! ## NET (R190, R215) -/

def Outc.code : Outc → Nat
  | .unsched => 0
  | .valid => 1
  | .empty => 2
  | .corrupt => 3
  | .late => 4

def CsState.code : CsState → Nat
  | .idle => 0
  | .listening => 1
  | .early => 2
  | .head => 3
  | .yielded => 4
  | .silent => 5
  | .node => 6

def JoinSt.code : JoinSt → Nat
  | .listen => 0
  | .settle => 1
  | .sync => 2
  | .hold => 3

/-- A port status word. -/
def Port.word (p : Port) : W32 :=
  wordOf [(b2n p.link, 0), (b2n p.sync, 1), (p.rate, 2), (b2n p.pcsErr, 4), (p.nvalid, 20)]

/-- A node counts as synchronised at the head (R204): VALID in 512 consecutive frames, its last average below t_B. -/
def Node.synced (n : Node) : Bool := decide (512 ≤ n.syncRun) && n.avgOk

/-- NET_NSYNC. Synchronised: 512 consecutive frames in SYNC (R204; log 37). -/
def State.netNsync (s : State) : W32 :=
  let j := s.join s.syncBranch
  let obeys : Bool := s.frm.role == .standby || s.frm.role == .node
  let st := if obeys then j.st.code else 7
  let ph : Int := max (-32767) (min 32767 (tget 0 s.net.phErr s.syncBranch))
  wordOf [(st, 0), (if obeys then j.misses else 0, 4), (b2n (obeys && decide (512 ≤ j.syncRun)), 6), (b2n (bitOf s.net.hashMm.toNat s.syncBranch), 7),
          (twos 16 ph, 16)]

def Node.slotStat (n : Node) : W32 :=
  wordOf [(n.outcome.code, 0), (b2n n.keeper, 3), (b2n n.edge, 4), (n.lastOfs.toNat, 16)]

/-- The NET block, by offset from its base. -/
def State.netReg (s : State) (o : Nat) : Option W32 :=
  let x := s.net
  let n := s.node s.selBranch s.selPos
  let b := s.branch s.selBranch
  if o < 0x20 then (if o % 4 = 0 then some (s.port (o / 4)).word else none)
  else if o = 0x20 then
    some (wordOf [(((List.range 8).map fun k => if (s.branch k).inCycle then 2 ^ k else 0).sum, 0), (b2n x.calve, 8), (x.epoch.toNat, 16)])
  else if o = 0x24 then some x.hash
  else if o = 0x30 then some (x.sel.setWidth 32)
  else if o = 0x40 then some n.slotStat
  else if o = 0x44 then some n.cValid
  else if o = 0x48 then some n.cEmpty
  else if o = 0x4C then some n.cCorrupt
  else if o = 0x50 then some n.cLate
  else if o = 0x54 then some n.cEdge
  else if o = 0x58 then some (wordOf [(n.ofsMin.toNat, 0), (n.ofsMax.toNat, 16)])
  else if o = 0x60 then some (wordOf [(b.slack, 0), (b.used, 16), (b.grants, 24)])
  else if o = 0x64 then some b.stray
  else if o = 0x70 then some (wordOf [(x.cs.code, 0), (b2n x.higher, 4), (b2n x.ownSeen, 5), (x.seenBr.toNat, 8)])
  else if o = 0x74 then some (lo32 Config.headId)
  else if o = 0x78 then some (hi32 Config.headId)
  else if o = 0x7C then some (lo32 x.peerId)
  else if o = 0x80 then some x.peerIdHi
  else if o = 0x90 then some (wordOf [(b2n n.present, 0), (n.joins, 8), (n.absent, 16)])
  else if o = 0x94 then some (wordOf [(twos 16 n.trim, 0), (b2n n.trimLim, 31)])
  else if o = 0xA0 then some s.netNsync
  else if o = 0xA4 then some (BitVec.ofNat 32 (twos 16 (tget 0 x.rate s.syncBranch)))
  else if o = 0xA8 then some (tget 0 x.resync s.syncBranch)
  else none

/-! ## DSP (R233) -/

def State.ntask (s : State) : Nat := (s.dsp.tasks.filter fun x => x.2.cls != .unused).length

/-- The DSP block, by offset from its base. -/
def State.dspReg (s : State) (o : Nat) : Option W32 :=
  let d := s.dsp
  if o = 0x00 then some (wordOf [(d.delays.length, 0), (b2n d.gate, 12), (s.ntask, 16)])
  else if o = 0x04 then some d.merged
  else if 0x10 ≤ o ∧ o < 0x30 ∧ o % 4 = 0 then
    some (wordOf [(s.levelDepth ((o - 0x10) / 4), 0), (tget 0 d.maxDep ((o - 0x10) / 4), 16)])
  else if o = 0x30 then some (wordOf [(tget 0 d.preempt 0, 0), (tget 0 d.preempt 1, 8), (tget 0 d.preempt 2, 16), (tget 0 d.preempt 3, 24)])
  else if o = 0x34 then some (d.fault.setWidth 32)
  else if o = 0x38 then some d.tmoCnt
  else if o = 0x40 then some (BitVec.ofNat 32 d.descIdx)
  else if 0x44 ≤ o ∧ o < 0x64 ∧ o % 4 = 0 then some (tget 0 d.desc ((o - 0x44) / 4))
  else if o = 0x80 then some (wordOf [(b2n d.en, 0), (b2n d.frz, 1), (d.lmask.toNat, 8), (d.kmask.toNat, 16)])
  else if o = 0x84 then some (wordOf [(d.wrptr, 0), (d.wraps, 12)])
  else if o = 0x88 then some d.lost
  else if o = 0x8C then some (BitVec.ofNat 32 d.idx)
  else if o = 0x90 then some (((tget [] d.trc d.idx)[0]?).getD 0)
  else if 0x94 ≤ o ∧ o < 0xA0 ∧ o % 4 = 0 then some ((d.trcD[(o - 0x94) / 4]?).getD 0)
  else none

end Sys2Proof.Machine
end

