-- ==== Sys2Proof/Machine/Join.lean ====
section
/-! DEFINITION. Starting, joining and keeping time (R191, R192, R196 to R204), what a standby observes on its branches (R237),
and the frames of a part in the node role (R205, R209 to R212, R238, R239). A CSM's reception carries the device time t of
its start at the port. -/

namespace Sys2Proof.Machine

/-! ## Coldstart (R191, R192) -/

/-- A member of a head pair (R234). -/
def State.paired (s : State) : Bool := s.pn 14 0 0 == 1
/-- HEAD_ID of the pair's other part. -/
def State.peer (s : State) : W64 := if s.par 14 0 1 = Config.headId then s.par 14 0 2 else s.par 14 0 1

/-- The part listens, or listens again, for two frame periods. -/
def State.listen (s : State) (cs : CsState) (since : Nat) : State :=
  { s with net := { s.net with cs := cs, csEnd := since + 2 * s.per, csSeen := false } }

/-- COLDSTART_START (R191): the branch ports are enabled and nothing has been transmitted. -/
def execColdstartStart (s : State) : Out :=
  .next <| if s.cfg.running ∧ s.frm.role = .head ∧ s.net.cs = .idle then s.listen .listening s.frm.now else s

/-- A join machine begins anew: only the path trims received stay, in force until the schedule hash changes (R203). -/
def Join.fresh (j : Join) : Join := { dTrim := j.dTrim, dTrimR := j.dTrimR, dTrimNew := j.dTrimNew }

/-- The part enters the standby role toward every branch (R27, R199, R237): its tick stops until a CSM sets its time. -/
def State.standbyRole (s : State) : State :=
  let s := s.setRole .standby
  { s with frm := { s.frm with run := false, tsync := false, tickPend := false, first := false, slewRem := 0 },
           net := { s.net with joins := s.net.joins.map fun x => (x.1, x.2.fresh), rate := [], phErr := [] } }

/-- What follows a foreign CSM in the listen window (R192, R235): the peer's leads a pair member into standby; any other keeps
the part silent and listening. -/
def State.yieldStart (s : State) (cs : CsState) (since : Nat) : State :=
  if s.paired ∧ s.net.peerId = s.peer then { s with net := { s.net with cs := cs } }.standbyRole
  else (s.listen .silent since).raiseDev evHeadSeen []

/-- The branches of the configuration (R161). -/
def State.onBranches (s : State) : List Nat := (List.range 8).filter fun b => s.pn 3 b 0 == 1

/-- The head runs its cycle on every enabled branch. -/
def State.cycleOn (s : State) : State :=
  let s := s.onBranches.foldl (fun s b => s.setBranch b { s.branch b with inCycle := true }) s
  { s with net := { s.net with slotFin := 0 } }

/-- The head begins its cycle: frame 0 and epoch 1 at the end of the window. -/
def State.headStart (s : State) (t : Nat) : State :=
  let s := s.cycleOn
  { s with frm := { s.frm with run := true, tsync := true, first := true, frame := 0, t0 := t, tickPend := false },
           net := { s.net with cs := .early, epoch := 1 } }

/-- LISTEN_WINDOW_EXPIRY (R192). -/
def execListenWindowExpiry (s : State) : Out :=
  .next <| if s.net.cs = .listening ∨ s.net.cs = .silent then
    let s := s.goto s.net.csEnd
    if s.net.csSeen then s.yieldStart .silent s.net.csEnd else s.headStart s.net.csEnd
  else s

/-! ## Join machine and clock correction (R196 to R202) -/

/-- The part follows R199. -/
def State.follows (s : State) : Bool := s.frm.role == .standby || s.frm.role == .node

/-- The expected arrival of the present frame's time-stamp point (R196). -/
def State.expectCsm (s : State) (k port : Nat) : Int := (s.frm.t0 : Int) + s.ownDelay k port + (8 * s.tB : Nat)

/-- A CSM is well-formed for the part (R196). -/
def State.csmWellFormed (s : State) (k : Nat) (f : List Byte) : Bool :=
  isCsm f && (frameHdr f).branch == k && f.length == 64 && (csmOf f 0).hash == s.net.hash

/-- A well-formed CSM arrives inside the window of the present frame with its counter and T0, and does not go below the epoch
obeyed (R196, R197). -/
def State.csmInFrame (s : State) (k : Nat) (c : Csm) : Bool :=
  let o := (c.stamp : Int) - s.expectCsm k c.port
  decide (o.natAbs ≤ guardB * s.tB) && c.fcnt == s.frm.frame && c.t0 == BitVec.ofNat 64 (toNs s.frm.t0) &&
  (c.epoch == s.net.obeyEpoch || epochAbove c.epoch s.net.obeyEpoch)

/-- It is valid for the part. -/
def State.csmValid (s : State) (k : Nat) (c : Csm) : Bool :=
  s.csmInFrame k c && (c.headId == s.net.obeyId || epochAbove c.epoch s.net.obeyEpoch)

/-- The CSM of the highest epoch; none where two heads share it (R197). -/
def pickCsm (l : List Csm) : Option Csm :=
  match l.find? fun c => l.all fun d => !epochAbove d.epoch c.epoch with
  | none => none
  | some c => if l.any fun d => d.epoch == c.epoch && d.headId != c.headId then none else some c

/-- The part holds a CSM valid for it in the present frame. -/
def Join.hasCsm (j : Join) : Bool := j.kept.isSome

/-- The part enters LISTEN from SYNC or HOLD: silent at once. -/
def State.loseSync (s : State) (k : Nat) : State :=
  let s := s.setJoin k { s.join k with st := .listen, misses := 0, block := false, kept := none, cands := [], syncRun := 0 }
  { s with net := { s.net with resync := tmod 0 k satInc s.net.resync } }.raise evSyncLoss k allGroups []

/-- Clamp an integer to ± lim. -/
def clampI (x lim : Int) : Int := max (-lim) (min x lim)

/-- The S by which a slew is done (R201, R202). -/
def State.slewEnd (s : State) : Nat := if s.frm.now ≤ s.instS then s.instS else s.nextS

/-- The clock correction of R202 toward branch k from a phase error e in 0.2 ns: ρ in 0.01 ppm. The branch the clock follows
gives the phase to slew by the next S; the rest goes on in the next frame, until a new error is measured (log 37). -/
def State.correct (s : State) (k : Nat) (e : Int) : State :=
  let rho := clampI (tget 0 s.net.rate k - (e * 100000000).tdiv (16 * s.per : Nat)) 20000
  let s := { s with net := { s.net with rate := tset 0 k rho s.net.rate, phErr := tset 0 k (clampI e 32767) s.net.phErr } }
  if k = s.syncBranch then { s with frm := { s.frm with slewRem := -e * 100000000, slewTo := s.slewEnd } } else s

/-- Some branch has set the part's device time (R27). -/
def State.timeSet (s : State) : Bool := (List.range 8).any fun b => (s.join b).st != .listen

/-- LISTEN hears a well-formed CSM (R199): head and epoch are taken from it, and with the first branch device time and frame
counter, once (R27); the own tick runs. -/
def State.joinListen (s : State) (k : Nat) (c : Csm) : State :=
  let t0 := nsT c.t0.toNat
  let stamp := ((t0 : Int) + s.ownDelay k c.port + (8 * s.tB : Nat)).toNat
  let set := !s.timeSet
  let c := if set then { c with stamp := stamp } else c
  let s := if set then { s with
      frm := { s.frm with now := stamp + 64 * s.tB, frame := c.fcnt, t0 := t0, run := true, tsync := true, first := false, tickPend := false, slewRem := 0 } }
    else s
  let s := { s with net := { s.net with obeyId := c.headId, obeyEpoch := c.epoch, epoch := c.epoch, calve := c.calve, orient := some (c.port == 0) } }
  s.setJoin k { s.join k with st := .settle, block := false, settleN := c.fcnt, kept := some c, cands := [], decided := true }

/-- A trim received acts from the valid CSM of its port on. -/
def Join.trimmed (j : Join) (port : Nat) : Join :=
  { j with dTrim := if port = 0 then j.dTrim + j.dTrimNew else j.dTrim,
           dTrimR := if port = 0 then j.dTrimR else j.dTrimR + j.dTrimNew, dTrimNew := 0 }

/-- The valid CSM of the present frame is taken: head and epoch obeyed, trims in force, the phase error measured and the clock
corrected (R201, R203). -/
def State.takeCsm (s : State) (k : Nat) (c : Csm) : State :=
  let j := (s.join k).trimmed c.port
  let sync : Bool := j.st == .sync || j.st == .hold
  let j := { j with st := .sync, misses := 0, kept := some c, syncRun := if j.st == .sync then j.syncRun + 1 else 0,
                    syncFrom := if sync then j.syncFrom else s.frm.frame }
  let s := s.setJoin k j
  let e := (c.stamp : Int) - s.expectCsm k c.port
  let other : Bool := c.headId != s.net.obeyId
  { s with
    net := { s.net with obeyId := c.headId, obeyEpoch := c.epoch, epoch := c.epoch, calve := c.calve, noDyn := s.net.noDyn || other },
    red := { s.red with winCsm := true } }.correct k e

/-- The present frame's window toward branch k is over: the choice of R197 is made and the join machine moves (R199). -/
def State.decideCsm (s : State) (k : Nat) : State :=
  let j := s.join k
  if j.decided then s else
  let s := s.setJoin k { j with cands := [], decided := true }
  match j.st, (pickCsm j.cands).filter (s.csmValid k) with
  | .listen, _ => s
  | .settle, some c => if j.block then s.takeCsm k c else s.setJoin k { s.join k with st := .listen, block := false, kept := none }
  | .settle, none => if s.frm.frame = j.settleN then s else s.setJoin k { s.join k with st := .listen, block := false, kept := none }
  | .sync, some c => s.takeCsm k c
  | .hold, some c => s.takeCsm k c
  | .sync, none => s.setJoin k { s.join k with st := .hold, misses := 1, syncRun := 0 }
  | .hold, none => if j.misses < 3 then s.setJoin k { s.join k with misses := j.misses + 1 } else s.loseSync k

/-- A well-formed CSM of another head ends SETTLE, as one that comes before a command block was observed does (R199). -/
def State.breaksSettle (s : State) (k : Nat) (c : Csm) : Bool :=
  let j := s.join k
  j.st == .settle && (c.headId != s.net.obeyId || (s.frm.frame != j.settleN && s.csmValid k c && !j.block))

/-- A well-formed CSM outside LISTEN: one of the candidates of its frame (R197, R239). -/
def State.hearCsm (s : State) (k : Nat) (c : Csm) : State :=
  let j := s.join k
  if s.breaksSettle k c then s.setJoin k { j with st := .listen, block := false, kept := none, cands := [] }
  else if s.csmInFrame k c && !j.decided then s.setJoin k { j with cands := j.cands ++ [c] }
  else s

/-- NET_NSYNC.HASH_MM of branch k. -/
def State.setHashMm (s : State) (k : Nat) (on : Bool) : State :=
  let bit : Byte := BitVec.ofNat 8 (2 ^ k)
  { s with net := { s.net with hashMm := if on then s.net.hashMm ||| bit else s.net.hashMm &&& ~~~bit } }

/-- CSM_RECEIVED (R199). A part that has just left the head role acts on no further CSM of that frame (R256). -/
def execCsmReceived (b : Fin 8) (bytes : List Byte) (x : Arrival) (s : State) : Out :=
  .next <| if !s.follows then s else
    let k := s.joinKey b
    let s := s.rxFrame b x.t bytes x.err
    let c := { csmOf bytes (x.t + 8 * s.tB) with port := b }
    if x.err ∨ x.t < s.net.muteTo then s
    else if s.csmWellFormed k bytes then
      let s := s.setHashMm k false
      if (s.join k).st = .listen then s.joinListen k c else s.hearCsm k c
    else if isCsm bytes && (frameHdr bytes).branch == k && bytes.length == 64 then
      let s := s.setHashMm k true
      match (s.join k).st with
      | .sync => s.loseSync k
      | .hold => s.loseSync k
      | _ => s
    else s

/-- d(n) (R239): every CSM of the frame that can be valid has arrived at either port of a node. -/
def State.decisionAt (s : State) (k : Nat) : Nat := s.frm.t0 + s.endDelay k + (8 + guardB) * s.tB

/-- The end of the window toward branch k: G byte times after the expected arrival (R196). A node, whose branch may have a head
at either end, does nothing that depends on the frame's CSM before d(n) (R239; log 37). -/
def State.windowEnd (s : State) (k : Nat) : Nat :=
  if s.frm.role = .node then s.decisionAt k else (s.expectCsm k 0 + (guardB * s.tB : Nat)).toNat

/-! ## What a standby or node hears of its head (R174, R182, R203, R237) -/

/-- The STATE field of each axis entry of a record, by axis. -/
def recordStates (rec : List Byte) (ty : Nat → Nat) : List Nat → Nat → List (Nat × Nat)
  | [], _ => []
  | i :: r, o =>
    let e := o + recEntrySize (ty i)
    (i, beAt rec (e - 1) 1 / 32) :: recordStates rec ty r e

/-- A standby records the STATE of every axis whose record it observes with a correct check. -/
def State.observeBlock (s : State) (k : Nat) (f : List Byte) : State :=
  let first := 30 + beAt f 24 2
  (List.range (s.nS k)).foldl (fun s p =>
    match findRecord f p 32 first with
    | none => s
    | some rec =>
      if recordOk f rec then
        (recordStates rec s.axType (s.nodeAxes k p) 2).foldl (fun s x =>
          { s with red := { s.red with obsState := tset (0, 0) x.1 (x.2, s.frm.frame) s.red.obsState } }) s
      else s) s

/-- COMMAND_BLOCK_RECEIVED (R199, R237). A part in the node role has no axis entries to apply (R210). -/
def execCommandBlockReceived (b : Fin 8) (bytes : List Byte) (t : Nat) (s : State) : Out :=
  .next <| if !s.follows then s else
    let k := s.joinKey b
    let s := s.rxFrame b t bytes false
    let h := frameHdr bytes
    let j := s.join k
    let here : Bool := hchkOk bytes && h.ty == 2 && h.fcnt == s.frm.frame.toNat % 65536 && h.epoch == s.net.obeyEpoch.toNat
    let s := if here && fcsOk bytes && j.st == .settle && j.settleN == s.frm.frame then s.setJoin k { j with block := true } else s
    if s.frm.role = .standby ∧ here then s.observeBlock k bytes else s

/-- KEEPER_FRAME_RECEIVED (R182): references adopted from a keeper frame of a frame whose CSM was valid with KREF_VALID; in
force from the next frame. -/
def execKeeperFrameReceived (b : Fin 8) (bytes : List Byte) (t : Nat) (s : State) : Out :=
  .next <| if !s.follows then s else
    let k := s.joinKey b
    let s := s.rxFrame b t bytes false
    let j := s.join k
    let valid : Bool := j.hasCsm && match j.kept with
      | some c => c.cflags.getLsbD 0
      | none => false
    let h := frameHdr bytes
    if valid && intact bytes false && h.ty == 6 && h.fcnt == s.frm.frame.toNat % 65536 then
      { s with net := { s.net with krefNext := (keeperEntries bytes).foldl (fun t e =>
          tset none (k * 256 + e.1 * 8 + e.2.1) (some (e.2.2.1, e.2.2.2)) t) s.net.krefNext } }
    else s

/-- DLY_TRIM_RECEIVED (R203): a class-2 frame to the part's position with a trim; it acts from the next valid CSM. -/
def execDlyTrimReceived (b : Fin 8) (bytes : List Byte) (t : Nat) (s : State) : Out :=
  .next <| if s.frm.role ≠ .node then s else
    let k := s.joinKey b
    let s := s.rxFrame b t bytes false
    let h := frameHdr bytes
    if intact bytes false && h.ty == 5 && h.pos == s.pn 2 0 17 && dynClass bytes == 2 && 2 ≤ (dynBody bytes).length then
      let j := s.join k
      s.setJoin k { j with dTrimNew := j.dTrimNew + (BitVec.ofNat 16 (beAt (dynBody bytes) 0 2)).toInt }
    else s

/-! ## Orientation (R239) -/

/-- The port of the CSM chosen for the frame turns the orientation from the next frame on; no dynamic frame leaves before. -/
def State.turn (s : State) (k : Nat) : State :=
  match (s.join k).kept with
  | none => s
  | some c =>
    let o := c.port == 0
    if s.net.orient = some o then s else { s with net := { s.net with orientNext := some o, noDyn := true } }

/-- ORIENTATION_DECISION (R239): at d(n) the node chooses the CSM of the frame and fixes the head it obeys. -/
def execOrientationDecision (s : State) : Out :=
  .next <| if s.frm.role ≠ .node ∨ !s.frm.run then s else
    let k := s.pn 2 0 16
    ((s.goto (s.decisionAt k)).decideCsm k).turn k

/-! ## The frames of a part in the node role (R163, R177, R205, R209 to R212) -/

/-- Released uplink PDUs by placement, ascending by connection (R306). -/
def State.upConns (s : State) (place : Nat) : List Nat :=
  (List.range 64).filter fun c => s.pn 11 (64 + c) 0 == 1 && s.pn 11 (64 + c) 6 == place && !(s.conn c).rel.isEmpty

/-- A released PDU of class-0 placement that has not been sent. -/
def State.upUnsent (s : State) : List Nat :=
  (s.upConns 1).filter fun c => tget 0 s.net.nrole.sfSent c != (s.conn c).txRel.toNat + 1

/-- The part is in KEEPER: A instants pass without a class-3 frame (R206, R209, R212; log 7). -/
def State.inKeeper (s : State) : Bool := decide (1 ≤ s.net.nrole.keep)

/-- The static frame of the node role (R165, R209, R210): no axis entries, auxiliary words, the safe area. -/
def State.nodeStatic (s : State) : List Byte :=
  let b := s.pn 2 0 16
  let p := s.pn 2 0 17
  let naux := s.nodePar b p 5
  let sl := s.nodePar b p 6
  let urg := b2n (!s.upUnsent.isEmpty || s.inKeeper)
  let pend := min 15 (max 1 s.upUnsent.length)
  let safe := slice (((s.upConns 0).map fun c => (s.conn c).rel).flatten) 0 sl
  s.nodeFrame 3 (s.lS - guardB - 12) s.inKeeper
    ([BitVec.ofNat 8 (128 * b2n s.inKeeper), BitVec.ofNat 8 (128 * urg + pend), BitVec.ofNat 8 naux, BitVec.ofNat 8 sl] ++
     beBytes 2 (Config.auxWord 255 s.frm.frame.toNat).toNat ++
     ((List.range naux).map fun k => beBytes 2 (Config.auxWord k s.frm.frame.toNat).toNat).flatten ++ safe)

/-- NODE_STATIC_TRANSMIT (R163): the static frame leaves at t_tx(p). -/
def execNodeStaticTransmit (s : State) : Out :=
  .next <| if !s.nodeSpeaks then s else
    let s := s.goto s.ownSlot
    let f := s.nodeStatic
    { s with net := { s.net with nrole := { s.net.nrole with statF := f } } }.bwFrame s.headPort 1 f.length

/-- The process-data payload a part in the node role sends (R211). -/
def State.processData (s : State) : List Byte :=
  let bits : (Nat → Bool) → Nat := fun f => ((List.range 32).map fun c => if f c then 2 ^ c else 0).sum
  beBytes 4 (bits fun c => (s.fch c).latched) ++ beBytes 4 (bits fun c => (s.fch c).live != 0 || (s.fch c).inv) ++
  ((List.range 16).map fun c => beBytes 8 (twos 64 (s.step_ c).latch)).flatten ++
  ((List.range 8).map fun e => beBytes 8 (twos 64 (s.enc e).ext)).flatten

/-- The frame the part sends under a grant (R211): an unsent safety PDU first, with its connection; else process data, which
CALVE keeps back (R184). -/
def State.nodeDyn (s : State) : Option (Option Nat × List Byte) :=
  match s.upUnsent with
  | k :: _ => some (some k, s.nodeFrame 4 60 s.inKeeper (dynPayload 0 (s.conn k).rel))
  | [] => if s.net.calve then none else some (none, s.nodeFrame 4 60 s.inKeeper (dynPayload 3 s.processData))

/-- What is kept of a dynamic frame that has left. -/
def NRole.sentDyn (n : NRole) (tx : Nat → Nat) (k : Option Nat) (f : List Byte) : NRole :=
  match k with
  | some c => { n with sfSent := tset 0 c (tx c + 1) n.sfSent }
  | none => { n with upFrame := f }

/-- The part may send under the grant of mini-slot m: the frame's CSM was valid for it, grants the mini-slot, and comes from the
head obeyed before on the port it came on before (R177, R239). -/
def State.mayMini (s : State) (m : Nat) : Bool :=
  let b := s.pn 2 0 16
  let j := s.join b
  s.nodeSpeaks && j.st == .sync && j.kept.isSome && !s.net.noDyn && bitOf s.ownGrant m && s.msOwner b m == s.pn 2 0 17

/-- NODE_DYNAMIC_TRANSMIT (R177, R211): a frame that fits its mini-slot leaves at H_m − D_p. -/
def execNodeDynamicTransmit (slot : Fin 32) (s : State) : Out :=
  let b := s.pn 2 0 16
  .next <| if !s.mayMini slot then s else
    let s := s.goto (s.txAt (s.msStart b s.ownGrant slot))
    match s.nodeDyn with
    | none => s
    | some (k, f) =>
      if s.msWidth b (s.pn 2 0 17) < wireB f + guardB then s
      else { s with net := { s.net with
          nrole := s.net.nrole.sentDyn (fun c => (s.conn c).txRel.toNat) k f } }.bwFrame s.headPort 1 f.length

/-- FENCE (R205): the next instant 13 byte times before a pass. A frame the part is repeating toward the head ends there. -/
def execFence (_b : Fin 8) (s : State) : Out :=
  .next <| if s.frm.role ≠ .node ∨ !s.frm.run then s else
    match s.fences.filter fun t => s.frm.now ≤ t with
    | [] => s
    | t :: r =>
      let t := r.foldl min t
      let s := s.goto t
      { s with net := { s.net with rep := tmod {} s.headPort (fun x => x.fence s.tB t) s.net.rep } }

/-- PROCESS_DATA_RECEIVED (R212): a class-3 downlink frame of frame n that has arrived by E_dyn is applied at A(n + 1). -/
def execProcessDataReceived (b : Fin 8) (bytes : List Byte) (t : Nat) (s : State) : Out :=
  .next <| if s.frm.role ≠ .node then s else
    let s := s.rxFrame b t bytes false
    let h := frameHdr bytes
    if intact bytes false && h.ty == 5 && h.pos == s.pn 2 0 17 && dynClass bytes == 3 &&
        h.fcnt == s.frm.frame.toNat % 65536 && decide (s.frm.now ≤ s.eDyn) then
      { s with net := { s.net with nrole := { s.net.nrole with down := s.net.nrole.down ++ [(s.frm.frame.toNat, dynBody bytes)] } } }
    else s

end Sys2Proof.Machine
end

