-- ==== Sys2Proof/Machine/Feed.lean ====
section
/-! DEFINITION. The axis status word with its MOTION field, the local node's area of the input image, and what the frame that ends
leaves for its input image and its capture row (R89, R132, R338, R390). -/

namespace Sys2Proof.Machine

/-- CREF_RED of a STEP axis (R132, R140). -/
def State.crefRed (s : State) (i : Nat) : Bool :=
  match (List.range 16).find? fun c => s.pn 9 c 0 == i with
  | some c => s.axType i == 4 && (s.step_ c).redAt s.frm.now != 0
  | none => false

/-- The axis status word (R89, R132). -/
def State.statusWord (s : State) (i : Nat) : W32 :=
  let a := s.axis i
  let m := a.mo
  wordOf [(a.st.code, 0), (b2n a.lp.posSat, 5), (b2n a.lp.velSat, 6), (b2n a.lp.tqSat, 7), (b2n a.lp.curSat, 8), (b2n a.fb.est, 9),
          (b2n a.fb.pred, 10), (b2n (s.derated i), 11), (b2n a.lp.lstep, 12), (b2n m.cur.pstop, 16), (b2n m.encDev, 17),
          (b2n (s.crefRed i), 18), (b2n m.stepClamp, 19), (b2n m.camDone, 20), (b2n m.homed, 21), (b2n m.homing, 22),
          (b2n m.inpos, 23), (b2n m.cur.atTarget, 24), (b2n m.cur.overlim, 25), (b2n m.cur.reversal, 26), (b2n m.cur.vmode, 27),
          (m.cur.seg, 28)]

/-- A 32-bit map of the channels that meet a condition. -/
def State.chMap (s : State) (p : Nat → FioCh → Bool) : W32 :=
  BitVec.ofNat 32 ((List.range 32).map fun c => if p c (s.fch c) then 2 ^ c else 0).sum

/-- The commanded outputs in force (R335 FIO_OUT). -/
def State.outWord (s : State) : W32 := s.chMap fun _ x => x.cmd

/-- The local node's area of the input image: 448 bytes. -/
def State.lnArea (s : State) : List Byte :=
  let w (x : W32) := leBytes 4 x.toNat
  w (s.chMap fun _ x => x.latched) ++ w (s.chMap fun _ x => x.invLat) ++ w (s.chMap fun _ x => x.live != 0 || x.inv) ++
  leBytes 4 0 ++
  ((List.range 8).map fun e =>
    let x := s.enc e
    leBytes 8 (twos 64 x.ext) ++ leBytes 8 (twos 64 x.zc) ++ leBytes 8 x.zt.toNat ++ leBytes 4 x.errs.toNat ++ leBytes 4 0).flatten ++
  ((List.range 16).map fun c => leBytes 8 (twos 64 (s.step_ c).latch)).flatten ++ leBytes 48 0

/-- The addresses of the nodes declared with NODE.NROLE = 1, ascending: the node-role parts r (R214, R389). -/
def State.nroleParts (s : State) : List Nat :=
  ((List.range 256).filter fun a => (List.range 128).any fun j => s.pn 4 j 11 == 1 && s.pn 4 j 0 == a).take 8

/-- Flags of a zone: the controller ran, EV_LC_INVALID is in force. -/
def Zone.flags (z : Zone) : Nat := b2n z.ran + 2 * b2n z.lcRep

/-- The line axes in use. -/
def State.lineIds (s : State) : List Nat := (List.range 16).filter fun i => s.pn 8 i 0 == 1

/-- The values of the present frame. -/
def State.feedNow (s : State) : Feed :=
  { frame := s.frm.frame, t0 := s.frm.t0, inst := s.instS,
    epoch := if s.frm.role = .head then s.net.epoch else s.net.obeyEpoch, role := s.frm.role.code,
    ctag := BitVec.ofNat 32 (leNat (mread ramByte (tget [] s.host.po s.host.piActive) 0 4)), ln := s.lnArea, outS := s.fio.outS,
    lines := s.lineIds.foldl (fun t l => tset {} l (s.line l).pub t) [],
    zones := s.zones, parts := s.nroleParts.map fun a => (tget {} s.net.nodes a).pdIn,
    axes := s.axes, stat := s.axisIds.foldl (fun t i => tset 0 i (s.statusWord i) t) [] }

/-- The frame ends: its values are kept. -/
def State.feedTake (s : State) : State := { s with host := { s.host with feed := s.feedNow } }

end Sys2Proof.Machine
end

