-- ==== Sys2Proof/Machine/Frame.lean ====
section
/-! DEFINITION. The frame tick in CK_NET with what the head sends at T0, LSYNC and LSYNC_IN, the reads of the FRM block that
latch or clear (R15, R25 to R33, R161, R162, R178, R240, R244), and the idle cycle of an empty queue. -/

namespace Sys2Proof.Machine

/-! ## What the tick ends and begins -/

/-- Units of 16 ns, rounded up, saturating (R33 FRM_CRITEND). -/
def units16 (t : Nat) : Nat := min ((t + 79) / 80) 0xFFFF

/-- Of two tables of severities, the one of both. -/
def dueBoth (a b : Tbl Nat) : Tbl Nat := a.foldl (fun t x => tmod 0 x.1 (x.2 ||| ·) t) b

/-- The reactions of the frame that ends act at the boundary; a frame's events are raised anew (R69, R88). -/
def Evt.nextFrame (e : Evt) : Evt := { e with seen := [], dueNow := dueBoth e.due e.dueNow, due := e.dueLater, dueLater := [] }

/-- The per-frame figures of the FRM and PWR blocks move on: the frame that ends becomes the previous frame. -/
def State.frameStats (s : State) : State :=
  let f := s.frm
  { s with
    frm := { f with
      critEnd := BitVec.ofNat 32 (units16 f.critLast + 65536 * units16 f.trailLast), critLast := 0, trailLast := 0,
      throt := s.pwr.stretched, minclk := BitVec.ofNat 8 s.pwr.frmMin,
      series := if f.critOvr then f.series + 1 else 0, seriesDone := f.critOvr && f.seriesDone, critOvr := false },
    pwr := { s.pwr with stretched := false, frmMin := 100, limit := s.pwr.limNow, limNow := false },
    evt := s.evt.nextFrame }

/-- A node's frame f is over: the final outcome is that of the previous frame, the new frame has none. Samples stay for critical
kernels at work, whose frames are work. -/
def Node.nextFrame (n : Node) (final sched : Bool) (f : Nat) (work : List Nat) : Node :=
  let hist := if n.fresh then ⟨f, n.smp, n.aux, n.udc⟩ :: n.hist else n.hist
  { n with outcome := if !sched then .unsched else if final then n.prov else n.outcome, prov := .empty, fresh := false,
           smp := [], aux := [], hist := hist.filter fun x => work.any fun w => decide (w ≤ x.frame),
           evPend := none, evDone := false, pdIn := [] }

/-- Frames of the critical instances that are not finished. -/
def State.critFrames (s : State) : List Nat :=
  (s.dsp.tasks.filter fun x => x.2.cls == .critical && x.2.st != .idle).map fun x => x.2.frame

/-- A branch's frame is over. grant is the map its next CSM carries; stop is where the ended frame's mini-slots ended. -/
def Branch.nextFrame (x : Branch) (g : GrantAcc) (n slack : Nat) : Branch :=
  { x with used := x.credits 1, slack := x.slackNow, slackNow := slack, grant := BitVec.ofNat 32 g.map, lastNorm := g.last,
           grants := n, crIssued := x.crIssued + n, crOut := x.crOut + n, credit := [], packAt := none, ddl := false,
           blkSent := false, kfSent := false, dynFrom := 0, dynAt := 0 }

/-- Slots with outcome VALID in the frame that ends (R190 NVALID). -/
def State.validSlots (s : State) (b : Nat) : Nat :=
  ((List.range (s.nS b)).filter fun p => (s.node b p).prov == .valid).length

/-- KREF_VALID of the head's CSMs: clear in the bridging frames (R252, R258). -/
def State.krefValid (s : State) : Bool := !s.bridging

/-- The head's CSM on branch b, with the grant map built from the ended frame's requests (R162, R178). -/
def State.sendCsm (s : State) (b : Nat) : State :=
  let g := s.grantMap b
  let n := ((List.range 32).filter fun m => bitOf g.map m).length
  let final := s.net.slotFin.getLsbD b
  let nv := s.validSlots b
  let stop := s.msStart b g.map (s.mB b)
  let s := s.setPort b { s.port b with nvalid := nv }
  let s := (List.range (s.nS b)).foldl (fun s p => s.setNode b p ((s.node b p).nextFrame final true (s.frm.frame.toNat - 1) s.critFrames)) s
  let f := s.csmFrame b g.map s.krefValid
  let s := s.setBranch b { (s.branch b).nextFrame g n (min ((s.eDyn - stop) / 16) 0xFFFF) with csm := f }
  (s.pulseX 0x24).bwFrame b 1 f.length

/-- What the head sends at T0: CSMs on every branch in the cycle and the firn heartbeat (R161, R240). CALVE follows the calving
stage from the first grant map built after it (R184, R432). -/
def State.headSends (s : State) : State :=
  let s := { s with net := { s.net with calve := decide (2 ≤ s.pwr.stage) } }
  let s := ((List.range 8).filter fun b => (s.branch b).inCycle).foldl (fun s b => s.sendCsm b) s
  let s := { s with net := { s.net with slotFin := 0, cs := if s.net.cs = CsState.early ∧ 4 ≤ s.frm.frame.toNat then .head else s.net.cs } }
  if s.paired then
    let hb := s.heartbeatFrame
    { s with red := { s.red with firnTx := [hb], firnFree := s.frm.t0 + (wireB hb + 12) * s.tB } }
  else s

/-- A list in pieces of k entries; n bounds their number. -/
def chunks {α : Type} (k : Nat) : Nat → List α → List (List α)
  | 0, _ => []
  | n + 1, l => if l.isEmpty then [] else l.take k :: chunks k n (l.drop k)

/-- The parameter records of the boundary's writes follow the heartbeat of the frame in which they take effect (R240, R244). -/
def State.paramSends (s : State) : State :=
  let r := s.red
  if r.paramRec.isEmpty then s
  else if !s.paired ∨ s.frm.role ≠ .head ∨ r.silentTx then { s with red := { r with paramRec := [] } }
  else
    let fs := (chunks 90 r.paramRec.length r.paramRec).map s.paramFrame
    { s with red := { r with firnTx := r.firnTx ++ fs, paramRec := [], firnFree := r.firnFree + (fs.map fun f => wireB f + 12).sum * s.tB } }

/-- What the tick begins in a part that follows a head (R182, R197, R202, R239, R250): what is left of a slew goes on up to
this frame's S. -/
def State.followerTick (s : State) : State :=
  { s with
    frm := { s.frm with slewTo := s.instS },
    net := { s.net with
      joins := tmap {} (fun j => { j with kept := none, cands := [], decided := false }) s.net.joins, noDyn := false,
      kref := s.net.krefNext.foldl (fun t x => tset none x.1 x.2 t) s.net.kref, krefNext := [],
      orient := if s.net.orientNext.isSome then s.net.orientNext else s.net.orient, orientNext := none },
    red := { s.red with hbHere := false, winDone := 0, winCsm := false, hbClosed := false, judged := false, firnTx := [] } }

/-- What the shadow record takes of one axis (R248): its static-slot entry as accepted, its command-record entry (a SERVO-P
axis's speed and feedforward stand in the place of its keeper reference), its keeper reference. -/
def State.shadowAx (s : State) (i : Nat) : ShadowAx :=
  let a := s.axis i
  let p : Bool := s.axType i == 3
  { smp := if a.fb.acc then s.axSample i s.frm.frame.toNat else none, udc := (s.node (s.axBranch i) (s.axPos i)).udc,
    dA := a.lp.dA, dB := a.lp.dB, dC := a.lp.dC, valid := a.cmdValid,
    k0 := if p then fNarrow a.lp.wCmd else a.lp.kref0, k1 := if p then fNarrow a.lp.tauFf else a.lp.kref1 }

/-- The axes whose critical kernels a shadow computation repeats: those of the branches. -/
def State.shadowIds (s : State) : List Nat := s.axisIds.filter fun i => !s.isLn i

/-- Bytes of a shadow record of n axes (log 32), and its segments. -/
def shadowLen (n : Nat) : Nat := 16 + 29 * n
def shadowSegs (n : Nat) : Nat := (shadowLen n + 1455) / 1456

/-- What the frame that ends leaves for a head pair: the head's shadow record (R248), a new head's samples of frame
R − 1 (R254). -/
def State.redFrameEnd (s : State) : State :=
  let s := if s.red.shFor = some s.frm.frame ∧ s.frm.role = .head then
      { s with red := { s.red with shFor := none, outSh := s.shadowIds.map (fun i => (i, s.shadowAx i)),
                                   outShN := shadowSegs s.axisIds.length, outShNext := 0 } }
    else s
  if s.red.restartOn ∧ s.red.restart.toNat ≤ s.frm.frame.toNat + 1 then
    { s with red := { s.red with prevSmp := s.shadowIds.foldl (fun t i => tset none i (s.axSample i s.frm.frame.toNat) t) [] } }
  else s

/-- RED_STAT.TKSTEP changes: source ROLE (R397). -/
def State.setTk (s : State) (n : Nat) : State :=
  if s.red.tkStep = n then s else { s with red := { s.red with tkStep := n } }.irq 7

/-- TKSTEP of a new head's frame (R264). -/
def State.redTick (s : State) : State :=
  if s.frm.role ≠ .head then s
  else if s.red.restartOn then
    s.setTk (if s.bridging then min 7 (3 + (s.frm.frame - s.red.tkFc).toNat) else 8)
  else if s.red.tkStep = 8 then s.setTk 0 else s

/-- LSYNC rises at T0 while FRAME.LSYNC_EN is 1 (R29). -/
def State.lsyncRise (s : State) : State :=
  if s.pn 1 0 8 = 1 then
    { s with frm := { s.frm with lsync := true, lsyncFall := s.frm.t0 + nsT (s.pn 1 0 9) } }
  else s

/-- LOCK mode: the trim moves by at most 0.1 ppm a frame toward its target (R30). -/
def State.lockSlew (s : State) : State :=
  if s.frm.role = .head ∧ s.pn 1 0 10 = 2 then
    { s with frm := { s.frm with lsTrim := clampI (s.frm.lsTrim + clampI (s.frm.lsTarget - s.frm.lsTrim) 10) 5000 } }
  else s

/-- T0 of the frame about to begin. -/
def State.tickAt (s : State) : Nat := if s.frm.first then s.frm.t0 else s.frm.t0 + s.per

/-- The frame that was in force ends at t: what a head pair, the images and the statistics keep of it. -/
def State.frameEnd (s : State) (t : Nat) : State :=
  let s := (s.goto t).redFrameEnd
  let s := if s.frm.first then s else s.feedTake
  s.frameStats

/-- The next frame begins at t, its tick still to take effect. -/
def State.frameBegin (s : State) (t : Nat) : State :=
  let f := s.frm
  let f := { f with frame := if f.first then f.frame else f.frame + 1, first := false, t0 := t, tickPend := true }
  { s with frm := f, fio := { s.fio with hold := s.fio.hold && f.role == .standby } }

/-- Nothing is sent on the ports from this frame on: a head that has yielded, from Y on (R258), and any part in calving
stage 4 (R434). -/
def State.tickSilent (s : State) : Bool :=
  s.red.silentTx || decide (4 ≤ s.pwr.stage) || (s.frm.role == .head && s.red.ystate == 2 && s.frm.frame == s.red.yfc)

/-- A CFG_ACTIVATE of a base slot awaits the boundary: it decides whether the head sends in the frame (R412; log 19). -/
def State.cfgAwaits (s : State) : Bool := s.host.taken.any fun t => s.reqOp t.buf == 0x0042

/-- What goes out on the ports in a frame: the head's frames, or nothing. -/
def State.tickSends (s : State) : State :=
  let s := if s.tickSilent then { s with red := { s.red with silentTx := true } } else s
  if s.frm.role ≠ .head then s.followerTick
  else if s.red.silentTx then { s with net := { s.net with slotFin := 0 } }
  else if s.cfgAwaits then s
  else s.headSends

/-- FRAME_TICK (R15): the tick is raised in the CK_NET cycle of T0. -/
def execFrameTick (s : State) : Out :=
  .next <| if !s.frm.run ∨ s.frm.tickPend ∨ !s.pwr.up then s else
    let t := s.tickAt
    let s := (s.frameEnd t).frameBegin t
    ((s.lockSlew.lsyncRise).pulseX 0x22).redTick.tickSends

/-- LSYNC_FALL (R29). LSYNC falls as well when FRAME.LSYNC_EN becomes 0 (State.applyEntry). -/
def execLsyncFall (s : State) : Out :=
  .next <| if s.frm.lsync then
    let s := s.goto s.frm.lsyncFall
    { s with frm := { s.frm with lsync := false } }
  else s

/-! ## LSYNC_IN (R30, R31) -/

/-- Offset of a device time from the nearest T0. -/
def State.fromT0 (s : State) (t : Nat) : Int :=
  let d := (t : Int) - s.frm.t0
  if 2 * d > s.per then d - s.per else d

/-- The edge is of the polarity FRAME.LSIN_POL selects: 0 rising, 1 falling (R30). -/
def State.lsinPol (s : State) (rise : Bool) : Bool := rise == (s.pn 1 0 11 == 0)

/-- LSYNC_IN_EDGE: an edge of the selected polarity is stamped; in LOCK mode it gives a new target trim (log 46). DESIGN CHOICE
(log 46): every such edge, also one outside P ± 1 µs of the one before, is taken as the one the four windows of R31 count
from. -/
def execLsyncInEdge (x : PinEdge) (s : State) : Out :=
  let mode := s.pn 1 0 10
  .next <| if s.frm.role ≠ .head ∨ mode = 0 ∨ !s.lsinPol x.rise then s else
    let s := (s.goto x.t).pulseX 0x5D
    let e := s.fromT0 x.t
    let s := { s with frm := { s.frm with lsin := BitVec.ofNat 64 (toNs x.t), lsEdge := some x.t, lsMiss := 0 } }
    let s := if mode = 2 ∧ s.frm.run then
        { s with frm := { s.frm with lslock := decide (e.natAbs ≤ 100),
                                     lsTarget := clampI (Config.lockTrim e s.frm.lsTrim) 5000 } }
      else s
    s.capTrigger 3 x.t

/-- LSYNC_IN_LOSS (R31): no edge in 4 consecutive windows; the trim holds. -/
def execLsyncInLoss (s : State) : Out :=
  .next <| match s.frm.lsEdge with
    | none => s
    | some e =>
      if s.frm.role ≠ .head ∨ s.pn 1 0 10 = 0 then s else
      let s := s.goto (e + 4 * s.per + usT 1)
      { s with frm := { s.frm with lsEdge := none, lslock := false, lsMiss := 4, ovr := s.frm.ovr ||| 16,
                                   lsTarget := s.frm.lsTrim } }.raiseDev evLsyncLost []

/-! ## Reads that latch or clear (R28, R33) -/

/-- FRM_TIME_LO. -/
def execFrmTimeLo (s : State) : Out :=
  let v := BitVec.ofNat 64 (toNs s.frm.now)
  let s := s.hostWord (v.setWidth 32)
  .next { s with frm := { s.frm with timeHi := (v >>> 32).setWidth 32 } }

/-- FRM_FCNT_LO. -/
def execFrmFcntLo (s : State) : Out :=
  let s := s.hostWord (s.frm.frame.setWidth 32)
  .next { s with frm := { s.frm with fcntHi := (s.frm.frame >>> 32).setWidth 16 } }

/-- FRM_T0_LO. -/
def execFrmT0Lo (s : State) : Out :=
  let v := BitVec.ofNat 64 (toNs s.frm.t0)
  let s := s.hostWord (v.setWidth 32)
  .next { s with frm := { s.frm with t0Hi := (v >>> 32).setWidth 32 } }

/-- FRM_LSIN_LO. -/
def execFrmLsinLo (s : State) : Out :=
  let s := s.hostWord (s.frm.lsin.setWidth 32)
  .next { s with frm := { s.frm with lsinHi := (s.frm.lsin >>> 32).setWidth 32 } }

/-- FRM_TURNMAX: returned and cleared (R10, R33). -/
def execFrmTurnmax (s : State) : Out :=
  let s := s.hostWord (BitVec.ofNat 32 (s.frm.turn + s.frm.turnBranch * 4096))
  .next { s with frm := { s.frm with turn := 0, turnBranch := 0 } }

/-! ## The idle cycle (log 31) -/

/-- With no command waiting, one CK_NET cycle of 3.2 ns passes; the rate trim of the role (R30, R202, R252) and the slew of a
follower's phase (R202) gain or lose 0.2 ns as they accrue. DESIGN CHOICE (log 46): the LOCK trim stays in force in the head
role when a configuration without LOCK mode follows. -/
def State.idleCycle (s : State) : State :=
  let rate := if s.frm.role = .head then s.frm.fixTrim + s.frm.lsTrim else tget 0 s.net.rate s.syncBranch
  let acc := s.frm.trimAcc + rate * 16 + s.slewOver (s.frm.now + 16)
  let k := acc.tdiv 100000000
  { s with frm := { s.frm with trimAcc := acc - k * 100000000 } }.goto (s.frm.now + ((16 : Int) + k).toNat)

end Sys2Proof.Machine
end

