-- ==== Sys2Proof/Machine/Profile.lean ====
section
/-! DEFINITION. Jerk-limited plans: construction and closed-form evaluation (05 R123 to R131), used for axes and for
line axes (04 R91, R93). The spec fixes the segments; the arithmetic of their durations is the model's (log 4). -/

namespace Sys2Proof.Machine

/-- Limits of a plan: speed, acceleration, deceleration, jerk. -/
structure PlanLim where
  v : F64
  a : F64
  d : F64
  j : F64
  deriving DecidableEq, Repr

/-- A plan under construction: segments newest first, and the state reached. -/
structure Build where
  segs : List Seg := []
  tau : F64 := .zero
  x : F64 := .zero
  v : F64 := .zero
  a : F64 := .zero
  deriving DecidableEq, Repr

/-- The state u seconds into a segment (R124): place, speed, acceleration. -/
def segAt (g : Seg) (u : F64) : F64 × F64 × F64 :=
  let u2 := fmul u u
  let u3 := fmul u2 u
  let x := fadd (fadd (ffma g.v u g.x) (fdiv (fmul g.a u2) f64two)) (fdiv (fmul g.j u3) (fOfNat 6))
  let v := fadd (ffma g.a u g.v) (fdiv (fmul g.j u2) f64two)
  (x, v, ffma g.j u g.a)

/-- Add a segment of length t and jerk j; a segment of no duration is omitted (R124). -/
def Build.push (b : Build) (t j : F64) : Build :=
  if flt F64.zero t then
    let g : Seg := { tau := b.tau, x := b.x, v := b.v, a := b.a, j := j }
    let (x, v, a) := segAt g t
    { segs := g :: b.segs, tau := fadd b.tau t, x := x, v := v, a := a }
  else b

/-- Store the exact value the plan's construction fixes (R124). -/
def Build.fixA (b : Build) (a : F64) : Build := { b with a := a }
def Build.fixV (b : Build) (v : F64) : Build := { b with v := v }

def fneg? (neg : Bool) (x : F64) : F64 := if neg then fneg x else x

/-- The speed reached when the acceleration is brought to zero at the jerk limit. -/
def speedAtRest (j : F64) (b : Build) : F64 :=
  fadd b.v (fdiv (fmul b.a (fabs b.a)) (fmul f64two j))

/-- An acceleration beyond alim in its own direction is brought to alim at the jerk limit. -/
def Build.toLimit (b : Build) (alim j : F64) : Build :=
  if flt alim (fabs b.a) then
    let neg := flt b.a F64.zero
    (b.push (fdiv (fsub (fabs b.a) alim) j) (fneg? (!neg) j)).fixA (fneg? neg alim)
  else b

/-- A change of speed to vt, of one to three segments (R126), that leaves its last jerk segment while the acceleration still is
of size q. Where q is zero it ends with zero acceleration at vt, and vt is stored as it is where fix holds (R124). -/
def Build.legLeave (b : Build) (fix : Bool) (vt alim j q : F64) : Build :=
  let close (b : Build) : Build :=
    if feq q F64.zero then (let b := b.fixA F64.zero; if fix then b.fixV vt else b) else b
  let dv := fsub vt (speedAtRest j b)
  if feq dv F64.zero then
    close (b.push (fdiv (fsub (fabs b.a) q) j) (fneg? (flt F64.zero b.a) j))
  else
    let neg := flt dv F64.zero
    let d := fneg? neg F64.one
    let b := if feq (fsgn b.a) d then b.toLimit alim j else b
    let g := fadd (fmul d (fsub vt b.v)) (fdiv (fmul b.a b.a) (fmul f64two j))
    let p0 := fsqrt (fmax (fmul j g) F64.zero)
    let full := flt alim p0
    let p := if full then alim else p0
    let tc := if full then fdiv (fsub g (fdiv (fmul p p) j)) p else F64.zero
    let da := fsub (fmul d p) b.a
    let b := b.push (fdiv (fabs da) j) (fneg? (flt da F64.zero) j)
    let b := if full then b.fixA (fmul d p) else b
    let b := b.push tc F64.zero
    close (b.push (fdiv (fsub p q) j) (fneg? (!neg) j))

/-- A change of speed to vt ending with zero acceleration; vt is zero, v_T or ±PROF.V_MAX (R124, R126). -/
def Build.leg (b : Build) (vt alim j : F64) : Build := b.legLeave true vt alim j F64.zero

/-- The acceleration limit that applies to the state (R129 step 1). -/
def accLimit (L : PlanLim) (b : Build) : F64 :=
  if feq b.v F64.zero || (flt b.a F64.zero = flt b.v F64.zero) then L.a else L.d

/-- R129 step 1: an acceleration beyond its limit is brought to it at the jerk limit. -/
def Build.toAccLimit (b : Build) (L : PlanLim) : Build := b.toLimit (accLimit L b) L.j

/-- Onward to zero speed with all the acceleration the decelerating limit allows in direction neg: the square of what zero speed is
reached with, before that limit (R126). -/
def crossAcc2 (L : PlanLim) (neg : Bool) (b : Build) : F64 := fnma (fmul f64two L.j) (fneg? neg b.v) (fmul b.a b.a)

/-- Pass through zero speed in direction neg with the decelerating limit, where a stop at zero is out of reach (R126). -/
def Build.crossZero (b : Build) (L : PlanLim) (neg : Bool) : Build :=
  let up := fneg? neg b.a
  let ac := fsqrt (crossAcc2 L neg b)
  if fle ac L.d then (b.push (fdiv (fsub ac up) L.j) (fneg? neg L.j)).fixV F64.zero
  else
    let b := (b.push (fdiv (fsub L.d up) L.j) (fneg? neg L.j)).fixA (fneg? neg L.d)
    (b.push (fdiv (fabs b.v) L.d) F64.zero).fixV F64.zero

/-- To vt through zero speed without a stop (R126): PROF.D_MAX bounds the acceleration before zero speed, PROF.A_MAX after it. -/
def Build.through (b : Build) (L : PlanLim) (vt : F64) : Build :=
  let neg := flt vt F64.zero
  let ac0 := fsqrt (crossAcc2 L neg b)
  let ac := fmin ac0 L.d
  if fle ac0 (fmin L.a L.d) then b.leg vt L.a L.j
  else if fle (fmul ac ac) (fmul (fmul f64two L.j) (fabs vt)) then (b.crossZero L neg).leg vt L.a L.j
  else b.leg vt L.d L.j

/-- The velocity-mode plan to vt (R126), after R129 step 1. -/
def Build.velocity (b : Build) (L : PlanLim) (vt : F64) : Build :=
  let neg (x : F64) := flt x F64.zero
  let opp (x y : F64) := !feq x F64.zero && !feq y F64.zero && neg x != neg y
  let vs := speedAtRest L.j b
  -- the present acceleration already leads to vt or beyond it, in its own direction
  let past := neg vs == neg vt && fle (fabs vt) (fabs vs)
  if opp b.v vt && opp vs b.v then (if past then b.leg vt L.d L.j else b.through L vt)
  else if opp b.v vt then (b.leg F64.zero L.d L.j).leg vt L.a L.j
  else if opp vs vt then b.through L vt
  else b.leg vt (if flt (fabs vs) (fabs vt) then L.a else L.d) L.j

/-- The first instant in a segment of length t at which |v| is down to vmax, or t when none is found. -/
def crossAt (g : Seg) (vmax t : F64) : F64 :=
  let s := fneg? (flt g.v F64.zero) F64.one
  let v := fsub (fmul s g.v) vmax
  let a := fmul s g.a
  let j := fmul s g.j
  let r :=
    if feq j F64.zero then fdiv (fneg v) a
    else fdiv (fsub (fneg a) (fsqrt (fmax (fsub (fmul a a) (fmul (fmul f64two j) v)) F64.zero))) j
  if fle F64.zero r && fle r t then r else t

/-- The instant at which |v| first lies within vmax, over segments oldest first ending at stop (R129 step 2). -/
def withinAt (vmax stop : F64) : List Seg → F64
  | [] => stop
  | g :: rest =>
    let stop' := match rest with
      | [] => stop
      | h :: _ => h.tau
    if fle (fabs g.v) vmax then g.tau
    else
      let t := fsub stop' g.tau
      let (_, v1, _) := segAt g t
      if fle (fabs v1) vmax then fadd g.tau (crossAt g vmax t) else withinAt vmax stop rest

/-- Close a construction that started at speed v0 into a plan. -/
def Build.toPlan (b : Build) (L : PlanLim) (v0 lim0 : F64) (p : Plan) : Plan :=
  let segs := b.segs.reverse
  { p with
    segs := segs, stop := b.tau, vEnd := b.v, xEnd := b.x
    limEnd := if flt L.v (fabs v0) then fmax lim0 (withinAt L.v b.tau segs) else lim0 }

/-- A velocity-mode plan from speed v0 and acceleration a0 to vt (R126, R129). -/
def planVelocity (L : PlanLim) (v0 a0 vt : F64) (p : Plan) : Plan :=
  let b : Build := ({ v := v0, a := a0 } : Build).toAccLimit L
  let lim0 := b.tau
  (b.velocity L (fclamp vt (fneg L.v) L.v)).toPlan L v0 lim0 { p with vmode := true }

/-- To rest at the decelerating limits. -/
def Build.halt (b : Build) (L : PlanLim) : Build := b.leg F64.zero L.d L.j

/-- Through a peak speed vp, reached with zero acceleration, to rest. -/
def Build.peak (b : Build) (L : PlanLim) (vp : F64) : Build := (b.legLeave false vp L.a L.j F64.zero).halt L

/-- A deceleration is eased to size r at the jerk limit, then to rest. -/
def Build.ease (b : Build) (L : PlanLim) (r : F64) : Build :=
  let neg := flt b.a F64.zero
  (b.push (fdiv (fsub (fabs b.a) r) L.j) (fneg? (!neg) L.j)).halt L

/-- Down to speed vm with a deceleration of size q left, then to rest. -/
def Build.join (b : Build) (L : PlanLim) (vm q : F64) : Build :=
  let w := fsub (fabs vm) (fdiv (fmul q q) (fmul f64two L.j))
  (b.legLeave false (fneg? (flt vm F64.zero) w) L.d L.j q).halt L

/-- The largest value in [lo, hi] that meets p, by halving; lo meets it. -/
def halving (p : F64 → Bool) : Nat → F64 → F64 → F64
  | 0, lo, _ => lo
  | n + 1, lo, hi =>
    let mid := fdiv (fadd lo hi) f64two
    if p mid then halving p n mid hi else halving p n lo mid

/-- The shortest-time way to rest at place dist, ahead in direction sg of where the state can stop (R127, R129): with a cruise at
PROF.V_MAX where the distance admits it, else through the largest peak the distance admits, or by easing the present deceleration.
A speed that lies above PROF.V_MAX, or is bound to pass it, comes down to it (R129 step 2; DESIGN CHOICE, log 4: with a
deceleration left at PROF.V_MAX where the stop after a cruise would lie beyond the target). -/
def Build.toTarget (b : Build) (L : PlanLim) (sg : Bool) (dist : F64) : Build :=
  let short (b : Build) : Bool := fle (fneg? sg b.x) (fneg? sg dist)
  let vs := fneg? sg (speedAtRest L.j b)
  let fast := flt L.v vs
  let vm := fneg? sg L.v
  let b1 := b.leg vm (if fast then L.d else L.a) L.j
  if short (b1.halt L) then
    (b1.push (fdiv (fabs (fsub dist (b1.halt L).x)) L.v) F64.zero).halt L
  else if fast then
    let most := fmin L.d (fsqrt (fmul (fmul f64two L.j) L.v))
    -- the least deceleration left at V_MAX, that is the farthest way, which stays short of the target
    b.join L vm (fsub most (halving (fun x => short (b.join L vm (fsub most x))) 64 F64.zero most))
  else if fle F64.zero vs && short (b.peak L (fneg? sg vs)) then
    b.peak L (fneg? sg (halving (fun x => short (b.peak L (fneg? sg x))) 64 vs L.v))
  else
    let a := fabs b.a
    b.ease L (fsub a (halving (fun x => short (b.ease L (fsub a x))) 64 F64.zero a))

/-- A position-mode plan over dist revolutions (R127 to R129). -/
def planPosition (L : PlanLim) (v0 a0 dist : F64) (p : Plan) : Plan :=
  let b : Build := ({ v := v0, a := a0 } : Build).toAccLimit L
  let lim0 := b.tau
  let rest := b.halt L
  let left := fsub dist rest.x
  let moving := !feq b.v F64.zero || !feq b.a F64.zero
  -- direction of motion, and of what is left beyond the stop point
  let sg := if feq b.v F64.zero then flt b.a F64.zero else flt b.v F64.zero
  let back := flt left F64.zero
  let vs := speedAtRest L.j b
  let turns := !feq b.v F64.zero && !feq vs F64.zero && flt vs F64.zero != sg
  let p := { p with vmode := false, rev := false }
  if feq left F64.zero then rest.toPlan L v0 lim0 p
  else if !moving || (back == sg && !turns) then (b.toTarget L back dist).toPlan L v0 lim0 p
  else (rest.toTarget L back dist).toPlan L v0 lim0 { p with rev := back != sg }

/-- Seconds from t_s to S of frame n. -/
def planTime (perNs : Nat) (p : Plan) (n : Nat) : F64 :=
  fdiv (fOfInt (((n : Int) - p.ts) * perNs)) (fOfNat 1000000000)

/-- The segment that governs the instant u and its number from k on. -/
def segFind (u : F64) : List Seg → Nat → Option (Seg × Nat)
  | [], _ => none
  | [g], k => some (g, k)
  | g :: h :: rest, k => if flt u h.tau then some (g, k) else segFind u (h :: rest) (k + 1)

/-- Place, speed, acceleration and segment number (0 after the end) of a plan at u (R124). -/
def planAt (p : Plan) (u : F64) : F64 × F64 × F64 × Nat :=
  if flt u p.stop then
    match segFind u p.segs 1 with
    | some (g, k) => let (x, v, a) := segAt g (fsub u g.tau); (x, v, a, k)
    | none => (p.xEnd, p.vEnd, .zero, 0)
  else (ffma p.vEnd (fsub u p.stop) p.xEnd, p.vEnd, .zero, 0)

/-- The travel of a plan between two instants, in closed form for each segment (04 R91). -/
def planTravel (stop vEnd t0 t1 : F64) : List Seg → F64 → F64
  | [], acc =>
    let lo := fmax t0 stop
    if flt lo t1 then ffma vEnd (fsub t1 lo) acc else acc
  | g :: rest, acc =>
    let e := match rest with
      | [] => stop
      | h :: _ => h.tau
    let lo := fmax t0 g.tau
    let hi := fmin t1 e
    let acc :=
      if flt lo hi then
        let (_, v, a) := segAt g (fsub lo g.tau)
        let u := fsub hi lo
        let u2 := fmul u u
        fadd (fadd (ffma v u acc) (fdiv (fmul a u2) f64two)) (fdiv (fmul g.j (fmul u2 u)) (fOfNat 6))
      else acc
    planTravel stop vEnd t0 t1 rest acc

/-- Counts and fraction of f + x · CPR, split at the floor (R124). -/
def splitCounts (base : W64) (frac : F64) : W64 × F64 :=
  (base + BitVec.ofInt 64 (ffloorInt frac), fsub frac (ffloor frac))

end Sys2Proof.Machine
end

