-- ==== Sys2Proof/Machine/Follow.lean ====
section
/-! DEFINITION. The trailing kernels: disturbance observer, adaptation, references from plans, lines and cams; the
zone kernels (02 R57 to R62, 04 R95 to R115, 05 R124 to R143). -/

namespace Sys2Proof.Machine

def f64c001 : F64 := ⟨0x3F847AE147AE147B⟩   -- 0.01
def f64c0001 : F64 := ⟨0x3F50624DD2F1A9FC⟩  -- 0.001
def f64c02 : F64 := ⟨0x3FC999999999999A⟩    -- 0.20
def f64quarter : F64 := ⟨0x3FD0000000000000⟩
def f64four : F64 := ⟨0x4010000000000000⟩
def f64six : F64 := ⟨0x4018000000000000⟩
def f64twelve : F64 := ⟨0x4028000000000000⟩

/-- One step of the observer (R57). -/
def observerStep (P : Par) (per sJ tauE eW : F64) (wHat tauL : F64) : F64 × F64 :=
  let j := fmul (parF P 600) sJ
  let wo := parF P 602
  let q := fdiv (fnma (parF P 601) wHat (fsub tauE tauL)) j
  let w' := ffma per (ffma (fmul f64two wo) eW q) wHat
  let t' := fnma (fmul (fmul per (fmul wo wo)) j) eW tauL
  (w', t')

/-- Prediction steps that bridge skipped trailing kernels (01 R20). -/
def observerBridge (P : Par) (per sJ tauE : F64) : Nat → F64 × F64 → F64 × F64
  | 0, x => x
  | n + 1, (w, t) => observerBridge P per sJ tauE n (observerStep P per sJ tauE .zero w t)

/-- The observer of a SERVO-C or SERVO-V axis for the frame (R57, R83). -/
def observe (P : Par) (ty : Nat) (per sJ vqPrev : F64) (skips : Nat) (fb : AxFb) : AxFb :=
  let tauE := if ty = 1 then fmul (parF P 500) fb.iQ else fb.tauNode
  let (w0, t0) := observerBridge P per sJ tauE skips (fb.wHat, fb.tauL)
  let drive := if fb.est then ty = 1 && (estSpeed P vqPrev fb).2 else fb.acc
  let eW := if drive then fsub fb.om w0 else F64.zero
  let (w, t) := observerStep P per sJ tauE eW w0 t0
  { fb with wHat := w, tauL := t, thHat := ffma w per (thetaM P fb.pos) }

/-- Move x toward t by at most step. -/
def slew (x t step : F64) : F64 := fclamp t (fsub x step) (fadd x step)

/-- s_J and δ of the next frame and the two clamping latches (R60 to R62). -/
def adapt (sTarget dTarget : F64) (r : AxRef) : AxRef :=
  let s := fclamp sTarget f64quarter f64four
  let d := fclamp dTarget (fneg f64c02) f64c02
  { r with
    sJn := slew r.sJ s (fmul f64c001 r.sJ), dlN := slew r.dl d f64c0001
    clampS := !feq s sTarget, clampD := !feq d dTarget }

/-- The s_J target of the roll-diameter estimator (R114). -/
def diaInertia (P : Par) (dia : F64) : F64 :=
  fdiv (ffma (parF P 929) (fsub (fpow4 dia) (fpow4 (parF P 930))) (parF P 928)) (parF P 600)

/-- The radius of a follower (R96). -/
def followRadius (P : Par) (dia : F64) : F64 := if parN P 905 = 1 then fdiv dia f64two else parF P 904

/-- The draw in use moved toward LF.DRAW (R97). -/
def moveDraw (P : Par) (per : F64) (r : AxRef) : AxRef :=
  { r with draw := slew r.draw (parD P 902) (fmul (parF P 903) per) }

/-- Gear references for the next S (R96). -/
def gearRefs (P : Par) (ln : LineSt) (r : AxRef) : AxRef :=
  let g := fmul r.draw (fadd F64.one r.trim)
  let frac := fadd r.frac (fdiv (fmul (fdiv (fmul g ln.dx) r.rad) (parNF P 64)) f64twoPi)
  let (i, f) := splitCounts r.int frac
  { r with intN := i, fracN := f, wN := fdiv (fmul g ln.v) r.rad, aN := fdiv (fmul g ln.a) r.rad }

/-- A knot of a table; a missing one is all zeros (no table, or a segment past the end). -/
def knotAt (t : CamTable) (i : Nat) : Knot := (t.knots[i]?).getD ⟨.zero, .zero, .zero⟩

/-- y, y1 and y2 of the cubic through segment i at master phase phi (R102). -/
def camEval (t : CamTable) (i : Nat) (phi : F64) : F64 × F64 × F64 :=
  let k0 := knotAt t i
  let k1 := knotAt t (i + 1)
  let h := fsub k1.x k0.x
  let u := fdiv (fsub phi k0.x) h
  let u2 := fmul u u
  let u3 := fmul u2 u
  let tw := f64two
  let th := f64three
  let p1 := fadd (fnma th u2 (fmul tw u3)) F64.one
  let p2 := fadd (fnma tw u2 u3) u
  let p3 := ffma th u2 (fmul (fneg tw) u3)
  let p4 := fsub u3 u2
  let mix (a b c d : F64) : F64 :=
    ffma (fmul d h) k1.s (ffma c k1.y (ffma (fmul b h) k0.s (fmul a k0.y)))
  let y := mix p1 p2 p3 p4
  let y1 := fdiv (mix (fnma f64six u (fmul f64six u2)) (fadd (fnma f64four u (fmul th u2)) F64.one)
    (fnma f64six u2 (fmul f64six u)) (fnma tw u (fmul th u2))) h
  let y2 := fdiv (mix (fsub (fmul f64twelve u) f64six) (fsub (fmul f64six u) f64four)
    (fnma f64twelve u f64six) (fsub (fmul f64six u) tw)) (fmul h h)
  (y, y1, y2)

/-- The base that makes the cam's count at phi equal the present reference (R95, R103). DESIGN CHOICE (log 5): the base is an
integer, so it is the one whose reference is nearest to the present one. -/
def camRebase (P : Par) (t : CamTable) (r : AxRef) (m : AxMot) : AxMot :=
  let (y, _, _) := camEval t m.camSeg m.phi
  let c := fmul (fsub y (knotAt t 0).y) (parNF P 64)
  { m with camBase := r.int + BitVec.ofInt 64 (froundInt (fsub r.frac c)) }

/-- The references of a cam at the phase held (R102). -/
def camOut (P : Par) (ln : LineSt) (t : CamTable) (m : AxMot) (r : AxRef) : AxRef :=
  let (y, y1, y2) := camEval t m.camSeg m.phi
  let g := parD P 902
  let frac := fmul (fsub y (knotAt t 0).y) (parNF P 64)
  let (i, f) := splitCounts m.camBase frac
  let gv := fmul g ln.v
  { r with
    intN := i, fracN := f
    wN := fmul (fmul (fmul f64twoPi y1) g) ln.v
    aN := fmul f64twoPi (ffma (fmul y1 g) ln.a (fmul y2 (fmul gv gv))) }

/-- Hold the reference with no speed. -/
def holdRefs (r : AxRef) : AxRef := { r with intN := r.int, fracN := r.frac, wN := .zero, aN := .zero }

/-- The end of a one-shot run: the reference at the last knot (R103). -/
def camEndRefs (P : Par) (t : CamTable) (m : AxMot) (r : AxRef) : AxRef :=
  let y := (knotAt t (t.npts - 1)).y
  let (i, f) := splitCounts m.camBase (fmul (fsub y (knotAt t 0).y) (parNF P 64))
  { r with intN := i, fracN := f, wN := .zero, aN := .zero }

/-- Cam references for the next S in frame n (R102 to R104); tabs gives the tables. DESIGN CHOICE (log 5): the table of a switch
that has taken effect stays in use, also through OPEN and DISABLED and whatever LF.CAM says, until the next switch or the next
configuration; a pending switch stays pending as long. -/
def camRefs (P : Par) (n : Nat) (ln : LineSt) (tabs : Nat → CamTable) (r : AxRef) (m : AxMot) : AxRef × AxMot :=
  let cur := m.camSel.getD (parN P 908)
  let t := tabs cur
  if !t.cyclic then
    if !m.camRun then (if m.camHold then (camEndRefs P t m r, m) else (holdRefs r, { m with camSync := 0 }))
    else if m.camSync = 2 then
      let m := camRebase P t r { m with phi := .zero, camSeg := 0, camSync := 0 }
      (camOut P ln t m r, m)
    else
      let phi := ffma (parD P 902) ln.dx m.phi
      if fle t.xcyc phi then
        let m := { m with phi := t.xcyc, camRun := false, camHold := true, camDone := true }
        (camEndRefs P t m r, m)
      else
        let seg := if fle (knotAt t (m.camSeg + 1)).x phi then m.camSeg + 1 else m.camSeg
        let m := { m with phi := phi, camSeg := seg }
        (camOut P ln t m r, m)
  else
    let m := if m.camSync = 0 then m else camRebase P t r { m with camSync := 0 }
    let phi := ffma (parD P 902) ln.dx m.phi
    if fle t.xcyc phi then
      let base := m.camBase + BitVec.ofInt 64 (froundInt (fmul t.yrise (parNF P 64)))
      let due := match m.camPend with
        | some (c, from') => if from' ≤ n then some c else none
        | none => none
      let m := { m with
        phi := fsub phi t.xcyc, camSeg := 0, camBase := base
        camSel := match due with | some c => some c | none => m.camSel
        camPend := if due.isSome then none else m.camPend }
      let t := tabs (m.camSel.getD (parN P 908))
      let m := { m with camSeg := if fle (knotAt t 1).x m.phi then 1 else 0 }
      (camOut P ln t m r, m)
    else
      let seg := if fle (knotAt t (m.camSeg + 1)).x phi then m.camSeg + 1 else m.camSeg
      let m := { m with phi := phi, camSeg := seg }
      (camOut P ln t m r, m)

/-- References from the plan for S(n+1) (R124, R125) and the motion bits it sets (R132). -/
def planRefs (P : Par) (perNs n : Nat) (r : AxRef) (m : AxMot) : AxRef × AxMot :=
  let p := m.plan
  let u := planTime perNs p (n + 1)
  let (x, v, a, k) := planAt p u
  let ended := !flt u p.stop
  let arrive := m.planOn && ended && !p.vmode
  let (i, f) := if arrive then (p.target, F64.zero) else splitCounts p.x0 (ffma x (parNF P 64) p.f0)
  ({ r with
     intN := i, fracN := f
     wN := if arrive then .zero else fmul f64twoPi v
     aN := if arrive then .zero else fmul f64twoPi a },
   { m with nxt := {
     seg := if m.planOn then k else 0, vmode := p.vmode
     overlim := m.planOn && flt u p.limEnd
     reversal := m.planOn && p.rev && !m.cur.atTarget
     atTarget := arrive
     pstop := m.planOn && p.pstop } })

/-- What the trailing kernel needs beside the axis. -/
structure TrailIn where
  per : F64
  perNs : Nat
  frame : Nat
  line : LineSt                  -- state of the line axis followed
  sTarget : F64                  -- s_J target by its source
  dTarget : F64                  -- δ target by its source
  trim : F64                     -- sum of the zone contributions
  deriving DecidableEq, Repr

/-- Total trim of the frame (R98). -/
def totalTrim (P : Par) (sum : F64) (r : AxRef) : AxRef :=
  let t := fclamp sum (fneg (parF P 906)) (parF P 906)
  { r with trim := t, trimSat := !feq t sum }

/-- The INPOS count (R132): frames at the target within the window. -/
def inposCount (P : Par) (fb : AxFb) (r : AxRef) (m : AxMot) : AxMot :=
  let near := m.cur.atTarget && (r.int - fb.pos).toInt.natAbs ≤ parN P 949
  { m with inposN := if near then m.inposN + 1 else 0, inpos := m.inpos && near }

/-- The trailing kernel of an axis before the test of R38. -/
def trailKernel (P : Par) (tabs : Nat → CamTable) (I : TrailIn) (ax : Axis) : Axis :=
  let ty := parN P 0
  let fb := if (ty = 1 || ty = 2) && ax.st.supervised then observe P ty I.per ax.rf.sJ ax.lp.vApp ax.skips ax.fb else ax.fb
  let rf := adapt I.sTarget I.dTarget ax.rf
  let rf := totalTrim P I.trim (moveDraw P I.per rf)
  let rf := { rf with rad := followRadius P rf.dia }
  let mo := inposCount P fb rf ax.mo
  let (rf, mo) :=
    if parN P 900 = 0 then
      (if ax.st.isClosed || ax.st = .freeze then planRefs P I.perNs I.frame rf mo else (rf, { mo with nxt := {} }))
    else if !ax.st.isClosed then (rf, { mo with nxt := {} })
    else if parN P 900 = 1 then (gearRefs P I.line rf, { mo with nxt := {} })
    else camRefs P I.frame I.line tabs rf mo
  { ax with fb := fb, rf := rf, mo := mo, trailDone := true, skips := 0 }

/-- The numbers R38 tests after a trailing kernel. -/
def trailNumbers (ax : Axis) : List F64 :=
  [ax.fb.wHat, ax.fb.tauL, ax.fb.thHat, ax.rf.sJn, ax.rf.dlN, ax.rf.draw, ax.rf.trim, ax.rf.fracN, ax.rf.wN, ax.rf.aN,
    ax.mo.phi]

/-- R38 for the trailing kernel: its states and outputs are not used in the next frame. -/
def nonfiniteTrail (ax : Axis) : Axis := { ax with nonfin := true, trailDone := true, skips := 0 }

/-- One axis as its zones see it in frame n (R106): with the feedback of the frame. -/
structure ZoneAx where
  tauE : F64
  j : F64
  sJ : F64
  al : F64
  b : F64
  om : F64
  fric : F64
  rad : F64
  closed : Bool
  deriving DecidableEq, Repr

def zoneAx (P : Par) (ax : Axis) (fb : AxFb) : ZoneAx :=
  { tauE := if parN P 0 = 1 then fmul (parF P 500) fb.iQ else fb.tauNode
    j := parF P 600, sJ := ax.rf.sJ, al := ax.rf.a, b := parF P 601, om := fb.om, fric := parF P 907
    rad := ax.rf.rad, closed := ax.st.isClosed }

/-- Net torque to the web (R106). -/
def webTorque (k : ZoneAx) : F64 :=
  fnma k.fric (fsgn k.om) (fnma k.b k.om (fnma (fmul k.j k.sJ) k.al k.tauE))

/-- What a zone's critical kernel needs beside the zone. -/
structure ZoneIn where
  up : ZoneAx
  dn : ZoneAx
  tPrev : F64                    -- T̂[n−1] of PREV, 0 when none
  tNext : F64
  lc : Option W16                -- the load-cell word when its node's sample was accepted
  sp : F64                       -- the tension setpoint of the source
  vL : F64                       -- v_L of the line the downstream axis follows
  per : F64
  deriving DecidableEq, Repr

/-- The raw tension estimate (R107, R108). -/
def zoneRaw (P : Par) (I : ZoneIn) : F64 :=
  let tu := fsub I.tPrev (fdiv (webTorque I.up) I.up.rad)
  let td := fadd I.tNext (fdiv (webTorque I.dn) I.dn.rad)
  let w := parF P 6
  let torque := ffma (fsub F64.one w) td (fmul w tu)
  match I.lc with
  | some x => if parN P 5 = 1 then fsub (fmul (parF P 10) (fOfInt x.toInt)) (parF P 11) else torque
  | none => torque

/-- k_f of R107. -/
def zoneKf (P : Par) (per : F64) : F64 :=
  fsub F64.one (fexp (fmul (fmul (fmul (fneg f64two) f64pi) (parF P 7)) per))

/-- The controller runs in this frame (R111). -/
def zoneRuns (P : Par) (I : ZoneIn) (z : Zone) : Bool := parN P 0 = 1 && I.up.closed && I.dn.closed && !z.hold

/-- The zone's critical kernel before the test of R497 (R107 to R111, R115). -/
def zoneCrit (P : Par) (I : ZoneIn) (z : Zone) : Zone × F64 :=
  let raw := zoneRaw P I
  let prev := if z.has then z.that else raw
  let that := ffma z.kf (fsub raw prev) prev
  let ts := if z.tStarOn then slew z.tStar I.sp (fmul (parF P 15) I.per) else I.sp
  let runs := zoneRuns P I z
  let e := fsub ts that
  let k := zonePar P
  let cb := if runs then compStep k (if z.ran then z.cb else compReinit k z.u e) e else z.cb
  let low := flt that (parF P 50) && runs && fle (parF P 52) (fabs I.vL)
  let miss := if parN P 5 = 1 then (if I.lc.isSome then 0 else z.lcMiss + 1) else 0
  ({ z with
     that := that, has := true, tStar := ts, tStarOn := true, cb := cb, u := if runs then cb.out else z.u
     ran := runs, critDone := true, hold := false
     brk := if low then z.brk + 1 else 0, brkRep := z.brkRep && low
     lcMiss := miss, lcRep := z.lcRep && miss ≠ 0 }, raw)

def zoneNumbers (z : Zone) (raw : F64) : List F64 :=
  [raw, z.that, z.u, z.tStar, z.cb.e1, z.cb.e2, z.cb.e3, z.cb.u1, z.cb.u2, z.cb.u3, z.cb.out]

/-- R497: the states, T̂ and u_z from before the frame; no controller step. -/
def nonfiniteZone (z : Zone) : Zone := { z with critDone := true, hold := false, brk := 0, brkRep := false, nonfin := true }

/-- The zone as it stood before the frame, its contributions being those of the frame before (R497). -/
def Zone.restore (z : Zone) : Zone :=
  { nonfiniteZone z with that := z.thatPrev, u := z.uPrev, has := z.was.has, cb := z.was.cb, tStar := z.was.tStar,
                         tStarOn := z.was.tStarOn, ran := z.was.ran }

/-- A zone's contribution to one axis, folded onto a running sum (R110). -/
def contribOnto (sum m1 u m2 uPrev : F64) : F64 := ffma m2 uPrev (ffma m1 u sum)

/-- The diameter update (R112). -/
def diaUpdate (P : Par) (per omRef radRef : F64) (ax : Axis) : Axis :=
  let w := fabs ax.fb.om
  if ax.st.isClosed && !ax.fb.est && fle (parF P 926) w then
    let d := ax.rf.dia
    let raw := fdiv (fmul (fmul f64two (fabs omRef)) radRef) w
    let c := ffma (fdiv per (parF P 924)) (fsub raw d) d
    let lim := fmul (fmul f64two (parF P 925)) (fmax F64.one (fdiv (fmul w per) f64twoPi))
    let c := fmin (fmax c (fsub d lim)) (fadd d lim)
    let c := if parN P 927 = 0 then fmin c d else c
    let c := if parN P 927 = 1 then fmax c d else c
    let d' := fmin (fmax c (parF P 922)) (parF P 923)
    { ax with rf := { ax.rf with
        dia := d', diaMin := fle d' (parF P 922), diaMax := fle (parF P 923) d' } }
  else ax

/-- A reference as a signed count with 32 fraction bits (05 R134). -/
def refFixed (i : W64) (f : F64) : Int :=
  i.toInt * 2 ^ 32 + Dy.floor (Dy.mul (f64Dy f) ⟨1, 32⟩)

/-- Net emitted count of a channel (05 R139). -/
def StepCh.net (c : StepCh) : Int := c.fwd - c.bwd

/-- The critical kernel of a STEP axis (05 R134, 03 R72): place from the emitted count, and the increment handed to the channel.
Only a result in time is handed over; after a stall of R142 it is zero, and the re-basing follows. ω_m of a STEP axis, of which the
spec computes none, stays 0 (DESIGN CHOICE, log 3). -/
def stepCrit (P : Par) (I : CritIn) (ax : Axis) (c : StepCh) : Axis × StepCh :=
  let latch : W64 := BitVec.ofInt 64 c.latch
  let pos := ax.fb.pos + (latch - ax.fb.posAcc)
  let fb := { ax.fb with pos := pos, posAcc := latch, acc := true, pred := false, accN := 2 }
  let r := frameRefs ax fb
  let q := refFixed r.int r.frac
  let closing := ax.fromOpen && ax.st.isClosed
  let lastQ := if closing then q else c.lastQ
  let sent := I.sent && !ax.aband
  let zero := c.hold0 && ax.mo.homePhase == 2
  let c := if sent && ax.st.isClosed then
      { c with delta := if zero then 0 else q - lastQ, deltaOn := true, lastQ := q, hold0 := zero, rebase := zero }
    else if closing then { c with lastQ := q } else c
  ({ ax with
     fb := fb, reinit := false, fromOpen := false, critDone := true
     stopDone := ax.st = .stopping && feq r.w F64.zero && I.rest && fle (fabs fb.om) (parF P 805)
     lp := { ax.lp with valid := sent }
     rf := if ax.st.isClosed then { ax.rf with int := r.int, frac := r.frac, w := r.w, a := r.a } else ax.rf }, c)

end Sys2Proof.Machine
end

