-- ==== Sys2Proof/Machine/Motion.lean ====
section
/-! DEFINITION. Setpoints from the process image, the axis states and their transitions, FP1's profile and line work,
stall homing (R66 to R74, R85, R86, R91 to R93, R116, R123 to R131, R141 to R143, R394 to R396, R496). -/

namespace Sys2Proof.Machine

/-! ## The ACTIVE output buffer (R390, R394, R395, R496) -/

def poAxis (i : Nat) : Nat := 0x1800 + 64 * i
def poLine (l : Nat) : Nat := 0x200 + 32 * l
def poZone (z : Nat) : Nat := 0x400 + 16 * z
def poNode (r : Nat) : Nat := 0x800 + 512 * r

/-- n bytes of the ACTIVE output buffer. -/
def State.poBytes (s : State) (off n : Nat) : List Byte := mread ramByte (tget [] s.host.po s.host.piActive) off n
/-- A binary32 field of the ACTIVE output buffer. -/
def State.poF32 (s : State) (off : Nat) : F32 := ⟨BitVec.ofNat 32 (leNat (s.poBytes off 4))⟩
def f32Finite (x : F32) : Bool := fFinite (fWiden x)

/-- The value a consumer takes from the image: the field; where it is not finite the value last used (R496); where the
image is empty, or none was used, the value of R395. -/
def State.imgF32 (s : State) (off : Nat) (used : Option F32) (dflt : F32) : F32 :=
  if !s.host.committed then dflt
  else if f32Finite (s.poF32 off) then s.poF32 off
  else used.getD dflt

/-- What is remembered as used. -/
def State.imgUsed (s : State) (off : Nat) (used : Option F32) : Option F32 :=
  if s.host.committed && f32Finite (s.poF32 off) then some (s.poF32 off) else used

def f32one : F32 := ⟨0x3F800000⟩
def f32zero : F32 := ⟨0⟩

/-- The fields of the image that consumers of this frame use, ascending (R496). -/
def State.imgFields (s : State) : List Nat :=
  ((List.range 16).filter fun l => s.pn 8 l 0 == 1 && s.pn 8 l 8 == 0).map poLine ++
  (s.zoneIds.filter fun z => s.pn 6 z 13 == 1).map poZone ++
  ((List.range s.nroleParts.length).map fun r => (List.range 16).map fun c => poNode r + 14 + 16 * c).flatten ++
  (s.axisIds.map fun i =>
    (if s.pn 5 i 900 == 0 && s.pn 5 i 946 == 0 then [poAxis i + 8] else []) ++
    (if s.pn 5 i 700 == 2 then [poAxis i + 12] else []) ++
    (if s.pn 5 i 328 == 1 then [poAxis i + 16] else []) ++
    (if s.axType i == 1 && s.pn 5 i 808 == 1 then [poAxis i + 20, poAxis i + 24, poAxis i + 28] else [])).flatten

/-- EV_HOST_PROTO for the first non-finite field of the frame (R496). -/
def State.imgCheck (s : State) : State :=
  if !s.host.committed then s else
  match s.imgFields.find? fun o => !f32Finite (s.poF32 o) with
  | none => s
  | some o => s.raiseDev evHostProto ([1, 0] ++ leBytes 4 o)

/-! ## Targets and limits of an axis (R123, R150, R395) -/

def State.planLim (s : State) (i : Nat) : PlanLim :=
  let P := s.P 5 i
  { v := parF P 941, a := parF P 942, d := parF P 943, j := parF P 944 }

/-- The position target in force; the present reference while the image is empty. -/
def State.posTarget (s : State) (i : Nat) : W64 :=
  if s.pn 5 i 946 = 1 then s.par 5 i 947
  else if !s.host.committed then (if (s.axis i).st.isClosed || (s.axis i).st = .freeze then (s.axis i).rf.int else (s.axis i).fb.pos)
  else BitVec.ofNat 64 (leNat (s.poBytes (poAxis i) 8))

/-- The velocity target in force. -/
def State.velTarget (s : State) (i : Nat) : F32 :=
  if s.pn 5 i 946 = 1 then ⟨(s.par 5 i 948).setWidth 32⟩ else s.imgF32 (poAxis i + 8) (s.axis i).rf.usedV f32zero

/-- Targets, mode and limits as FP1 reads them. -/
def State.readNow (s : State) (i : Nat) : Recd :=
  let P := s.P 5 i
  { mode := parN P 940, pos := s.posTarget i, vel := fWiden (s.velTarget i),
    vmax := parF P 941, amax := parF P 942, dmax := parF P 943, jmax := parF P 944, dqs := parF P 945 }

/-- The limits of two readings agree. -/
def Recd.sameLim (a b : Recd) : Bool :=
  a.vmax = b.vmax && a.amax = b.amax && a.dmax = b.dmax && a.jmax = b.jmax && a.dqs = b.dqs

/-- The target of the mode in force differs between two readings. -/
def Recd.newTarget (now old : Recd) : Bool := if now.mode = 1 then now.vel != old.vel else now.pos != old.pos

/-- The s_J target of the frame (R60). -/
def State.sTarget (s : State) (i : Nat) : F64 :=
  let k := s.pn 5 i 700
  if k = 1 then diaInertia (s.P 5 i) (s.axis i).rf.dia
  else if k = 2 then fWiden (s.imgF32 (poAxis i + 12) (s.axis i).rf.usedS f32one)
  else F64.one

/-- The δ target of the frame (R61). -/
def State.dTarget (s : State) (i : Nat) : F64 :=
  if s.pn 5 i 328 = 1 then fWiden (s.imgF32 (poAxis i + 16) (s.axis i).rf.usedD f32zero) else F64.zero

/-- The open-loop vector of the frame (R68). -/
def State.olVec (s : State) (i : Nat) : OlVec :=
  let r := (s.axis i).rf
  let f (o : Nat) (u : Option F32) := fWiden (s.imgF32 (poAxis i + o) u f32zero)
  { vd := f 20 r.usedVd, vq := f 24 r.usedVq, th := f 28 r.usedTh }

/-- The finite image values of an axis become the ones last used (R496). -/
def State.useImage (s : State) (i : Nat) (r : AxRef) : AxRef :=
  let f (o : Nat) (u : Option F32) := s.imgUsed (poAxis i + o) u
  { r with usedV := f 8 r.usedV, usedS := f 12 r.usedS, usedD := f 16 r.usedD, usedVd := f 20 r.usedVd,
           usedVq := f 24 r.usedVq, usedTh := f 28 r.usedTh }

/-! ## Transitions (R66 to R72) -/

/-- The plan that holds a place at a speed with zero acceleration from S of frame n on, in the mode m. -/
def holdPlan (m : Nat) (x : W64) (f v : F64) (n : Nat) : Plan := { x0 := x, f0 := f, vEnd := v, ts := n, vmode := m == 1 }

/-- Homing ends, with the torque limits as full says. -/
def AxMot.homeEnd (m : AxMot) (full : Bool) : AxMot :=
  { m with homing := false, homePhase := 0, homeReq := 0, homeStall := 0, homeFull := full }

/-- The axis leaves the closed states: no plan and none of its MOTION bits, no homing, no cam run to follow. -/
def Axis.leave (a : Axis) (st : AxState) : Axis :=
  { a with
    st := st, stop := .none, stopDone := false, reinit := false, fromOpen := false, autoFz := false
    mo := { a.mo.homeEnd true with planOn := false, planNext := none, stopReq := .none, inpos := false, inposN := 0, camRun := false,
                                   camHold := false, cur := {}, nxt := {}, stepClamp := false, held := false, devNew := false } }

/-- Estimated feedback ends at entry into DISABLED or FAULT (R83). -/
def AxFb.endEst (f : AxFb) : AxFb :=
  { f with est := false, estNext := false, estDone := false, estLeft := f.est || f.estLeft,
           predRun := 0, predRep := false, frz := none, frzRep := false }

def Axis.toDisabled (a : Axis) : Axis := { a.leave .disabled with fb := a.fb.endEst }
def Axis.toFault (a : Axis) : Axis := { a.leave .fault with fb := a.fb.endEst, nonfin := false }
def Axis.toOpen (a : Axis) : Axis := a.leave .opn

/-- FREEZE keeps the profile generator and any cam (R67, R72). DESIGN CHOICE (log 3): of a CLOSE from OPEN at the same boundary no
closing frame is left, so the generator is not set to the measured state. -/
def Axis.toFreeze (a : Axis) : Axis :=
  { a with st := .freeze, stop := .none, stopDone := false, reinit := false, fromOpen := false
           mo := a.mo.homeEnd true }

/-- Entry into CLOSED, re-initialised in the next critical kernel. -/
def Axis.close (a : Axis) : Axis :=
  { a with st := .closed, fromOpen := a.st = .opn, reinit := true, autoFz := false, mo := { a.mo with devNew := true } }

/-- Severity of a stop under way: a commanded stop ranks below LINE_STOP (R69). -/
def StopKind.rank : StopKind → Nat
  | .none => 0
  | .command => 1
  | .line => 4
  | .quick => 5

/-- STOPPING of kind k. A profile stop is FP1's to plan (R130); a stop during homing ends homing, the full torque limits
return when it completes (R143). -/
def Axis.toStop (follows : Bool) (k : StopKind) (a : Axis) : Axis :=
  { a with
    st := .stopping, stop := k, stopDone := false, reinit := a.reinit || a.st = .freeze, autoFz := false
    mo := { a.mo.homeEnd (a.mo.homeFull && !a.mo.homing) with stopReq := if follows then .none else k, planNext := none } }

/-- The state change of a completed stop (R71). Back in CLOSED the axis rests at the stop, and no plan runs (R131). -/
def Axis.finishStop (a : Axis) : Axis :=
  if !(a.st = .stopping && a.stopDone) then { a with stopDone := false }
  else if a.fb.est then a.toFault
  else if a.stop = .quick then a.toDisabled
  else
    { a with st := .closed, stop := .none, stopDone := false
             mo := { a.mo with stopReq := .none, homeFull := true, devNew := true, planOn := false
                               plan := { a.mo.plan with pstop := false, vmode := a.mo.recd.mode == 1 }
                               cur := { a.mo.cur with pstop := false }, nxt := { a.mo.nxt with pstop := false } } }

/-- A stop reaction on an axis (R69, R86): only a more severe one replaces a stop under way. -/
def Axis.stopReact (follows : Bool) (k : StopKind) (a : Axis) : Axis :=
  if a.st = .closed || a.st = .freeze then a.toStop follows k
  else if a.st = .stopping && a.stop.rank < k.rank then a.toStop follows k
  else a

/-- Estimated feedback starts at the boundary after its event, in frame n (R83). DESIGN CHOICE (log 3): where that boundary takes
the axis to DISABLED or FAULT, the axis has entered estimated feedback and left it, and an ACK waits for an accepted sample. -/
def Axis.startEst (n : Nat) (a : Axis) : Axis :=
  if !a.fb.estNext then a
  else if !a.st.supervised then { a with fb := { a.fb with estNext := false } }
  else { a with fb := { a.fb with estNext := false, est := true, estFrom := n, estRem := .zero, estDone := false } }

/-! ## FP1: plans (R123 to R131, R141) -/

/-- The plan in force as a fresh start at S of frame n: place, fraction, speed, acceleration. -/
def planStart (P : Par) (on : Bool) (perNs n : Nat) (p : Plan) : W64 × F64 × F64 × F64 :=
  let (x, v, a, _) := planAt p (planTime perNs p n)
  let (i, f) := splitCounts p.x0 (ffma x (parNF P 64) p.f0)
  if !flt (planTime perNs p n) p.stop && !p.vmode && on then (p.target, .zero, .zero, .zero) else (i, f, v, a)

/-- Revolutions from a place to a target. -/
def revsTo (P : Par) (target x : W64) (f : F64) : F64 := fdiv (fsub (fOfInt (target - x).toInt) f) (parNF P 64)

/-- A plan of FP1 in frame m to a speed, from the state of the plan in force at S(m+1). -/
def planSpeed (P : Par) (L : PlanLim) (on : Bool) (perNs m : Nat) (old : Plan) (vt : F64) : Plan :=
  let (x, f, v, a) := planStart P on perNs (m + 1) old
  planVelocity L v a vt { x0 := x, f0 := f, ts := m + 1 }

/-- A plan of FP1 in frame m to a place. -/
def planPlace (P : Par) (L : PlanLim) (on : Bool) (perNs m : Nat) (old : Plan) (target : W64) : Plan :=
  let (x, f, v, a) := planStart P on perNs (m + 1) old
  planPosition L v a (revsTo P target x f) { x0 := x, f0 := f, ts := m + 1, target := target }

/-- The homing speed in its direction (R141). -/
def homeSpeed (P : Par) : F64 := fneg? (parN P 960 = 1) (parF P 961)

/-- FP1's work for one axis that follows no line axis, in frame m (R123). After a profile stop, and after homing (DESIGN CHOICE, log
4), only a new target starts a plan (R131). -/
def fpAxis (P : Par) (k : StopKind) (perNs m : Nat) (now : Recd) (m0 : AxMot) : AxMot :=
  let on := m0.planOn
  let L : PlanLim := { v := now.vmax, a := now.amax, d := now.dmax, j := now.jmax }
  let Lq := { L with d := parF P 945 }
  let old := m0.plan
  let go (p : Plan) (x : AxMot) : AxMot := { x with planNext := some p, recd := now }
  let stopBy (lim : PlanLim) : AxMot :=
    go { planSpeed P lim on perNs m old .zero with pstop := true } { m0 with stopReq := .none, held := true }
  match m0.stopReq with
  | .quick => stopBy Lq
  | .line => stopBy L
  | .command => stopBy L
  | .none =>
    if m0.homeReq = 1 then go (planSpeed P L on perNs m old (homeSpeed P)) { m0 with homeReq := 0, held := true }
    else if m0.homeReq = 2 then
      let (x, _, _, _) := planStart P on perNs (m + 1) old
      let back := BitVec.ofNat 64 (parN P 967)
      go (planPlace P L on perNs m old (if parN P 960 = 1 then x + back else x - back)) { m0 with homeReq := 0 }
    else if old.pstop then
      if now.sameLim m0.recd then { m0 with recd := now } else stopBy (if k = .quick then Lq else L)
    else if m0.homing then
      if now.sameLim m0.recd then { m0 with recd := now }
      else if m0.homePhase = 1 then go (planSpeed P L on perNs m old (homeSpeed P)) m0
      else go (planPlace P L on perNs m old old.target) m0
    else if now = m0.recd || (m0.held && !now.newTarget m0.recd) then { m0 with recd := now }
    else if now.mode = 1 then go (planSpeed P L on perNs m old now.vel) { m0 with held := false }
    else go (planPlace P L on perNs m old now.pos) { m0 with held := false }

/-- FP1's profile work (R123): every axis with LF.MODE = 0 whose reference is formed. -/
def State.fpProfiles (s : State) : State :=
  let m := s.frm.frame.toNat
  let ids := s.axisIds.filter fun i => s.pn 5 i 900 == 0 && ((s.axis i).st.isClosed || (s.axis i).st == .freeze)
  ids.foldl (fun s i =>
    let a := s.axis i
    let now := s.readNow i
    -- while the image is empty the position target starts no plan (R395)
    let now := if s.pn 5 i 946 = 0 && !s.host.committed then { now with pos := a.mo.recd.pos } else now
    s.setAxis i { a with mo := fpAxis (s.P 5 i) a.stop s.frm.period m now a.mo }) s

/-! ## FP1: line axes (R91 to R93, R116) -/

/-- One frame of a line's own ramp, from S of frame n to S of frame n + 1. -/
def lineAdvance (per : F64) (perNs : Nat) (l : Line) : Line :=
  let n := l.ownAt
  let dx := if l.rampOn then planTravel l.ramp.stop l.ramp.vEnd (planTime perNs l.ramp n) (planTime perNs l.ramp (n + 1)) l.ramp.segs F64.zero
    else fmul l.own.v per
  let (v, a) := if l.rampOn then (let (_, v, a, _) := planAt l.ramp (planTime perNs l.ramp (n + 1)); (v, a)) else (l.own.v, F64.zero)
  { l with ownAt := n + 1, own := { x := fadd l.own.x dx, v := v, a := a, dx := dx } }

/-- The ramp advanced to S of frame n. -/
def lineTo (per : F64) (perNs n : Nat) (l : Line) : Line :=
  (List.range (n - l.ownAt)).foldl (fun l _ => lineAdvance per perNs l) l

/-- The speed setpoint FP1 reads (R93, R116). -/
def State.lineSp (s : State) (i : Nat) : F64 :=
  let l := s.line i
  let P := s.P 8 i
  if l.stop ≠ .none then F64.zero else
  let x := if parN P 8 = 1 then parF P 9 else fWiden (s.imgF32 (poLine i) (some l.used) f32zero)
  fclamp x (fneg (parF P 2)) (parF P 2)

/-- The deceleration in use on a line's ramp (R116). -/
def lineDec (P : Par) (k : StopKind) : F64 :=
  match k with
  | .none => parF P 4
  | .command => parF P 4
  | .line => parF P 6
  | .quick => parF P 7

/-- FP1's work for one line axis in frame m: its ramp to S(m+2), published at the next tick (R91). -/
def State.fpLine (s : State) (i : Nat) : State :=
  let P := s.P 8 i
  let per := periodSec s.frm.period
  let m := s.frm.frame.toNat
  let l := lineTo per s.frm.period (m + 1) (s.line i)
  let sp := s.lineSp i
  let acc := parF P 3
  let dec := lineDec P l.stop
  let jerk := parF P 5
  let l := if sp = l.sp && acc = l.acc && dec = l.dec && jerk = l.jerk && l.rampOn then l else
    { l with
      sp := sp, acc := acc, dec := dec, jerk := jerk, rampOn := true
      ramp := planVelocity { v := parF P 2, a := acc, d := dec, j := jerk } l.own.v l.own.a sp { ts := m + 1 } }
  let l := lineTo per s.frm.period (m + 2) l
  s.setLine i { l with next := some l.own }

/-- FP1's frame-bound work. -/
def State.fp1Work (s : State) : State := (s.lineIds.foldl (fun s i => s.fpLine i) s).fpProfiles

/-- THREAD_COMPLETE (R226): the frame-bound thread of FP1 has done its line and profile work; that of FP0 acknowledges the field
scan (R316; DESIGN CHOICE, log 13). -/
def execThreadComplete (fp : Fin 4) (t : Nat) (s : State) : Out :=
  .next <| match s.runningOn fp with
    | none => s
    | some d =>
      let s := s.goto t
      let s := if fp = 1 ∧ (s.task d).period = 1 ∧ s.isHead then s.fp1Work else s
      let s := if fp = 0 ∧ (s.task d).period = 1 then { s with fio := { s.fio with acked := true, ack := s.frm.frame } } else s
      s.finishThread fp

/-! ## Stall homing (R141 to R143) -/

/-- ceil(HOME.T_STALL / P) frames. -/
def State.stallFrames (s : State) (i : Nat) : Nat :=
  let p := s.frm.period
  if p = 0 then 1 else max 1 ((s.pn 5 i 965 * 1000000 + p - 1) / p)

/-- A stall frame of a SERVO-C or SERVO-V axis (R141). -/
def servoStall (P : Par) (derated : Bool) (a : Axis) : Bool :=
  let neg := parN P 960 = 1
  let lim := limitInUse P derated true (if neg then parF P 401 else parF P 400)
  fle (fmul (fdiv (parNF P 963) (fOfNat 100)) lim) (fneg? neg a.lp.tau) &&
  fle (fabs a.fb.om) (fmul f64twoPi (parF P 964))

/-- The stall completes on a servo axis (R141): place, reference and profile shift, the profile rests at the place. -/
def Axis.stallServo (P : Par) (n : Nat) (a : Axis) : Axis :=
  let sh := (parI P 966 : Int) - a.fb.pos.toInt
  let d : W64 := BitVec.ofInt 64 sh
  let pos := a.fb.pos + d
  { a with
    fb := { a.fb with pos := pos, posAcc := a.fb.posAcc + d }
    rf := { a.rf with int := a.rf.int + d, intN := pos, fracN := .zero, wN := .zero, aN := .zero }
    mo := { a.mo with plan := holdPlan a.mo.recd.mode pos .zero .zero n, planOn := false, planNext := none
                      homePhase := 2, homeReq := 3, homeStall := 0, homeFrom := a.mo.homeFrom + d } }

/-- The stall is detected on a STEP axis (R142): Δ = 0 from its next critical kernel, the re-basing follows at the A it is for. -/
def State.stallStep (s : State) (i : Nat) : State :=
  match s.chanOf i with
  | none => s
  | some c =>
    let s := s.setStep c { s.step_ c with hold0 := true }
    let a := s.axis i
    s.setAxis i { a with mo := { a.mo with homePhase := 2, homeStall := 0 } }

/-- STALL (R141, R142): the count of stall frames is reached. -/
def execStall (i : Fin 256) (s : State) : Out :=
  let a := s.axis i
  .next <|
    if !(a.mo.homing && a.mo.homePhase = 1 && s.stallFrames i ≤ a.mo.homeStall) then s
    else if s.axType i = 4 then (if s.pn 5 i 969 = 1 then s.stallStep i else s)
    else s.setAxis i (a.stallServo (s.P 5 i) s.frm.frame.toNat)

/-- HOME_FLAG_EXPIRY (R142): the driver flag has been active in every cycle for HOME.T_STALL. -/
def execHomeFlagExpiry (i : Fin 256) (s : State) : Out :=
  let a := s.axis i
  let e := s.pn 5 i 970
  .next <|
    if !(a.mo.homing && a.mo.homePhase = 1 && s.axType i = 4 && s.pn 5 i 969 = 2 && s.pn 9 e 72 = 2) then s
    else match (s.enc e).zFrom with
      | none => s
      | some t => (s.goto (t + msT (s.pn 5 i 965))).stallStep i

/-- INPOS (R132). -/
def execInpos (i : Fin 256) (s : State) : Out :=
  let a := s.axis i
  .next <| if s.pn 5 i 950 ≤ a.mo.inposN ∧ !a.mo.inpos then s.setAxis i { a with mo := { a.mo with inpos := true } } else s

end Sys2Proof.Machine
end

