-- ==== Sys2Proof/Machine/Kernel.lean ====
section
/-! DEFINITION. The kernels of axes and zones complete, and the supervision that acts on their counts (R38, R44, R57,
R78 to R84, R98, R107, R108, R110, R112, R115, R143, R148, R497). -/

namespace Sys2Proof.Machine

/-- The line axis i follows is at rest at this frame's S, or it follows none (R71). -/
def State.lineRest (s : State) (i : Nat) : Bool := s.pn 5 i 900 == 0 || feq (s.line (s.pn 5 i 901)).vS F64.zero

/-- What the critical kernel of frame f of axis i needs. -/
def State.critIn (s : State) (i f : Nat) : CritIn :=
  { per := periodSec s.frm.period, frame := f
    udcLsb := fWiden ⟨BitVec.ofNat 32 (s.nodePar (s.axBranch i) (s.axPos i) 8)⟩
    udcRaw := s.axUdc i f
    smp := s.axSample i f, derated := s.derated i, ol := s.olVec i
    sent := f == s.frm.frame.toNat, rest := s.lineRest i }

/-- The profile generator after a closing frame that follows OPEN (R72): measured place and speed, nothing to plan, the
targets in force recorded. A cam's base follows, unless a run starts (R95, R103). -/
def Axis.profileAtClose (now : Recd) (n : Nat) (a : Axis) : Axis :=
  { a with mo := { a.mo with
      plan := holdPlan now.mode a.fb.pos .zero (fdiv a.fb.om f64twoPi) n, planOn := false, held := false, planNext := none, recd := now
      camSync := if a.mo.camSync = 2 then 2 else 1 } }

/-- The critical kernel of frame f of a STEP axis with its channel (R134). -/
def State.stepKernel (s : State) (i f : Nat) : State :=
  let I := s.critIn i f
  match s.chanOf i with
  | none => s.setAxis i (stepCrit (s.P 5 i) I (s.axis i) {}).1
  | some c =>
    let (a', ch) := stepCrit (s.P 5 i) I (s.axis i) (s.step_ c)
    (s.setAxis i a').setStep c ch

/-- The critical kernel of a servo axis, with the test of R38 and its events. -/
def State.servoKernel (s : State) (i f : Nat) : State :=
  let a := s.axis i
  let P := s.P 5 i
  let (a', xs) := servoCrit P (s.axType i) (s.critIn i f) a
  if (critNumbers a'.fb a'.lp ++ xs).all fFinite then
    let stalled := a'.mo.homing && a'.mo.homePhase = 1 && s.axType i ≠ 3 && servoStall P (s.derated i) a'
    let a' := { a' with mo := { a'.mo with homeStall := if stalled then a'.mo.homeStall + 1 else 0 } }
    let s := s.setAxis i a'
    let s := if a'.lp.lstep then s.raiseAx evLimitStep i [] else s
    let s := if a'.lp.udcLow then s.raiseAx evUdcLow i [] else s
    if a'.fb.pred then s.pulse 0x5B else s
  else (s.setAxis i (nonfiniteAxis a)).raiseAx evNonfinite i []

/-- CRITICAL_KERNEL_COMPLETE (R44). A kernel of an earlier frame still updates its axis's state; its result is not sent. -/
def execCriticalKernelComplete (i : Fin 256) (t opnd comp : Nat) (s : State) : Out :=
  let d := dAxCrit i
  .next <| if !s.running d then s else
    let s := s.goto t
    let here : Bool := (s.task d).frame == s.frm.frame.toNat
    let a := s.axis i
    let closing := a.fromOpen && a.st.isClosed
    let now := s.readNow i
    let s := if s.axType i = 4 then s.stepKernel i (s.task d).frame else s.servoKernel i (s.task d).frame
    let a := s.axis i
    let a := if closing && !a.nonfin then a.profileAtClose now s.frm.frame.toNat else a
    let s := s.setAxis i { a with critDone := here, lp := { a.lp with valid := a.lp.valid && here } }
    let b := s.axBranch i
    let s := if here then { s with frm := { s.frm with critLast := s.frm.now - s.frm.t0 } } else s
    let s := if here && !s.isLn i then s.setBranch b { s.branch b with packAt := some (s.phase + 25 * packCycles) } else s
    let sent : Option Nat := if s.isLn i || !here || a.aband then none else some b
    ((s.tagComplete d opnd comp s.frm.now sent (s.isLn i)).completeKernel d).gateCheck

/-! ## Trailing kernels -/

/-- u_z as the contributions of the frame take it (R171). -/
def Zone.uNow (z : Zone) : F64 := if z.aband then z.uPrev else z.u

/-- u of a zone's upstream neighbour; 0 when none (R110). -/
def State.uUp (s : State) (z : Nat) : F64 := if s.pn 6 z 3 = 255 then F64.zero else (s.zone (s.pn 6 z 3)).uNow

/-- The contributions of zone z in this frame, to its downstream and its upstream axis (R110). -/
def State.zoneContribs (s : State) (z : Nat) : F64 × F64 :=
  let P := s.P 6 z
  let u := (s.zone z).uNow
  let up := s.uUp z
  (contribOnto F64.zero (parF P 40) u (parF P 41) up, contribOnto F64.zero (parF P 42) u (parF P 43) up)

/-- A zone's contributions of this frame are formed anew; else those of the frame before stand (R497). -/
def State.zoneFinite (s : State) (z : Nat) : Bool :=
  !(s.zone z).nonfin && fFinite (s.zoneContribs z).1 && fFinite (s.zoneContribs z).2

/-- The sum with zone z's contribution to axis i (R110, R497). -/
def State.contrib (s : State) (i : Nat) (sum : F64) (z : Nat) : F64 :=
  let P := s.P 6 z
  let add (m1 m2 old sum : F64) : F64 :=
    if s.zoneFinite z then contribOnto sum m1 (s.zone z).uNow m2 (s.uUp z) else fadd sum old
  let sum := if parN P 2 = i then add (parF P 40) (parF P 41) (s.zone z).cD sum else sum
  if parN P 1 = i then add (parF P 42) (parF P 43) (s.zone z).cU sum else sum

/-- The total trim of an axis before its clamp; a cam follower receives none (R98, R102). -/
def State.trimSum (s : State) (i : Nat) : F64 :=
  if s.pn 5 i 900 = 2 then F64.zero else s.zoneIds.foldl (s.contrib i) F64.zero

def State.trailIn (s : State) (i : Nat) : TrailIn :=
  { per := periodSec s.frm.period, perNs := s.frm.period, frame := s.frm.frame.toNat,
    line := (s.line (s.pn 5 i 901)).pub, sTarget := s.sTarget i, dTarget := s.dTarget i, trim := s.trimSum i }

/-- E_0 and K_0 of the axis's channel are taken, where the axis has entered CLOSED (R148). -/
def State.devBase (s : State) (i : Nat) : State :=
  match s.chanOf i with
  | none => s
  | some c =>
    let ch := s.step_ c
    if (s.axis i).mo.devNew then s.setStep c { ch with e0 := ch.latch, k0 := (s.enc (s.pn 9 c 11)).ext } else s

/-- The deviation of a STEP axis with an encoder (R148), and the stall count it serves (R142). -/
def State.deviation (s : State) (i : Nat) (a : Axis) : Axis :=
  if s.axType i ≠ 4 then a else
  match s.chanOf i with
  | none => a
  | some c =>
    let e := s.pn 9 c 11
    if e = 255 then a else
    let ch := s.step_ c
    let dev := fnma ⟨s.par 9 c 12⟩ (fOfInt ((s.enc e).ext - ch.k0)) (fOfInt (ch.latch - ch.e0))
    let beyond := flt (fOfNat (s.pn 9 c 13)) (fabs dev)
    let serves := a.mo.homing && s.pn 5 i 969 = 1
    let stalled := serves && a.mo.homePhase = 1 && fle (fOfNat (s.pn 5 i 971)) (fabs dev)
    { a with mo := { a.mo with
        dev := dev, devNew := false, encDev := beyond, encDevN := if beyond && !serves then a.mo.encDevN + 1 else 0
        encDevRep := a.mo.encDevRep && beyond, homeStall := if stalled then a.mo.homeStall + 1 else 0 } }

/-- Homing has travelled HOME.TRAVEL without a stall (R143). -/
def homeTooFar (P : Par) (a : Axis) : Bool :=
  a.mo.homing && a.mo.homePhase = 1 &&
  fle (fmul (parF P 968) (parNF P 64)) (fabs (fOfInt (a.rf.int - a.mo.homeFrom).toInt))

/-- The trailing kernel of an axis with the test of R38 and its events (R57, R62, R98, R143). -/
def State.trailAxis (s : State) (i : Nat) : State :=
  let a := s.axis i
  let P := s.P 5 i
  let a' := trailKernel P s.cam (s.trailIn i) a
  if (trailNumbers a').all fFinite then
    let s := s.devBase i
    let a' := s.deviation i a'
    let fail := homeTooFar P a'
    let a' := if fail then { a' with mo := { a'.mo with homing := false, homePhase := 3, homeReq := 0 } } else a'
    let s := s.setAxis i a'
    let m := b2n (a'.rf.clampS && !a.rf.clampS) + 2 * b2n (a'.rf.clampD && !a.rf.clampD)
    let s := if m ≠ 0 then s.raiseAx evAdaptClamp i [BitVec.ofNat 8 m] else s
    let s := if a'.rf.trimSat && !a.rf.trimSat then s.raiseAx evTrimClamp i [] else s
    if fail then s.raiseAx evHomeFail i [] else s
  else (s.setAxis i (nonfiniteTrail a)).raiseAx evNonfinite i []

/-- TRAILING_KERNEL_COMPLETE (R57). DESIGN CHOICE (log 49): one that completes after the next T0 counts in the TRAIL_T of the frame
in which it completes, from that frame's T0. -/
def execTrailingKernelComplete (i : Fin 256) (t opnd comp : Nat) (s : State) : Out :=
  let d := dAxTrail i
  .next <| if !s.running d then s else
    let s := (s.goto t).trailAxis i
    let s := { s with frm := { s.frm with trailLast := s.frm.now - s.frm.t0 } }
    (s.tagComplete d opnd comp s.frm.now none false).completeKernel d

/-! ## Zones -/

/-- The load-cell word of frame f (R108). -/
def State.loadCell (s : State) (z f : Nat) : Option W16 :=
  let a := s.pn 6 z 8
  if 256 ≤ a then none else
  match s.nodeSmp (a / 32) (a % 32) f with
  | some x => x.aux[s.pn 6 z 9]?
  | none => none

def poZoneSp (s : State) (z : Nat) : F32 :=
  let own : F32 := ⟨(s.par 6 z 14).setWidth 32⟩
  if s.pn 6 z 13 = 1 then s.imgF32 (poZone z) (s.zone z).used own else own

/-- T̂[n−1] of a neighbour; a missing one is a free web end (R107). -/
def State.tNear (s : State) (k : Nat) : F64 := if k = 255 then F64.zero else (s.zone k).thatPrev

/-- The feedback of axis i in frame f as a zone's kernel takes it (R106): the axis's own kernel has conditioned it, or the zone's
conditions the same sample. -/
def State.zoneFb (s : State) (i f : Nat) : AxFb :=
  let a := s.axis i
  if a.critDone || s.axType i == 4 || f != s.frm.frame.toNat then a.fb
  else condition (s.P 5 i) (s.axType i) (s.critIn i f) a.lp a.fb

/-- What the critical kernel of frame f of zone z needs. -/
def State.zoneIn (s : State) (z f : Nat) : ZoneIn :=
  let u := s.pn 6 z 1
  let d := s.pn 6 z 2
  { up := zoneAx (s.P 5 u) (s.axis u) (s.zoneFb u f), dn := zoneAx (s.P 5 d) (s.axis d) (s.zoneFb d f),
    tPrev := s.tNear (s.pn 6 z 3), tNext := s.tNear (s.pn 6 z 4), lc := s.loadCell z f, sp := fWiden (poZoneSp s z),
    vL := (s.line (s.pn 5 d 901)).pub.v, per := periodSec s.frm.period }

/-- The zone's critical kernel of frame f with the test of R497. -/
def State.zoneKernel (s : State) (z f : Nat) : State :=
  let (z', raw) := zoneCrit (s.P 6 z) (s.zoneIn z f) (s.zone z)
  if (zoneNumbers z' raw).all fFinite then s.setZone z z'
  else (s.setZone z (nonfiniteZone (s.zone z))).raiseOnce evZoneNonfinite z (s.zoneGroups z) []

/-- ZONE_KERNEL_COMPLETE (R107). -/
def execZoneKernelComplete (z : Fin 64) (t opnd comp : Nat) (s : State) : Out :=
  let d := dZnCrit z
  .next <| if !s.running d then s else
    let s := s.goto t
    let here : Bool := (s.task d).frame == s.frm.frame.toNat
    let s := s.zoneKernel z (s.task d).frame
    let s := s.setZone z { s.zone z with critDone := here }
    let s := if here then { s with frm := { s.frm with critLast := s.frm.now - s.frm.t0 } } else s
    ((s.tagComplete d opnd comp s.frm.now none false).completeKernel d).gateCheck

/-- The lowest-numbered zone an axis bounds. -/
def State.firstZone (s : State) (i : Nat) : Option Nat := s.zoneIds.find? fun z => s.pn 6 z 1 == i || s.pn 6 z 2 == i

/-- The diameter of axis i by zone z's trailing kernel, the zone's other axis being j (R112). -/
def State.diaOf (s : State) (z i j : Nat) : State :=
  let P := s.P 5 i
  if parN P 905 ≠ 1 ∨ s.firstZone i ≠ some z then s else
  let r := if parN P 920 = 65535 then j else parN P 920
  let a := s.axis i
  let a' := diaUpdate P (periodSec s.frm.period) (s.axis r).fb.om (parF (s.P 5 r) 904) a
  let s := s.setAxis i a'
  if (a'.rf.diaMin && !a.rf.diaMin) || (a'.rf.diaMax && !a.rf.diaMax) then s.raiseAx evDiaClamp i [] else s

/-- The zone's trailing kernel: its contributions of the frame and the diameters it updates (R110, R112, R497). -/
def State.zoneTrail (s : State) (z : Nat) : State :=
  let x := { s.zone z with trailDone := true, skip := false }
  let (cD, cU) := s.zoneContribs z
  let s := if s.zoneFinite z then s.setZone z { x with cD := cD, cU := cU }
    else if x.nonfin then s.setZone z x
    else (s.setZone z x.restore).raiseOnce evZoneNonfinite z (s.zoneGroups z) []
  (s.diaOf z (s.pn 6 z 1) (s.pn 6 z 2)).diaOf z (s.pn 6 z 2) (s.pn 6 z 1)

/-- ZONE_TRAILING_KERNEL_COMPLETE (R110). -/
def execZoneTrailingKernelComplete (z : Fin 64) (t opnd comp : Nat) (s : State) : Out :=
  let d := dZnTrail z
  .next <| if !s.running d then s else
    let s := (s.goto t).zoneTrail z
    let s := { s with frm := { s.frm with trailLast := s.frm.now - s.frm.t0 } }
    (s.tagComplete d opnd comp s.frm.now none false).completeKernel d

/-! ## Supervision (R79 to R84, R108, R115, R148) -/

/-- The clamps whose counters have reached SUP.NSAT and are not reported (R79). -/
def satDue (P : Par) (l : AxLoop) : Nat :=
  let k := parN P 800
  let one (n b : Nat) := if k ≤ n && !bitOf l.satRep.toNat b then 2 ^ b else 0
  one l.satP 0 + one l.satV 1 + one l.satT 2 + one l.satC 3

/-- SAT_TIME (R79): one event for every clamp that has reached SUP.NSAT. -/
def execSatTime (i : Fin 256) (c : Fin 4) (s : State) : Out :=
  let a := s.axis i
  let m := satDue (s.P 5 i) a.lp
  .next <| if bitOf m c then
    (s.setAxis i { a with lp := { a.lp with satRep := a.lp.satRep ||| BitVec.ofNat 4 m } }).raiseAx evSatTime i [BitVec.ofNat 8 m]
  else s

/-- FB_LOST (R80, R83). -/
def execFbLost (i : Fin 256) (s : State) : Out :=
  let a := s.axis i
  .next <| if a.st.supervised ∧ s.pn 5 i 801 + 1 ≤ a.fb.predRun ∧ !a.fb.predRep then
    (s.setAxis i { a with fb := { a.fb with predRep := true, estNext := !a.fb.est } }).raiseAx evFbLost i []
  else s

/-- FB_FROZEN (R81, R83). -/
def execFbFrozen (i : Fin 256) (s : State) : Out :=
  let a := s.axis i
  .next <| if a.st.supervised ∧ s.pn 5 i 803 ≤ a.fb.frz.getD 0 ∧ a.fb.frz.isSome ∧ !a.fb.frzRep then
    (s.setAxis i { a with fb := { a.fb with frzRep := true, estNext := !a.fb.est } }).raiseAx evFbFrozen i []
  else s

/-- N_EST: the smallest integer at or above SUP.T_EST / P, exactly (R84). -/
def estFrames (t : W32) (perNs : Nat) : Nat :=
  let d := f32Dy ⟨t⟩
  let num := d.n.toNat * 1000000000
  if 0 ≤ d.e then (num * 2 ^ d.e.toNat + perNs - 1) / perNs
  else (num + perNs * 2 ^ (-d.e).toNat - 1) / (perNs * 2 ^ (-d.e).toNat)

/-- Frames of the tick that axis i has spent in estimated feedback, the present one once its critical kernel is done or has missed
its deadline (R84). -/
def State.estSpent (s : State) (i : Nat) : Nat :=
  let a := s.axis i
  framesFrom a.fb.estFrom s.frm.frame.toNat + b2n (a.critDone || a.aband)

/-- EST_EXPIRED (R84): a stop that completes in the same frame wins. -/
def execEstExpired (i : Fin 256) (s : State) : Out :=
  let a := s.axis i
  .next <| if a.fb.est ∧ estFrames ((s.par 5 i 804).setWidth 32) s.frm.period ≤ s.estSpent i ∧ !a.fb.estDone ∧ !a.stopDone then
    (s.setAxis i { a with fb := { a.fb with estDone := true } }).raiseAx evEstExpired i []
  else s

/-- WEB_BREAK (R115). -/
def execWebBreak (z : Fin 64) (s : State) : Out :=
  let x := s.zone z
  .next <| if s.zoneDef z ∧ s.pn 6 z 51 ≤ x.brk ∧ !x.brkRep then
    (s.setZone z { x with brkRep := true }).raiseOnce evWebBreak z (s.zoneGroups z) []
  else s

/-- LC_INVALID (R108). -/
def execLcInvalid (z : Fin 64) (s : State) : Out :=
  let x := s.zone z
  .next <| if s.zoneDef z ∧ s.pn 6 z 12 ≤ x.lcMiss ∧ !x.lcRep then
    (s.setZone z { x with lcRep := true }).raiseOnce evLcInvalid z (s.zoneGroups z) []
  else s

/-- ENC_DEV (R148). -/
def execEncDev (i : Fin 256) (s : State) : Out :=
  let a := s.axis i
  .next <| match s.chanOf i with
    | none => s
    | some c =>
      if s.axType i = 4 ∧ s.pn 9 c 14 ≤ a.mo.encDevN ∧ !a.mo.encDevRep then
        (s.setAxis i { a with mo := { a.mo with encDevRep := true } }).raiseAx evEncDev i []
      else s

end Sys2Proof.Machine
end

