-- ==== Sys2Proof/Machine/Stepper.lean ====
section
/-! DEFINITION. The local step channels and encoder inputs (R133 to R148). A channel's φ stands at the cycle of its
interval at which it was last brought up to date; pulses carried since are those its next step finds. -/

namespace Sys2Proof.Machine

def one32 : Int := 4294967296

/-! ## Step channels -/

/-- The axis a channel serves, where there is one (R133). -/
def State.axOf (s : State) (c : Nat) : Option Nat := if s.pn 9 c 0 < 256 then some (s.pn 9 c 0) else none

/-- A part in the node role drives its channels by the references of its downlink (R211, R212). -/
def State.nodeRole (s : State) : Bool := s.frm.role == .node

/-- The channel is in use: it serves an axis, or the node role's downlink. -/
def State.chUsed (s : State) (c : Nat) : Bool := s.nodeRole || (s.axOf c).isSome

/-- The state of the axis bound to a channel; in the node role every channel follows its references, as in CLOSED. -/
def State.chState (s : State) (c : Nat) : AxState :=
  if s.nodeRole then .closed else ((s.axOf c).map fun i => (s.axis i).st).getD .disabled

/-- φ after k more cycles of the interval (R135). -/
def StepCh.phiAt (c : StepCh) (k : Nat) : Int :=
  c.phi + c.r * k + (if c.nCyc ≤ c.done + k ∧ c.done < c.nCyc then c.rem else 0)

/-- Pulses carried in the next k cycles: changes of φ[63:32]. -/
def StepCh.carries (c : StepCh) (k : Nat) : Int := (c.phiAt k).fdiv one32 - c.phi.fdiv one32

/-- n pulses (a negative n: reverse ones) join the queue, behind those that wait (R138). -/
def pushRun (n : Int) : List Int → List Int
  | [] => if n = 0 then [] else [n]
  | [x] => if n = 0 then [x] else if (0 < n) = (0 < x) then [x + n] else [x, n]
  | x :: y :: r => x :: pushRun n (y :: r)

/-- The oldest pulse leaves the queue. -/
def popRun : List Int → List Int
  | [] => []
  | x :: r => if x = 1 ∨ x = -1 then r else (if 0 < x then x - 1 else x + 1) :: r

/-- The pulses of one direction that come next, signed; 0 when none waits. -/
def StepCh.ahead (c : StepCh) : Int := c.queue.headD 0

/-- The channel k cycles on. -/
def StepCh.run (c : StepCh) (k : Nat) : StepCh :=
  { c with phi := c.phiAt k, done := c.done + k, queue := pushRun (c.carries k) c.queue }

/-- Cycles until φ next carries at the rate r alone, counted from 1. -/
def StepCh.nextAt (c : StepCh) : Nat :=
  let f := c.phi.fmod one32
  if 0 < c.r then ((one32 - f + c.r - 1) / c.r).toNat
  else if c.r < 0 then (f / -c.r).toNat + 1
  else c.nCyc

/-- The channel brought to its next carry of the interval, or to the interval's end where none is left. -/
def StepCh.toCarry (c : StepCh) : StepCh := c.run (min c.nextAt (c.nCyc - c.done))

/-- The channel at the end of its interval. -/
def StepCh.finish (c : StepCh) : StepCh := c.run (c.nCyc - c.done)

/-- Demand held, in units of 2⁻³² steps: backlog, the interval's rest, pulses delayed, the accumulator's fraction (R139). -/
def StepCh.heldRaw (c : StepCh) : Int :=
  let x := c.finish
  x.backlog + x.queue.sum * one32 + x.phi.fmod one32

def StepCh.held (c : StepCh) : Int := c.heldRaw.fdiv one32

/-- CK_FIELD cycles from t on to t + n. -/
def fieldCycles (t n : Nat) : Nat := (t + n + 49) / 50 - (t + 49) / 50

/-- E_max (R136). -/
def stepMax (fmax n : Nat) : Int := (fmax * n * 4294967296 / 100000000 : Nat)

/-- E_max of channel c for n cycles: in calving stage 3 it falls linearly to zero over PWR.T_SDEC (R432, R433). -/
def State.stepLimit (s : State) (c n : Nat) : Int :=
  let m := stepMax (s.pn 9 c 1) n
  match s.pwr.s3From with
  | none => m
  | some t0 =>
    let d := usT (s.pn 15 0 0)
    m * (d - (s.frm.now - t0) : Nat) / d

/-- The CREF period after the one that contains t (R140). DESIGN CHOICE (log 6): periods of 10 µs are counted from device time 0. -/
def crefNext (t : Nat) : Nat := (t / usT 10 + 1) * usT 10

/-- The clamp at ±m and the rate of an interval of n cycles that starts at device time t (R135, R136). A demand restores the run
current from the next CREF period (R140). -/
def StepCh.interval (c : StepCh) (m : Int) (n t : Nat) : StepCh :=
  let give := if c.deltaOn then c.delta else 0
  let d := give + c.backlog
  let e := min (max d (-m)) m
  let acc := c.handFrac + give
  { c with
    delta := 0, deltaOn := false, emit := e, backlog := d - e, r := e.tdiv n, rem := e - n * e.tdiv n
    nCyc := n, done := 0, start := t, clamped := d ≠ e, stopped := false
    handed := c.handed + acc.fdiv one32, handFrac := acc.fmod one32
    runAt := if give ≠ 0 && c.red ≠ 0 && c.runAt.isNone then some (crefNext t) else c.runAt }

/-- No demand in the next interval: FREEZE, OPEN. -/
def StepCh.idle (c : StepCh) (n t : Nat) : StepCh :=
  { c with delta := 0, deltaOn := false, emit := 0, r := 0, rem := 0, nCyc := n, done := 0, start := t, clamped := false, hold0 := false }

/-- No pulse and no demand held. -/
def StepCh.quiet (c : StepCh) : Bool :=
  c.queue.isEmpty && c.backlog = 0 && c.emit = 0 && !(c.deltaOn && c.delta ≠ 0)

/-- Held steps are withdrawn and emission stops (R139). -/
def StepCh.withdraw (c : StepCh) : StepCh :=
  let x := c.finish
  let h := x.heldRaw
  { x with
    wdrn := x.wdrn + h.fdiv one32, backlog := 0, queue := [], phi := h.fmod one32
    delta := 0, deltaOn := false, emit := 0, r := 0, rem := 0, nCyc := 0, done := 0, clamped := false, stopped := true, red := 0
    runAt := .none, hold0 := false, rebase := false }

/-- After a stall of R142: the reference is re-based to the emitted count plus the held steps, the shift of R141 follows. -/
def State.rebase (s : State) (i c : Nat) : State :=
  let ch := s.step_ c
  let a := s.axis i
  let x := ch.heldRaw
  let posEnd : Int := a.fb.pos.toInt + (ch.net - a.fb.posAcc.toInt)
  let d : W64 := s.par 5 i 966 - a.fb.pos
  let int : W64 := BitVec.ofInt 64 (posEnd + x.fdiv one32) + d
  let frac := fdiv (fOfInt (x.fmod one32)) (fOfInt one32)
  let rf := { a.rf with int := int, frac := frac, w := .zero, a := .zero, intN := int, fracN := frac, wN := .zero, aN := .zero }
  let mo := { a.mo with plan := holdPlan a.mo.recd.mode int frac .zero s.frm.frame.toNat, planOn := false, planNext := none, homeReq := 3 }
  let s := s.setAxis i { a with fb := { a.fb with pos := a.fb.pos + d }, rf := rf, mo := mo }
  s.setStep c { ch with lastQ := refFixed int frac, hold0 := false, rebase := false,
                        e0 := ch.latch, k0 := (s.enc (s.pn 9 c 11)).ext }

/-- The reference a downlink payload gives channel c: a count in units of 2⁻³² steps, and its run current (R211). -/
def downRef (d : List Byte) (c : Nat) : Int × F32 :=
  ((BitVec.ofNat 64 (beAt d (4 + 16 * c) 8)).toInt * one32 + (beAt d (12 + 16 * c) 2 : Int) * 65536,
   ⟨BitVec.ofNat 32 (beAt d (14 + 16 * c) 4)⟩)

/-- Channel c of a part in the node role at A (R212): Δ against the last reference handed over; with no frame for this A the rate
falls linearly to zero over NROLE.T_SDEC from what it was. k is the count of such A so far, this one included. -/
def State.nodeStep (s : State) (down : Option (List Byte)) (k c : Nat) : State :=
  let t := s.frm.now
  let n := fieldCycles t s.per
  let old := s.step_ c
  let ch := old.finish
  let ch := if old.quiet then ch else { ch with idleFrom := t }
  let d := msT (s.pn 2 0 19)
  let (ch, s) := match down with
    | some b =>
      let (q, i) := downRef b c
      let nr := s.net.nrole
      let cur := if fFinite (fWiden i) then tset (⟨0⟩ : F32) c i nr.runCur else nr.runCur
      ({ ch with delta := q - ch.lastQ, deltaOn := true, lastQ := q }, { s with net := { s.net with nrole := { nr with runCur := cur } } })
    | none =>
      let x := tget 0 s.net.nrole.rate0 c * (d - k * s.per : Nat) / d
      ({ ch with delta := x, deltaOn := decide (x ≠ 0), lastQ := ch.lastQ + x }, s)
  if 4 ≤ s.pwr.stage then s.setStep c (if ch.stopped then ch else ch.withdraw)
  else s.setStep c (ch.interval (s.stepLimit c n) n t)

/-- Held steps of channel c are withdrawn, unless emission has stopped (R139). -/
def State.stepWithdraw (s : State) (c : Nat) : State :=
  let ch := s.step_ c
  if ch.stopped then s else s.setStep c ch.withdraw

/-- The interval that begins at A on channel c (R134 to R140, R142). In calving stage 4 held steps are withdrawn (R434). -/
def State.stepApply (s : State) (c : Nat) : State :=
  match s.axOf c with
  | none => s
  | some i =>
    let t := s.frm.now
    let n := fieldCycles t s.per
    let old := s.step_ c
    let ch := old.finish
    let ch := if old.quiet then ch else { ch with idleFrom := t }
    let s := s.setStep c ch
    let a := s.axis i
    let s := s.setAxis i { a with mo := { a.mo with stepClamp := false } }
    if 4 ≤ s.pwr.stage then s.stepWithdraw c else
    match s.chState c with
    | .disabled => s.stepWithdraw c
    | .fault => s.stepWithdraw c
    | .opn => s.setStep c (ch.idle n t)
    | .freeze => s.setStep c (ch.idle n t)
    | _ =>
      let s := if ch.rebase then s.rebase i c else s
      let ch := (s.step_ c).interval (s.stepLimit c n) n t
      let s := s.setStep c ch
      let a := s.axis i
      let s := s.setAxis i { a with mo := { a.mo with stepClamp := ch.clamped } }
      if ch.clamped && !old.clamped then s.raiseAx evStepRate i [] else s

/-- The spacing of pulse starts, in device time (R137). -/
def State.stepSpacing (s : State) (c : Nat) : Nat := 50 * (100000000 / s.pn 9 c 1)

/-- Whether the STEP pin is at its active level, the level of the STEP pin, and that of DIR (R137, R138). -/
def State.stepActive (s : State) (c : Nat) : Bool :=
  match (s.step_ c).lastPulse with
  | none => false
  | some t => s.frm.now < t + 50 * s.pn 9 c 2
def State.stepPin (s : State) (c : Nat) : Bool := s.stepActive c != (s.pn 9 c 6 == 1)
def State.dirPin (s : State) (c : Nat) : Bool := (s.step_ c).dirFwd != (s.pn 9 c 5 == 1)

/-- The channel may emit: its axis is CLOSED or STOPPING (R133). -/
def State.stepRuns (s : State) (c : Nat) : Bool := s.chUsed c && (s.chState c).isClosed && !(s.step_ c).stopped

/-- STEP_PULSE (R137): the next pulse, once φ has carried and the spacing and the DIR times allow. -/
def execStepPulse (c : Fin 16) (s : State) : Out :=
  .next <| if !s.stepRuns c then s else
    let ch := s.step_ c
    let ch := if ch.ahead = 0 then ch.toCarry else ch
    let s := s.setStep c ch
    let fwd := 0 < ch.ahead
    if ch.ahead = 0 ∨ fwd ≠ ch.dirFwd then s else
      let t := max (ch.start + 50 * ch.done) (max ((ch.lastPulse.map (· + s.stepSpacing c)).getD 0) ((ch.dirAt.map (· + nsT (s.pn 9 c 3))).getD 0))
      let s := (s.goto t).pulseX 0x54
      s.setStep c { ch with
        queue := popRun ch.queue, lastPulse := some s.frm.now, idleFrom := s.frm.now
        fwd := if fwd then ch.fwd + 1 else ch.fwd, bwd := if fwd then ch.bwd else ch.bwd + 1 }

/-- DIR_CHANGE (R138): no earlier than STEP.DIR_HOLD after the inactive edge of the last pulse. -/
def execDirChange (c : Fin 16) (s : State) : Out :=
  .next <| if !s.stepRuns c then s else
    let ch := s.step_ c
    let fwd := 0 < ch.ahead
    if ch.ahead = 0 ∨ fwd = ch.dirFwd then s else
      let s := s.goto ((ch.lastPulse.map (· + 50 * s.pn 9 c 2 + nsT (s.pn 9 c 4))).getD 0)
      s.setStep c { ch with dirFwd := fwd, dirAt := some s.frm.now }

/-- CREF follows R140: CLOSED, STOPPING, FREEZE. -/
def State.crefRuns (s : State) (c : Nat) : Bool :=
  s.chUsed c && ((s.chState c).isClosed || s.chState c == .freeze)

/-- CREF_IDLE_EXPIRY (R140): a demand that arrives in the same cycle wins. -/
def execCrefIdleExpiry (c : Fin 16) (s : State) : Out :=
  let ch := s.step_ c
  .next <| if !(s.crefRuns c && ch.quiet && ch.redAt s.frm.now = 0) then s else
    let s := s.goto (ch.idleFrom + msT (s.pn 9 c 10))
    s.setStep c { ch with red := 1, runAt := .none, rampFrom := s.frm.now }

/-- CREF_RAMP_COMPLETE (R140): 50 ms after the ramp's start. -/
def execCrefRampComplete (c : Fin 16) (s : State) : Out :=
  let ch := s.step_ c
  .next <| if !(s.crefRuns c && ch.red = 1 && ch.runAt.isNone) then s else
    (s.goto (ch.rampFrom + msT 50)).setStep c { ch with red := 2 }

/-- CREF's duty of 1,000 in the period that begins at device time t, from the current reference in force (R140, R141). -/
def State.crefDutyAt (s : State) (c t : Nat) : Nat :=
  if !s.crefRuns c then 0 else
  let P := s.P 9 c
  let ch := s.step_ c
  let i := (s.axOf c).getD 0
  let run := if s.nodeRole then fWiden (tget (⟨0⟩ : F32) s.net.nrole.runCur c)
    else if (s.axis i).mo.homeFull then parF P 8
    else fmul (parF P 8) (fdiv (parNF (s.P 5 i) 962) (fOfNat 100))
  let hold := fmul run (fdiv (parNF P 9) (fOfNat 100))
  let k := min ((t - ch.rampFrom) / usT 10) 5000
  let cur := if ch.redAt t = 0 then run
    else if ch.redAt t = 2 then hold
    else ffma (fsub hold run) (fdiv (fOfNat k) (fOfNat 5000)) run
  min (froundInt (fdiv (fmul (fOfNat 1000) cur) (parF P 7))).toNat 1000

/-- CREF's duty in the present period. -/
def State.crefDuty (s : State) (c : Nat) : Nat := s.crefDutyAt c (s.frm.now / usT 10 * usT 10)

/-- The level of the CREF pin: high for the duty's CK_FIELD cycles from the beginning of each period (R140). -/
def State.crefPin (s : State) (c : Nat) : Bool := decide (s.frm.now % usT 10 / 50 < s.crefDuty c)

/-! ## Encoder inputs -/

/-- Edges of the last 100 ns. -/
def Enc.within (e : Enc) (t : Nat) : List (Nat × Bool) := e.recent.filter fun x => t < x.1 + nsT 100

def signOf (up : Bool) : Int := if up then 1 else -1

/-- C as latched at S: every edge accepted at least 100 ns before S, and a free number of the later ones (R144; log 6). -/
def State.encLatch (s : State) (e : Nat) : W32 :=
  let x := s.enc e
  let rec_ := x.within s.frm.now
  let k := Config.encRecent e s.frm.frame.toNat % (rec_.length + 1)
  x.c - BitVec.ofInt 32 (((rec_.drop k).map fun y => signOf y.2).sum)

/-- The latch at S, with its extension by wrap difference (R144). -/
def State.encSample (s : State) (e : Nat) : State :=
  if s.pn 9 e 64 = 1 then
    let x := s.enc e
    let l := s.encLatch e
    s.setEnc e { x with latch := l, lastLatch := l, ext := x.ext + (l - x.lastLatch).toInt, recent := x.within s.frm.now }
  else if s.pn 9 e 64 = 2 then
    let f := s.pn 9 e 67
    s.setEnc e { s.enc e with
      ssiBusy := true, ssiDue := s.frm.now + (s.pn 9 e 68 + 1) * 5000000000 / f + nsT (s.pn 9 e 70) + nsT 100 }
  else s

/-- Direction of a single edge from A level a to levels a', b': up while A leads B (R144). -/
def quadUp (a a' b' : Bool) : Bool := if a ≠ a' then a' != b' else a' == b'

/-- EV_ENC_ERR, at most once per input and frame (R145). -/
def State.encError (s : State) (e : Nat) : State :=
  ((s.setEnc e { s.enc e with errs := (s.enc e).errs + 1 }).pulseX 0x55).raiseOnce evEncErr e allGroups []

/-- A new level is accepted: it has held for ENC.FILT + 1 consecutive samples (R144). -/
def State.encHeld (s : State) (e run : Nat) : Bool := decide (s.pn 9 e 65 + 1 ≤ run)

/-- ENC_EDGE (R144, R145): the levels a and b have held as l tells. -/
def execEncEdge (e : Fin 8) (a b : Bool) (l : HeldLevel) (s : State) : Out :=
  .next <| if s.pn 9 e 64 ≠ 1 ∨ !s.encHeld e l.run then s else
    let s := s.goto l.t
    let x := s.enc e
    if x.a ≠ a ∧ x.b ≠ b then (s.setEnc e { x with a := a, b := b }).encError e
    else if x.a = a ∧ x.b = b then s
    else
      let up := quadUp x.a a b != (s.pn 9 e 66 == 1)
      s.setEnc e { x with
        a := a, b := b, c := if up then x.c + 1 else x.c - 1
        up := if up then x.up + 1 else x.up, down := if up then x.down else x.down + 1
        recent := x.within s.frm.now ++ [(s.frm.now, up)] }

/-- ENCZ_EDGE (R142, R145): the level z of ENCZ has held as l tells. -/
def execEnczEdge (e : Fin 8) (z : Bool) (l : HeldLevel) (s : State) : Out :=
  .next <| if s.pn 9 e 64 ≠ 1 ∨ !s.encHeld e l.run then s else
    let s := s.goto l.t
    let x := s.enc e
    let rise : Bool := z && !x.z
    let x := { x with z := z }
    if s.pn 9 e 72 = 1 then
      s.setEnc e (if rise then { x with zc := x.ext + (x.c - x.lastLatch).toInt, zt := BitVec.ofNat 64 (toNs s.frm.now) } else x)
    else if s.pn 9 e 72 = 2 then s.setEnc e { x with zFrom := if z then (if rise then some s.frm.now else x.zFrom) else none }
    else s.setEnc e x

/-- Gray code to binary. -/
def grayDecode : Nat → Nat → Nat
  | 0, _ => 0
  | n + 1, g => if g = 0 then 0 else g ^^^ grayDecode n (g / 2)

/-- The trailing kernels that waited for the delivery of input e become ready (R146). -/
def State.ssiFree (s : State) (e : Nat) : State :=
  (s.axisIds.filter fun i => s.ssiInput i == some e).foldl (fun s i =>
    let d := dAxTrail i
    let t := s.task d
    if t.st = .wait ∧ t.dep = 0 then (s.enterReady 0 false d).trace 2 d 15 else s) s

/-- SSI_DELIVERY (R146): the data bits sampled, and whether the data line was low at the first falling edge. -/
def execSsiDelivery (e : Fin 8) (bits : Nat) (low : Bool) (s : State) : Out :=
  let x := s.enc e
  .next <| if s.pn 9 e 64 ≠ 2 ∨ !x.ssiBusy then s else
    let s := s.goto x.ssiDue
    let w := s.pn 9 e 68
    let raw := bits % 2 ^ w
    let v := if s.pn 9 e 69 = 1 then grayDecode w raw else raw
    let d : Int := ((v : Int) - x.ssiVal).bmod (2 ^ w)
    let x := { x with ssiBusy := false }
    let s := if low ∨ (x.ssiHas ∧ s.pn 9 e 71 < d.natAbs) then (s.setEnc e x).encError e
      else s.setEnc e { x with ssiVal := v, ssiHas := true, ext := if x.ssiHas then x.ext + d else v }
    s.ssiFree e

end Sys2Proof.Machine
end

