-- ==== Sys2Proof/Machine/Ledger.lean ====
section
/-! DEFINITION. The ledger unit and the fault log (R139, R145, R170, R179, R229, R310, R349, R380, R438, R446 to R457). -/

namespace Sys2Proof.Machine

/-! ## Terms (R446, R457) -/

/-- Key of an instance and direction of a ledger. -/
def ledKey (l i d : Nat) : Nat := l * 1024 + i * 2 + d

/-- Buffers in a state. -/
def State.bufCount (s : State) (x : BufSt) : Nat :=
  ((List.range 512).filter fun j => tget BufSt.free s.host.bufs j == x).length

/-- Instances of LG_TASK now waiting, ready or running, with those that wait for a running one (R220, R229). -/
def State.heldTasks (s : State) : Nat :=
  (s.dsp.tasks.map fun x => b2n (x.2.st != .idle) + b2n x.2.again).sum

/-- C of an encoder input in ABZ mode, extended (R144, R145). -/
def State.encLive (s : State) (e : Nat) : Int :=
  let x := s.enc e
  x.ext + (x.c - x.lastLatch).toInt

/-- The raw terms of an instance, in the order of LGR_T0 to LGR_T5: counts since reset, and stock terms. -/
def State.ledTerms (s : State) (l i d : Nat) : List Int :=
  match l with
  | 0 => [s.host.allocs, s.host.frees, s.bufCount .free, s.bufCount .host, s.bufCount .inflight, s.bufCount .fw]
  | 1 => let b := s.branch i; [b.crIssued, b.crUsed, b.crLate, b.crCorrupt, b.crEmpty, b.crOut]
  | 2 => let n := tget {} s.net.nodes i; [n.lSched, n.lValid, n.lEmpty, n.lCorrupt, n.lLate]
  | 3 => [s.cap.owed, s.cap.stored, s.cap.crev, s.cap.held]
  | 4 => let c := s.step_ i; [c.handed, c.fwd, c.bwd, c.wdrn, c.held]
  | 5 => let x := s.enc i; [x.up, x.down, if s.pn 9 i 64 = 1 then s.encLive i else (x.up : Int) - x.down]
  | 6 => [s.dsp.tRel, s.dsp.tDone, s.dsp.tSuper, s.dsp.tSkip, s.heldTasks]
  | 7 => let x := (s.conn i).la
         if d = 0 then [x.issued, x.rel, x.withh] else [(x.x : Int) - x.x0, x.acc, x.miss, x.reb]
  | _ => []

/-- Instances of a ledger: one per node that the head knows for LG_SLOT (log 21). -/
def State.ledInst (s : State) (l : Nat) : List Nat :=
  match l with
  | 1 => List.range 8
  | 2 => s.net.nodes.map (·.1)
  | 4 => List.range 16
  | 5 => List.range 8
  | 7 => List.range 64
  | _ => [0]

/-- Directions of an instance. -/
def ledDirs (l : Nat) : List Nat := if l = 7 then [0, 1] else [0]

/-- Term k of a ledger is a stock term, shown as its present value (R449, R457). C − C_open is shown as a difference. -/
def isStock (l k : Nat) : Bool :=
  (l == 0 && 2 ≤ k) || (l == 1 && k == 5) || (l == 3 && k == 3) || (l == 4 && k == 4) || (l == 6 && k == 4)

def intAt (t : List Int) (k : Nat) : Int := (t[k]?).getD 0

/-- Right side taken from left side: D of the identity that holds flow terms, from terms less their opening values. -/
def ledDiff (l d : Nat) (x : List Int) : Int :=
  let t := intAt x
  match l with
  | 0 => t 0 - t 1 - (t 3 + t 4 + t 5)
  | 1 => t 0 - (t 1 + t 2 + t 3 + t 4 + t 5)
  | 2 => t 0 - (t 1 + t 2 + t 3 + t 4)
  | 3 => t 0 - (t 1 + t 2 + t 3)
  | 4 => t 0 - (t 1 - t 2 + t 3 + t 4)
  | 5 => t 0 - t 1 - t 2
  | 6 => t 0 - (t 1 + t 2 + t 3 + t 4)
  | _ => if d = 0 then t 0 - (t 1 + t 2) else t 0 - (t 1 + t 2 + t 3)

/-- D of the first identity of LG_MBX, on present values (R380, R449). -/
def poolDiff (l : Nat) (x : List Int) : Int := if l = 0 then intAt x 2 + intAt x 3 + intAt x 4 + intAt x 5 - 512 else 0

/-- What a check holds of an instance: T0 to T5 as shown, D, and D of LG_MBX's first identity. -/
def ledEntry (l d : Nat) (base x : List Int) : List Int :=
  let rel := (List.range 6).map fun k => intAt x k - intAt base k
  ((List.range 6).map fun k => if isStock l k then intAt x k else intAt rel k) ++ [ledDiff l d rel, poolDiff l x]

/-- Ledger l is open. -/
def State.ledOpen (s : State) (l : Nat) : Bool := bitOf s.lgr.opn.toNat l

/-! ## Checking (R448, R450, R452) -/

/-- The raw terms of every instance of the open ledgers at this instant. -/
def State.ledTake (s : State) (ls : List Nat) : Tbl (List Int) :=
  (ls.map fun l => ((s.ledInst l).map fun i => (ledDirs l).map fun d => (ledKey l i d, s.ledTerms l i d)).flatten).flatten

/-- EV_LEDGER_BREAK of an instance: kind is the second data byte. -/
def State.ledBreak (s : State) (l kind i d : Nat) (diff : Int) : State :=
  let s := { s with lgr := { s.lgr with brk := s.lgr.brk ||| BitVec.ofNat 8 (2 ^ l), brkCnt := satInc s.lgr.brkCnt } }
  let s := if s.lgr.firstV then s else
    { s with lgr := { s.lgr with firstV := true, firstL := l, firstDir := d == 1, firstInst := i } }
  s.raise evLedgerBreak i allGroups (leBytes 1 l ++ leBytes 1 kind ++ leBytes 2 i ++
    leBytes 2 (twos 16 (max (-32768) (min 32767 diff))))

/-- D of one identity against the D kept from the check before: the new state, and whether the instance breaks. -/
def Lgr.keep (g : Lgr) (key : Nat) (diff : Int) : Lgr × Bool :=
  ({ g with kept := tset 0 key diff g.kept }, diff != 0 && diff != tget 0 g.kept key)

/-- One instance of a check: its entry becomes the last check's; the first break found so far is carried on. -/
def State.checkInst (l i d : Nat) (x : List Int) (a : State × Option (Nat × Nat × Nat × Int)) : State × Option (Nat × Nat × Nat × Int) :=
  let (s, found) := a
  let e := ledEntry l d (tget [] s.lgr.base (ledKey l i d)) x
  let (g, b1) := if l = 0 then s.lgr.keep (i * 2 + 1) (intAt e 7) else (s.lgr, false)
  let (g, b0) := g.keep (l * 1024 + i * 2 + d) (intAt e 6)
  let g := { g with
    snap := tset [] (ledKey l i d) e g.snap
    now := if intAt e 6 ≠ 0 || intAt e 7 ≠ 0 then g.now ||| BitVec.ofNat 8 (2 ^ l) else g.now }
  let hit := if b1 then some (1, i, d, intAt e 7)
    else if b0 then some (if l = 7 then d else 0, i, d, intAt e 6) else none
  ({ s with lgr := g }, if found.isSome then found else hit)

/-- The check of ledger l on a snapshot. -/
def State.checkLedger (s : State) (snap : Tbl (List Int)) (l : Nat) : State :=
  let s := { s with lgr := { s.lgr with now := s.lgr.now &&& ~~~(BitVec.ofNat 8 (2 ^ l)) } }
  let insts := snap.filter fun x => x.1 / 1024 == l
  let s := s.pulseN 0x51 1 (if l = 0 then 2 * insts.length else insts.length)
  let (s, hit) := insts.foldl (fun a x => State.checkInst l (x.1 % 1024 / 2) (x.1 % 2) x.2 a) (s, none)
  match hit with
  | some (kind, i, d, diff) => s.ledBreak l kind i d diff
  | none => s

/-- The tick requests a snapshot (R448). -/
def State.ledRequest (s : State) : State :=
  { s with lgr := { s.lgr with
      take := s.ledTake ((List.range 7).filter s.ledOpen), takeFc := s.frm.frame, takeT := s.frm.now, takeDue := true } }

/-- The ledgers' last check goes into retention memory (R438). -/
def State.ledRetain (s : State) : State :=
  { s with lgr := { s.lgr with ret := s.lgr.snap, retOpen := s.lgr.opn, retFc := s.lgr.snapFc, retT := s.lgr.snapT } }

/-- LEDGER_CHECK (R448): every open ledger is evaluated on the tick's snapshot. -/
def execLedgerCheck (s : State) : Out :=
  .next <| if !s.lgr.takeDue then s else
    let snap := s.lgr.take
    let s := { s with lgr := { s.lgr with takeDue := false, snapFc := s.lgr.takeFc, snapT := s.lgr.takeT, chkCnt := s.lgr.chkCnt + 1 } }
    (((List.range 7).filter s.ledOpen).foldl (fun s l => s.checkLedger snap l) s).ledRetain

/-- Channel B's own LG_SSEQ check of one sequence stream: 2 · connection + direction. -/
def State.checkStreamB (a : State × Option (Nat × Nat × Int)) (k : Nat) : State × Option (Nat × Nat × Int) :=
  let s := a.1
  let i := k / 2
  let d := k % 2
  let x := (s.conn i).lb
  let t : List Int := if d = 0 then [x.issued, x.rel, x.withh] else [(x.x : Int) - x.x0, x.acc, x.miss, x.reb]
  let diff := ledDiff 7 d t
  let r := s.lgr.keep (7 * 1024 + 512 + k) diff
  ({ s with lgr := r.1 }, if a.2.isSome then a.2 else if r.2 then some (i, d, diff) else none)

/-- Channel A's LG_SSEQ check at the end of a safety cycle, and channel B's own (R448, R450). -/
def State.checkSseqB (s : State) : State :=
  match (List.range 128).foldl State.checkStreamB (s, none) with
  | (s, some (i, d, diff)) => s.ledBreak 7 (128 + d) i d diff
  | (s, none) => s

def State.checkSseq (s : State) : State := (if s.ledOpen 7 then s.checkLedger (s.ledTake [7]) 7 else s).checkSseqB

/-! ## Opening and closing (R449, R453, R454) -/

/-- Ledger l opens: its terms' present values are the opening balances, no D is kept. -/
def State.openLedger (s : State) (l : Nat) : State :=
  let rest (k : Nat) : Bool := k / 1024 != l
  { s with lgr := { s.lgr with
      opn := s.lgr.opn ||| BitVec.ofNat 8 (2 ^ l)
      base := (s.ledTake [l]).foldl (fun t x => tset [] x.1 x.2 t) (s.lgr.base.filter fun x => rest x.1)
      kept := s.lgr.kept.filter fun x => rest x.1, snap := s.lgr.snap.filter fun x => rest x.1
      take := s.lgr.take.filter fun x => rest x.1 } }

/-- W0 to W7, NBRK and DMAX of a closure, from a check's entries of the ledger (R454). -/
def closureData (l : Nat) (snap : Tbl (List Int)) : List Byte :=
  let es := (snap.filter fun x => x.1 / 1024 == l).map fun x => (x.1 % 2, x.2)
  let sum (d k : Nat) : Int := ((es.filter fun x => x.1 == d).map fun x => intAt x.2 k).sum
  let w := if l = 7 then [sum 0 0, sum 0 1, sum 0 2, sum 1 0, sum 1 1, sum 1 2, sum 1 3, 0]
    else [sum 0 0, sum 0 1, sum 0 2, sum 0 3, sum 0 4, sum 0 5, 0, 0]
  let ds := es.map fun x => max (intAt x.2 6).natAbs (intAt x.2 7).natAbs
  (w.map fun i => leBytes 8 (twos 64 i)).flatten ++ leBytes 4 (ds.filter (· ≠ 0)).length ++ leBytes 4 0 ++
    leBytes 8 (ds.foldl max 0)

/-- Ledger l closes with a cause: final snapshot and check, closure entry. -/
def State.closeLedger (s : State) (l cause : Nat) : State :=
  if !s.ledOpen l then s else
  let s := s.checkLedger (s.ledTake [l]) l
  let s := s.log 2 l 0 cause (closureData l s.lgr.snap)
  { s with lgr := { s.lgr with opn := s.lgr.opn &&& ~~~(BitVec.ofNat 8 (2 ^ l)) } }

def State.closeLedgers (s : State) (ls : List Nat) (cause : Nat) : State := ls.foldl (fun s l => s.closeLedger l cause) s

/-- LG_SSEQ starts at the part's next first PDU of each connection. -/
def State.dropSseq (s : State) : State :=
  { s with saf := { s.saf with conns := tmap {} (fun c => { c with la := {}, lb := {} }) s.saf.conns } }

/-- The closures of a reset that allowed no commit, from retention memory (R438, R453). -/
def State.retentionClosures (s : State) : State :=
  if !s.lgr.retUse then s else
  let s := ((List.range 8).filter fun l => bitOf s.lgr.retOpen.toNat l).foldl (fun s l =>
    s.logAt s.lgr.retT s.lgr.retFc 2 l 0 2 (closureData l s.lgr.ret)) s
  { s with lgr := { s.lgr with retUse := false } }

/-! ## The fault log (R454 to R456) -/

/-- Bytes of a half of the fault-log region, and of a commit marker (log 21). -/
def logHalfBytes : Nat := 0x80000
def logMarker : Nat := 128

/-- A committed entry enters the logical log: the first 64 since PRODUCTION, then the ring of the latest 448. -/
def State.logKeep (s : State) (e : List Byte) : State :=
  if 2 ≤ s.cfg.lcy ∧ s.lgr.logFirst.length < 64 then { s with lgr := { s.lgr with logFirst := s.lgr.logFirst ++ [e] } }
  else
    let r := s.lgr.logRing ++ [e]
    { s with lgr := { s.lgr with logRing := r.drop (r.length - 448) } }

/-- The pending entries and a marker have been programmed. -/
def State.logCommit (s : State) : State :=
  let p := s.lgr.logPend
  let s := p.foldl (fun s e => s.logKeep e) s
  { s with lgr := { s.lgr with logPend := [], logUsed := s.lgr.logUsed + 128 * p.length + logMarker } }

/-- FAULT_LOG_COMMIT (R434, R437, R455): a reset that awaits the commit may follow. -/
def execFaultLogCommit (s : State) : Out :=
  .next <| if s.lgr.logPend.isEmpty ∧ !s.pwr.commit then s else
    let s := s.logCommit
    { s with pwr := { s.pwr with commit := false } }

/-- FAULT_LOG_COMPACT (R455): half the region is full; the logical log stands in the other half. -/
def execFaultLogCompact (s : State) : Out :=
  .next <| if s.lgr.logUsed + 0x10000 ≤ logHalfBytes then s else
    { s with lgr := { s.lgr with
        logHalf := !s.lgr.logHalf
        logUsed := 128 * (s.lgr.logFirst.length + s.lgr.logRing.length) + logMarker } }

/-- The entry of a logical index; an index not yet written reads as zero. -/
def State.logEntryAt (s : State) (k : Nat) : List Byte :=
  let e := if k < 64 then s.lgr.logFirst[k]? else s.lgr.logRing[k - 64]?
  e.getD (List.replicate 128 0)

/-! ## LGR registers (R457) -/

/-- LGR_SEL: latches the selected instance's values of the last completed check. -/
def execLgrSel (v : W32) (s : State) : Out :=
  let l := bitsOf v.toNat 16 3
  let d := bitsOf v.toNat 8 1
  let i := v.toNat % 256
  let e := tget [] s.lgr.snap (ledKey l i (if l = 7 then d else 0))
  let s := s.hostWrite
  .next { s with lgr := { s.lgr with
    selL := l, selDir := d == 1, selInst := i, latchFc := s.lgr.snapFc.setWidth 32
    t := (List.range 6).map fun k => BitVec.ofInt 64 (intAt e k), diff := BitVec.ofInt 64 (intAt e 6) } }

/-- The LGR block, by offset from its base. -/
def State.lgrReg (s : State) (o : Nat) : Option W32 :=
  let g := s.lgr
  let half (x : W64) (hi : Bool) : W32 := if hi then hi32 x else lo32 x
  if o = 0x00 then some (wordOf [(g.brk.toNat, 0), (g.now.toNat, 8), (g.opn.toNat, 16)])
  else if o = 0x04 then some g.chkCnt
  else if o = 0x08 then some (wordOf [(g.selInst, 0), (b2n g.selDir, 8), (g.selL, 16)])
  else if o = 0x0C then some g.latchFc
  else if 0x10 ≤ o ∧ o < 0x40 ∧ o % 4 = 0 then some (half ((g.t[(o - 0x10) / 8]?).getD 0) (o % 8 == 4))
  else if o = 0x40 then some (lo32 g.diff)
  else if o = 0x44 then some (hi32 g.diff)
  else if o = 0x48 then some g.brkCnt
  else if o = 0x4C then some (wordOf [(g.firstInst, 0), (b2n g.firstDir, 8), (g.firstL, 16), (b2n g.firstV, 31)])
  else none

end Sys2Proof.Machine
end

