-- ==== Sys2Proof/Machine/Mailbox.lean ====
section
/-! DEFINITION. Mailbox buffers, requests and answers, the commands FP2 answers by itself, the host watchdog, interrupts, the
event ring and the output image's commit (R85, R99, R100, R374 to R388, R393 to R399, R402, R456, R494). -/

namespace Sys2Proof.Machine

/-! ## Buffers (R378, R379, R402) -/

def State.bufSt (s : State) (j : Nat) : BufSt := tget .free s.host.bufs j
def State.setBuf (s : State) (j : Nat) (x : BufSt) : State := { s with host := { s.host with bufs := tset .free j x s.host.bufs } }

/-- A mailbox protocol error of R379. -/
def State.protoErr (s : State) (bit : Nat) : State :=
  { s with host := { s.host with err := s.host.err ||| BitVec.ofNat 4 (2 ^ bit) } }.raiseDev evHostProto [0]

/-- The FREE buffer presented next: a free choice among the FREE ones (log 17). -/
def State.present (s : State) : State :=
  let l := (List.range 512).filter fun j => s.bufSt j == .free
  { s with host := { s.host with presented := l[Config.freeBuffer s.host.picks % l.length]?, picks := s.host.picks + 1 } }

/-- MBX_ALLOC: takes the presented FREE buffer. -/
def execMbxAlloc (s : State) : Out :=
  .next <| match s.host.presented with
    | none => s.hostWord 0
    | some j =>
      let s := (s.hostWord (BitVec.ofNat 32 (2 ^ 31 + j))).setBuf j .host
      { s with host := { s.host with allocs := s.host.allocs + 1 } }.present

/-- MBX_FREE: returns a HOST buffer to FREE. -/
def execMbxFree (v : W32) (s : State) : Out :=
  let j := v.toNat % 512
  let s := s.hostWrite
  .next <| if s.bufSt j = .host then
    let s := s.setBuf j .free
    let s := { s with host := { s.host with frees := s.host.frees + 1 } }
    if s.host.presented.isNone then s.present else s
  else s.protoErr 2

/-- Requests of mailbox m queued or in FW. -/
def State.mbxLoad (s : State) (m : Nat) : Nat :=
  (tget [] s.host.q m).length + (s.host.taken.filter fun t => t.mbx == m).length

/-- MBX_DB: queues a HOST buffer as a request. -/
def execMbxDb (m : Fin 32) (v : W32) (s : State) : Out :=
  let j := v.toNat % 512
  let s := s.hostWrite
  .next <| if s.bufSt j ≠ .host then s.protoErr 1
    else if 16 ≤ s.mbxLoad m then s.protoErr 3
    else
      let s := (s.setBuf j .inflight).pulseX 0x4B
      { s with host := { s.host with q := tmod [] m.val (· ++ [j]) s.host.q, dbT := tset 0 j s.frm.now s.host.dbT } }

/-- MBX_ANS: takes the oldest answer of mailbox m. -/
def execMbxAns (m : Fin 32) (s : State) : Out :=
  .next <| match tget [] s.host.ans m with
    | [] => s.hostWord 0
    | j :: r =>
      let s := (s.hostWord (BitVec.ofNat 32 (2 ^ 31 + j))).setBuf j .host
      { s with host := { s.host with ans := tset [] m.val r s.host.ans } }

/-- MBX_POOLA: pool counts of one cycle. -/
def execMbxPoola (s : State) : Out :=
  let b := BitVec.ofNat 32 (s.bufCount .fw + s.bufCount .inflight * 65536)
  let s := s.hostWord (BitVec.ofNat 32 (s.bufCount .free + s.bufCount .host * 65536))
  .next { s with host := { s.host with poolB := b } }

/-- MAILBOX_BUFFER_WRITE (R378): a word at a byte offset of the buffers' region. -/
def execMailboxBufferWrite (off : Nat) (v : W32) (s : State) : Out :=
  let s := s.hostWrite
  .next <| if s.bufSt (off / 512) = .host then
    { s with host := { s.host with mem := mwrite ramByte s.host.mem (off / 4 * 4) (leBytes 4 v.toNat) } }
  else { s with host := { s.host with err := s.host.err ||| 1 } }

/-! ## Requests and answers (R381 to R384) -/

def State.reqLen (s : State) (j : Nat) : Nat := leNat (s.bufBytes j 4 2)
def State.reqTmo (s : State) (j : Nat) : Nat := leNat (s.bufBytes j 8 4)
/-- A little-endian payload field. -/
def State.pay (s : State) (j o n : Nat) : Nat := leNat (s.bufBytes j (16 + o) n)

def stOk : Nat := 0
def stBadOpcode : Nat := 1
def stBadLen : Nat := 2
def stBadKey : Nat := 3
def stBadValue : Nat := 4
def stBadState : Nat := 5
def stClosedLoop : Nat := 6
def stCauseActive : Nat := 7
def stInUse : Nat := 8
def stCamMismatch : Nat := 9
def stSafePersist : Nat := 10
def stReadOnly : Nat := 11
def stTimeout : Nat := 12
def stRoleChange : Nat := 13
def stBadSig : Nat := 14

/-- FP2 posts the answer of buffer j on mailbox m. -/
def State.answer (s : State) (m j status eff : Nat) (pay : List Byte) : State :=
  let bytes := leBytes 2 pay.length ++ leBytes 2 status ++ leBytes 6 eff ++ [0, 0] ++ pay
  let s := s.setBuf j .inflight
  { s with host := { s.host with
      mem := mwrite ramByte s.host.mem (512 * j + 4) bytes, ans := tmod [] m (· ++ [j]) s.host.ans
      taken := s.host.taken.filter fun t => t.buf != j } }.irq 1

/-- Opcodes whose answer waits for the frame boundary. -/
def atBoundary (op : Nat) : Bool := op == 0x0011 || op == 0x0020 || op == 0x0040 || op == 0x0042

/-- Firmware runs whole: not the recovery service, not service level SL1 (R413, R436). -/
def State.fullService (s : State) : Bool := s.cfg.fwOn && s.cfg.fwSlot != 255 && s.pwr.sl == 2

/-- FP2 serves an opcode: all of R385 at SL2, four in the recovery service (R413), five at SL1 (R436). -/
def State.serves (s : State) (op : Nat) : Bool :=
  s.cfg.fwOn && (s.fullService || op == 0x0001 || op == 0x0002 || op == 0x0041 ||
    (if s.cfg.fwSlot = 255 then op == 0x0042 else op == 0x0010 || op == 0x0081))

/-- FP2 serves the request in buffer j: where it does not serve all, CFG_WRITE and CFG_ACTIVATE of firmware slots only. -/
def State.servesReq (s : State) (j : Nat) : Bool :=
  let op := s.reqOp j
  let fw := s.pay j 0 1 == 2 || s.pay j 0 1 == 3
  s.serves op && (s.fullService || fw || (op != 0x0041 && op != 0x0042))

/-- An AX_CMD of which FP2 has not handled every entry. -/
def State.curAx (s : State) : Option Taken := s.host.taken.find? fun t => !t.ready && s.reqOp t.buf == 0x0020

/-- Mailbox m's oldest request may be taken: it is one FP2 serves, and answers of one mailbox keep the order of their doorbells. -/
def State.mbxReady (s : State) (m : Nat) : Bool :=
  match tget [] s.host.q m with
  | [] => false
  | j :: _ =>
    let t := s.host.taken.filter fun t => t.mbx == m
    s.servesReq j && (t.isEmpty || (atBoundary (s.reqOp j) && t.all fun t => t.ready && atBoundary (s.reqOp t.buf)))

/-- The request FP2 takes next, round-robin in ascending mailbox number (R382): its mailbox and buffer. -/
def State.nextReq (s : State) : Option (Nat × Nat) :=
  if s.curAx.isSome then none else
  match (List.range 32).find? fun k => s.mbxReady ((s.host.rr + k) % 32) with
  | none => none
  | some k => ((tget [] s.host.q ((s.host.rr + k) % 32)).head?).map fun j => ((s.host.rr + k) % 32, j)

/-- FP2 takes a request: INFLIGHT to FW. -/
def State.take (s : State) (m j : Nat) (ready : Bool) : State :=
  let s := s.setBuf j .fw
  { s with host := { s.host with
      q := tmod [] m (·.drop 1) s.host.q, rr := (m + 1) % 32
      taken := s.host.taken ++ [{ mbx := m, buf := j, subs := [], ready := ready }] } }

/-- A command of the mailboxes: it acts when the request FP2 takes next has its opcode and FP2 serves it. -/
def State.serve (s : State) (op : Nat) (f : State → Nat → Nat → State) : State :=
  match s.nextReq with
  | some (m, j) => if s.reqOp j = op ∧ s.serves op then f (s.take m j true) m j else s
  | none => s

/-- FCNT_EFF of a command that takes effect at the next boundary. -/
def State.effNext (s : State) : Nat := if s.frm.run then s.frm.frame.toNat + 1 else 0

/-- The opcodes of R385, R420 and R421. -/
def opcodes : List Nat :=
  [0x0001, 0x0002, 0x0010, 0x0011, 0x0012, 0x0020, 0x0021, 0x0022, 0x0030, 0x0031, 0x0040, 0x0041, 0x0042, 0x0043, 0x0044,
   0x0050, 0x0051, 0x0052, 0x0053, 0x0060, 0x0061, 0x0062, 0x0070, 0x0071, 0x0072, 0x0080, 0x0081]

/-- BAD_OPCODE (R384). -/
def execBadOpcode (s : State) : Out :=
  .next <| match s.nextReq with
    | some (m, j) =>
      if !opcodes.contains (s.reqOp j) && s.serves (s.reqOp j) then (s.take m j true).answer m j stBadOpcode 0 [] else s
    | none => s

/-- ECHO: the payload unchanged. -/
def execEcho (s : State) : Out :=
  .next <| s.serve 0x0001 fun s m j =>
    let n := s.reqLen j
    if 496 < n then s.answer m j stBadLen 0 [] else s.answer m j stOk 0 (s.bufBytes j 16 n)

/-- A payload of COUNT entries of size n: COUNT from 1 to a limit, LEN to match, zeros in place. -/
def State.countOk (s : State) (j n lim : Nat) : Bool :=
  let c := s.pay j 0 2
  1 ≤ c && c ≤ lim && s.pay j 2 2 == 0 && s.reqLen j == 4 + n * c

/-- The value slot of a key (R386). -/
def State.slotOf (s : State) (k : Nat) : List Byte :=
  let c := keyClass k; let i := keyInst k; let n := keyItem k
  leBytes 8 (s.par c i n).toNat

/-- PARAM_READ: the values in force (R386). -/
def execParamRead (s : State) : Out :=
  .next <| s.serve 0x0010 fun s m j =>
    if !s.countOk j 4 60 then s.answer m j stBadLen 0 [] else
    let c := s.pay j 0 2
    let ks := (List.range c).map fun k => s.pay j (4 + 4 * k) 4
    if ks.all fun k => k < 2 ^ 24 && (paramRow (keyClass k) (keyInst k) (keyItem k)).isSome then
      s.answer m j stOk 0 (leBytes 2 c ++ [0, 0] ++ (ks.map s.slotOf).flatten)
    else s.answer m j stBadKey 0 []

/-- PARAM_INFO: a 12-byte entry for each key (log 25). -/
def execParamInfo (s : State) : Out :=
  .next <| s.serve 0x0012 fun s m j =>
    let c := s.reqLen j / 4
    if s.reqLen j % 4 ≠ 0 ∨ c = 0 ∨ 40 < c then s.answer m j stBadLen 0 [] else
    let ks := (List.range c).map fun k => s.pay j (4 * k) 4
    if ks.all fun k => k < 2 ^ 24 && (paramRow (keyClass k) (keyInst k) (keyItem k)).isSome then
      s.answer m j stOk 0 (ks.map fun k => leBytes 12 (Config.paramInfo k).toNat).flatten
    else s.answer m j stBadKey 0 []

/-- PARAM_WRITE: taken now, judged whole at the next boundary (R386, R405, R418). In the standby role, and while no frame
tick runs, it is refused at once (R237). -/
def execParamWrite (s : State) : Out :=
  .next <| s.serve 0x0011 fun s m j =>
    if !s.countOk j 12 41 then s.answer m j stBadLen 0 []
    else if s.frm.role = .standby ∨ !s.frm.run then s.answer m j stBadState 0 []
    else s

/-- GRP_CLRDERATE (R85): the masked groups' derating ends at the next boundary. -/
def execGrpClrderate (s : State) : Out :=
  .next <| s.serve 0x0021 fun s m j =>
    if s.reqLen j ≠ 4 then s.answer m j stBadLen 0 [] else
    let s' := { s with evt := { s.evt with clrDer := s.evt.clrDer ||| BitVec.ofNat 32 (s.pay j 0 4) } }
    s'.answer m j stOk s.effNext []

/-- YIELD (R258): the host's yield command, for a head whose tick runs. -/
def execYield (s : State) : Out :=
  .next <| s.serve 0x0022 fun s m j =>
    if s.reqLen j ≠ 0 then s.answer m j stBadLen 0 []
    else if !s.isHead ∨ !s.red.fit then s.answer m j stBadState 0 []
    else { s with red := { s.red with yReq := true } }.answer m j stOk s.effNext []

/-! ## AX_CMD (R387): each row takes the next entry that holds its sub-code; the entries are judged at the boundary -/

/-- SUB of entry k of an AX_CMD. -/
def State.axSub (s : State) (j k : Nat) : Nat := s.pay j (4 + 4 * k + 2) 1

/-- Entries from k on whose sub-code names no command, n at most. -/
def State.axSkip (s : State) (j k : Nat) : Nat → Nat
  | 0 => 0
  | n + 1 => let x := s.axSub j k
             if x = 0 ∨ 12 ≤ x then s.axSkip j (k + 1) n + 1 else 0

/-- The entries of a request from the ones handled on: those that name no command pass by themselves. -/
def State.axPass (s : State) (t : Taken) : Taken :=
  let c := s.pay t.buf 0 2
  let n := s.axSkip t.buf t.subs.length (c - t.subs.length)
  let t := { t with subs := t.subs ++ (List.range n).map fun k => BitVec.ofNat 8 (s.axSub t.buf (t.subs.length + k)) }
  { t with ready := decide (c ≤ t.subs.length) }

def State.setTaken (s : State) (t : Taken) : State :=
  { s with host := { s.host with taken := s.host.taken.map fun x => if x.buf = t.buf then t else x } }

/-- A sub-command: the next entry of the AX_CMD in hand, if it holds the sub-code. -/
def State.axEntry (s : State) (sub : Nat) (t : Taken) : State :=
  let t := s.axPass t
  if t.ready then s.setTaken t
  else if s.axSub t.buf t.subs.length = sub then s.setTaken (s.axPass { t with subs := t.subs ++ [BitVec.ofNat 8 sub] })
  else s

/-- The row of a sub-command: the AX_CMD in hand, or the one FP2 takes next when its first command is this one. -/
def State.axRow (s : State) (sub : Nat) : State :=
  match s.curAx with
  | some t => s.axEntry sub t
  | none =>
    match s.nextReq with
    | none => s
    | some (m, j) =>
      if s.reqOp j ≠ 0x0020 ∨ !s.serves 0x0020 then s
      else if !s.countOk j 4 64 then (s.take m j true).answer m j stBadLen 0 []
      else if s.frm.role ≠ .head ∨ !s.frm.run then (s.take m j true).answer m j stBadState 0 []
      else
        let t := s.axPass { mbx := m, buf := j, subs := [], ready := false }
        if t.ready ∨ s.axSub j t.subs.length = sub then (s.take m j false).axEntry sub { mbx := m, buf := j, subs := [], ready := false } else s

def execEnable (s : State) : Out := .next (s.axRow 1)
def execClose (s : State) : Out := .next (s.axRow 2)
def execOpenLoop (s : State) : Out := .next (s.axRow 3)
def execFreeze (s : State) : Out := .next (s.axRow 4)
def execDisable (s : State) : Out := .next (s.axRow 5)
def execAck (s : State) : Out := .next (s.axRow 6)
def execStop (s : State) : Out := .next (s.axRow 7)
def execHome (s : State) : Out := .next (s.axRow 8)
def execDiaSet (s : State) : Out := .next (s.axRow 9)
def execCamStart (s : State) : Out := .next (s.axRow 10)
def execCamSelect (s : State) : Out := .next (s.axRow 11)

/-! ## Cam tables (R99, R100, R385) -/

/-- CAM_WRITE: data into the staging area of a table. -/
def execCamWrite (s : State) : Out :=
  .next <| s.serve 0x0030 fun s m j =>
    let c := s.pay j 0 1
    let off := s.pay j 2 4
    let n := s.reqLen j - 6
    if s.reqLen j < 6 ∨ 488 < n ∨ s.pay j 1 1 ≠ 0 then s.answer m j stBadLen 0 []
    else if 64 ≤ c ∨ 98368 < off + n then s.answer m j stBadValue 0 []
    else
      let s := { s with camStg := tmod [] c (fun a => mwrite ramByte a off (s.bufBytes j 22 n)) s.camStg }
      s.answer m j stOk 0 []

/-- n staged bytes of a table. -/
def State.stgBytes (s : State) (c o n : Nat) : List Byte := mread ramByte (tget [] s.camStg c) o n
def f64At (bs : List Byte) (o : Nat) : F64 := ⟨BitVec.ofNat 64 (leAt bs o 8)⟩

/-- A table read from its layout of R99. -/
def camOf (bs : List Byte) : CamTable :=
  { npts := leAt bs 0 4, cyclic := bitOf (leAt bs 4 4) 0, xcyc := f64At bs 8, yrise := f64At bs 16
    knots := (List.range (min (leAt bs 0 4) 4096)).map fun i =>
      ⟨f64At bs (0x40 + 24 * i), f64At bs (0x48 + 24 * i), f64At bs (0x50 + 24 * i)⟩ }

/-- x_i strictly increasing. -/
def knotsRise : List Knot → Bool
  | a :: b :: r => flt a.x b.x && knotsRise (b :: r)
  | _ => true

/-- The checks of R100 on a table's bytes. -/
def camOk (bs : List Byte) : Bool :=
  let n := leAt bs 0 4
  let t := camOf bs
  let k0 := (t.knots[0]?).getD ⟨.zero, .zero, .zero⟩
  let kn := (t.knots[n - 1]?).getD ⟨.zero, .zero, .zero⟩
  2 ≤ n && n ≤ 4096 && leAt bs 4 4 < 2 &&
  t.knots.all (fun k => fFinite k.x && fFinite k.y && fFinite k.s) && fFinite t.xcyc && fFinite t.yrise &&
  feq k0.x .zero && knotsRise t.knots && feq kn.x t.xcyc &&
  leAt bs 24 4 == (crc32 (slice bs 0x40 (24 * n))).toNat &&
  (if t.cyclic then feq kn.y (fadd k0.y t.yrise) && feq kn.s k0.s else feq t.yrise .zero)

/-- The table an axis's cam follower uses (R104). -/
def State.camInUse (s : State) (i : Nat) : Nat := ((s.axis i).mo.camSel).getD (s.pn 5 i 908)

/-- An axis in CLOSED, STOPPING or FREEZE uses table c or has it pending. -/
def State.camBusy (s : State) (c : Nat) : Bool :=
  s.axisIds.any fun i =>
    let a := s.axis i
    (a.st.isClosed || a.st == .freeze) && s.pn 5 i 900 == 2 &&
    (s.camInUse i == c || (match a.mo.camPend with
      | some p => p.1 == c
      | none => false))

/-- CAM_LOAD: checks the staged table and installs it. -/
def execCamLoad (s : State) : Out :=
  .next <| s.serve 0x0031 fun s m j =>
    let c := s.pay j 0 1
    if s.reqLen j ≠ 1 then s.answer m j stBadLen 0 []
    else if 64 ≤ c then s.answer m j stBadValue 0 []
    else
      let bs := s.stgBytes c 0 (0x40 + 24 * min (leNat (s.stgBytes c 0 4)) 4096)
      if !camOk bs then s.answer m j stBadValue 0 []
      else if s.camBusy c then s.answer m j stInUse 0 []
      else { s with cams := tset {} c (camOf bs) s.cams }.answer m j stOk 0 []

/-! ## MATRIX_READ, FLOG_READ (R456, R494) -/

/-- MATRIX_READ: the reactions of a run of events. -/
def execMatrixRead (s : State) : Out :=
  .next <| s.serve 0x0080 fun s m j =>
    let first := s.pay j 0 2
    let c := s.pay j 2 2
    if s.reqLen j ≠ 4 ∨ c = 0 ∨ 14 < c then s.answer m j stBadLen 0 [] else
    let evs := (evDefs.filter fun e => first ≤ e.code).take c
    s.answer m j stOk 0 (leBytes 2 evs.length ++ [0, 0] ++
      (evs.map fun e => leBytes 2 e.code ++ (List.range 32).map fun g => BitVec.ofNat 8 (s.reaction e.code g)).flatten)

/-- FLOG_READ: fault-log entries of one state of the log. -/
def execFlogRead (s : State) : Out :=
  .next <| s.serve 0x0081 fun s m j =>
    let first := s.pay j 0 2
    let c := s.pay j 2 2
    if s.reqLen j ≠ 4 then s.answer m j stBadLen 0 []
    else if 512 ≤ first ∨ c = 0 ∨ 3 < c ∨ 512 < first + c then s.answer m j stBadValue 0 []
    else s.answer m j stOk 0 (leBytes 2 c ++ [0, 0] ++ ((List.range c).map fun k => s.logEntryAt (first + k)).flatten)

/-! ## Timeouts, change of role (R383) -/

/-- The mailbox on which buffer j waits as a request, or of the request in FW it holds. -/
def State.mbxOf (s : State) (j : Nat) : Option Nat :=
  match (List.range 32).find? fun m => (tget [] s.host.q m).contains j with
  | some m => some m
  | none => (s.host.taken.find? fun t => t.buf == j).map (·.mbx)

/-- Request j leaves its queue, and whatever waited on it is dropped (R383: it has changed nothing). -/
def State.dropReq (s : State) (m j : Nat) : State :=
  let er := match s.cfg.erasing with
    | some e => if e.2.2 = j then none else some e
    | none => none
  let ld := if s.saf.load.ansBuf = some j then {} else s.saf.load
  { s with host := { s.host with q := tmod [] m (·.filter (· != j)) s.host.q }, cfg := { s.cfg with erasing := er },
           saf := { s.saf with load := ld } }

/-- MAILBOX_TIMEOUT (R383). -/
def execMailboxTimeout (j : Fin 512) (s : State) : Out :=
  .next <| match s.mbxOf j with
    | none => s
    | some m =>
      let us := if s.reqTmo j = 0 then s.pn 0 0 18 else s.reqTmo j
      let s := (s.goto (tget 0 s.host.dbT j + usT us)).dropReq m j
      (s.answer m j stTimeout 0 []).raiseDev evMbxTimeout []

/-- Every queued request is answered ROLE_CHANGE when the part leaves the head role (R383). -/
def State.roleChange (s : State) : State :=
  let s := (List.range 32).foldl (fun s m =>
    (tget [] s.host.q m).foldl (fun s j => (s.dropReq m j).answer m j stRoleChange 0 []) s) s
  s.host.taken.foldl (fun s t => if atBoundary (s.reqOp t.buf) then s.answer t.mbx t.buf stRoleChange 0 [] else s) s

/-! ## Host link (R374) -/

/-- BAR0_UNSUPPORTED_ACCESS: no effect. -/
def execBar0UnsupportedAccess (_off _bytes : Nat) (s : State) : Out :=
  .next { s with host := { s.host with ur := true } }

/-- PCIE_LINK_UP: link training is complete. -/
def execPcieLinkUp (speed width : Nat) (s : State) : Out :=
  .next <| if s.host.hostsel then
    { s with host := { s.host with linkup := true, speed := speed % 4, width := width % 4 }, pwr := { s.pwr with clk := s.pwr.clk ||| 0x08 } }
  else s

/-- The PCIe link is down and its logic at reset. -/
def State.linkLost (s : State) : State :=
  { s with host := { s.host with linkup := false, speed := 0, width := 0 }, pwr := { s.pwr with l1 := false } }

/-- PCIE_REFCLK_LOSS (R428): the PCIe link goes down; nothing else stops. -/
def execPcieRefclkLoss (s : State) : Out := .next (if s.host.hostsel then { s.linkLost with pwr := { s.linkLost.pwr with clk := s.pwr.clk &&& 0x77 } } else s)

/-- PERST_N (R374, R437): resets the PCIe logic only, and sets its bit in PWR_RSTCAUSE. -/
def execPerstN (s : State) : Out :=
  .next <| if s.host.hostsel then
    let s := s.linkLost
    { s with host := { s.host with msix := [] }, pwr := { s.pwr with cause := s.pwr.cause ||| 0x100 } }
  else s

/-! ## Host watchdog (R388) -/

/-- DEV_ALIVE. -/
def execDevAlive (v : W32) (s : State) : Out :=
  let s := s.hostWrite
  .next <| if v.toNat / 65536 ≠ 0x0A11 then { s with host := { s.host with wdKey := true } }
    else if s.pn 0 0 16 = 1 ∧ s.cfg.running then
      { s with host := { s.host with wdArmed := true, wdRun := true, wdDue := s.frm.now + msT (s.pn 0 0 17) } }
    else s

/-- HOST_WATCHDOG_EXPIRY. -/
def execHostWatchdogExpiry (s : State) : Out :=
  .next <| if !s.host.wdArmed ∨ !s.host.wdRun then s else
    let s := s.goto s.host.wdDue
    let s := { s with host := { s.host with wdRun := false, wdExp := true, wdCnt := satAdd 13 s.host.wdCnt 1 } }
    (s.irq 4).raiseDev evHostLost []

/-- Time to expiry in ms, rounded down (DEV_WDSTAT.LEFT). -/
def State.wdLeft (s : State) : Nat := if s.host.wdRun then min ((s.host.wdDue - s.frm.now) / 5000000) 0xFFFF else 0

/-! ## Interrupts and the event ring (R397 to R399) -/

/-- EVT_ISTAT: a W1C write. -/
def execEvtIstat (v : W32) (s : State) : Out :=
  let s := s.hostWrite
  let (e, n) := s.evt.withStat s.host.hostsel (s.evt.istat &&& ~~~(v.setWidth 8)) 0
  .next ({ s with evt := e }.pulseN 0x4C 3 n)

/-- EVENT_RING_WRITE: the oldest queued entry goes into the ring, with its interrupt. -/
def execEventRingWrite (s : State) : Out :=
  .next <| match s.evt.queue with
    | [] => s
    | e :: r =>
      let p := s.evt.wrptr
      let s := { s with evt := { s.evt with
          queue := r, ring := tset [] p (ringBytes e (s.evt.seqAt 0)) s.evt.ring, wrptr := (p + 1) % 4096
          wraps := if p = 4095 then (s.evt.wraps + 1) % 2 ^ 20 else s.evt.wraps } }
      if 2 ≤ e.react then s.irq 0 else s

/-! ## The output image (R393, R394) -/

/-- The SPARE buffer. -/
def Hst.piSpare (h : Hst) : Nat := ((List.range 3).find? fun k => k != h.piActive && k != h.piHost && some k != h.piPend).getD 0

/-- MBX_PICOMMIT. -/
def execMbxPicommit (v : W32) (s : State) : Out :=
  let s := s.hostWrite
  .next <| if !v.getLsbD 0 then s
    else if !s.host.hrdy then { s with host := { s.host with cmterr := true } }
    else
      let h := s.host
      let new := match h.piPend with
        | some k => k
        | none => h.piSpare
      { s with host := { h with
          piPend := some h.piHost, piHost := new, copyFrom := h.piHost, hrdy := false
          piSuper := if h.piPend.isSome then satAdd 16 h.piSuper 1 else h.piSuper } }.pulseX 0x27

/-- COMMIT_COPY_COMPLETE. -/
def execCommitCopyComplete (s : State) : Out :=
  .next <| if s.host.hrdy then s else
    { s with host := { s.host with hrdy := true, po := tset [] s.host.piHost (tget [] s.host.po s.host.copyFrom) s.host.po } }

/-- Bytes of the output image that the layout of R389 and R390 defines. -/
def poDefined (o : Nat) : Bool :=
  o < 4 || (0x40 ≤ o && o < 0x44) || (0x200 ≤ o && o < 0x400 && o % 32 < 4) || (0x400 ≤ o && o < 0x800 && o % 16 < 4) ||
  (0x800 ≤ o && o < 0x1800) || (0x1800 ≤ o && o < 0x5800 && o % 64 < 32)

/-- OUTPUT_WINDOW_WRITE: the HOST buffer takes the word; bytes no field holds ignore it. -/
def execOutputWindowWrite (off : Nat) (v : W32) (s : State) : Out :=
  let s := s.hostWrite
  .next <| if !s.host.hrdy then { s with host := { s.host with wrign := true } }
    else if !poDefined off then s
    else
      let po := tmod [] s.host.piHost (fun b => mwrite ramByte b (off / 4 * 4) (leBytes 4 v.toNat)) s.host.po
      { s with host := { s.host with po := po } }

end Sys2Proof.Machine
end

