-- ==== Sys2Proof/Machine/Image.lean ====
section
/-! DEFINITION. Line images and rime overlays as byte strings: layout, records, admission checks, the values they give
(R403 to R409, R414, R415, R421, R424). -/

namespace Sys2Proof.Machine

/-! ## Records (R407) -/

/-- n records: key word and value slot. -/
def recordsOf (bs : List Byte) : Nat → List (Nat × W64)
  | 0 => []
  | n + 1 => (leAt bs 0 4, BitVec.ofNat 64 (leAt bs 4 8)) :: recordsOf (bs.drop 12) n

/-- The records of a section of whole records. -/
def sectRecords (bs : List Byte) : List (Nat × W64) := recordsOf bs (bs.length / 12)

/-- Keys in strictly ascending order. -/
def ascending : List Nat → Bool
  | a :: b :: r => decide (a < b) && ascending (b :: r)
  | _ => true

/-- A key of the SCHED section: a Base-only parameter of classes 1 to 4, or AX.TYPE, AX.NODE, AX.CHAN. -/
def schedKey (k : Nat) : Bool :=
  let c := keyClass k
  (c == 5 && keyItem k < 3) ||
  (1 ≤ c && c ≤ 4 && (match paramRow c (keyInst k) (keyItem k) with
    | some r => decide (r.wr = .base)
    | none => false))

/-- How many keys SCHED holds. -/
def schedCount : Nat :=
  3 * 256 + ((paramSpaces.filter fun x => 1 ≤ x.1 && x.1 ≤ 4).map fun x =>
    x.2.2.1 * ((x.2.2.2.filter fun r => decide (r.wr = .base)).map (·.n)).sum).sum

/-- A table of values with the records of a section, skipping the classes that no image sets: cam copies, the safety set, the
record of overlays. -/
def setRecords (t : Tbl W64) (rs : List (Nat × W64)) : Tbl W64 :=
  rs.foldl (fun t r =>
    if keyClass r.1 = 7 ∨ keyClass r.1 = 11 ∨ keyClass r.1 = 16 then t
    else paramSetIn t (keyClass r.1) (keyInst r.1) (keyItem r.1) r.2) t

/-- The values of a table, by key. -/
def lookIn (t : Tbl W64) : PLook := fun k => paramIn t (keyClass k) (keyInst k) (keyItem k)

/-- A record whose key exists and whose value lies in its range, other values being those of L (R409, R492). -/
def recOk (L : PLook) (r : Nat × W64) : Bool :=
  decide (r.1 < 2 ^ 24) && (match paramRow (keyClass r.1) (keyInst r.1) (keyItem r.1) with
    | some p => valueOk L p (keyClass r.1) (keyInst r.1) (keyItem r.1) r.2
    | none => false)

/-! ## The line image (R406, R407) -/

def allZero (bs : List Byte) : Bool := bs.all (· == 0)

/-- An entry of the section table: type, offset, length. -/
structure Sect where
  ty : Nat
  off : Nat
  len : Nat
  deriving DecidableEq, Repr

def sectAt (img : List Byte) (k : Nat) : Sect :=
  ⟨leAt img (128 + 16 * k) 2, leAt img (132 + 16 * k) 4, leAt img (136 + 16 * k) 4⟩

/-- The sections in use. -/
def imgSects (img : List Byte) : List Sect := (List.range (leAt img 6 2)).map (sectAt img)

/-- The bytes of the section of a type; none where it is absent. -/
def imgSect (img : List Byte) (ty : Nat) : Option (List Byte) :=
  ((imgSects img).find? fun e => e.ty == ty).map fun e => slice img e.off e.len

/-- LENGTH of the image that starts with these bytes, where its header's first fields allow one. -/
def imgLength (hdr : List Byte) : Option Nat :=
  let n := leAt hdr 8 4
  if slice hdr 0 4 = [0x4C, 0x49, 0x4E, 0x45] ∧ leAt hdr 4 2 = 1 ∧ 384 ≤ n ∧ n ≤ 0x800000 then some n else none

/-- The section table is well-formed: types of R407 once each, the required ones present, inside the image (log 19). -/
def imgTableOk (img : List Byte) : Bool :=
  let n := leAt img 6 2
  let es := imgSects img
  let tys := es.map (·.ty)
  (n == 4 || n == 5) && allZero (slice img 28 4) && allZero (slice img 96 32) &&
  es.all (fun e => 1 ≤ e.ty && e.ty ≤ 5 && 320 ≤ e.off && e.off + e.len + 64 ≤ img.length) &&
  decide tys.Nodup && [1, 2, 3, 4].all tys.contains &&
  (List.range n).all (fun k => allZero (slice img (130 + 16 * k) 2) && allZero (slice img (140 + 16 * k) 4)) &&
  allZero (slice img (128 + 16 * n) (16 * (12 - n)))

def imgSched (img : List Byte) : List Byte := (imgSect img 1).getD []

/-- The values an image gives: every parameter takes its record's value, or its default (R408). -/
def imgParams (img : List Byte) : Tbl W64 :=
  setRecords (setRecords [] (sectRecords (imgSched img))) (sectRecords ((imgSect img 2).getD []))

/-- SCHED and PARAMS are well-formed: whole records in ascending order, SCHED with exactly its set of keys. -/
def imgRecordsOk (img : List Byte) : Bool :=
  let sb := imgSched img
  let pb := (imgSect img 2).getD []
  let sr := sectRecords sb
  let pr := sectRecords pb
  let L := lookIn (imgParams img)
  sb.length % 12 == 0 && pb.length % 12 == 0 && sr.length == schedCount &&
  ascending (sr.map (·.1)) && ascending (pr.map (·.1)) &&
  sr.all (fun r => schedKey r.1 && recOk L r) &&
  pr.all (fun r => !schedKey r.1 && keyClass r.1 != 11 && recOk L r)

/-- MATRIX: one byte for each event of the manual in ascending order of code and each group; 0 leaves the default (log 19). -/
def imgMatrixOk (bs : List Byte) : Bool :=
  bs.length == 32 * evDefs.length &&
  ((evDefs.zipIdx).all fun x => (slice bs (32 * x.2) 32).all fun b => b == 0 || (x.1.floor ≤ b.toNat && b.toNat ≤ 7))

/-- The reaction matrix an image gives (R87). -/
def imgMatrix (bs : List Byte) : Tbl Nat :=
  (evDefs.zipIdx).foldl (fun t x => ((slice bs (32 * x.2) 32).zipIdx).foldl (fun t y =>
    if y.1 = 0 then t else tset (evDefault x.1.code) (x.1.code * 32 + y.2) y.1.toNat t) t) []

/-- The cam tables of a CAMS section, each behind its number; none where a table is not whole. n bounds their count. -/
def imgCams (bs : List Byte) : Nat → Option (List (Nat × List Byte))
  | 0 => if bs.isEmpty then some [] else none
  | n + 1 =>
    if bs.isEmpty then some [] else
    let size := 0x40 + 24 * leAt bs 4 4
    if bs.length < 4 + size then none
    else (imgCams (bs.drop (4 + size)) n).map fun r => (leAt bs 0 4, slice bs 4 size) :: r

/-- CAMS is well-formed: whole tables of R99 that pass the checks of R100, each number once. -/
def imgCamsOk (img : List Byte) : Bool :=
  match imgSect img 5 with
  | none => true
  | some bs =>
    match imgCams bs 64 with
    | none => false
    | some l => l.all (fun x => x.1 < 64 && camOk x.2) && decide (l.map (·.1)).Nodup

/-- R1, R155, R105 of an image's values. -/
def axesOk (L : PLook) : Bool :=
  let par (c i n : Nat) : Nat := (L (pkey c i n)).toNat
  let axes := (List.range 256).filter fun i => par 5 i 0 != 0
  31250 ≤ par 1 0 0 || axes.length ≤ 96

def nodesOk (L : PLook) : Bool :=
  let par (c i n : Nat) : Nat := (L (pkey c i n)).toNat
  (((List.range 8).filter fun b => par 3 b 0 == 1).map fun b => par 3 b 1).sum ≤ 128

def zoneOk (L : PLook) (z : Nat) : Bool :=
  let par (c i n : Nat) : Nat := (L (pkey c i n)).toNat
  let up := par 6 z 1
  let dn := par 6 z 2
  let d (z : Nat) : Bool := par 6 z 1 != par 6 z 2
  let servo (i : Nat) : Bool := par 5 i 0 == 1 || par 5 i 0 == 2
  let group (i : Nat) : Nat := par 8 (par 5 i 901) 1
  up == dn ||
  ((par 6 z 3 == 255 || (d (par 6 z 3) && par 6 (par 6 z 3) 2 == up)) &&
   (par 6 z 4 == 255 || (d (par 6 z 4) && par 6 (par 6 z 4) 1 == dn)) &&
   (par 6 z 5 == 1 || (servo up && servo dn)) &&
   par 5 up 900 != 0 && par 5 dn 900 != 0 && par 5 up 0 != 0 && par 5 dn 0 != 0 && group up == group dn)

def imgAdmits (L : PLook) : Bool := axesOk L && nodesOk L && (List.range 64).all (zoneOk L)

/-! ## Admission (R409, R421) -/

/-- SIG over a digest verifies with a public key whose digest the lifecycle state trusts. -/
def State.keyTrusted (s : State) (keypub : List Byte) : Bool :=
  let d := Config.sha256 keypub
  if s.cfg.lcy = 0 then Config.gysiaKey d
  else match s.cfg.cfgKey with
    | some k => d == k
    | none => false

/-- The lifecycle state admits configurations. -/
def State.lcyAdmits (s : State) : Bool := s.cfg.lcy == 0 || (s.cfg.cfgKey.isSome && (s.cfg.lcy == 1 || s.cfg.lcy == 2))

/-- Flash offset of a base slot, and of overlay slot k (R410). -/
def baseSlotAt (k : Nat) : Nat := 0x01400000 + 0x00800000 * k
def ovlSlotAt (k : Nat) : Nat := 0x02400000 + 0x10000 * k

def State.flashBytes (s : State) (a n : Nat) : List Byte := mread flashByte s.cfg.flash a n

/-- The image in a base slot as far as its header gives a length. -/
def State.baseImage (s : State) (k : Nat) : List Byte :=
  match imgLength (s.flashBytes (baseSlotAt k) 12) with
  | some n => s.flashBytes (baseSlotAt k) n
  | none => []

/-- The image digest (R406). -/
def imgDigest (img : List Byte) : BitVec 256 := Config.sha256 (img.take (img.length - 64))

/-- Whether the part is one of the pair's two (R234, reason 5). -/
def idOk (L : PLook) : Bool := L (pkey 14 0 0) != 1 || L (pkey 14 0 1) == Config.headId || L (pkey 14 0 2) == Config.headId

/-- The reason of R409 for which base slot k is refused, 0 where it passes. Checks are made in the order 7, 6, 2 (header), 1, 2,
3, 4, 5 (log 19). -/
def State.refuse (s : State) (k : Nat) : Nat :=
  if s.flashBytes (baseSlotAt k) 4 = [0xFF, 0xFF, 0xFF, 0xFF] then 7
  else if !s.lcyAdmits then 6
  else if (imgLength (s.flashBytes (baseSlotAt k) 12)).isNone then 2
  else
    let img := s.baseImage k
    let L := lookIn (imgParams img)
    if !(s.keyTrusted (slice img 32 64) && Config.ecdsaOk (slice img 32 64) (imgDigest img) (slice img (img.length - 64) 64)) then 1
    else if !(imgTableOk img && imgRecordsOk img && imgMatrixOk ((imgSect img 3).getD []) && imgCamsOk img) then 2
    else if !(leAt img 20 4 == s.cfg.fwKcd.toNat && leAt img 16 4 ≤ s.cfg.fwVer.toNat) then 3
    else if !(imgAdmits L && Config.proofPasses ((imgSect img 4).getD [])) then 4
    else if !idOk L then 5
    else 0

/-! ## Overlays (R414, R415) -/

/-- State of an overlay slot (R424 OVL.STATE). -/
inductive OvlSt where
  | empty | valid | invalid | other
  deriving DecidableEq, Repr

def OvlSt.code : OvlSt → Nat
  | .empty => 0
  | .valid => 1
  | .invalid => 2
  | .other => 3

/-- Bytes of an overlay as its LENGTH says, where NENT agrees with it. -/
def State.ovlImage (s : State) (k : Nat) : List Byte :=
  let n := leNat (s.flashBytes (ovlSlotAt k + 12) 2)
  if 1 ≤ n ∧ n ≤ 1024 ∧ leNat (s.flashBytes (ovlSlotAt k + 8) 4) = 192 + 12 * n then s.flashBytes (ovlSlotAt k) (192 + 12 * n) else []

/-- The entries of an overlay. -/
def ovlEntries (o : List Byte) : List (Nat × W64) := recordsOf (o.drop 128) (leAt o 12 2)

/-- The "Writable in" entry of a key. -/
def keyWr (k : Nat) : Option WrIn := (paramRow (keyClass k) (keyInst k) (keyItem k)).map (·.wr)

/-- A path by rime overlay exists (R405). -/
def ovlWritable (k : Nat) : Bool :=
  match keyWr k with
  | some .any | some .loop | some .zone | some .capt | some .fioq => true
  | _ => false

/-- An overlay's checks of R415, but for the base it belongs to. Its values are judged with its other entries in force (R417). -/
def State.ovlOk (s : State) (o : List Byte) : Bool :=
  let es := ovlEntries o
  let n := leAt o 12 2
  let coef := es.any fun e => keyWr e.1 = some .loop ∨ keyWr e.1 = some .zone
  let L := lookIn (setRecords s.params es)
  192 ≤ o.length && slice o 0 4 == [0x52, 0x49, 0x4D, 0x45] && leAt o 4 2 == 1 && leAt o 6 2 == b2n coef &&
  allZero (slice o 14 2) && allZero (slice o 52 12) &&
  s.keyTrusted (slice o 64 64) && Config.ecdsaOk (slice o 64 64) (Config.sha256 (o.take (128 + 12 * n))) (slice o (128 + 12 * n) 64) &&
  ascending (es.map (·.1)) && es.all fun e => ovlWritable e.1 && recOk L e

/-- The state of overlay slot k (R415, R424). -/
def State.ovlSt (s : State) (k : Nat) : OvlSt :=
  if s.flashBytes (ovlSlotAt k) 4 = [0xFF, 0xFF, 0xFF, 0xFF] then .empty
  else
    let o := s.ovlImage k
    if !s.ovlOk o then .invalid
    else if s.cfg.running ∧ BitVec.ofNat 256 (beNat (slice o 16 32)) = s.cfg.digest then .valid
    else .other

/-- The class-16 values of overlay slot k are brought up to date (R411, R424). -/
def State.ovlShow (s : State) (k : Nat) : State :=
  let st := s.ovlSt k
  let id := if st = .valid then leAt (s.ovlImage k) 48 4 else 0
  (s.setPar 16 0 (16 + k) (BitVec.ofNat 64 id)).setPar 16 0 (32 + k) (BitVec.ofNat 64 st.code)

end Sys2Proof.Machine
end

