-- ==== Sys2Proof/Machine/Boundary.lean ====
section
/-! DEFINITION. What a frame boundary does to an axis, a zone and a line by itself, before any command or reaction: references
for the next S come into force, FP1's publications are taken, a completed stop takes its next state (R57, R71, R83, R91, R107,
R123, R141). -/

namespace Sys2Proof.Machine

/-- The references, s_J, δ and motion bits the trailing kernel formed come into force; a skipped kernel leaves them (R20). -/
def Axis.shiftRefs (a : Axis) : Axis :=
  if !a.trailDone then a else
  let formed := a.st.isClosed || a.st = .freeze
  let r := a.rf
  { a with
    rf := { r with int := if formed then r.intN else r.int, frac := if formed then r.fracN else r.frac,
                   w := if formed then r.wN else r.w, a := if formed then r.aN else r.a, sJ := r.sJn, dl := r.dlN }
    mo := { a.mo with cur := a.mo.nxt } }

/-- FP1's plan is published (R123); the back-off of a homing run may then be planned (R141). -/
def Axis.takePlan (a : Axis) : Axis :=
  let m := a.mo
  let m := match m.planNext with
    | some p => { m with plan := p, planOn := true, planNext := none }
    | none => m
  { a with mo := { m with homeReq := if m.homeReq = 3 then 2 else m.homeReq } }

/-- The back-off has arrived: homing is complete (R141). -/
def Axis.homeDone (a : Axis) : Axis :=
  if a.mo.homing && a.mo.homePhase = 2 && a.mo.cur.atTarget && a.mo.homeReq = 0 && a.mo.planNext.isNone then
    { a with mo := { a.mo.homeEnd true with homed := true } }
  else a

/-- An axis at the beginning of frame n, before the boundary's commands and reactions. -/
def Axis.nextFrame (n : Nat) (a : Axis) : Axis :=
  { (a.shiftRefs.homeDone.takePlan.finishStop.startEst n) with critDone := false, aband := false, trailDone := false }

/-- A zone at the beginning of a frame. -/
def Zone.nextFrame (z : Zone) : Zone :=
  { z with thatPrev := z.that, uPrev := z.u, critDone := false, aband := false, trailDone := false, nonfin := false,
           was := { has := z.has, cb := z.cb, tStar := z.tStar, tStarOn := z.tStarOn, ran := z.ran } }

/-- An axis, a zone as a configuration starts with them: DISABLED, draw, diameter and radius as configured, k_f of R107
(R66, R113, R495). -/
def axisInit (P : Par) : Axis :=
  { rf := { draw := parD P 902, dia := parF P 921, rad := followRadius P (parF P 921) } }
def zoneInit (P : Par) (per : F64) : Zone := { kf := zoneKf P per }

/-- The running state of axes, zones and lines at configuration start. -/
def State.initAxes (s : State) : State :=
  let s := { s with axes := [], zones := [], lines := [] }
  let s := s.axisIds.foldl (fun s i => s.setAxis i (axisInit (s.P 5 i))) s
  s.zoneIds.foldl (fun s z => s.setZone z (zoneInit (s.P 6 z) (periodSec s.frm.period))) s

/-- A line takes its publication, or extrapolates. -/
def Line.nextFrame (per : F64) (l : Line) : Line :=
  let l := { l with vS := l.pub.v }
  match l.next with
  | some p => { l with pub := p, next := none }
  | none =>
    let v := ffma l.pub.a per l.pub.v
    let dx := fmul v per
    { l with pub := { x := fadd l.pub.x dx, v := v, a := l.pub.a, dx := dx } }

end Sys2Proof.Machine
end

