-- ==== Sys2Proof/Machine/SafetyIn.lean ====
section
/-! DEFINITION. The two safety channels' faults and degraded window, the safety inputs with their filter, discrepancy and
test-pulse rules, the safety outputs with readbacks and off-tests (R265 to R276, R286 to R289). Channel A's decisions and
channel B's are made from the same exchanged data; what the two keep apart is held apart in the state. -/

namespace Sys2Proof.Machine

/-! ## Parameters of class 11 -/

/-- Items of input pair n, safety group g and connection c (R293, R312). -/
def State.sinP (s : State) (n k : Nat) : Nat := s.pn 11 (8 + n) k
def State.sgP (s : State) (g k : Nat) : Nat := s.pn 11 (32 + g) k
def State.sgF (s : State) (g k : Nat) : F64 := parF (s.P 11 (32 + g)) k
def State.scP (s : State) (c k : Nat) : Nat := s.pn 11 (64 + c) k

/-- The safety set runs in both channels (R290). -/
def State.setRuns (s : State) : Bool := s.saf.setOk

/-! ## Channel faults and the degraded window (R286 to R289) -/

def SChan.bad (c : SChan) : Bool := c.fault != .healthy

/-- Both channels are in fault. -/
def State.bothBad (s : State) : Bool := s.saf.a.bad && s.saf.b.bad

/-- Both channels judge, or the surviving one alone while the other is in fault (R286). -/
def State.judgesA (s : State) : Bool := !s.saf.a.bad || s.saf.b.bad
def State.judgesB (s : State) : Bool := !s.saf.b.bad || s.saf.a.bad

/-- The safe speeds a connection contributes, in m/s (R282): those accepted as valid. -/
def State.connSpeeds (s : State) (c : Nat) : List F64 :=
  let x := s.conn c
  let k (n : Nat) := parF (s.P 11 (64 + c)) n
  if x.fail ∨ s.scP c 0 = 0 then [] else
  (if x.v0 then [fabs (fmul (fWiden x.s0) (k 16))] else []) ++ (if x.v1 then [fabs (fmul (fWiden x.s1) (k 17))] else [])

/-- The connections of a group. -/
def State.groupConns (s : State) (g : Nat) : List Nat := (List.range 64).filter fun c => bitOf (s.sgP g 2) c && s.scP c 0 == 1

/-- v_mon of a group (R282); zero where no speed is accepted (log 12). -/
def State.vMon (s : State) (g : Nat) : F64 := ((s.groupConns g).map s.connSpeeds).flatten.foldl fmax F64.zero

/-- The degraded window opens: one channel is in fault and the other is not (R286). The faulted channel's switches freeze. -/
def State.degEnter (s : State) (chB : Bool) : State :=
  let s := (List.range 32).foldl (fun s g => s.setSgrp g { s.sgrp g with v0 := s.vMon g }) s
  let s := (List.range 4).foldl (fun s o =>
    let x := s.sout o
    s.setSout o (if chB then { x with frzB := true } else { x with frzA := true })) s
  let s := { s with saf := { s.saf with deg := true, degAt := s.saf.cycle, degExp := false,
                                         degEnd := s.frm.now + msT (1000 * s.pn 11 0 0) } }
  (s.raiseDev evSafeChfault [BitVec.ofNat 8 (b2n chB)]).raiseDev evSafeDegraded []

/-- The window is over: frozen switches return to their channel's control where the fault was cleared; else they open and stay
frozen, since such a switch is never closed again. -/
def State.degLeave (s : State) (cleared : Bool) : State :=
  let s := (List.range 4).foldl (fun s o =>
    let x := s.sout o
    s.setSout o { x with soh := x.soh && (cleared || !x.frzA), sol := x.sol && (cleared || !x.frzB),
                         frzA := x.frzA && !cleared, frzB := x.frzB && !cleared }) s
  { s with saf := { s.saf with deg := false, degExp := false, clr := none } }

def State.setChan (s : State) (chB : Bool) (c : SChan) : State :=
  if chB then { s with saf := { s.saf with b := c } } else { s with saf := { s.saf with a := c } }
def State.chan (s : State) (chB : Bool) : SChan := if chB then s.saf.b else s.saf.a

/-- A channel is in fault of a class. The window opens where the other channel is healthy; a second channel's fault ends it
(R286, R289). -/
def State.chanFault (s : State) (chB : Bool) (f : ChFault) : State :=
  let was := s.chan chB
  let s := s.setChan chB { was with fault := if was.fault = .persistent then .persistent else f }
  if s.bothBad then s.degLeave false
  else if was.bad ∨ s.saf.deg then s
  else s.degEnter chB

/-- Times of the last 60 minutes, with one more. -/
def transAdd (now : Nat) (l : List Nat) : List Nat := now :: l.filter fun t => now < t + msT 3600000

/-- The transient faults a channel counts: those of the last 60 minutes of its clock (R287). -/
def State.transCount (s : State) (c : SChan) : Nat := (c.trans.filter fun t => s.frm.now < t + msT 3600000).length

/-- A transient fault of a channel is counted; the fourth within 60 minutes is persistent (R287). What a channel corrects of its own
leaves it in service otherwise: such a fault opens the degraded window only where it is persistent (log 12). -/
def State.transient (s : State) (chB : Bool) : State :=
  let c := s.chan chB
  let l := transAdd s.frm.now c.trans
  let s := s.setChan chB { c with trans := l }
  if 4 ≤ l.length then s.chanFault chB .persistent else s

/-- SAFETY_CHANNEL_FAULT (R287): a fault the channel detects of its own; a persistent one opens the degraded window. -/
def execSafetyChannelFault (chB : Bool) (f : ChFault) (s : State) : Out :=
  .next <| match f with
    | .persistent => s.chanFault chB .persistent
    | .transient => s.transient chB
    | _ => s

/-- What a diagnosis decides (R268): a channel whose self-test failed is in fault; where both passed, a matching comparison since its
start makes it a transient fault of channel B, and a remaining mismatch puts both in fault. -/
def State.diagDecide (s : State) (okA okB : Bool) : State :=
  let s := { s with saf := { s.saf with diag := 0 } }
  if !okA ∨ !okB then
    let s := if okA then s else s.chanFault false .persistent
    if okB then s else s.chanFault true .persistent
  else if s.saf.cmpBad then (s.chanFault false .persistent).chanFault true .persistent
  else
    let c := s.saf.b
    let l := transAdd s.frm.now c.trans
    (s.setChan true { c with trans := l }).chanFault true (if 4 ≤ l.length then .persistent else .transient)

/-- DIAGNOSIS_END (R268): each operand is a channel's self-test, healthy where it passed. A failed one is acted on at once; two that
passed wait for the comparison that follows the diagnosis's start. -/
def execDiagnosisEnd (a b : ChFault) (s : State) : Out :=
  .next <| if s.saf.diag = 0 then s else
    let okA : Bool := a == .healthy
    let okB : Bool := b == .healthy
    let s := { s with saf := { s.saf with a := { s.saf.a with stOk := okA }, b := { s.saf.b with stOk := okB } } }
    if okA ∧ okB ∧ s.saf.diag = 2 then s else s.diagDecide okA okB

/-! ## Safety inputs (R269 to R273) -/

/-- The source that feeds a pair's contact: 0 TPA0, 1 TPA1, 2 TPB0, 3 TPB1. -/
def State.tpSource (s : State) (n : Nat) (chB : Bool) : Nat := s.sinP n 4 + (if chB then 2 else 0)

/-- A source's samples are masked: from its pulse's start until 200 µs after its end. -/
def State.tpMasked (s : State) (k : Nat) : Bool :=
  let st := tget 0 s.saf.tpStart k
  st != 0 && decide (s.frm.now ≤ st - 1 + usT (s.pn 11 0 2) + usT 200)

/-- The test window of a source's pulse: from 100 µs after its start until it ends. -/
def State.tpWindow (s : State) (k : Nat) : Bool :=
  let st := tget 0 s.saf.tpStart k
  tget false s.saf.tpLow k && decide (st - 1 + usT 100 ≤ s.frm.now ∧ s.frm.now ≤ st - 1 + usT (s.pn 11 0 2))

/-- One sample pair on input pair n (R269 to R272): ra and rb are the raw levels. -/
def State.samplePair (s : State) (ra rb : Bool) (n : Nat) : State :=
  let x := s.spair n
  let tp := s.sinP n 3 = 1
  let filt := s.sinP n 1
  let anti := s.sinP n 0 = 1
  let a := if tp && s.tpMasked (s.tpSource n false) then x.a else ra
  let b := if tp && s.tpMasked (s.tpSource n true) then x.b else rb
  let dA := !a
  let dB := if anti then b else !b
  let two := s.judgesA && s.judgesB
  let dem := (s.judgesA && dA) || (s.judgesB && dB)
  let on : Bool := if two then dA && dB else dem
  let off : Bool := if two then !dA && !dB else !dem
  let bothOn := if on then x.bothOn + 1 else 0
  let bothOff := if off then x.bothOff + 1 else 0
  let clr := if !x.latch then 0 else if x.clr = 0 ∧ filt ≤ bothOn then 1 else x.clr
  let ends : Bool := x.latch && x.clr == 1 && decide (filt ≤ bothOff)
  s.setSpair n { x with
    a := a, b := b, onRun := if dem then x.onRun + 1 else 0, offRun := if dem then 0 else x.offRun + 1,
    discRun := if two && dA != dB then x.discRun + 1 else 0,
    bothOn := bothOn, bothOff := bothOff, clr := if ends then 0 else clr, latch := x.latch && !ends,
    tpLowA := x.tpLowA || (tp && s.tpWindow (s.tpSource n false) && !ra),
    tpLowB := x.tpLowB || (tp && s.tpWindow (s.tpSource n true) && !rb) }

/-- SAFETY_INPUT_SAMPLE (R269): the levels of SINA0–7 and SINB0–7; the k-th pair of samples is due at k · 50 µs (log 12). -/
def execSafetyInputSample (a b : Byte) (s : State) : Out :=
  .next <|
    let s := s.goto (usT 50 * (s.saf.smpK + 1))
    let s := { s with saf := { s.saf with smpK := s.saf.smpK + 1 } }
    (List.range 8).foldl (fun s n => s.samplePair (a.getLsbD n) (b.getLsbD n) n) s

/-- A pulse of the pair's filtered state that lasted from 100 ms to 2 s ends: a reset is received (R283). -/
def State.resetPulse (s : State) (n : Nat) : State :=
  match (s.spair n).onFrom with
  | none => s
  | some t =>
    let d := s.saf.tick - t
    if 1000 ≤ d ∧ d ≤ 20000 then
      (List.range 32).foldl (fun s g =>
        if s.sgP g 19 = 1 ∧ s.sgP g 20 = n then s.setSgrp g { s.sgrp g with rst := true } else s) s
    else s

/-- FILTERED_DEMAND_CHANGE (R270). -/
def execFilteredDemandChange (p : Fin 8) (s : State) : Out :=
  let x := s.spair p
  let filt := s.sinP p 1
  .next <|
    if filt ≤ x.onRun ∧ !x.demand then
      let s := s.resetPulse p
      s.setSpair p { x with demand := true, onFrom := none }
    else if filt ≤ x.offRun ∧ x.demand then s.setSpair p { x with demand := false, onFrom := some s.saf.tick }
    else s

/-- DISCREPANCY_FAULT (R271, R272): SIN.T_DISC / 50 µs disagreeing pairs. -/
def execDiscrepancyFault (p : Fin 8) (s : State) : Out :=
  let x := s.spair p
  .next <| if 20 * s.sinP p 2 ≤ x.discRun ∧ !x.latch then
    (s.setSpair p { x with latch := true, clr := 0, bothOn := 0, bothOff := 0 }).raise evSafeDisc p allGroups []
  else s

/-- The first instant at or after lo at a phase of a period; all in units of device time. -/
def phaseFrom (per phase lo : Nat) : Nat := if per = 0 then lo else lo + (phase + per - lo % per) % per

/-- The next pulse of source k: once every SAFE.TP_PER, the sources a quarter of it apart (log 12). -/
def State.tpNext (s : State) (k : Nat) : Nat :=
  let per := msT (s.pn 11 0 1)
  phaseFrom per (k * per / 4) (max s.frm.now (tget 0 s.saf.tpStart k))

/-- TEST_PULSE_START (R273): source k goes low, and no other is. -/
def execTestPulseStart (k : Fin 4) (s : State) : Out :=
  .next <| if (List.range 4).any fun j => tget false s.saf.tpLow j then s else
    let s := s.goto (s.tpNext k)
    let s := { s with saf := { s.saf with tpLow := tset false k.val true s.saf.tpLow,
                                          tpStart := tset 0 k.val (s.frm.now + 1) s.saf.tpStart } }
    (List.range 8).foldl (fun s n =>
      let x := s.spair n
      if s.tpSource n (2 ≤ k.val) = k then s.setSpair n (if k.val < 2 then { x with tpLowA := false } else { x with tpLowB := false }) else s) s

/-- TEST_PULSE_WINDOW_END (R273): the pulse ends; an input that read active throughout is faulted as in R272. -/
def execTestPulseWindowEnd (k : Fin 4) (s : State) : Out :=
  .next <| if !tget false s.saf.tpLow k.val then s else
    let chB : Bool := 2 ≤ k.val
    let s := s.goto (tget 0 s.saf.tpStart k.val - 1 + usT (s.pn 11 0 2))
    let s := { s with saf := { s.saf with tpLow := tset false k.val false s.saf.tpLow } }
    if !(if chB then s.judgesB else s.judgesA) then s else
    (List.range 8).foldl (fun s n =>
      let x := s.spair n
      if s.sinP n 3 = 1 ∧ s.tpSource n chB = k ∧ !(if chB then x.tpLowB else x.tpLowA) ∧ !x.latch then
        (s.setSpair n { x with latch := true, clr := 0, bothOn := 0, bothOff := 0 }).raise evSafeTp n allGroups []
      else s) s

/-! ## Safety outputs (R274 to R276, R284) -/

/-- Output o is to be energised: no group holds it open in STO, or as a brake whose delay has run out (R279, R283, R284). -/
def State.outWanted (s : State) (o : Nat) : Bool :=
  let gs := (List.range 32).filter fun g => bitOf (s.sgP g 3) o || bitOf (s.sgP g 4) o
  s.setRuns && !gs.isEmpty && gs.all fun g =>
    let x := s.sgrp g
    (x.st != .sto) || (!bitOf (s.sgP g 3) o && x.sbcAt.isSome)

/-- Channel A's switch, and channel B's, as the decisions stand; a frozen switch stays. -/
def State.drive (s : State) (o : Nat) (chB close : Bool) : State :=
  let x := s.sout o
  let want : Bool := s.outWanted o && !x.fault
  if chB then
    if x.frzB ∨ x.testL ∨ x.cutB then (if want then s else s.setSout o { x with sol := x.sol && x.frzB, cutB := false })
    else s.setSout o { x with sol := want && (x.sol || close) }
  else
    if x.frzA ∨ x.testH ∨ x.cutA then (if want then s else s.setSout o { x with soh := x.soh && x.frzA, cutA := false })
    else s.setSout o { x with soh := want && (x.soh || close) }

/-- Every output the decisions no longer energise opens. -/
def State.outsOpen (s : State) : State := (List.range 4).foldl (fun s o => (s.drive o false false).drive o true false) s

/-- A readback agrees with the expected level of R274. A test in progress judges its own switch by R275. -/
def sohAgrees (on testH testL : Bool) (mv vfld : Nat) : Bool := testH || (if on || testL then vfld ≤ mv + 2000 else mv ≤ 5000)
def solAgrees (on testH testL : Bool) (mv : Nat) : Bool := testL || (if on || testH then mv ≤ 2000 else mv ≤ 5000)

/-- One readback of a channel's own pin: the run of disagreeing ticks; a run of one tick is a transient fault (R287). -/
def State.readBack (s : State) (o : Nat) (chB agree : Bool) (mv : Nat) : State :=
  let x := s.sout o
  let run := if chB then x.disB else x.disA
  let run' := if agree then 0 else run + 1
  let s := s.setSout o (if chB then { x with disB := run', rbB := mv } else { x with disA := run', rbA := mv })
  if agree ∧ run = 1 then s.transient chB else s

/-- The channels command the output on. A switch that its field die has opened still counts as commanded closed (R331). -/
def SOut.on (x : SOut) : Bool := (x.soh || x.cutA) && (x.sol || x.cutB)

/-- SAFETY_TICK (R266, R267): rb holds channel A's readbacks of SOH0 to SOH3 and VFLD, in mV, its supply monitor's reading, and the
period of this tick in ns by channel B's clock. Channel A drives its switches; the n-th tick is due at n · 100 µs (log 12), and ten
of them make a safety cycle. -/
def execSafetyTick (rb : List Nat) (s : State) : Out :=
  .next <| if 10 * (s.saf.cycle + 1) ≤ s.saf.tick then s else
    let s := s.goto (usT 100 * (s.saf.tick + 1))
    let mv (k : Nat) := (rb[k]?).getD 0
    let s := { s with saf := { s.saf with tick := s.saf.tick + 1, perA := s.saf.perA ++ [mv 6], supA := mv 5 } }
    let s := (List.range 4).foldl (fun s o =>
      let x := s.sout o
      s.readBack o false (sohAgrees x.on x.testH x.testL (mv o) (mv 4)) (mv o)) s
    (List.range 4).foldl (fun s o => s.drive o false true) s

/-- TICK_EXCHANGE (R266 to R268): rb holds channel B's readbacks of SOL0 to SOL3 in mV, its supply monitor's reading, and the period
of its tick in ns by channel A's clock, 0 where that tick is missing; a corrupt exchange starts a diagnosis. -/
def execTickExchange (ok : Bool) (rb : List Nat) (s : State) : Out :=
  .next <|
    let mv (k : Nat) := (rb[k]?).getD 0
    let s := { s with saf := { s.saf with tickB := s.saf.tickB + 1, perB := s.saf.perB ++ [mv 5], exBad := s.saf.exBad || !ok, supB := mv 4 } }
    let s := (List.range 4).foldl (fun s o =>
      let x := s.sout o
      s.readBack o true (solAgrees x.on x.testH x.testL (mv o)) (mv o)) s
    (List.range 4).foldl (fun s o => s.drive o true true) s

/-- An output is faulted: each channel opens its switch, EV_SAFE_OUT (R276). -/
def State.outFault (s : State) (o : Nat) : State :=
  let x := s.sout o
  let y := { x with fault := true, soh := x.soh && x.frzA, sol := x.sol && x.frzB, testH := false, testL := false }
  let s := s.setSout o { y with cutA := false, cutB := false }
  if x.fault then s else s.raise evSafeOut o allGroups []

/-- OUTPUT_FAULT (R276): a readback disagrees for 2 consecutive ticks. -/
def execOutputFault (o : Fin 4) (s : State) : Out :=
  let x := s.sout o
  .next <| if (2 ≤ x.disA ∨ 2 ≤ x.disB) ∧ !x.fault then s.outFault o else s

/-- The next off-test of a switch: the high side at phase 0, the low side at phase 50 ms of a period of 100 ms (log 12). -/
def State.offTestNext (s : State) (x : SOut) (low : Bool) : Nat :=
  phaseFrom (msT 100) (if low then msT 50 else 0) (max s.frm.now (if low then x.atL else x.atH))

/-- OUTPUT_OFF_TEST (R275): a switch of an on output opens for its test. -/
def execOutputOffTest (o : Fin 4) (low : Bool) (s : State) : Out :=
  let x := s.sout o
  .next <| if x.soh ∧ x.sol ∧ !x.testH ∧ !x.testL ∧ !(if low then x.frzB else x.frzA) then
    let s := s.goto (s.offTestNext x low)
    s.setSout o (if low then { x with testL := true, sol := false, atL := s.frm.now + 1 }
                 else { x with testH := true, soh := false, atH := s.frm.now + 1 })
  else s

/-- OFF_TEST_WINDOW_END (R275, R276): r is the pin's level. The off-test level reached within SAFE.OT_W passes the test, and the
switch closes again at once; a window that closes without it fails the test. -/
def execOffTestWindowEnd (o : Fin 4) (low : Bool) (r : PinReading) (s : State) : Out :=
  let x := s.sout o
  let closes := (if low then x.atL else x.atH) - 1 + usT (s.pn 11 0 3)
  .next <| if !(if low then x.testL else x.testH) then s
    else if (if low then 10000 ≤ r.mv else r.mv ≤ 5000) ∧ r.t ≤ closes then
      ((s.goto r.t).setSout o (if low then { x with testL := false } else { x with testH := false })).drive o low true
    else (s.goto closes).outFault o

/-- SWITCH_LIMIT_EXPIRY (R274): a current limit has acted for 1 ms. The channel opens its switch if it still can. -/
def execSwitchLimitExpiry (o : Fin 4) (low : Bool) (s : State) : Out :=
  let x := s.sout o
  .next <| (s.setSout o (if low then { x with limB := true } else { x with limA := true })).outFault o

end Sys2Proof.Machine
end

