-- ==== Sys2Proof/Machine/FieldIO.lean ====
section
/-! DEFINITION. The field IO: housekeeping, channel states, inputs, output switches with their protection, diagnostics, logic
silence, SAFE orders, field-supply thresholds, the off latch, the FIO registers (R314 to R335). -/

namespace Sys2Proof.Machine

/-! ## Channels and dies (R314) -/

/-- The channels of die d, counted from 0. -/
def dieChs (d : Nat) : List Nat := (List.range 8).map fun k => 8 * d + k
/-- The die of channel c. -/
def chDie (c : Nat) : Nat := c / 8

/-- Items of channel c: FIO.DIR, FIO.DEBOUNCE, FIO.SAFE, FIO.RETRY, FIO.OL_EN, FIO.GROUP (R334). -/
def State.fioP (s : State) (c k : Nat) : Nat := s.pn 10 c k

def State.mapDie (s : State) (d : Nat) (f : FioCh → FioCh) : State :=
  (dieChs d).foldl (fun s c => s.setFch c (f (s.fch c))) s

/-- The output switch still acts: OUTPUT, or QUIESCING before the A at which it opens (R317). -/
def FioCh.isOut (x : FioCh) : Bool := x.st == .output || x.opening

/-- THERMAL and REVERSE hold the switch open. -/
def FioCh.tripped (x : FioCh) : Bool := x.die.getLsbD 1 || x.die.getLsbD 4

/-- The die drives the switch by level v, under its protection (R322, R323). -/
def FioCh.driveBy (x : FioCh) (v : Bool) : FioCh := { x with drv := v, sw := v && !x.tripped }

/-- The SAFE value of an output: off, on, or the present switch state (R329). -/
def FioCh.toSafe (latched : Bool) (x : FioCh) : FioCh :=
  if !x.isOut ∨ latched then x
  else x.driveBy (if x.dSafe = 0 then false else if x.dSafe = 1 then true else x.sw)

/-- An output opens and stays open (R332). -/
def FioCh.toOff (x : FioCh) : FioCh := if x.isOut then x.driveBy false else x

/-- An input becomes invalid and holds its last value. -/
def FioCh.invalidate (x : FioCh) : FioCh := if x.st = .output ∨ x.opening then x else { x with inv := true }

/-- Outputs of the die follow their commands. -/
def FioDie.follows (d : FioDie) : Bool := d.refreshed && !d.silent && !d.safe && !d.latch && !d.held

/-- A channel event: FIO.GROUP of its channel, 255 for all (R333); the head raises it (R328). -/
def State.raiseCh (s : State) (code c : Nat) : State :=
  let g := s.fioP c 5
  if s.frm.role = .head then s.raiseOnce code c (if g = 255 then allGroups else 2 ^ g) [] else s

/-- A die event: all groups. -/
def State.raiseDie (s : State) (code d : Nat) : State := s.raiseOnce code (d + 1) allGroups []

/-! ## Housekeeping (R316, R328 to R330) -/

/-- The refresh bit. -/
def State.refreshBit (s : State) : Bool :=
  s.frm.run && (s.frm.role == .head || s.frm.role == .node) && s.fio.acked &&
  (s.fio.ack == s.frm.frame || s.fio.ack + 1 == s.frm.frame)

/-- The settings a valid downstream frame brings to a channel. -/
def State.setCh (s : State) (c : Nat) (x : FioCh) : FioCh :=
  { x with dSafe := s.fioP c 2, dRetry := s.fioP c 3 == 1, dOl := s.fioP c 4 == 1,
           revN := if x.revBusy then x.revN + 1 else x.revN }

/-- The first refresh: the channel leaves its power-up default. -/
def FioCh.start (dir : Bool) (x : FioCh) : FioCh :=
  if x.st = .powerUp then { x with st := if dir then .output else .input, coupOut := dir, inv := !dir, sw := x.sw && dir, drv := x.drv && dir } else x

/-- A valid downstream frame reaches die d. -/
def State.hkDown (s : State) (d : Nat) : State :=
  let s := (dieChs d).foldl (fun s c => s.setFch c (s.setCh c (s.fch c))) s
  let s := if s.fio.order then
      let x := s.die d
      (s.setDie d { x with safe := true, backAt := false }).mapDie d (·.toSafe x.held)
    else s
  if s.refreshBit then
    let x := s.die d
    let s := (dieChs d).foldl (fun s c => s.setFch c ((s.fch c).start (s.fioP c 0 == 1))) s
    s.setDie d { x with refreshed := true, silFrom := s.frm.now,
                        backAt := x.backAt || ((x.silent || x.safe) && !s.fio.hold) }
  else s

/-- The events of the flags that a channel's return brings, once on each entry. -/
def State.flagEvents (s : State) (c : Nat) (new : BitVec 5) : State :=
  let s := if new.getLsbD 0 then s.raiseCh evFioOvercur c else s
  let s := if new.getLsbD 1 then s.raiseCh evFioThermal c else s
  let s := if new.getLsbD 2 then s.raiseCh evFioOpen c else s
  let s := if new.getLsbD 3 then s.raiseCh evFioExthigh c else s
  if new.getLsbD 4 then s.raiseCh evFioReverse c else s

/-- A channel as returned: live flags, sticky copies, switch state. -/
def State.returnCh (s : State) (c : Nat) : State :=
  let x := s.fch c
  (s.setFch c { x with live := x.die, sticky := x.sticky ||| x.die, swon := x.sw }).flagEvents c (x.die &&& ~~~x.live)

/-- Die d's return: valid with TJ and VFLD, or an error. -/
def State.hkUp (s : State) (d : Nat) (r : Option (Byte × Byte)) : State :=
  let x := s.die d
  match r with
  | none => s.setDie d { x with hkErr := satAdd 8 x.hkErr 1, hkRun := x.hkRun + 1, present := false }
  | some (tj, v) =>
    let s := s.setDie d { x with tj := tj, vfld := v, hkRun := 0, hkLost := false, present := true, silRep := x.silent,
                                 safeRep := x.safe, latchRep := x.latch, uvRep := x.uv, lowRep := x.low }
    let s := if x.silent ∧ !x.silRep ∧ s.frm.role = .head then s.raiseDie evFioSilence d else s
    (dieChs d).foldl State.returnCh s

/-- HOUSEKEEPING_CYCLE (R316): down tells the dies that received the downstream frame with a valid check, ret each die's return. -/
def execHousekeepingCycle (down : BitVec 4) (ret : List (Option (Byte × Byte))) (s : State) : Out :=
  .next <| if !s.pwr.up then s else
    let s := s.pulseX 0x53
    let s := (List.range 4).foldl (fun s d => if down.getLsbD d then s.hkDown d else s) s
    let s := { s with fio := { s.fio with order := false } }
    (List.range 4).foldl (fun s d => s.hkUp d ((ret[d]?).getD none)) s

/-- HOUSEKEEPING_LOST (R316): three consecutive errors. -/
def execHousekeepingLost (d : Fin 4) (s : State) : Out :=
  let x := s.die d
  .next <| if 3 ≤ x.hkRun ∧ !x.hkLost then
    let s := (s.setDie d { x with hkLost := true }).mapDie d FioCh.invalidate
    if s.frm.role = .head then s.raiseDie evFioHklost d else s
  else s

/-! ## Inputs (R319, R331) -/

/-- The filter of channel c accepts levels: an input that is not held by its die's state. -/
def State.filters (s : State) (c : Nat) : Bool :=
  let d := s.die (chDie c)
  (s.fch c).st == .input && !d.hkLost && !d.uv

/-- FIELD_INPUT_CHANGE (R319): the coupler has shown level in run consecutive samples. A change is a trigger of R342. -/
def execFieldInputChange (c : Fin 32) (level : Bool) (run : Nat) (s : State) : Out :=
  let x := s.fch c
  .next <| if s.filters c ∧ s.fioP c 1 ≤ run ∧ (x.level ≠ level ∨ x.inv) then
    let s' := s.setFch c { x with level := level, inv := false }
    let slope := s.pn 12 0 13
    if x.level ≠ level ∧ s.pn 12 0 18 = c.val ∧ (slope = 2 ∨ (slope = 0 ∧ level) ∨ (slope = 1 ∧ !level)) then
      s'.capTrigger 4 s.frm.now
    else s'
  else s

/-! ## Direction and quiescing (R317) -/

/-- QUIESCE of one channel. -/
def FioCh.quiesce (x : FioCh) : FioCh :=
  match x.st with
  | .input => { x with st := .quiescing, inv := true, resuming := false }
  | .output => { x with st := .quiescing, opening := true, resuming := false }
  | _ => x

/-- QUIESCE_COMPLETE: the clamp current has ended and 1 ms has passed. -/
def execQuiesceComplete (c : Fin 32) (s : State) : Out :=
  let x := s.fch c
  .next <| if x.st = .quiescing ∧ !x.opening then
    s.setFch c { x with st := .quiesced, drv := false, sw := false, die := x.die &&& 0b11000 }
  else s

/-- A write of FIO.DIR to a QUIESCED channel: the coupler reverses if it has the other direction. -/
def FioCh.dirWritten (dir : Bool) (x : FioCh) : FioCh := { x with revBusy := x.coupOut != dir, revN := 0 }

/-- COUPLER_REVERSAL_COMPLETE: within 2 housekeeping cycles. -/
def execCouplerReversalComplete (c : Fin 32) (s : State) : Out :=
  let x := s.fch c
  .next <| if x.revBusy ∧ 1 ≤ x.revN then s.setFch c { x with revBusy := false, revN := 0, coupOut := !x.coupOut } else s

/-- The channels of a mask that meet a condition. -/
def State.anyCh (s : State) (m : Nat) (p : FioCh → Bool) : Bool := (List.range 32).any fun c => bitOf m c && p (s.fch c)
def State.mapMask (s : State) (m : Nat) (f : FioCh → FioCh) : State :=
  ((List.range 32).filter fun c => bitOf m c).foldl (fun s c => s.setFch c (f (s.fch c))) s

/-- The masked channels start quiescing; those QUIESCED in a mask resume at the next A; released dies re-enable at the next A. -/
def State.fioQuiesceNow (s : State) (m : Nat) : State := s.mapMask m FioCh.quiesce
def State.fioResumeNow (s : State) (m : Nat) : State :=
  s.mapMask m fun x => if x.st = .quiesced then { x with resuming := true } else x
def State.fioRearmNow (s : State) : State :=
  (List.range 4).foldl (fun s d =>
    let x := s.die d
    if x.held ∧ !x.latch then s.setDie d { x with reAt := true } else s) s

/-- The field IO commands accepted since the last boundary take effect (R382). -/
def State.fioBoundary (s : State) : State :=
  let f := s.fio
  let s := { s with fio := { f with qReq := 0, rReq := 0, aReq := false } }
  let s := (s.fioQuiesceNow f.qReq.toNat).fioResumeNow f.rReq.toNat
  if f.aReq then s.fioRearmNow else s

/-- FIO_QUIESCE: the masked channels in INPUT or OUTPUT quiesce from the next boundary, at once while no tick runs. -/
def execFioQuiesce (s : State) : Out :=
  .next <| s.serve 0x0060 fun s m j =>
    let k := s.pay j 0 4
    if s.reqLen j ≠ 4 then s.answer m j stBadLen 0 []
    else (if s.frm.run then { s with fio := { s.fio with qReq := s.fio.qReq ||| BitVec.ofNat 32 k } }
          else s.fioQuiesceNow k).answer m j stOk s.effNext []

/-- FIO_RESUME: refused while a masked channel is QUIESCING or its coupler reverses. -/
def execFioResume (s : State) : Out :=
  .next <| s.serve 0x0061 fun s m j =>
    let k := s.pay j 0 4
    if s.reqLen j ≠ 4 then s.answer m j stBadLen 0 []
    else if s.anyCh k (fun x => x.st == .quiescing || x.revBusy) then s.answer m j stBadState 0 []
    else (if s.frm.run then { s with fio := { s.fio with rReq := s.fio.rReq ||| BitVec.ofNat 32 k } }
          else s.fioResumeNow k).answer m j stOk s.effNext []

/-- FIO_REARM (R332). -/
def execFioRearm (s : State) : Out :=
  .next <| s.serve 0x0062 fun s m j =>
    if s.reqLen j ≠ 0 then s.answer m j stBadLen 0 []
    else (if s.frm.run then { s with fio := { s.fio with aReq := true } } else s.fioRearmNow).answer m j stOk s.effNext []

/-! ## Output switches (R321 to R324) -/

/-- OVERCUR: the current limit starts or stops acting. -/
def execOvercur (c : Fin 32) (acts : Bool) (s : State) : Out :=
  let x := s.fch c
  .next <| s.setFch c { x with die := if acts && x.sw then x.die ||| 1 else x.die &&& 0b11110 }

/-- THERMAL_SHUTDOWN: the junction reaches 160 °C at t and the switch opens. -/
def execThermalShutdown (c : Fin 32) (t : Nat) (s : State) : Out :=
  .next <| if (s.fch c).sw then
    let s := s.goto t
    let x := s.fch c
    s.setFch c { x with sw := false, die := (x.die &&& 0b11110) ||| 2, thcnt := satAdd 8 x.thcnt 1, thAt := t, offSeen := false }
  else s

/-- The output is commanded on: by its coupler, and by the level the die drives it by. -/
def FioCh.commanded (x : FioCh) : Bool := x.cmd && x.drv

/-- THERMAL_RETRY: a check at t, at which the junction is at tj °C. -/
def execThermalRetry (c : Fin 32) (tj t : Nat) (s : State) : Out :=
  let x := s.fch c
  let due : Bool := if x.dRetry then x.offSeen else decide (x.thAt + msT 100 ≤ t)
  .next <| if x.die.getLsbD 1 ∧ x.commanded ∧ tj ≤ 145 ∧ due then
    (s.goto t).setFch c { x with die := x.die &&& 0b11101, sw := !x.die.getLsbD 4 }
  else s

/-- REVERSE_SHUTDOWN: the pin is strictly above VFLD + 0.3 V. -/
def execReverseShutdown (c : Fin 32) (s : State) : Out :=
  let x := s.fch c
  .next <| if x.sw then s.setFch c { x with sw := false, die := (x.die &&& 0b11110) ||| 16 } else s

/-- REVERSE_RECLOSE: the pin has been at or below VFLD for 1 ms. -/
def execReverseReclose (c : Fin 32) (s : State) : Out :=
  let x := s.fch c
  .next <| if x.die.getLsbD 4 ∧ x.commanded then
    s.setFch c { x with die := x.die &&& 0b01111, sw := !x.die.getLsbD 1 }
  else s

/-- One classification of the pin: 0 normal, 1 OPEN, 2 EXT_HIGH (R326). -/
def FioCh.class (x : FioCh) (mv : Nat) : Nat := if mv < 2500 then 0 else if mv < 7000 then b2n x.dOl else 2

/-- A flag with its runs of 8 classifications in and out of the class. -/
def flagRun (on : Bool) (nIn nOut : Nat) (hit : Bool) : Bool × Nat × Nat :=
  let i := if hit then min (nIn + 1) 8 else 0
  let o := if hit then 0 else min (nOut + 1) 8
  (if i = 8 then true else if o = 8 then false else on, i, o)

/-- DIAG_CLASSIFY: an open output's pin is classified. -/
def execDiagClassify (c : Fin 32) (mv : Nat) (s : State) : Out :=
  let x := s.fch c
  .next <| if x.sw ∨ x.st ≠ .output then s else
    let k := x.class mv
    let (fo, oi, oo) := flagRun (x.die.getLsbD 2) x.openIn x.openOut (k == 1)
    let (fe, ei, eo) := flagRun (x.die.getLsbD 3) x.extIn x.extOut (k == 2)
    s.setFch c { x with openIn := oi, openOut := oo, extIn := ei, extOut := eo,
                        die := (x.die &&& 0b10011) ||| (if fo then 4 else 0) ||| (if fe then 8 else 0) }

/-- The outputs at A (R321, R329, R332): out is the output word of the part's role. -/
def State.dieApply (s : State) (d : Nat) : State :=
  let x := s.die d
  let re : Bool := x.reAt && !x.latch
  s.setDie d { x with held := x.held && !re, reAt := x.reAt && x.latch, silent := x.silent && !x.backAt,
                      safe := x.safe && !x.backAt, backAt := false }

/-- One channel at A. -/
def FioCh.apply (dir bit follows : Bool) (x : FioCh) : FioCh :=
  let x := if x.opening then { x.driveBy false with opening := false } else x
  let x := if x.resuming then { x with resuming := false, st := if dir then .output else .input, inv := !dir } else x
  if x.st ≠ .output then { x with cmd := false }
  else
    let x := { x with cmd := bit, offSeen := x.offSeen || (x.die.getLsbD 1 && !bit) }
    if follows then x.driveBy bit else x

/-- The field outputs take their commanded values at A. -/
def State.fioApply (s : State) (out : W32) : State :=
  let s := (List.range 4).foldl State.dieApply s
  (List.range 32).foldl (fun s c =>
    s.setFch c ((s.fch c).apply (s.fioP c 0 == 1) (out.getLsbD c) (s.die (chDie c)).follows)) s

/-- The SAFE values as an output word; hold keeps the command in force (R206, R212). -/
def State.safeWord (s : State) : W32 :=
  BitVec.ofNat 32 ((List.range 32).map fun c =>
    if s.fioP c 2 = 1 ∨ (s.fioP c 2 = 2 ∧ (s.fch c).cmd) then 2 ^ c else 0).sum

/-- The field inputs latched at S (R320). -/
def State.fioLatch (s : State) : State :=
  (List.range 32).foldl (fun s c =>
    let x := s.fch c
    s.setFch c { x with latched := x.level && !x.isOut, invLat := x.inv }) { s with fio := { s.fio with outS := s.outWord } }

/-! ## Silence, supply thresholds, off latch (R329 to R332) -/

/-- LOGIC_SILENCE_EXPIRY: FIO.T_SILENCE has passed since the last valid refresh. -/
def execLogicSilenceExpiry (d : Fin 4) (s : State) : Out :=
  let x := s.die d
  .next <| if !x.refreshed ∨ (x.silent ∧ !x.backAt) then s else
    let s := s.goto (x.silFrom + msT (s.pn 10 0 64))
    let x := s.die d
    (s.setDie d { x with silent := true, backAt := false }).mapDie d (·.toSafe x.held)

/-- The safety switches of die d open: SOH0–1, SOH2–3, SOL0–1, SOL2–3 by die. A frozen one stays open (R286, R331). -/
def State.safeSwitchesOpen (s : State) (d : Nat) : State :=
  [2 * (d % 2), 2 * (d % 2) + 1].foldl (fun s o =>
    let x := s.sout o
    s.setSout o (if d < 2 then { x with soh := false, cutA := x.cutA || (x.soh && !x.frzA) }
      else { x with sol := false, cutB := x.cutB || (x.sol && !x.frzB) })) s

/-- VFLD_THRESHOLD_CROSS: 0 low, 1 undervoltage, 2 off; five comparisons strictly below. -/
def execVfldThresholdCross (d : Fin 4) (k : Fin 3) (s : State) : Out :=
  let x := s.die d
  .next <|
    if k = 0 then (if x.low then s else (s.setDie d { x with low := true }).raiseDie evFldLow d)
    else if k = 1 then
      (if x.uv then s else
        (((s.setDie d { x with uv := true }).mapDie d FioCh.invalidate).safeSwitchesOpen d).raiseDie evFldUv d)
    else if x.latch then s
    else ((s.setDie d { x with latch := true, held := true, reAt := false }).mapDie d FioCh.toOff).raiseDie evFldOff d

/-- VFLD_THRESHOLD_CLEAR: 0 low, 1 undervoltage; five comparisons at or above the clearing level. -/
def execVfldThresholdClear (d : Fin 4) (k : Fin 2) (s : State) : Out :=
  let x := s.die d
  .next <| s.setDie d (if k = 0 then { x with low := false } else { x with uv := false })

/-- OFF_LATCH_RELEASE: 10 ms at or above 18.0 V. The first release since power-up re-enables whatever FIO.REARM holds. -/
def execOffLatchRelease (d : Fin 4) (s : State) : Out :=
  let x := s.die d
  .next <| if x.latch then
    s.setDie d { x with latch := false, first := false, reAt := x.first || s.pn 10 0 65 == 0 }
  else s

/-- FIELD_DIE_POWER_UP (R315): what the field die holds starts afresh; what the core die holds of it stays until the next
return. -/
def execFieldDiePowerUp (d : Fin 4) (s : State) : Out :=
  let x := s.die d
  .next <|
    let s := s.setDie d { tj := x.tj, vfld := x.vfld, hkErr := x.hkErr, hkRun := x.hkRun, hkLost := x.hkLost, present := x.present,
                          silRep := x.silRep, safeRep := x.safeRep, latchRep := x.latchRep, uvRep := x.uvRep, lowRep := x.lowRep,
                          silFrom := s.frm.now }
    s.mapDie d fun c => { level := c.level, latched := c.latched, invLat := c.invLat, swon := c.swon, live := c.live,
                          sticky := c.sticky, thcnt := c.thcnt }

/-! ## FIO registers (R335) -/

/-- CSTATE of channel c. -/
def State.cState (s : State) (c : Nat) : Nat :=
  let d := s.die (chDie c)
  match (s.fch c).st with
  | .input => 0
  | .output => if d.held then 4 else if d.silRep || d.safeRep then 5 else 1
  | .quiescing => 2
  | .quiesced => 3
  | .powerUp => 6

def FioDie.word (d : FioDie) : W32 :=
  wordOf [(b2n d.present, 0), (b2n d.hkLost, 2), (b2n d.lowRep, 3), (b2n d.uvRep, 4), (b2n d.latchRep, 5), (b2n d.safeRep, 6),
          (b2n d.silRep, 7), (d.hkErr, 8), (d.vfld.toNat, 16), (d.tj.toNat, 24)]

def State.chDiag (s : State) (c : Nat) : W32 :=
  let x := s.fch c
  wordOf [(x.live.toNat, 0), (b2n x.inv, 5), (x.sticky.toNat, 8), (s.cState c, 13), (x.thcnt, 24)]

/-- The FIO block below the safety mirrors, by offset from its base. -/
def State.fioReg (s : State) (o : Nat) : Option W32 :=
  if o = 0x00 then some (s.chMap fun _ x => x.latched)
  else if o = 0x04 then some s.outWord
  else if o = 0x08 then some (s.chMap fun _ x => x.swon)
  else if o = 0x0C then some (s.chMap fun c _ => s.fioP c 0 == 1)
  else if o = 0x10 then some (s.chMap fun _ x => x.inv)
  else if o = 0x14 then some (s.chMap fun _ x => x.live != 0 || x.inv)
  else if o = 0x18 then some (s.chMap fun _ x => x.st == .quiesced && !x.revBusy)
  else if 0x20 ≤ o ∧ o < 0x30 ∧ o % 4 = 0 then some (s.die ((o - 0x20) / 4)).word
  else if 0x100 ≤ o ∧ o < 0x180 ∧ o % 4 = 0 then some (s.chDiag ((o - 0x100) / 4))
  else none

end Sys2Proof.Machine
end

