-- ==== Sys2Proof/Machine/Capture.lean ====
section
/-! DEFINITION. The capture engine: sample instants, staging and crevasses, triggers, records, masks, the capture aperture and
the CAP registers (R336 to R357). An instant is named by its number since its record's arming. -/

namespace Sys2Proof.Machine

/-! ## Settings (R336, R341, R345) -/

/-- Item k of class 12. -/
def State.cp (s : State) (k : Nat) : Nat := s.pn 12 0 k
/-- NSAMP and NPRE. -/
def State.capN (s : State) : Nat := s.cp 3
def State.capPre (s : State) : Nat := s.capN * s.cp 4 / 100
/-- Bytes of a row or tap word, by source and channels. -/
def rowBytes (src nch : Nat) : Nat := if src = 2 then 2 else 8 * nch
/-- Slot size. -/
def slotBytes (nsamp row : Nat) : Nat := (64 + nsamp * row + 63) / 64 * 64
def State.capRow (s : State) : Nat := rowBytes s.cap.src s.cap.nch
/-- Sample interval T_s in units of device time. -/
def State.capTs (s : State) : Nat := s.cp 1 * (if s.cap.src = 0 then s.per else if s.cap.src = 1 then usT 1 else s.tB)

def sramRegion : Nat := 5767168
def dramBase : Nat := 0x40000000
def crevBase : Nat := 0x600000
def maskBase : Nat := 0x800000

def State.regionBytes (s : State) : Nat := if s.cp 7 = 1 then s.cp 8 * 2 ^ 20 else sramRegion
/-- Capture address of a slot. -/
def State.slotAddr (s : State) (slot : Nat) : Nat := (if s.cap.dest = 1 then dramBase else 0) + slot * s.cap.slotSize.toNat

def State.capWrite (s : State) (a : Nat) (bs : List Byte) : State :=
  { s with cap := { s.cap with mem := mwrite ramByte s.cap.mem a bs } }

/-! ## Signals (R337 to R339) -/

/-- Instances of a signal. -/
def sigInst (sig : Nat) : Nat :=
  if sig ≤ 0x10 then 256 else if sig < 0x30 then 64 else if sig < 0x40 then 16
  else if sig ≤ 0x41 then 1 else if sig = 0x42 then 8 else if sig = 0x43 then 16 else 128

/-- A signal the sub-tick source serves. -/
def sigSub (sig : Nat) : Bool := 0x40 ≤ sig && sig ≤ 0x43

/-- An axis's signal in the frame that has ended. -/
def State.axSignal (s : State) (sig i : Nat) : W64 :=
  let a := tget {} s.host.feed.axes i
  let f (x : F64) : W64 := x.bits
  if sig = 1 then a.fb.pos
  else if sig = 2 then f a.fb.om
  else if sig = 3 then a.rf.int
  else if sig = 4 then f a.rf.w
  else if sig = 5 then f a.fb.iD
  else if sig = 6 then f a.fb.iQ
  else if sig = 7 then f a.lp.idRef
  else if sig = 8 then f a.lp.iqRef
  else if sig = 9 then f a.lp.vD
  else if sig = 10 then f a.lp.vQ
  else if sig = 11 then f a.lp.tau
  else if sig = 12 then f (s.axis i).fb.tauL
  else if sig = 13 then f a.fb.udc
  else if sig = 14 then BitVec.ofNat 64 (a.lp.dA.toNat + a.lp.dB.toNat * 2 ^ 16 + a.lp.dC.toNat * 2 ^ 32)
  else if sig = 15 then (tget 0 s.host.feed.stat i).setWidth 64
  else f a.rf.sJ

/-- The extended count of an encoder input now; an SSI input has its last value delivered (R339). -/
def State.extNow (s : State) (e : Nat) : Int :=
  let x := s.enc e
  if s.pn 9 e 64 = 2 then x.ext else x.ext + (x.c - x.lastLatch).toInt

/-- The value of a signal: at the sub-tick, or of the frame that has ended. -/
def State.signal (s : State) (sub : Bool) (sig i : Nat) : W64 :=
  let f := s.host.feed
  if sig ≤ 0x10 then s.axSignal sig i
  else if sig = 0x20 then (tget {} f.zones i).that.bits
  else if sig = 0x21 then (tget {} f.zones i).tStar.bits
  else if sig = 0x22 then (tget {} f.zones i).u.bits
  else if sig = 0x30 then (tget {} f.lines i).v.bits
  else if sig = 0x31 then (tget {} f.lines i).a.bits
  else if sig = 0x32 then (tget {} f.lines i).x.bits
  else if sig = 0x40 then
    (if sub then (s.chMap fun _ x => x.level && !x.isOut).setWidth 64 else BitVec.ofNat 64 (leAt f.ln 0 4))
  else if sig = 0x41 then (if sub then s.outWord else f.outS).setWidth 64
  else if sig = 0x42 then (if sub then BitVec.ofInt 64 (s.extNow i) else BitVec.ofNat 64 (leAt f.ln (16 + 32 * i) 8))
  else if sig = 0x43 then
    (if sub then BitVec.ofInt 64 ((s.step_ i).fwd - (s.step_ i).bwd) else BitVec.ofNat 64 (leAt f.ln (272 + 8 * i) 8))
  else (fdiv (fOfInt (tget {} s.net.nodes (s.pn 4 i 0)).ofs) (fOfNat 5)).bits

/-- A sample as a binary64 number (R342, R350): signed, unsigned and binary64 signals. -/
def sigNumber (sig : Nat) (v : W64) : F64 :=
  if sig = 1 ∨ sig = 3 ∨ sig = 0x42 ∨ sig = 0x43 then fOfInt v.toInt
  else if sig = 14 ∨ sig = 15 ∨ sig = 0x40 ∨ sig = 0x41 then fOfNat v.toNat
  else ⟨v⟩

def State.chSig (s : State) (c : Nat) : Nat := s.cp (64 + c)
def State.chInst (s : State) (c : Nat) : Nat := s.cp (128 + c)

/-- A row (R336). -/
def State.capRowBytes (s : State) : List Byte :=
  ((List.range s.cap.nch).map fun c => leBytes 8 (s.signal (s.cap.src == 1) (s.chSig c) (s.chInst c)).toNat).flatten

/-- The frame that has ended lacks a trailing kernel that a channel's value comes from (R338). -/
def State.rowSkipped (s : State) : Bool :=
  (List.range s.cap.nch).any fun c =>
    let g := s.chSig c
    (g ≤ 0x10 && (s.axis (s.chInst c)).skips != 0) || (0x20 ≤ g && g ≤ 0x22 && (s.zone (s.chInst c)).skip)

/-! ## Records: arming, crevasse entries, the end of a record (R341, R344, R345, R347 to R349) -/

/-- The engine arms the next record: RECNO and REPOCH with BUSY = 1 in its slot. -/
def State.capArm (s : State) : State :=
  let c := s.cap
  let slot := c.recno.toNat % s.cp 5
  let s := s.capWrite (s.slotAddr slot) (leBytes 4 c.recno.toNat ++ leBytes 2 c.repoch.toNat ++ [0x20, 0])
  let now : Bool := s.capPre == 0
  { s with cap := { s.cap with
      st := if now then .armed else .holdoff, cur := { recno := c.recno, repoch := c.repoch, slot := slot }, contend := false,
      auto := if now && s.cp 10 = 1 then some (s.frm.now + usT (s.cp 11)) else none, autoTrig := false, lvlLow := false,
      lvlHigh := false } }

/-- The first instant of the record: NPRE before the trigger. -/
def State.recFrom (s : State) (r : CapRec) : Nat := (r.trig.getD r.n) - s.capPre

/-- A closed run of the record is written to the crevasse ring, as far as it lies in the record. -/
def State.crevWrite (s : State) (x : CrevRun) : State :=
  let r := s.cap.cur
  let lo := s.recFrom r
  let f := max x.first lo
  let len := x.first + x.len - f
  if len = 0 then s else
  let q := s.cap.cseq
  let s := s.capWrite (crevBase + 32 * (q.toNat % 4096))
    (leBytes 4 q.toNat ++ leBytes 4 r.recno.toNat ++ leBytes 2 r.repoch.toNat ++ leBytes 1 x.cause ++ [0] ++ leBytes 4 (f - lo) ++
     leBytes 4 len ++ leBytes 4 0 ++ leBytes 8 (toNs (x.tStart + (f - x.first) * s.capTs)))
  { s with cap := { s.cap with
      cseq := q + 1, cur := { r with ncrev := satAdd 16 r.ncrev 1, crevSeq := if r.ncrev = 0 then q else r.crevSeq } } }

/-- The open run closes: written in POST, kept before. -/
def State.crevClose (s : State) : State :=
  match s.cap.cur.open_ with
  | none => s
  | some x =>
    let s := { s with cap := { s.cap with cur := { s.cap.cur with open_ := .none } } }
    if s.cap.cur.trig.isSome then s.crevWrite x
    else { s with cap := { s.cap with cur := { s.cap.cur with runs := s.cap.cur.runs ++ [x] } } }

/-- The engine has entered DONE, FROZEN or STOPPED: source CAPT (R397). -/
def State.capEnded (s : State) : State :=
  if s.cap.st = .done ∨ s.cap.st = .frozen ∨ s.cap.st = .stopped then s.irq 6 else s

/-- The record of POST ends, whole or truncated: its number is used; its samples are still to leave staging. -/
def State.recEnd (s : State) (trunc : Bool) (next : CapSt) : State :=
  let s := s.crevClose
  let c := s.cap
  let r := { c.cur with trunc := trunc, nlen := if trunc then c.cur.n - s.recFrom c.cur else s.capN }
  { s with cap := { c with
      fin := c.fin ++ [r], cur := ({} : CapRec), recno := c.recno + 1, repoch := if c.recno = 0xFFFFFFFF then c.repoch + 1 else c.repoch,
      completed := c.completed + 1, prevLast := r.lastT, firstRec := false, st := next, trigs := [],
      force := none, auto := none, autoTrig := false } }.capEnded

/-- CAPT_STOP's effect: the record is abandoned with what it has in staging, or ends truncated. -/
def State.capHalt (s : State) (next : CapSt) : State :=
  match s.cap.st with
  | .post => s.recEnd true next
  | .rearm => { s with cap := { s.cap with st := next, startAt := false } }.capEnded
  | .holdoff | .armed =>
    let c := s.cap
    let gone := c.stg.filter fun x => x.recno == c.recno && x.repoch == c.repoch
    { s with cap := { c with
        st := next, cur := {}, stg := c.stg.filter (fun x => !(x.recno == c.recno && x.repoch == c.repoch)),
        fill := c.fill - (gone.map fun (x : StgSmp) => x.bytes.length).sum, trigs := [], force := none, auto := none, autoTrig := false } }.capEnded
  | _ => { s with cap := { s.cap with startAt := false } }

/-! ## Triggers (R342, R343) -/

/-- Samples of a run that lie in a window of instants. -/
def CrevRun.within (x : CrevRun) (lo hi : Nat) : Nat := min (x.first + x.len) (hi + 1) - max x.first lo

/-- The trigger is accepted at the record's last instant: the pre-trigger part is owed and its runs are written. -/
def State.capAccept (s : State) (forced host : Bool) : State :=
  let c := s.cap
  let r := c.cur
  let q := r.n - 1
  let lo := q - s.capPre
  let cv := ((r.runs ++ r.open_.toList).map fun x => x.within lo q).sum
  let hd := (c.stg.filter fun x => x.recno == r.recno && x.repoch == r.repoch && lo ≤ x.inst).length
  let frame := if c.src = 0 then s.host.feed.frame else s.frm.frame
  let r' := { r with trig := some q, trigT := r.lastT, fcnt := frame, forced := forced, hostTrig := host, runs := [] }
  let c' := { c with
    st := .post, cur := r', trigs := [], force := none, auto := none, autoTrig := false,
    nForced := if forced then satAdd 16 c.nForced 1 else c.nForced,
    owed := c.owed + s.capPre + 1, crev := c.crev + cv, held := c.held + hd, stored := c.stored + (s.capPre + 1 - cv - hd) }
  r.runs.foldl State.crevWrite { s with cap := c' }

/-- A level trigger at a sample v (R342), and what the sample leaves for the next ones. -/
def State.levelTrig (s : State) (v : F64) : Bool × State :=
  let lvl : F64 := ⟨s.par 12 0 14⟩
  let hys : F64 := ⟨s.par 12 0 15⟩
  let k := s.cp 13
  let c := s.cap
  let rise := (k != 1) && c.lvlLow && fle lvl v
  let fall := (k != 0) && c.lvlHigh && fle v lvl
  (rise || fall, { s with cap := { c with lvlLow := c.lvlLow || fle v (fsub lvl hys), lvlHigh := c.lvlHigh || fle (fadd lvl hys) v } })

/-- The tapped word's byte against TAP_PAT under TAP_MASK: 0 not the last byte compared, 1 match, 2 no match (R342). -/
def State.tapTrig (s : State) (w : W16) : Bool × State :=
  let c := s.cap
  let bad := w.getLsbD 9 || w.getLsbD 8
  let pos := if w.getLsbD 10 then 1 else if c.tapPos = 0 ∨ w.getLsbD 8 then 0 else c.tapPos + 1
  let p0 := s.cp 21 + 9
  let i := pos - p0
  let sh := 56 - 8 * i
  let same : Bool := !bad && bitsOf (s.cp 23) sh 8 &&& (w.toNat % 256) == bitsOf (s.cp 23) sh 8 &&& bitsOf (s.cp 22) sh 8
  if pos < p0 ∨ p0 + 8 ≤ pos then (false, { s with cap := { c with tapPos := pos } })
  else
    let hit := (i == 0 || c.tapHit) && same
    (hit && i == 7, { s with cap := { c with tapPos := pos, tapHit := hit } })

/-- The trigger's judgement at the record's last instant, at time t; own: a trigger of source 1, 5 or 6 at this very instant. -/
def State.capJudge (s : State) (t : Nat) (own : Bool) : State :=
  let c := s.cap
  let due := c.trigs.filter fun x => x ≤ t
  let s := { s with cap := { c with trigs := c.trigs.filter fun x => t < x } }
  if c.cur.trig.isSome then s
  else if c.cur.n ≤ s.capPre then
    { s with cap := { s.cap with nEarly := satAdd 16 c.nEarly (due.length + b2n (own && s.cp 9 == 5)) } }
  else
    let host : Bool := match c.force with
      | some f => decide (f ≤ t)
      | none => false
    let before : Bool := due.any fun x => !c.autoTrig || (match c.auto with
      | some e => decide (x ≤ e)
      | none => false)
    let timed : Bool := c.autoTrig && !before && !(own && (match c.auto with
      | some e => decide (t ≤ e)
      | none => false))
    if before || own || host || c.autoTrig then s.capAccept (timed && !host) host else s

/-! ## One instant (R341, R344, R347) -/

/-- The cause for which an instant's sample is not admitted; none where it is. -/
def State.capCause (s : State) (skip link : Bool) (size : Nat) : Nat :=
  let c := s.cap
  if c.dest = 1 ∧ 1 ≤ s.pwr.stage then 2
  else if skip then 3
  else if link then 4
  else if c.contend ∧ 65536 < c.fill then 1
  else if !c.contend ∧ 262144 < c.fill + size then 1
  else 0

/-- The instant's sample enters staging. -/
def State.capAdmit (s : State) (t : Nat) (bytes : List Byte) : State :=
  let s := s.crevClose
  let c := s.cap
  let r := c.cur
  let x : StgSmp := { recno := r.recno, repoch := r.repoch, inst := r.n, time := t,
                      addr := s.slotAddr r.slot + 64 + r.n % s.capN * s.capRow, bytes := bytes }
  let c' := { c with stg := c.stg ++ [x], fill := c.fill + bytes.length, fillMax := max c.fillMax (c.fill + bytes.length),
                     contend := false }
  { s with cap := if r.trig.isSome then { c' with owed := c.owed + 1, held := c.held + 1 } else c' }

/-- The instant joins a crevasse. -/
def State.capMiss (s : State) (t cause : Nat) : State :=
  let same : Bool := match s.cap.cur.open_ with
    | some x => x.cause == cause
    | none => false
  let s := if same then s else s.crevClose.raiseDevOnce evCrevasse [BitVec.ofNat 8 cause]
  let c := s.cap
  let r := c.cur
  let x : CrevRun := match r.open_ with
    | some x => { x with len := x.len + 1 }
    | none => { cause := cause, first := r.n, len := 1, tStart := t }
  let c' := { c with cur := { r with open_ := some x }, contend := c.contend || cause == 1 }
  { s with cap := if r.trig.isSome then { c' with owed := c.owed + 1, crev := c.crev + 1 } else c' }

/-- DEAD before the record, at its first instant (R344). -/
def State.capDead (s : State) (t : Nat) : State :=
  let c := s.cap
  if c.cur.n ≠ 0 then s
  else if c.firstRec then { s with cap := { c with cur := { c.cur with dead := 0xFFFFFFFF }, firstRec := false } }
  else
    let d : W32 := BitVec.ofNat 32 (min ((t - c.prevLast - s.capTs) / 5) 0xFFFFFFFE)
    { s with cap := { c with cur := { c.cur with dead := d }, deadMax := if c.deadMax < d then d else c.deadMax } }

/-- After an instant: the holdoff or the record may be over. -/
def State.capAfter (s : State) (t : Nat) : State :=
  let c := s.cap
  match c.cur.trig with
  | some q =>
    if s.capN - s.capPre - 1 ≤ c.cur.n - 1 - q then
      let last : Bool := s.cp 6 == 0 && decide (s.cp 5 ≤ c.completed + 1)
      let s := s.recEnd false (if last then .done else .rearm)
      if last then s.raiseDevOnce evCaptDone [] else s
    else s
  | none =>
    if c.st = .holdoff ∧ s.capPre ≤ c.cur.n then
      { s with cap := { c with st := .armed, auto := if s.cp 10 = 1 then some (t + usT (s.cp 11)) else none } }
    else s

/-- An instant of the source that is kept, at device time t. -/
def State.capInstant (s : State) (t : Nat) (w : W16) : State :=
  let src := s.cap.src
  let link : Bool := src == 2 && !(s.portOf (s.cp 19)).sync
  let skip : Bool := src == 0 && s.rowSkipped
  let bytes := if src = 2 then leBytes 2 w.toNat else s.capRowBytes
  let s := s.capDead t
  let k := s.cap.cur.n
  let cause := s.capCause skip link bytes.length
  let s := if cause = 0 then s.capAdmit t bytes else s.capMiss t cause
  let s := { s with cap := { s.cap with cur := { s.cap.cur with n := k + 1, lastT := t } } }
  let kind := s.cp 9
  let ch := s.cp 12
  let (own, s) :=
    if kind = 6 then (true, s)
    else if kind = 5 ∧ src = 2 ∧ !link then s.tapTrig w
    else if kind = 1 ∧ src ≠ 2 ∧ !skip ∧ ch < s.cap.nch ∧ s.capPre ≤ k then
      s.levelTrig (sigNumber (s.chSig ch) (BitVec.ofNat 64 (leAt bytes (8 * ch) 8)))
    else (false, s)
  (s.capJudge t own).capAfter t

/-- CAPTURE_SAMPLE (R341): a source instant, the tapped word w at t, the sub-tick at t, or the row of the frame that has ended,
whose instant is its S. CAPT.DECIM keeps every k-th. -/
def execCaptureSample (w : W16) (t : Nat) (s : State) : Out :=
  let c := s.cap
  .next <| if !c.st.runs ∨ c.startAt ∨ (c.src = 0 ∧ !c.rowDue) then s else
    let s := if c.src = 0 then { s with cap := { c with rowDue := false } } else s.goto t
    let t := if c.src = 0 then s.host.feed.inst else t
    let keep : Bool := s.cap.decim == 0
    let s := { s with cap := { s.cap with decim := (s.cap.decim + 1) % s.cp 1 } }
    if keep && s.cap.st != .rearm then s.capInstant t w else s

/-- AUTO_TRIGGER_EXPIRY (R343). -/
def execAutoTriggerExpiry (s : State) : Out :=
  .next <| match s.cap.auto with
    | some e =>
      if s.cap.st = .armed ∧ !s.cap.autoTrig then
        let s := s.goto e
        { s with cap := { s.cap with autoTrig := true } }
      else s
    | none => s

/-- REARM_COMPLETE (R344): within 600 CK_CORE cycles of the last sample's entry into staging. -/
def execRearmComplete (t : Nat) (s : State) : Out :=
  .next <| if s.cap.st = .rearm then (s.goto t).capArm else s

/-! ## Masks (R350, R351) -/

/-- Point u of an envelope of channel c: the upper one, or the lower one. -/
def State.maskPoint (s : State) (c u : Nat) (low : Bool) : F64 :=
  fWiden ⟨BitVec.ofNat 32 (leNat (mread ramByte s.cap.mem (maskBase + 32768 * c + (if low then 16384 else 0) + 4 * u) 4))⟩

/-- The envelope j samples after the trigger, if it is tested there. -/
def State.maskAt (s : State) (c j : Nat) (low : Bool) : Option F64 :=
  let ofs := s.cp (384 + c)
  let st := s.cp (320 + c)
  let u := (j - ofs) / st
  let r := (j - ofs) % st
  if j < ofs ∨ s.cp (256 + c) ≤ u ∨ (s.cp (256 + c) = u + 1 ∧ r ≠ 0) then none
  else if r = 0 then some (s.maskPoint c u low)
  else
    let e0 := s.maskPoint c u low
    some (fadd e0 (fmul (fsub (s.maskPoint c (u + 1) low) e0) (fdiv (fOfNat r) (fOfNat st))))

/-- A value against the envelope of channel c. -/
def State.maskBad (s : State) (c j : Nat) (v : F64) : Bool :=
  match s.maskAt c j false, s.maskAt c j true with
  | some hi, some lo => fIsNan v || flt hi v || flt v lo
  | _, _ => false

/-- The lowest channel of a sample that violates its envelope. -/
def State.maskTest (s : State) (j : Nat) (bytes : List Byte) : Option Nat :=
  if s.cap.src = 2 then none else
  (List.range s.cap.nch).find? fun c =>
    s.cp (192 + c) == 1 && s.maskBad c j (sigNumber (s.chSig c) (BitVec.ofNat 64 (leAt bytes (8 * c) 8)))

/-- A record that waits in fin, or the one in progress. -/
def State.recOf (s : State) (recno : W32) (repoch : W16) : Option CapRec :=
  (s.cap.fin ++ [s.cap.cur]).find? fun r => r.recno == recno && r.repoch == repoch && r.trig.isSome

def State.setRec (s : State) (r : CapRec) : State :=
  let is (x : CapRec) : Bool := x.recno == r.recno && x.repoch == r.repoch && x.trig.isSome
  { s with cap := { s.cap with fin := s.cap.fin.map (fun x => if is x then r else x), cur := if is s.cap.cur then r else s.cap.cur } }

/-- The record ends at instant v: nothing after it is owed, and the engine freezes. -/
def State.maskFreeze (s : State) (r : CapRec) (v : Nat) : State :=
  let c := s.cap
  let mine (x : StgSmp) : Bool := x.recno == r.recno && x.repoch == r.repoch && decide (v < x.inst)
  let gone := c.stg.filter mine
  let off := r.n - (v + 1)
  let r' := { r with n := v + 1, trunc := true, nlen := v + 1 - s.recFrom r, open_ := .none }
  let s := { s with cap := { c with
      stg := c.stg.filter (fun x => !mine x), fill := c.fill - (gone.map fun (x : StgSmp) => x.bytes.length).sum, owed := c.owed - off,
      held := c.held - gone.length, crev := c.crev - (off - gone.length) } }
  if c.st = .post ∧ c.cur.recno = r.recno ∧ c.cur.repoch = r.repoch then (s.setRec r').recEnd true .frozen
  else
    let s := (s.setRec r').capHalt .frozen
    { s with cap := { s.cap with st := .frozen } }.capEnded

/-- The mask test of a sample that leaves staging. -/
def State.maskSample (s : State) (x : StgSmp) : State :=
  match s.recOf x.recno x.repoch with
  | none => s
  | some r =>
    let q := r.trig.getD 0
    if x.inst < q then s else
    match s.maskTest (x.inst - q) x.bytes with
    | none => s
    | some ch =>
      let idx := x.inst - s.recFrom r
      let c := s.cap
      let s := if c.maskFail then s else
        { s with cap := { c with maskFail := true, maskCh := ch, maskIdx := BitVec.ofNat 16 idx, maskRec := r.recno } }
      let s := if s.cp 25 = 1 then s.raiseDevOnce evMaskFail [BitVec.ofNat 8 ch] else s
      if r.maskFail then s
      else
        let r := { r with maskFail := true, maskCh := ch, maskIdx := BitVec.ofNat 32 idx }
        let s := s.setRec r
        if s.cp 24 = 1 then s.maskFreeze r x.inst else s

/-- STAGING_DRAIN (R347): the oldest sample in staging is written to its record's memory and tested. -/
def execStagingDrain (s : State) : Out :=
  .next <| match s.cap.stg with
    | [] => s
    | x :: rest =>
      let owed : Bool := match s.recOf x.recno x.repoch with
        | some r => decide (s.recFrom r ≤ x.inst)
        | none => false
      let s := (s.capWrite x.addr x.bytes)
      let s := if s.cap.dest = 1 then
          { s with pwr := { s.pwr with dramLast := s.frm.now, selfRef := false } }.bwBytes 9 x.bytes.length else s
      let c := s.cap
      let c := { c with stg := rest, fill := c.fill - x.bytes.length }
      ({ s with cap := if owed then { c with held := c.held - 1, stored := c.stored + 1 } else c }).maskSample x

/-! ## Completion (R345) -/

/-- The header of a completed record. -/
def State.capHeader (s : State) (r : CapRec) : List Byte :=
  let flags := b2n r.forced + 2 * b2n r.maskFail + 4 * b2n r.trunc + 8 * b2n (r.ncrev != 0) + 16 * b2n r.hostTrig
  leBytes 4 r.recno.toNat ++ leBytes 2 r.repoch.toNat ++ leBytes 2 flags ++ leBytes 8 (toNs r.trigT) ++ leBytes 6 r.fcnt.toNat ++
  leBytes 2 0 ++ leBytes 4 r.dead.toNat ++ leBytes 4 r.nlen ++ leBytes 4 s.capPre ++ leBytes 4 (s.recFrom r % s.capN) ++
  leBytes 8 (s.capTs * 200) ++ leBytes 1 s.cap.src ++ leBytes 1 (if s.cap.src = 2 then 0 else s.cap.nch) ++ leBytes 1 (s.cp 9) ++
  leBytes 1 r.maskCh ++ leBytes 4 r.maskIdx.toNat ++ leBytes 2 r.ncrev ++ leBytes 2 0 ++ leBytes 4 r.crevSeq.toNat

/-- RECORD_COMPLETE: the oldest ended record has no sample left in staging. -/
def execRecordComplete (s : State) : Out :=
  .next <| match s.cap.fin with
    | [] => s
    | r :: rest =>
      if s.cap.stg.any fun x => x.recno == r.recno && x.repoch == r.repoch then s else
      let s := s.capWrite (s.slotAddr r.slot) (s.capHeader r)
      { s with cap := { s.cap with fin := rest, lastRecno := r.recno, lastRepoch := r.repoch } }

/-! ## Commands (R346) -/

/-- What CAPT_START checks of the parameters (R337, R342, R346). -/
def State.capStartOk (s : State) : Bool :=
  let src := s.cp 0
  let k := s.cp 9
  let chOk (c : Nat) : Bool := s.chInst c < sigInst (s.chSig c) && (src == 0 || sigSub (s.chSig c))
  s.cp 5 * slotBytes s.capN (rowBytes src (s.cp 2)) ≤ s.regionBytes &&
  (src == 2 || (List.range (s.cp 2)).all chOk) &&
  (if 1 ≤ k && k ≤ 4 then src != 2 else true) && (if k = 5 then src == 2 else true) && (if k = 3 then s.pn 1 0 10 != 0 else true)

/-- CAPT_START: from the first instant at or after the next frame boundary. -/
def execCaptStart (s : State) : Out :=
  .next <| s.serve 0x0070 fun s m j =>
    if s.reqLen j ≠ 0 then s.answer m j stBadLen 0 []
    else if s.cap.st.runs ∨ (s.frm.role = .standby ∧ s.cp 0 = 0) then s.answer m j stBadState 0 []
    else if !s.capStartOk then s.answer m j stBadValue 0 []
    else { s with cap := { s.cap with startAt := true } }.answer m j stOk s.effNext []

/-- CAPT_STOP: while no tick runs it acts at once. -/
def execCaptStop (s : State) : Out :=
  .next <| s.serve 0x0071 fun s m j =>
    if s.reqLen j ≠ 0 then s.answer m j stBadLen 0 []
    else if !s.cap.st.runs then s.answer m j stBadState 0 []
    else (if s.frm.run then { s with cap := { s.cap with stopAt := true } } else s.capHalt .stopped).answer m j stOk s.effNext []

/-- A CAPT_FORCE takes effect now. -/
def State.capForce (s : State) : State :=
  if s.cap.st = .holdoff ∨ s.cap.st = .armed then { s with cap := { s.cap with force := some s.frm.now } } else s

/-- CAPT_FORCE (R343). -/
def execCaptForce (s : State) : Out :=
  .next <| s.serve 0x0072 fun s m j =>
    if s.reqLen j ≠ 0 then s.answer m j stBadLen 0 []
    else if s.cap.st ≠ .holdoff ∧ s.cap.st ≠ .armed then s.answer m j stBadState 0 []
    else (if s.frm.run then { s with cap := { s.cap with forceAt := true } } else s.capForce).answer m j stOk s.effNext []

/-- A capture starts. -/
def State.capBegin (s : State) : State :=
  let src := s.cp 0
  let nch := if src = 2 then 0 else s.cp 2
  let s := { s with cap := { s.cap with
      startAt := false, nch := nch, dest := s.cp 7, src := src, mode := s.cp 6, completed := 0, firstRec := true, decim := 0,
      rowDue := false, trigs := [], force := none, tapPos := 0, tapHit := false,
      slotSize := BitVec.ofNat 32 (slotBytes s.capN (rowBytes src nch)) } }
  s.capArm

/-- The capture engine at a frame boundary: the row of the frame that ended is due; stop, force and start take effect. -/
def State.capBoundary (s : State) : State :=
  let c := s.cap
  let s := { s with cap := { c with rowDue := c.st.runs && c.src == 0, stopAt := false, forceAt := false } }
  let s := if c.stopAt then s.capHalt .stopped else s
  let s := if c.forceAt then s.capForce else s
  if c.startAt then s.capBegin else s

/-- The part leaves the head role: a frame-source capture stops (R354). -/
def State.capRoleEnd (s : State) : State :=
  if s.cap.src = 0 ∧ (s.cap.st.runs ∨ s.cap.startAt) then
    let s := s.capHalt (if s.cap.st.runs then .stopped else s.cap.st)
    { s with cap := { s.cap with startAt := false } }
  else s

/-! ## The aperture and the registers (R352, R357) -/

/-- CAPTURE_APERTURE_WRITE: a word at a byte offset of the aperture. -/
def execCaptureApertureWrite (off : Nat) (v : W32) (s : State) : Out :=
  let s := s.hostWrite
  let a := s.cap.apBase * 2 ^ 20 + off % 2 ^ 25 / 4 * 4
  .next <| if maskBase ≤ a ∧ a < maskBase + 64 * 32768 ∧ !s.cap.st.runs then s.capWrite a (leBytes 4 v.toNat)
  else { s with cap := { s.cap with wrign := true } }

/-- A capture address of one of the regions. -/
def State.capHas (s : State) (a : Nat) : Bool :=
  a < sramRegion || (crevBase ≤ a && a < crevBase + 131072) || (maskBase ≤ a && a < maskBase + 64 * 32768) ||
  (dramBase ≤ a && a < dramBase + s.cp 8 * 2 ^ 20)

/-- The word a host read of the aperture returns. -/
def State.apertureWord (s : State) (off : Nat) : W32 :=
  let a := s.cap.apBase * 2 ^ 20 + off % 2 ^ 25 / 4 * 4
  if s.capHas a then BitVec.ofNat 32 (leNat (mread ramByte s.cap.mem a 4)) else 0

def CapSt.code : CapSt → Nat
  | .idle => 0
  | .holdoff => 1
  | .armed => 2
  | .post => 3
  | .rearm => 4
  | .done => 5
  | .frozen => 6
  | .stopped => 7

/-- CAP_RECNO: latches CAP_REPOCH. -/
def execCapRecno (s : State) : Out :=
  let s := s.hostWord s.cap.lastRecno
  .next { s with cap := { s.cap with repochL := s.cap.lastRepoch } }

/-- CAP_CREVSMP_LO: latches the high half of LG_CAPT's crevasse term. -/
def execCapCrevsmpLo (s : State) : Out :=
  let v := BitVec.ofNat 64 s.cap.crev
  let s := s.hostWord (lo32 v)
  .next { s with cap := { s.cap with crevHi := hi32 v } }

/-- CAP_DEADMAX: returned and cleared. -/
def execCapDeadmax (s : State) : Out :=
  let s := s.hostWord s.cap.deadMax
  .next { s with cap := { s.cap with deadMax := 0 } }

def State.capStageWord (s : State) : W32 := wordOf [(kib s.cap.fill, 0), (kib s.cap.fillMax, 16)]

/-- CAP_STAGE: MAX is cleared. -/
def execCapStage (s : State) : Out :=
  let s := s.hostWord s.capStageWord
  .next { s with cap := { s.cap with fillMax := 0 } }

/-- The CAP block, by offset from its base. -/
def State.capReg (s : State) (o : Nat) : Option W32 :=
  let c := s.cap
  if o = 0x00 then
    some (wordOf [(c.st.code, 0), (b2n c.cur.open_.isSome, 4), (c.mode, 5), (c.src, 6), (c.dest, 8), (c.nch, 9), (b2n c.wrign, 16)])
  else if o = 0x04 then some c.lastRecno
  else if o = 0x08 then some (c.repochL.setWidth 32)
  else if o = 0x0C then some (wordOf [(c.cur.n % s.capN, 0), (c.cur.slot, 16)])
  else if o = 0x10 then some c.slotSize
  else if o = 0x14 then some c.cseq
  else if o = 0x18 then some (BitVec.ofNat 32 c.crev)
  else if o = 0x1C then some c.crevHi
  else if o = 0x20 then some (wordOf [(c.maskIdx.toNat, 0), (c.maskCh, 16), (b2n c.maskFail, 31)])
  else if o = 0x24 then some c.maskRec
  else if o = 0x28 then some c.deadMax
  else if o = 0x2C then some (wordOf [(c.nEarly, 0), (c.nForced, 16)])
  else if o = 0x30 then some (BitVec.ofNat 32 c.apBase)
  else if o = 0x34 then some s.capStageWord
  else none

end Sys2Proof.Machine
end

