-- ==== Sys2Proof/Machine/Firn.lean ====
section
/-! DEFINITION. What travels over the firn link as bytes: images, deltas, segment frames (R240, R242, R243, R248). -/

namespace Sys2Proof.Machine

/-! ## The image as bytes (R242) -/

/-- Where the image's header holds its CRC-32: the fields stand in R242's order, packed and big-endian (log 32). -/
def imgCrcAt : Nat := 20

/-- An image's bytes with its CRC field taken as zero. -/
def crcCleared (bs : List Byte) : List Byte := bs.take imgCrcAt ++ [0, 0, 0, 0] ++ bs.drop (imgCrcAt + 4)

/-- An image's CRC-32 is correct. -/
def imgCrcOk (bs : List Byte) : Bool := imgCrcAt + 4 ≤ bs.length && beAt bs imgCrcAt 4 == (crc32 (crcCleared bs)).toNat

/-- Offsets of the sections behind the header: groups, line axes, connections, axes, zones; the end of the image. -/
def sectionAt (axes zones : Nat) : List Nat :=
  [256, 1280, 3328, 4352, 4352 + 832 * axes, 4352 + 832 * axes + 96 * zones]

/-- Size of an image. -/
def imageSize (axes zones : Nat) : Nat := 4352 + 832 * axes + 96 * zones

/-- The image's header with this CRC. -/
def Image.header (im : Image) (crc : Nat) : List Byte :=
  padTo 256 (beBytes 4 im.seq.toNat ++ beBytes 6 im.snap.toNat ++ beBytes 4 im.hash.toNat ++ beBytes 4 im.fw.toNat ++
    beBytes 2 im.epoch.toNat ++ beBytes 4 crc ++
    ((sectionAt im.axes.length im.zones.length).take 5).flatMap (fun o => beBytes 4 o))

/-- The bytes of an image. How a section lays out what it holds is not given: those bytes are free (log 32). -/
def Image.wire (im : Image) : List Byte :=
  let body := (List.range (imageSize im.axes.length im.zones.length - 256)).map fun k => Config.imageByte im.seq.toNat (256 + k)
  im.header (crc32 (im.header 0 ++ body)).toNat ++ body

/-- What the header of received bytes says of an image; reading stands for what their sections hold. -/
def Image.received (seq : W32) (snap : W48) (bs : List Byte) (reading : Image) : Image :=
  { reading with seq := seq, snap := snap, hash := BitVec.ofNat 32 (beAt bs 10 4), fw := BitVec.ofNat 32 (beAt bs 14 4)
                 epoch := BitVec.ofNat 16 (beAt bs 18 2), bytes := bs }

/-! ## Deltas (R243) -/

/-- One run: its word (offset in bits 31 to 12, length in bits 11 to 0) and the words it carries, newest first. -/
def runBytes (start : Nat) (ws : List (List Byte)) : List Byte := beBytes 4 (start * 4096 + ws.length) ++ ws.reverse.flatten

/-- The runs of the 8-byte words that differ, from word k on; open is the run being formed. A run ends at a word that agrees and
at 4,095 words. -/
def runsFrom : Nat → Option (Nat × List (List Byte)) → List (List Byte × List Byte) → List Byte
  | _, none, [] => []
  | _, some r, [] => runBytes r.1 r.2
  | k, none, (w, b) :: l => if w = b then runsFrom (k + 1) none l else runsFrom (k + 1) (some (k, [w])) l
  | k, some r, (w, b) :: l =>
    if w = b then runBytes r.1 r.2 ++ runsFrom (k + 1) none l
    else if r.2.length = 4095 then runBytes r.1 r.2 ++ runsFrom (k + 1) (some (k, [w])) l
    else runsFrom (k + 1) (some (r.1, w :: r.2)) l

/-- The delta from base to an image, both in whole words (which words a run covers is open; the model sends those that differ, log 32). -/
def deltaOf (base im : List Byte) : List Byte :=
  runsFrom 0 none ((chunks 8 im.length im).zip (chunks 8 base.length base))

/-- The runs of a delta applied to an image; n bounds their number. -/
def applyRuns : Nat → List Byte → List Byte → List Byte
  | 0, _, im => im
  | n + 1, d, im =>
    if d.isEmpty then im else
    let w := beAt d 0 4
    let o := w / 4096 * 8
    let k := w % 4096 * 8
    applyRuns n (d.drop (4 + k)) (im.take o ++ slice d 4 k ++ im.drop (o + k))

/-! ## Segments (R243, R248) -/

def segData : Nat := 1456
/-- Bytes of a segment frame from destination address to FCS; its byte times with the preamble, and with the idle behind it. -/
def segLen : Nat := 1504
def segWire : Nat := 1512
def segSlot : Nat := 1524

/-- Segments that hold n bytes. -/
def segsOf (n : Nat) : Nat := (n + (segData - 1)) / segData

/-- The payload of segment no of nseg: the fields, then its part of the data, zero-padded. -/
def segPayload (seq base : W32) (snap : W48) (no nseg : Nat) (final shadow : Bool) (data : List Byte) : List Byte :=
  let d := (data.drop (segData * no)).take segData
  beBytes 4 seq.toNat ++ beBytes 4 base.toNat ++ beBytes 6 snap.toNat ++ beBytes 2 no ++ beBytes 2 nseg ++ beBytes 2 d.length ++
    beBytes 2 (b2n final + 2 * b2n shadow) ++ padTo segData d

/-- The fields of a segment frame. -/
def Segment.seq (g : Segment) : W32 := BitVec.ofNat 32 (beAt g.bytes 22 4)
def Segment.base (g : Segment) : W32 := BitVec.ofNat 32 (beAt g.bytes 26 4)
def Segment.snap (g : Segment) : W48 := BitVec.ofNat 48 (beAt g.bytes 30 6)
def Segment.segno (g : Segment) : Nat := beAt g.bytes 36 2
def Segment.nseg (g : Segment) : Nat := beAt g.bytes 38 2
def Segment.len (g : Segment) : Nat := beAt g.bytes 40 2
def Segment.final (g : Segment) : Bool := (beAt g.bytes 42 2).testBit 0
def Segment.shadow (g : Segment) : Bool := (beAt g.bytes 42 2).testBit 1
def Segment.data (g : Segment) : List Byte := slice g.bytes 44 g.len

/-- A received frame is an image segment of the head's: FCS, header, TYPE, DIR, the length of a segment, LEN in its range. -/
def Segment.whole (g : Segment) : Bool :=
  let h := frameHdr g.bytes
  intact g.bytes false && h.ty == 9 && !h.dir && g.bytes.length == segLen && decide (1 ≤ g.len) && decide (g.len ≤ segData)

/-- The bytes of a shadow record: their layout is not given, so they are free (log 32). -/
def shadowBytes (seq : W32) (n : Nat) : List Byte := (List.range n).map fun k => Config.shadowByte seq.toNat k

end Sys2Proof.Machine
end

