-- ==== Sys2Proof/Machine/SafetyFn.lean ====
section
/-! DEFINITION. Safety groups and functions, the end of the safety cycle, safety PDUs and connections, the safety set and the
commands of the host (R277 to R284, R288 to R291, R299 to R313). -/

namespace Sys2Proof.Machine

/-! ## Monitored speed and SLS (R281, R282, R286) -/

/-- Milliseconds between two safety cycles, in seconds. -/
def cyclesSec (now from' : Nat) : F64 := fdiv (fOfNat (now - from')) (fOfNat 1000)

/-- Input pair n demands: its filtered demand, or a latched fault (R270, R272). -/
def State.pairDemand (s : State) (n : Nat) : Bool := (s.spair n).demand || (s.spair n).latch

/-- A group's limit of the degraded window applies (R286). -/
def State.degLimited (s : State) (g : Nat) : Bool := s.saf.deg && !feq (s.sgF g 16) F64.zero

/-- SLS is in force for a group (R282). -/
def State.slsForce (s : State) (g : Nat) : Bool :=
  let i := s.sgP g 12
  i == 254 || (i < 8 && !s.pairDemand i) || s.degLimited g

/-- The limit in force (R282, R286). -/
def State.slsLimit (s : State) (g : Nat) : F64 :=
  if s.degLimited g then
    fmax (s.sgF g 16) (fnma (s.sgF g 17) (cyclesSec s.saf.cycle s.saf.degAt) (fadd (s.sgrp g).v0 (s.sgF g 9)))
  else s.sgF g 13

/-- The group is over its limit. -/
def State.slsOver (s : State) (g : Nat) : Bool := s.slsForce g && flt (s.slsLimit g) (s.vMon g)

/-- The axis groups a safety group commands (R277). -/
def State.sgAxes (s : State) (g : Nat) : Nat := s.sgP g 5

/-- SLS_VIOLATION (R282): SG.SLS_N consecutive safety cycles over the limit, the present one among them; the transition is
decided at its end. -/
def execSlsViolation (g : Fin 32) (s : State) : Out :=
  let x := s.sgrp g
  .next <| if s.slsOver g ∧ s.sgP g 14 ≤ x.slsRun + 1 ∧ !x.slsRep ∧ x.st ≠ .sto then
    (s.setSgrp g { x with slsReq := true, slsRep := true }).raise evSafeSls g (s.sgAxes g) []
  else s

/-- SS1_TIME_EXPIRY (R280): the cycle that ends reaches t0 + SG.SS1_T. -/
def execSs1TimeExpiry (g : Fin 32) (s : State) : Out :=
  let x := s.sgrp g
  .next <| if x.st = .ss1 ∧ !x.ss1r ∧ x.ss1At + s.sgP g 6 ≤ s.saf.cycle + 1 then s.setSgrp g { x with tmax := true } else s

/-- SS1_TMAX_EXPIRY (R281): the cycle that ends reaches t0 + SG.SS1_TMAX; zero speed in it wins. -/
def execSs1TmaxExpiry (g : Fin 32) (s : State) : Out :=
  let x := s.sgrp g
  .next <| if x.st = .ss1 ∧ x.ss1r ∧ x.ss1At + s.sgP g 11 ≤ s.saf.cycle + 1 then s.setSgrp g { x with tmax := true } else s

/-! ## Group transitions (R278 to R284, R289) -/

/-- The group enters STO (R279, R284). -/
def State.enterSto (s : State) (g reason : Nat) (fail : Bool) : State :=
  let x := s.sgrp g
  let brakes : Bool := s.sgP g 4 != 0
  let s := s.setSgrp g { x with st := .sto, reason := reason, tmax := false, ss1r := false,
                                sbcAt := if brakes then some (s.saf.cycle + s.sgP g 18) else none }
  let s := s.raise evSafeSto g (s.sgAxes g) []
  if fail then s.raise evSafeSs1Fail g (s.sgAxes g) [BitVec.ofNat 8 reason] else s

/-- The group enters SS1 (R280): SS1-r where SG.STOP asks for it, SS1-t otherwise (R289). -/
def State.enterSs1 (s : State) (g : Nat) : State :=
  (s.setSgrp g { s.sgrp g with st := .ss1, ss1At := s.saf.cycle, ss1V0 := s.vMon g, ss1r := s.sgP g 1 == 2, tmax := false,
                               reason := 0 }).raise evSafeSs1 g (s.sgAxes g) []

/-- A connection demands STO of its groups: it is in failure (R278), or in the node role the head's STO bit is set (R305). -/
def State.connDemands (s : State) (c : Nat) : Bool := (s.conn c).fail || (s.frm.role == .node && (s.conn c).stoRx)

/-- An input of the group demands its stop. -/
def State.groupDemand (s : State) (g : Nat) : Bool := (List.range 8).any fun n => bitOf (s.sgP g 0) n && s.pairDemand n

/-- An event that leads from RUN to STO (R278). SL0 entry is a reset, which finds every group in STO. -/
def State.hardStop (s : State) (g : Nat) : Bool :=
  (s.groupConns g).any s.connDemands || s.saf.stage4 || s.bothBad || (s.groupDemand g && s.sgP g 1 == 0) ||
  ((s.sgrp g).slsReq && s.sgP g 15 == 0)

/-- An event that leads from RUN to SS1; exp: the degraded window has expired. -/
def State.softStop (s : State) (exp : Bool) (g : Nat) : Bool :=
  (s.groupDemand g && s.sgP g 1 != 0) || ((s.sgrp g).slsReq && s.sgP g 15 == 1) || exp

/-- The SS1-r envelope (R281). -/
def State.ss1Env (s : State) (g : Nat) : F64 :=
  let x := s.sgrp g
  let t := fmax F64.zero (fsub (cyclesSec s.saf.cycle x.ss1At) (fdiv (fOfNat (s.sgP g 7)) (fOfNat 1000)))
  fnma (s.sgF g 8) t (fadd x.ss1V0 (s.sgF g 9))

/-- An output of the group. -/
def State.groupOut (s : State) (g o : Nat) : Bool := bitOf (s.sgP g 3) o || bitOf (s.sgP g 4) o

/-- Faulted outputs of the group whose off-state readback passes in both channels return to service on a reset (R276). -/
def State.outsReturn (s : State) (g : Nat) : State :=
  (List.range 4).foldl (fun s o =>
    let x := s.sout o
    if s.groupOut g o ∧ x.fault ∧ x.rbA ≤ 5000 ∧ x.rbB ≤ 5000 then
      s.setSout o { x with fault := false, disA := 0, disB := 0, limA := false, limB := false }
    else s) s

/-- The conditions of a reset (R283). -/
def State.resetOk (s : State) (g : Nat) : Bool :=
  s.setRuns && !s.groupDemand g && !((List.range 4).any fun o => s.groupOut g o && (s.sout o).fault) &&
  !((s.groupConns g).any s.connDemands) && (s.saf.deg || (!s.saf.a.bad && !s.saf.b.bad)) && !s.saf.stage4

/-- The transition of one group at the end of a safety cycle. A reset that is not accepted changes nothing; after an accepted one a
speed still over the limit is a violation anew. -/
def State.groupDecide (s : State) (exp : Bool) (g : Nat) : State :=
  let x := s.sgrp g
  let vm := s.vMon g
  match x.st with
  | .run => if s.hardStop g then s.enterSto g 0 false else if s.softStop exp g then s.enterSs1 g else s
  | .ss1 =>
    if s.hardStop g then s.enterSto g 0 false
    else if x.ss1r then
      (if fle vm (s.sgF g 10) then s.enterSto g 1 false
       else if x.tmax then s.enterSto g 2 true
       else if flt (s.ss1Env g) vm then s.enterSto g 3 true
       else s)
    else if x.tmax then s.enterSto g 0 false
    else s
  | .sto =>
    if x.rst then
      let r := s.outsReturn g
      if r.resetOk g then r.setSgrp g { x with st := .run, sbcAt := none, reason := 0, slsRep := false } else s
    else s

/-- What a group carries from one cycle to the next. -/
def State.groupNext (s : State) (g : Nat) : State :=
  let x := s.sgrp g
  let run : Nat := if s.slsOver g then x.slsRun + 1 else 0
  s.setSgrp g { x with slsRun := run, slsRep := x.slsRep && run != 0, slsReq := false, rst := false, slsOn := s.slsForce g }

/-- SBC_DELAY_EXPIRY (R284): the brake outputs open. -/
def execSbcDelayExpiry (g : Fin 32) (s : State) : Out :=
  let x := s.sgrp g
  .next <| match x.sbcAt with
    | none => s
    | some c => if x.st = .sto ∧ c ≤ s.saf.cycle then (s.setSgrp g { x with sbcAt := none }).outsOpen else s

/-- DEGRADED_WINDOW_EXPIRY (R289): acted on at the end of the safety cycle, where a matching comparison wins (R288). -/
def execDegradedWindowExpiry (s : State) : Out :=
  .next <| if s.saf.deg then
    let s := s.goto s.saf.degEnd
    { s with saf := { s.saf with degExp := true } }
  else s

/-! ## Producing PDUs (R299, R300, R305, R308) -/

/-- The groups a connection belongs to. -/
def State.connGroups (s : State) (c : Nat) : List Nat := (List.range 32).filter fun g => bitOf (s.sgP g 2) c
/-- The axis groups of a connection's events (R311). -/
def State.connAxes (s : State) (c : Nat) : Nat := (s.connGroups c).foldl (fun m g => m ||| s.sgAxes g) 0

/-- The connections the part produces and consumes: every enabled one in the head role and once a takeover is decided (R309), its
own in the node role. -/
def State.ownConns (s : State) : List Nat :=
  (List.range 64).filter fun c => s.setRuns && s.scP c 0 == 1 &&
    (s.frm.role == .head || (s.frm.role == .standby && s.red.decided) ||
      (s.frm.role == .node && s.scP c 2 == nodeKey (s.pn 2 0 16) (s.pn 2 0 17)))

/-- The PDU the present decisions ask for, with a sequence number (R295, R296). -/
def State.pduFor (s : State) (c : Nat) (seq : W16) : Pdu :=
  let gs := s.connGroups c
  let sto : Bool := gs.any fun g => (s.sgrp g).st == .sto
  let ss1 : Bool := gs.any fun g => (s.sgrp g).st == .ss1
  let id : W32 := BitVec.ofNat 32 (s.scP c 1)
  if s.frm.role = .node then
    pduBytes id seq (s.scP c 3) 0x80 (padTo (s.scP c 4) (beBytes 2 (b2n sto + 8 * b2n (s.saf.a.bad || s.saf.b.bad))))
  else
    pduBytes id seq (s.scP c 3) (b2n sto) (beBytes 2 (b2n ss1 + 2 * b2n (gs.any s.slsForce) + 4 * b2n s.saf.deg) ++ [0, 0])

/-- Channel A forms a connection's new PDU and assigns its SEQ. -/
def State.issue (s : State) (c : Nat) : State :=
  let x := s.conn c
  let seq := x.tx + 1
  s.setConn c { x with tx := seq, form := s.pduFor c seq, formed := true,
                       la := { x.la with issued := x.la.issued + 1 }, lb := { x.lb with issued := x.lb.issued + 1 } }

/-- A PDU is withheld: its number is consumed, the previous one stays in repetition. -/
def State.withhold (s : State) (c : Nat) : State :=
  let x := s.conn c
  let s := s.setConn c { x with formed := false, withheld := satAdd 8 x.withheld 1,
                                la := { x.la with withh := x.la.withh + 1 }, lb := { x.lb with withh := x.lb.withh + 1 } }
  { s with saf := { s.saf with mismatch := true } }.raise evSafeWithheld c (s.connAxes c) []

/-- LG_SSEQ opens with the part's first PDU; its terms start at zero (R310, R449). -/
def State.ssqOpen (s : State) : State := { s with lgr := { s.lgr with opn := s.lgr.opn ||| 0x80 } }

/-- PDU_RELEASE (R300): channel B's own bytes agree, or one channel works alone (R308). -/
def execPduRelease (c : Fin 64) (s : State) : Out :=
  let x := s.conn c
  .next <| if !x.formed then s
    else if !(s.judgesA && s.judgesB) ∨ x.form = s.pduFor c x.tx then
      let s := s.ssqOpen.pulseX 0x52
      s.setConn c { x with formed := false, rel := x.form, txRel := x.tx, stoTx := pduSto x.form,
                           la := { x.la with rel := x.la.rel + 1 }, lb := { x.lb with rel := x.lb.rel + 1 } }
    else s.withhold c

/-! ## Consuming PDUs (R301 to R304, R309) -/

/-- What a channel's judgement needs of the connection. -/
structure RxPar where
  id : W32
  dir : Bool                     -- DIR expected
  len : Nat
  twd : Nat                      -- SC.T_WD in ms
  now : Nat
  deriving DecidableEq, Repr

/-- The checks of R301. -/
def rxPasses (p : RxPar) (b : Pdu) : Bool :=
  pduId b == p.id.toNat && bitOf (pduCtrl b) 7 == p.dir && pduLen b == p.len && scrcOk p.id b

/-- The outcome of one judgement: consumer, ledger terms, failure reason entered, whether the PDU was stale, missed PDUs. -/
structure Judged where
  rx : ConnRx
  led : SsLed
  why : Nat := 0
  stale : Bool := false
  miss : Nat := 0
  deriving DecidableEq, Repr

/-- Acceptance: the watchdog restarts. -/
def ConnRx.accept (x : ConnRx) (p : RxPar) (b : Pdu) : ConnRx :=
  { x with has := true, seq := pduSeq b, pdu := b, wd := p.now + msT p.twd, wdOn := true, cand := none, fail := false }

/-- Failure. -/
def ConnRx.toFail (x : ConnRx) (cand : Option (W16 × Pdu)) : ConnRx := { x with fail := true, wdOn := false, cand := cand }

/-- The first accepted PDU of the part on a connection, or its base after a change of head (R302, R309, R310): X_0 stands just before
it, and the terms start with it (log 12). -/
def SsLed.start (l : SsLed) (seq : W16) : SsLed :=
  { l with x := 65536 + seq.toNat, x0 := 65535 + seq.toNat, acc := 1, miss := 0, reb := 0 }

/-- One channel's judgement of a PDU that passes R301 with TEXP correct (R302, R304, R309); base: the first after a change of
head. -/
def judge (p : RxPar) (base : Bool) (x : ConnRx) (l : SsLed) (b : Pdu) : Judged :=
  let d := (pduSeq b - x.seq).toNat
  if !x.has then { rx := x.accept p b, led := l.start (pduSeq b) }
  else if 32768 ≤ d then { rx := x, led := l, stale := true }
  else if base then
    (if d = 0 then { rx := x, led := l } else { rx := x.accept p b, led := l.start (pduSeq b) })
  else if x.fail then
    (if d = 0 then { rx := x, led := l }
     else match x.cand with
      | some (c, _) =>
        if pduSeq b = c + 1 then
          { rx := x.accept p b, led := { l with x := l.x + d, acc := l.acc + 2, reb := l.reb + (d - 2) } }
        else { rx := { x with cand := some (pduSeq b, b) }, led := l }
      | none => { rx := { x with cand := some (pduSeq b, b) }, led := l })
  else if d = 0 then
    (if b = x.pdu then { rx := x, led := l } else { rx := x.toFail none, led := l, why := 3 })
  else if d ≤ 4 then
    { rx := x.accept p b, led := { l with x := l.x + d, acc := l.acc + 1, miss := l.miss + (d - 1) }, miss := d - 1 }
  else { rx := x.toFail (some (pduSeq b, b)), led := l, why := 2 }

/-- The connection as a whole after its channels' judgements: it fails where a judging channel saw a failure; a PDU counts as
accepted once every judging channel has accepted it (R303, R308). -/
def State.connSettle (s : State) (c why : Nat) : State :=
  let x := s.conn c
  let fail : Bool := (s.judgesA && x.a.fail) || (s.judgesB && x.b.fail)
  let m := if s.judgesA then x.a else x.b
  let both : Bool := !(s.judgesA && s.judgesB) || (x.a.has && x.b.has && x.a.seq == x.b.seq)
  let acc : Bool := both && m.has && !fail
  let ns := beAt m.pdu 10 2
  let down : Bool := s.frm.role == .node
  let x' := if !acc then x else
    { x with rxSeq := m.seq, stoRx := if down then pduSto m.pdu else bitOf ns 0,
             v0 := !down && bitOf ns 1 && decide (1 ≤ s.scP c 5), v1 := !down && bitOf ns 2 && decide (2 ≤ s.scP c 5),
             s0 := ⟨BitVec.ofNat 32 (beAt m.pdu 14 4)⟩, s1 := ⟨BitVec.ofNat 32 (beAt m.pdu 18 4)⟩ }
  let s' := s.setConn c { x' with fail := fail, v0 := x'.v0 && !fail, v1 := x'.v1 && !fail,
                                  reason := if fail && !x.fail then why else x.reason,
                                  wdog := if fail && !x.fail && why == 1 then satAdd 8 x.wdog 1 else x.wdog }
  if fail ∧ !x.fail then s'.raise evSafeConn c (s.connAxes c) [BitVec.ofNat 8 why] else s'

def State.rxPar (s : State) (c : Nat) (node : Bool) : RxPar :=
  { id := BitVec.ofNat 32 (s.scP c 1), dir := !node, len := if node then 4 else s.scP c 4, twd := s.scP c 3, now := s.frm.now }

/-- A rejected PDU (R301). -/
def State.connReject (s : State) (c : Nat) : State :=
  let x := s.conn c
  let s' := s.setConn c { x with rej := satAdd 8 x.rej 1, rejEvt := true }
  if x.rejEvt then s' else s'.raise evSafePduRej c (s.connAxes c) []

/-- A PDU that passes R301, at the channels that judge. -/
def State.connTake (s : State) (c : Nat) (p : RxPar) (b : Pdu) : State :=
  let x := s.conn c
  if pduTexp b ≠ p.twd then
    if x.a.fail ∨ x.b.fail then s
    else (s.setConn c { x with a := if s.judgesA then x.a.toFail none else x.a, b := if s.judgesB then x.b.toFail none else x.b }).connSettle c 4
  else
    let ja := judge p x.base x.a x.la b
    let jb := judge p x.base x.b x.lb b
    let one := if s.judgesA then ja else jb
    let took : Bool := one.rx != (if s.judgesA then x.a else x.b)
    let s := if one.rx.has then s.ssqOpen else s
    (s.setConn c { x with
      a := if s.judgesA then ja.rx else x.a, la := if s.judgesA then ja.led else x.la,
      b := if s.judgesB then jb.rx else x.b, lb := if s.judgesB then jb.led else x.lb,
      base := x.base && !took, stale := if one.stale then satAdd 8 x.stale 1 else x.stale,
      missedN := satAdd 16 x.missedN one.miss }).connSettle c one.why

/-- A standby's channels judge the downlink PDUs they observe and keep the highest SEQ (R309). -/
def State.connObserve (s : State) (c : Nat) (b : Pdu) : State :=
  if rxPasses { s.rxPar c true with len := 4 } b then
    let x := s.conn c
    let up : Bool := match x.obs with
      | none => true
      | some o => epochAbove (pduSeq b) o
    if up then s.setConn c { x with obs := some (pduSeq b) } else s
  else s

/-- SAFETY_PDU_RECEIVED (R301, R302): a copy of a PDU reaches both channels. -/
def execSafetyPduReceived (c : Fin 64) (bytes : List Byte) (t : Nat) (s : State) : Out :=
  .next <|
    let s := s.goto t
    if s.frm.role = .standby then s.connObserve c bytes
    else
      let p := s.rxPar c (s.frm.role == .node)
      if s.ownConns.contains c.val && rxPasses p bytes then s.connTake c p bytes else s.connReject c

/-- SAFETY_WATCHDOG_EXPIRY (R303): SC.T_WD without an acceptance, in one channel's clock. -/
def execSafetyWatchdogExpiry (c : Fin 64) (chB : Bool) (s : State) : Out :=
  let x := s.conn c
  let r := if chB then x.b else x.a
  .next <| if !r.wdOn ∨ r.fail then s else
    let s := s.goto r.wd
    (s.setConn c (if chB then { x with b := r.toFail none } else { x with a := r.toFail none })).connSettle c 1

/-! ## Status mirrors (R294, R313) -/

def ChFault.code : ChFault → Nat
  | .healthy => 0
  | .transient => 1
  | .persistent => 2
  | .diagnosis => 3

def State.bits8 (f : Nat → Bool) (n : Nat) : Nat := ((List.range n).map fun k => if f k then 2 ^ k else 0).sum

/-- The device-wide mirror words: 0 to 6 are R294's, FIO_SFGRP_STO inverted; 7 and 8 FIO_SFCFAIL. -/
def State.mirrorWord (s : State) (k : Nat) : W32 :=
  let f := s.saf
  let dg (c : SChan) := if f.diag != 0 && !c.bad then 3 else c.fault.code
  let mask (n : Nat) (p : Nat → Bool) : Nat := State.bits8 p n
  if k = 0 then
    let rem := if f.deg then (f.degEnd - s.frm.now + msT 10 - 1) / msT 10 else 0
    let tr := max (s.transCount f.a) (s.transCount f.b)
    BitVec.ofNat 32 (dg f.a + 4 * dg f.b + 16 * b2n f.deg + 32 * b2n f.setOk + 256 * min tr 255 + 65536 * min rem 65535)
  else if k = 1 then f.setCrc
  else if k = 2 then
    BitVec.ofNat 32 (mask 8 (fun n => (s.spair n).a) + 2 ^ 8 * mask 8 (fun n => (s.spair n).b) +
      2 ^ 16 * mask 8 (fun n => (s.spair n).demand) + 2 ^ 24 * mask 8 (fun n => (s.spair n).latch))
  else if k = 3 then
    BitVec.ofNat 32 (mask 4 (fun o => (s.sout o).soh) + 16 * mask 4 (fun o => (s.sout o).sol) +
      256 * mask 4 (fun o => (s.sout o).fault) + 4096 * mask 4 (fun o => (s.sout o).frzA || (s.sout o).frzB))
  else if k = 4 then BitVec.ofNat 32 (mask 32 fun g => (s.sgrp g).st != .sto)
  else if k = 5 then BitVec.ofNat 32 (mask 32 fun g => (s.sgrp g).st == .ss1)
  else if k = 6 then BitVec.ofNat 32 (mask 32 fun g => (s.sgrp g).slsOn)
  else if k = 7 then BitVec.ofNat 32 (mask 32 fun c => (s.conn c).fail)
  else BitVec.ofNat 32 (mask 32 fun c => (s.conn (32 + c)).fail)

/-- FIO_SFCSEQ, FIO_SFCSTAT and FIO_SFCERR of connection c. -/
def State.connWord (s : State) (c k : Nat) : W32 :=
  let x := s.conn c
  if k = 0 then BitVec.ofNat 32 (x.rxSeq.toNat + 65536 * x.txRel.toNat)
  else if k = 1 then
    BitVec.ofNat 32 (b2n (s.scP c 0 == 1) + 2 * b2n x.fail + 4 * b2n x.stoRx + 8 * b2n x.stoTx +
      16 * b2n (x.a.cand.isSome || x.b.cand.isSome) + 32 * x.reason + 65536 * x.missedN)
  else BitVec.ofNat 32 (x.withheld + 2 ^ 8 * x.wdog + 2 ^ 16 * x.stale + 2 ^ 24 * x.rej)

/-- Channel A copies the mirrors; a change sets source SAFE (R397). -/
def State.copyMirrors (s : State) : State :=
  let t := (List.range 9).foldl (fun t k => tset 0 k (s.mirrorWord k) t) []
  let t := (List.range 64).foldl (fun t c => (List.range 3).foldl (fun t k => tset 0 (16 + 4 * c + k) (s.connWord c k) t) t) t
  if t = s.saf.mirror then s else { s with saf := { s.saf with mirror := t } }.irq 5

/-! ## The end of the safety cycle (R268, R278, R299) -/

/-- The channels differ in what they accepted of a connection: its state, the PDU checked, and with it the safe speeds. What the
channels compute from the exchanged data is one value here, so it cannot differ (log 12). -/
def State.viewsDiffer (s : State) : Bool :=
  (List.range 64).any fun c =>
    let x := s.conn c
    x.a.fail != x.b.fail || x.a.has != x.b.has || x.a.seq != x.b.seq || x.a.pdu != x.b.pdu

/-- The faulted channel takes the surviving channel's state, and two-channel operation resumes (R288). -/
def State.twoAgain (s : State) : State :=
  let bad := s.saf.b.bad
  let s := (List.range 64).foldl (fun s c =>
    let x := s.conn c
    s.setConn c (if bad then { x with b := x.a, lb := x.la } else { x with a := x.b, la := x.lb })) s
  let s := { s with saf := { s.saf with a := { s.saf.a with fault := .healthy }, b := { s.saf.b with fault := .healthy } } }
  s.degLeave true

/-- The ticks that a channel counted of the other in a safety cycle (R266), given by their periods in ns: none is missing, and their
mean is within 2 % of 100 µs. -/
def ticksGood (ps : List Nat) : Bool :=
  !ps.contains 0 && 98000 * ps.length ≤ ps.sum && ps.sum ≤ 102000 * ps.length

/-- Clock faults of the cycle that ends (R266). Channel A's ticks come of themselves, and fewer than ten are a tick missing; a tick
exchange that did not arrive is a missing exchange (R268). -/
def State.clocks (s : State) : State :=
  let okA := s.saf.perA.length = 10 ∧ ticksGood s.saf.perA
  let okB := ticksGood s.saf.perB = true
  let s := { s with saf := { s.saf with perA := [], perB := [] } }
  let s := if okA then s else s.chanFault false .persistent
  if okB then s else s.chanFault true .persistent

/-- The comparison of R268 ends a diagnosis's cycle or starts one. Where only one channel is left no diagnosis runs. -/
def State.diagCycle (s : State) : State :=
  if s.saf.a.bad || s.saf.b.bad then { s with saf := { s.saf with diag := 0 } }
  else if s.saf.diag = 1 then s.diagDecide s.saf.a.stOk s.saf.b.stOk
  else if s.saf.diag = 2 then { s with saf := { s.saf with diag := 1 } }
  else if s.saf.cmpBad then { s with saf := { s.saf with diag := 2 } }
  else s

/-- A SAFE_CLEAR waits for its matching comparison (R288); a fault that has become persistent meanwhile stays. -/
def State.clearCycle (s : State) : State :=
  match s.saf.clr with
  | none => s
  | some t =>
    if s.frm.now ≤ t ∧ !s.saf.cmpBad ∧ s.saf.a.fault ≠ .persistent ∧ s.saf.b.fault ≠ .persistent then s.twoAgain
    else if t < s.frm.now then { s with saf := { s.saf with clr := none } } else s

/-- The comparison of R268 and what follows from it. The second comparison of a diagnosis leaves the result of the first, which decides. -/
def State.compare (s : State) : State :=
  let two : Bool := !s.saf.a.bad && !s.saf.b.bad
  let ex : Bool := s.saf.exBad || s.saf.tick != s.saf.tickB
  let bad : Bool := ex || s.saf.mismatch || (two && s.viewsDiffer)
  let s := { s with saf := { s.saf with exBad := false, mismatch := false, cmpBad := if s.saf.diag = 1 then s.saf.cmpBad else bad } }
  s.diagCycle.clearCycle

/-- SAFETY_CYCLE_END (R266 to R268) at the instant of the cycle's tenth tick: clock check, comparison, the window's expiry, group
transitions, the ledger's check, new PDUs, mirrors. -/
def execSafetyCycleEnd (s : State) : Out :=
  let n := 10 * (s.saf.cycle + 1)
  .next <|
    let s := s.goto (usT 100 * n)
    let s := { s with saf := { s.saf with cycle := s.saf.cycle + 1 } }
    let s := s.clocks.compare
    let s := { s with saf := { s.saf with tick := n, tickB := n } }
    let exp : Bool := s.saf.deg && s.saf.degExp
    let s := if exp then (s.raiseDev evSafeDegExp []).degLeave false else s
    let s := (List.range 64).foldl (fun s c => if (s.conn c).formed then s.withhold c else s) s
    let s := if s.setRuns then (List.range 32).foldl (fun s g => s.groupDecide exp g) s else s
    let s := (List.range 32).foldl (fun s g => s.groupNext g) s
    let s := s.checkSseq
    let s := s.ownConns.foldl (fun s c => s.issue c) s
    let s := (List.range 64).foldl (fun s c => let x := s.conn c; s.setConn c { x with rejEvt := false }) s
    s.outsOpen.copyMirrors

/-! ## The safety set (R290, R291) -/

/-- Copy A or B of safety-set slot k. -/
def State.safeCopy (s : State) (k : Nat) (chB : Bool) : List Byte :=
  mread flashByte s.cfg.flash (0x2500000 + 0x80000 * k + (if chB then 0x40000 else 0)) 0x40000

/-- The keys of class 11. -/
def safeKeys : List Nat :=
  (((List.range 1).map fun _ => (List.range 4).map fun n => pkey 11 0 n) ++
   ((List.range 8).map fun i => (List.range 5).map fun n => pkey 11 (8 + i) n) ++
   ((List.range 32).map fun i => (List.range 21).map fun n => pkey 11 (32 + i) n) ++
   ((List.range 64).map fun i => ((List.range 8) ++ [16, 17]).map fun n => pkey 11 (64 + i) n)).flatten

/-- The parameters a set gives (log 12). -/
def safeParams (bytes : List Byte) : Tbl W64 :=
  safeKeys.foldl (fun t k => paramSetIn t (keyClass k) (keyInst k) (keyItem k) (Config.safeSetParam bytes k)) []

/-- The set in slot k passes in both channels: each checks its own copy (R290). -/
def State.safeSlotOk (s : State) (k : Nat) : Bool :=
  match s.cfg.safeKey with
  | none => false
  | some d => Config.safeSetOk (s.safeCopy k false) d && Config.safeSetOk (s.safeCopy k true) d

/-- The set in slot k runs; every group is in STO until reset. -/
def State.runSet (s : State) (k : Nat) : State :=
  let b := s.safeCopy k false
  { s with saf := { s.saf with setOk := true, setCrc := Config.safeSetCrc b, params := safeParams b, groups := [], conns := [] } }

/-- SAFETY_SET_CHECK (R290): the active slot is checked at start; no set runs outside the PRODUCTION state (R421). -/
def execSafetySetCheck (s : State) : Out :=
  .next <| if s.saf.setOk then s
    else if s.cfg.lcy = 2 && s.safeSlotOk s.cfg.safeSlot then
      s.runSet s.cfg.safeSlot
    else s.raiseDev evSafeSet []

/-- SAFE_CONFIRM_TIMEOUT (R291): the loaded set is discarded. -/
def execSafeConfirmTimeout (s : State) : Out :=
  .next <| if s.saf.load.done then
    let s := s.goto s.saf.load.due
    { s with saf := { s.saf with load := {} } }
  else s

/-! ## Commands of the host (R283, R288, R291) -/

/-- Every safety group is in STO. -/
def State.allSto (s : State) : Bool := (List.range 32).all fun g => (s.sgrp g).st == .sto

/-- SAFE_RESET (R283): the group's reset is received in this safety cycle. -/
def execSafeReset (s : State) : Out :=
  .next <| s.serve 0x0050 fun s m j =>
    let g := s.pay j 0 1
    if s.reqLen j ≠ 1 then s.answer m j stBadLen 0 []
    else if 32 ≤ g then s.answer m j stBadValue 0 []
    else
      let s := if s.sgP g 19 = 0 then s.setSgrp g { s.sgrp g with rst := true } else s
      s.answer m j stOk 0 []

/-- SAFE_CLEAR (R288): channel 0 is A, 1 is B. -/
def execSafeClear (s : State) : Out :=
  .next <| s.serve 0x0051 fun s m j =>
    let k := s.pay j 0 1
    if s.reqLen j ≠ 1 then s.answer m j stBadLen 0 []
    else if 2 ≤ k then s.answer m j stBadValue 0 []
    else match (s.chan (k = 1)).fault with
      | .persistent => s.answer m j stSafePersist 0 []
      | .transient => { s with saf := { s.saf with clr := some (s.frm.now + msT 100) } }.answer m j stOk 0 []
      | _ => s.answer m j stBadState 0 []

/-- The inactive safety-set slot's flash offset. -/
def State.safeBase (s : State) : Nat := 0x2500000 + 0x80000 * (1 - s.cfg.safeSlot)

/-- Segment data go to both copies of the slot. -/
def State.safeStore (s : State) (off : Nat) (d : List Byte) : State :=
  let f := mwrite flashByte (mwrite flashByte s.cfg.flash (s.safeBase + off) d) (s.safeBase + 0x40000 + off) d
  { s with cfg := { s.cfg with flash := f }, saf := { s.saf with load := { s.saf.load with off := off + d.length } } }

/-- The bytes written reach TOTAL: both channels check their copies; the answer of the completing segment. -/
def State.safeStored (s : State) (m j : Nat) : State :=
  let l := s.saf.load
  if l.off < l.total then s.answer m j stOk 0 []
  else if s.safeSlotOk (1 - s.cfg.safeSlot) then
    { s with saf := { s.saf with load := { l with done := true, due := s.frm.now + msT 60000 } } }.answer m j stOk 0 []
  else { s with saf := { s.saf with load := {} } }.answer m j stBadSig 0 []

/-- SAFE_LOAD (R291). -/
def execSafeLoad (s : State) : Out :=
  .next <| s.serve 0x0052 fun s m j =>
    let n := s.reqLen j - 8
    let off := s.pay j 0 4
    let total := s.pay j 4 4
    let d := s.bufBytes j 24 n
    let l := s.saf.load
    if s.reqLen j < 12 ∨ 496 < s.reqLen j ∨ n % 4 ≠ 0 then s.answer m j stBadLen 0 []
    else if !s.allSto then s.answer m j stBadState 0 []
    else if total = 0 ∨ 262144 < total ∨ total < off + n then { s with saf := { s.saf with load := {} } }.answer m j stBadValue 0 []
    else if off = 0 then
      -- the answer follows the erase
      { s with saf := { s.saf with load := { on := true, total := total, erase := true, first := d, ansBuf := some j } } }
    else if !l.on ∨ l.erase ∨ l.done ∨ off ≠ l.off ∨ total ≠ l.total then
      { s with saf := { s.saf with load := {} } }.answer m j stBadValue 0 []
    else (s.safeStore off d).safeStored m j

/-- SAFE_LOAD_ERASE_COMPLETE (R291): the first segment is written and its answer posted. -/
def execSafeLoadEraseComplete (s : State) : Out :=
  .next <| if !s.saf.load.erase then s else
    let s := { s with cfg := { s.cfg with flash := merase s.cfg.flash s.safeBase 0x80000 } }
    let l := s.saf.load
    let s := { s with saf := { s.saf with load := { l with erase := false, first := [], ansBuf := none } } }
    let s := s.safeStore 0 l.first
    match l.ansBuf with
    | none => s
    | some j =>
      match s.host.taken.find? fun t => t.buf == j with
      | none => s
      | some t => s.safeStored t.mbx j

/-- SAFE_CONFIRM (R291): the CRC confirms the loaded set; it becomes active and every group is in STO. -/
def execSafeConfirm (s : State) : Out :=
  .next <| s.serve 0x0053 fun s m j =>
    let k := 1 - s.cfg.safeSlot
    if s.reqLen j ≠ 4 then s.answer m j stBadLen 0 []
    else if !s.saf.load.done ∨ s.saf.load.due < s.frm.now then s.answer m j stBadState 0 []
    else if BitVec.ofNat 32 (s.pay j 0 4) ≠ Config.safeSetCrc (s.safeCopy k false) then
      { s with saf := { s.saf with load := {} } }.answer m j stBadValue 0 []
    else
      let s := { s with cfg := { s.cfg with safeSlot := k }, saf := { s.saf with load := {} } }
      let s := s.dropSseq.runSet k
      s.answer m j stOk 0 []

end Sys2Proof.Machine
end

