-- ==== Sys2Proof/Machine/Redundancy.lean ====
section
/-! DEFINITION. Head pairs: foreign CSMs, the standby's watch over its head, images and shadow records over the firn link,
self-tests, takeover, restart and planned yield (R193, R194, R234 to R264, R309). -/

namespace Sys2Proof.Machine

/-! ## Images, health, registers (R243, R249, R264) -/

/-- The newest valid image. -/
def Red.newest (r : Red) : Option Image := if r.newest1 then r.buf1 else r.buf0
def State.newestSeq (s : State) : W32 := (s.red.newest.map (·.seq)).getD 0

/-- SCHED_HASH or firmware identity differs from the head's. -/
def State.configDiffers (s : State) : Bool :=
  s.net.hashMm != 0 || match s.red.newest with
    | some i => i.hash != s.net.hash || i.fw != s.cfg.fwVer
    | none => false

/-- The newest image's snapshot is more than 3·RED.N_FIRN frames old. -/
def State.imageOld (s : State) : Bool :=
  match s.red.newest with
  | some i => decide (i.snap.toNat + 3 * s.pn 14 0 3 < s.frm.frame.toNat)
  | none => false

/-- The health word (R249). The test bits stand in the state, the others follow from it. -/
def State.health (s : State) : W32 :=
  (s.red.health &&& 0x20B) ||| wordOf [(b2n s.red.newest.isNone, 2), (b2n s.configDiffers, 4), (b2n (s.saf.a.bad || s.saf.b.bad), 5),
    (b2n (decide (2 ≤ s.pwr.stage)), 6), (b2n (s.red.loopFail != 0), 8), (b2n s.imageOld, 10),
    (b2n (s.onBranches.any fun b => (s.join b).st != .sync), 11)]

/-- A health bit of a test follows its result. -/
def State.healthBit (s : State) (k : Nat) (bad : Bool) : State :=
  let m : W32 := BitVec.ofNat 32 (2 ^ k)
  { s with red := { s.red with health := if bad then s.red.health ||| m else s.red.health &&& ~~~m } }

/-- Image sequence and snapshot frame the registers show. -/
def State.shownSeq (s : State) : W32 := if s.frm.role = .standby then s.newestSeq else s.red.peerSeq
def State.shownFc (s : State) : W48 :=
  if s.frm.role = .standby then (s.red.newest.map (·.snap)).getD 0 else s.red.peerFc

/-- The RED block, by offset from its base. -/
def State.redReg (s : State) (o : Nat) : Option W32 :=
  let r := s.red
  let stby : Bool := s.frm.role == .standby
  if o = 0x00 then
    some (wordOf [(s.pn 14 0 0, 2), (b2n r.far, 3), (b2n (stby && r.newest.isSome), 8), (b2n (s.net.firn.sync && r.firnOk), 9),
      (b2n (if stby then s.health == 0 else r.fit), 10), (b2n r.yldPend, 11), (r.tkStep, 16)])
  else if o = 0x04 then some (wordOf [(s.net.epoch.toNat, 0), (r.changes, 16)])
  else if o = 0x08 then some (if stby then s.health else r.peerHealth)
  else if o = 0x0C then some s.shownSeq
  else if o = 0x10 then some (s.shownFc.setWidth 32)
  else if o = 0x14 then some (r.imgFcHi.setWidth 32)
  else if o = 0x18 then
    some (wordOf [(b2n r.buf0.isSome, 0), (b2n r.buf1.isSome, 1), (r.skip, 4), (r.nseg, 8), (r.baseMiss, 16), (r.crcFail, 24)])
  else if o = 0x1C then some (wordOf [(r.hbTotal, 0), (r.hbRunMax, 16)])
  else if o = 0x20 then some (wordOf [(r.shFails, 0), (r.shRuns, 16)])
  else if o = 0x24 then some (r.tkFc.setWidth 32)
  else if o = 0x28 then some (r.tkFcHi.setWidth 32)
  else if o = 0x2C then some (wordOf [(r.gap, 0), (r.nFault, 8), (r.loadUs, 16)])
  else if o = 0x30 then some (wordOf [(if r.ystate = 2 then r.yfc.toNat % 65536 else 0, 0), (r.ystate, 30)])
  else none

/-- RED_IMGFC_LO: latches the high part. -/
def execRedImgfcLo (s : State) : Out :=
  let v := s.shownFc
  let s := s.hostWord (v.setWidth 32)
  .next { s with red := { s.red with imgFcHi := (v >>> 32).setWidth 16 } }

/-- RED_TKFC_LO: latches the high part. -/
def execRedTkfcLo (s : State) : Out :=
  let v := s.red.tkFc
  let s := s.hostWord (v.setWidth 32)
  .next { s with red := { s.red with tkFcHi := (v >>> 32).setWidth 16 } }

/-- RED_HBMISS: RUNMAX is returned and cleared. -/
def execRedHbmiss (s : State) : Out :=
  let s := s.hostWord (BitVec.ofNat 32 (s.red.hbTotal + s.red.hbRunMax * 65536))
  .next { s with red := { s.red with hbRunMax := 0 } }

/-! ## Leaving the head role (R257) -/

/-- Kernels stop: every instance of a kernel is dropped and the lane groups are free; threads go on. -/
def State.stopKernels (s : State) : State :=
  let ker (t : Task) : Bool := t.cls == .critical || t.cls == .trailing
  let l := s.dsp.tasks.filterMap fun x => if ker x.2 && (x.2.st != .idle || x.2.again) then some x.1 else none
  let n := (l.map fun d => b2n ((s.task d).st != .idle) + b2n (s.task d).again).sum
  let s := l.foldl (fun s d => (s.unlist d).setTask d { s.task d with st := .idle, again := false, aband := false, due := none }) s
  { s with dsp := { s.dsp with tSuper := s.dsp.tSuper + n, lanes := [], gate := false, gateFrame := 0 },
           prf := { s.prf with tagRuns := [] } }

/-- The part discards its running state as a head: no branch is in the cycle, nothing of the pair's exchange stays. -/
def State.discardHead (s : State) : State :=
  let r := s.red
  let br := tmap {} (fun b => { b with inCycle := false, dynQ := [], grant := 0, credit := [], crOut := 0 }) s.net.br
  { s.initAxes with
    net := { s.net with br := br, slotFin := 0 }
    evt := { s.evt with due := [], dueLater := [], dueNow := [], under := [], derate := 0, clrDer := 0 }
    red := { r with
      fit := false, peerOn := false, peerHealth := 0, peerSeq := 0, peerFc := 0, retFrame := 0, lostRep := false, firnOk := false
      out := none, outNext := 0, outN := 0, outFinal := false, outSh := [], outShN := 0, outShNext := 0, shFor := none, snapAt := none
      buf0 := none, buf1 := none, newest1 := false, asmSeq := 0, asmHold := false, segNext := 0, segBad := false, retDue := none
      ystate := 0, yldPend := false, yTries := 0, yReq := false, silentTx := false, tkStep := 0
      restartOn := false, decided := false, silent := 0, loaded := false, load := none, kReport := [], prevSmp := []
      obsState := [], shRec := [], shImg := none, paramRec := [], asm := [], shNext := 0
      quitA := if s.frm.run then some (if s.frm.now ≤ s.instA then s.instA else s.instA + s.per) else none } }

/-- A superseded or yielded head (R257, R354, R383): kernels stop, outputs are made safe, ledgers close, the running state goes,
and the part enters the standby role. LG_STEP and LG_ENC reopen at once (R449). -/
def State.leaveHead (s : State) : State :=
  let s := (s.stopKernels.capRoleEnd).closeLedgers [1, 2, 4, 5] 4
  let s := (s.discardHead.openLedger 4).openLedger 5
  let s := { s with fio := { s.fio with order := true, hold := true }, net := { s.net with cs := .yielded } }
  s.roleChange.standbyRole

/-! ## Foreign CSMs (R191 to R194, R235, R256) -/

/-- A head of frames 0 to 3 yields (R193). -/
def State.earlyYield (s : State) : State :=
  let s := s.raiseDev evCsYield []
  let s := ((s.stopKernels.capRoleEnd).closeLedgers [1, 2] 4).discardHead
  { s with frm := { s.frm with run := false, tickPend := false } }.yieldStart .yielded s.frm.now

/-- NET_CSSTAT and NET_PEERID report a CSM of another head (R215). -/
def State.seeCsm (s : State) (b : Nat) (id : W64) : State :=
  { s with net := { s.net with seenBr := s.net.seenBr ||| BitVec.ofNat 8 (2 ^ b), peerId := id } }

/-- Service level SL1: port B0 only receives, and NET_CSSTAT reports the CSMs seen on it (R436). -/
def State.monitors (s : State) : Bool := s.pwr.up && s.pwr.good && s.pwr.sl == 1

/-- FOREIGN_CSM (R191, R193, R256): a CSM arrives at the head. -/
def execForeignCsm (b : Fin 8) (bytes : List Byte) (x : Arrival) (s : State) : Out :=
  .next <| if b.val = 0 ∧ s.monitors ∧ isCsm bytes then s.seeCsm b (csmOf bytes (x.t + 8 * s.tB)).headId
    else if s.frm.role ≠ .head ∨ s.pn 3 b 0 ≠ 1 ∨ !isCsm bytes then s else
    let s := s.rxFrame b x.t bytes x.err
    let c := csmOf bytes (x.t + 8 * s.tB)
    if c.headId = Config.headId then
      { s with net := { s.net with ownSeen := true } }.raiseOnce evOwnCsm b allGroups []
    else
      let s := s.seeCsm b c.headId
      match s.net.cs with
      | .listening => if x.t ≤ s.net.csEnd then { s with net := { s.net with csSeen := true } } else s
      | .silent => if x.t ≤ s.net.csEnd then { s with net := { s.net with csSeen := true } } else s
      | .early =>
        if c.headId.ult Config.headId ∨ epochAbove c.epoch s.net.epoch then s.earlyYield
        else if c.epoch = s.net.epoch then { s with net := { s.net with higher := true } }
        else s
      | .head =>
        if epochAbove c.epoch s.net.epoch && s.csmWellFormed b bytes && !x.err then
          { s with net := { s.net with muteTo := s.nextT0 } }.raiseDev evEpochSeen [] |>.leaveHead
        else s
      | _ => s

/-! ## The standby's watch over its head (R241, R246, R250, R251) -/

/-- The observed and sent sequence numbers a new head goes on from (R309). -/
def State.connTxStart (s : State) : State :=
  let sent : Tbl (W16 × W16) := (s.red.newest.map (·.conns)).getD []
  ((List.range 64).filter fun c => s.scP c 0 == 1).foldl (fun s c =>
    let x := s.conn c
    let q := (tget (0, 0) sent c).1
    s.setConn c { x with tx := match x.obs with
      | some o => if epochAbove q o then q else o
      | none => q }) s

/-- A second consecutive silent frame: a takeover is decided, or refused (R250, R251). -/
def State.takeoverDecision (s : State) : State :=
  if s.pn 14 0 5 = 0 ∨ (s.health &&& 0x7F) ≠ 0 then
    { s with red := { s.red with silent := 0 } }.raiseDev evTakeoverRefused []
  else
    { s with red := { s.red with decided := true, decT := s.frm.now, gapFrom := s.frm.frame - 1, restart := s.frm.frame + 6,
                                 loaded := false, load := none } }.connTxStart

/-- The frame is judged once its heartbeat window and every branch-end window have closed. -/
def State.silentCheck (s : State) : State :=
  let r := s.red
  if s.frm.role ≠ .standby ∨ !r.hbClosed ∨ r.judged ∨ r.decided ∨ !(s.onBranches.all fun b => r.winDone.getLsbD b) then s else
  let quiet : Bool := !r.hbHere && !r.winCsm && r.ystate != 2
  if !quiet then { s with red := { r with judged := true, silent := 0 } }.setTk 0
  else
    let s := { s with red := { r with judged := true, silent := r.silent + 1 } }.setTk (min 2 (r.silent + 1))
    if 2 ≤ s.red.silent then
      let s := s.takeoverDecision
      if s.red.decided then s else s.setTk 0
    else s

/-- HEARTBEAT_RECEIVED (R241): present when it is received by T0 + P/2 with the head's EPOCH. -/
def execHeartbeatReceived (bytes : List Byte) (t : Nat) (s : State) : Out :=
  .next <| if s.frm.role ≠ .standby ∨ !s.frm.run then s else
    let s := s.goto (t + wireB bytes * s.tB)
    let h := frameHdr bytes
    let here : Bool := intact bytes false && h.ty == 8 && !h.dir && beAt bytes 22 6 == s.frm.frame.toNat &&
      h.epoch == s.net.obeyEpoch.toNat && decide (s.frm.t0 ≤ t) && decide (s.frm.now ≤ s.frm.t0 + s.per / 2)
    if here then
      let fl := beAt bytes 46 1
      let named := bitOf fl 1
      let r := s.red
      { s with red := { r with
          hbHere := true, firnOk := true, yldPend := bitOf fl 0, ystate := if named then 2 else 0
          yfc := if named then BitVec.ofNat 48 (beAt bytes 40 6) else r.yfc
          decT := if named && r.ystate != 2 then s.frm.now else r.decT } }
    else s

/-- HEARTBEAT_WINDOW_CLOSE (R250): T0 + P/2. -/
def execHeartbeatWindowClose (s : State) : Out :=
  .next <| if s.frm.role ≠ .standby ∨ !s.frm.run ∨ !s.paired ∨ s.red.hbClosed then s else
    let s := s.goto (s.frm.t0 + s.per / 2)
    let r := s.red
    let miss := !r.hbHere
    let run := if miss then satAdd 16 r.hbRun 1 else 0
    let s := if miss then s.pulseX 0x58 else s
    let s := { s with red := { r with
        hbClosed := true, hbRun := run, hbRunMax := max r.hbRunMax run, hbTotal := satAdd 16 r.hbTotal (b2n miss)
        firnOk := r.firnOk && !miss, lostRep := r.lostRep && miss } }
    let s := if 2 ≤ run ∧ s.red.winCsm ∧ !s.red.lostRep then
        { s with red := { s.red with lostRep := true } }.raiseDev evFirnLost []
      else s
    s.silentCheck

/-- CSM_WINDOW_CLOSE (R199, R250): the window of the present frame toward a branch has passed. -/
def execCsmWindowClose (b : Fin 8) (s : State) : Out :=
  .next <|
    let k := s.joinKey b
    if !s.follows ∨ !s.frm.run ∨ s.red.winDone.getLsbD k then s else
    let s := (s.goto (s.windowEnd k)).decideCsm k
    { s with red := { s.red with winDone := s.red.winDone ||| BitVec.ofNat 8 (2 ^ k) } }.silentCheck

/-! ## Becoming head (R252, R258, R260, R309) -/

/-- The connections of a new head: watchdogs from T0, the image's last accepted sequence as what the base is judged against. -/
def State.connRxStart (s : State) : State :=
  let held : Tbl (W16 × W16) := (s.red.newest.map (·.conns)).getD []
  ((List.range 64).filter fun c => s.scP c 0 == 1).foldl (fun s c =>
    let rx : ConnRx := { has := true, seq := (tget (0, 0) held c).2, wd := s.frm.t0 + msT (s.scP c 3), wdOn := true }
    s.setConn c { s.conn c with a := rx, b := rx, base := true, fail := false }) s

/-- The part sends its first CSM as the new head. -/
def State.becomeHead (s : State) (restart : W48) : State :=
  let nodes := tmap {} (fun n => { n with present := false, emptyRun := 0 }) s.net.nodes
  let s := s.setRole .head
  let s := { s with
    frm := { s.frm with fixTrim := tget 0 s.net.rate s.syncBranch, slewRem := 0 }
    net := { s.net with cs := .head, epoch := s.net.obeyEpoch + 1, joins := [], nodes := nodes }
    red := { s.red with
      restartOn := true, restart := restart, decided := false, silent := 0, tkFc := s.frm.frame, changes := satAdd 16 s.red.changes 1
      seq := s.newestSeq, retFrame := s.frm.frame, lostRep := false, fit := false, peerOn := false, kReport := [], prevSmp := []
      ystate := 0, yldPend := false, nFault := 0, gap := 0, out := none, outN := 0, outNext := 0, snapAt := none } }
  let s := ((s.cycleOn.openLedger 1).openLedger 2).connRxStart
  (s.headSends).setTk 3

/-- TAKEOVER_START (R252): T0 of frame 3. -/
def execTakeoverStart (s : State) : Out :=
  .next <| if s.frm.role = .standby ∧ s.red.decided ∧ s.frm.frame + 5 = s.red.restart then
    (s.becomeHead s.red.restart).raiseDev evTakeover []
  else s

/-- HANDOVER_START (R258): T0 of frame Y. -/
def execHandoverStart (s : State) : Out :=
  .next <| if s.frm.role = .standby ∧ s.frm.run ∧ s.red.ystate = 2 ∧ s.frm.frame = s.red.yfc then
    let s := { s with red := { s.red with gapFrom := s.frm.frame } }.connTxStart
    (s.becomeHead (s.frm.frame + 2)).raiseDev evHandover []
  else s

/-! ## The image carried forward (R253) -/

/-- One axis from the beginning of frame n to the beginning of frame n + 1, as though the old head ran without new setpoints;
ln is its line's state at S(n + 1). -/
def carryAxis (P : Par) (tabs : Nat → CamTable) (perNs n : Nat) (ln : LineSt) (a : Axis) : Axis :=
  let rf := moveDraw P (periodSec perNs) a.rf
  let rf := { rf with rad := followRadius P rf.dia }
  let formed := a.st.isClosed || a.st == .freeze
  let (rf, mo) :=
    if parN P 900 = 0 then
      (if formed then planRefs P perNs n rf (fpAxis P a.stop perNs n a.mo.recd a.mo) else (rf, a.mo))
    else if !a.st.isClosed then (rf, a.mo)
    else if parN P 900 = 1 then (gearRefs P ln rf, a.mo)
    else camRefs P n ln tabs rf a.mo
  { a with rf := { rf with sJn := rf.sJ, dlN := rf.dl }, mo := mo, trailDone := true }.shiftRefs.takePlan

/-- The image from the beginning of frame n to the beginning of frame n + 1. -/
def State.carryFrame (s : State) (n : Nat) (im : Image) : Image :=
  let per := periodSec s.frm.period
  let axes := im.axes.map fun x =>
    let P := s.P 5 x.1
    (x.1, carryAxis P s.cam s.frm.period n (tget {} im.lines (parN P 901)).pub x.2)
  let lines := im.lines.map fun x =>
    let l := lineTo per s.frm.period (n + 2) x.2
    (x.1, { l with pub := l.own })
  { im with axes := axes, lines := lines }

/-- k frames of it, from the beginning of frame n. -/
def State.carry (s : State) : Nat → Nat → Image → Image
  | 0, _, im => im
  | k + 1, n, im => s.carry k (n + 1) (s.carryFrame n im)

/-- IMAGE_LOAD_COMPLETE (R253): the newest valid image is loaded and carried forward to the restart frame. -/
def execImageLoadComplete (t : Nat) (s : State) : Out :=
  let r := s.red
  let named : Bool := s.frm.role == .standby && r.ystate == 2
  .next <| if r.loaded ∨ !(r.decided || r.restartOn || named) then s else
    match r.newest with
    | none => s
    | some im =>
      let s := s.goto t
      let restart := if r.decided || r.restartOn then r.restart else r.yfc + 2
      let n := im.snap.toNat + 1
      let im' := s.carry (restart.toNat - n) n im
      let us := (s.frm.now - r.decT + usT 1 - 1) / usT 1
      { s with red := { s.red with loaded := true, load := some im', loadUs := min us 0xFFFF } }

/-! ## The restart frame (R254, R255) -/

def stOfCode (n : Nat) : AxState :=
  if n = 1 then .opn else if n = 2 then .freeze else if n = 3 then .closed else if n = 4 then .stopping else if n = 5 then .fault else .disabled

/-- The state an axis restarts in: the last one observed when it is newer than the snapshot, else the image's. -/
def State.restartState (s : State) (im : Image) (i : Nat) : AxState :=
  let o := tget (0, 0) s.red.obsState i
  if im.snap.toNat < o.2.toNat ∧ o.1 < 6 then stOfCode o.1 else (tget {} im.axes i).st

/-- The keeper reference of an axis: the latest reported one, or the last one adopted; whether it was reported. -/
def State.restartRef (s : State) (i : Nat) : Option (F32 × F32) × Bool :=
  match tget none s.red.kReport i with
  | some k => (some k, true)
  | none => (tget none s.net.kref (s.axBranch i * 256 + s.axPos i * 8 + s.pn 5 i 2), false)

/-- A signed difference of two p32, negated for FB.DIR = 1. -/
def p32Diff (P : Par) (a b : W32) : W64 :=
  let d : W64 := (a - b).signExtend 64
  if parN P 65 = 1 then -d else d

/-- Feedback before the kernel of frame R, which is n, accepts its sample: place and speed follow from the image and the samples of frames
R − 1 and R; the observer starts at that speed. -/
def restartFb (P : Par) (per : F64) (n : Nat) (m0 m1 : Smp) (tau : F64) (f : AxFb) : AxFb :=
  let d := p32Diff P m1.p32 m0.p32
  let om := fdiv (fmul f64twoPi (fOfInt d.toInt)) (fmul (fmul (parNF P 64) F64.one) per)
  let pos := f.posAcc + p32Diff P m1.p32 f.p32 - d
  { f.endEst with
    accN := 1, q := m0.q, p32 := m0.p32, posAcc := pos, pos := pos, accAt := n - 1, om := om, omDiff := om, wHat := om
    tauL := fnma (parF P 601) om tau }

/-- The held values of R254. w is ω_m, r1 and r2 the keeper reference. -/
def restartHeld (P : Par) (ty : Nat) (w wRef tau : F64) (k : F32 × F32) (reported : Bool) (l : AxLoop) : AxLoop :=
  let r1 := fWiden k.1
  let r2 := fWiden k.2
  let we := omegaE P w
  { l with
    hV := tau
    hD := if ty = 1 then ffma (fneg (fmul we (parF P 502))) r2 (fmul (parF P 515) r1) else .zero
    hQ := if ty = 1 then ffma we (ffma (parF P 501) r1 (parF P 503)) (fmul (parF P 515) r2) else .zero
    hP := fnma (parF P 100) wRef (if ty = 3 && reported then r1 else w) }

/-- One axis restarts; the second result is true where it enters FAULT under R255. n is frame R. -/
def restartAxis (P : Par) (per : F64) (n : Nat) (st : AxState) (m0 m1 : Option Smp) (k : Option (F32 × F32)) (reported : Bool)
    (a : Axis) : Axis × Bool :=
  let ty := parN P 0
  let a := { a with critDone := false, aband := false, trailDone := false, nonfin := false, stopDone := false, skips := 0 }
  let old : AxFb := { a.fb with acc := false }
  let rest := { a with fb := old, lp := loopZero a.lp }
  match st with
  | .disabled => (rest.toDisabled, false)
  | .opn => (rest.toOpen, false)
  | .fault => (rest.toFault, false)
  | _ =>
    match m0, m1 with
    | some x, some y =>
      if x.q = y.q ∨ (k.isNone ∧ ty ≠ 3) then (rest.toFault, true)
      else
        let kk := k.getD (⟨0⟩, ⟨0⟩)
        let tau := if ty = 1 then fmul (parF P 500) (fWiden kk.2) else if ty = 2 then fWiden kk.1 else F64.zero
        let fb := restartFb P per n x y tau a.fb
        let lp := restartHeld P ty fb.om a.rf.w tau kk reported a.lp
        let a' := { a with fb := fb, lp := lp }
        if st = .freeze then ({ a' with st := .freeze, stop := .none, reinit := false, fromOpen := false }, false)
        else if st = .closed then
          ({ a' with st := .closed, stop := .none, reinit := true, fromOpen := false, autoFz := false
                     mo := { a'.mo with stopReq := .none, plan := { a'.mo.plan with pstop := false } } }, false)
        else if a'.st = .stopping then ({ a' with reinit := true, fromOpen := false, autoFz := false }, false)
        else ({ a'.toStop (parN P 900 != 0) .command with reinit := true, fromOpen := false }, false)
    | _, _ => (rest.toFault, true)

/-- An axis of the loaded image restarts in frame R. -/
def State.restartOne (s : State) (im : Image) (i : Nat) : State :=
  let P := s.P 5 i
  let (k, reported) := s.restartRef i
  let (a, bad) := restartAxis P (periodSec s.frm.period) s.frm.frame.toNat (s.restartState im i)
    (tget none s.red.prevSmp i) (s.axSample i s.frm.frame.toNat) k reported (tget {} im.axes i)
  let s := s.setAxis i a
  if bad then { s with red := { s.red with nFault := satAdd 8 s.red.nFault 1 } }.raiseAx evTakeoverAxis i [] else s

/-- A zone of the image as it closes anew: its compensator and u_z, no estimate yet. -/
def restartZone (kf : F64) (z : Zone) : Zone :=
  { z with kf := kf, ran := false, has := false, uPrev := z.u, critDone := false, aband := false, trailDone := false, hold := false }

/-- Every slot of a branch axis has had its event in this frame. -/
def State.samplesIn (s : State) : Bool := s.shadowIds.all fun i => (s.node (s.axBranch i) (s.axPos i)).evDone

/-- RESTART_FRAME (R254): the axes start from the loaded image, once the frame's samples are in. LN axes start DISABLED (R260). -/
def execRestartFrame (s : State) : Out :=
  let r := s.red
  .next <| if s.frm.role ≠ .head ∨ !r.restartOn ∨ s.bridging ∨ s.frm.tickPend ∨ !r.loaded ∨ !s.samplesIn then s else
    match r.load with
    | none => s
    | some im =>
      let s := s.shadowIds.foldl (fun s i => s.restartOne im i) s
      let s := s.zoneIds.foldl (fun s z => s.setZone z (restartZone (s.zone z).kf (tget {} im.zones z))) s
      let gap := (s.frm.frame - r.gapFrom).toNat + 1
      { s with
        lines := tmap {} id im.lines, evt := { s.evt with derate := im.derate, under := im.react }
        red := { s.red with restartOn := false, gap := min gap 255, load := none, loaded := false, prevSmp := [] } }

/-! ## Snapshots and segments: the head (R242, R243, R248, R258) -/

/-- The state with which frame s + 1 begins, as an image of frame s. -/
def State.imageOf (s : State) (seq : W32) : Image :=
  let per := periodSec s.frm.period
  { seq := seq, snap := s.frm.frame, hash := s.net.hash, fw := s.cfg.fwVer, epoch := s.net.epoch, derate := s.evt.derate
    react := s.evt.under, stops := s.lineIds.foldl (fun t l => tset .none (s.pn 8 l 1) (s.line l).stop t) []
    lines := s.lines.map fun x => (x.1, x.2.nextFrame per)
    conns := ((List.range 64).filter fun c => s.scP c 0 == 1).foldl (fun t c => tset (0, 0) c ((s.conn c).tx, (s.conn c).rxSeq) t) []
    axes := s.axisIds.map fun i => (i, (s.axis i).nextFrame (s.frm.frame.toNat + 1))
    zones := s.zoneIds.map fun z => (z, (s.zone z).nextFrame) }

/-- The delta from the image of sequence base to a new one, both as this head lays them out; none where it would not be shorter
than the image, or empty. -/
def State.deltaFor (s : State) (base : W32) (im : Image) : Option (List Byte) :=
  let full := im.wire
  let d := deltaOf ({ im with seq := base, snap := s.red.peerFc }).wire full
  if d.isEmpty ∨ full.length ≤ d.length then none else some d

/-- The frame's kernels are at their end: no instance of a kernel is pending. -/
def State.kernelsDone (s : State) : Bool :=
  s.dsp.tasks.all fun x => x.2.st == .idle || !(x.2.cls == .trailing || x.2.cls == .critical)

/-- A snapshot is taken: a delta against what the standby's last return held, else the full image. -/
def State.takeSnapshot (s : State) (final : Bool) : State :=
  let r := s.red
  let seq := r.seq + 1
  let im := s.imageOf seq
  let full := segsOf (imageSize s.axisIds.length s.zoneIds.length)
  let d := if !final && r.peerOn && !r.peerHealth.getLsbD 2 then s.deltaFor r.peerSeq im else none
  let n := match d with
    | some d => segsOf d.length
    | none => full
  { s with red := { r with
      seq := seq, out := some im, outNext := 0, outN := n, outBase := if d.isSome then r.peerSeq else seq
      outBaseFc := r.peerFc, outFinal := final
      nseg := min n 255, snapAt := some s.frm.frame, yTries := if final then 1 else r.yTries
      shFor := if seq.toNat % 64 = 0 then some (s.frm.frame + 1) else r.shFor
      outShSeq := if seq.toNat % 64 = 0 then seq else r.outShSeq
      outShFc := if seq.toNat % 64 = 0 then s.frm.frame else r.outShFc } }

/-- SNAPSHOT (R242): the end of the frame's trailing kernels; the final image of a yield is taken in frame j (R258). -/
def execSnapshot (s : State) : Out :=
  let r := s.red
  let final : Bool := r.ystate == 1 && r.yTries == 0
  .next <| if !s.isHead ∨ !s.paired ∨ r.restartOn ∨ s.frm.tickPend ∨ r.snapAt = some s.frm.frame ∨ !s.kernelsDone then s
    else if final then s.takeSnapshot true
    else if s.frm.frame.toNat % s.pn 14 0 3 ≠ 0 then s
    else if (r.out.isSome && decide (r.outNext < r.outN)) || r.ystate == 1 || r.ystate == 2 then
      { s with red := { r with skip := satAdd 4 r.skip 1, snapAt := some s.frm.frame } }
    else s.takeSnapshot false

/-- The data of the image in transfer: the delta, or the image itself. -/
def State.outData (s : State) (im : Image) : List Byte :=
  if s.red.outBase = im.seq then im.wire else deltaOf ({ im with seq := s.red.outBase, snap := s.red.outBaseFc }).wire im.wire

/-- Segment no of the image in transfer, and of the shadow record. -/
def State.imageSeg (s : State) (im : Image) : Segment :=
  let r := s.red
  { bytes := s.firnFrame 9 s.frm.frame.toNat false
      (segPayload im.seq r.outBase im.snap r.outNext r.outN r.outFinal false (s.outData im))
    img := if r.outNext + 1 = r.outN then some im else none, shRec := [] }
def State.shadowSeg (s : State) : Segment :=
  let r := s.red
  { bytes := s.firnFrame 9 s.frm.frame.toNat false
      (segPayload r.outShSeq r.outShSeq r.outShFc r.outShNext r.outShN false true (shadowBytes r.outShSeq (shadowLen s.axisIds.length)))
    img := none, shRec := if r.outShNext + 1 = r.outShN then r.outSh else [] }

/-- The next segment and whether it is a shadow record's. A shadow record follows the last segment of its image and goes before
the next image, which waits for it; only a final image goes before everything else (R248, R258). -/
def State.nextSeg (s : State) : Option (Segment × Bool) :=
  let r := s.red
  let sh : Option (Segment × Bool) := if r.outShNext < r.outShN then some (s.shadowSeg, true) else none
  match r.out with
  | some im =>
    if r.outNext < r.outN ∧ (r.outFinal ∨ im.seq = r.outShSeq) then some (s.imageSeg im, false)
    else if sh.isSome then sh
    else if r.outNext < r.outN ∧ r.shFor.isNone then some (s.imageSeg im, false)
    else none
  | none => sh

/-- FIRN_SEGMENT_SEND (R240, R243): no segment starts whose last byte would fall after the next T0. -/
def execFirnSegmentSend (s : State) : Out :=
  .next <| if !s.isHead ∨ !s.paired then s else
    match s.nextSeg with
    | none => s
    | some (g, shadow) =>
      let t := max s.frm.now s.red.firnFree
      if s.nextT0 < t + segWire * s.tB then s else
      let s := (s.goto t).pulseX 0x26
      let r := { s.red with segTx := some g, firnFree := t + segSlot * s.tB }
      { s with red := if shadow then { r with outShNext := r.outShNext + 1 } else { r with outNext := r.outNext + 1 } }

/-! ## Segments and returns: the standby (R243, R244) -/

/-- The buffer that does not hold the newest valid image takes an image; it becomes the newest if its sequence is higher. -/
def Red.store (r : Red) (i : Image) : Red :=
  let up : Bool := match r.newest with
    | none => true
    | some n => seqAbove i.seq n.seq
  let r' := if r.newest1 then { r with buf0 := some i } else { r with buf1 := some i }
  { r' with newest1 := if up then !r.newest1 else r.newest1 }

/-- The buffer in which the next image is built holds no valid image meanwhile. -/
def Red.openBuf (r : Red) : Red := if r.newest1 then { r with buf0 := none } else { r with buf1 := none }

/-- A segment of an image enters the assembly. -/
def Red.assemble (r : Red) (g : Segment) : Red :=
  if g.segno = 0 then
    { r.openBuf with asmSeq := g.seq, segNext := 1, segBad := false, asm := g.data,
                     asmHold := g.base == g.seq || (r.newest.map (·.seq)) == some g.base, nseg := min g.nseg 255 }
  else if g.seq = r.asmSeq ∧ g.segno = r.segNext then { r with segNext := r.segNext + 1, asm := r.asm ++ g.data }
  else { r with asmSeq := g.seq, segBad := true }

/-- The image the assembled data make: themselves, or the base with the runs applied. -/
def Red.built (r : Red) (g : Segment) : List Byte :=
  if g.base = g.seq then r.asm else applyRuns r.asm.length r.asm ((r.newest.map (·.bytes)).getD [])

/-- RESULT of an image after its last segment (R244). -/
def Red.result (r : Red) (g : Segment) : Nat :=
  if !r.asmHold then 2 else if r.segBad || !imgCrcOk (r.built g) || g.img.isNone then 1 else 0

/-- A segment of a shadow record; the last of an unbroken sequence brings the record. -/
def Red.shadowIn (r : Red) (g : Segment) : Red :=
  let fit : Bool := g.segno == 0 || (g.seq == r.shSeq && g.segno == r.shNext)
  let r := { r with shSeq := g.seq, shNext := if fit then g.segno + 1 else 0 }
  if fit ∧ g.segno + 1 = g.nseg then
    { r with shRec := g.shRec, shImg := if r.newest.map (·.seq) = some g.seq then r.newest else none }
  else r

/-- FIRN_SEGMENT_RECEIVED (R243): the last segment decides the image. A frame that is no whole segment is not received. -/
def execFirnSegmentReceived (seg : Segment) (t : Nat) (s : State) : Out :=
  .next <| if s.frm.role ≠ .standby ∨ !s.frm.run ∨ !seg.whole then s else
    let s := (s.goto (t + segWire * s.tB)).pulseX 0x26
    if seg.shadow then { s with red := s.red.shadowIn seg }
    else
      let r := s.red.assemble seg
      let s := { s with red := r }
      if seg.segno + 1 ≠ seg.nseg then s else
      let res := r.result seg
      let s := s.healthBit 9 (res != 0)
      let bs := r.built seg
      let r := { s.red with retDue := some (seg.seq, res), crcFail := satAdd 8 s.red.crcFail (b2n (res != 0)), segBad := true, asm := [] }
      match seg.img with
      | some i => { s with red := if res = 0 then r.store (Image.received seg.seq seg.snap bs i) else r }
      | none => { s with red := r }

/-- RETURN_SEND (R244). -/
def execReturnSend (s : State) : Out :=
  .next <| if s.frm.role ≠ .standby ∨ !s.frm.run then s else
    match s.red.retDue with
    | none => s
    | some (seq, res) =>
      let fc : W48 := (s.red.newest.map (·.snap)).getD 0
      let f := s.firnFrame 0xB s.frm.frame.toNat true
        (beBytes 4 seq.toNat ++ [BitVec.ofNat 8 res, 0] ++ beBytes 4 s.newestSeq.toNat ++ beBytes 4 s.health.toNat ++ beBytes 6 fc.toNat)
      { s with red := { s.red with retDue := none, firnTx := s.red.firnTx ++ [f],
                                   baseMiss := satAdd 8 s.red.baseMiss (b2n (res == 2)) } }

/-- One parameter entry takes effect: its value and what follows from it at once: k_f of a new ZONE.T_FILT, the outcome of a new
FIO.DIR, LSYNC driven low (R29, R107, R317). -/
def State.applyEntry (s : State) (e : Nat × W64) : State :=
  let c := keyClass e.1
  let i := keyInst e.1
  let n := keyItem e.1
  let s := s.setPar c i n e.2
  if c = 10 ∧ n = 0 then s.setFch i ((s.fch i).dirWritten (e.2 == 1))
  else if c = 6 ∧ n = 7 then s.setZone i { s.zone i with kf := zoneKf (s.P 6 i) (periodSec s.frm.period) }
  else if c = 1 ∧ n = 8 ∧ e.2 = 0 then { s with frm := { s.frm with lsync := false } }
  else s

/-- PARAMETER_RECORD_RECEIVED: its entries, a 64-bit value as two of one key (log 32). -/
def applyEntries : List (Nat × Nat) → State → State
  | [], s => s
  | [(k, v)], s => s.applyEntry (k, BitVec.ofNat 64 v)
  | (k, lo) :: (k', hi) :: r, s =>
    if wideParam k && k == k' then applyEntries r (s.applyEntry (k, BitVec.ofNat 64 (lo + hi * 2 ^ 32)))
    else applyEntries ((k', hi) :: r) (s.applyEntry (k, BitVec.ofNat 64 lo))

/-- PARAMETER_RECORD_RECEIVED (R244). An image holds no parameter, so none ages with it. -/
def execParameterRecordReceived (bytes : List Byte) (t : Nat) (s : State) : Out :=
  .next <| if s.frm.role ≠ .standby ∨ !s.frm.run then s else
    let s := s.goto (t + wireB bytes * s.tB)
    let h := frameHdr bytes
    if intact bytes false && h.ty == 0xA && !h.dir then applyEntries (paramEntries bytes) s else s

/-! ## Returns at the head (R246, R258, R259) -/

/-- The final image's answer: Y is named, or the image is sent again, up to three times in all. -/
def State.yieldAnswer (s : State) (seq : W32) (res : Nat) : State :=
  let r := s.red
  if r.ystate ≠ 1 ∨ r.yTries = 0 ∨ seq ≠ r.seq then s
  else if res = 0 then { s with red := { r with ystate := 2, yfc := s.frm.frame + BitVec.ofNat 48 (s.pn 14 0 4) } }
  else if r.yTries < 3 then { s with red := { r with yTries := r.yTries + 1, outNext := 0 } }
  else s

/-- RETURN_RECEIVED (R246). -/
def execReturnReceived (bytes : List Byte) (t : Nat) (s : State) : Out :=
  .next <| if !s.isHead ∨ !s.paired then s else
    let s := s.goto (t + wireB bytes * s.tB)
    let h := frameHdr bytes
    if !(intact bytes false && h.ty == 0xB && h.dir) then s else
    let res := beAt bytes 26 1
    let health : W32 := BitVec.ofNat 32 (beAt bytes 32 4)
    let was := s.red.fit
    let fit : Bool := health == 0
    let s := { s with red := { s.red with
        peerOn := true, peerHealth := health, peerSeq := BitVec.ofNat 32 (beAt bytes 28 4), peerFc := BitVec.ofNat 48 (beAt bytes 36 6)
        retFrame := s.frm.frame, firnOk := true, lostRep := false, fit := fit
        baseMiss := satAdd 8 s.red.baseMiss (b2n (res == 2)) } }
    let s := if was ∧ !fit then s.raiseDev evStandbyUnfit [] else s
    s.yieldAnswer (BitVec.ofNat 32 (beAt bytes 22 4)) res

/-- FIRN_RETURN_TIMEOUT (R246): no return within 2·RED.N_FIRN frames. -/
def execFirnReturnTimeout (s : State) : Out :=
  let r := s.red
  .next <| if !s.isHead ∨ !s.paired ∨ r.lostRep ∨ s.frm.frame.toNat < r.retFrame.toNat + 2 * s.pn 14 0 3 then s else
    let s := { s with red := { r with fit := false, firnOk := false, lostRep := true } }
    let s := if r.fit then s.raiseDev evStandbyUnfit [] else s
    s.raiseDev evFirnLost []

/-! ## Self-tests of the standby (R247, R248) -/

/-- GOLDEN_VECTOR_TEST: a bit of the operand for each lane group that agreed with the stored results. -/
def execGoldenVectorTest (pass : Byte) (s : State) : Out :=
  .next <| if s.frm.role = .standby then s.healthBit 0 (pass != 0xFF) else s

/-- SRAM_SCRUB_PASS: the operand tells that the pass met no uncorrectable error. -/
def execSramScrubPass (ok : Bool) (s : State) : Out :=
  .next <| if s.frm.role = .standby then s.healthBit 1 (!ok) else s

/-- LOOPBACK_TEST of one port. -/
def execLoopbackTest (b : Fin 8) (ok : Bool) (s : State) : Out :=
  let m : Byte := BitVec.ofNat 8 (2 ^ b.val)
  .next <| if s.frm.role = .standby then
    { s with red := { s.red with loopFail := if ok then s.red.loopFail &&& ~~~m else s.red.loopFail ||| m } }
  else s

/-- The shadow computation of one axis agrees with its record; a record without a valid command has no outputs to compare. -/
def State.shadowAgrees (s : State) (im : Image) (i : Nat) (x : ShadowAx) : Bool :=
  let ty := s.axType i
  let a := tget {} im.axes i
  let I : CritIn :=
    { per := periodSec s.frm.period, udcLsb := fWiden ⟨BitVec.ofNat 32 (s.nodePar (s.axBranch i) (s.axPos i) 8)⟩, udcRaw := x.udc
      smp := x.smp, derated := bitOf im.derate.toNat (s.axGroup i), ol := (s.setAxis i a).olVec i
      frame := im.snap.toNat + 1, sent := true, rest := true }
  let (a', xs) := servoCrit (s.P 5 i) ty I a
  let fin := (critNumbers a'.fb a'.lp ++ xs).all fFinite
  let l := a'.lp
  let k0 := if ty = 3 then fNarrow l.wCmd else l.kref0
  let k1 := if ty = 3 then fNarrow l.tauFf else l.kref1
  !x.valid || (fin && l.dA == x.dA && l.dB == x.dB && l.dC == x.dC && k0 == x.k0 && k1 == x.k1)

/-- SHADOW_COMPUTATION (R248): frame s + 1 from the image and the recorded inputs. -/
def execShadowComputation (s : State) : Out :=
  .next <| match s.red.shImg with
    | none => s
    | some im =>
      if s.frm.role ≠ .standby then s else
      let ok := s.red.shRec.all fun x => s.shadowAgrees im x.1 x.2
      let s := s.healthBit 3 (!ok)
      { s with red := { s.red with shRuns := satAdd 16 s.red.shRuns 1, shFails := satAdd 16 s.red.shFails (b2n (!ok)),
                                   shRec := [], shImg := none } }

/-! ## Yield (R258, R259) -/

/-- YIELD_SILENCE (R258): the yielded head transmits nothing from T0(Y). -/
def execYieldSilence (s : State) : Out :=
  .next <| if s.isHead ∧ s.red.ystate = 2 ∧ s.frm.frame = s.red.yfc then s.leaveHead else s

/-- YIELD_TIMEOUT (R259): no OK within 4·RED.N_FIRN frames of j. -/
def execYieldTimeout (s : State) : Out :=
  let r := s.red
  .next <| if s.isHead ∧ r.ystate = 1 ∧ r.yieldJ.toNat + 4 * s.pn 14 0 3 ≤ s.frm.frame.toNat then
    { s with red := { r with yldPend := false, ystate := 3, outFinal := false } }.raiseDev evYieldFail []
  else s

end Sys2Proof.Machine
end

