-- ==== Sys2Proof/Machine/BaseRime.lean ====
section
/-! DEFINITION. Flash slots, the start and the end of a base configuration, boot, lifecycle, keys, and the requests of the base
and rime chapter (R404 to R423, R441, R442, R449, R495). -/

namespace Sys2Proof.Machine

/-! ## DEV_INFO (R422) -/

/-- The answer of DEV_INFO, 76 bytes. -/
def State.devInfo (s : State) : List Byte :=
  let c := s.cfg
  let run (n v : Nat) : List Byte := leBytes n (if c.running then v else 0)
  leBytes 4 c.fwVer.toNat ++ leBytes 4 c.fwKcd.toNat ++ leBytes 1 c.fwSlot ++ leBytes 1 c.lcy ++
  leBytes 2 (b2n c.cfgKey.isSome + 2 * b2n c.safeKey.isSome) ++ leBytes 8 Config.headId.toNat ++
  leBytes 1 c.cfgSlot ++ leBytes 1 c.cfgState ++ leBytes 2 c.reason ++ run 4 c.hash.toNat ++
  (if c.running then beBytes 32 c.digest.toNat else List.replicate 32 0) ++
  leBytes 4 (if s.saf.setOk then s.saf.setCrc.toNat else 0) ++
  leBytes 2 (s.pn 16 0 0) ++ leBytes 1 (s.pn 16 0 1) ++ [0] ++ leBytes 6 (s.pn 16 0 2) ++ [0, 0]

/-- DEV_INFO. -/
def execDevInfo (s : State) : Out :=
  .next <| s.serve 0x0002 fun s m j =>
    if s.reqLen j ≠ 0 then s.answer m j stBadLen 0 [] else s.answer m j stOk 0 s.devInfo

/-! ## Overlays (R416) -/

/-- OVL_APPLY: the slot is copied and decided at the next boundary, or the request is refused at once. -/
def execOvlApply (s : State) : Out :=
  .next <| s.serve 0x0040 fun s m j =>
    let k := s.pay j 0 1
    if s.reqLen j ≠ 2 then s.answer m j stBadLen 0 []
    else if 16 ≤ k ∨ 2 ≤ s.pay j 1 1 then s.answer m j stBadValue 0 []
    else if !s.cfg.running ∨ s.frm.role = .standby ∨ 4 ≤ s.pwr.stage then s.answer m j stBadState 0 []
    else
      match s.ovlSt k with
      | .empty => s.answer m j stBadSig 0 []
      | .invalid => s.answer m j stBadSig 0 []
      | .other => s.answer m j stBadValue 0 []
      | .valid => s.setTaken { mbx := m, buf := j, subs := s.ovlImage k, ready := true }

/-! ## CFG_WRITE (R410, R411) -/

/-- Flash offset and size of a slot code. -/
def slotSpace (c : Nat) : Option (Nat × Nat) :=
  if c < 2 then some (baseSlotAt c, 0x00800000)
  else if c < 4 then some (0x00400000 + 0x00800000 * (c - 2), 0x00800000)
  else if 16 ≤ c ∧ c < 32 then some (ovlSlotAt (c - 16), 0x10000)
  else none

/-- The slot is the running firmware's, or the running configuration's. -/
def State.slotRuns (s : State) (c : Nat) : Bool :=
  (s.cfg.fwOn && c == s.cfg.fwSlot + 2) || (s.cfg.running && c == s.cfg.cfgSlot)

/-- Contents of firmware slot f. -/
def State.fwImage (s : State) (f : Nat) : List Byte := s.flashBytes (0x00400000 + 0x00800000 * f) 0x00800000

/-- LENGTH in the header of a slot, where its header gives one. -/
def State.slotLength (s : State) (c : Nat) : Option Nat :=
  if c < 2 then imgLength (s.flashBytes (baseSlotAt c) 12)
  else if c < 4 then some (Config.fwLength (s.fwImage (c - 2)))
  else some (leNat (s.flashBytes (ovlSlotAt (c - 16) + 8) 4))

/-- The bytes written have reached LENGTH: the slot is checked and the result shown. -/
def State.slotVerify (s : State) (c : Nat) : State :=
  if c < 2 then (if s.refuse c = 0 then s else { s with cfg := { s.cfg with reason := s.refuse c } })
  else if c < 4 then s
  else s.ovlShow (c - 16)

/-- n data bytes stand at offset off of a slot; old is what had been written. -/
def State.slotStored (s : State) (c off : Nat) (d : List Byte) : State :=
  match slotSpace c with
  | none => s
  | some (a, _) =>
    let s := { s with cfg := { s.cfg with
        flash := mwrite flashByte s.cfg.flash (a + off) d
        slots := tset {} c { next := off + d.length, wrote := true } s.cfg.slots } }
    match s.slotLength c with
    | some n => if off < n ∧ n ≤ off + d.length then s.slotVerify c else s
    | none => s

/-- CFG_WRITE. -/
def execCfgWrite (s : State) : Out :=
  .next <| s.serve 0x0041 fun s m j =>
    let c := s.pay j 0 1
    let off := s.pay j 1 4
    let n := s.reqLen j - 5
    let w := tget {} s.cfg.slots c
    if s.reqLen j < 9 ∨ 493 < s.reqLen j ∨ n % 4 ≠ 0 then s.answer m j stBadLen 0 []
    else match slotSpace c with
      | none => s.answer m j stBadValue 0 []
      | some (_, size) =>
        if size < off + n then s.answer m j stBadValue 0 []
        else if s.slotRuns c ∨ s.cfg.erasing.isSome then s.answer m j stBadState 0 []
        else if off = 0 then
          -- the answer follows the erase and the write
          { s with cfg := { s.cfg with erasing := some (c, s.bufBytes j 21 n, j), slots := tset {} c {} s.cfg.slots } }
        else if !w.wrote ∨ off ≠ w.next then s.answer m j stBadValue 0 []
        else (s.slotStored c off (s.bufBytes j 21 n)).answer m j stOk 0 []

/-- A slot is erased; an overlay slot shows it. -/
def State.slotErase (s : State) (c : Nat) : State :=
  match slotSpace c with
  | none => s
  | some (a, size) =>
    let s := { s with cfg := { s.cfg with flash := merase s.cfg.flash a size } }
    if 16 ≤ c then s.ovlShow (c - 16) else s

/-- FLASH_WRITE_COMPLETE (R411): erase and first write are complete, and the answer is posted. -/
def execFlashWriteComplete (s : State) : Out :=
  .next <| match s.cfg.erasing with
    | none => s
    | some (c, d, j) =>
      let m := (s.mbxOf j).getD 0
      let s := { s with cfg := { s.cfg with erasing := none } }
      ((s.slotErase c).slotStored c 0 d).answer m j stOk 0 []

/-! ## The end of a configuration (R412, R449, R453) -/

/-- What a configuration's end or a reset leaves of the running state: nothing runs, no role, no values. -/
def State.clearRun (s : State) : State :=
  let s := { (s.discardHead.setRole .none) with params := [], cams := [], lines := [], axes := [], zones := [] }
  { s with
    frm := { s.frm with run := false, tickPend := false, tsync := false, first := true, period := 0, lsync := false, lslock := false, lsEdge := none }
    net := { s.net with cs := .idle, joins := [], hash := 0, epoch := 0, calve := false }
    evt := { s.evt with matrix := [] }
    cfg := { s.cfg with running := false, cfgState := 0, hash := 0, endAt := none } }

/-- The running configuration ends: the capture stops, kernels stop, every ledger but LG_MBX and LG_ENC closes, and a head sends
a SAFE order. -/
def State.endConfig (s : State) : State :=
  let s := if s.frm.role = .head then { s with fio := { s.fio with order := true, hold := true } } else s
  let s := if s.cap.st.runs ∨ s.cap.startAt then s.capHalt (if s.cap.st.runs then .stopped else s.cap.st) else s
  let s := ((s.stopKernels).closeLedgers [1, 2, 3, 4, 6, 7] 3).dropSseq
  s.clearRun

/-- A base slot is activated: the boot record prefers it. -/
def State.activate (s : State) (k : Nat) : State :=
  { s with cfg := { s.cfg with prefBase := k, cfgSlot := k } }

/-- The configuration ends now, and slot k is to start. -/
def State.switchTo (s : State) (k : Nat) : State :=
  let s := if s.cfg.running then s.endConfig else s
  { s with cfg := { s.cfg with startReq := some k } }

/-- CFG_ACTIVATE is taken where the slot it names meets p. -/
def State.serveSlot (s : State) (p : Nat → Bool) (f : State → Nat → Nat → State) : State :=
  match s.nextReq with
  | some (m, j) => if s.reqOp j = 0x0042 ∧ p (s.pay j 0 1) then f (s.take m j true) m j else s
  | none => s

/-- CFG_ACTIVATE of a base slot (R412). A head decides it at the boundary. -/
def execCfgActivate (s : State) : Out :=
  .next <| s.serveSlot (fun k => k != 2 && k != 3) fun s m j =>
    let k := s.pay j 0 1
    if s.reqLen j ≠ 1 then s.answer m j stBadLen 0 []
    else if 2 ≤ k then s.answer m j stBadValue 0 []
    else if s.refuse k ≠ 0 then
      let r := s.refuse k
      let s := ({ s with cfg := { s.cfg with reason := r } }).raiseDev evCfgRefused []
      s.answer m j (if r = 1 then stBadSig else stBadValue) 0 []
    else if s.frm.run ∧ s.frm.role = .head then s
    else if s.frm.run ∧ s.cfg.running then
      let s := s.activate k
      { s with cfg := { s.cfg with endAt := some k } }.answer m j stOk s.effNext []
    else ((s.activate k).switchTo k).answer m j stOk 0 []

/-- CFG_ACTIVATE of a firmware slot (R413): verified, and preferred from the next reset. -/
def execFirmwareActivate (s : State) : Out :=
  .next <| s.serveSlot (fun k => k == 2 || k == 3) fun s m j =>
    let k := s.pay j 0 1
    if s.reqLen j ≠ 1 then s.answer m j stBadLen 0 []
    else if !Config.fwSigOk (s.fwImage (k - 2)) then s.answer m j stBadSig 0 []
    else { s with cfg := { s.cfg with prefFw := k - 2 } }.answer m j stOk 0 []

/-! ## Keys and lifecycle (R420, R421) -/

/-- KEY_PROVISION. -/
def execKeyProvision (s : State) : Out :=
  .next <| s.serve 0x0043 fun s m j =>
    let kind := s.pay j 0 1
    let d := Config.sha256 (s.bufBytes j 17 64)
    if s.reqLen j ≠ 65 then s.answer m j stBadLen 0 []
    else if 2 ≤ kind then s.answer m j stBadValue 0 []
    else if s.cfg.lcy ≠ 1 then s.answer m j stBadState 0 []
    else if kind = 0 then
      if s.cfg.cfgKey.isSome then s.answer m j stBadState 0 [] else { s with cfg := { s.cfg with cfgKey := some d } }.answer m j stOk 0 []
    else
      if s.cfg.safeKey.isSome then s.answer m j stBadState 0 [] else { s with cfg := { s.cfg with safeKey := some d } }.answer m j stOk 0 []

/-- Every axis is DISABLED or FAULT (R412, R421). -/
def State.axesIdle (s : State) : Bool := s.axes.all fun x => x.2.st == .disabled || x.2.st == .fault

/-- Both base slots, every overlay slot and both safety-set slots are erased. -/
def State.wipe (s : State) : State :=
  let s := ([0, 1] ++ (List.range 16).map (· + 16)).foldl (fun (s : State) (c : Nat) => s.slotErase c) s
  { s with cfg := { s.cfg with flash := merase s.cfg.flash 0x02500000 0x00100000 } }

/-- LIFECYCLE: the state moves forward at the next reset. -/
def execLifecycle (s : State) : Out :=
  .next <| s.serve 0x0044 fun s m j =>
    let t := s.pay j 0 1
    if s.reqLen j ≠ 5 then s.answer m j stBadLen 0 []
    else if t ≠ s.cfg.lcy + 1 ∨ 3 < t ∨ s.pay j 1 4 ≠ Config.headId.toNat % 2 ^ 32 then s.answer m j stBadValue 0 []
    else if !s.axesIdle ∨ !s.allSto ∨ (t = 2 ∧ (s.cfg.cfgKey.isNone ∨ s.cfg.safeKey.isNone)) then s.answer m j stBadState 0 []
    else
      let s := if t = 3 then s.wipe else s
      { s with cfg := { s.cfg with lcyNext := some t } }.answer m j stOk 0 []

/-! ## Boot (R413, R438, R441, R442) -/

/-- Firmware slot f runs, or the recovery service. -/
def State.runFw (s : State) (f : Option Nat) : State :=
  match f with
  | some k => { s with cfg := { s.cfg with fwOn := true, fwSlot := k, fwVer := Config.fwVersion (s.fwImage k), fwKcd := Config.fwKcd (s.fwImage k) } }
  | none => { s with cfg := { s.cfg with fwOn := true, fwSlot := 255, fwVer := 0, fwKcd := 0 } }

/-- The firmware slot the boot ROM starts: the preferred one, the other one, or none. -/
def State.bootSlot (s : State) : Option Nat :=
  let p := s.cfg.prefFw
  if s.pwr.boot = 2 then none
  else if Config.fwSigOk (s.fwImage p) then some p
  else if Config.fwSigOk (s.fwImage (1 - p)) then some (1 - p)
  else none

/-- BOOT_START: the PLLs have locked (R442), and the boot ROM starts firmware or its recovery service; firmware writes the closures that the last reset left in
retention and the reset record, and will load the preferred base slot. -/
def execBootStart (s : State) : Out :=
  .next <| if !s.pwr.up ∨ s.cfg.fwOn then s else
    let f := s.bootSlot
    let s := { s with pwr := { s.pwr with clk := 0x7F } }.runFw f
    if f.isNone then s else
    let s := if f ≠ some s.cfg.prefFw then s.raiseDev evFwFallback [] else s
    let s := s.retentionClosures.log 3 0 0 s.pwr.cause.toNat []
    { s with cfg := { s.cfg with startReq := if s.pwr.boot = 1 then none else some s.cfg.prefBase } }

/-! ## The start of a configuration (R87, R191, R210, R217, R221, R395, R408, R424, R449, R495) -/

/-- The descriptor of a kernel, and of the frame-bound thread of FPn (log 33). -/
def kernelTask (crit : Bool) (obj d dep : Nat) (succ : List Nat) : Task :=
  { cls := if crit then .critical else .trailing, level := if crit then 0 else 1, depInit := dep, obj := BitVec.ofNat 16 obj
    entry := Config.kernelEntry d, period := if crit then 1 else 0, succ := succ }
def frameThread (n : Nat) : Task :=
  { cls := .thread, level := 2, affin := n, entry := Config.kernelEntry (640 + n), period := 1 }

/-- The slot key an axis's feedback comes with. -/
def State.slotKey (s : State) (i : Nat) : Nat := if s.isLn i then 256 else s.axNode i

/-- The keys a zone kernel is bound to. -/
def State.zoneKeys (s : State) (z : Nat) : List Nat := [s.slotKey (s.pn 6 z 1), s.slotKey (s.pn 6 z 2)].eraseDups

/-- The descriptors and bindings of the configuration. -/
def State.writeTasks (s : State) : State :=
  let put (t : Tbl Task) (d : Nat) (x : Task) : Tbl Task := tset {} d x t
  let bind (t : Tbl (List Nat)) (k d : Nat) : Tbl (List Nat) := tmod [] k (· ++ [d]) t
  let tasks := (List.range 4).foldl (fun t n => put t (640 + n) (frameThread n)) []
  let tasks := s.axisIds.foldl (fun t i =>
    put (put t (dAxCrit i) (kernelTask true i (dAxCrit i) 1 [dAxTrail i])) (dAxTrail i) (kernelTask false i (dAxTrail i) 1 [])) tasks
  let tasks := s.zoneIds.foldl (fun t z =>
    put (put t (dZnCrit z) (kernelTask true z (dZnCrit z) (s.zoneKeys z).length [dZnTrail z])) (dZnTrail z)
      (kernelTask false z (dZnTrail z) 1 [])) tasks
  let b := s.axisIds.foldl (fun t i => bind t (s.slotKey i) (dAxCrit i)) []
  let b := s.zoneIds.foldl (fun t z => (s.zoneKeys z).foldl (fun t k => bind t k (dZnCrit z)) t) b
  { s with dsp := { s.dsp with
      tasks := tasks, bind := b, ready := [], lanes := [], running := [], delays := [], gate := false, gateFrame := 0, fwOvr := 0, merged := 0 } }

/-- Step channels and encoder inputs begin anew with their totals; an ABZ count goes on from its ledger's terms (log 6). -/
def StepCh.restart (c : StepCh) : StepCh :=
  { handed := c.handed, fwd := c.fwd, bwd := c.bwd, wdrn := c.wdrn, lastPulse := c.lastPulse, dirAt := c.dirAt,
    dirFwd := c.dirFwd, latch := c.latch, lastQ := (c.fwd - c.bwd) * one32 }
def Enc.restart (e : Enc) : Enc := { e with ext := e.up - e.down, lastLatch := e.c, latch := e.c, recent := [], ssiBusy := false, ssiHas := false }

/-- A field channel takes the direction of the configuration (log 13). -/
def FioCh.redirect (dir : Bool) (x : FioCh) : FioCh :=
  let x := { x with thcnt := 0 }
  if x.st = .powerUp ∨ x.coupOut = dir then x
  else { x with st := if dir then .output else .input, coupOut := dir, inv := !dir, cmd := false, sw := false, drv := false, revBusy := false }

/-- The values of a line image come into force. -/
def State.takeImage (s : State) (img : List Byte) : State :=
  let s := { s with params := imgParams img, cams := [], camStg := []
                    evt := { s.evt with matrix := imgMatrix ((imgSect img 3).getD []), due := [], dueLater := [], dueNow := [], under := [], derate := 0, clrDer := 0 } }
  let cams := ((imgSect img 5).bind fun bs => imgCams bs 64).getD []
  { s with cams := cams.foldl (fun t x => tset {} x.1 (camOf x.2) t) [], frm := { s.frm with period := s.pn 1 0 0 } }

/-- The role the configuration gives the part: a node of another head, or head-role, by coldstart (R8, R191, R210). -/
def State.cfgNode (s : State) (digest : BitVec 256) : Bool :=
  let a := nodeKey (s.pn 2 0 16) (s.pn 2 0 17)
  s.pn 14 0 0 == 0 && Config.nodeRole digest && (List.range 128).any fun j => s.pn 4 j 11 == 1 && s.pn 4 j 0 == a

/-- RATE of a port that is on (R153, R190): NET.RATE selects the one PCS of all ports; 0 while the port is off. -/
def State.rateCode (s : State) : Nat := if s.pn 2 0 0 = 1 then 2 else 1

/-- A port is held in reset or released. -/
def Port.enable (on : Bool) (rate : Nat) (p : Port) : Port :=
  { p with phyOn := on, link := p.link && on, sync := p.sync && on, rate := if on then rate else 0 }

/-- The ports of the role are enabled (R154, R191, R210). -/
def State.enablePorts (s : State) (node : Bool) : State :=
  let s := (List.range 8).foldl (fun s b => s.setPort b ((s.port b).enable (if node then b < 2 else s.pn 3 b 0 == 1) s.rateCode)) s
  { s with net := { s.net with firn := s.net.firn.enable (!node && s.paired) s.rateCode } }

/-- What a configuration finds on the network: no node known, no head obeyed, every counter zero (R190), LG_CRED's terms going on;
while the schedule hash stays the same, the path trims stay in force (R203). -/
def Branch.restart (b : Branch) : Branch :=
  { crIssued := b.crIssued, crUsed := b.crUsed, crLate := b.crLate, crCorrupt := b.crCorrupt, crEmpty := b.crEmpty }
def Node.restart (n : Node) : Node := { trim := n.trim, trimLim := n.trimLim }
def State.netStart (s : State) (node : Bool) : State :=
  let n := s.net
  let br := tmap {} Branch.restart n.br
  let same := n.hash == s.cfg.hash
  { s with net := { n with
      nodes := if same then tmap {} Node.restart n.nodes else [], br := br, epoch := 0, calve := false, hash := s.cfg.hash, cs := if node then .node else .idle, csSeen := false, seenBr := 0
      joins := if same then tmap {} Join.fresh n.joins else [], obeyId := 0, obeyEpoch := 0, phErr := [], hashMm := 0, rate := [], resync := []
      orient := none, orientNext := none, noDyn := false, muteTo := 0, rep := [], kref := [], krefNext := [], nrole := {}, slotFin := 0 } }

/-- The host side: empty output buffers, the watchdog not armed, the decimation in force (R388, R395, R401). -/
def State.hostStart (s : State) : State :=
  { s with host := { s.host with
      piActive := 0, piHost := 2, piPend := none, committed := false, hrdy := true, po := [], piWr := [], feed := {}
      piDecim := s.pn 0 0 19, wdArmed := false, wdRun := false, wdCnt := 0 } }

/-- Capture, field IO, step channels and encoder inputs at a configuration's start. -/
def State.ioStart (s : State) : State :=
  let s := (List.range 32).foldl (fun s c => s.setFch c ((s.fch c).redirect (s.pn 10 c 0 == 1))) s
  let s := (List.range 4).foldl (fun s d => s.setDie d { s.die d with hkErr := 0 }) s
  let s := (List.range 16).foldl (fun s c => s.setStep c (s.step_ c).restart) s
  let s := (List.range 8).foldl (fun s e => s.setEnc e (s.enc e).restart) s
  { s with cap := { s.cap with recno := 0, repoch := 0, nForced := 0, nEarly := 0, startAt := false }, fio := { s.fio with acked := false } }

/-- A part that passes the checks runs the image of slot k. -/
def State.startConfig (s : State) (k : Nat) : State :=
  let img := s.baseImage k
  let d := imgDigest img
  let s := s.takeImage img
  let node := s.cfgNode d
  let s := { s with cfg := { s.cfg with
      running := true, cfgSlot := k, cfgState := 1, hash := crc32 (imgSched img), digest := d, startReq := none, endAt := none }
                    red := { far := s.pn 14 0 0 == 1 && s.par 14 0 2 == Config.headId, changes := s.red.changes, tkFc := s.red.tkFc } }
  let s := s.setRole (if node then .node else .head)
  let s := { s with frm := { s.frm with
      run := false, tsync := false, tickPend := false, first := true, frame := 0, lsync := s.frm.lsync && s.pn 1 0 8 == 1, slewRem := 0
      series := 0, seriesDone := false, critOvr := false } }
  let s := ((((s.initAxes.writeTasks).netStart node).enablePorts node).hostStart).ioStart
  let s := (if node then [3, 4, 6] else [1, 2, 3, 4, 6]).foldl (fun s l => s.openLedger l) s
  (List.range 16).foldl (fun s o => s.ovlShow o) s

/-- A refused image (R412, R413): no configuration runs. -/
def State.refuseConfig (s : State) (k r : Nat) : State :=
  { s with cfg := { s.cfg with startReq := none, cfgSlot := k, cfgState := 2, reason := r } }.raiseDev evCfgRefused []

/-- BASE_CONFIG_START: at service level SL2, the base slot that boot or an activation names is checked and started. -/
def execBaseConfigStart (s : State) : Out :=
  .next <| match s.cfg.startReq with
    | none => s
    | some k =>
      if !s.pwr.up ∨ !s.fullService ∨ s.cfg.running then s
      else if s.refuse k = 0 then s.startConfig k
      else s.refuseConfig k (s.refuse k)

end Sys2Proof.Machine
end

