-- ==== Sys2Proof/Machine/Counters.lean ====
section
/-! DEFINITION. Commands on the performance counters: overflow, reads and loads, enables, freezing, configuration, bandwidth
windows, tagging, and the PRF registers (R358 to R372). -/

namespace Sys2Proof.Machine

/-! ## Programmable counters (R362 to R365) -/

def State.pc (s : State) (k : Nat) : Pc := tget {} s.prf.pcs k
def State.setPc (s : State) (k : Nat) (p : Pc) : State := { s with prf := { s.prf with pcs := tset {} k p s.prf.pcs } }

/-- A count passed 2^48 − 1. -/
def pcTop : Nat := 2 ^ 48

/-- COUNTER_OVERFLOW: an addition carried. -/
def execCounterOverflow (k : Fin 8) (s : State) : Out :=
  let p := s.pc k
  .next <| if pcTop ≤ p.cnt then s.setPc k { p with cnt := p.cnt - pcTop, ovf := true, ovfn := satAdd 8 p.ovfn 1 } else s

/-- PRF_CYC_LO: latches PRF_CYC_HI. -/
def execPrfCycLo (s : State) : Out :=
  let v := BitVec.ofNat 64 s.prf.cyc
  let s := s.hostWord (lo32 v)
  .next { s with prf := { s.prf with cycHi := hi32 v } }

/-- PRF_CNTk_LO: latches bits [47:32] and OVFN. -/
def execPrfCntLo (k : Fin 8) (s : State) : Out :=
  let p := s.pc k
  let s := s.hostWord (BitVec.ofNat 32 p.cnt)
  .next (s.setPc k { p with hiL := BitVec.ofNat 16 (p.cnt / 2 ^ 32), ovfnL := p.ovfn })

/-- A load: the increment of its cycle is discarded, with its carry (R364). -/
def State.pcLoad (s : State) (k : Nat) : State :=
  let p := s.pc k
  let q := s.pcCycles 1 k
  let carry : Bool := decide (p.cnt < pcTop) && decide (pcTop ≤ q.cnt)
  s.setPc k { p with cnt := s.prf.setLo.toNat + s.prf.setHi.toNat * 2 ^ 32, ovfn := 0, ovf := p.ovf || decide (pcTop ≤ p.cnt),
                     ovfAtWr := p.ovfAtWr || carry }

/-- PRF_SETCMD. -/
def execPrfSetcmd (v : W32) (s : State) : Out :=
  .next (((List.range 8).filter fun k => v.getLsbD k).foldl State.pcLoad s.hostWrite)

/-- The event's present value stands for v(c − 1) of a counter that begins to count. -/
def State.pcPrev (s : State) (p : Pc) : Pc := { p with prev := prfOccCode p.event && s.occ p.event != 0 }

/-- PRF_CTRL. -/
def execPrfCtrl (v : W32) (s : State) : Out :=
  let s := s.hostWrite
  let en : Byte := v.setWidth 8
  let frz := v.getLsbD 8
  let starts (k : Nat) : Bool := en.getLsbD k && (!s.prf.en.getLsbD k || (s.prf.frz && !frz))
  let s := ((List.range 8).filter starts).foldl (fun s k => s.setPc k (s.pcPrev (s.pc k))) s
  .next { s with prf := { s.prf with en := en, frz := frz } }

/-- PRF_CFGk: in the first cycle after a change of EVENT or MODE, Edge mode adds nothing. -/
def execPrfCfg (k : Fin 8) (v : W32) (s : State) : Out :=
  let s := s.hostWrite
  let p := s.pc k
  let ev := bitsOf v.toNat 0 7
  let md := bitsOf v.toNat 7 2
  .next (s.setPc k { p with event := ev, mode := md, thresh := bitsOf v.toNat 16 16,
                            fresh := p.fresh || ev != p.event || md != p.mode })

/-! ## Bandwidth monitors (R366, R367) -/

/-- BW_WINDOW_END: the next multiple of the window length in force. -/
def execBwWindowEnd (m : Fin 10) (s : State) : Out :=
  .next <|
    let b := tget {} s.prf.bw m.val
    let len := usT b.win
    let e := (b.endAt / len + 1) * len
    let s := s.goto e
    let b := tget {} s.prf.bw m.val
    let calv : Bool := 1 ≤ s.pwr.stage
    let win := s.pn 13 0 m
    let n : W32 := BitVec.ofNat 32 (min (b.now + (if m.val = 9 then Config.dramUnits b.cnt.toNat else 0)) 0xFFFFFFFF)
    let b := if calv || b.skip then { b with skip := calv }
      else { b with last := n, min := if n < b.min then n else b.min, max := if b.max < n then n else b.max, cnt := b.cnt + 1 }
    let b := if win = b.win then b else { b with win := win, min := 0xFFFFFFFF, max := 0 }
    { s with prf := { s.prf with bw := tset {} m.val { b with now := 0, part := 0, endAt := e } s.prf.bw } }

/-- PRF_BWm_MIN or PRF_BWm_MAX: returned and reset. -/
def execPrfBwMinmax (m : Fin 10) (hi : Bool) (s : State) : Out :=
  let b := tget {} s.prf.bw m.val
  let s := s.hostWord (if hi then b.max else b.min)
  let b := tget {} s.prf.bw m.val
  .next { s with prf := { s.prf with bw := tset {} m.val (if hi then { b with max := 0 } else { b with min := 0xFFFFFFFF }) s.prf.bw } }

/-! ## Tagging (R368 to R370) -/

/-- PRF_TAGCTL: EN rising seeds the LFSR, loads the countdown and zeroes the positions. -/
def execPrfTagctl (v : W32) (s : State) : Out :=
  let s := s.hostWrite
  let p := { s.prf with tagN := bitsOf v.toNat 16 16, tagCls := bitsOf v.toNat 2 2, tagFrz := v.getLsbD 1, tagEn := v.getLsbD 0 }
  let p := if v.getLsbD 0 ∧ !s.prf.tagEn then
      { p with lfsr := if p.seed = 0 then 1 else p.seed, tagPtr := 0, tagWraps := 0, tagLost := 0 : Prf }.tagReload
    else p
  .next { s with prf := p }

/-- PRF_TAGD0: word 0 of entry IDX; words 1 to 7 are latched and IDX advances. -/
def execPrfTagd0 (s : State) : Out :=
  let e := tget [] s.prf.tags s.prf.tagIdx
  let w (k : Nat) : W32 := (e[k]?).getD 0
  let s := s.hostWord (w 0)
  .next { s with prf := { s.prf with tagD := (List.range 7).map fun k => w (k + 1), tagIdx := (s.prf.tagIdx + 1) % 256 } }

/-! ## PRF registers (R372) -/

/-- A bit of each counter. -/
def State.pcBits (s : State) (f : Pc → Bool) : Nat := ((List.range 8).map fun k => if f (s.pc k) then 2 ^ k else 0).sum

/-- The PRF block, by offset from its base. -/
def State.prfReg (s : State) (o : Nat) : Option W32 :=
  let p := s.prf
  if o = 0x00 then some (wordOf [(p.en.toNat, 0), (b2n p.frz, 8)])
  else if o = 0x04 then some (wordOf [(b2n s.prfFrozen, 0), (b2n (decide (1 ≤ s.pwr.stage)), 1)])
  else if o = 0x08 then some (BitVec.ofNat 32 p.cyc)
  else if o = 0x0C then some p.cycHi
  else if o = 0x10 then some (wordOf [(s.pcBits (·.ovf), 0), (s.pcBits (·.ovfAtWr), 8)])
  else if o = 0x14 then some p.setLo
  else if o = 0x18 then some (p.setHi.setWidth 32)
  else if o = 0x1C then some 0
  else if 0x40 ≤ o ∧ o < 0xC0 then
    let c := s.pc ((o - 0x40) / 16)
    if o % 16 = 0 then some (wordOf [(c.event, 0), (c.mode, 7), (c.thresh, 16)])
    else if o % 16 = 4 then some (BitVec.ofNat 32 c.cnt)
    else if o % 16 = 8 then some (wordOf [(c.hiL.toNat, 0), (c.ovfnL, 24)])
    else none
  else if 0x100 ≤ o ∧ o < 0x1A0 ∧ o % 4 = 0 then
    let b := tget {} p.bw ((o - 0x100) / 16)
    some (if o % 16 = 0 then b.last else if o % 16 = 4 then b.min else if o % 16 = 8 then b.max else b.cnt)
  else if o = 0x200 then some (wordOf [(b2n p.tagEn, 0), (b2n p.tagFrz, 1), (p.tagCls, 2), (p.tagN, 16)])
  else if o = 0x204 then some p.seed
  else if o = 0x208 then some (wordOf [(p.tagPtr, 0), (p.tagWraps, 8)])
  else if o = 0x20C then some p.tagLost
  else if o = 0x210 then some (BitVec.ofNat 32 p.tagIdx)
  else if o = 0x214 then some (((tget [] p.tags p.tagIdx)[0]?).getD 0)
  else if 0x218 ≤ o ∧ o < 0x234 ∧ o % 4 = 0 then some ((p.tagD[(o - 0x218) / 4]?).getD 0)
  else none

end Sys2Proof.Machine
end

