-- ==== Sys2Proof/Machine/Power.lean ====
section
/-! DEFINITION. Supplies, clocks, calving stages, service levels and the reset of the core die (R425 to R445). -/

namespace Sys2Proof.Machine

/-! ## Measurements (R429, R445) -/

/-- VMAIN is found at mv; VCORE is found at mv. -/
def State.seeVmain (s : State) (mv : Nat) : State :=
  let v := min mv 0xFFFF
  { s with pwr := { s.pwr with vmain := v, vmainMin := min s.pwr.vmainMin v } }
def State.seeVcore (s : State) (mv : Nat) : State :=
  let v := min mv 0xFFFF
  { s with pwr := { s.pwr with vcore := v, vcoreMin := min s.pwr.vcoreMin v } }

/-- DROOP_DETECT (R429): VCORE strictly below 0.770 V. -/
def execDroopDetect (mv : Nat) (s : State) : Out :=
  .next <| if !s.pwr.up then s else
    let s := s.seeVcore mv
    if 770 ≤ mv ∨ s.pwr.droop then s
    else { s with pwr := { s.pwr with droop := true, droopCnt := satInc s.pwr.droopCnt } }.pulse 0x21

/-- DROOP_CLEAR (R429). -/
def execDroopClear (mv : Nat) (s : State) : Out :=
  .next <| if !s.pwr.up then s else
    let s := s.seeVcore mv
    if mv < 770 then s else { s with pwr := { s.pwr with droop := false } }

/-! ## Power-up (R426, R436, R442) -/

/-- STANDBY_RAILS_UP: VMAIN has risen to 3.0 V from below. VSTBY had been down, so retention memory and die B's record are lost;
die B holds every group in STO. -/
def execStandbyRailsUp (s : State) : Out :=
  .next <| if s.pwr.rails then s else
    { s with
      pwr := { s.pwr with stby := true, below3 := true, bCnt := 0, bWhy := 0 }
      lgr := { s.lgr with ret := [], retOpen := 0, retFc := 0, retT := 0, retUse := false }
      saf := { b := {} } }

/-- RAIL_SEQUENCE_START: VMAIN at or above 4.10 V; the rails of orders 2 to 6 come up. -/
def execRailSequenceStart (s : State) : Out :=
  .next <| if s.pwr.rails ∨ !s.pwr.stby then s else { s with pwr := { s.pwr with rails := true, seq := true } }

/-- RESET_RELEASE: every rail in its window, RESET_N high, the references present. The straps are sampled, device time starts, a
requested lifecycle state is in force, and the core die reads die B's record. -/
def execResetRelease (hostsel : Bool) (boot : Fin 4) (vio : Nat) (s : State) : Out :=
  .next <| if s.pwr.up ∨ !s.pwr.rails ∨ s.pwr.below3 ∨ s.pwr.rst.isSome then s else
    { s with
      pwr := { s.pwr with up := true, seq := false, boot := boot, vio33 := decide (2500 ≤ vio), sl0cnt := s.pwr.bCnt, sl0why := s.pwr.bWhy }
      host := { s.host with hostsel := hostsel }
      cfg := { s.cfg with lcy := s.cfg.lcyNext.getD s.cfg.lcy, lcyNext := none }
      frm := { s.frm with now := 0 } }

/-- STARTUP_CHECKS_COMPLETE (R436): why is 0 where every check passed, or the reason for SL1. In SL1 port B0 receives. -/
def execStartupChecksComplete (why : Fin 5) (s : State) : Out :=
  .next <| if !s.pwr.up ∨ !s.cfg.fwOn ∨ s.cfg.fwSlot = 255 ∨ s.pwr.good then s else
    let s := { s with pwr := { s.pwr with sl := if why = 0 then 2 else 1, sl1why := why, good := true } }
    if why = 0 then s else s.setPort 0 ((s.port 0).enable true s.rateCode)

/-! ## Calving (R431 to R434) -/

/-- The threshold of stage k + 1 in mV. -/
def stageMv (k : Nat) : Nat := 4500 - 100 * k

/-- Stage 1 is entered: bandwidth windows in progress are discarded, and the link enters L1 if the host allows it. -/
def State.enterStage1 (s : State) : State :=
  let n := s.pwr.s1
  { s with
    pwr := { s.pwr with stage := 1, s1 := satAdd 8 n 1, l1 := s.host.hostsel && s.host.linkup && Config.aspmL1 n }
    prf := { s.prf with bw := (List.range 10).foldl (fun t m => tmod {} m (fun (b : Bw) => { b with skip := true }) t) s.prf.bw }
  }.raiseDev evCalve1 []

/-- Stage 2 is entered: the clock is held at 75 %, FP3 is gated. CALVE follows with the next grant map. -/
def State.enterStage2 (s : State) : State :=
  { s with pwr := { s.pwr with stage := 2, s2 := satAdd 8 s.pwr.s2 1, hold75 := true, holdN := 0, holdEnd := false, fp3Gated := true }
  }.raiseDev evCalve2 []

/-- Stage 3 is entered: E_max falls from now on. -/
def State.enterStage3 (s : State) : State :=
  { s with pwr := { s.pwr with stage := 3, s3 := satAdd 8 s.pwr.s3 1, s3From := some s.frm.now } }.raiseDev evCalve3 []

/-- Stages are entered in ascending order up to stage k (R431). -/
def State.enterTo (s : State) (k : Nat) : State :=
  let s := if s.pwr.stage < 1 ∧ 1 ≤ k then s.enterStage1 else s
  let s := if s.pwr.stage < 2 ∧ 2 ≤ k then s.enterStage2 else s
  if s.pwr.stage < 3 ∧ 3 ≤ k then s.enterStage3 else s

/-- CALVING_STAGE_ENTRY of stage k + 1: VMAIN strictly below its threshold. -/
def execCalvingStageEntry (k : Fin 3) (mv : Nat) (s : State) : Out :=
  .next <| if !s.pwr.up then s else
    let s := s.seeVmain mv
    if stageMv k ≤ mv then s else s.enterTo (k + 1)

/-- A yield in progress is abandoned (R434). -/
def State.dropYield (s : State) : State :=
  if s.red.ystate = 1 ∨ s.red.ystate = 2 then
    { s with red := { s.red with ystate := 0, yldPend := false, out := none, outNext := 0, outN := 0, outFinal := false } }
  else s

/-- The core die sends a SAFE order in the next housekeeping cycle (R330). -/
def State.safeOrder (s : State) : State := { s with fio := { s.fio with order := true, hold := true } }

/-- A reset of the core die is to follow with a cause; a reset whose commit is awaited gives way to one that allows none. -/
def State.beginReset (s : State) (cause : RstCause) (commit retention : Bool) : State :=
  if s.pwr.rst.isSome ∧ !s.pwr.commit then s
  else { s with pwr := { s.pwr with rst := some cause, commit := commit }, lgr := { s.lgr with retUse := s.lgr.retUse || retention } }

/-- CALVING_STAGE_4 (R434): the network falls silent from the next T0, SAFE order, STO of every group, ledgers closed, and a reset
once the fault log is committed. -/
def execCalvingStage4 (mv : Nat) (s : State) : Out :=
  .next <| if !s.pwr.up then s else
    let s := s.seeVmain mv
    if stageMv 3 ≤ mv ∨ s.pwr.stage = 4 then s else
    let s := s.enterTo 3
    let s := { s with pwr := { s.pwr with stage := 4 }, saf := { s.saf with stage4 := true } }.raiseDev evCalve4 []
    let s := s.dropYield.safeOrder
    let s := if s.cap.st.runs then s.capHalt .stopped else s
    (s.closeLedgers [0, 1, 2, 3, 4, 5, 6, 7] 1).beginReset .stage4 true false

/-- CALVING_STAGE_EXIT of stage k + 1: 1 ms at or above its threshold plus 0.10 V; deeper stages are left with it. Full clock
returns at the next tick. -/
def execCalvingStageExit (k : Fin 3) (mv : Nat) (s : State) : Out :=
  .next <| if !s.pwr.up then s else
    let s := s.seeVmain mv
    let p := s.pwr
    if mv < stageMv k + 100 ∨ p.stage ≤ k ∨ p.stage = 4 then s else
    { s with pwr := { p with
        stage := k, s3From := none, holdEnd := p.hold75 && s.frm.run && decide (k.val < 2)
        hold75 := p.hold75 && (s.frm.run || decide (2 ≤ k.val)), l1 := p.l1 && decide (1 ≤ k.val) } }

/-- DRAM_SELF_REFRESH (R432): in stage 2 and deeper, 2 µs without a request. -/
def execDramSelfRefresh (s : State) : Out :=
  .next <| if s.pwr.stage < 2 ∨ s.pwr.selfRef then s else
    let s := s.goto (s.pwr.dramLast + usT 2)
    { s with pwr := { s.pwr with selfRef := true } }

/-! ## VIO (R443) -/

/-- VIO_LOW: strictly below 85 % for 10 µs. -/
def execVioLow (s : State) : Out :=
  .next <| if s.pwr.viol ∨ !s.pwr.up then s else { s with pwr := { s.pwr with viol := true } }.raiseDev evVioLow []

/-- VIO_RESTORED. -/
def execVioRestored (s : State) : Out := .next { s with pwr := { s.pwr with viol := false } }

/-! ## Resets of the core die (R428, R437 to R440) -/

/-- POWER_ON_RESET: VMAIN rises through 4.10 V after having been below 3.0 V. -/
def execPowerOnReset (s : State) : Out :=
  .next <| if !s.pwr.below3 then s else
    { s with pwr := { s.pwr with rst := some .por, commit := false, below3 := false, bCnt := 0, bWhy := 0 } }

/-- BROWNOUT: VMAIN strictly below 4.00 V. A commit under way is cut short. -/
def execBrownout (s : State) : Out :=
  .next <| if !s.pwr.up then s else s.beginReset .brownout false (s.pwr.commit || decide (s.pwr.stage < 4))

/-- A reset that commits first: SAFE order, ledgers closed, the commit awaited where firmware runs. -/
def State.resetCommitted (s : State) (cause : RstCause) : State :=
  (s.safeOrder.closeLedgers [0, 1, 2, 3, 4, 5, 6, 7] Config.closeCause.toNat).beginReset cause s.cfg.fwOn false

/-- RESET_PIN: RESET_N low for at least 1 µs. -/
def execResetPin (s : State) : Out :=
  .next <| if !s.pwr.up ∨ s.pwr.rst.isSome then s else s.resetCommitted .pin

/-- PWR_RSTREQ: a write with its key. -/
def execPwrRstreq (v : W32) (s : State) : Out :=
  let s := s.hostWrite
  .next <| if v.toNat / 65536 ≠ 0x2A57 ∨ !s.pwr.up ∨ s.pwr.rst.isSome then s else s.resetCommitted .host

/-- FW_WATCHDOG_EXPIRY: FP0's hardware watchdog unserviced for 100 ms. -/
def execFwWatchdogExpiry (s : State) : Out := .next <| if s.pwr.up then s.beginReset .fwdog false true else s

/-- VCORE_FAULT: VCORE outside 0.76 to 0.84 V for 10 µs. -/
def execVcoreFault (mv : Nat) (s : State) : Out :=
  .next <| if !s.pwr.up then s else
    let s := s.seeVcore mv
    if 760 ≤ mv ∧ mv ≤ 840 then s else s.beginReset .vcore false true

/-- The PLLs that show unlocked: XIN missing, NET_REFCLK missing, PLL-C, PLL-M, the SerDes PLL unlocked. -/
def lostClocks (qspi : Bool) (c : Nat) : BitVec 7 :=
  if c = 0 then (if qspi then 0x0D else 0x05) else if c = 1 then 0x12 else if c = 2 then 0x01 else if c = 3 then 0x04 else 0x02

/-- CLOCK_LOSS. -/
def execClockLoss (c : Fin 5) (s : State) : Out :=
  .next <| if !s.pwr.up then s else
    { s with pwr := { s.pwr with clk := s.pwr.clk &&& ~~~(lostClocks (!s.host.hostsel) c) } }.beginReset .clock false true

/-- The bit of a cause in PWR_RSTCAUSE, and its code in die B's record. -/
def RstCause.bit : RstCause → BitVec 9
  | .por => 0x001
  | .brownout => 0x002
  | .stage4 => 0x004
  | .pin => 0x008
  | .vcore => 0x010
  | .clock => 0x020
  | .fwdog => 0x040
  | .host => 0x080
def RstCause.why : RstCause → Nat
  | .brownout => 1
  | .stage4 => 1
  | .vcore => 2
  | .clock => 3
  | _ => 4

/-- A field channel across a reset of the core die: its die keeps what it holds. -/
def FioCh.keepDie (x : FioCh) : FioCh :=
  { st := x.st, sw := x.sw, drv := x.drv, die := x.die, offSeen := x.offSeen, openIn := x.openIn, openOut := x.openOut, extIn := x.extIn,
    extOut := x.extOut, opening := x.opening, coupOut := x.coupOut, dSafe := x.dSafe, dRetry := x.dRetry, dOl := x.dOl }
def FioDie.keepDie (d : FioDie) : FioDie :=
  { refreshed := d.refreshed, silent := d.silent, safe := d.safe, latch := d.latch, held := d.held, uv := d.uv, low := d.low, first := d.first }

/-- The PMIC's and die B's part of the power state across a reset of the core die. -/
def Pwr.afterReset (p : Pwr) (c : RstCause) : Pwr :=
  { cause := if c = .por then 1 else p.cause ||| c.bit, bCnt := if c = .por then 0 else satAdd 8 p.bCnt 1, bWhy := if c = .por then 0 else c.why
    below3 := p.below3, stby := p.stby, vio33 := p.vio33, boot := p.boot, up := false, rails := false, good := false }

/-- The fault log in flash and retention memory survive; entries that were pending are lost (R434, R438, R455). -/
def Lgr.afterReset (g : Lgr) : Lgr :=
  { ret := g.ret, retOpen := g.retOpen, retFc := g.retFc, retT := g.retT, retUse := g.retUse, logFirst := g.logFirst, logRing := g.logRing,
    logSeq := g.logSeq - BitVec.ofNat 32 g.logPend.length, logUsed := g.logUsed, logHalf := g.logHalf }

/-- Flash, boot record, lifecycle and fused digests survive. -/
def Cfg.afterReset (c : Cfg) : Cfg :=
  { flash := c.flash, prefFw := c.prefFw, prefBase := c.prefBase, safeSlot := c.safeSlot, lcy := c.lcy, lcyNext := c.lcyNext
    cfgKey := c.cfgKey, safeKey := c.safeKey }

/-- CORE_DIE_RESET (R437, R439): the core die's state is at its reset values; the PMIC, die B, flash, retention and the field dies
keep theirs. Commands keep waiting. -/
def execCoreDieReset (s : State) : Out :=
  .next <| match s.pwr.rst with
    | none => s
    | some c =>
      if s.pwr.commit then s else
      { pending := s.pending, cfg := s.cfg.afterReset, lgr := s.lgr.afterReset, pwr := s.pwr.afterReset c
        saf := { b := s.saf.b }
        fio := { ch := (List.range 32).foldl (fun t k => tset {} k (s.fch k).keepDie t) []
                 dies := (List.range 4).foldl (fun t k => tset {} k (s.die k).keepDie t) [] }
        host := { hostsel := s.host.hostsel } }

/-! ## The PWR block (R445) -/

/-- PWR_VMAIN: returned, and MIN cleared. -/
def execPwrVmain (s : State) : Out :=
  let s := s.hostWord (wordOf [(s.pwr.vmain, 0), (s.pwr.vmainMin, 16)])
  .next { s with pwr := { s.pwr with vmainMin := 0xFFFF } }

/-- PWR_VCORE: returned, and MIN cleared. -/
def execPwrVcore (s : State) : Out :=
  let s := s.hostWord (wordOf [(s.pwr.vcore, 0), (s.pwr.vcoreMin, 16)])
  .next { s with pwr := { s.pwr with vcoreMin := 0xFFFF } }

/-- The PWR block, by offset from its base. STAGE shows at most 3. -/
def State.pwrReg (s : State) (o : Nat) : Option W32 :=
  let p := s.pwr
  if o = 0x00 then some (wordOf [(min p.stage 3, 0), (b2n p.limit, 6), (b2n p.hold75, 7), (p.sl, 8), (b2n p.vio33, 10), (b2n p.viol, 11)])
  else if o = 0x04 then some (wordOf [(p.vmain, 0), (p.vmainMin, 16)])
  else if o = 0x08 then some (wordOf [(p.vcore, 0), (p.vcoreMin, 16)])
  else if o = 0x0C then some p.droopCnt
  else if o = 0x10 then some p.limCnt
  else if o = 0x14 then some (wordOf [(p.s1, 0), (p.s2, 8), (p.s3, 16)])
  else if o = 0x18 then some (p.cause.setWidth 32)
  else if o = 0x1C then some 0
  else if o = 0x20 then some (wordOf [(b2n s.host.hostsel, 0), (p.boot, 1)])
  else if o = 0x24 then some (p.clk.setWidth 32)
  else if o = 0x28 then some (wordOf [(p.sl1why, 0), (p.sl0why, 4), (p.sl0cnt, 8)])
  else none

end Sys2Proof.Machine
end

