-- ==== Sys2Proof/Machine/Registers.lean ====
section
/-! DEFINITION. The register space of BAR0: reads and writes of the DSP block with effects of their own, the views of the DEV, MBX
and EVT blocks, the value any offset reads as, and a write to a register without a row of its own by its access codes
(R10, R190, R215, R230, R233, R313, R335, R357, R372, R374, R376, R398, R402, R445, R457). -/

namespace Sys2Proof.Machine

/-! ## DSP (R233) -/

/-- DSP_DESCIDX: the descriptor's words are latched. -/
def execDspDescidx (v : W32) (s : State) : Out :=
  let s := s.hostWrite
  let d := v.toNat % 1024
  let ws := (s.task d).words
  .next { s with dsp := { s.dsp with
    descIdx := d, desc := (List.range 8).foldl (fun t k => tset 0 k ((ws[k]?).getD 0) t) [] } }

/-- DSP_TRCCTL: EN rising zeroes WRPTR, WRAPS and DSP_TRCLOST. -/
def execDspTrcctl (v : W32) (s : State) : Out :=
  let s := s.hostWrite
  let d := { s.dsp with en := v.getLsbD 0, frz := v.getLsbD 1, lmask := BitVec.ofNat 8 (bitsOf v.toNat 8 8),
                        kmask := BitVec.ofNat 16 (bitsOf v.toNat 16 16) }
  .next { s with dsp := if v.getLsbD 0 && !s.dsp.en then { d with wrptr := 0, wraps := 0, lost := 0, trcNow := [] } else d }

/-- DSP_TRCD0: word 0 of entry IDX; words 1 to 3 are latched and IDX advances. -/
def execDspTrcd0 (s : State) : Out :=
  let e := tget [] s.dsp.trc s.dsp.idx
  let w (k : Nat) : W32 := (e[k]?).getD 0
  let s := s.hostWord (w 0)
  .next { s with dsp := { s.dsp with trcD := [w 1, w 2, w 3], idx := (s.dsp.idx + 1) % 4096 } }

/-- DSP_RDYDEP: MAX is cleared. -/
def execDspRdydep (l : Fin 8) (s : State) : Out :=
  let s := s.hostWord (wordOf [(s.levelDepth l.val, 0), (tget 0 s.dsp.maxDep l.val, 16)])
  .next { s with dsp := { s.dsp with maxDep := tset 0 l.val 0 s.dsp.maxDep } }

/-- DSP_PREEMPT: the four counts are cleared. -/
def execDspPreempt (s : State) : Out :=
  let p (k : Nat) : Nat := tget 0 s.dsp.preempt k
  let s := s.hostWord (wordOf [(p 0, 0), (p 1, 8), (p 2, 16), (p 3, 24)])
  .next { s with dsp := { s.dsp with preempt := [] } }

/-! ## Views of DEV, MBX and EVT (R402) -/

/-- The DEV block, by offset from its base. -/
def State.devReg (s : State) (o : Nat) : Option W32 :=
  let h := s.host
  if o = 0x00 then some (wordOf [(Config.step.toNat, 8), (0x0256, 16)])
  else if o = 0x04 then
    some (wordOf [(b2n h.hostsel, 0), (b2n (h.linkup || !h.hostsel), 1), (h.width, 2), (h.speed, 4), (if h.hostsel then 1 else 2, 6)])
  else if o = 0x08 then some 0
  else if o = 0x0C then
    some (wordOf [(s.wdLeft, 0), (h.wdCnt, 16), (b2n h.wdKey, 29), (b2n h.wdExp, 30), (b2n h.wdArmed, 31)])
  else none

/-- MBX_PISTAT. -/
def State.piStat (s : State) : W32 :=
  let h := s.host
  wordOf [(b2n h.hrdy, 0), (b2n h.piPend.isSome, 1), (b2n h.cmterr, 2), (b2n h.wrign, 3), (b2n h.committed, 4), (h.piSuper, 16)]

/-- A buffer word: VALID and BUF, or zero. -/
def bufWord (b : Option Nat) : W32 := match b with
  | some j => BitVec.ofNat 32 (2 ^ 31 + j)
  | none => 0

/-- The MBX block, by offset from its base. -/
def State.mbxReg (s : State) (o : Nat) : Option W32 :=
  let h := s.host
  if o = 0x00 then some (bufWord h.presented)
  else if o = 0x04 then some 0
  else if o = 0x08 then some (wordOf [(s.bufCount .free, 0), (s.bufCount .host, 16)])
  else if o = 0x0C then some h.poolB
  else if o = 0x10 then some (h.err.setWidth 32)
  else if o = 0x14 then
    some (BitVec.ofNat 32 ((List.range 32).map fun m => if (tget [] h.ans m).isEmpty then 0 else 2 ^ m).sum)
  else if o = 0x20 then some 0
  else if o = 0x24 then some s.piStat
  else if o = 0x28 then some (wordOf [(h.piFcnt.toNat, 0), (h.piLast, 30)])
  else if 0x100 ≤ o ∧ o < 0x200 ∧ o % 4 = 0 then
    some (if o % 8 = 0 then 0 else bufWord (tget [] h.ans ((o - 0x100) / 8)).head?)
  else none

/-- The EVT block, by offset from its base. -/
def State.evtReg (s : State) (o : Nat) : Option W32 :=
  let e := s.evt
  if o = 0x00 then some (e.istat.setWidth 32)
  else if o = 0x04 then some (e.imask.setWidth 32)
  else if o = 0x08 then some e.ivec
  else if o = 0x0C then some (wordOf [(e.wrptr, 0), (e.wraps, 12)])
  else if o = 0x10 then some e.lost
  else none

/-! ## The whole of BAR0 (R376) -/

/-- The FIO block with the safety mirrors and FIO_SFCSEL (R294, R313, R335). -/
def State.fioSafeReg (s : State) (o : Nat) : Option W32 :=
  let m (k : Nat) : W32 := tget 0 s.saf.mirror k
  if o < 0xC00 then s.fioReg o
  else if o = 0xC10 then some (~~~(m 4))
  else if o < 0xC1C ∧ o % 4 = 0 then some (m ((o - 0xC00) / 4))
  else if o = 0xC20 then some (m 7)
  else if o = 0xC24 then some (m 8)
  else if o = 0xC28 then some (BitVec.ofNat 32 s.saf.csel)
  else if 0xC2C ≤ o ∧ o < 0xC38 ∧ o % 4 = 0 then some (m (16 + 4 * s.saf.csel + (o - 0xC2C) / 4))
  else none

/-- The MSI-X table in PCIe mode: 8 vectors of four words (R374). -/
def State.msixReg (s : State) (o : Nat) : Option W32 :=
  if s.host.hostsel ∧ o < 0x80 ∧ o % 4 = 0 then some (tget 0 s.host.msix (o / 4)) else none

/-- The register at an offset of BAR0, where there is one. -/
def State.regAt (s : State) (o : Nat) : Option W32 :=
  if o < 0x400 then s.devReg o
  else if o < 0x800 then s.frmReg (o - 0x400)
  else if o < 0x1000 then s.mbxReg (o - 0x800)
  else if o < 0x1400 then s.evtReg (o - 0x1000)
  else if o < 0x1800 then s.lgrReg (o - 0x1400)
  else if o < 0x2000 then s.prfReg (o - 0x1800)
  else if o < 0x3000 then s.capReg (o - 0x2000)
  else if o < 0x4000 then s.dspReg (o - 0x3000)
  else if o < 0x5000 then s.fioSafeReg (o - 0x4000)
  else if o < 0x6000 then s.netReg (o - 0x5000)
  else if o < 0x7000 then s.pwrReg (o - 0x6000)
  else if o < 0x8000 then s.redReg (o - 0x7000)
  else if 0xE000 ≤ o ∧ o < 0xE800 then s.msixReg (o - 0xE000)
  else none

/-- What a read of BAR0 shows, effects of the read apart: offsets no chapter lists read as zero (R376). -/
def State.regRead (s : State) (o : Nat) : W32 := (s.regAt o).getD 0

/-! ## REGISTER_WRITE (R10) -/

/-- Write-1-to-clear of a flag by bit k. -/
def w1c (v : W32) (k : Nat) (x : Bool) : Bool := x && !v.getLsbD k

/-- The vectors, or IRQ_N, whose level rises from e to e' (R398): each sends a message in PCIe mode. -/
def Evt.relevel (pcie : Bool) (e e' : Evt) : Evt × Nat :=
  if pcie then
    (List.range 8).foldl (fun (x : Evt × Nat) v =>
      if vecLevel e' e'.istat v && !vecLevel e e.istat v then ({ x.1 with msgs := tmod 0 v (· + 1) x.1.msgs }, x.2 + 1) else x) (e', 0)
  else (e', if (e'.istat &&& e'.imask) != 0 && (e.istat &&& e.imask) == 0 then 1 else 0)

/-- The interrupt enables or routes become those of e. -/
def State.setEvt (s : State) (e : Evt) : State :=
  let (e', n) := Evt.relevel s.host.hostsel s.evt e
  { s with evt := e' }.pulseN 0x4C 3 n

/-- Writes in the DEV, FRM, MBX, EVT and LGR blocks. -/
def State.writeHost (s : State) (o : Nat) (v : W32) : State :=
  if o = 0x000C then { s with host := { s.host with wdKey := w1c v 29 s.host.wdKey, wdExp := w1c v 30 s.host.wdExp } }
  else if o = 0x0428 then { s with frm := { s.frm with ovr := s.frm.ovr &&& ~~~(v &&& 0xF1F) } }
  else if o = 0x0810 then { s with host := { s.host with err := s.host.err &&& ~~~(v.setWidth 4) } }
  else if o = 0x0824 then { s with host := { s.host with cmterr := w1c v 2 s.host.cmterr, wrign := w1c v 3 s.host.wrign } }
  else if o = 0x1004 then s.setEvt { s.evt with imask := v.setWidth 8 }
  else if o = 0x1008 then s.setEvt { s.evt with ivec := v &&& 0xFFFFFF }
  else if o = 0x1400 then { s with lgr := { s.lgr with brk := s.lgr.brk &&& ~~~(v.setWidth 8) } }
  else if o = 0x144C then
    (if v.getLsbD 31 then { s with lgr := { s.lgr with firstV := false, firstL := 0, firstDir := false, firstInst := 0 } } else s)
  else s

/-- W1C of PRF_OVF on counter k. -/
def Pc.clearOvf (v : W32) (k : Nat) (p : Pc) : Pc := { p with ovf := w1c v k p.ovf, ovfAtWr := w1c v (8 + k) p.ovfAtWr }

/-- Writes in the PRF, CAP and DSP blocks. -/
def State.writeCore (s : State) (o : Nat) (v : W32) : State :=
  if o = 0x1810 then
    { s with prf := { s.prf with pcs := (List.range 8).foldl (fun t k => tmod {} k (Pc.clearOvf v k) t) s.prf.pcs } }
  else if o = 0x1814 then { s with prf := { s.prf with setLo := v } }
  else if o = 0x1818 then { s with prf := { s.prf with setHi := v.setWidth 16 } }
  else if o = 0x1A04 then { s with prf := { s.prf with seed := v } }
  else if o = 0x1A10 then { s with prf := { s.prf with tagIdx := v.toNat % 256 } }
  else if o = 0x2000 then { s with cap := { s.cap with wrign := w1c v 16 s.cap.wrign } }
  else if o = 0x2020 then { s with cap := { s.cap with maskFail := w1c v 31 s.cap.maskFail } }
  else if o = 0x2030 then { s with cap := { s.cap with apBase := v.toNat % 4096 } }
  else if o = 0x3034 then { s with dsp := { s.dsp with fault := s.dsp.fault &&& ~~~(v.setWidth 3) } }
  else if o = 0x308C then { s with dsp := { s.dsp with idx := v.toNat % 4096 } }
  else s

/-- Writes in the FIO, NET and PWR blocks. -/
def State.writeIo (s : State) (o : Nat) (v : W32) : State :=
  if 0x4100 ≤ o ∧ o < 0x4180 ∧ o % 4 = 0 then
    let c := (o - 0x4100) / 4
    s.setFch c { s.fch c with sticky := (s.fch c).sticky &&& ~~~(BitVec.ofNat 5 (bitsOf v.toNat 8 5)) }
  else if o = 0x4C28 then { s with saf := { s.saf with csel := v.toNat % 64 } }
  else if 0x5000 ≤ o ∧ o < 0x5020 ∧ o % 4 = 0 then
    let b := (o - 0x5000) / 4
    s.setPort b { s.port b with pcsErr := w1c v 4 (s.port b).pcsErr }
  else if o = 0x5030 then { s with net := { s.net with sel := v.setWidth 8 } }
  else if o = 0x5070 then { s with net := { s.net with higher := w1c v 4 s.net.higher, ownSeen := w1c v 5 s.net.ownSeen } }
  else if o = 0x6018 then { s with pwr := { s.pwr with cause := s.pwr.cause &&& ~~~(v.setWidth 9) } }
  else if 0xE000 ≤ o ∧ o < 0xE080 ∧ o % 4 = 0 ∧ s.host.hostsel then
    { s with host := { s.host with msix := tset 0 ((o - 0xE000) / 4) v s.host.msix } }
  else s

/-- REGISTER_WRITE: only fields with an access code that a write acts on change; a register with a row of its own is not
written by this one. -/
def execRegisterWrite (off : Nat) (v : W32) (s : State) : Out :=
  let s := s.hostWrite
  .next <| if off < 0x1800 then s.writeHost off v else if off < 0x4000 then s.writeCore off v else s.writeIo off v

end Sys2Proof.Machine
end

