-- ==== Sys2Proof/Machine/Commands.lean ====
section
/-! DEFINITION. The commands decided at a frame boundary: the entries of AX_CMD, PARAM_WRITE, OVL_APPLY, and a head's CFG_ACTIVATE
of a base slot (R69, R72 to R74, R103, R104, R111, R113, R141, R385 to R387, R405, R412, R416 to R419). -/

namespace Sys2Proof.Machine

/-! ## Causes that keep an axis in FAULT (R69) -/

/-- A zone of axis i meets p. -/
def State.anyZone (s : State) (i : Nat) (p : Zone → Bool) : Bool :=
  s.zoneIds.any fun z => (s.pn 6 z 1 == i || s.pn 6 z 2 == i) && p (s.zone z)

/-- A safety group whose SG.AXGRP includes the axis's group meets p. -/
def State.anySafe (s : State) (i : Nat) (p : SGroup → Bool) : Bool :=
  (List.range 32).any fun g => bitOf (s.sgP g 5) (s.axGroup i) && p (s.sgrp g)

/-- A field channel whose FIO.GROUP includes the axis's group shows flag k. -/
def State.anyChFlag (s : State) (i k : Nat) : Bool :=
  (List.range 32).any fun c => (s.fioP c 5 == 255 || s.fioP c 5 == s.axGroup i) && (s.fch c).live.getLsbD k

/-- A field die meets p. -/
def State.anyDie (s : State) (p : FioDie → Bool) : Bool := (List.range 4).any fun d => p (s.die d)

/-- The raising condition of an event of the axis itself, or of its zones, its node or its branch's link, still holds. DESIGN CHOICE
(log 3): an event of another axis of its group is no cause of this axis. -/
def State.axCond (s : State) (code i : Nat) : Bool :=
  let a := s.axis i
  if code = evSatTime then a.lp.satRep != 0
  else if code = evFbLost then a.fb.predRep
  else if code = evFbFrozen then a.fb.frzRep
  else if code = evUdcLow then a.lp.udcLow
  else if code = evAdaptClamp then a.rf.clampS || a.rf.clampD
  else if code = evStepRate then a.mo.stepClamp
  else if code = evEncDev then a.mo.encDev
  else if code = evTrimClamp then a.rf.trimSat
  else if code = evDiaClamp then a.rf.diaMin || a.rf.diaMax
  else if code = evWebBreak then s.anyZone i (·.brkRep)
  else if code = evLcInvalid then s.anyZone i (·.lcRep)
  else if code = evNodeLost then !s.isLn i && !(s.node (s.axBranch i) (s.axPos i)).present
  else if code = evDlyTrim then !s.isLn i && (s.node (s.axBranch i) (s.axPos i)).trimLim
  else if code = evLinkDown then !s.isLn i && !(s.port (s.axBranch i)).sync
  else false

/-- The raising condition of an event of the field IO or of safety still holds. -/
def State.ioCond (s : State) (code i : Nat) : Bool :=
  if code = evFldLow then s.anyDie (·.low)
  else if code = evFldUv then s.anyDie (·.uv)
  else if code = evFldOff then s.anyDie (·.latch)
  else if code = evFioSilence then s.anyDie (·.silRep)
  else if code = evFioHklost then s.anyDie (·.hkLost)
  else if code = evFioOvercur then s.anyChFlag i 0
  else if code = evFioThermal then s.anyChFlag i 1
  else if code = evFioOpen then s.anyChFlag i 2
  else if code = evFioExthigh then s.anyChFlag i 3
  else if code = evFioReverse then s.anyChFlag i 4
  else if code = evSafeSs1 then s.anySafe i fun g => g.st == .ss1
  else if code = evSafeSls then s.anySafe i (·.slsRep)
  else if code = evSafeDisc ∨ code = evSafeTp then (List.range 8).any fun p => (s.spair p).latch
  else if code = evSafeOut then (List.range 4).any fun o => (s.sout o).fault
  else if code = evSafeChfault then s.saf.a.fault != .healthy || s.saf.b.fault != .healthy
  else if code = evSafeDegraded then s.saf.deg
  else if code = evSafeDegExp then s.saf.degExp
  else if code = evSafeConn then (List.range 64).any fun c => (s.conn c).fail
  else false

/-- The raising condition of an event of the part as a whole still holds. -/
def State.devCond (s : State) (code : Nat) : Bool :=
  if code = evOverrunSeries then s.frm.seriesDone
  else if code = evLsyncLost then 4 ≤ s.frm.lsMiss
  else if code = evStandbyUnfit then s.red.peerOn && !s.red.fit
  else if code = evFirnLost then s.red.lostRep
  else if code = evCalve1 then 1 ≤ s.pwr.stage
  else if code = evCalve2 then 2 ≤ s.pwr.stage
  else if code = evCalve3 then 3 ≤ s.pwr.stage
  else if code = evCalve4 then 4 ≤ s.pwr.stage
  else if code = evClkLimit then s.pwr.limit
  else if code = evVioLow then s.pwr.viol
  else if code = evHostLost then s.host.wdArmed && !s.host.wdRun
  else false

/-- A cause is active for axis i (R69). -/
def State.causeActive (s : State) (i : Nat) : Bool :=
  let a := s.axis i
  (s.axType i == 1 && a.fb.accN != 0 && flt a.fb.udc (parF (s.P 5 i) 513)) ||
  a.fb.est || a.fb.estLeft || s.anySafe i (fun g => g.st == .sto) || !s.saf.setOk ||
  evDefs.any fun e => s.reaction e.code (s.axGroup i) == 6 && (s.axCond e.code i || s.ioCond e.code i || s.devCond e.code)

/-! ## AX_CMD (R69, R387) -/

/-- One entry of an AX_CMD. -/
structure AxEnt where
  axis : Nat
  sub : Nat
  arg : Nat
  deriving DecidableEq, Repr

def State.axEnt (s : State) (j k : Nat) : AxEnt := ⟨s.pay j (4 + 4 * k) 2, s.pay j (6 + 4 * k) 1, s.pay j (7 + 4 * k) 1⟩

/-- The entry names an axis and a command. -/
def State.axNamed (s : State) (e : AxEnt) : Bool := e.axis < 256 && s.axType e.axis != 0 && 1 ≤ e.sub && e.sub < 12

/-- Homing starts (R141). -/
def Axis.home (a : Axis) : Axis :=
  { a with mo := { a.mo with homing := true, homePhase := 1, homeReq := 1, homeStall := 0, homeFrom := a.rf.int, homeFull := false } }

/-- D̂ becomes DIA.D_SET (R113). -/
def Axis.diaSet (d : F64) (a : Axis) : Axis := { a with rf := { a.rf with dia := d, diaMin := false, diaMax := false } }

/-- A one-shot run starts (R103). -/
def Axis.camStart (a : Axis) : Axis := { a with mo := { a.mo with camRun := true, camHold := false, camSync := 2, camDone := false } }

def f64nano : F64 := ⟨0x3E112E0BE826D695⟩  -- 1e-9

/-- s_0 of the new table differs from s_{N−1} of the old one by more than R104 allows. -/
def camMismatch (old new : CamTable) : Bool :=
  let s1 := (knotAt old (old.npts - 1)).s
  let d := fabs (fsub (knotAt new 0).s s1)
  if feq s1 F64.zero then flt f64nano d else flt (fmul f64c001 (fabs s1)) d

/-- CAM_SELECT: its status, and the axis with the request pending. -/
def State.camSelect (s : State) (i c : Nat) : Nat × Axis :=
  let a := s.axis i
  let old := s.cam (s.camInUse i)
  let new := s.cam c
  if 64 ≤ c ∨ new.npts = 0 ∨ !new.cyclic then (stBadValue, a)
  else if s.pn 5 i 900 ≠ 2 ∨ old.npts = 0 ∨ !old.cyclic then (stBadState, a)
  else if camMismatch old new then (stCamMismatch, a)
  else (stOk, { a with mo := { a.mo with camPend := some (c, s.frm.frame.toNat + 1) } })

/-- An axis may close: it has an accepted sample (R495), or none to accept. -/
def State.mayClose (s : State) (i : Nat) : Bool := s.axType i == 4 || (s.axis i).fb.accN != 0

/-- The status of an AX_CMD entry that names an axis and a command, and the axis after it. DESIGN CHOICES (log 3): OPEN in OPEN is
accepted whether or not the open-loop vector differs; CLOSE without an accepted sample is refused with BAD_STATE. -/
def State.axOne (s : State) (e : AxEnt) : Nat × Axis :=
  let i := e.axis
  let a := s.axis i
  let no := (stBadState, a)
  let prof : Bool := s.pn 5 i 900 == 0
  let held : Bool := a.st == .closed || a.st == .freeze
  match e.sub with
  | 1 => if a.st = .disabled then (stOk, a.toOpen) else no
  | 2 => if (a.st = .opn ∨ a.st = .freeze) ∧ s.mayClose i then (stOk, a.close) else no
  | 3 => if held then (stOk, a.toOpen) else if a.st = .opn then (stOk, a) else no
  | 4 => if a.st = .closed then (stOk, a.toFreeze) else no
  | 5 => if a.st = .fault then no else (stOk, a.toDisabled)
  | 6 => if a.st ≠ .fault then no else if s.causeActive i then (stCauseActive, a) else (stOk, a.toDisabled)
  | 7 => if held && prof then (stOk, a.toStop false .command) else no
  | 8 => if a.st = .closed ∧ prof then (stOk, a.home) else no
  | 9 => (stOk, a.diaSet (parF (s.P 5 i) 921))
  | 10 =>
    let t := s.cam (s.camInUse i)
    if a.st = .closed ∧ s.pn 5 i 900 = 2 ∧ t.npts ≠ 0 ∧ !t.cyclic then (stOk, a.camStart) else no
  | _ => s.camSelect i e.arg

/-- An entry is judged and, where accepted, carried out. -/
def State.axJudge (s : State) (e : AxEnt) : Nat × State :=
  if !s.axNamed e then (stBadValue, s)
  else if s.red.restartOn then (stBadState, s)
  else
    let (st, a) := s.axOne e
    (st, if st = stOk then s.setAxis e.axis a else s)

/-- Whether an entry is a DISABLE, which is applied before stop reactions (R70). -/
def AxEnt.first (e : AxEnt) : Bool := e.sub == 5

/-- The AX_CMDs of this boundary, in the order FP2 took them. -/
def State.axTaken (s : State) : List Taken := s.host.taken.filter fun t => t.ready && s.reqOp t.buf == 0x0020

/-- One pass over the entries of the boundary's AX_CMDs: those that meet p, their statuses kept by buffer · 64 + entry. -/
def State.axRun (s : State) (p : AxEnt → Bool) (st : Tbl Nat) : State × Tbl Nat :=
  s.axTaken.foldl (fun x t =>
    (List.range (s.pay t.buf 0 2)).foldl (fun (x : State × Tbl Nat) (k : Nat) =>
      let e := s.axEnt t.buf k
      if !p e then x else
      let (r, s') := x.1.axJudge e
      (s', tset 0 (t.buf * 64 + k) r x.2)) x) (s, st)

/-- The answers: one status byte per entry; FCNT_EFF is the boundary's frame where an entry was accepted. -/
def State.axAnswers (s : State) (st : Tbl Nat) : State :=
  s.axTaken.foldl (fun (s : State) (t : Taken) =>
    let r := (List.range (s.pay t.buf 0 2)).map fun k => tget 0 st (t.buf * 64 + k)
    s.answer t.mbx t.buf stOk (if r.contains stOk then s.frm.frame.toNat else 0) (r.map fun x => BitVec.ofNat 8 x)) s

/-! ## Parameter writes and overlays (R73, R74, R111, R386, R405, R417) -/

/-- The axis whose state decides a Loop-open key: the axis, or the one a step channel serves. -/
def State.loopAxis (s : State) (k : Nat) : Option Nat :=
  if keyClass k = 5 then some (keyInst k)
  else if s.pn 9 (keyInst k) 0 < 256 then some (s.pn 9 (keyInst k) 0)
  else none

/-- R73, and R74 where af: the axis state admits a coefficient write. -/
def State.loopAdmits (s : State) (af : Bool) (k : Nat) : Bool :=
  match s.loopAxis k with
  | none => true
  | some i => s.axType i == 0 || (s.axis i).st.loopOpen || (af && (s.axis i).st == .closed)

/-- R111: zone z counts as closed for the frame that begins, ZONE.EN being as L has it. -/
def State.zoneClosed (s : State) (L : PLook) (z : Nat) : Bool :=
  s.zoneDef z && L (pkey 6 z 0) == 1 && (s.axis (s.pn 6 z 1)).st.isClosed && (s.axis (s.pn 6 z 2)).st.isClosed && !(s.zone z).hold

/-- The status of the "Writable in" entry of a key (R405). -/
def State.wrStatus (s : State) (af : Bool) (L : PLook) (k : Nat) (w : WrIn) : Nat :=
  match w with
  | .base => stReadOnly
  | .safe => stReadOnly
  | .ro => stReadOnly
  | .any => stOk
  | .loop => if s.loopAdmits af k then stOk else stClosedLoop
  | .zone => if af || !s.zoneClosed L (keyInst k) then stOk else stClosedLoop
  | .capt => if s.cap.st.runs then stBadState else stOk
  | .fioq => if (s.fch (keyInst k)).st = .quiesced then stOk else stBadState

/-- A write to LF.DRAW of an axis whose group is under a stop reaction (R97). -/
def State.drawHeld (s : State) (k : Nat) : Bool :=
  keyClass k == 5 && keyItem k == 902 && tget 0 s.evt.under (s.axGroup (keyInst k)) != 0

/-- The status of one entry, with its fellows' values in L. -/
def State.entryStatus (s : State) (af : Bool) (L : PLook) (e : Nat × W64) : Nat :=
  let c := keyClass e.1
  let i := keyInst e.1
  let n := keyItem e.1
  if 2 ^ 24 ≤ e.1 then stBadKey else
  match paramRow c i n with
  | none => stBadKey
  | some r =>
    let st := s.wrStatus af L e.1 r.wr
    if st ≠ stOk then st else if s.drawHeld e.1 then stBadState else if valueOk L r c i n e.2 then stOk else stBadValue

/-- The first refused entry: its index and status. -/
def State.firstRefused (s : State) (af : Bool) (es : List (Nat × W64)) : Option (Nat × Nat) :=
  let L := lookIn (setRecords s.params es)
  (es.zipIdx.map fun x => (x.2, s.entryStatus af L x.1)).find? fun x => x.2 != stOk

/-- One entry takes effect at a head, with its place in the parameter record (R244). -/
def State.setEntry (s : State) (e : Nat × W64) : State :=
  let s := s.applyEntry e
  { s with red := { s.red with paramRec := s.red.paramRec ++ [e] } }

/-- The payload of a refusal. -/
def refusedPay (x : Nat × Nat) : List Byte := leBytes 2 x.1 ++ leBytes 2 x.2

/-- The entries of a PARAM_WRITE. -/
def State.writeEntries (s : State) (j : Nat) : List (Nat × W64) :=
  (List.range (s.pay j 0 2)).map fun k => (s.pay j (4 + 12 * k) 4, BitVec.ofNat 64 (s.pay j (8 + 12 * k) 8))

/-- A PARAM_WRITE is decided. -/
def State.decideWrite (s : State) (t : Taken) : State :=
  let es := s.writeEntries t.buf
  match s.firstRefused false es with
  | some x => s.answer t.mbx t.buf x.2 0 (refusedPay x)
  | none => ((es.foldl State.setEntry s).pulse 0x57).answer t.mbx t.buf stOk s.frm.frame.toNat []

/-- The frame of an auto-freeze on an axis (R74): the loop opens as FREEZE does, and closes at the next boundary. DESIGN CHOICE
(log 3): an axis that a CLOSE from OPEN has closed at this very boundary then closes from FREEZE, its generator left as it was. -/
def Axis.autoFreeze (a : Axis) : Axis :=
  if a.st = .closed then { a with st := .freeze, autoFz := true, reinit := false, fromOpen := false } else a

/-- The axes and zones whose coefficients an overlay changes are frozen, or held open, for this frame (R74, R111). -/
def State.autoFreeze (s : State) (es : List (Nat × W64)) : State :=
  es.foldl (fun s e =>
    match keyWr e.1 with
    | some .loop => (match s.loopAxis e.1 with
      | some i => s.setAxis i (s.axis i).autoFreeze
      | none => s)
    | some .zone => s.setZone (keyInst e.1) { s.zone (keyInst e.1) with hold := true }
    | _ => s) s

/-- The record of an applied overlay (R417, R424): its bit, its slot, its frame. -/
def State.ovlRecord (s : State) (k : Nat) : List (Nat × W64) :=
  [(pkey 16 0 0, s.par 16 0 0 ||| BitVec.ofNat 64 (2 ^ k)), (pkey 16 0 1, BitVec.ofNat 64 k),
   (pkey 16 0 2, BitVec.ofNat 64 s.frm.frame.toNat)]

/-- An overlay is decided (R417); its copy stands in the request. -/
def State.decideOvl (s : State) (t : Taken) : State :=
  let k := s.pay t.buf 0 1
  let af : Bool := s.pay t.buf 1 1 == 1
  let es := ovlEntries t.subs
  match s.firstRefused af es with
  | some x => s.answer t.mbx t.buf x.2 0 (refusedPay x)
  | none =>
    let s := if af then s.autoFreeze es else s
    let s := (es ++ s.ovlRecord k).foldl State.setEntry s
    ((s.pulse 0x56).raiseDev evOvlApplied []).answer t.mbx t.buf stOk s.frm.frame.toNat []

/-- A head's CFG_ACTIVATE of a base slot (R412): every axis must be DISABLED or FAULT. -/
def State.decideCfg (s : State) (t : Taken) : State :=
  let k := s.pay t.buf 0 1
  if s.axesIdle then ((s.activate k).answer t.mbx t.buf stOk s.frm.frame.toNat []).switchTo k
  else s.answer t.mbx t.buf stBadState 0 []

/-- One of them; none is admitted once the configuration has ended. -/
def State.decideOne (s : State) (t : Taken) : State :=
  if !s.frm.run then s.answer t.mbx t.buf stBadState 0 []
  else if s.reqOp t.buf = 0x0011 then s.decideWrite t
  else if s.reqOp t.buf = 0x0040 then s.decideOvl t
  else s.decideCfg t

/-- The parameter writes, overlays and activations of the boundary, in the order FP2 took them (R418). -/
def State.decideTaken (s : State) : State :=
  (s.host.taken.filter fun t => t.ready && atBoundary (s.reqOp t.buf) && s.reqOp t.buf != 0x0020).foldl State.decideOne s

end Sys2Proof.Machine
end

