-- ==== Sys2Proof/Machine/Tick.lean ====
section
/-! DEFINITION. The frame boundary, the sample instant and the apply instant, the keeper expiry of a node-role part, and the
input image (R13, R15, R69, R70, R74, R85, R86, R116, R143, R206, R211, R212, R219, R258, R320, R321, R390, R391, R394, R401, R448). -/

namespace Sys2Proof.Machine

/-! ## The images at the boundary (R391, R394, R401) -/

/-- The finite values of the ACTIVE buffer that the ended frame used are the ones last used (R496). -/
def State.imageUsed (s : State) : State :=
  let s' := s
  let s := s.axisIds.foldl (fun s i => s.setAxis i { s.axis i with rf := s'.useImage i (s.axis i).rf }) s
  let s := s.zoneIds.foldl (fun s z => s.setZone z { s.zone z with used := s'.imgUsed (poZone z) (s.zone z).used }) s
  s.lineIds.foldl (fun s l => s.setLine l { s.line l with used := (s'.imgUsed (poLine l) (some (s.line l).used)).getD f32zero }) s

/-- A PENDING buffer becomes ACTIVE (R394). -/
def State.takeOutput (s : State) : State :=
  match s.host.piPend with
  | none => s
  | some k => { s with host := { s.host with piPend := none, piActive := k, committed := true } }.irq 3

/-- HOST.PI_DECIM applies from a frame whose number is a multiple of the new value (R401). -/
def State.takeDecim (s : State) : State :=
  let k := s.pn 0 0 19
  if k ≠ 0 ∧ s.frm.frame.toNat % k = 0 then { s with host := { s.host with piDecim := k } } else s

/-- SEQ of an input buffer, incremented. -/
def State.seqInc (s : State) (b : Nat) : State :=
  let pin := tmod [] b (fun m => mwrite ramByte m 0 (leBytes 4 (leNat (mread ramByte m 0 4) + 1))) s.host.pin
  { s with host := { s.host with pin := pin } }

/-- The input image of a decimated frame begins: its buffer's SEQ becomes odd (R391). -/
def State.inputStart (s : State) : State :=
  let m := s.frm.frame.toNat
  let k := s.host.piDecim
  if k = 0 ∨ m % k ≠ 0 then s else
  let b := m / k % 3
  let s := s.seqInc b
  { s with host := { s.host with piWr := s.host.piWr ++ [(b, s.frm.frame)] } }

/-! ## The boundary's reactions (R69, R70, R85, R86, R116, R258) -/

/-- The highest severity of a set of them, k at most. -/
def topSev (m : Nat) : Nat → Nat
  | 0 => 0
  | k + 1 => if bitOf m (k + 1) then k + 1 else topSev m k

/-- The reaction that falls due on group g, the most severe (R86): HEAD_YIELD without a fit standby acts as LINE_STOP (R85). -/
def State.groupDue (s : State) (g : Nat) : Nat :=
  let m := tget 0 s.evt.dueNow g
  if bitOf m 7 then (if s.red.fit then 7 else topSev (m ||| 16) 6) else topSev m 6

/-- TORQUE_OFF and R38 (R70 item 1). -/
def State.applyFaults (s : State) : State :=
  s.mapAxes (fun i a => if a.nonfin || s.groupDue (s.axGroup i) == 6 then a.toFault else a) s.axisIds

/-- The kind of stop a severity asks for. -/
def stopOf (n : Nat) : StopKind := if n = 4 then .line else if n = 5 then .quick else .none

/-- A line axis of the group takes the stop, unless a more severe one acts on it (R116). -/
def Line.stopBy (k : StopKind) (l : Line) : Line := if l.stop.rank < k.rank then { l with stop := k } else l

/-- A stop reaction on a group (R70 item 3, R86, R116). -/
def State.stopGroup (s : State) (g : Nat) : State :=
  let d := s.groupDue g
  if d ≠ 4 ∧ d ≠ 5 then s else
  let e := max d (tget 0 s.evt.under g)
  let k := stopOf e
  let s := { s with evt := { s.evt with under := tset 0 g e s.evt.under } }
  let s := (s.lineIds.filter fun l => s.pn 8 l 1 == g).foldl (fun s l => s.setLine l ((s.line l).stopBy k)) s
  s.mapAxes (fun i a => a.stopReact (s.pn 5 i 900 != 0) k) (s.axisIds.filter fun i => s.axGroup i == g)

def State.stopGroups (s : State) : State := (List.range 32).foldl State.stopGroup s

/-- An auto-freeze ends: the axis closes again (R74). -/
def Axis.autoClose (a : Axis) : Axis := if a.autoFz && a.st == .freeze then a.close else { a with autoFz := false }

/-- Homing has failed: the axis stops by the profile stop (R143). -/
def Axis.homeFailStop (a : Axis) : Axis :=
  if a.mo.homePhase == 3 && a.st == .closed then a.toStop false .command else a

/-- DERATE reactions, then the groups a GRP_CLRDERATE clears (R85). -/
def State.derateGroups (s : State) : State :=
  let d : W32 := (List.range 32).foldl (fun (d : W32) (g : Nat) => if s.groupDue g = 3 then d ||| BitVec.ofNat 32 (2 ^ g) else d) s.evt.derate
  { s with evt := { s.evt with derate := d &&& ~~~s.evt.clrDer, clrDer := 0 } }

/-- A group's stop is complete: none of its axes is still stopping by a reaction and its line axes are at rest (R86, R116). -/
def State.stopOver (s : State) (g : Nat) : Bool :=
  (s.axisIds.all fun i => s.axGroup i != g || (s.axis i).st != .stopping || (s.axis i).stop == .command) &&
  (s.lineIds.all fun l => s.pn 8 l 1 != g || (feq (s.line l).pub.v F64.zero && feq (s.line l).own.v F64.zero))

/-- Completed group stops end; their line axes take setpoints again. -/
def State.endStops (s : State) : State :=
  (List.range 32).foldl (fun s g =>
    if tget 0 s.evt.under g = 0 ∨ !s.stopOver g then s else
    let s := { s with evt := { s.evt with under := tset 0 g 0 s.evt.under } }
    (s.lineIds.filter fun l => s.pn 8 l 1 == g).foldl (fun s l => s.setLine l { s.line l with stop := .none }) s) s

/-- A HEAD_YIELD reaction or the host's yield starts a handover to a fit standby (R258). -/
def State.startYield (s : State) : State :=
  let r := s.red
  let ask : Bool := r.yReq || (List.range 32).any fun g => s.groupDue g == 7
  let s := { s with red := { r with yReq := false } }
  if ask ∧ r.fit ∧ s.frm.role = .head ∧ r.ystate ≠ 1 ∧ r.ystate ≠ 2 then
    { s with red := { s.red with
        ystate := 1, yldPend := true, yieldJ := s.frm.frame, yTries := 0, out := none, outNext := 0, outN := 0 } }
  else s

/-! ## The head's boundary (R70) -/

/-- State of the ended frame moves on: references, plans, completed stops, zones, lines. -/
def State.shiftFrame (s : State) : State :=
  let per := periodSec s.frm.period
  let s := s.zoneIds.foldl (fun s z => s.setZone z { (s.zone z).nextFrame with hold := false }) s
  let s := s.mapAxes (fun _ a => a.nextFrame s.frm.frame.toNat) s.axisIds
  s.lineIds.foldl (fun s l => s.setLine l ((s.line l).nextFrame per)) s

/-- The commands and reactions on axes, in the order of R70. -/
def State.axisBoundary (s : State) : State :=
  let s := s.shiftFrame.applyFaults
  let (s, st) := s.axRun AxEnt.first []
  let s := s.stopGroups
  let s := s.mapAxes (fun _ a => a.autoClose.homeFailStop) s.axisIds
  let (s, st) := s.axRun (fun e => !e.first) st
  s.derateGroups.axAnswers st

/-- What a head's boundary does; while a restart is pending, reactions wait for the first boundary after it (log 11). -/
def State.headBoundary (s : State) : State :=
  if s.red.restartOn then
    let (s, st) := s.axRun (fun _ => true) []
    (s.axAnswers st).decideTaken
  else
    let s := s.axisBoundary.endStops.decideTaken
    if !s.frm.run then s else
    let s := s.startYield
    { s with evt := { s.evt with dueNow := [] } }

/-- The boundary of a part in another role: no axis of its own; a node-role part takes parameter writes and overlays. -/
def State.otherBoundary (s : State) : State :=
  let s := s.decideTaken
  { s with evt := { s.evt with dueNow := [], clrDer := 0 }, red := { s.red with yReq := false } }

/-! ## What a head sends besides (R211, R214, R395, R496) -/

/-- The downlink fields of node-role part r: each field of the image in network order; a run current that is not finite keeps
the value last used. -/
def State.procPayload (s : State) (r : Nat) : List Byte :=
  let f (o n : Nat) : List Byte := (s.poBytes (poNode r + o) n).reverse
  let cur (c : Nat) : F32 := s.imgF32 (poNode r + 14 + 16 * c) (some (tget f32zero s.net.nrole.usedCur (16 * r + c))) f32zero
  f 0 4 ++ ((List.range 16).map fun c =>
    f (4 + 16 * c) 8 ++ f (12 + 16 * c) 2 ++ beBytes 4 (cur c).bits.toNat ++ f (18 + 16 * c) 2).flatten

/-- The run currents of part r that this frame uses are remembered. -/
def State.procUsed (s : State) (r : Nat) : State :=
  let u := (List.range 16).foldl (fun (t : Tbl F32) (c : Nat) =>
    let o := poNode r + 14 + 16 * c
    if f32Finite (s.poF32 o) then tset f32zero (16 * r + c) (s.poF32 o) t else t) s.net.nrole.usedCur
  { s with net := { s.net with nrole := { s.net.nrole with usedCur := u } } }

/-- The class-3 frames of the frame enter the downlink queues, once an image has been committed (R211, R395). -/
def State.procSends (s : State) : State :=
  if s.frm.role ≠ .head ∨ s.red.silentTx ∨ !s.host.committed then s else
  (s.nroleParts.zipIdx).foldl (fun s x =>
    let b := x.1 / 32 % 8
    let d : DynFrame := { cls := 3, pos := x.1 % 32, payload := s.procPayload x.2 }
    (s.setBranch b { s.branch b with dynQ := dynEnter d (s.branch b).dynQ }).procUsed x.2) s

/-! ## TICK_TAKES_EFFECT (R15) -/

/-- Full clock again from this tick (R432). -/
def State.fullClock (s : State) : State :=
  if s.pwr.holdEnd then { s with pwr := { s.pwr with holdEnd := false, hold75 := false, holdN := 0 } } else s

/-- Images, capture and field IO at the boundary. -/
def State.ioBoundary (s : State) : State :=
  let s := s.imageUsed.takeOutput
  let s := if s.frm.role = .head then s.imgCheck else s
  s.capBoundary.fioBoundary

/-- After the boundary's commands: releases, the input image, the ledgers' snapshot, frames that wait for the boundary. -/
def State.boundaryEnd (late : Bool) (s : State) : State :=
  let s := (s.releaseFrame (s.isHead && !s.bridging)).inputStart.ledRequest
  let s := { s with frm := { s.frm with tickPend := false } }
  let s := if late && s.isHead && !s.red.silentTx then s.headSends else s
  s.procSends.paramSends

/-- The end of the CK_NET cycle that contains device time t (R15): cycles of 3.2 ns counted from device time 0 (log 48). -/
def netEnd (t : Nat) : Nat := (t / netCycle + 1) * netCycle

/-- The frame boundary, in the CK_CORE cycle in which the tick takes effect; no effect of the other domains carries a time of
its own (log 48). -/
def execTickTakesEffect (s : State) : Out :=
  .next <| if !s.frm.tickPend ∨ !s.pwr.up then s else
    let s := s.gotoLatency (netEnd s.frm.t0)
    match s.cfg.endAt with
    | some k => { s with frm := { s.frm with tickPend := false } }.switchTo k
    | none =>
      let late := s.cfgAwaits
      let s := s.fullClock.takeDecim.ioBoundary
      let s := if s.frm.role = .head then s.headBoundary else s.otherBoundary
      if !s.frm.run then { s with frm := { s.frm with tickPend := false } } else s.boundaryEnd late

/-! ## SAMPLE_INSTANT, APPLY_INSTANT (R13) -/

/-- SAMPLE_INSTANT: the field inputs, the encoder counts and the emitted step counts are latched. -/
def execSampleInstant (s : State) : Out :=
  .next <| if !s.frm.run ∨ s.frm.tickPend then s else
    let s := (s.goto s.instS).fioLatch
    let s := (List.range 8).foldl State.encSample s
    (List.range 16).foldl (fun s c => s.setStep c { s.step_ c with latch := (s.step_ c).net }) s

/-- The rates of the step channels when their references are first missing (R212). -/
def State.rampRates (s : State) : Tbl Int := (List.range 16).foldl (fun t c => tset 0 c (s.step_ c).emit t) []

/-- A node-role part at A(m) (R212): the class-3 frame of frame m − 1, or one more A without one. -/
def State.nodeApply (s : State) : State :=
  let m := s.frm.frame.toNat
  let nr := { s.net.nrole with down := s.net.nrole.down.filter fun x => decide (m ≤ x.1) }
  match s.net.nrole.down.find? fun x => x.1 + 1 == m with
  | some (_, d) =>
    let s := { s with net := { s.net with nrole := { nr with keep := 0, safe := false, ramp := false, rampN := 0,
                                                             out := BitVec.ofNat 32 (beAt d 0 4) } } }
    ((List.range 16).foldl (fun s c => s.nodeStep (some d) 0 c) s).fioApply (BitVec.ofNat 32 (beAt d 0 4))
  | none =>
    let rate := if nr.keep = 0 then s.rampRates else nr.rate0
    let s := { s with net := { s.net with nrole := { nr with keep := nr.keep + 1, ramp := true, rampN := nr.rampN + 1, rate0 := rate } } }
    ((List.range 16).foldl (fun s c => s.nodeStep none (nr.keep + 1) c) s).fioApply nr.out

/-- The output bits of the image (R321, R395). -/
def State.imgOut (s : State) : W32 := if s.host.committed then BitVec.ofNat 32 (leNat (s.poBytes 0x40 4)) else 0

/-- The first A after the head role ended: held steps are withdrawn (R257). -/
def State.quitSteps (s : State) : State :=
  match s.red.quitA with
  | none => s
  | some a =>
    let s := (List.range 16).foldl State.stepWithdraw (s.goto a)
    { s with red := { s.red with quitA := none } }

/-- APPLY_INSTANT: commands take effect on the step channels and the field outputs. A part that has left the head role and has no
frame yet still passes the next A of its old grid. -/
def execApplyInstant (s : State) : Out :=
  let s := if s.frm.role = .head then s else s.quitSteps
  .next <| if !s.frm.run ∨ s.frm.tickPend then s else
    let s := s.goto s.instA
    match s.frm.role with
    | .head => ((List.range 16).foldl State.stepApply s).fioApply s.imgOut
    | .node => s.nodeApply
    | _ => s.fioApply s.outWord

/-- NROLE_KEEPER_EXPIRY (R212): K_keep is passed, and the field outputs take their SAFE values. -/
def execNroleKeeperExpiry (s : State) : Out :=
  let nr := s.net.nrole
  .next <| if s.frm.role ≠ .node ∨ nr.safe ∨ nr.keep ≤ s.pn 2 0 18 then s else
    let w := s.safeWord
    { s with net := { s.net with nrole := { nr with safe := true, out := w } } }.fioApply w

/-! ## The input image (R390, R391) -/

/-- A block of bytes at an offset, as cells. -/
def cellsAt (off : Nat) (bs : List Byte) : List Host.Cell := mwrite ramByte [] off bs

/-- The uplink fields of a node-role part, from network order (R211). -/
def upFields (p : List Byte) : List Byte :=
  if p.isEmpty then [] else
  let f (o n : Nat) : List Byte := (slice p o n).reverse
  f 0 4 ++ f 4 4 ++ ((List.range 16).map fun c => f (8 + 8 * c) 8).flatten ++ ((List.range 8).map fun e => f (136 + 8 * e) 8).flatten

def f64Bytes (x : F64) : List Byte := leBytes 8 x.bits.toNat
def f32Bytes (x : F64) : List Byte := leBytes 4 (fNarrow x).bits.toNat

/-- The area of an axis. -/
def axisArea (stat : W32) (a : Axis) : List Byte :=
  leBytes 4 stat.toNat ++ leBytes 2 a.fb.gap ++ leBytes 2 a.fb.q.toNat ++ leBytes 8 a.fb.pos.toNat ++ leBytes 8 a.rf.int.toNat ++
  f64Bytes a.fb.om ++ f32Bytes a.lp.tau ++ f32Bytes a.fb.iQ ++ f32Bytes a.fb.tauL ++ f32Bytes a.rf.sJ ++ f32Bytes a.fb.udc ++
  f32Bytes a.rf.dia

/-- The header, after SEQ. -/
def feedHeader (f : Feed) : List Byte :=
  leBytes 4 0 ++ leBytes 6 f.frame.toNat ++ [0, 0] ++ leBytes 8 (toNs f.t0) ++ leBytes 2 f.epoch.toNat ++ leBytes 2 f.role ++
  leBytes 4 f.ctag.toNat

/-- The image's blocks after SEQ, ascending by offset. τ̂_L and D̂ are those of the present state (R390). -/
def State.imageBlocks (s : State) (f : Feed) : List (Nat × List Byte) :=
  [(4, feedHeader f), (0x40, f.ln)] ++
  (f.lines.map fun x => (0x200 + 32 * x.1, f64Bytes x.2.x ++ f64Bytes x.2.v ++ f64Bytes x.2.a)) ++
  (f.zones.map fun x => (0x400 + 16 * x.1, f32Bytes x.2.that ++ f32Bytes x.2.tStar ++ f32Bytes x.2.u ++ leBytes 4 x.2.flags)) ++
  (f.parts.zipIdx.map fun x => (0x800 + 512 * x.2, upFields x.1)) ++
  (s.axisIds.map fun i =>
    let a := tget {} f.axes i
    let live := s.axis i
    (0x1800 + 64 * i,
      axisArea (tget 0 f.stat i) { a with fb := { a.fb with tauL := live.fb.tauL }, rf := { a.rf with dia := live.rf.dia } }))

/-- The cells of an image whose SEQ is q: blocks ascend, so their cells stand in order. -/
def State.imageCells (s : State) (f : Feed) (q : Nat) : List Host.Cell :=
  cellsAt 0 (leBytes 4 q) ++ ((s.imageBlocks f).map fun x => cellsAt x.1 x.2).flatten

/-- INPUT_IMAGE_COMPLETE: the oldest image under way is whole; SEQ becomes even. -/
def execInputImageComplete (s : State) : Out :=
  .next <| match s.host.piWr with
    | [] => s
    | (b, m) :: r =>
      let f := if s.frm.frame = m then s.feedNow else s.host.feed
      let q := leNat (mread ramByte (tget [] s.host.pin b) 0 4) + 1
      { s with host := { s.host with
          pin := tset [] b (s.imageCells f q) s.host.pin, piWr := r, piLast := b, piFcnt := m.setWidth 16 } }.irq 2

end Sys2Proof.Machine
end

