-- ==== Sys2Proof/Machine/Dispatch.lean ====
section
/-! DEFINITION. The dispatch: one arm per command of the table. -/

namespace Sys2Proof.Machine

def exec (i : Instr) (s : State) : Host.Outcome State Fault Refusal :=
  match i with
  | .frameTick => Sys2Proof.Machine.execFrameTick s
  | .lsyncFall => Sys2Proof.Machine.execLsyncFall s
  | .tickTakesEffect => Sys2Proof.Machine.execTickTakesEffect s
  | .sampleInstant => Sys2Proof.Machine.execSampleInstant s
  | .applyInstant => Sys2Proof.Machine.execApplyInstant s
  | .lnFeedbackValid => Sys2Proof.Machine.execLnFeedbackValid s
  | .slotDeadline b p => Sys2Proof.Machine.execSlotDeadline b p s
  | .staticFrameReceived b bytes t err => Sys2Proof.Machine.execStaticFrameReceived b bytes t err s
  | .slotEvent b p => Sys2Proof.Machine.execSlotEvent b p s
  | .kernelDispatch => Sys2Proof.Machine.execKernelDispatch s
  | .criticalKernelComplete ii t opnd comp => Sys2Proof.Machine.execCriticalKernelComplete ii t opnd comp s
  | .trailingKernelComplete ii t opnd comp => Sys2Proof.Machine.execTrailingKernelComplete ii t opnd comp s
  | .zoneKernelComplete z t opnd comp => Sys2Proof.Machine.execZoneKernelComplete z t opnd comp s
  | .zoneTrailingKernelComplete z t opnd comp => Sys2Proof.Machine.execZoneTrailingKernelComplete z t opnd comp s
  | .commandBlockDeadline b => Sys2Proof.Machine.execCommandBlockDeadline b s
  | .overrunSeries => Sys2Proof.Machine.execOverrunSeries s
  | .lnKernelDeadline => Sys2Proof.Machine.execLnKernelDeadline s
  | .commandBlockStart b => Sys2Proof.Machine.execCommandBlockStart b s
  | .u0TrailingSkip => Sys2Proof.Machine.execU0TrailingSkip s
  | .fwDeadline fp => Sys2Proof.Machine.execFwDeadline fp s
  | .lsyncInEdge x => Sys2Proof.Machine.execLsyncInEdge x s
  | .lsyncInLoss => Sys2Proof.Machine.execLsyncInLoss s
  | .slotOutcomeFinal b => Sys2Proof.Machine.execSlotOutcomeFinal b s
  | .dynamicUplinkReceived b bytes t err => Sys2Proof.Machine.execDynamicUplinkReceived b bytes t err s
  | .dynamicDownlinkFrame b => Sys2Proof.Machine.execDynamicDownlinkFrame b s
  | .linkDown port x => Sys2Proof.Machine.execLinkDown port x s
  | .nodeLost b p => Sys2Proof.Machine.execNodeLost b p s
  | .dlyTrimAverage b p => Sys2Proof.Machine.execDlyTrimAverage b p s
  | .dlyTrimReceived b bytes t => Sys2Proof.Machine.execDlyTrimReceived b bytes t s
  | .coldstartStart => Sys2Proof.Machine.execColdstartStart s
  | .listenWindowExpiry => Sys2Proof.Machine.execListenWindowExpiry s
  | .foreignCsm b bytes x => Sys2Proof.Machine.execForeignCsm b bytes x s
  | .csmReceived b bytes x => Sys2Proof.Machine.execCsmReceived b bytes x s
  | .csmWindowClose b => Sys2Proof.Machine.execCsmWindowClose b s
  | .orientationDecision => Sys2Proof.Machine.execOrientationDecision s
  | .commandBlockReceived b bytes t => Sys2Proof.Machine.execCommandBlockReceived b bytes t s
  | .keeperFrameReceived b bytes t => Sys2Proof.Machine.execKeeperFrameReceived b bytes t s
  | .nodeStaticTransmit => Sys2Proof.Machine.execNodeStaticTransmit s
  | .nodeDynamicTransmit slot => Sys2Proof.Machine.execNodeDynamicTransmit slot s
  | .fence b => Sys2Proof.Machine.execFence b s
  | .processDataReceived b bytes t => Sys2Proof.Machine.execProcessDataReceived b bytes t s
  | .nroleKeeperExpiry => Sys2Proof.Machine.execNroleKeeperExpiry s
  | .firmwareRelease x => Sys2Proof.Machine.execFirmwareRelease x s
  | .firmwareSignal d => Sys2Proof.Machine.execFirmwareSignal d s
  | .delayExpiry d => Sys2Proof.Machine.execDelayExpiry d s
  | .timeoutExpiry d => Sys2Proof.Machine.execTimeoutExpiry d s
  | .threadPreempt fp => Sys2Proof.Machine.execThreadPreempt fp s
  | .threadComplete fp t => Sys2Proof.Machine.execThreadComplete fp t s
  | .threadBlock fp base delay t => Sys2Proof.Machine.execThreadBlock fp base delay t s
  | .threadYield fp => Sys2Proof.Machine.execThreadYield fp s
  | .inpos ii => Sys2Proof.Machine.execInpos ii s
  | .satTime ii c => Sys2Proof.Machine.execSatTime ii c s
  | .fbLost ii => Sys2Proof.Machine.execFbLost ii s
  | .fbFrozen ii => Sys2Proof.Machine.execFbFrozen ii s
  | .estExpired ii => Sys2Proof.Machine.execEstExpired ii s
  | .webBreak z => Sys2Proof.Machine.execWebBreak z s
  | .lcInvalid z => Sys2Proof.Machine.execLcInvalid z s
  | .stepPulse c => Sys2Proof.Machine.execStepPulse c s
  | .dirChange c => Sys2Proof.Machine.execDirChange c s
  | .crefIdleExpiry c => Sys2Proof.Machine.execCrefIdleExpiry c s
  | .crefRampComplete c => Sys2Proof.Machine.execCrefRampComplete c s
  | .stall ii => Sys2Proof.Machine.execStall ii s
  | .homeFlagExpiry ii => Sys2Proof.Machine.execHomeFlagExpiry ii s
  | .encEdge e a b l => Sys2Proof.Machine.execEncEdge e a b l s
  | .enczEdge e z l => Sys2Proof.Machine.execEnczEdge e z l s
  | .ssiDelivery e frame late => Sys2Proof.Machine.execSsiDelivery e frame late s
  | .encDev ii => Sys2Proof.Machine.execEncDev ii s
  | .heartbeatReceived bytes t => Sys2Proof.Machine.execHeartbeatReceived bytes t s
  | .heartbeatWindowClose => Sys2Proof.Machine.execHeartbeatWindowClose s
  | .takeoverStart => Sys2Proof.Machine.execTakeoverStart s
  | .imageLoadComplete t => Sys2Proof.Machine.execImageLoadComplete t s
  | .restartFrame => Sys2Proof.Machine.execRestartFrame s
  | .snapshot => Sys2Proof.Machine.execSnapshot s
  | .firnSegmentSend => Sys2Proof.Machine.execFirnSegmentSend s
  | .firnSegmentReceived seg t => Sys2Proof.Machine.execFirnSegmentReceived seg t s
  | .returnSend => Sys2Proof.Machine.execReturnSend s
  | .returnReceived bytes t => Sys2Proof.Machine.execReturnReceived bytes t s
  | .parameterRecordReceived bytes t => Sys2Proof.Machine.execParameterRecordReceived bytes t s
  | .firnReturnTimeout => Sys2Proof.Machine.execFirnReturnTimeout s
  | .goldenVectorTest pass => Sys2Proof.Machine.execGoldenVectorTest pass s
  | .sramScrubPass ok => Sys2Proof.Machine.execSramScrubPass ok s
  | .loopbackTest b ok => Sys2Proof.Machine.execLoopbackTest b ok s
  | .shadowComputation => Sys2Proof.Machine.execShadowComputation s
  | .yieldSilence => Sys2Proof.Machine.execYieldSilence s
  | .handoverStart => Sys2Proof.Machine.execHandoverStart s
  | .yieldTimeout => Sys2Proof.Machine.execYieldTimeout s
  | .safetyTick rb => Sys2Proof.Machine.execSafetyTick rb s
  | .tickExchange ok rb => Sys2Proof.Machine.execTickExchange ok rb s
  | .safetyInputSample a b => Sys2Proof.Machine.execSafetyInputSample a b s
  | .filteredDemandChange p => Sys2Proof.Machine.execFilteredDemandChange p s
  | .discrepancyFault p => Sys2Proof.Machine.execDiscrepancyFault p s
  | .testPulseStart k => Sys2Proof.Machine.execTestPulseStart k s
  | .testPulseWindowEnd k => Sys2Proof.Machine.execTestPulseWindowEnd k s
  | .safetyCycleEnd => Sys2Proof.Machine.execSafetyCycleEnd s
  | .diagnosisEnd a b => Sys2Proof.Machine.execDiagnosisEnd a b s
  | .outputFault o => Sys2Proof.Machine.execOutputFault o s
  | .outputOffTest o low => Sys2Proof.Machine.execOutputOffTest o low s
  | .offTestWindowEnd o low r => Sys2Proof.Machine.execOffTestWindowEnd o low r s
  | .switchLimitExpiry o low => Sys2Proof.Machine.execSwitchLimitExpiry o low s
  | .ss1TimeExpiry g => Sys2Proof.Machine.execSs1TimeExpiry g s
  | .ss1TmaxExpiry g => Sys2Proof.Machine.execSs1TmaxExpiry g s
  | .slsViolation g => Sys2Proof.Machine.execSlsViolation g s
  | .sbcDelayExpiry g => Sys2Proof.Machine.execSbcDelayExpiry g s
  | .degradedWindowExpiry => Sys2Proof.Machine.execDegradedWindowExpiry s
  | .pduRelease c => Sys2Proof.Machine.execPduRelease c s
  | .safetyPduReceived c bytes t => Sys2Proof.Machine.execSafetyPduReceived c bytes t s
  | .safetyWatchdogExpiry c chB => Sys2Proof.Machine.execSafetyWatchdogExpiry c chB s
  | .safetySetCheck => Sys2Proof.Machine.execSafetySetCheck s
  | .safeConfirmTimeout => Sys2Proof.Machine.execSafeConfirmTimeout s
  | .safeLoadEraseComplete => Sys2Proof.Machine.execSafeLoadEraseComplete s
  | .housekeepingCycle down ret => Sys2Proof.Machine.execHousekeepingCycle down ret s
  | .housekeepingLost d => Sys2Proof.Machine.execHousekeepingLost d s
  | .fieldInputChange c level run => Sys2Proof.Machine.execFieldInputChange c level run s
  | .quiesceComplete c => Sys2Proof.Machine.execQuiesceComplete c s
  | .couplerReversalComplete c => Sys2Proof.Machine.execCouplerReversalComplete c s
  | .overcur c acts => Sys2Proof.Machine.execOvercur c acts s
  | .thermalShutdown c t => Sys2Proof.Machine.execThermalShutdown c t s
  | .thermalRetry c tj t => Sys2Proof.Machine.execThermalRetry c tj t s
  | .reverseShutdown c => Sys2Proof.Machine.execReverseShutdown c s
  | .reverseReclose c => Sys2Proof.Machine.execReverseReclose c s
  | .diagClassify c mv => Sys2Proof.Machine.execDiagClassify c mv s
  | .logicSilenceExpiry d => Sys2Proof.Machine.execLogicSilenceExpiry d s
  | .vfldThresholdCross d k => Sys2Proof.Machine.execVfldThresholdCross d k s
  | .vfldThresholdClear d k => Sys2Proof.Machine.execVfldThresholdClear d k s
  | .offLatchRelease d => Sys2Proof.Machine.execOffLatchRelease d s
  | .fieldDiePowerUp d => Sys2Proof.Machine.execFieldDiePowerUp d s
  | .subTick => Sys2Proof.Machine.execSubTick s
  | .captureSample w t => Sys2Proof.Machine.execCaptureSample w t s
  | .autoTriggerExpiry => Sys2Proof.Machine.execAutoTriggerExpiry s
  | .rearmComplete t => Sys2Proof.Machine.execRearmComplete t s
  | .stagingDrain => Sys2Proof.Machine.execStagingDrain s
  | .recordComplete => Sys2Proof.Machine.execRecordComplete s
  | .captureApertureWrite off v => Sys2Proof.Machine.execCaptureApertureWrite off v s
  | .bwWindowEnd m => Sys2Proof.Machine.execBwWindowEnd m s
  | .inputImageComplete => Sys2Proof.Machine.execInputImageComplete s
  | .commitCopyComplete => Sys2Proof.Machine.execCommitCopyComplete s
  | .mailboxTimeout j => Sys2Proof.Machine.execMailboxTimeout j s
  | .hostWatchdogExpiry => Sys2Proof.Machine.execHostWatchdogExpiry s
  | .eventRingWrite => Sys2Proof.Machine.execEventRingWrite s
  | .ledgerCheck => Sys2Proof.Machine.execLedgerCheck s
  | .faultLogCommit => Sys2Proof.Machine.execFaultLogCommit s
  | .faultLogCompact => Sys2Proof.Machine.execFaultLogCompact s
  | .flashWriteComplete => Sys2Proof.Machine.execFlashWriteComplete s
  | .bootStart => Sys2Proof.Machine.execBootStart s
  | .baseConfigStart => Sys2Proof.Machine.execBaseConfigStart s
  | .standbyRailsUp => Sys2Proof.Machine.execStandbyRailsUp s
  | .railSequenceStart => Sys2Proof.Machine.execRailSequenceStart s
  | .resetRelease hostsel boot vio => Sys2Proof.Machine.execResetRelease hostsel boot vio s
  | .startupChecksComplete why => Sys2Proof.Machine.execStartupChecksComplete why s
  | .droopDetect mv => Sys2Proof.Machine.execDroopDetect mv s
  | .droopClear mv => Sys2Proof.Machine.execDroopClear mv s
  | .calvingStageEntry stage mv => Sys2Proof.Machine.execCalvingStageEntry stage mv s
  | .calvingStage4 mv => Sys2Proof.Machine.execCalvingStage4 mv s
  | .calvingStageExit stage mv => Sys2Proof.Machine.execCalvingStageExit stage mv s
  | .dramSelfRefresh => Sys2Proof.Machine.execDramSelfRefresh s
  | .vioLow => Sys2Proof.Machine.execVioLow s
  | .powerOnReset => Sys2Proof.Machine.execPowerOnReset s
  | .brownout => Sys2Proof.Machine.execBrownout s
  | .resetPin => Sys2Proof.Machine.execResetPin s
  | .fwWatchdogExpiry => Sys2Proof.Machine.execFwWatchdogExpiry s
  | .vcoreFault mv => Sys2Proof.Machine.execVcoreFault mv s
  | .clockLoss clk => Sys2Proof.Machine.execClockLoss clk s
  | .coreDieReset => Sys2Proof.Machine.execCoreDieReset s
  | .pcieRefclkLoss => Sys2Proof.Machine.execPcieRefclkLoss s
  | .perstN => Sys2Proof.Machine.execPerstN s
  | .bar0UnsupportedAccess off bytes => Sys2Proof.Machine.execBar0UnsupportedAccess off bytes s
  | .mailboxBufferWrite off v => Sys2Proof.Machine.execMailboxBufferWrite off v s
  | .outputWindowWrite off v => Sys2Proof.Machine.execOutputWindowWrite off v s
  | .mbxAlloc => Sys2Proof.Machine.execMbxAlloc s
  | .mbxDb m v => Sys2Proof.Machine.execMbxDb m v s
  | .mbxAns m => Sys2Proof.Machine.execMbxAns m s
  | .mbxFree v => Sys2Proof.Machine.execMbxFree v s
  | .mbxPicommit v => Sys2Proof.Machine.execMbxPicommit v s
  | .mbxPoola => Sys2Proof.Machine.execMbxPoola s
  | .devAlive v => Sys2Proof.Machine.execDevAlive v s
  | .evtIstat v => Sys2Proof.Machine.execEvtIstat v s
  | .pwrRstreq v => Sys2Proof.Machine.execPwrRstreq v s
  | .pwrVmain => Sys2Proof.Machine.execPwrVmain s
  | .pwrVcore => Sys2Proof.Machine.execPwrVcore s
  | .frmTimeLo => Sys2Proof.Machine.execFrmTimeLo s
  | .frmFcntLo => Sys2Proof.Machine.execFrmFcntLo s
  | .frmT0Lo => Sys2Proof.Machine.execFrmT0Lo s
  | .frmLsinLo => Sys2Proof.Machine.execFrmLsinLo s
  | .frmTurnmax => Sys2Proof.Machine.execFrmTurnmax s
  | .netOfsrange => Sys2Proof.Machine.execNetOfsrange s
  | .netHeadidLo => Sys2Proof.Machine.execNetHeadidLo s
  | .netPeeridLo => Sys2Proof.Machine.execNetPeeridLo s
  | .dspDescidx v => Sys2Proof.Machine.execDspDescidx v s
  | .dspTrcctl v => Sys2Proof.Machine.execDspTrcctl v s
  | .dspTrcd0 => Sys2Proof.Machine.execDspTrcd0 s
  | .dspRdydep l => Sys2Proof.Machine.execDspRdydep l s
  | .dspPreempt => Sys2Proof.Machine.execDspPreempt s
  | .redImgfcLo => Sys2Proof.Machine.execRedImgfcLo s
  | .redTkfcLo => Sys2Proof.Machine.execRedTkfcLo s
  | .redHbmiss => Sys2Proof.Machine.execRedHbmiss s
  | .capRecno => Sys2Proof.Machine.execCapRecno s
  | .capCrevsmpLo => Sys2Proof.Machine.execCapCrevsmpLo s
  | .capDeadmax => Sys2Proof.Machine.execCapDeadmax s
  | .capStage => Sys2Proof.Machine.execCapStage s
  | .prfCycLo => Sys2Proof.Machine.execPrfCycLo s
  | .prfCntLo k => Sys2Proof.Machine.execPrfCntLo k s
  | .prfSetcmd v => Sys2Proof.Machine.execPrfSetcmd v s
  | .prfCtrl v => Sys2Proof.Machine.execPrfCtrl v s
  | .prfCfg k v => Sys2Proof.Machine.execPrfCfg k v s
  | .prfBwMinmax m hi => Sys2Proof.Machine.execPrfBwMinmax m hi s
  | .prfTagctl v => Sys2Proof.Machine.execPrfTagctl v s
  | .prfTagd0 => Sys2Proof.Machine.execPrfTagd0 s
  | .lgrSel v => Sys2Proof.Machine.execLgrSel v s
  | .registerWrite off v => Sys2Proof.Machine.execRegisterWrite off v s
  | .echo => Sys2Proof.Machine.execEcho s
  | .devInfo => Sys2Proof.Machine.execDevInfo s
  | .paramRead => Sys2Proof.Machine.execParamRead s
  | .paramWrite => Sys2Proof.Machine.execParamWrite s
  | .paramInfo => Sys2Proof.Machine.execParamInfo s
  | .badOpcode => Sys2Proof.Machine.execBadOpcode s
  | .enable => Sys2Proof.Machine.execEnable s
  | .close => Sys2Proof.Machine.execClose s
  | .openLoop => Sys2Proof.Machine.execOpenLoop s
  | .freeze => Sys2Proof.Machine.execFreeze s
  | .disable => Sys2Proof.Machine.execDisable s
  | .ack => Sys2Proof.Machine.execAck s
  | .stop => Sys2Proof.Machine.execStop s
  | .home => Sys2Proof.Machine.execHome s
  | .diaSet => Sys2Proof.Machine.execDiaSet s
  | .camStart => Sys2Proof.Machine.execCamStart s
  | .camSelect => Sys2Proof.Machine.execCamSelect s
  | .grpClrderate => Sys2Proof.Machine.execGrpClrderate s
  | .yield => Sys2Proof.Machine.execYield s
  | .camWrite => Sys2Proof.Machine.execCamWrite s
  | .camLoad => Sys2Proof.Machine.execCamLoad s
  | .ovlApply => Sys2Proof.Machine.execOvlApply s
  | .cfgWrite => Sys2Proof.Machine.execCfgWrite s
  | .cfgActivate => Sys2Proof.Machine.execCfgActivate s
  | .firmwareActivate => Sys2Proof.Machine.execFirmwareActivate s
  | .keyProvision => Sys2Proof.Machine.execKeyProvision s
  | .lifecycle => Sys2Proof.Machine.execLifecycle s
  | .safeReset => Sys2Proof.Machine.execSafeReset s
  | .safeClear => Sys2Proof.Machine.execSafeClear s
  | .safeLoad => Sys2Proof.Machine.execSafeLoad s
  | .safeConfirm => Sys2Proof.Machine.execSafeConfirm s
  | .fioQuiesce => Sys2Proof.Machine.execFioQuiesce s
  | .fioResume => Sys2Proof.Machine.execFioResume s
  | .fioRearm => Sys2Proof.Machine.execFioRearm s
  | .captStart => Sys2Proof.Machine.execCaptStart s
  | .captStop => Sys2Proof.Machine.execCaptStop s
  | .captForce => Sys2Proof.Machine.execCaptForce s
  | .matrixRead => Sys2Proof.Machine.execMatrixRead s
  | .flogRead => Sys2Proof.Machine.execFlogRead s
  | .linkUp port sync t => Sys2Proof.Machine.execLinkUp port sync t s
  | .pcieLinkUp speed width => Sys2Proof.Machine.execPcieLinkUp speed width s
  | .safetyChannelFault chB f => Sys2Proof.Machine.execSafetyChannelFault chB f s
  | .counterOverflow k => Sys2Proof.Machine.execCounterOverflow k s
  | .vioRestored => Sys2Proof.Machine.execVioRestored s

end Sys2Proof.Machine
end

