-- ==== Sys2Proof/Machine/HostLink.lean ====
section
/-! DEFINITION. The Quad SPI host link: from the nibbles of a transaction to the word accesses it holds and the commands they are
(R375, R376, R377). In PCIe mode a host access reaches the part as such a command at once (log 42). -/

namespace Sys2Proof.Machine

/-- Four bits of QSPI_IO[3:0], sampled at one clock. -/
abbrev Nibble := BitVec 4

/-- One access of a 32-bit word: of BAR2 or BAR0, a write or a read, its byte offset, the word written. -/
structure WordAccess where
  bar2 : Bool
  write : Bool
  off : Nat
  word : W32 := 0
  deriving DecidableEq, Repr

/-- A number whose nibbles came most significant first. -/
def nibNat (l : List Nibble) : Nat := l.foldl (fun a x => a * 16 + x.toNat) 0

/-- The bytes of a run of nibbles, each most significant nibble first. -/
def nibBytes : List Nibble → List Byte
  | h :: l :: r => BitVec.ofNat 8 (h.toNat * 16 + l.toNat) :: nibBytes r
  | _ => []

/-- The words of a data phase, each of eight clocks, bytes in ascending address order; a word cut short is discarded. n bounds them. -/
def nibWords : Nat → List Nibble → List W32
  | 0, _ => []
  | n + 1, l => if l.length < 8 then [] else BitVec.ofNat 32 (leNat (nibBytes (l.take 8))) :: nibWords n (l.drop 8)

/-- Words of a burst from offset o that stay within its 4 KiB. -/
def burstRoom (o : Nat) : Nat := (4096 - o % 4096) / 4

/-- The accesses of a burst, in ascending order from offset o. -/
def burst (bar2 write : Bool) (o : Nat) (ws : List W32) : List WordAccess :=
  ((List.range ws.length).zip ws).map fun x => { bar2 := bar2, write := write, off := o + 4 * x.1, word := if write then x.2 else 0 }

/-- The word accesses of one transaction, framed by QSPI_CS_N low: command in 2 clocks, address in 8, on reads 8 dummy clocks, then the
data. A read word is accessed as its first nibble leaves. A transaction of another form holds no access, and a burst ends at its 4 KiB
(log 42). -/
def spiAccesses (l : List Nibble) : List WordAccess :=
  let cmd := nibNat (l.take 2)
  let addr := nibNat ((l.drop 2).take 8)
  let bar2 : Bool := 2 ^ 31 ≤ addr
  let o := addr % 2 ^ 26
  let ok : Bool := decide (10 ≤ l.length) && addr / 2 ^ 26 % 32 == 0 && o % 4 == 0
  if !ok then []
  else if cmd = 0x02 then
    let d := l.drop 10
    burst bar2 true o ((nibWords d.length d).take (burstRoom o))
  else if cmd = 0x0B then
    burst bar2 false o (List.replicate (min ((l.length - 18 + 7) / 8) (burstRoom o)) 0)
  else []

/-! ## The command of an access -/

/-- A write of a word of BAR0: a register with a row of its own, or REGISTER_WRITE. -/
def bar0Write (o : Nat) (v : W32) : Instr :=
  if o = 0x0008 then .devAlive v
  else if o = 0x0804 then .mbxFree v
  else if o = 0x0820 then .mbxPicommit v
  else if 0x0900 ≤ o ∧ o < 0x0A00 ∧ o % 8 = 0 then .mbxDb (Fin.ofNat 32 ((o - 0x0900) / 8)) v
  else if o = 0x1000 then .evtIstat v
  else if o = 0x1408 then .lgrSel v
  else if o = 0x1800 then .prfCtrl v
  else if o = 0x181C then .prfSetcmd v
  else if 0x1840 ≤ o ∧ o < 0x18C0 ∧ o % 16 = 0 then .prfCfg (Fin.ofNat 8 ((o - 0x1840) / 16)) v
  else if o = 0x1A00 then .prfTagctl v
  else if o = 0x3040 then .dspDescidx v
  else if o = 0x3080 then .dspTrcctl v
  else if o = 0x601C then .pwrRstreq v
  else .registerWrite o v

/-- A read of a word of BAR0 that changes state; any other read only shows what stands there. -/
def bar0Read (o : Nat) : Option Instr :=
  if o < 0x0800 then
    (if o = 0x0408 then some .frmTimeLo else if o = 0x0410 then some .frmFcntLo else if o = 0x0418 then some .frmT0Lo
     else if o = 0x0424 then some .frmTurnmax else if o = 0x0434 then some .frmLsinLo else none)
  else if o < 0x1800 then
    (if o = 0x0800 then some .mbxAlloc else if o = 0x0808 then some .mbxPoola
     else if 0x0900 ≤ o ∧ o < 0x0A00 ∧ o % 8 = 4 then some (.mbxAns (Fin.ofNat 32 ((o - 0x0900) / 8))) else none)
  else if o < 0x2000 then
    (if o = 0x1808 then some .prfCycLo
     else if 0x1840 ≤ o ∧ o < 0x18C0 ∧ o % 16 = 4 then some (.prfCntLo (Fin.ofNat 8 ((o - 0x1840) / 16)))
     else if 0x1900 ≤ o ∧ o < 0x19A0 ∧ (o % 16 = 4 ∨ o % 16 = 8) then
       some (.prfBwMinmax (Fin.ofNat 10 ((o - 0x1900) / 16)) (o % 16 == 8))
     else if o = 0x1A14 then some .prfTagd0 else none)
  else if o < 0x4000 then
    (if o = 0x2004 then some .capRecno else if o = 0x2018 then some .capCrevsmpLo else if o = 0x2028 then some .capDeadmax
     else if o = 0x2034 then some .capStage
     else if 0x3010 ≤ o ∧ o < 0x3030 ∧ o % 4 = 0 then some (.dspRdydep (Fin.ofNat 8 ((o - 0x3010) / 4)))
     else if o = 0x3030 then some .dspPreempt else if o = 0x3090 then some .dspTrcd0 else none)
  else if o < 0x6000 then
    (if o = 0x5058 then some .netOfsrange else if o = 0x5074 then some .netHeadidLo else if o = 0x507C then some .netPeeridLo else none)
  else
    (if o = 0x6004 then some .pwrVmain else if o = 0x6008 then some .pwrVcore else if o = 0x7010 then some .redImgfcLo
     else if o = 0x701C then some .redHbmiss else if o = 0x7024 then some .redTkfcLo else none)

/-- A write of a word of BAR2 by its region (R377); elsewhere it is ignored. -/
def bar2Write (o : Nat) (v : W32) : Option Instr :=
  if 0x100000 ≤ o ∧ o < 0x108000 then some (.outputWindowWrite (o - 0x100000) v)
  else if 0x200000 ≤ o ∧ o < 0x240000 then some (.mailboxBufferWrite (o - 0x200000) v)
  else if 0x2000000 ≤ o ∧ o < 0x4000000 then some (.captureApertureWrite (o - 0x2000000) v)
  else none

/-- The command a word access is; a read of BAR2 changes nothing, and BAR0 ends at 64 KiB. -/
def WordAccess.command (a : WordAccess) : Option Instr :=
  if a.bar2 then (if a.write then bar2Write a.off a.word else none)
  else if 0x10000 ≤ a.off then none
  else if a.write then some (bar0Write a.off a.word) else bar0Read a.off

/-- A transaction on the Quad SPI lands puts its accesses into the queue, in their order; in PCIe mode the link is powered down
(R373). -/
def State.spiTransaction (s : State) (l : List Nibble) : State :=
  if s.host.hostsel then s else { s with pending := s.pending ++ (spiAccesses l).filterMap (·.command) }

end Sys2Proof.Machine
end

