-- ==== Sys2Proof/Safety.lean ====
section
/-! DEFINITION. What counts as a safe run: every command answers a next state, and the parts of the state a command has no
business with stay as they were. -/

namespace Sys2Proof.Machine

/-- The step answers a next state: neither a fault nor a refusal. -/
def Completes (s : State) : Prop := ∃ t, step s = .next t

/-! ## The parts of the state, for frames -/

/-- The parts of the state, one per field of State. -/
inductive Part where
  | frm | axes | lines | cams | camStg | zones | steps | encs | net | dsp | red | saf | fio | cap | prf | host | evt
  | params | cfg | pwr | lgr | pending
  deriving DecidableEq, Repr

/-- Two states agree on a part. -/
def Part.same (p : Part) (s t : State) : Prop :=
  match p with
  | .frm => t.frm = s.frm
  | .axes => t.axes = s.axes
  | .lines => t.lines = s.lines
  | .cams => t.cams = s.cams
  | .camStg => t.camStg = s.camStg
  | .zones => t.zones = s.zones
  | .steps => t.steps = s.steps
  | .encs => t.encs = s.encs
  | .net => t.net = s.net
  | .dsp => t.dsp = s.dsp
  | .red => t.red = s.red
  | .saf => t.saf = s.saf
  | .fio => t.fio = s.fio
  | .cap => t.cap = s.cap
  | .prf => t.prf = s.prf
  | .host => t.host = s.host
  | .evt => t.evt = s.evt
  | .params => t.params = s.params
  | .cfg => t.cfg = s.cfg
  | .pwr => t.pwr = s.pwr
  | .lgr => t.lgr = s.lgr
  | .pending => t.pending = s.pending

/-- t differs from s in the parts listed in w only. -/
structure Only (w : List Part) (s t : State) : Prop where
  out : ∀ p : Part, w.contains p = false → p.same s t

/-- A meaning answers a next state that differs from s in the parts listed in w only. -/
structure Answers (w : List Part) (s : State) (o : Out) : Prop where
  out : ∃ t, o = .next t ∧ Only w s t

/-- An event of a code and an object stands in the ring's queue; where the queue is full it is counted as lost (R399). -/
def State.hasEvent (s : State) (code obj : Nat) : Prop :=
  (∃ e ∈ s.evt.queue, e.code = BitVec.ofNat 16 code ∧ e.obj = BitVec.ofNat 16 obj) ∨ 64 ≤ s.evt.queue.length

/-- The parts of the state a command may change. -/
def writes : Instr → List Part
  | .frameTick => [.frm, .net, .red, .fio, .cap, .prf, .host, .evt, .pwr, .lgr]
  | .lsyncFall | .lsyncInEdge .. | .lsyncInLoss | .captureSample .. | .autoTriggerExpiry | .rearmComplete .. |
    .bwWindowEnd .. | .dramSelfRefresh => [.frm, .cap, .prf, .evt, .pwr, .lgr]
  | .tickTakesEffect => [.frm, .axes, .lines, .cams, .zones, .net, .dsp, .red, .saf, .fio, .cap, .prf, .host, .evt,
    .params, .cfg, .pwr, .lgr]
  | .sampleInstant => [.frm, .steps, .encs, .fio, .cap, .prf, .evt, .pwr, .lgr]
  | .applyInstant => [.frm, .axes, .steps, .net, .red, .fio, .cap, .prf, .evt, .pwr, .lgr]
  | .lnFeedbackValid | .kernelDispatch | .delayExpiry .. | .timeoutExpiry .. | .threadBlock .. | .subTick => [.frm,
    .dsp, .cap, .prf, .evt, .pwr, .lgr]
  | .slotDeadline .. | .staticFrameReceived .. | .commandBlockStart .. | .slotOutcomeFinal .. | .dynamicDownlinkFrame ..
    | .linkDown .. | .dlyTrimReceived .. | .listenWindowExpiry | .csmReceived .. | .keeperFrameReceived .. |
    .nodeStaticTransmit | .nodeDynamicTransmit .. | .fence .. | .processDataReceived .. | .linkUp .. => [.frm, .net, .cap,
    .prf, .evt, .pwr, .lgr]
  | .slotEvent .. => [.frm, .net, .dsp, .cap, .prf, .evt, .pwr, .lgr]
  | .criticalKernelComplete .. => [.frm, .axes, .steps, .net, .dsp, .cap, .prf, .evt, .pwr, .lgr]
  | .trailingKernelComplete .. => [.frm, .axes, .steps, .dsp, .cap, .prf, .evt, .pwr, .lgr]
  | .zoneKernelComplete .. => [.frm, .zones, .dsp, .cap, .prf, .evt, .pwr, .lgr]
  | .zoneTrailingKernelComplete .. | .lnKernelDeadline | .u0TrailingSkip => [.frm, .axes, .zones, .dsp, .cap, .prf,
    .evt, .pwr, .lgr]
  | .commandBlockDeadline .. => [.frm, .axes, .zones, .net, .dsp, .cap, .prf, .evt, .pwr, .lgr]
  | .overrunSeries => [.frm, .cap, .prf, .evt, .lgr]
  | .fwDeadline .. => [.frm, .dsp, .cap, .prf, .evt, .lgr]
  | .dynamicUplinkReceived .. | .orientationDecision | .commandBlockReceived .. => [.frm, .net, .red, .cap, .prf, .evt,
    .pwr, .lgr]
  | .nodeLost .. | .dlyTrimAverage .. => [.net, .cap, .prf, .evt, .lgr]
  | .coldstartStart => [.net]
  | .foreignCsm .. => [.frm, .axes, .lines, .zones, .net, .dsp, .red, .saf, .fio, .cap, .prf, .host, .evt, .cfg, .pwr,
    .lgr]
  | .csmWindowClose .. => [.frm, .net, .red, .saf, .cap, .prf, .evt, .pwr, .lgr]
  | .nroleKeeperExpiry => [.net, .fio]
  | .firmwareRelease .. => [.dsp, .prf, .pwr]
  | .firmwareSignal .. => [.dsp, .cap, .prf, .evt, .lgr]
  | .threadPreempt .. | .threadYield .. => [.dsp, .prf]
  | .threadComplete .. => [.frm, .axes, .lines, .dsp, .fio, .cap, .prf, .evt, .pwr, .lgr]
  | .inpos .. => [.axes]
  | .satTime .. | .fbLost .. | .fbFrozen .. | .estExpired .. | .encDev .. => [.axes, .cap, .prf, .evt, .lgr]
  | .webBreak .. | .lcInvalid .. => [.zones, .cap, .prf, .evt, .lgr]
  | .stepPulse .. | .dirChange .. => [.frm, .steps, .cap, .prf, .evt, .pwr, .lgr]
  | .crefIdleExpiry .. | .crefRampComplete .. => [.frm, .steps, .red, .cap, .prf, .evt, .pwr, .lgr]
  | .stall .. => [.axes, .steps]
  | .homeFlagExpiry .. => [.frm, .axes, .steps, .cap, .prf, .evt, .pwr, .lgr]
  | .encEdge .. | .enczEdge .. => [.frm, .encs, .cap, .prf, .evt, .pwr, .lgr]
  | .ssiDelivery .. => [.frm, .encs, .dsp, .cap, .prf, .evt, .pwr, .lgr]
  | .heartbeatReceived .. | .imageLoadComplete .. | .firnSegmentSend | .firnSegmentReceived .. | .returnReceived .. =>
    [.frm, .red, .cap, .prf, .evt, .pwr, .lgr]
  | .heartbeatWindowClose => [.frm, .red, .saf, .cap, .prf, .evt, .pwr, .lgr]
  | .takeoverStart | .handoverStart => [.frm, .net, .red, .saf, .cap, .prf, .host, .evt, .lgr]
  | .restartFrame => [.axes, .lines, .zones, .red, .cap, .prf, .evt, .lgr]
  | .snapshot | .returnSend | .goldenVectorTest .. | .sramScrubPass .. | .loopbackTest .. | .shadowComputation => [.red]
  | .parameterRecordReceived .. => [.frm, .zones, .fio, .cap, .prf, .evt, .params, .pwr, .lgr]
  | .firnReturnTimeout | .yieldTimeout => [.red, .cap, .prf, .evt, .lgr]
  | .yieldSilence => [.frm, .axes, .lines, .zones, .net, .dsp, .red, .saf, .fio, .cap, .prf, .host, .evt, .cfg, .lgr]
  | .safetyTick .. | .safetyInputSample .. | .testPulseStart .. | .testPulseWindowEnd .. | .safetyCycleEnd .. |
    .outputOffTest .. | .offTestWindowEnd .. | .degradedWindowExpiry | .safetyPduReceived .. | .safetyWatchdogExpiry .. |
    .safeConfirmTimeout => [.frm, .saf, .cap, .prf, .evt, .pwr, .lgr]
  | .tickExchange .. | .discrepancyFault .. | .diagnosisEnd .. | .outputFault .. | .switchLimitExpiry .. | .slsViolation
    .. | .pduRelease .. | .safetySetCheck | .safetyChannelFault .. => [.saf, .cap, .prf, .evt, .lgr]
  | .filteredDemandChange .. | .ss1TimeExpiry .. | .ss1TmaxExpiry .. | .sbcDelayExpiry .. => [.saf]
  | .safeLoadEraseComplete | .safeLoad | .safeConfirm => [.saf, .prf, .host, .evt, .cfg]
  | .housekeepingCycle .. => [.fio, .cap, .prf, .host, .evt, .lgr]
  | .housekeepingLost .. => [.fio, .cap, .prf, .evt, .lgr]
  | .fieldInputChange .. => [.fio, .cap]
  | .quiesceComplete .. | .couplerReversalComplete .. | .overcur .. | .reverseShutdown .. | .reverseReclose .. |
    .diagClassify .. | .vfldThresholdClear .. | .offLatchRelease .. | .fieldDiePowerUp .. => [.fio]
  | .thermalShutdown .. | .thermalRetry .. | .logicSilenceExpiry .. => [.frm, .fio, .cap, .prf, .evt, .pwr, .lgr]
  | .vfldThresholdCross .. => [.saf, .fio, .cap, .prf, .evt, .lgr]
  | .stagingDrain | .calvingStageEntry .. | .vioLow => [.cap, .prf, .evt, .pwr, .lgr]
  | .recordComplete => [.cap]
  | .captureApertureWrite .. | .capRecno | .capCrevsmpLo | .capDeadmax | .capStage => [.cap, .prf, .host]
  | .inputImageComplete | .evtIstat .. | .echo | .devInfo | .paramRead | .paramWrite | .paramInfo | .badOpcode | .enable
    | .close | .openLoop | .freeze | .disable | .ack | .stop | .home | .diaSet | .camStart | .camSelect | .grpClrderate |
    .ovlApply | .matrixRead | .flogRead => [.prf, .host, .evt]
  | .commitCopyComplete | .bar0UnsupportedAccess .. => [.host]
  | .mailboxTimeout .. => [.frm, .saf, .cap, .prf, .host, .evt, .cfg, .pwr, .lgr]
  | .hostWatchdogExpiry => [.frm, .cap, .prf, .host, .evt, .pwr, .lgr]
  | .eventRingWrite => [.prf, .evt]
  | .ledgerCheck => [.cap, .prf, .evt, .lgr]
  | .faultLogCommit | .brownout | .fwWatchdogExpiry | .vcoreFault .. | .clockLoss .. => [.pwr, .lgr]
  | .faultLogCompact => [.lgr]
  | .flashWriteComplete | .cfgWrite | .lifecycle => [.prf, .host, .evt, .params, .cfg]
  | .bootStart => [.cap, .prf, .evt, .cfg, .pwr, .lgr]
  | .baseConfigStart => [.frm, .axes, .lines, .cams, .camStg, .zones, .steps, .encs, .net, .dsp, .red, .fio, .cap, .prf,
    .host, .evt, .params, .cfg, .lgr]
  | .standbyRailsUp => [.saf, .pwr, .lgr]
  | .railSequenceStart | .droopClear .. | .calvingStageExit .. | .powerOnReset | .vioRestored => [.pwr]
  | .resetRelease .. => [.frm, .host, .cfg, .pwr]
  | .startupChecksComplete .. => [.net, .pwr]
  | .droopDetect .. => [.prf, .pwr]
  | .calvingStage4 .. => [.red, .saf, .fio, .cap, .prf, .evt, .pwr, .lgr]
  | .resetPin => [.fio, .cap, .prf, .evt, .pwr, .lgr]
  | .coreDieReset => [.frm, .axes, .lines, .cams, .camStg, .zones, .steps, .encs, .net, .dsp, .red, .saf, .fio, .cap,
    .prf, .host, .evt, .params, .cfg, .pwr, .lgr]
  | .pcieRefclkLoss | .perstN | .pcieLinkUp .. => [.host, .pwr]
  | .mailboxBufferWrite .. | .outputWindowWrite .. | .mbxAlloc | .mbxAns .. | .mbxPicommit .. | .mbxPoola | .devAlive ..
    | .netHeadidLo | .prfCycLo | .prfCntLo .. | .prfSetcmd .. | .prfCtrl .. | .prfCfg .. | .prfBwMinmax .. | .prfTagctl ..
    | .prfTagd0 => [.prf, .host]
  | .mbxDb .. | .mbxFree .. => [.cap, .prf, .host, .evt, .lgr]
  | .pwrRstreq .. => [.fio, .cap, .prf, .host, .evt, .pwr, .lgr]
  | .pwrVmain | .pwrVcore => [.prf, .host, .pwr]
  | .frmTimeLo | .frmFcntLo | .frmT0Lo | .frmLsinLo => [.frm, .prf, .host]
  | .frmTurnmax => [.frm, .net, .prf, .host]
  | .netOfsrange | .netPeeridLo => [.net, .prf, .host]
  | .dspDescidx .. | .dspTrcctl .. | .dspTrcd0 | .dspRdydep .. | .dspPreempt => [.dsp, .prf, .host]
  | .redImgfcLo | .redTkfcLo | .redHbmiss => [.red, .prf, .host]
  | .lgrSel .. => [.prf, .host, .lgr]
  | .registerWrite .. => [.frm, .net, .dsp, .saf, .fio, .cap, .prf, .host, .evt, .pwr, .lgr]
  | .yield => [.red, .prf, .host, .evt]
  | .camWrite => [.camStg, .prf, .host, .evt]
  | .camLoad => [.cams, .prf, .host, .evt]
  | .cfgActivate => [.frm, .axes, .lines, .cams, .zones, .net, .dsp, .red, .saf, .fio, .cap, .prf, .host, .evt, .params,
    .cfg, .lgr]
  | .firmwareActivate | .keyProvision => [.prf, .host, .evt, .cfg]
  | .safeReset => [.saf, .prf, .host, .evt]
  | .safeClear => [.saf, .cap, .prf, .host, .evt, .lgr]
  | .fioQuiesce | .fioResume | .fioRearm => [.fio, .prf, .host, .evt]
  | .captStart | .captStop | .captForce => [.cap, .prf, .host, .evt]
  | .counterOverflow .. => [.prf]

end Sys2Proof.Machine
end

