-- ==== Sys2Proof/Certificates/Slice0/Obligations.lean ====
section
/-! DEFINITION. The statements about the model. Each docstring names the rules of spec/ a statement formalises; where a clause
rests on a choice of the model's, it names the entry of the assumption log. -/

open Sys2Proof Sys2Proof.Machine

/-! ## The block as a whole -/

/-- A step takes the command at the front of the queue and runs it on the state with the queue's rest. -/
def Obligations.StepRunsFrontCommand : Prop :=
  ∀ (i : Instr) (rest : List Instr) (s : State), step { s with pending := i :: rest } = exec i { s with pending := rest }

/-- With no command waiting one CK_NET cycle passes: device time grows by 3.2 ns where no rate trim and no slew is in force, and the
queue stays empty. The idle cycle is the model's choice (log 31). -/
def Obligations.EmptyQueuePassesOneCycle : Prop :=
  ∀ s : State, s.pending = [] → s.frm.lsTrim = 0 → s.frm.fixTrim = 0 → s.net.rate = [] → s.frm.slewRem = 0 →
    s.frm.trimAcc = 0 →
    ∃ t, step s = .next t ∧ t.pending = [] ∧ t.frm.now = s.frm.now + 16

/-- Every command answers a next state and leaves every part of the state outside its write set as it was; the queue is in no
command's write set. -/
def CommandsKeepToTheirWriteSets : Prop :=
  ∀ (i : Instr) (s : State), ∃ t, exec i s = .next t ∧ Only (writes i) s t ∧ t.pending = s.pending

/-- Every state steps to a next state whose queue is the present one without its front command. -/
def EveryStepTakesOneCommand : Prop :=
  ∀ s : State, ∃ t, step s = .next t ∧ t.pending = s.pending.tail

/-- R25: no command lets device time decrease, but the CSM at which a part takes its time from its head (R27), and the core
die's reset and release, at which it starts anew. -/
def Obligations.DeviceTimeNeverDecreases : Prop :=
  ∀ (i : Instr) (s t : State), (∀ b bytes x, i ≠ .csmReceived b bytes x) → (∀ h b v, i ≠ .resetRelease h b v) →
    i ≠ .coreDieReset → exec i s = .next t → s.frm.now ≤ t.frm.now

/-- The lifecycle state is one of the four, and a change that awaits the next reset is to the state after it (R421). -/
def LifecycleForward (s : State) : Prop :=
  s.cfg.lcy ≤ 3 ∧ ∀ n, s.cfg.lcyNext = some n → n = s.cfg.lcy + 1 ∧ n ≤ 3

/-- R421: every step keeps the lifecycle to single forward moves: the state never falls, never rises by more than one, and
stays one of the four. -/
def Obligations.LifecycleMovesForwardOnly : Prop :=
  ∀ s t : State, LifecycleForward s → step s = .next t →
    LifecycleForward t ∧ (t.cfg.lcy = s.cfg.lcy ∨ t.cfg.lcy = s.cfg.lcy + 1)

/-- The premise of LifecycleMovesForwardOnly holds after reset. The lifecycle state a part is shipped in is the model's choice
(log 19). -/
def LifecycleForwardAtReset : Prop := LifecycleForward State.reset

/-- The memories of the mailbox buffers and of the flash, and the tables of axes, zones, step channels and encoder inputs, are in
canonical form: keys rising, no entry equal to what an unlisted key reads as. -/
structure Canonical (s : State) : Prop where
  mbx : Memory.wf ramByte s.host.mem = true
  flash : Memory.wf flashByte s.cfg.flash = true
  axes : twf ({} : Axis) s.axes = true
  zones : twf ({} : Zone) s.zones = true
  steps : twf ({} : StepCh) s.steps = true
  encs : twf ({} : Enc) s.encs = true

/-- Every step keeps memories and tables in canonical form, whatever the command. -/
def Obligations.CanonicalFormIsKept : Prop :=
  ∀ s t : State, Canonical s → step s = .next t → Canonical t

/-- The premise of CanonicalFormIsKept holds after reset. -/
def CanonicalFormAtReset : Prop := Canonical State.reset

/-! ## The frame and its time-stamps (01) -/

/-- R15, R26, R29: FRAME_TICK begins the next frame: T0 moves on by P and the frame counter by one (the cycle's first tick leaves
both as they stand), the tick waits for its effect, and LSYNC rises, in every role, while FRAME.LSYNC_EN is 1. LSYNC_FALL ends the
pulse. -/
def FrameTickBeginsTheFrame : Prop :=
  (∀ s : State, s.frm.run = true → s.frm.tickPend = false → s.pwr.up = true →
    ∃ t, exec .frameTick s = .next t ∧
      t.frm.t0 = (if s.frm.first then s.frm.t0 else s.frm.t0 + 5 * s.frm.period) ∧
      t.frm.frame = (if s.frm.first then s.frm.frame else s.frm.frame + 1) ∧
      t.frm.tickPend = true ∧ t.frm.first = false ∧
      (s.pn 1 0 8 = 1 → t.frm.lsync = true ∧ t.frm.lsyncFall = t.frm.t0 + 5 * s.pn 1 0 9)) ∧
  (∀ s : State, s.frm.lsync = true →
    ∃ t, exec .lsyncFall s = .next t ∧ t.frm = { s.frm with now := max s.frm.now s.frm.lsyncFall, lsync := false,
                                                               slewRem := s.frm.slewRem - s.slewOver s.frm.lsyncFall })

/-- R30, R31: an edge of LSYNC_IN of the polarity FRAME.LSIN_POL selects (0 rising, 1 falling) in STAMP or LOCK mode is stamped in
the head; four windows without one raise EV_LSYNC_LOST, clear LSLOCK and hold the trim. In the other roles, in mode OFF, and of the
other polarity an edge changes nothing. -/
def LsyncInIsStampedAndWatched : Prop :=
  (∀ (s : State) (rise : Bool) (t : Nat), s.frm.role = .head → s.pn 1 0 10 ≠ 0 → (rise = true ↔ s.pn 1 0 11 = 0) →
    ∃ u, exec (.lsyncInEdge ⟨rise, t⟩) s = .next u ∧ u.frm.lsin = BitVec.ofNat 64 (t / 5) ∧ u.frm.lsEdge = some t ∧
      u.frm.lsTrim = s.frm.lsTrim ∧ (s.pn 1 0 10 = 1 → u.frm.lsTarget = s.frm.lsTarget ∧ u.frm.lslock = s.frm.lslock)) ∧
  (∀ (s : State) (rise : Bool) (t : Nat), s.frm.role ≠ .head ∨ s.pn 1 0 10 = 0 ∨ (rise = true ↔ s.pn 1 0 11 ≠ 0) →
    exec (.lsyncInEdge ⟨rise, t⟩) s = .next s) ∧
  (∀ (s : State) (e : Nat), s.frm.lsEdge = some e → s.frm.role = .head → s.pn 1 0 10 ≠ 0 →
    ∃ u, exec .lsyncInLoss s = .next u ∧ u.frm.lslock = false ∧ u.frm.lsEdge = none ∧ u.frm.lsTarget = s.frm.lsTrim ∧
      u.frm.lsTrim = s.frm.lsTrim ∧ u.frm.ovr = s.frm.ovr ||| 16 ∧ u.hasEvent evLsyncLost devObj)

/-! ## The network cycle in the head (06) -/

/-- R167, R169: a static frame that a slot's window claims is VALID where it passes every test, CORRUPT (or LATE still) where it
fails one; one that no window claims, its header naming the slot, is LATE. -/
def StaticFramesAreJudged : Prop :=
  ∀ (s : State) (b : Fin 8) (f : List Byte) (t : Nat) (err : Bool), s.headBranch b = true →
    let x := s.rxFrame b t f err
    x.net.slotFin.getLsbD b = false →
    (∀ p, x.slotClaim b t (x.nS b) = some p → (x.node b p).prov ≠ .valid → x.staticOk b p f err = true →
      ∃ u, exec (.staticFrameReceived b f t err) s = .next u ∧ (u.node b p).prov = .valid ∧ (u.node b p).present = true ∧
        (u.node b p).fresh = true) ∧
    (∀ p, x.slotClaim b t (x.nS b) = some p → (x.node b p).prov ≠ .valid → x.staticOk b p f err = false →
      ∃ u, exec (.staticFrameReceived b f t err) s = .next u ∧
        (u.node b p).prov = (if (x.node b p).prov = .late then .late else .corrupt)) ∧
    (x.slotClaim b t (x.nS b) = none → hchkOk f = true → (frameHdr f).ty = 3 → (frameHdr f).branch = b →
      (frameHdr f).pos < x.nS b → (frameHdr f).fcnt = x.frm.frame.toNat % 65536 → (x.node b (frameHdr f).pos).prov ≠ .valid →
      ∃ u, exec (.staticFrameReceived b f t err) s = .next u ∧ (u.node b (frameHdr f).pos).prov = .late)

/-- R168, R223: at a slot's latest acceptance instant e_k its event, where none has occurred, is under way to the dispatcher: 24
CK_CORE cycles from the phase of e_k. -/
def SlotDeadlineMakesTheSlotEvent : Prop :=
  ∀ (s : State) (b : Fin 8) (p : Fin 32), s.headBranch b = true → p.val < s.nS b →
    (s.node b p).evDone = false → (s.node b p).evPend = none →
    ∃ u, exec (.slotDeadline b p) s = .next u ∧ u.frm.now = max s.frm.now (s.slotEnd b p) ∧
      (u.node b p).evPend = some ((s.goto (s.slotEnd b p)).phaseAt (s.slotEnd b p) + 25 * 24)

/-- R169, R170: at E_dyn every static slot of the branch counts exactly one outcome in the ledger's terms, and the outcomes are
final until the next frame. -/
def Obligations.EverySlotCountsOneOutcome : Prop :=
  ∀ (s : State) (b : Fin 8), s.headBranch b = true → s.net.slotFin.getLsbD b = false →
    ∃ u, exec (.slotOutcomeFinal b) s = .next u ∧ u.net.slotFin.getLsbD b = true ∧
      ∀ p, p < s.nS b → p < 32 →
        (u.node b p).lSched = (s.node b p).lSched + 1 ∧
        (u.node b p).lValid + (u.node b p).lEmpty + (u.node b p).lCorrupt + (u.node b p).lLate =
          (s.node b p).lValid + (s.node b p).lEmpty + (s.node b p).lCorrupt + (s.node b p).lLate + 1

/-- R200: the eighth consecutive EMPTY outcome clears PRESENT, with EV_NODE_LOST once a frame. R203: 256 offsets close the
average; a mean within one byte time leaves the trim as it is. -/
def NodeWatchActs : Prop :=
  (∀ (s : State) (b : Fin 8) (p : Fin 32), (s.node b p).present = true → 8 ≤ (s.node b p).emptyRun →
    ∃ u, exec (.nodeLost b p) s = .next u ∧ (u.node b p).present = false ∧
      (s.seenEv evNodeLost (nodeKey b p) = false → u.hasEvent evNodeLost (nodeKey b p))) ∧
  (∀ (s : State) (b : Fin 8) (p : Fin 32), s.headBranch b = true →
    256 ≤ (s.node b p).avgN →
    ∃ u, exec (.dlyTrimAverage b p) s = .next u ∧ (u.node b p).avgN = 0 ∧ (u.node b p).avgSum = 0 ∧
      ((s.node b p).avgSum.natAbs < 256 * s.tB → (u.node b p).trim = (s.node b p).trim ∧ (u.node b p).avgOk = true))

/-- R179: a dynamic uplink frame in a granted mini-slot is USED where it passes every test, CORRUPT where it fails one. -/
def DynamicFramesAreJudged : Prop :=
  ∀ (s : State) (b : Fin 8) (f : List Byte) (t : Nat) (err : Bool), s.headBranch b = true →
    let x := s.rxFrame b t f err
    x.net.slotFin.getLsbD b = false → ∀ m, x.dynClaim b (x.branch b).grant.toNat t (x.mB b) = some m →
    tget 0 (x.branch b).credit m ≠ 1 →
    ∃ u, exec (.dynamicUplinkReceived b f t err) s = .next u ∧
      (x.dynOk b m f err = true → tget 0 (u.branch b).credit m = 1) ∧
      (x.dynOk b m f err = false → tget 0 (u.branch b).credit m = 2 ∨ tget 0 (u.branch b).credit m = 3)

/-- R18, R171, R252: C_max(b) passes, and the block has been sent from then on; a block whose kernels are all done and whose
packing is under way starts at C(b), seen from U0. -/
def CommandBlocksStart : Prop :=
  (∀ (s : State) (b : Fin 8), s.headBranch b = true → s.red.silentTx = false → s.bridging = false →
    (s.branch b).blkSent = false → s.branchDone b = true → (s.packPhase b).isSome = true →
    let w := s.goto (min s.instU0 (s.cMax b))
    ∃ u, exec (.commandBlockStart b) s = .next u ∧ u.frm.now = max w.frm.now (w.blockAt b) ∧
      (u.branch b).blkSent = true ∧ (u.branch b).block = (w.goto (w.blockAt b)).blockFrame b) ∧
  (∀ (s : State) (b : Fin 8), s.headBranch b = true → s.red.silentTx = false →
    ∃ u, exec (.commandBlockDeadline b) s = .next u ∧ u.frm.now = max s.frm.now (s.cMax b) ∧
      (u.branch b).ddl = true ∧ (u.branch b).blkSent = true)

/-- R180, R181: the first dynamic downlink frame of a segment is the keeper frame, at the segment's grid, where it ends by
E_dyn; then a queued frame that fits is sent and leaves the queue. -/
def DynamicDownlinkFramesGoInOrder : Prop :=
  (∀ (s : State) (b : Fin 8), s.headBranch b = true → s.red.silentTx = false → (s.branch b).blkSent = true →
    s.sendsKeeper = true → (s.branch b).kfSent = false → s.dynFits ((s.branch b).gridStart s.tB s.frm.now) (s.keeperFrame b) = true →
    ∃ u, exec (.dynamicDownlinkFrame b) s = .next u ∧ (u.branch b).kfSent = true ∧
      (u.branch b).keeperF = s.keeperFrame b ∧ (u.branch b).dynQ = (s.branch b).dynQ) ∧
  (∀ (s : State) (b : Fin 8) (d : DynFrame), s.headBranch b = true → s.red.silentTx = false → (s.branch b).blkSent = true →
    (s.branch b).kfSent = true →
    (s.branch b).dynQ.find? (fun d => (!s.net.calve || d.cls == 0) &&
      s.dynFits ((s.branch b).gridStart s.tB s.frm.now) (s.dynFrame b d)) = some d →
    ∃ u, exec (.dynamicDownlinkFrame b) s = .next u ∧ (u.branch b).dynF = s.dynFrame b d ∧
      (u.branch b).dynQ = (s.branch b).dynQ.erase d)

/-- R186, R190: a port of a running PHY that gains its link shows LINK, and SYNC where its PCS is synchronised; one that loses
synchronisation shows no SYNC, and no LINK where the link is lost, and in the cycle EV_LINK_DOWN is raised once a frame. -/
def LinksComeAndGo : Prop :=
  (∀ (s : State) (port : Fin 9) (sync : Bool) (t : Nat), (s.portOf port).phyOn = true →
    ∃ u, exec (.linkUp port sync t) s = .next u ∧ (u.portOf port).link = true ∧ (u.portOf port).sync = sync) ∧
  (∀ (s : State) (port : Fin 9) (link : Bool) (t : Nat),
    ∃ u, exec (.linkDown port ⟨link, t⟩) s = .next u ∧ (u.portOf port).link = ((s.portOf port).link && link) ∧
      (u.portOf port).sync = false ∧
      (port.val < 8 → (s.branch port).inCycle = true → (s.goto t).seenEv evLinkDown port = false → u.hasEvent evLinkDown port))

/-! ## Starting, joining and keeping time (07) -/

/-- R191, R192: a head-role part listens for two frame periods; having heard no CSM it begins its cycle at the window's end with
frame 0 and epoch 1; having heard another head's it stays silent, raises EV_HEAD_SEEN and listens again, unless the CSM is its
pair's, which makes it the standby. -/
def ColdstartListensFirst : Prop :=
  (∀ s : State, s.cfg.running = true → s.frm.role = .head → s.net.cs = .idle →
    ∃ t, exec .coldstartStart s = .next t ∧ t.net.cs = .listening ∧ t.net.csEnd = s.frm.now + 2 * s.per ∧
      t.net.csSeen = false) ∧
  (∀ s : State, s.net.cs = .listening ∨ s.net.cs = .silent → s.net.csSeen = false →
    ∃ t, exec .listenWindowExpiry s = .next t ∧ t.frm.run = true ∧ t.frm.first = true ∧ t.frm.frame = 0 ∧
      t.frm.t0 = s.net.csEnd ∧ t.net.epoch = 1 ∧ t.net.cs = .early) ∧
  (∀ s : State, s.net.cs = .listening ∨ s.net.cs = .silent → s.net.csSeen = true → s.paired = false →
    ∃ t, exec .listenWindowExpiry s = .next t ∧ t.net.cs = .silent ∧ t.frm.run = s.frm.run ∧
      t.hasEvent evHeadSeen devObj) ∧
  (∀ s : State, s.net.cs = .listening ∨ s.net.cs = .silent → s.net.csSeen = true → s.paired = true →
    s.net.peerId = s.peer → s.frm.role = .head →
    ∃ t, exec .listenWindowExpiry s = .next t ∧ t.frm.role = .standby ∧ t.frm.run = false ∧ t.frm.tsync = false)

/-- R27, R196, R197, R199: in LISTEN a well-formed CSM gives the part its head, and with the first branch its frame counter and T0,
its tick runs, and it enters SETTLE. In SYNC or HOLD the CSMs inside the frame's window are kept; when the window closes, the valid
one of the highest epoch is obeyed and clears the misses, and without one a miss is counted, the fourth of which loses SYNC. -/
def CsmsMoveTheJoinMachine : Prop :=
  (∀ (s : State) (b : Fin 8) (f : List Byte) (t : Nat), s.follows = true → s.net.muteTo ≤ t →
    let k := s.joinKey b
    let x := s.rxFrame b t f false
    let c := { csmOf f (t + 8 * x.tB) with port := b }
    x.csmWellFormed k f = true →
    ((x.join k).st = .listen →
      ∃ u, exec (.csmReceived b f ⟨t, false⟩) s = .next u ∧ (u.join k).st = .settle ∧ (u.join k).settleN = c.fcnt ∧
        u.net.obeyId = c.headId ∧ u.net.obeyEpoch = c.epoch ∧
        (x.timeSet = false → u.frm.frame = c.fcnt ∧ u.frm.run = true ∧ u.frm.tsync = true ∧ u.frm.t0 = 5 * c.t0.toNat) ∧
        (x.timeSet = true → u.frm = x.frm)) ∧
    ((x.join k).st = .sync ∨ (x.join k).st = .hold → x.csmInFrame k c = true → (x.join k).decided = false →
      ∃ u, exec (.csmReceived b f ⟨t, false⟩) s = .next u ∧
        u.join k = { x.join k with cands := (x.join k).cands ++ [c] } ∧ u.frm = x.frm)) ∧
  (∀ (s : State) (b : Fin 8), s.follows = true → s.frm.run = true →
    let k := s.joinKey b
    let j := s.join k
    s.red.winDone.getLsbD k = false → j.decided = false →
    (∀ c, j.st = .sync ∨ j.st = .hold → pickCsm j.cands = some c → s.csmValid k c = true →
      ∃ u, exec (.csmWindowClose b) s = .next u ∧ (u.join k).st = .sync ∧ (u.join k).misses = 0 ∧ (u.join k).kept = some c ∧
        u.net.obeyId = c.headId ∧ u.net.obeyEpoch = c.epoch) ∧
    ((pickCsm j.cands).filter (s.csmValid k) = none →
      ∃ u, exec (.csmWindowClose b) s = .next u ∧
        (j.st = .sync → (u.join k).st = .hold ∧ (u.join k).misses = 1) ∧
        (j.st = .hold → j.misses < 3 → (u.join k).st = .hold ∧ (u.join k).misses = j.misses + 1) ∧
        (j.st = .hold → 3 ≤ j.misses → (u.join k).st = .listen ∧ u.hasEvent evSyncLoss k)))

/-- R182, R199, R203: what a part that follows a head takes from the head's other frames: a command block in the SETTLE frame,
keeper references for the next frame, a path trim. -/
def FollowersHearTheirHead : Prop :=
  (∀ (s : State) (b : Fin 8) (f : List Byte) (t : Nat), s.follows = true → (s.join (s.joinKey b)).st = .settle →
    (s.join (s.joinKey b)).settleN = s.frm.frame → hchkOk f = true → fcsOk f = true → (frameHdr f).ty = 2 →
    (frameHdr f).fcnt = s.frm.frame.toNat % 65536 → (frameHdr f).epoch = s.net.obeyEpoch.toNat →
    ∃ u, exec (.commandBlockReceived b f t) s = .next u ∧ (u.join (s.joinKey b)).block = true) ∧
  (∀ (s : State) (b : Fin 8) (f : List Byte) (t : Nat) (c : Csm), s.follows = true →
    (s.join (s.joinKey b)).kept = some c → c.cflags.getLsbD 0 = true →
    intact f false = true → (frameHdr f).ty = 6 → (frameHdr f).fcnt = s.frm.frame.toNat % 65536 →
    ∃ u, exec (.keeperFrameReceived b f t) s = .next u ∧ u.net.kref = s.net.kref ∧
      u.net.krefNext = (keeperEntries f).foldl (fun t e =>
        tset none (s.joinKey b * 256 + e.1 * 8 + e.2.1) (some (e.2.2.1, e.2.2.2)) t) s.net.krefNext) ∧
  (∀ (s : State) (b : Fin 8) (f : List Byte) (t : Nat), s.frm.role = .node →
    intact f false = true → (frameHdr f).ty = 5 → (frameHdr f).pos = s.pn 2 0 17 → dynClass f = 2 →
    2 ≤ (dynBody f).length →
    ∃ u, exec (.dlyTrimReceived b f t) s = .next u ∧ (u.join (s.joinKey b)).dTrimNew =
      (s.join (s.joinKey b)).dTrimNew + (BitVec.ofNat 16 (beAt (dynBody f) 0 2)).toInt)

/-- R163, R184, R205, R210 to R212, R239: a part in the node role sends its static frame, sends process data under a grant where no
safety PDU waits and CALVE does not keep it back, keeps the process data it hears for the next frame's A, passes its next fence with
a frame it repeats toward the head cut there, and turns toward the port whose CSM it holds from the next frame on. -/
def NodeRoleKeepsItsCycle : Prop :=
  (∀ s : State, s.nodeSpeaks = true →
    let t := ((s.slotStart (s.pn 2 0 16) (s.pn 2 0 17) : Int) - s.ownDelay (s.pn 2 0 16) s.headPort).toNat
    ∃ u, exec .nodeStaticTransmit s = .next u ∧ u.frm.now = max s.frm.now t ∧ u.net.nrole.statF = (s.goto t).nodeStatic) ∧
  (∀ (s : State) (m : Fin 32) (c : Csm), (s.join (s.pn 2 0 16)).kept = some c → s.nodeSpeaks = true →
    (s.join (s.pn 2 0 16)).st = .sync → s.net.noDyn = false → bitOf c.grant.toNat m = true →
    s.msOwner (s.pn 2 0 16) m = s.pn 2 0 17 →
    let x := s.goto (((s.msStart (s.pn 2 0 16) c.grant.toNat m : Int) - s.ownDelay (s.pn 2 0 16) s.headPort).toNat)
    let f := x.nodeFrame 4 60 x.inKeeper (dynPayload 3 x.processData)
    x.upUnsent = [] →
    (s.net.calve = true → exec (.nodeDynamicTransmit m) s = .next x) ∧
    (s.net.calve = false → wireB f + 32 ≤ s.msWidth (s.pn 2 0 16) (s.pn 2 0 17) →
      ∃ u, exec (.nodeDynamicTransmit m) s = .next u ∧ u.net.nrole.upFrame = f)) ∧
  (∀ (s : State) (b : Fin 8) (f : List Byte) (t : Nat), s.frm.role = .node → intact f false = true → (frameHdr f).ty = 5 →
    (frameHdr f).pos = s.pn 2 0 17 → dynClass f = 3 → (frameHdr f).fcnt = s.frm.frame.toNat % 65536 →
    max s.frm.now (t + wireB f * s.tB) ≤ s.eDyn →
    ∃ u, exec (.processDataReceived b f t) s = .next u ∧ 
      u.net.nrole.down = s.net.nrole.down ++ [(s.frm.frame.toNat, dynBody f)]) ∧
  (∀ (s : State) (b : Fin 8) (p : Nat), s.frm.role = .node → s.frm.run = true → p ∈ s.passes → s.frm.now ≤ p - 13 * s.tB →
    ∃ u, exec (.fence b) s = .next u ∧ u.frm.now ≤ p - 13 * s.tB ∧ (∃ q ∈ s.passes, u.frm.now = q - 13 * s.tB) ∧
      u.net.rep = tmod {} s.headPort (fun r => r.fence s.tB u.frm.now) s.net.rep) ∧
  (∀ (s : State) (c : Csm), s.frm.role = .node → s.frm.run = true →
    (((s.goto (s.decisionAt (s.pn 2 0 16))).decideCsm (s.pn 2 0 16)).join (s.pn 2 0 16)).kept = some c →
    s.net.orient ≠ some (c.port == 0) →
    ∃ u, exec .orientationDecision s = .next u ∧ u.net.orientNext = some (c.port == 0) ∧ u.net.orient = s.net.orient ∧
      u.net.noDyn = true)

/-! ## The dispatcher (08) -/

/-- R224, R225: the head of the level-0 list goes to the lowest free lane group; with level 0 empty, the head of level 1 goes only
where the trailing gate of its frame is open. -/
def KernelsAreDispatchedByLevel : Prop :=
  (∀ (s : State) (k d : Nat) (r : List Nat), s.freeLane = some k → s.red.restartOn = false → s.frm.role ≠ .standby →
    s.readyList 0 = d :: r →
    ∃ u, exec .kernelDispatch s = .next u ∧ u.frm.now = max s.frm.now (s.task d).readyAt ∧ (u.task d).st = .run ∧
      (u.task d).lane = k ∧ tget 0 u.dsp.lanes k = d + 1 ∧
      u.dsp.ready = tset [] 0 r s.dsp.ready) ∧
  (∀ s : State, s.readyList 0 = [] → s.gateCheck.gateAdmits = false → exec .kernelDispatch s = .next s.gateCheck)

/-- R221, R223: a slot's first event in a frame decrements the dependence counters of the kernels bound to it; S + 500 ns does so
for the local node's; a firmware signal for the descriptor it names, where a counter at zero raises EV_DEP_FAULT. R222, R228: a
decrement that comes after the task's timeout is discarded. -/
def DependencesAreCountedDown : Prop :=
  (∀ (s : State) (b : Fin 8) (p : Fin 32) (t d : Nat), (s.node b p).evPend = some t → (s.node b p).evDone = false →
    s.bound (nodeKey b p) = [d] → (s.task d).cls = .critical → (s.task d).dep ≠ 0 → (s.task d).tmo = false → d < 256 →
    ∃ u, exec (.slotEvent b p) s = .next u ∧ (u.node b p).evDone = true ∧ (u.node b p).evPend = none ∧
      (u.task d).dep = (s.task d).dep - 1 ∧
      ((s.task d).dep = 1 → (s.task d).st = .wait → (u.task d).st = .ready)) ∧
  (∀ (s : State) (d : Nat), s.frm.run = true → s.bound 256 = [d] → (s.task d).dep ≠ 0 → (s.task d).tmo = false →
    ∃ u, exec .lnFeedbackValid s = .next u ∧ u.frm.now = max s.frm.now (s.instS + 2500) ∧
      (u.task d).dep = (s.task d).dep - 1) ∧
  (∀ (s : State) (d : Fin 1024), (s.task d).cls ≠ .unused → (s.task d).dep ≠ 0 → (s.task d).tmo = false →
    ∃ u, exec (.firmwareSignal d) s = .next u ∧ (u.task d).dep = (s.task d).dep - 1) ∧
  (∀ (s : State) (d : Fin 1024), (s.task d).cls ≠ .unused → (s.task d).tmo = true → (s.task d).dep = 0 ∨ (s.task d).st ≠ .wait →
    ∃ u, exec (.firmwareSignal d) s = .next u ∧ u.dsp = s.dsp) ∧
  (∀ (s : State) (d : Fin 1024), (s.task d).cls ≠ .unused → (s.task d).dep = 0 → (s.task d).tmo = false →
    ∃ u, exec (.firmwareSignal d) s = .next u ∧ u.dsp.fault = s.dsp.fault ||| 1 ∧
      (s.seenEv evDepFault devObj = false → u.hasEvent evDepFault devObj))

/-- R217 to R219, R227, R228: a firmware release of an idle thread counts a release; a descriptor that departs from R218 is refused,
and one that does not is created and released; an idle thread's descriptor is removed. A task whose delay has passed becomes ready;
one whose wait times out becomes ready with TMO, its fault flag and its count. -/
def TasksBecomeReady : Prop :=
  (∀ (s : State) (d : Fin 1024), (s.task d).cls = .thread → (s.task d).st = .idle → (s.task d).succ = [] →
    (s.task d).affin ≠ 3 ∨ s.pwr.fp3Gated = false →
    ∃ u, exec (.firmwareRelease ⟨d, .release⟩) s = .next u ∧ u.dsp.tRel = s.dsp.tRel + 1 ∧
      (u.task d).relcnt = (s.task d).relcnt + 1) ∧
  (∀ (s : State) (d : Fin 1024) (x : ThreadDesc), s.admits d x = false → exec (.firmwareRelease ⟨d, .create x⟩) s = .next s) ∧
  (∀ (s : State) (d : Fin 1024) (x : ThreadDesc), s.admits d x = true → x.succ = [] → x.fp ≠ 3 ∨ s.pwr.fp3Gated = false →
    ∃ u, exec (.firmwareRelease ⟨d, .create x⟩) s = .next u ∧ (u.task d).cls = .thread ∧ (u.task d).level = x.level ∧
      (u.task d).relcnt = 1 ∧ u.dsp.tRel = s.dsp.tRel + 1) ∧
  (∀ (s : State) (d : Fin 1024), (s.task d).cls = .thread → (s.task d).st = .idle →
    ∃ u, exec (.firmwareRelease ⟨d, .remove⟩) s = .next u ∧ u.task d = {}) ∧
  (∀ (s : State) (d : Fin 1024), (s.task d).cls = .critical ∨ (s.task d).cls = .trailing → s.leaves d = true →
    (s.task d).st = .delay →
    ∃ u, exec (.delayExpiry d) s = .next u ∧ (u.task d).st = .ready ∧
      u.readyList (s.task d).level = s.readyList (s.task d).level ++ [d.val]) ∧
  (∀ (s : State) (d : Fin 1024), (s.task d).cls = .critical ∨ (s.task d).cls = .trailing → s.leaves d = true →
    (s.task d).st = .wait → (s.task d).dep ≠ 0 →
    ∃ u, exec (.timeoutExpiry d) s = .next u ∧ (u.task d).st = .ready ∧ (u.task d).tmo = true ∧
      u.dsp.fault = s.dsp.fault ||| 4 ∧ u.dsp.tmoCnt = satInc s.dsp.tmoCnt)

/-- R226: a running thread gives way to one of a strictly higher level; blocks, on its present DEP or on a delay, DEP and TMO not
being reloaded; or yields and is ready again behind a thread of its level that became ready in an earlier cycle. -/
def ThreadsGiveWay : Prop :=
  (∀ (s : State) (fp : Fin 4) (d l d' : Nat) (r : List Nat), s.runningOn fp = some d → s.topLevel fp = some l →
    l < (s.task d).level → (s.task d).cls = .thread → (s.task d).affin = fp → (s.task d).level < 8 →
    s.readyList (8 + 8 * fp + l) = d' :: r → d' ≠ d →
    ∃ u, exec (.threadPreempt fp) s = .next u ∧ (u.task d).st = .preempted ∧
      tget 0 u.dsp.preempt fp = satAdd 8 (tget 0 s.dsp.preempt fp) 1) ∧
  (∀ (s : State) (fp : Fin 4) (base : Fin 3) (delay t d : Nat), s.runningOn fp = some d → (s.task d).cls = .thread →
    (∀ k, d ∉ s.readyList k) → (s.task d).dep ≠ 0 ∨ base ≠ 0 →
    ∃ u, exec (.threadBlock fp base delay t) s = .next u ∧ (u.task d).st = (if (s.task d).dep = 0 then .delay else .wait) ∧
      (u.task d).dep = (s.task d).dep ∧ (u.task d).tmo = (s.task d).tmo ∧ (u.task d).tbase = (s.task d).tbase ∧
      (u.task d).delay = (s.task d).delay ∧ s.frm.now ≤ u.frm.now ∧
      (base = 0 → u.dsp.delays = s.dsp.delays) ∧ (base ≠ 0 → d ∈ u.dsp.delays)) ∧
  (∀ (s : State) (fp : Fin 4) (d x : Nat) (r : List Nat), s.runningOn fp = some d → (s.task d).cls = .thread →
    (∀ k, d ∉ s.readyList k) → s.readyList (readyKey (s.task d)) = x :: r → (s.task x).readyCyc ≠ s.prf.core →
    ∃ u, exec (.threadYield fp) s = .next u ∧ (u.task d).st = .ready)

/-- R18, R20 to R22, R498: what an overrun does. Unfinished LN kernels are abandoned at A − 1 µs; undispatched trailing kernels of
an earlier frame are skipped and counted at U0; a frame-bound thread past its tick and the third frame of a series raise their
events. -/
def OverrunsAreCounted : Prop :=
  (∀ s : State, s.frm.run = true →
    ∃ u, exec .lnKernelDeadline s = .next u ∧ u.frm.now = max s.frm.now (s.instA - 5000) ∧
      ∀ i, i < 256 → s.axType i ≠ 0 → s.isLn i = true → (s.axis i).critDone = false → (u.axis i).aband = true) ∧
  (∀ s : State, s.frm.run = true →
    ∃ u, exec .u0TrailingSkip s = .next u ∧ u.frm.now = max s.frm.now s.instU0 ∧
      u.dsp.tSkip = s.dsp.tSkip + (s.dsp.tasks.filter fun x => x.2.skippable s.frm.frame.toNat).length) ∧
  (∀ (s : State) (fp : Fin 4), s.dsp.fwOvr &&& BitVec.ofNat 4 (2 ^ fp.val) ≠ 0 →
    ∃ u, exec (.fwDeadline fp) s = .next u ∧ u.frm.ovr = s.frm.ovr ||| 8 ||| BitVec.ofNat 32 (2 ^ (8 + fp.val)) ∧
      u.hasEvent evFwOverrun devObj) ∧
  (∀ s : State, s.frm.critOvr = true → 2 ≤ s.frm.series → s.frm.seriesDone = false →
    ∃ u, exec .overrunSeries s = .next u ∧ u.frm.seriesDone = true ∧ u.frm.ovr = s.frm.ovr ||| 2 ∧
      u.hasEvent evOverrunSeries devObj)

/-- R227, R427: the sub-tick falls on the next microsecond of device time. -/
def SubTicksCountMicroseconds : Prop :=
  ∀ s : State, ∃ u, exec .subTick s = .next u ∧ u.dsp.subTick = s.dsp.subTick + 1 ∧
    u.frm.now = (s.frm.now / 5000 + 1) * 5000

/-! ## Kernels and supervision (02, 03, 04) -/

/-- R38, R44: an axis's critical kernel in its own frame. A servo axis takes what its loop chain gives where every number is
finite, and the fallback of R38 with EV_NONFINITE where one is not; a STEP axis hands its channel what its kernel gives. -/
def CriticalKernelsUpdateTheirAxis : Prop :=
  (∀ (s : State) (i : Fin 256) (t op cp : Nat), Canonical s → s.running (dAxCrit i) = true →
    let x := s.goto t
    (s.task (dAxCrit i)).frame = s.frm.frame.toNat → s.axType i ≠ 4 → (s.axis i).fromOpen = false →
    let r := servoCrit (x.P 5 i) (x.axType i) (x.critIn i s.frm.frame.toNat) (x.axis i)
    (critNumbers r.1.fb r.1.lp ++ r.2).all fFinite = true →
    ∃ u, exec (.criticalKernelComplete i t op cp) s = .next u ∧ (u.axis i).critDone = true ∧ (u.axis i).fb = r.1.fb ∧
      (u.axis i).lp = r.1.lp ∧ u.frm.now = max s.frm.now t ∧ u.frm.critLast = u.frm.now - s.frm.t0 ∧
      (s.isLn i = false → (u.branch (s.axBranch i)).packAt = some (x.phase + 25 * 128))) ∧
  (∀ (s : State) (i : Fin 256) (t op cp : Nat), Canonical s → s.running (dAxCrit i) = true →
    let x := s.goto t
    (s.task (dAxCrit i)).frame = s.frm.frame.toNat → s.axType i ≠ 4 → (s.axis i).fromOpen = false →
    let r := servoCrit (x.P 5 i) (x.axType i) (x.critIn i s.frm.frame.toNat) (x.axis i)
    (critNumbers r.1.fb r.1.lp ++ r.2).all fFinite = false →
    ∃ u, exec (.criticalKernelComplete i t op cp) s = .next u ∧ (u.axis i).critDone = true ∧
      (u.axis i).fb = (nonfiniteAxis (s.axis i)).fb ∧ (x.seenEv evNonfinite i = false → u.hasEvent evNonfinite i)) ∧
  (∀ (s : State) (i : Fin 256) (t op cp c : Nat), Canonical s → s.running (dAxCrit i) = true →
    let x := s.goto t
    (s.task (dAxCrit i)).frame = s.frm.frame.toNat → s.axType i = 4 → s.chanOf i = some c →
    ∃ u, exec (.criticalKernelComplete i t op cp) s = .next u ∧ (u.axis i).critDone = true ∧
      u.step_ c = (stepCrit (x.P 5 i) (x.critIn i s.frm.frame.toNat) (x.axis i) (x.step_ c)).2)

/-- R57, R110: the trailing kernels of axes and the zones' critical kernels give the frame the values of their chapters, where
every number is finite; a zone's trailing kernel is done with the time of its completion noted. -/
def TrailingAndZoneKernelsUpdate : Prop :=
  (∀ (s : State) (i : Fin 256) (t op cp : Nat), Canonical s → s.running (dAxTrail i) = true →
    let x := s.goto t
    let a := trailKernel (x.P 5 i) x.cam (x.trailIn i) (x.axis i)
    (trailNumbers a).all fFinite = true →
    ∃ u, exec (.trailingKernelComplete i t op cp) s = .next u ∧ (u.axis i).rf = a.rf ∧ (u.axis i).fb = a.fb ∧
      u.frm.now = max s.frm.now t ∧ u.frm.trailLast = u.frm.now - s.frm.t0) ∧
  (∀ (s : State) (z : Fin 64) (t op cp : Nat), Canonical s → s.running (dZnCrit z) = true →
    let x := s.goto t
    (s.task (dZnCrit z)).frame = s.frm.frame.toNat →
    let r := zoneCrit (x.P 6 z) (x.zoneIn z s.frm.frame.toNat) (x.zone z)
    (zoneNumbers r.1 r.2).all fFinite = true →
    ∃ u, exec (.zoneKernelComplete z t op cp) s = .next u ∧ u.zone z = { r.1 with critDone := true }) ∧
  (∀ (s : State) (z : Fin 64) (t op cp : Nat), Canonical s → s.running (dZnTrail z) = true →
    ∃ u, exec (.zoneTrailingKernelComplete z t op cp) s = .next u ∧ (u.zone z).trailDone = true ∧
      (u.zone z).skip = false ∧ u.frm.trailLast = u.frm.now - s.frm.t0)

/-- R79 to R81, R84, R148: each supervision count that reaches its limit is reported once, with its event once a frame. -/
def AxisSupervisionReports : Prop :=
  (∀ (s : State) (i : Fin 256) (c : Fin 4), Canonical s → bitOf (satDue (s.P 5 i) (s.axis i).lp) c = true →
    ∃ u, exec (.satTime i c) s = .next u ∧
      (u.axis i).lp.satRep = (s.axis i).lp.satRep ||| BitVec.ofNat 4 (satDue (s.P 5 i) (s.axis i).lp) ∧
      (s.seenEv evSatTime i = false → u.hasEvent evSatTime i)) ∧
  (∀ (s : State) (i : Fin 256), (s.axis i).st.supervised = true → s.pn 5 i 801 + 1 ≤ (s.axis i).fb.predRun →
    (s.axis i).fb.predRep = false →
    ∃ u, exec (.fbLost i) s = .next u ∧ (u.axis i).fb.predRep = true ∧ (u.axis i).fb.estNext = !(s.axis i).fb.est ∧
      (s.seenEv evFbLost i = false → u.hasEvent evFbLost i)) ∧
  (∀ (s : State) (i : Fin 256) (n : Nat), (s.axis i).st.supervised = true → (s.axis i).fb.frz = some n → s.pn 5 i 803 ≤ n →
    (s.axis i).fb.frzRep = false →
    ∃ u, exec (.fbFrozen i) s = .next u ∧ (u.axis i).fb.frzRep = true ∧ (u.axis i).fb.estNext = !(s.axis i).fb.est ∧
      (s.seenEv evFbFrozen i = false → u.hasEvent evFbFrozen i)) ∧
  (∀ (s : State) (i : Fin 256), (s.axis i).fb.est = true →
    estFrames ((s.par 5 i 804).setWidth 32) s.frm.period ≤ s.estSpent i → (s.axis i).fb.estDone = false →
    (s.axis i).stopDone = false →
    ∃ u, exec (.estExpired i) s = .next u ∧ (u.axis i).fb.estDone = true ∧
      (s.seenEv evEstExpired i = false → u.hasEvent evEstExpired i)) ∧
  (∀ (s : State) (i : Fin 256) (c : Nat), s.chanOf i = some c → s.axType i = 4 → s.pn 9 c 14 ≤ (s.axis i).mo.encDevN →
    (s.axis i).mo.encDevRep = false →
    ∃ u, exec (.encDev i) s = .next u ∧ (u.axis i).mo.encDevRep = true ∧
      (s.seenEv evEncDev i = false → u.hasEvent evEncDev i))

/-- R108, R115: a defined zone whose count of low-tension frames reaches ZONE.N_BRK, or of frames without a load-cell sample
ZONE.N_LC, reports it once; nothing of the axes changes. -/
def ZoneSupervisionReports : Prop :=
  (∀ (s : State) (z : Fin 64), s.zoneDef z = true → s.pn 6 z 51 ≤ (s.zone z).brk → (s.zone z).brkRep = false →
    ∃ u, exec (.webBreak z) s = .next u ∧ (u.zone z).brkRep = true ∧ u.axes = s.axes ∧
      (s.seenEv evWebBreak z = false → u.hasEvent evWebBreak z)) ∧
  (∀ (s : State) (z : Fin 64), s.zoneDef z = true → s.pn 6 z 12 ≤ (s.zone z).lcMiss → (s.zone z).lcRep = false →
    ∃ u, exec (.lcInvalid z) s = .next u ∧ (u.zone z).lcRep = true ∧ u.axes = s.axes ∧
      (s.seenEv evLcInvalid z = false → u.hasEvent evLcInvalid z))

/-! ## Profiles, homing, step channels, encoders (05) -/

/-- R132, R141, R142: INPOS is set when its frames have passed; a stall completes homing's search, on a STEP axis by withholding
increments from its next kernel until the reference is re-based, on another by moving its place to HOME.POS at once; a driver flag
held for HOME.T_STALL completes the search of a STEP axis that homes by it. -/
def Obligations.InposAndStallsComplete : Prop :=
  (∀ (s : State) (i : Fin 256), s.pn 5 i 950 ≤ (s.axis i).mo.inposN → (s.axis i).mo.inpos = false →
    ∃ u, exec (.inpos i) s = .next u ∧ (u.axis i).mo.inpos = true) ∧
  (∀ (s : State) (i : Fin 256), Canonical s → (s.axis i).mo.homing = true → (s.axis i).mo.homePhase = 1 →
    s.stallFrames i ≤ (s.axis i).mo.homeStall → s.axType i ≠ 4 →
    ∃ u, exec (.stall i) s = .next u ∧
      (u.axis i).fb.pos = (s.axis i).fb.pos + BitVec.ofInt 64 ((parI (s.P 5 i) 966 : Int) - (s.axis i).fb.pos.toInt) ∧
      (u.axis i).mo.homePhase = 2 ∧ u.steps = s.steps) ∧
  (∀ (s : State) (i : Fin 256) (c : Nat), (s.axis i).mo.homing = true → (s.axis i).mo.homePhase = 1 →
    s.stallFrames i ≤ (s.axis i).mo.homeStall → s.axType i = 4 → s.pn 5 i 969 = 1 → s.chanOf i = some c →
    ∃ u, exec (.stall i) s = .next u ∧ (u.axis i).mo.homePhase = 2 ∧ (u.step_ c).hold0 = true) ∧
  (∀ (s : State) (i : Fin 256) (c t : Nat), (s.axis i).mo.homing = true → (s.axis i).mo.homePhase = 1 → s.axType i = 4 →
    s.pn 5 i 969 = 2 → s.pn 9 (s.pn 5 i 970) 72 = 2 → (s.enc (s.pn 5 i 970)).zFrom = some t → s.chanOf i = some c →
    ∃ u, exec (.homeFlagExpiry i) s = .next u ∧ u.frm.now = max s.frm.now (t + 5000000 * s.pn 5 i 965) ∧
      (u.axis i).mo.homePhase = 2 ∧ (u.step_ c).hold0 = true)

/-- R226: a thread that completes leaves its processor idle or to the next ready thread; FP1's frame-bound thread has then done the
head's line and profile work, and FP0's has acknowledged the field scan (R316; that this thread does it is the model's choice,
log 13). -/
def ThreadsComplete : Prop :=
  ∀ (s : State) (fp : Fin 4) (t d : Nat), s.runningOn fp = some d → (s.task d).cls = .thread → (s.task d).succ = [] →
    (s.task d).again = false → (∀ k, d ∉ s.readyList k) →
    ∃ u, exec (.threadComplete fp t) s = .next u ∧ u.frm.now = max s.frm.now t ∧ (u.task d).st = .idle ∧
      u.dsp.tDone = s.dsp.tDone + 1 ∧
      (fp = 1 → (s.task d).period = 1 → s.isHead = true → u.axes = (s.goto t).fp1Work.axes ∧
        u.lines = (s.goto t).fp1Work.lines) ∧
      (fp ≠ 1 → u.axes = s.axes ∧ u.lines = s.lines) ∧
      (fp = 0 → (s.task d).period = 1 → u.fio.acked = true ∧ u.fio.ack = s.frm.frame) ∧ (fp ≠ 0 → u.fio = s.fio)

/-- R137, R138: the oldest pulse leaves the queue, counts in its direction, and keeps the spacing after the last pulse and
STEP.DIR_SETUP after the last change of DIR; DIR changes no sooner than STEP.DIR_HOLD after the last pulse's end. -/
def StepPulsesKeepTheirTimes : Prop :=
  (∀ (s : State) (c : Fin 16), s.stepRuns c = true →
    let ch := if (s.step_ c).ahead = 0 then (s.step_ c).toCarry else s.step_ c
    0 < ch.ahead → ch.dirFwd = true →
    ∃ u, exec (.stepPulse c) s = .next u ∧ (u.step_ c).fwd = ch.fwd + 1 ∧ (u.step_ c).bwd = ch.bwd ∧
      (u.step_ c).queue = popRun ch.queue ∧ (u.step_ c).lastPulse = some u.frm.now ∧
      (∀ t, ch.lastPulse = some t → t + s.stepSpacing c ≤ u.frm.now) ∧
      ∀ t, ch.dirAt = some t → t + 5 * s.pn 9 c 3 ≤ u.frm.now) ∧
  (∀ (s : State) (c : Fin 16), s.stepRuns c = true →
    let ch := if (s.step_ c).ahead = 0 then (s.step_ c).toCarry else s.step_ c
    ch.ahead < 0 → ch.dirFwd = false →
    ∃ u, exec (.stepPulse c) s = .next u ∧ (u.step_ c).fwd = ch.fwd ∧ (u.step_ c).bwd = ch.bwd + 1 ∧
      (u.step_ c).queue = popRun ch.queue ∧ ∀ t, ch.lastPulse = some t → t + s.stepSpacing c ≤ u.frm.now) ∧
  (∀ (s : State) (c : Fin 16), s.stepRuns c = true → (s.step_ c).ahead ≠ 0 →
    (s.step_ c).dirFwd ≠ decide (0 < (s.step_ c).ahead) →
    ∃ u, exec (.dirChange c) s = .next u ∧ (u.step_ c).dirFwd = decide (0 < (s.step_ c).ahead) ∧
      (u.step_ c).dirAt = some u.frm.now ∧
      ∀ t, (s.step_ c).lastPulse = some t → t + 50 * s.pn 9 c 2 + 5 * s.pn 9 c 4 ≤ u.frm.now)

/-- R140: STEP.T_IDLE without a pulse or demand starts the ramp of the current reference, 50 ms complete it. -/
def CurrentReferenceRampsDown : Prop :=
  (∀ (s : State) (c : Fin 16), s.crefRuns c = true → (s.step_ c).quiet = true → (s.step_ c).redAt s.frm.now = 0 →
    ∃ u, exec (.crefIdleExpiry c) s = .next u ∧ (u.step_ c).red = 1 ∧ (u.step_ c).rampFrom = u.frm.now ∧
      u.frm.now = max s.frm.now ((s.step_ c).idleFrom + 5000000 * s.pn 9 c 10)) ∧
  (∀ (s : State) (c : Fin 16), s.crefRuns c = true → (s.step_ c).red = 1 → (s.step_ c).runAt = none →
    ∃ u, exec (.crefRampComplete c) s = .next u ∧ (u.step_ c).red = 2 ∧
      u.frm.now = max s.frm.now ((s.step_ c).rampFrom + 250000000))

/-- R144 to R146: levels that have not held for ENC.FILT + 1 samples change nothing; a single accepted edge of A or B moves the
count by one, in the direction the levels give; edges of both at once count nothing, an error, and EV_ENC_ERR; a rising ENCZ
latches the time; a valid SSI transfer gives its value, an invalid one an error and no value. -/
def EncodersCountAndLatch : Prop :=
  (∀ (s : State) (e : Fin 8) (a b : Bool) (run t : Nat), run < s.pn 9 e 65 + 1 →
    exec (.encEdge e a b ⟨run, t⟩) s = .next s ∧ exec (.enczEdge e a ⟨run, t⟩) s = .next s) ∧
  (∀ (s : State) (e : Fin 8) (a b : Bool) (run t : Nat), Canonical s → s.pn 9 e 64 = 1 → s.pn 9 e 65 + 1 ≤ run →
    ((s.enc e).a ≠ a ∧ (s.enc e).b = b ∨ (s.enc e).a = a ∧ (s.enc e).b ≠ b) →
    ∃ u, exec (.encEdge e a b ⟨run, t⟩) s = .next u ∧ (u.enc e).a = a ∧ (u.enc e).b = b ∧
      (u.enc e).c = (if (quadUp (s.enc e).a a b != (s.pn 9 e 66 == 1)) = true then (s.enc e).c + 1 else (s.enc e).c - 1)) ∧
  (∀ (s : State) (e : Fin 8) (a b : Bool) (run t : Nat), s.pn 9 e 64 = 1 → s.pn 9 e 65 + 1 ≤ run → (s.enc e).a ≠ a → (s.enc e).b ≠ b →
    ∃ u, exec (.encEdge e a b ⟨run, t⟩) s = .next u ∧ (u.enc e).c = (s.enc e).c ∧ (u.enc e).errs = (s.enc e).errs + 1 ∧
      ((s.goto t).seenEv evEncErr e = false → u.hasEvent evEncErr e)) ∧
  (∀ (s : State) (e : Fin 8) (run t : Nat), s.pn 9 e 64 = 1 → s.pn 9 e 65 + 1 ≤ run → s.pn 9 e 72 = 1 → (s.enc e).z = false →
    ∃ u, exec (.enczEdge e true ⟨run, t⟩) s = .next u ∧ (u.enc e).z = true ∧ (u.enc e).zt = BitVec.ofNat 64 (u.frm.now / 5) ∧
      (u.enc e).zc = (s.enc e).ext + ((s.enc e).c - (s.enc e).lastLatch).toInt) ∧
  (∀ (s : State) (e : Fin 8) (bits : Nat), s.pn 9 e 64 = 2 → s.pn 9 e 69 = 0 → (s.enc e).ssiBusy = true →
    (s.enc e).ssiHas = false →
    ∃ u, exec (.ssiDelivery e bits false) s = .next u ∧ (u.enc e).ssiBusy = false ∧ (u.enc e).ssiHas = true ∧
      (u.enc e).ssiVal = bits % 2 ^ s.pn 9 e 68 ∧ u.frm.now = max s.frm.now (s.enc e).ssiDue) ∧
  (∀ (s : State) (e : Fin 8) (bits : Nat), s.pn 9 e 64 = 2 → (s.enc e).ssiBusy = true →
    ∃ u, exec (.ssiDelivery e bits true) s = .next u ∧ (u.enc e).errs = (s.enc e).errs + 1 ∧
      (u.enc e).ssiVal = (s.enc e).ssiVal)

/-! ## What the host reads and writes (13, 14, 15, 19, 20) -/

/-- R10, R28: a read of the low half of a pair answers it and latches the high half: the two words together are one value of the
quantity as it stood at the read. -/
def LowReadsLatchTheHighHalf : Prop :=
  ∀ s : State,
    (∃ u, exec .frmTimeLo s = .next u ∧ u.regRead 0x40C ++ u.host.rdata = BitVec.ofNat 64 (toNs s.frm.now)) ∧
    (∃ u, exec .frmFcntLo s = .next u ∧ u.regRead 0x414 ++ u.host.rdata = s.frm.frame.setWidth 64) ∧
    (∃ u, exec .frmT0Lo s = .next u ∧ u.regRead 0x41C ++ u.host.rdata = BitVec.ofNat 64 (toNs s.frm.t0)) ∧
    (∃ u, exec .frmLsinLo s = .next u ∧ u.regRead 0x438 ++ u.host.rdata = s.frm.lsin) ∧
    (∃ u, exec .netHeadidLo s = .next u ∧ u.regRead 0x5078 ++ u.host.rdata = Config.headId) ∧
    (∃ u, exec .netPeeridLo s = .next u ∧ u.regRead 0x5080 ++ u.host.rdata = s.net.peerId) ∧
    (∃ u, exec .redImgfcLo s = .next u ∧ u.regRead 0x7014 ++ u.host.rdata = s.shownFc.setWidth 64) ∧
    (∃ u, exec .redTkfcLo s = .next u ∧ u.regRead 0x7028 ++ u.host.rdata = s.red.tkFc.setWidth 64) ∧
    (∃ u, exec .capCrevsmpLo s = .next u ∧ u.regRead 0x201C ++ u.host.rdata = BitVec.ofNat 64 s.cap.crev) ∧
    (∃ u, exec .prfCycLo s = .next u ∧ u.regRead 0x180C ++ u.host.rdata = BitVec.ofNat 64 s.prf.cyc) ∧
    (∃ u, exec .capRecno s = .next u ∧ u.host.rdata = s.cap.lastRecno ∧ u.regRead 0x2008 = s.cap.lastRepoch.setWidth 32) ∧
    (∀ k : Fin 8, twf {} s.prf.pcs = true → ∃ u, exec (.prfCntLo k) s = .next u ∧ u.host.rdata = BitVec.ofNat 32 (s.pc k).cnt ∧
      (u.pc k).hiL = BitVec.ofNat 16 ((s.pc k).cnt / 2 ^ 32) ∧ (u.pc k).ovfnL = (s.pc k).ovfn)

/-- R10: a read of a field that reading clears answers the value it held, and the field holds its cleared value from then on: zero
for a maximum or a count, all ones for a minimum. -/
def ReadsClearTheirField : Prop :=
  ∀ s : State,
    (∃ u, exec .frmTurnmax s = .next u ∧ u.host.rdata = s.regRead 0x424 ∧ u.regRead 0x424 = 0) ∧
    (∃ u, exec .redHbmiss s = .next u ∧ u.host.rdata = s.regRead 0x701C ∧ u.red.hbRunMax = 0 ∧ u.red.hbTotal = s.red.hbTotal) ∧
    (∃ u, exec .capDeadmax s = .next u ∧ u.host.rdata = s.regRead 0x2028 ∧ u.regRead 0x2028 = 0) ∧
    (∃ u, exec .capStage s = .next u ∧ u.host.rdata = s.regRead 0x2034 ∧ u.cap.fillMax = 0 ∧ u.cap.fill = s.cap.fill) ∧
    (∃ u, exec .dspPreempt s = .next u ∧ u.host.rdata = s.regRead 0x3030 ∧ u.regRead 0x3030 = 0) ∧
    (∀ l : Fin 8, twf 0 s.dsp.maxDep = true → ∃ u, exec (.dspRdydep l) s = .next u ∧
      u.host.rdata = wordOf [(s.levelDepth l, 0), (tget 0 s.dsp.maxDep l, 16)] ∧ tget 0 u.dsp.maxDep l = 0) ∧
    (twf {} s.net.nodes = true → ∃ u, exec .netOfsrange s = .next u ∧
      u.host.rdata = (let n := s.node s.selBranch s.selPos; BitVec.ofNat 32 (n.ofsMax.toNat * 65536 + n.ofsMin.toNat)) ∧
      (u.node s.selBranch s.selPos).ofsMax = 0x8000 ∧ (u.node s.selBranch s.selPos).ofsMin = 0x7FFF) ∧
    (∃ u, exec .pwrVmain s = .next u ∧ u.host.rdata = s.regRead 0x6004 ∧ u.pwr.vmainMin = 0xFFFF ∧ u.pwr.vmain = s.pwr.vmain) ∧
    (∃ u, exec .pwrVcore s = .next u ∧ u.host.rdata = s.regRead 0x6008 ∧ u.pwr.vcoreMin = 0xFFFF ∧ u.pwr.vcore = s.pwr.vcore) ∧
    (∀ m : Fin 10, twf {} s.prf.bw = true → ∃ u, exec (.prfBwMinmax m false) s = .next u ∧ u.host.rdata = s.regRead (0x1904 + 16 * m) ∧
      (tget {} u.prf.bw m.val).min = 0xFFFFFFFF) ∧
    (∀ m : Fin 10, twf {} s.prf.bw = true → ∃ u, exec (.prfBwMinmax m true) s = .next u ∧ u.host.rdata = s.regRead (0x1908 + 16 * m) ∧
      (tget {} u.prf.bw m.val).max = 0)

/-- R230, R233, R369, R372: a read of word 0 of a trace or tag entry latches the entry's other words and moves the index to the
next entry; an index after the last is 0. A write of DSP_DESCIDX shows the words of the descriptor it names. -/
def EntryReadsAdvance : Prop :=
  (∀ s : State, s.dsp.idx < 4096 → ∃ u, exec .dspTrcd0 s = .next u ∧
    u.host.rdata = ((tget [] s.dsp.trc s.dsp.idx)[0]?).getD 0 ∧ u.dsp.idx = (if s.dsp.idx = 4095 then 0 else s.dsp.idx + 1) ∧
    ∀ k, k < 3 → u.dsp.trcD[k]? = some (((tget [] s.dsp.trc s.dsp.idx)[k + 1]?).getD 0)) ∧
  (∀ s : State, s.prf.tagIdx < 256 → ∃ u, exec .prfTagd0 s = .next u ∧
    u.host.rdata = ((tget [] s.prf.tags s.prf.tagIdx)[0]?).getD 0 ∧
    u.prf.tagIdx = (if s.prf.tagIdx = 255 then 0 else s.prf.tagIdx + 1) ∧
    ∀ k, k < 7 → u.prf.tagD[k]? = some (((tget [] s.prf.tags s.prf.tagIdx)[k + 1]?).getD 0)) ∧
  (∀ (s : State) (v : W32), ∃ u, exec (.dspDescidx v) s = .next u ∧ u.dsp.descIdx = v.toNat % 1024 ∧
    ∀ k, k < 8 → tget 0 u.dsp.desc k = (((s.task (v.toNat % 1024)).words)[k]?).getD 0)

/-- R230, R233, R361 to R372, R457: writes of the trace control, of the counters' registers, of the tag control and of the ledger
selection. -/
def ObservationRegistersAreWritten : Prop :=
  ∀ (s : State) (v : W32),
    (∃ u, exec (.dspTrcctl v) s = .next u ∧ u.dsp.en = v.getLsbD 0 ∧ u.dsp.frz = v.getLsbD 1 ∧
      (v.getLsbD 0 = true → s.dsp.en = false → u.dsp.wrptr = 0 ∧ u.dsp.wraps = 0 ∧ u.dsp.lost = 0) ∧
      (s.dsp.en = true ∨ v.getLsbD 0 = false → u.dsp.wrptr = s.dsp.wrptr ∧ u.dsp.wraps = s.dsp.wraps)) ∧
    (∃ u, exec (.prfCtrl v) s = .next u ∧ u.prf.en = v.setWidth 8 ∧ u.prf.frz = v.getLsbD 8) ∧
    (∀ k : Fin 8, twf {} s.prf.pcs = true → ∃ u, exec (.prfCfg k v) s = .next u ∧
      ((u.pc k).event ≠ (s.pc k).event → (u.pc k).fresh = true) ∧ (u.pc k).cnt = (s.hostWrite.pc k).cnt) ∧
    (∃ u, exec (.prfSetcmd v) s = .next u ∧ ∀ k, k < 8 → v.getLsbD k = true →
      s.prf.setLo ≠ 0 ∨ s.prf.setHi ≠ 0 → (u.pc k).cnt = s.prf.setLo.toNat + s.prf.setHi.toNat * 2 ^ 32 ∧ (u.pc k).ovfn = 0) ∧
    (∃ u, exec (.prfTagctl v) s = .next u ∧ u.prf.tagEn = v.getLsbD 0 ∧ u.prf.tagFrz = v.getLsbD 1 ∧
      (v.getLsbD 0 = true → s.prf.tagEn = false → u.prf.tagPtr = 0 ∧ u.prf.tagWraps = 0 ∧ u.prf.tagLost = 0)) ∧
    (∃ u, exec (.lgrSel v) s = .next u ∧ u.lgr.selInst = v.toNat % 256 ∧ u.lgr.latchFc = s.lgr.snapFc.setWidth 32 ∧
      u.lgr.snap = s.lgr.snap)

/-- R10, R376: a write to an offset no block holds changes nothing but the record of host accesses; a write-1-to-clear field loses
exactly the bits written as 1; a plain field takes its bits. -/
def RegisterWritesFollowTheirCodes : Prop :=
  (∀ (s : State) (off : Nat) (v : W32), 0x8000 ≤ off → off < 0xE000 → exec (.registerWrite off v) s = .next s.hostWrite) ∧
  (∀ (s : State) (v : W32), ∃ u, exec (.registerWrite 0x0810 v) s = .next u ∧ u.host.err = s.host.err &&& ~~~(v.setWidth 4)) ∧
  (∀ (s : State) (v : W32), ∃ u, exec (.registerWrite 0x0428 v) s = .next u ∧ u.frm.ovr = s.frm.ovr &&& ~~~(v &&& 0xF1F)) ∧
  (∀ (s : State) (v : W32), ∃ u, exec (.registerWrite 0x6018 v) s = .next u ∧ u.pwr.cause = s.pwr.cause &&& ~~~(v.setWidth 9)) ∧
  (∀ (s : State) (v : W32), ∃ u, exec (.registerWrite 0x1004 v) s = .next u ∧ u.evt.imask = v.setWidth 8 ∧
    u.evt.istat = s.evt.istat) ∧
  (∀ (s : State) (v : W32), ∃ u, exec (.evtIstat v) s = .next u ∧ u.evt.istat = s.evt.istat &&& ~~~(v.setWidth 8)) ∧
  (∀ (s : State) (v : W32), ∃ u, exec (.registerWrite 0x5030 v) s = .next u ∧ u.net.sel = v.setWidth 8)

/-- The n nibbles of a number, most significant first. -/
def nibsOf (n v : Nat) : List Nibble := (List.range n).map fun k => BitVec.ofNat 4 (v / 16 ^ (n - 1 - k))

/-- The nibbles of a data word: its bytes in ascending address order. -/
def wordNibs (w : W32) : List Nibble := (leBytes 4 w.toNat).flatMap fun b => nibsOf 2 b.toNat

/-- The address phase of a transaction on the Quad SPI lands. -/
def spiAddr (bar2 : Bool) (o : Nat) : List Nibble := nibsOf 8 ((if bar2 then 2 ^ 31 else 0) + o)

/-- R374 to R376, R428, R437: PCIe link training, a lost reference clock and PERST_N act on the PCIe link alone; an access BAR0 does
not support has no effect beyond its completion status. In Quad SPI mode a transaction is one access a word, ascending by four from
its address, and puts their commands into the queue; a written word that is cut short is discarded, and read words follow 8 dummy
clocks. -/
def TheHostLinkComesAndGoes : Prop :=
  (∀ (bar2 : Bool) (o : Nat) (ws : List W32) (cut : List Nibble), o < 2 ^ 26 → o % 4 = 0 → o % 4096 + 4 * ws.length ≤ 4096 →
    cut.length < 8 → spiAccesses (nibsOf 2 0x02 ++ spiAddr bar2 o ++ ws.flatMap wordNibs ++ cut) = burst bar2 true o ws) ∧
  (∀ (bar2 : Bool) (o : Nat) (r : List Nibble), o < 2 ^ 26 → o % 4 = 0 → o % 4096 + 4 * ((r.length - 8 + 7) / 8) ≤ 4096 →
    spiAccesses (nibsOf 2 0x0B ++ spiAddr bar2 o ++ r) = burst bar2 false o (List.replicate ((r.length - 8 + 7) / 8) 0)) ∧
  (∀ (s : State) (l : List Nibble),
    (s.host.hostsel = false → s.spiTransaction l = { s with pending := s.pending ++ (spiAccesses l).filterMap WordAccess.command }) ∧
    (s.host.hostsel = true → s.spiTransaction l = s)) ∧
  (∀ (s : State) (a b : Nat), s.host.hostsel = true → ∃ u, exec (.pcieLinkUp a b) s = .next u ∧ u.host.linkup = true ∧
    u.host.speed = a % 4 ∧ u.host.width = b % 4) ∧
  (∀ s : State, s.host.hostsel = true → ∃ u, exec .pcieRefclkLoss s = .next u ∧ u.host.linkup = false ∧ u.frm = s.frm ∧ u.net = s.net ∧
    u.axes = s.axes) ∧
  (∀ s : State, s.host.hostsel = true → ∃ u, exec .perstN s = .next u ∧ u.host.linkup = false ∧
    u.pwr.cause = s.pwr.cause ||| 0x100 ∧ u.frm = s.frm ∧ u.cfg = s.cfg ∧ u.axes = s.axes) ∧
  (∀ (s : State) (o n : Nat), exec (.bar0UnsupportedAccess o n) s = .next { s with host := { s.host with ur := true } })

/-! ## Mailboxes, watchdog, events and images (15) -/

/-- R378, R379, R402: a buffer goes FREE, HOST, INFLIGHT at the allocation and the doorbell, HOST again when its answer is taken,
and FREE when it is freed. -/
def BuffersGoRound : Prop :=
  (∀ (s : State) (j : Nat), s.host.presented = some j → ∃ u, exec .mbxAlloc s = .next u ∧
    u.host.rdata = BitVec.ofNat 32 (2 ^ 31 + j) ∧ u.bufSt j = .host ∧ u.host.allocs = s.host.allocs + 1) ∧
  (∀ s : State, s.host.presented = none → ∃ u, exec .mbxAlloc s = .next u ∧ u.host.rdata = 0 ∧ u.host.bufs = s.host.bufs) ∧
  (∀ (s : State) (m : Fin 32) (v : W32), s.bufSt (v.toNat % 512) = .host → s.mbxLoad m < 16 →
    ∃ u, exec (.mbxDb m v) s = .next u ∧ u.bufSt (v.toNat % 512) = .inflight ∧
      tget [] u.host.q m = tget [] s.host.q m ++ [v.toNat % 512]) ∧
  (∀ (s : State) (m : Fin 32) (j : Nat) (r : List Nat), tget [] s.host.ans m = j :: r → ∃ u, exec (.mbxAns m) s = .next u ∧
    u.host.rdata = BitVec.ofNat 32 (2 ^ 31 + j) ∧ u.bufSt j = .host) ∧
  (∀ (s : State) (m : Fin 32), tget [] s.host.ans m = [] → ∃ u, exec (.mbxAns m) s = .next u ∧ u.host.rdata = 0) ∧
  (∀ (s : State) (v : W32), s.bufSt (v.toNat % 512) = .host → s.host.presented.isSome = true →
    ∃ u, exec (.mbxFree v) s = .next u ∧ u.host.frees = s.host.frees + 1 ∧ u.host.presented = s.host.presented ∧
      (twf .free s.host.bufs = true → u.bufSt (v.toNat % 512) = .free)) ∧
  (∀ s : State, ∃ u, exec .mbxPoola s = .next u ∧
    u.host.rdata = BitVec.ofNat 32 (s.bufCount .free + s.bufCount .host * 65536) ∧
    u.host.poolB = BitVec.ofNat 32 (s.bufCount .fw + s.bufCount .inflight * 65536))

/-- R378, R379: a doorbell or a free of a buffer that is not HOST, a doorbell on a full mailbox, and a write into a buffer that is
not HOST set their bit of MBX_ERR and leave buffers and queues as they were; a word written into a HOST buffer stands there and
nowhere else. -/
def BufferErrorsAreRefused : Prop :=
  (∀ (s : State) (m : Fin 32) (v : W32), s.bufSt (v.toNat % 512) ≠ .host → ∃ u, exec (.mbxDb m v) s = .next u ∧
    u.host.err = s.host.err ||| 2 ∧ u.host.bufs = s.host.bufs ∧ u.host.q = s.host.q ∧ u.hasEvent evHostProto devObj) ∧
  (∀ (s : State) (m : Fin 32) (v : W32), s.bufSt (v.toNat % 512) = .host → 16 ≤ s.mbxLoad m → ∃ u, exec (.mbxDb m v) s = .next u ∧
    u.host.err = s.host.err ||| 8 ∧ u.host.bufs = s.host.bufs ∧ u.host.q = s.host.q ∧ u.hasEvent evHostProto devObj) ∧
  (∀ (s : State) (v : W32), s.bufSt (v.toNat % 512) ≠ .host → ∃ u, exec (.mbxFree v) s = .next u ∧
    u.host.err = s.host.err ||| 4 ∧ u.host.bufs = s.host.bufs ∧ u.hasEvent evHostProto devObj) ∧
  (∀ (s : State) (off : Nat) (v : W32), s.bufSt (off / 512) ≠ .host → ∃ u, exec (.mailboxBufferWrite off v) s = .next u ∧
    u.host.err = s.host.err ||| 1 ∧ u.host.mem = s.host.mem) ∧
  (∀ (s : State) (off : Nat) (v : W32), s.bufSt (off / 512) = .host → Canonical s →
    ∃ u, exec (.mailboxBufferWrite off v) s = .next u ∧ mread ramByte u.host.mem (off / 4 * 4) 4 = leBytes 4 v.toNat ∧
      ∀ a, a < off / 4 * 4 ∨ off / 4 * 4 + 4 ≤ a → mread ramByte u.host.mem a 1 = mread ramByte s.host.mem a 1)

/-- R388: DEV_ALIVE with its key starts the watchdog for HOST.WD_TIME while HOST.WD_EN is 1 and a configuration runs; any other key
sets BADKEY. At its expiry EV_HOST_LOST is raised and the count of expiries goes up, at most to 8,191. -/
def TheHostWatchdogRuns : Prop :=
  (∀ (s : State) (v : W32), v.toNat / 65536 = 0x0A11 → s.pn 0 0 16 = 1 → s.cfg.running = true →
    ∃ u, exec (.devAlive v) s = .next u ∧ u.host.wdArmed = true ∧ u.host.wdRun = true ∧
      u.host.wdDue = s.frm.now + msT (s.pn 0 0 17)) ∧
  (∀ (s : State) (v : W32), v.toNat / 65536 ≠ 0x0A11 → ∃ u, exec (.devAlive v) s = .next u ∧ u.host.wdKey = true ∧
    u.host.wdRun = s.host.wdRun ∧ u.host.wdDue = s.host.wdDue) ∧
  (∀ s : State, s.host.wdArmed = true → s.host.wdRun = true → ∃ u, exec .hostWatchdogExpiry s = .next u ∧
    u.frm.now = max s.frm.now s.host.wdDue ∧ u.host.wdRun = false ∧ u.host.wdArmed = true ∧ u.host.wdExp = true ∧
    u.host.wdCnt = min (s.host.wdCnt + 1) 8191 ∧ u.hasEvent evHostLost devObj)

/-- R399: the oldest queued event goes into the ring at WRPTR; after entry 4,095 the ring wraps and WRAPS counts. -/
def EventsGoIntoTheRing : Prop :=
  ∀ (s : State) (e : EvEntry) (r : List EvEntry), s.evt.queue = e :: r →
    ∃ u, exec .eventRingWrite s = .next u ∧ u.evt.queue = r ∧ u.evt.wrptr = (s.evt.wrptr + 1) % 4096 ∧
      u.evt.wraps = (if s.evt.wrptr = 4095 then (s.evt.wraps + 1) % 2 ^ 20 else s.evt.wraps) ∧
      tget [] u.evt.ring s.evt.wrptr = ringBytes e (s.evt.seqAt 0) ∧ (2 ≤ e.react → u.evt.istat = s.evt.istat ||| 1)

/-- R393: a commit hands the HOST buffer over as PENDING and takes a new one, whose copy is complete with COMMIT_COPY_COMPLETE;
until then window writes and commits are ignored and flagged. A word written into the window stands in the HOST buffer. -/
def OutputImagesAreCommitted : Prop :=
  (∀ (s : State) (v : W32), v.getLsbD 0 = true → s.host.hrdy = true → ∃ u, exec (.mbxPicommit v) s = .next u ∧
    u.host.piPend = some s.host.piHost ∧ u.host.hrdy = false ∧ u.host.copyFrom = s.host.piHost ∧
    u.host.piHost = (match s.host.piPend with | some k => k | none => s.host.piSpare)) ∧
  (∀ (s : State) (v : W32), v.getLsbD 0 = true → s.host.hrdy = false → ∃ u, exec (.mbxPicommit v) s = .next u ∧
    u.host.cmterr = true ∧ u.host.piPend = s.host.piPend ∧ u.host.piHost = s.host.piHost) ∧
  (∀ s : State, s.host.hrdy = false → ∃ u, exec .commitCopyComplete s = .next u ∧ u.host.hrdy = true ∧
    (tget [] s.host.po s.host.copyFrom ≠ [] → tget [] u.host.po s.host.piHost = tget [] s.host.po s.host.copyFrom)) ∧
  (∀ (s : State) (off : Nat) (v : W32), s.host.hrdy = false → ∃ u, exec (.outputWindowWrite off v) s = .next u ∧
    u.host.wrign = true ∧ u.host.po = s.host.po) ∧
  (∀ (s : State) (off : Nat) (v : W32), s.host.hrdy = true → poDefined off = true → twf [] s.host.po = true →
    Memory.wf ramByte (tget [] s.host.po s.host.piHost) = true →
    ∃ u, exec (.outputWindowWrite off v) s = .next u ∧
      mread ramByte (tget [] u.host.po s.host.piHost) (off / 4 * 4) 4 = leBytes 4 v.toNat)

/-! ## Requests of the mailboxes (15, 16) -/

/-- FP2 takes next, from mailbox m, the request in buffer j: opcode op, payload of n bytes, and it serves the opcode. -/
structure Request (s : State) (m j op n : Nat) : Prop where
  next : s.nextReq = some (m, j)
  opcode : s.reqOp j = op
  served : s.serves op = true
  len : s.reqLen j = n

/-- Buffer j is the youngest answer on mailbox m, with this status, FCNT_EFF and payload, laid out as R381 says. -/
structure Answered (u : State) (m j status eff : Nat) (pay : List Byte) : Prop where
  queued : (tget [] u.host.ans m).getLast? = some j
  inflight : u.bufSt j = .inflight
  bytes : u.bufBytes j 4 (12 + pay.length) = leBytes 2 pay.length ++ leBytes 2 status ++ leBytes 6 eff ++ [0, 0] ++ pay

/-- R382, R384, R385, R422, R456, R494: the requests that only ask are answered at once, each with the answer its rule gives; an
opcode that no table holds is answered BAD_OPCODE. -/
def Obligations.QuestionsAreAnswered : Prop :=
  ∀ (s : State) (m j n : Nat), Canonical s →
    (Request s m j 0x0001 n → n ≤ 496 → ∃ u, exec .echo s = .next u ∧ Answered u m j stOk 0 (s.bufBytes j 16 n)) ∧
    (Request s m j 0x0001 n → 496 < n → ∃ u, exec .echo s = .next u ∧ Answered u m j stBadLen 0 []) ∧
    (Request s m j 0x0002 0 → ∃ u, exec .devInfo s = .next u ∧ Answered u m j stOk 0 s.devInfo) ∧
    (Request s m j 0x0010 n → s.countOk j 4 60 = true →
      let ks := (List.range (s.pay j 0 2)).map fun k => s.pay j (4 + 4 * k) 4
      (ks.all fun k => decide (k < 2 ^ 24) && (paramRow (keyClass k) (keyInst k) (keyItem k)).isSome) = true →
      ∃ u, exec .paramRead s = .next u ∧
        Answered u m j stOk 0 (leBytes 2 (s.pay j 0 2) ++ [0, 0] ++ (ks.map s.slotOf).flatten)) ∧
    (Request s m j 0x0012 n → n % 4 = 0 → 1 ≤ n / 4 → n / 4 ≤ 40 →
      let ks := (List.range (n / 4)).map fun k => s.pay j (4 * k) 4
      (ks.all fun k => decide (k < 2 ^ 24) && (paramRow (keyClass k) (keyInst k) (keyItem k)).isSome) = true →
      ∃ u, exec .paramInfo s = .next u ∧ Answered u m j stOk 0 (ks.map fun k => leBytes 12 (Config.paramInfo k).toNat).flatten) ∧
    (Request s m j 0x0080 4 → 1 ≤ s.pay j 2 2 → s.pay j 2 2 ≤ 14 →
      let evs := (evDefs.filter fun e => decide (s.pay j 0 2 ≤ e.code)).take (s.pay j 2 2)
      ∃ u, exec .matrixRead s = .next u ∧ Answered u m j stOk 0 (leBytes 2 evs.length ++ [0, 0] ++
        (evs.map fun e => leBytes 2 e.code ++ (List.range 32).map fun g => BitVec.ofNat 8 (s.reaction e.code g)).flatten)) ∧
    (Request s m j 0x0081 4 → 1 ≤ s.pay j 2 2 → s.pay j 2 2 ≤ 3 → s.pay j 0 2 + s.pay j 2 2 ≤ 512 →
      ∃ u, exec .flogRead s = .next u ∧ Answered u m j stOk 0 (leBytes 2 (s.pay j 2 2) ++ [0, 0] ++
        ((List.range (s.pay j 2 2)).map fun k => s.logEntryAt (s.pay j 0 2 + k)).flatten)) ∧
    (s.nextReq = some (m, j) → s.reqOp j ∉ opcodes → s.serves (s.reqOp j) = true →
      ∃ u, exec .badOpcode s = .next u ∧ Answered u m j stBadOpcode 0 [])

/-- R382, R387: a sub-command's row takes the entry of the AX_CMD that FP2 takes next: the buffer goes to FW, and the request
waits for the boundary with the entry handled. -/
def Obligations.AxisCommandsAreTaken : Prop :=
  ∀ x ∈ [(Instr.enable, 1), (.close, 2), (.openLoop, 3), (.freeze, 4), (.disable, 5), (.ack, 6), (.stop, 7), (.home, 8), (.diaSet, 9),
      (.camStart, 10), (.camSelect, 11)],
    ∀ (s : State) (m j n : Nat), Request s m j 0x0020 n → s.countOk j 4 64 = true → s.frm.role = .head → s.frm.run = true →
      s.pay j 0 2 = 1 → s.axSub j 0 = x.2 → (∀ t ∈ s.host.taken, t.buf ≠ j) →
      ∃ u, exec x.1 s = .next u ∧ u.bufSt j = .fw ∧
        u.host.taken = s.host.taken ++ [{ mbx := m, buf := j, subs := [BitVec.ofNat 8 x.2], ready := true }]

/-- R69, R113, R141, R387: at the boundary an entry is accepted in the states its command allows, and the axis takes the state it
leads to; in any other state it is refused BAD_STATE and nothing changes. A servo axis without an accepted sample does not close
(R495). -/
def Obligations.AxisCommandsAreJudged : Prop :=
  ∀ (s : State) (i : Nat), i < 256 → s.axType i ≠ 0 → s.red.restartOn = false →
    ((s.axis i).st = .disabled → (s.axJudge ⟨i, 1, 0⟩).1 = stOk ∧ ((s.axJudge ⟨i, 1, 0⟩).2.axis i).st = .opn) ∧
    ((s.axis i).st ≠ .disabled → s.axJudge ⟨i, 1, 0⟩ = (stBadState, s)) ∧
    ((s.axis i).st = .opn ∨ (s.axis i).st = .freeze → s.mayClose i = true →
      (s.axJudge ⟨i, 2, 0⟩).1 = stOk ∧ ((s.axJudge ⟨i, 2, 0⟩).2.axis i).st = .closed) ∧
    ((s.axis i).st ≠ .opn → (s.axis i).st ≠ .freeze → s.axJudge ⟨i, 2, 0⟩ = (stBadState, s)) ∧
    ((s.axis i).st = .closed ∨ (s.axis i).st = .freeze →
      (s.axJudge ⟨i, 3, 0⟩).1 = stOk ∧ ((s.axJudge ⟨i, 3, 0⟩).2.axis i).st = .opn) ∧
    ((s.axis i).st = .closed → (s.axJudge ⟨i, 4, 0⟩).1 = stOk ∧ ((s.axJudge ⟨i, 4, 0⟩).2.axis i).st = .freeze) ∧
    ((s.axis i).st ≠ .closed → s.axJudge ⟨i, 4, 0⟩ = (stBadState, s)) ∧
    ((s.axis i).st ≠ .fault → (s.axJudge ⟨i, 5, 0⟩).1 = stOk) ∧
    ((s.axis i).st = .fault → s.axJudge ⟨i, 5, 0⟩ = (stBadState, s)) ∧
    ((s.axis i).st = .fault → s.causeActive i = true → s.axJudge ⟨i, 6, 0⟩ = (stCauseActive, s)) ∧
    ((s.axis i).st = .fault → s.causeActive i = false →
      (s.axJudge ⟨i, 6, 0⟩).1 = stOk ∧ ((s.axJudge ⟨i, 6, 0⟩).2.axis i).st = .disabled) ∧
    ((s.axis i).st ≠ .fault → s.axJudge ⟨i, 6, 0⟩ = (stBadState, s)) ∧
    ((s.axis i).st = .closed ∨ (s.axis i).st = .freeze → s.pn 5 i 900 = 0 →
      (s.axJudge ⟨i, 7, 0⟩).1 = stOk ∧ ((s.axJudge ⟨i, 7, 0⟩).2.axis i).st = .stopping) ∧
    (s.pn 5 i 900 ≠ 0 → s.axJudge ⟨i, 7, 0⟩ = (stBadState, s)) ∧
    ((s.axis i).st = .closed → s.pn 5 i 900 = 0 →
      (s.axJudge ⟨i, 8, 0⟩).1 = stOk ∧ ((s.axJudge ⟨i, 8, 0⟩).2.axis i).mo.homing = true) ∧
    ((s.axJudge ⟨i, 9, 0⟩).1 = stOk ∧ ((s.axJudge ⟨i, 9, 0⟩).2.axis i).rf.dia = parF (s.P 5 i) 921)

/-- R237, R386, R412, R416, R418: PARAM_WRITE, OVL_APPLY of a valid overlay and a head's CFG_ACTIVATE of a base slot wait in FW for
the boundary; a standby refuses PARAM_WRITE at once. -/
def Obligations.BoundaryRequestsWait : Prop :=
  ∀ (s : State) (m j n : Nat),
    (Request s m j 0x0011 n → s.countOk j 12 41 = true → s.frm.role ≠ .standby → s.frm.run = true →
      ∃ u, exec .paramWrite s = .next u ∧ u.bufSt j = .fw ∧ u.params = s.params ∧
        u.host.taken = s.host.taken ++ [{ mbx := m, buf := j, subs := [], ready := true }]) ∧
    (Request s m j 0x0011 n → s.countOk j 12 41 = true → s.frm.role = .standby → Canonical s →
      ∃ u, exec .paramWrite s = .next u ∧ Answered u m j stBadState 0 [] ∧ u.params = s.params) ∧
    (Request s m j 0x0040 2 → s.pay j 0 1 < 16 → s.pay j 1 1 < 2 → s.cfg.running = true → s.frm.role ≠ .standby →
      s.pwr.stage < 4 → s.ovlSt (s.pay j 0 1) = .valid → (∀ t ∈ s.host.taken, t.buf ≠ j) →
      ∃ u, exec .ovlApply s = .next u ∧ u.bufSt j = .fw ∧
        u.host.taken = s.host.taken ++ [{ mbx := m, buf := j, subs := s.ovlImage (s.pay j 0 1), ready := true }]) ∧
    (Request s m j 0x0042 1 → s.pay j 0 1 < 2 → s.refuse (s.pay j 0 1) = 0 → s.frm.run = true → s.frm.role = .head →
      ∃ u, exec .cfgActivate s = .next u ∧ u.bufSt j = .fw ∧ u.cfg = s.cfg ∧
        u.host.taken = s.host.taken ++ [{ mbx := m, buf := j, subs := [], ready := true }]) ∧
    (Request s m j 0x0042 1 → s.pay j 0 1 < 2 → s.refuse (s.pay j 0 1) = 0 → s.cfg.running = false → s.frm.run = false → Canonical s →
      ∃ u, exec .cfgActivate s = .next u ∧ u.cfg.startReq = some (s.pay j 0 1) ∧ u.cfg.prefBase = s.pay j 0 1 ∧
        Answered u m j stOk 0 [])

/-- R386, R405, R418: a PARAM_WRITE is accepted whole or refused whole: where any entry is refused no parameter changes, and the
answer names the first refused entry and its status. -/
def Obligations.WritesAreAllOrNothing : Prop :=
  ∀ (s : State) (t : Taken) (x : Nat × Nat), Canonical s → s.firstRefused false (s.writeEntries t.buf) = some x →
    (s.decideWrite t).params = s.params ∧ (s.decideWrite t).red.paramRec = s.red.paramRec ∧
    (s.decideWrite t).axes = s.axes ∧ (s.decideWrite t).fio = s.fio ∧
    Answered (s.decideWrite t) t.mbx t.buf x.2 0 (leBytes 2 x.1 ++ leBytes 2 x.2)

/-- R85, R99, R100, R104, R258: GRP_CLRDERATE and YIELD are accepted for the next boundary; CAM_WRITE's data stand in the staging
area; CAM_LOAD installs a staged table that passes its checks and that no running axis uses. -/
def GroupAndCamRequestsAct : Prop :=
  ∀ (s : State) (m j n : Nat), Canonical s →
    (Request s m j 0x0021 4 → ∃ u, exec .grpClrderate s = .next u ∧ Answered u m j stOk s.effNext [] ∧
      u.evt.clrDer = s.evt.clrDer ||| BitVec.ofNat 32 (s.pay j 0 4) ∧ u.evt.derate = s.evt.derate) ∧
    (Request s m j 0x0022 0 → s.isHead = true → s.red.fit = true → ∃ u, exec .yield s = .next u ∧
      Answered u m j stOk s.effNext [] ∧ u.red.yReq = true) ∧
    (Request s m j 0x0022 0 → s.red.fit = false → ∃ u, exec .yield s = .next u ∧ Answered u m j stBadState 0 [] ∧
      u.red = s.red) ∧
    (Request s m j 0x0030 n → 6 ≤ n → n ≤ 494 → s.pay j 1 1 = 0 → s.pay j 0 1 < 64 → s.pay j 2 4 + (n - 6) ≤ 98368 →
      twf [] s.camStg = true → Memory.wf ramByte (tget [] s.camStg (s.pay j 0 1)) = true →
      ∃ u, exec .camWrite s = .next u ∧ Answered u m j stOk 0 [] ∧ u.cams = s.cams ∧
        mread ramByte (tget [] u.camStg (s.pay j 0 1)) (s.pay j 2 4) (n - 6) = s.bufBytes j 22 (n - 6)) ∧
    (Request s m j 0x0031 1 → s.pay j 0 1 < 64 →
      let c := s.pay j 0 1
      let bs := s.stgBytes c 0 (0x40 + 24 * min (leNat (s.stgBytes c 0 4)) 4096)
      camOk bs = true →
      (s.camBusy c = false → ∃ u, exec .camLoad s = .next u ∧ Answered u m j stOk 0 [] ∧ tget {} u.cams c = camOf bs) ∧
      (s.camBusy c = true → ∃ u, exec .camLoad s = .next u ∧ Answered u m j stInUse 0 [] ∧ u.cams = s.cams))

/-- R383: a request not answered at its timeout is answered TIMEOUT, has changed nothing of the machine it asked for, and raises
EV_MBX_TIMEOUT. -/
def RequestsTimeOut : Prop :=
  ∀ (s : State) (j : Fin 512) (m : Nat), Canonical s → twf [] s.host.q = true → s.mbxOf j = some m →
    ∃ u, exec (.mailboxTimeout j) s = .next u ∧ Answered u m j stTimeout 0 [] ∧ (tget [] u.host.q m).contains j.val = false ∧
      (u.host.taken.all fun t => t.buf != j.val) = true ∧ u.hasEvent evMbxTimeout devObj ∧
      u.params = s.params ∧ u.axes = s.axes ∧ u.cfg.flash = s.cfg.flash

/-! ## Slots, keys, lifecycle, boot (16) -/

/-- R411, R413: CFG_WRITE at offset 0 begins the erase, whose end stores the segment and posts the answer; a segment that follows on
is stored at once; a firmware slot whose signature verifies is preferred from then on. -/
def SlotsAreWritten : Prop :=
  (∀ (s : State) (m j n a size : Nat), Request s m j 0x0041 n → 9 ≤ n → n ≤ 493 → (n - 5) % 4 = 0 →
    slotSpace (s.pay j 0 1) = some (a, size) → s.pay j 1 4 + (n - 5) ≤ size → s.slotRuns (s.pay j 0 1) = false → s.cfg.erasing = none →
    (s.pay j 1 4 = 0 → ∃ u, exec .cfgWrite s = .next u ∧ u.cfg.erasing = some (s.pay j 0 1, s.bufBytes j 21 (n - 5), j) ∧
      u.cfg.flash = s.cfg.flash ∧ u.host.ans = s.host.ans) ∧
    (Canonical s → s.pay j 1 4 ≠ 0 → (tget {} s.cfg.slots (s.pay j 0 1)).wrote = true → s.pay j 1 4 = (tget {} s.cfg.slots (s.pay j 0 1)).next →
      ∃ u, exec .cfgWrite s = .next u ∧ Answered u m j stOk 0 [] ∧
        mread flashByte u.cfg.flash (a + s.pay j 1 4) (n - 5) = s.bufBytes j 21 (n - 5))) ∧
  (∀ (s : State) (c j m a size : Nat) (d : List Byte), Canonical s → s.cfg.erasing = some (c, d, j) → s.mbxOf j = some m →
    slotSpace c = some (a, size) →
    ∃ u, exec .flashWriteComplete s = .next u ∧ u.cfg.erasing = none ∧ Answered u m j stOk 0 [] ∧
      mread flashByte u.cfg.flash a d.length = d) ∧
  (∀ (s : State) (m j : Nat), Canonical s → Request s m j 0x0042 1 → s.pay j 0 1 = 2 ∨ s.pay j 0 1 = 3 →
    (Config.fwSigOk (s.fwImage (s.pay j 0 1 - 2)) = true → ∃ u, exec .firmwareActivate s = .next u ∧
      u.cfg.prefFw = s.pay j 0 1 - 2 ∧ Answered u m j stOk 0 []) ∧
    (Config.fwSigOk (s.fwImage (s.pay j 0 1 - 2)) = false → ∃ u, exec .firmwareActivate s = .next u ∧
      u.cfg = s.cfg ∧ Answered u m j stBadSig 0 []))

/-- R420, R421: a key is provisioned in the PROVISION state, once; a LIFECYCLE request to the next state, with every axis idle and
every group in STO, is in force from the next reset. -/
def KeysAndLifecycle : Prop :=
  ∀ (s : State) (m j : Nat), Canonical s →
    (Request s m j 0x0043 65 → s.pay j 0 1 = 0 → s.cfg.lcy = 1 → s.cfg.cfgKey = none → ∃ u, exec .keyProvision s = .next u ∧
      u.cfg.cfgKey = some (Config.sha256 (s.bufBytes j 17 64)) ∧ u.cfg.safeKey = s.cfg.safeKey ∧ Answered u m j stOk 0 []) ∧
    (Request s m j 0x0043 65 → s.pay j 0 1 = 1 → s.cfg.lcy = 1 → s.cfg.safeKey = none → ∃ u, exec .keyProvision s = .next u ∧
      u.cfg.safeKey = some (Config.sha256 (s.bufBytes j 17 64)) ∧ u.cfg.cfgKey = s.cfg.cfgKey ∧ Answered u m j stOk 0 []) ∧
    (Request s m j 0x0043 65 → s.pay j 0 1 < 2 → s.cfg.lcy ≠ 1 → ∃ u, exec .keyProvision s = .next u ∧
      u.cfg = s.cfg ∧ Answered u m j stBadState 0 []) ∧
    (Request s m j 0x0044 5 → s.pay j 0 1 = s.cfg.lcy + 1 → s.pay j 0 1 ≤ 2 → s.pay j 1 4 = Config.headId.toNat % 2 ^ 32 →
      s.axesIdle = true → s.allSto = true → (s.pay j 0 1 = 2 → s.cfg.cfgKey ≠ none ∧ s.cfg.safeKey ≠ none) →
      ∃ u, exec .lifecycle s = .next u ∧ u.cfg.lcyNext = some (s.pay j 0 1) ∧ u.cfg.lcy = s.cfg.lcy ∧
        u.cfg.flash = s.cfg.flash ∧ Answered u m j stOk 0 []) ∧
    (Request s m j 0x0044 5 → s.pay j 0 1 = s.cfg.lcy + 1 → s.pay j 0 1 ≤ 3 → s.pay j 1 4 = Config.headId.toNat % 2 ^ 32 →
      s.axesIdle = false → ∃ u, exec .lifecycle s = .next u ∧ u.cfg = s.cfg ∧ Answered u m j stBadState 0 [])

/-- R412, R413, R441, R442: the boot ROM starts the preferred firmware slot, or its recovery service; firmware then starts the
base slot asked for where it passes the checks, and refuses it otherwise. -/
def Obligations.PartsBoot : Prop :=
  (∀ s : State, s.pwr.up = true → s.cfg.fwOn = false →
    (s.bootSlot = none → ∃ u, exec .bootStart s = .next u ∧ u.cfg.fwOn = true ∧ u.cfg.fwSlot = 255 ∧ u.cfg.running = s.cfg.running) ∧
    (s.bootSlot = some s.cfg.prefFw → ∃ u, exec .bootStart s = .next u ∧ u.cfg.fwOn = true ∧ u.cfg.fwSlot = s.cfg.prefFw ∧
      u.cfg.startReq = (if s.pwr.boot = 1 then none else some s.cfg.prefBase))) ∧
  (∀ (s : State) (k : Nat), s.cfg.startReq = some k → s.pwr.up = true → s.fullService = true → s.cfg.running = false →
    (s.refuse k = 0 → ∃ u, exec .baseConfigStart s = .next u ∧ u.cfg.running = true ∧ u.cfg.cfgSlot = k ∧ u.cfg.startReq = none ∧
      u.cfg.hash = crc32 (imgSched (s.baseImage k)) ∧ u.cfg.digest = imgDigest (s.baseImage k) ∧ u.frm.frame = 0 ∧ u.frm.run = false) ∧
    (s.refuse k ≠ 0 → ∃ u, exec .baseConfigStart s = .next u ∧ u.cfg.running = false ∧ u.cfg.reason = s.refuse k ∧
      u.hasEvent evCfgRefused devObj))

/-! ## Head pairs (08) -/

/-- R241, R250: a heartbeat of the present frame with the head's EPOCH, received by T0 + P/2, is present; the window's close at T0
+ P/2 counts a missing one; the close of a branch's CSM window is noted. -/
def StandbyWatchesItsHead : Prop :=
  (∀ (s : State) (f : List Byte) (t : Nat), s.frm.role = .standby → s.frm.run = true → intact f false = true →
    (frameHdr f).ty = 8 → (frameHdr f).dir = false → beAt f 22 6 = s.frm.frame.toNat → (frameHdr f).epoch = s.net.obeyEpoch.toNat →
    s.frm.t0 ≤ t →
    (max s.frm.now (t + wireB f * s.tB) ≤ s.frm.t0 + s.per / 2 → ∃ u, exec (.heartbeatReceived f t) s = .next u ∧
      u.red.hbHere = true ∧ u.red.firnOk = true ∧ u.red.yldPend = bitOf (beAt f 46 1) 0) ∧
    (s.frm.t0 + s.per / 2 < max s.frm.now (t + wireB f * s.tB) → ∃ u, exec (.heartbeatReceived f t) s = .next u ∧ u.red = s.red)) ∧
  (∀ s : State, s.frm.role = .standby → s.frm.run = true → s.paired = true → s.red.hbClosed = false →
    ∃ u, exec .heartbeatWindowClose s = .next u ∧ u.frm.now = max s.frm.now (s.frm.t0 + s.per / 2) ∧ u.red.hbClosed = true ∧
      u.red.hbRun = (if s.red.hbHere then 0 else min (s.red.hbRun + 1) 65535) ∧
      u.red.hbTotal = min (s.red.hbTotal + (if s.red.hbHere then 0 else 1)) 65535) ∧
  (∀ (s : State) (b : Fin 8), s.follows = true → s.frm.run = true → s.joinKey b < 8 → s.red.winDone.getLsbD (s.joinKey b) = false →
    ∃ u, exec (.csmWindowClose b) s = .next u ∧ u.frm.now = max s.frm.now (s.windowEnd (s.joinKey b)) ∧
      u.red.winDone.getLsbD (s.joinKey b) = true)

/-- R252, R258, R260: at T0 of frame 3 a part that has decided to take over is the head, with the next EPOCH and the restart in
frame 8 of the takeover; at T0(Y) the standby of a planned yield is the head, its restart two frames later. -/
def StandbysBecomeHeadInTime : Prop :=
  (∀ s : State, s.frm.role = .standby → s.red.decided = true → s.frm.frame + 5 = s.red.restart →
    ∃ u, exec .takeoverStart s = .next u ∧ u.frm.role = .head ∧ u.net.cs = .head ∧ u.net.epoch = s.net.obeyEpoch + 1 ∧
      u.red.restartOn = true ∧ u.red.restart = s.red.restart ∧ u.red.decided = false ∧ u.red.seq = s.newestSeq ∧
      u.red.tkFc = s.frm.frame ∧ u.hasEvent evTakeover devObj) ∧
  (∀ s : State, s.frm.role = .standby → s.frm.run = true → s.red.ystate = 2 → s.frm.frame = s.red.yfc →
    ∃ u, exec .handoverStart s = .next u ∧ u.frm.role = .head ∧ u.net.cs = .head ∧ u.net.epoch = s.net.obeyEpoch + 1 ∧
      u.red.restartOn = true ∧ u.red.restart = s.frm.frame + 2 ∧ u.red.ystate = 0 ∧ u.hasEvent evHandover devObj)

/-- R253, R254: the newest valid image is loaded for a part that is to restart; in the restart frame, once its samples are in, the
axes start from it, with the derated groups and stop reactions of the image. -/
def ImagesRestartTheAxes : Prop :=
  (∀ (s : State) (im : Image) (t : Nat), s.red.loaded = false → s.red.decided = true ∨ s.red.restartOn = true → s.red.newest = some im →
    ∃ u, exec (.imageLoadComplete t) s = .next u ∧ u.red.loaded = true ∧ u.red.load.isSome = true ∧ u.frm.now = max s.frm.now t ∧
      u.axes = s.axes) ∧
  (∀ (s : State) (im : Image), s.frm.role = .head → s.red.restartOn = true → s.bridging = false → s.frm.tickPend = false →
    s.red.loaded = true → s.samplesIn = true → s.red.load = some im →
    ∃ u, exec .restartFrame s = .next u ∧ u.red.restartOn = false ∧ u.red.load = none ∧ u.evt.derate = im.derate ∧
      u.evt.under = im.react ∧ u.lines = tmap {} id im.lines)

/-- R240, R242, R243, R258: a snapshot every RED.N_FIRN frames at the kernels' end, skipped while the image before is under way,
and the final full image of a yield; its segments of 1,504 bytes leave one behind the other, none whose last byte would fall after
the next T0. -/
def ImagesAreSent : Prop :=
  (∀ s : State, s.isHead = true → s.paired = true → s.red.restartOn = false → s.frm.tickPend = false →
    s.red.snapAt ≠ some s.frm.frame → s.kernelsDone = true →
    (s.red.ystate = 1 → s.red.yTries = 0 → ∃ u, exec .snapshot s = .next u ∧ u.red.seq = s.red.seq + 1 ∧ u.red.outFinal = true ∧
      u.red.outBase = s.red.seq + 1 ∧ u.red.yTries = 1) ∧
    (s.red.ystate = 0 ∨ s.red.ystate = 3 → s.frm.frame.toNat % s.pn 14 0 3 = 0 → s.red.out = none →
      ∃ u, exec .snapshot s = .next u ∧ u.red.seq = s.red.seq + 1 ∧
      u.red.out.isSome = true ∧ u.red.outNext = 0 ∧ u.red.outFinal = false ∧ u.red.snapAt = some s.frm.frame) ∧
    (s.red.ystate ≠ 1 → s.frm.frame.toNat % s.pn 14 0 3 = 0 → s.red.out ≠ none → s.red.outNext < s.red.outN →
      ∃ u, exec .snapshot s = .next u ∧ u.red.seq = s.red.seq ∧
      u.red.skip = min (s.red.skip + 1) 15 ∧ u.red.out = s.red.out)) ∧
  (∀ (s : State) (g : Segment) (shadow : Bool), s.isHead = true → s.paired = true → s.nextSeg = some (g, shadow) →
    (max s.frm.now s.red.firnFree + segWire * s.tB ≤ s.nextT0 → ∃ u, exec .firnSegmentSend s = .next u ∧ u.red.segTx = some g ∧
      u.frm.now = max s.frm.now s.red.firnFree ∧ g.bytes.length = 1504 ∧
      (shadow = false → u.red.outNext = s.red.outNext + 1) ∧ (shadow = true → u.red.outShNext = s.red.outShNext + 1)) ∧
    (s.nextT0 < max s.frm.now s.red.firnFree + segWire * s.tB → exec .firnSegmentSend s = .next s))

/-- R243, R244: a frame that is no whole segment is not received. The last segment of an image decides it: OK where its base was
held, every segment arrived in order and the CRC-32 of the image they make is correct, and it is then the newest image if its
sequence is higher; 2 where the base was not held, 1 otherwise; the return then leaves once. A record of parameters that arrives
whole sets them. -/
def ImagesAreReceived : Prop :=
  (∀ (s : State) (g : Segment) (t : Nat), g.whole = false → exec (.firnSegmentReceived g t) s = .next s) ∧
  (∀ (s : State) (g : Segment) (t : Nat), s.frm.role = .standby → s.frm.run = true → g.whole = true → g.shadow = false →
    g.segno + 1 = g.nseg →
    let r := s.red.assemble g
    (∀ i, g.img = some i → r.asmHold = true → r.segBad = false → imgCrcOk (r.built g) = true →
      ∃ u, exec (.firnSegmentReceived g t) s = .next u ∧
        u.red.retDue = some (g.seq, 0) ∧ u.red.crcFail = min s.red.crcFail 255 ∧ u.red.health.getLsbD 9 = false ∧
        ((∀ n, s.red.newest = some n → seqAbove g.seq n.seq = true) →
          u.red.newest = some (Image.received g.seq g.snap (r.built g) i))) ∧
    (r.asmHold = true → r.segBad = true ∨ imgCrcOk (r.built g) = false → ∃ u, exec (.firnSegmentReceived g t) s = .next u ∧
      u.red.retDue = some (g.seq, 1) ∧ u.red.crcFail = min (s.red.crcFail + 1) 255 ∧ u.red.health.getLsbD 9 = true ∧
      u.red.newest = s.red.newest) ∧
    (r.asmHold = false → ∃ u, exec (.firnSegmentReceived g t) s = .next u ∧ u.red.retDue = some (g.seq, 2) ∧
      u.red.newest = s.red.newest)) ∧
  (∀ (s : State) (q : W32) (res : Nat), s.frm.role = .standby → s.frm.run = true → s.red.retDue = some (q, res) →
    ∃ u, exec .returnSend s = .next u ∧ u.red.retDue = none ∧ u.red.firnTx.length = s.red.firnTx.length + 1) ∧
  (∀ (s : State) (f : List Byte) (t : Nat), s.frm.role = .standby → s.frm.run = true → (frameHdr f).ty = 0xA → (frameHdr f).dir = false →
    (intact f false = true → ∃ u, exec (.parameterRecordReceived f t) s = .next u ∧
      u = applyEntries (paramEntries f) (s.goto (t + wireB f * s.tB))) ∧
    (intact f false = false → ∃ u, exec (.parameterRecordReceived f t) s = .next u ∧ u.params = s.params))

/-- R246, R258, R259: an intact return tells the head the standby's health: fit where the health word is zero; an unfit one raises
EV_STANDBY_UNFIT. The answer OK to a final image names Y. 2·RED.N_FIRN frames without a return make the standby unfit. -/
def ReturnsTellFitness : Prop :=
  (∀ (s : State) (f : List Byte) (t : Nat), s.isHead = true → s.paired = true → intact f false = true → (frameHdr f).ty = 0xB →
    (frameHdr f).dir = true →
    ∃ u, exec (.returnReceived f t) s = .next u ∧ u.red.fit = decide (beAt f 32 4 % 2 ^ 32 = 0) ∧ u.red.peerOn = true ∧
      u.red.retFrame = s.frm.frame ∧ u.red.lostRep = false ∧
      (s.red.fit = true → beAt f 32 4 % 2 ^ 32 ≠ 0 → u.hasEvent evStandbyUnfit devObj) ∧
      (s.red.ystate = 1 → s.red.yTries ≠ 0 → BitVec.ofNat 32 (beAt f 22 4) = s.red.seq → beAt f 26 1 = 0 →
        u.red.ystate = 2 ∧ u.red.yfc = s.frm.frame + BitVec.ofNat 48 (s.pn 14 0 4))) ∧
  (∀ s : State, s.isHead = true → s.paired = true → s.red.lostRep = false →
    s.red.retFrame.toNat + 2 * s.pn 14 0 3 ≤ s.frm.frame.toNat →
    ∃ u, exec .firnReturnTimeout s = .next u ∧ u.red.fit = false ∧ u.red.lostRep = true ∧ u.hasEvent evFirnLost devObj)

/-- R247 to R249: the self-tests of a standby set and clear their own bits of the health word and no other test's. -/
def StandbysTestThemselves : Prop :=
  ∀ s : State, s.frm.role = .standby →
    (∀ p : Byte, ∃ u, exec (.goldenVectorTest p) s = .next u ∧ (u.health.getLsbD 0 = true ↔ p ≠ 0xFF) ∧
      ∀ k, k ≠ 0 → u.red.health.getLsbD k = s.red.health.getLsbD k) ∧
    (∀ ok : Bool, ∃ u, exec (.sramScrubPass ok) s = .next u ∧ u.health.getLsbD 1 = !ok ∧
      ∀ k, k ≠ 1 → u.red.health.getLsbD k = s.red.health.getLsbD k) ∧
    (∀ (b : Fin 8) (ok : Bool), ∃ u, exec (.loopbackTest b ok) s = .next u ∧ u.red.loopFail.getLsbD b = !ok ∧
      (ok = false → u.health.getLsbD 8 = true) ∧ ∀ c : Fin 8, c ≠ b → u.red.loopFail.getLsbD c = s.red.loopFail.getLsbD c) ∧
    (∀ im : Image, s.red.shImg = some im → ∃ u, exec .shadowComputation s = .next u ∧ u.red.shImg = none ∧
      u.red.shRuns = min (s.red.shRuns + 1) 65535 ∧
      (u.health.getLsbD 3 = true ↔ (s.red.shRec.all fun x => s.shadowAgrees im x.1 x.2) = false))

/-- R193, R194, R256 to R259: a head that meets its own HEAD_ID notes it; one that meets a well-formed CSM of a higher EPOCH,
and one whose yield has come to its frame Y, leave the head role and make their field outputs safe; a yield without its answer
fails. -/
def HeadsGiveWay : Prop :=
  (∀ (s : State) (b : Fin 8) (f : List Byte) (t : Nat) (err : Bool), s.frm.role = .head → s.pn 3 b 0 = 1 → isCsm f = true →
    s.monitors = false ∨ b ≠ 0 →
    let c := csmOf f (t + 8 * s.tB)
    (c.headId = Config.headId → ∃ u, exec (.foreignCsm b f ⟨t, err⟩) s = .next u ∧ u.net.ownSeen = true ∧ u.frm.role = .head ∧
      u.net.cs = s.net.cs) ∧
    (c.headId ≠ Config.headId → s.net.cs = .head → epochAbove c.epoch s.net.epoch = true → s.csmWellFormed b f = true →
      err = false → ∃ u, exec (.foreignCsm b f ⟨t, err⟩) s = .next u ∧ u.frm.role = .standby ∧ u.net.cs = .yielded ∧ u.frm.run = false ∧
        u.fio.order = true ∧ u.net.muteTo = s.nextT0) ∧
    (c.headId ≠ Config.headId → s.net.cs = .head → epochAbove c.epoch s.net.epoch = false →
      ∃ u, exec (.foreignCsm b f ⟨t, err⟩) s = .next u ∧ u.frm.role = .head ∧ u.net.cs = .head ∧ u.net.peerId = c.headId)) ∧
  (∀ s : State, s.isHead = true → s.red.ystate = 2 → s.frm.frame = s.red.yfc →
    ∃ u, exec .yieldSilence s = .next u ∧ u.frm.role = .standby ∧ u.frm.run = false ∧ u.fio.order = true ∧ u.fio.hold = true) ∧
  (∀ s : State, s.isHead = true → s.red.ystate = 1 → s.red.yieldJ.toNat + 4 * s.pn 14 0 3 ≤ s.frm.frame.toNat →
    ∃ u, exec .yieldTimeout s = .next u ∧ u.red.ystate = 3 ∧ u.red.yldPend = false ∧ u.hasEvent evYieldFail devObj)

/-! ## Safety functions and the safety layer (10, 11) -/

/-- R269 to R272: a sample pair enters both channels; SIN.FILT pairs in a row set or clear the filtered demand; T_DISC of
disagreement latches the pair, with EV_SAFE_DISC. -/
def SafetyInputsAreJudged : Prop :=
  (∀ (s : State) (a b : Byte), twf {} s.saf.pairs = true → ∃ u, exec (.safetyInputSample a b) s = .next u ∧
    u.frm.now = max s.frm.now (usT 50 * (s.saf.smpK + 1)) ∧ u.saf.smpK = s.saf.smpK + 1 ∧
    ∀ n, n < 8 → s.sinP n 3 ≠ 1 → (u.spair n).a = a.getLsbD n ∧ (u.spair n).b = b.getLsbD n ∧
      (u.spair n).demand = (s.spair n).demand ∧
      (s.judgesA = true → s.judgesB = true → s.sinP n 0 = 0 → (u.spair n).onRun = (if a.getLsbD n && b.getLsbD n then 0 else (s.spair n).onRun + 1) ∧
        (u.spair n).offRun = (if a.getLsbD n && b.getLsbD n then (s.spair n).offRun + 1 else 0) ∧
        (u.spair n).discRun = (if a.getLsbD n != b.getLsbD n then (s.spair n).discRun + 1 else 0))) ∧
  (∀ (s : State) (p : Fin 8), s.sinP p 1 ≤ (s.spair p).onRun → (s.spair p).demand = false →
    ∃ u, exec (.filteredDemandChange p) s = .next u ∧ (u.spair p).demand = true ∧ (u.spair p).onFrom = none) ∧
  (∀ (s : State) (p : Fin 8), (s.spair p).onRun < s.sinP p 1 → s.sinP p 1 ≤ (s.spair p).offRun → (s.spair p).demand = true →
    ∃ u, exec (.filteredDemandChange p) s = .next u ∧ (u.spair p).demand = false ∧ (u.spair p).onFrom = some s.saf.tick) ∧
  (∀ (s : State) (p : Fin 8), 20 * s.sinP p 2 ≤ (s.spair p).discRun → (s.spair p).latch = false →
    ∃ u, exec (.discrepancyFault p) s = .next u ∧ (u.spair p).latch = true ∧ u.hasEvent evSafeDisc p)

/-- R273: a test pulse drives its source low while no other source is, once in every SAFE.TP_PER and a quarter of it after the
source before (the phase the model counts from is its choice, log 12); at its end every pair it feeds that never read inactive in
the test window, in the channel that judges, is latched with EV_SAFE_TP, and every other pair keeps its latch. -/
def TestPulsesCheckInputs : Prop :=
  (∀ (s : State) (k : Fin 4), (∀ j, j < 4 → tget false s.saf.tpLow j = false) →
    ∃ u, exec (.testPulseStart k) s = .next u ∧ tget false u.saf.tpLow k = true ∧ tget 0 u.saf.tpStart k = u.frm.now + 1 ∧
      s.frm.now ≤ u.frm.now ∧ tget 0 s.saf.tpStart k ≤ u.frm.now ∧
      (0 < s.pn 11 0 1 → u.frm.now % msT (s.pn 11 0 1) = k.val * msT (s.pn 11 0 1) / 4)) ∧
  (∀ (s : State) (k : Fin 4) (j : Nat), j < 4 → tget false s.saf.tpLow j = true → exec (.testPulseStart k) s = .next s) ∧
  (∀ (s : State) (k : Fin 4), tget false s.saf.tpLow k = true →
    let chB : Bool := decide (2 ≤ k.val)
    (if chB then s.judgesB else s.judgesA) = true →
    ∃ u, exec (.testPulseWindowEnd k) s = .next u ∧
      ∀ n, n < 8 →
        (s.sinP n 3 = 1 → s.tpSource n chB = k → (if chB then (s.spair n).tpLowB else (s.spair n).tpLowA) = false →
          (s.spair n).latch = false → (u.spair n).latch = true ∧ u.hasEvent evSafeTp n) ∧
        (s.sinP n 3 ≠ 1 ∨ s.tpSource n chB ≠ k ∨ (if chB then (s.spair n).tpLowB else (s.spair n).tpLowA) = true →
          u.spair n = s.spair n))

/-- R267, R274 to R276, R286: each tick of a safety cycle, ten in all, and each exchange is counted; two disagreeing readbacks, an
off-test whose level does not come within SAFE.OT_W and a current limit fault the output: each switch that is not frozen opens, with
EV_SAFE_OUT on its first fault; a passed off-test leaves it in service. -/
def Obligations.SafetyOutputsAreChecked : Prop :=
  (∀ (s : State) (rb : List Nat), s.saf.tick < 10 * (s.saf.cycle + 1) → ∃ u, exec (.safetyTick rb) s = .next u ∧
    u.saf.tick = s.saf.tick + 1 ∧ u.saf.perA = s.saf.perA ++ [(rb[6]?).getD 0] ∧ u.frm.now = max s.frm.now (usT 100 * (s.saf.tick + 1))) ∧
  (∀ (s : State) (rb : List Nat), 10 * (s.saf.cycle + 1) ≤ s.saf.tick → exec (.safetyTick rb) s = .next s) ∧
  (∀ (s : State) (ok : Bool) (rb : List Nat), ∃ u, exec (.tickExchange ok rb) s = .next u ∧ u.saf.tickB = s.saf.tickB + 1 ∧
    u.saf.exBad = (s.saf.exBad || !ok) ∧ u.saf.perB = s.saf.perB ++ [(rb[5]?).getD 0]) ∧
  (∀ (s : State) (o : Fin 4), 2 ≤ (s.sout o).disA ∨ 2 ≤ (s.sout o).disB → (s.sout o).fault = false →
    ∃ u, exec (.outputFault o) s = .next u ∧ (u.sout o).fault = true ∧ (u.sout o).soh = ((s.sout o).soh && (s.sout o).frzA) ∧
      (u.sout o).sol = ((s.sout o).sol && (s.sout o).frzB) ∧ u.hasEvent evSafeOut o) ∧
  (∀ (s : State) (o : Fin 4), (s.sout o).soh = true → (s.sout o).sol = true → (s.sout o).testH = false → (s.sout o).testL = false →
    ((s.sout o).frzA = false → ∃ u, exec (.outputOffTest o false) s = .next u ∧ (u.sout o).testH = true ∧ (u.sout o).soh = false ∧
      (u.sout o).sol = true ∧ s.frm.now ≤ u.frm.now ∧ u.frm.now % msT 100 = 0) ∧
    ((s.sout o).frzB = false → ∃ u, exec (.outputOffTest o true) s = .next u ∧ (u.sout o).testL = true ∧ (u.sout o).sol = false ∧
      (u.sout o).soh = true ∧ s.frm.now ≤ u.frm.now ∧ u.frm.now % msT 100 = msT 50)) ∧
  (∀ (s : State) (o : Fin 4) (mv t : Nat), (s.sout o).testH = true → (s.sout o).fault = false →
    let closes := (s.sout o).atH - 1 + usT (s.pn 11 0 3)
    (5000 < mv ∨ closes < t → ∃ u, exec (.offTestWindowEnd o false ⟨mv, t⟩) s = .next u ∧ (u.sout o).fault = true ∧
      u.hasEvent evSafeOut o ∧ u.frm.now = max s.frm.now closes) ∧
    (mv ≤ 5000 → t ≤ closes → twf {} s.saf.outs = true → ∃ u, exec (.offTestWindowEnd o false ⟨mv, t⟩) s = .next u ∧
      (u.sout o).fault = false ∧ (u.sout o).testH = false ∧ u.frm.now = max s.frm.now t)) ∧
  (∀ (s : State) (o : Fin 4) (mv t : Nat), (s.sout o).testL = true → (s.sout o).fault = false →
    let closes := (s.sout o).atL - 1 + usT (s.pn 11 0 3)
    (mv < 10000 ∨ closes < t → ∃ u, exec (.offTestWindowEnd o true ⟨mv, t⟩) s = .next u ∧ (u.sout o).fault = true ∧
      u.hasEvent evSafeOut o ∧ u.frm.now = max s.frm.now closes) ∧
    (10000 ≤ mv → t ≤ closes → twf {} s.saf.outs = true → ∃ u, exec (.offTestWindowEnd o true ⟨mv, t⟩) s = .next u ∧
      (u.sout o).fault = false ∧ (u.sout o).testL = false ∧ u.frm.now = max s.frm.now t)) ∧
  (∀ (s : State) (o : Fin 4) (low : Bool), (s.sout o).fault = false → ∃ u, exec (.switchLimitExpiry o low) s = .next u ∧
    (u.sout o).fault = true ∧ (u.sout o).soh = ((s.sout o).soh && (s.sout o).frzA) ∧
    (u.sout o).sol = ((s.sout o).sol && (s.sout o).frzB) ∧ u.hasEvent evSafeOut o)

/-- R266, R267, R278, R279, R283: a safety cycle ends 1 ms after the one before. A channel of whose ticks one is missing, or whose
ticks are in the mean more than 2 % off 100 µs, is then in fault. At its end a group whose inputs demand its stop, SG.STOP being
STO, is in STO; a group in STO without a reset received in the cycle stays in STO; no reset is kept for a later cycle. -/
def Obligations.SafetyCyclesDecideGroups : Prop :=
  ∀ s : State, twf {} s.saf.groups = true →
    ∃ u, exec .safetyCycleEnd s = .next u ∧ u.saf.cycle = s.saf.cycle + 1 ∧ u.saf.tick = 10 * (s.saf.cycle + 1) ∧
      u.frm.now = max s.frm.now (usT 100 * (10 * (s.saf.cycle + 1))) ∧
      u.saf.perA = [] ∧ u.saf.perB = [] ∧
      (s.saf.perA.length ≠ 10 ∨ 0 ∈ s.saf.perA ∨ s.saf.perA.sum < 980000 ∨ 1020000 < s.saf.perA.sum → u.saf.a.fault = .persistent) ∧
      (0 ∈ s.saf.perB ∨ s.saf.perB.sum < 98000 * s.saf.perB.length ∨ 102000 * s.saf.perB.length < s.saf.perB.sum →
        u.saf.b.fault = .persistent) ∧
      ∀ g, g < 32 →
        ((s.sgrp g).st = .sto → (s.sgrp g).rst = false → (u.sgrp g).st = .sto) ∧
        (s.saf.setOk = true → (s.sgrp g).st ≠ .sto → s.groupDemand g = true → s.sgP g 1 = 0 → (u.sgrp g).st = .sto) ∧
        (u.sgrp g).rst = false ∧ (u.sgrp g).slsReq = false

/-- R280 to R284, R288, R289: the expiries a group acts on at the end of the cycle are noted; a group over its SLS limit for
SG.SLS_N cycles asks for its reaction with EV_SAFE_SLS; a brake delay that has run out opens the brake outputs. -/
def SafetyTimersExpire : Prop :=
  (∀ (s : State) (g : Fin 32), s.slsOver g = true → s.sgP g 14 ≤ (s.sgrp g).slsRun + 1 → (s.sgrp g).slsRep = false →
    (s.sgrp g).st ≠ .sto → ∃ u, exec (.slsViolation g) s = .next u ∧ (u.sgrp g).slsReq = true ∧ (u.sgrp g).st = (s.sgrp g).st ∧
      u.hasEvent evSafeSls g) ∧
  (∀ (s : State) (g : Fin 32), (s.sgrp g).st = .ss1 → (s.sgrp g).ss1r = false → (s.sgrp g).ss1At + s.sgP g 6 ≤ s.saf.cycle + 1 →
    ∃ u, exec (.ss1TimeExpiry g) s = .next u ∧ (u.sgrp g).tmax = true ∧ (u.sgrp g).st = .ss1) ∧
  (∀ (s : State) (g : Fin 32), (s.sgrp g).st = .ss1 → (s.sgrp g).ss1r = true → (s.sgrp g).ss1At + s.sgP g 11 ≤ s.saf.cycle + 1 →
    ∃ u, exec (.ss1TmaxExpiry g) s = .next u ∧ (u.sgrp g).tmax = true ∧ (u.sgrp g).st = .ss1) ∧
  (∀ (s : State) (g : Fin 32) (c : Nat), (s.sgrp g).st = .sto → (s.sgrp g).sbcAt = some c → c ≤ s.saf.cycle →
    twf {} s.saf.groups = true → twf {} s.saf.outs = true → ∃ u, exec (.sbcDelayExpiry g) s = .next u ∧ (u.sgrp g).sbcAt = none ∧
      ∀ o, o < 4 → bitOf (s.sgP g 4) o = true → (s.sout o).frzA = false → (u.sout o).soh = false) ∧
  (∀ s : State, s.saf.deg = true → ∃ u, exec .degradedWindowExpiry s = .next u ∧ u.saf.degExp = true ∧ u.saf.deg = true ∧
    u.frm.now = max s.frm.now s.saf.degEnd)

/-- R268, R286, R287, R289: a channel's own persistent fault opens the degraded window while the other channel is healthy, with
EV_SAFE_CHFAULT and EV_SAFE_DEGRADED, and ends it once both are in fault; a transient one is counted, and the fourth within
60 minutes is persistent. The diagnosis names the channel whose self-test failed, or, after the comparison that follows its start,
channel B where both passed and the comparison matches, and both where it does not. -/
def ChannelFaultsAreClassed : Prop :=
  (∀ s : State, s.saf.a.fault = .healthy → s.saf.b.fault = .healthy → s.saf.deg = false →
    ∃ u, exec (.safetyChannelFault false .persistent) s = .next u ∧ u.saf.a.fault = .persistent ∧ u.saf.b = s.saf.b ∧
      u.saf.deg = true ∧ u.saf.degEnd = s.frm.now + msT (1000 * s.pn 11 0 0) ∧ u.hasEvent evSafeChfault devObj ∧
      u.hasEvent evSafeDegraded devObj) ∧
  (∀ (s : State), s.saf.a.fault ≠ .healthy →
    ∃ u, exec (.safetyChannelFault true .persistent) s = .next u ∧ u.saf.b.fault = .persistent ∧ u.saf.deg = false) ∧
  (∀ (s : State), (s.saf.a.trans.filter fun t => decide (s.frm.now < t + msT 3600000)).length < 3 →
    ∃ u, exec (.safetyChannelFault false .transient) s = .next u ∧ u.saf.a.fault = s.saf.a.fault ∧ u.saf.deg = s.saf.deg ∧
      u.saf.a.trans = s.frm.now :: s.saf.a.trans.filter fun t => decide (s.frm.now < t + msT 3600000)) ∧
  (∀ s : State, s.saf.diag = 2 → ∃ u, exec (.diagnosisEnd .healthy .healthy) s = .next u ∧ u.saf.diag = 2 ∧
    u.saf.a.fault = s.saf.a.fault ∧ u.saf.b.fault = s.saf.b.fault ∧ u.saf.a.stOk = true ∧ u.saf.b.stOk = true) ∧
  (∀ s : State, s.saf.diag = 1 → s.saf.cmpBad = true → ∃ u, exec (.diagnosisEnd .healthy .healthy) s = .next u ∧
    u.saf.diag = 0 ∧ u.saf.a.fault = .persistent ∧ u.saf.b.fault = .persistent ∧ u.saf.deg = false) ∧
  (∀ s : State, s.saf.diag = 1 → s.saf.cmpBad = false → s.saf.b.fault = .healthy →
    (s.saf.b.trans.filter fun t => decide (s.frm.now < t + msT 3600000)).length < 3 →
    ∃ u, exec (.diagnosisEnd .healthy .healthy) s = .next u ∧ u.saf.diag = 0 ∧ u.saf.b.fault = .transient ∧
      u.saf.a.fault = s.saf.a.fault) ∧
  (∀ s : State, s.saf.a.fault = .healthy → s.saf.b.fault = .healthy → s.saf.deg = false →
    3 ≤ (s.saf.a.trans.filter fun t => decide (s.frm.now < t + msT 3600000)).length →
    ∃ u, exec (.safetyChannelFault false .transient) s = .next u ∧ u.saf.a.fault = .persistent ∧ u.saf.deg = true) ∧
  (∀ s : State, s.saf.diag ≠ 0 → s.saf.a.fault = .healthy → s.saf.b.fault = .healthy → s.saf.deg = false →
    (∃ u, exec (.diagnosisEnd .persistent .healthy) s = .next u ∧ u.saf.diag = 0 ∧ u.saf.a.fault = .persistent ∧
      u.saf.b.fault = .healthy ∧ u.saf.deg = true) ∧
    (∃ u, exec (.diagnosisEnd .healthy .persistent) s = .next u ∧ u.saf.diag = 0 ∧ u.saf.b.fault = .persistent ∧
      u.saf.a.fault = .healthy ∧ u.saf.deg = true))

/-- R300 to R303, R308: a PDU whose bytes channel B confirms, or that one channel forms alone, is released; one that differs is
withheld, with EV_SAFE_WITHHELD, and the one released before stays in repetition. Of PDUs received, one that fails a check of R301
changes nothing but its count; a repetition and a stale one change no channel; the next four sequence numbers are accepted with
the missed ones counted; a larger step is a failure of reason GAP, with EV_SAFE_CONN. -/
def Obligations.SafetyPdusAreJudged : Prop :=
  (∀ (s : State) (c : Fin 64), (s.conn c).formed = true →
    (s.judgesA = false ∨ s.judgesB = false ∨ (s.conn c).form = s.pduFor c (s.conn c).tx → ∃ u, exec (.pduRelease c) s = .next u ∧
      (u.conn c).rel = (s.conn c).form ∧ (u.conn c).txRel = (s.conn c).tx ∧ (u.conn c).formed = false) ∧
    (s.judgesA = true → s.judgesB = true → (s.conn c).form ≠ s.pduFor c (s.conn c).tx → ∃ u, exec (.pduRelease c) s = .next u ∧
      (u.conn c).rel = (s.conn c).rel ∧ (u.conn c).withheld = min ((s.conn c).withheld + 1) 255 ∧ u.saf.mismatch = true ∧
      u.hasEvent evSafeWithheld c)) ∧
  (∀ (s : State) (c : Fin 64) (f : Pdu) (t : Nat), s.frm.role ≠ .standby →
    let x := s.conn c
    let p := (s.goto t).rxPar c (s.frm.role == .node)
    (s.ownConns.contains c.val = false ∨ rxPasses p f = false → ∃ u, exec (.safetyPduReceived c f t) s = .next u ∧
      (u.conn c).a = x.a ∧ (u.conn c).b = x.b ∧ (u.conn c).rej = min (x.rej + 1) 255) ∧
    (s.ownConns.contains c.val = true → rxPasses p f = true → pduTexp f = s.scP c 3 → s.judgesA = true → s.judgesB = true → x.base = false →
      x.a.has = true → x.b = x.a → x.a.fail = false → x.fail = false →
      let d := (pduSeq f - x.a.seq).toNat
      (32768 ≤ d ∨ (d = 0 ∧ f = x.a.pdu) → ∃ u, exec (.safetyPduReceived c f t) s = .next u ∧ (u.conn c).a = x.a ∧
        (u.conn c).fail = false) ∧
      (1 ≤ d → d ≤ 4 → ∃ u, exec (.safetyPduReceived c f t) s = .next u ∧ (u.conn c).a.seq = pduSeq f ∧ (u.conn c).rxSeq = pduSeq f ∧
        (u.conn c).fail = false ∧ (u.conn c).a.wd = max s.frm.now t + msT (s.scP c 3) ∧ (u.conn c).la.miss = x.la.miss + (d - 1)) ∧
      (5 ≤ d → d < 32768 → ∃ u, exec (.safetyPduReceived c f t) s = .next u ∧ (u.conn c).fail = true ∧ (u.conn c).reason = 2 ∧
        (u.conn c).a.seq = x.a.seq ∧ u.hasEvent evSafeConn c))) ∧
  (∀ (s : State) (c : Fin 64), (s.conn c).a.wdOn = true → (s.conn c).a.fail = false → (s.conn c).fail = false → s.judgesA = true →
    ∃ u, exec (.safetyWatchdogExpiry c false) s = .next u ∧ u.frm.now = max s.frm.now (s.conn c).a.wd ∧ (u.conn c).fail = true ∧
      (u.conn c).reason = 1 ∧ u.hasEvent evSafeConn c)

/-- R290, R291, R421: a set that fails in either channel does not run, with EV_SAFE_SET; a load begins with the erase of the slot
that is not active, and only while every group is in STO; a confirm with the right CRC makes the new slot active; without a
confirm in time the load is discarded. -/
def SafetySetsAreLoaded : Prop :=
  (∀ s : State, s.saf.setOk = false →
    (s.cfg.lcy = 2 → s.safeSlotOk s.cfg.safeSlot = true → ∃ u, exec .safetySetCheck s = .next u ∧ u.saf.setOk = true ∧
      u.saf.setCrc = Config.safeSetCrc (s.safeCopy s.cfg.safeSlot false) ∧ ∀ g, (u.sgrp g).st = .sto) ∧
    (s.cfg.lcy ≠ 2 ∨ s.safeSlotOk s.cfg.safeSlot = false → ∃ u, exec .safetySetCheck s = .next u ∧ u.saf.setOk = false ∧
      u.hasEvent evSafeSet devObj)) ∧
  (∀ (s : State) (m j n : Nat), Request s m j 0x0052 n → 12 ≤ n → n ≤ 496 → (n - 8) % 4 = 0 →
    (s.allSto = false → Canonical s → ∃ u, exec .safeLoad s = .next u ∧ Answered u m j stBadState 0 [] ∧ u.saf = s.saf ∧ u.cfg = s.cfg) ∧
    (s.allSto = true → s.pay j 0 4 = 0 → n - 8 ≤ s.pay j 4 4 → s.pay j 4 4 ≤ 262144 → ∃ u, exec .safeLoad s = .next u ∧
      u.saf.load.on = true ∧ u.saf.load.erase = true ∧ u.saf.load.first = s.bufBytes j 24 (n - 8) ∧ u.cfg = s.cfg)) ∧
  (∀ s : State, Canonical s → s.saf.load.erase = true → ∃ u, exec .safeLoadEraseComplete s = .next u ∧ u.saf.load.erase = false ∧
    mread flashByte u.cfg.flash (s.safeBase + 0x40000) s.saf.load.first.length = s.saf.load.first ∧ u.cfg.safeSlot = s.cfg.safeSlot) ∧
  (∀ s : State, s.saf.load.done = true → ∃ u, exec .safeConfirmTimeout s = .next u ∧ u.saf.load = {} ∧
    u.cfg.safeSlot = s.cfg.safeSlot ∧ u.saf.setCrc = s.saf.setCrc) ∧
  (∀ (s : State) (m j : Nat), Request s m j 0x0053 4 → s.saf.load.done = true → s.frm.now ≤ s.saf.load.due →
    let crc := Config.safeSetCrc (s.safeCopy (1 - s.cfg.safeSlot) false)
    (BitVec.ofNat 32 (s.pay j 0 4) = crc → ∃ u, exec .safeConfirm s = .next u ∧ u.cfg.safeSlot = 1 - s.cfg.safeSlot ∧
      u.saf.setOk = true ∧ u.saf.setCrc = crc ∧ ∀ g, (u.sgrp g).st = .sto) ∧
    (BitVec.ofNat 32 (s.pay j 0 4) ≠ crc → ∃ u, exec .safeConfirm s = .next u ∧ u.cfg.safeSlot = s.cfg.safeSlot ∧
      u.saf.setCrc = s.saf.setCrc ∧ u.saf.load = {}))

/-- R283, R288: SAFE_RESET of a group whose reset source is the host is received in the present cycle; SAFE_CLEAR of a transient
fault waits 100 ms for a matching comparison, and one of a persistent fault is refused. -/
def SafetyRequestsAct : Prop :=
  ∀ (s : State) (m j : Nat), Canonical s →
    (Request s m j 0x0050 1 → s.pay j 0 1 < 32 → s.sgP (s.pay j 0 1) 19 = 0 → ∃ u, exec .safeReset s = .next u ∧
      Answered u m j stOk 0 [] ∧ (u.sgrp (s.pay j 0 1)).rst = true ∧ (u.sgrp (s.pay j 0 1)).st = (s.sgrp (s.pay j 0 1)).st) ∧
    (Request s m j 0x0051 1 → s.pay j 0 1 < 2 → (s.chan (decide (s.pay j 0 1 = 1))).fault = .transient →
      ∃ u, exec .safeClear s = .next u ∧ Answered u m j stOk 0 [] ∧ u.saf.clr = some (s.frm.now + msT 100)) ∧
    (Request s m j 0x0051 1 → s.pay j 0 1 < 2 → (s.chan (decide (s.pay j 0 1 = 1))).fault = .persistent →
      ∃ u, exec .safeClear s = .next u ∧ Answered u m j stSafePersist 0 [] ∧ u.saf = s.saf)

/-! ## The field IO (12) -/

/-- R316, R328: a housekeeping cycle clears the SAFE order it carried; a die's return brings its channels' live flags into their
sticky copies, a missing one counts an error; three in a row are HKLOST, and the die's inputs are INVALID. -/
def HousekeepingTellsTheDies : Prop :=
  (∀ (s : State) (down : BitVec 4) (ret : List (Option (Byte × Byte))), s.pwr.up = true →
    twf {} s.fio.dies = true → twf {} s.fio.ch = true → ∃ u, exec (.housekeepingCycle down ret) s = .next u ∧
    u.fio.order = false ∧ ∀ d, d < 4 →
      (∀ tj v, (ret[d]?).getD none = some (tj, v) → (u.die d).tj = tj ∧ (u.die d).vfld = v ∧ (u.die d).hkRun = 0 ∧ (u.die d).present = true ∧
        ∀ c ∈ dieChs d, (u.fch c).live = (u.fch c).die ∧ (u.fch c).sticky = (s.fch c).sticky ||| (u.fch c).die ∧
          (u.fch c).swon = (u.fch c).sw) ∧
      ((ret[d]?).getD none = none → (u.die d).hkErr = min ((s.die d).hkErr + 1) 255 ∧ (u.die d).hkRun = (s.die d).hkRun + 1)) ∧
  (∀ (s : State) (d : Fin 4), 3 ≤ (s.die d).hkRun → (s.die d).hkLost = false → s.frm.role = .head →
    ∃ u, exec (.housekeepingLost d) s = .next u ∧ (u.die d).hkLost = true ∧
      (∀ c ∈ dieChs d, (s.fch c).st = .input → (u.fch c).inv = true ∧ (u.fch c).level = (s.fch c).level) ∧
      (s.seenEv evFioHklost (d + 1) = false → u.hasEvent evFioHklost (d + 1)))

/-- R317, R319, R331: an input's filtered level changes once its coupler has shown the new level in FIO.DEBOUNCE samples; a
quiescing channel whose clamp current has ended is QUIESCED with its switch open; the coupler's reversal ends with its new
direction. -/
def InputsAndCouplersChange : Prop :=
  (∀ (s : State) (c : Fin 32) (level : Bool) (run : Nat), s.filters c = true → s.fioP c 1 ≤ run → (s.fch c).level ≠ level →
    ∃ u, exec (.fieldInputChange c level run) s = .next u ∧ (u.fch c).level = level ∧ (u.fch c).inv = false ∧ (u.fch c).st = .input) ∧
  (∀ (s : State) (c : Fin 32) (level : Bool) (run : Nat), run < s.fioP c 1 → exec (.fieldInputChange c level run) s = .next s) ∧
  (∀ (s : State) (c : Fin 32), (s.fch c).st = .quiescing → (s.fch c).opening = false → ∃ u, exec (.quiesceComplete c) s = .next u ∧
    (u.fch c).st = .quiesced ∧ (u.fch c).sw = false ∧ (u.fch c).drv = false) ∧
  (∀ (s : State) (c : Fin 32), (s.fch c).revBusy = true → 1 ≤ (s.fch c).revN → twf {} s.fio.ch = true →
    ∃ u, exec (.couplerReversalComplete c) s = .next u ∧ (u.fch c).revBusy = false ∧ (u.fch c).coupOut = !(s.fch c).coupOut)

/-- R317, R332, R346, R382: FIO_QUIESCE, FIO_RESUME and FIO_REARM, and CAPT_STOP and CAPT_FORCE, are accepted for the next frame
boundary while a tick runs; a resume of a channel still quiescing, and a capture command in a state that does not allow it, are
refused BAD_STATE. CAPT_START is accepted where its parameters pass its checks. -/
def Obligations.FieldAndCaptureRequests : Prop :=
  ∀ (s : State) (m j : Nat), Canonical s → s.frm.run = true →
    (Request s m j 0x0060 4 → ∃ u, exec .fioQuiesce s = .next u ∧ Answered u m j stOk s.effNext [] ∧
      u.fio.qReq = s.fio.qReq ||| BitVec.ofNat 32 (s.pay j 0 4) ∧ u.fio.ch = s.fio.ch) ∧
    (Request s m j 0x0061 4 → s.anyCh (s.pay j 0 4) (fun x => x.st == .quiescing || x.revBusy) = false →
      ∃ u, exec .fioResume s = .next u ∧ Answered u m j stOk s.effNext [] ∧ u.fio.rReq = s.fio.rReq ||| BitVec.ofNat 32 (s.pay j 0 4)) ∧
    (Request s m j 0x0061 4 → s.anyCh (s.pay j 0 4) (fun x => x.st == .quiescing || x.revBusy) = true →
      ∃ u, exec .fioResume s = .next u ∧ Answered u m j stBadState 0 [] ∧ u.fio = s.fio) ∧
    (Request s m j 0x0062 0 → ∃ u, exec .fioRearm s = .next u ∧ Answered u m j stOk s.effNext [] ∧ u.fio.aReq = true) ∧
    (Request s m j 0x0070 0 → s.cap.st.runs = false → s.frm.role ≠ .standby ∨ s.cp 0 ≠ 0 → s.capStartOk = true →
      ∃ u, exec .captStart s = .next u ∧ Answered u m j stOk s.effNext [] ∧ u.cap.startAt = true ∧ u.cap.st = s.cap.st) ∧
    (Request s m j 0x0070 0 → s.cap.st.runs = true → ∃ u, exec .captStart s = .next u ∧ Answered u m j stBadState 0 [] ∧ u.cap.st = s.cap.st) ∧
    (Request s m j 0x0071 0 → s.cap.st.runs = true → ∃ u, exec .captStop s = .next u ∧ Answered u m j stOk s.effNext [] ∧ u.cap.stopAt = true) ∧
    (Request s m j 0x0072 0 → s.cap.st = .holdoff ∨ s.cap.st = .armed → ∃ u, exec .captForce s = .next u ∧
      Answered u m j stOk s.effNext [] ∧ u.cap.forceAt = true)

/-- R322 to R326: the current limit, the thermal shutdown at 160 °C with its count, the reverse shutdown and their ends move a
switch and its flags as the rules say; eight classifications in a row set or clear OPEN and EXT_HIGH. -/
def Obligations.SwitchesProtectThemselves : Prop :=
  (∀ (s : State) (c : Fin 32), (s.fch c).sw = true →
    (∃ u, exec (.overcur c true) s = .next u ∧ (u.fch c).die.getLsbD 0 = true ∧ (u.fch c).sw = true) ∧
    (∀ t, ∃ u, exec (.thermalShutdown c t) s = .next u ∧ (u.fch c).sw = false ∧ (u.fch c).die.getLsbD 1 = true ∧
      (u.fch c).die.getLsbD 0 = false ∧ (u.fch c).thcnt = min ((s.fch c).thcnt + 1) 255 ∧ (u.fch c).thAt = t) ∧
    (∃ u, exec (.reverseShutdown c) s = .next u ∧ (u.fch c).sw = false ∧ (u.fch c).die.getLsbD 4 = true)) ∧
  (∀ (s : State) (c : Fin 32) (tj t : Nat), (s.fch c).die.getLsbD 1 = true → (s.fch c).commanded = true → (s.fch c).die.getLsbD 4 = false →
    (tj ≤ 145 → (s.fch c).dRetry = false → (s.fch c).thAt + msT 100 ≤ t → ∃ u, exec (.thermalRetry c tj t) s = .next u ∧
      (u.fch c).sw = true ∧ (u.fch c).die.getLsbD 1 = false) ∧
    (tj ≤ 145 → (s.fch c).dRetry = true → (s.fch c).offSeen = true → ∃ u, exec (.thermalRetry c tj t) s = .next u ∧
      (u.fch c).sw = true ∧ (u.fch c).die.getLsbD 1 = false) ∧
    (145 < tj → exec (.thermalRetry c tj t) s = .next s)) ∧
  (∀ (s : State) (c : Fin 32), (s.fch c).die.getLsbD 4 = true → (s.fch c).die.getLsbD 1 = false → (s.fch c).commanded = true →
    ∃ u, exec (.reverseReclose c) s = .next u ∧ (u.fch c).sw = true ∧ (u.fch c).die.getLsbD 4 = false) ∧
  (∀ (s : State) (c : Fin 32) (mv : Nat), (s.fch c).sw = false → (s.fch c).st = .output →
    (7000 ≤ mv → (s.fch c).extIn = 7 ∨ (s.fch c).extIn = 8 → ∃ u, exec (.diagClassify c mv) s = .next u ∧
      (u.fch c).die.getLsbD 3 = true ∧ (u.fch c).sw = false) ∧
    (mv < 2500 → (s.fch c).openOut = 7 ∨ (s.fch c).openOut = 8 → ∃ u, exec (.diagClassify c mv) s = .next u ∧
      (u.fch c).die.getLsbD 2 = false) ∧
    (2500 ≤ mv → mv < 7000 → (s.fch c).dOl = true → (s.fch c).openIn = 7 → ∃ u, exec (.diagClassify c mv) s = .next u ∧
      (u.fch c).die.getLsbD 2 = true))

/-- R315, R329, R331, R332: FIO.T_SILENCE without a refresh brings every output to its FIO.SAFE value; the thresholds of the field
supply raise their events, make the inputs INVALID and open the safety switches, and latch the outputs off; the latch is released
after 10 ms; a die that powers up holds no command. -/
def Obligations.FieldDiesFailSafe : Prop :=
  (∀ (s : State) (d : Fin 4), (s.die d).refreshed = true → (s.die d).silent = false → (s.die d).held = false →
    ∃ u, exec (.logicSilenceExpiry d) s = .next u ∧ u.frm.now = max s.frm.now ((s.die d).silFrom + msT (s.pn 10 0 64)) ∧
      (u.die d).silent = true ∧ ∀ c ∈ dieChs d, (s.fch c).st = .output → (s.fch c).opening = false →
        ((s.fch c).dSafe = 0 → (u.fch c).sw = false) ∧
        ((s.fch c).dSafe = 1 → (u.fch c).sw = !(s.fch c).tripped)) ∧
  (∀ (s : State) (d : Fin 4), (s.die d).low = false → ∃ u, exec (.vfldThresholdCross d 0) s = .next u ∧ (u.die d).low = true ∧
    (s.seenEv evFldLow (d + 1) = false → u.hasEvent evFldLow (d + 1))) ∧
  (∀ (s : State) (d : Fin 4), (s.die d).uv = false → ∃ u, exec (.vfldThresholdCross d 1) s = .next u ∧ (u.die d).uv = true ∧
    (∀ c ∈ dieChs d, (s.fch c).st = .input → (u.fch c).inv = true) ∧
    (s.seenEv evFldUv (d + 1) = false → u.hasEvent evFldUv (d + 1))) ∧
  (∀ (s : State) (d : Fin 4), (s.die d).latch = false → ∃ u, exec (.vfldThresholdCross d 2) s = .next u ∧ (u.die d).latch = true ∧
    (u.die d).held = true ∧ (∀ c ∈ dieChs d, (s.fch c).st = .output → (u.fch c).sw = false) ∧
    (s.seenEv evFldOff (d + 1) = false → u.hasEvent evFldOff (d + 1))) ∧
  (∀ (s : State) (d : Fin 4), twf {} s.fio.dies = true →
    (∃ u, exec (.vfldThresholdClear d 0) s = .next u ∧ (u.die d).low = false ∧ (u.die d).uv = (s.die d).uv) ∧
    (∃ u, exec (.vfldThresholdClear d 1) s = .next u ∧ (u.die d).uv = false ∧ (u.die d).low = (s.die d).low)) ∧
  (∀ (s : State) (d : Fin 4), twf {} s.fio.dies = true → (s.die d).latch = true → ∃ u, exec (.offLatchRelease d) s = .next u ∧
    (u.die d).latch = false ∧ (u.die d).first = false ∧ (u.die d).held = (s.die d).held ∧
    (u.die d).reAt = ((s.die d).first || s.pn 10 0 65 == 0)) ∧
  (∀ (s : State) (d : Fin 4), twf {} s.fio.dies = true → twf {} s.fio.ch = true → ∃ u, exec (.fieldDiePowerUp d) s = .next u ∧
    (u.die d).refreshed = false ∧ ∀ c ∈ dieChs d, (u.fch c).st = .powerUp ∧ (u.fch c).sw = false ∧ (u.fch c).cmd = false)

/-! ## Capture (13) -/

/-- R341, R343, R344: an auto trigger is due at its time in ARMED; the engine rearms for the next record; a sample due in staging
leaves it oldest first, into its record's memory. -/
def CaptureSamplesGoToMemory : Prop :=
  (∀ (s : State) (e : Nat), s.cap.auto = some e → s.cap.st = .armed → s.cap.autoTrig = false →
    ∃ u, exec .autoTriggerExpiry s = .next u ∧ u.cap.autoTrig = true ∧ u.frm.now = max s.frm.now e) ∧
  (∀ (s : State) (t : Nat), s.cap.st = .rearm → ∃ u, exec (.rearmComplete t) s = .next u ∧ u.frm.now = max s.frm.now t ∧
    u.cap.st = (if s.capPre = 0 then .armed else .holdoff) ∧ u.cap.cur.recno = s.cap.recno ∧ u.cap.cur.n = 0) ∧
  (∀ (s : State) (x : StgSmp) (r : List StgSmp), s.cap.stg = x :: r → s.recOf x.recno x.repoch = none →
    Memory.wf ramByte s.cap.mem = true →
    ∃ u, exec .stagingDrain s = .next u ∧ u.cap.stg = r ∧ u.cap.fill = s.cap.fill - x.bytes.length ∧
      mread ramByte u.cap.mem x.addr x.bytes.length = x.bytes) ∧
  (∀ (s : State) (x : CapRec) (r : List CapRec), s.cap.fin = x :: r →
    (s.cap.stg.any fun y => y.recno == x.recno && y.repoch == x.repoch) = false → Memory.wf ramByte s.cap.mem = true →
    ∃ u, exec .recordComplete s = .next u ∧ u.cap.fin = r ∧ u.cap.lastRecno = x.recno ∧ u.cap.lastRepoch = x.repoch ∧
      mread ramByte u.cap.mem (s.slotAddr x.slot) (s.capHeader x).length = s.capHeader x) ∧
  (∀ (s : State) (off : Nat) (v : W32),
    let a := s.cap.apBase * 2 ^ 20 + off % 2 ^ 25 / 4 * 4
    (maskBase ≤ a → a < maskBase + 64 * 32768 → s.cap.st.runs = false → Memory.wf ramByte s.cap.mem = true →
      ∃ u, exec (.captureApertureWrite off v) s = .next u ∧ mread ramByte u.cap.mem a 4 = leBytes 4 v.toNat ∧
        u.cap.wrign = s.cap.wrign) ∧
    (a < maskBase → ∃ u, exec (.captureApertureWrite off v) s = .next u ∧ u.cap.wrign = true ∧ u.cap.mem = s.cap.mem))

/-- R336, R341, R347: an instant of a tap source that CAPT.DECIM skips adds no sample; one that is kept enters staging with its
bytes where staging has room and the link is up. -/
def CaptureInstantsAreTaken : Prop :=
  (∀ (s : State) (w : W16) (t : Nat), s.cap.st.runs = true → s.cap.startAt = false → s.cap.src = 2 → s.cap.decim ≠ 0 →
    ∃ u, exec (.captureSample w t) s = .next u ∧ u.frm.now = max s.frm.now t ∧ u.cap.stg = s.cap.stg ∧ u.cap.cur = s.cap.cur ∧
      u.cap.decim = (s.cap.decim + 1) % s.cp 1) ∧
  (∀ (s : State) (w : W16) (t : Nat), s.cap.st = .holdoff → s.cap.startAt = false → s.cap.src = 2 → s.cap.decim = 0 → s.cp 9 = 0 →
    (s.portOf (s.cp 19)).sync = true → s.capCause false false 2 = 0 → s.cap.cur.trig = none → s.cap.cur.n + 1 ≤ s.capPre →
    ∃ u, exec (.captureSample w t) s = .next u ∧ u.cap.cur.n = s.cap.cur.n + 1 ∧ u.cap.fill = s.cap.fill + 2 ∧
      u.cap.stg.length = s.cap.stg.length + 1)

/-! ## Supplies, clocks, resets (17) -/

/-- R429, R432, R443: a droop is detected strictly below 0.770 V, counted once, and over at or above it; VIO strictly below its
threshold raises EV_VIO_LOW; from stage 2 on the DRAM goes into self-refresh. -/
def SuppliesAreWatched : Prop :=
  (∀ (s : State) (mv : Nat), s.pwr.up = true → s.pwr.droop = false → mv < 770 → ∃ u, exec (.droopDetect mv) s = .next u ∧
    u.pwr.droop = true ∧ u.pwr.droopCnt = satInc s.pwr.droopCnt ∧ u.pwr.vcore = mv ∧ u.pwr.vcoreMin = min s.pwr.vcoreMin mv) ∧
  (∀ (s : State) (mv : Nat), s.pwr.up = true → 770 ≤ mv →
    (∃ u, exec (.droopDetect mv) s = .next u ∧ u.pwr.droop = s.pwr.droop ∧ u.pwr.droopCnt = s.pwr.droopCnt) ∧
    (∃ u, exec (.droopClear mv) s = .next u ∧ u.pwr.droop = false)) ∧
  (∀ s : State, s.pwr.up = true → s.pwr.viol = false → ∃ u, exec .vioLow s = .next u ∧ u.pwr.viol = true ∧
    u.hasEvent evVioLow devObj) ∧
  (∀ s : State, ∃ u, exec .vioRestored s = .next u ∧ u.pwr.viol = false) ∧
  (∀ s : State, 2 ≤ s.pwr.stage → s.pwr.selfRef = false → ∃ u, exec .dramSelfRefresh s = .next u ∧ u.pwr.selfRef = true ∧
    u.frm.now = max s.frm.now (s.pwr.dramLast + usT 2))

/-- R431 to R434: VMAIN strictly below 4.50, 4.40 and 4.30 V enters the calving stages in ascending order, each counted and
announced; a stage is left 0.10 V above its threshold with every deeper one; strictly below 4.20 V is stage 4: a SAFE order,
STO of every group, every ledger closed, and a reset. -/
def CalvingStagesFollowVmain : Prop :=
  (∀ (s : State) (k : Fin 3) (mv : Nat), s.pwr.up = true → mv < 4500 - 100 * k.val → s.pwr.stage = k.val →
    ∃ u, exec (.calvingStageEntry k mv) s = .next u ∧ u.pwr.stage = k.val + 1 ∧ u.pwr.vmain = min mv 65535 ∧
      u.hasEvent (evCalve1 + k.val) devObj ∧ (k = 1 → u.pwr.hold75 = true) ∧ (k = 2 → u.pwr.s3From = some s.frm.now)) ∧
  (∀ (s : State) (k : Fin 3) (mv : Nat), s.pwr.up = true → 4500 - 100 * k.val ≤ mv →
    ∃ u, exec (.calvingStageEntry k mv) s = .next u ∧ u.pwr.stage = s.pwr.stage ∧ u.evt = s.evt) ∧
  (∀ (s : State) (k : Fin 3) (mv : Nat), s.pwr.up = true → 4600 - 100 * k.val ≤ mv → k.val < s.pwr.stage → s.pwr.stage ≠ 4 →
    ∃ u, exec (.calvingStageExit k mv) s = .next u ∧ u.pwr.stage = k.val ∧ u.pwr.s3From = none) ∧
  (∀ (s : State) (mv : Nat), s.pwr.up = true → mv < 4200 → s.pwr.stage ≠ 4 → s.pwr.rst = none →
    ∃ u, exec (.calvingStage4 mv) s = .next u ∧ u.pwr.stage = 4 ∧ u.pwr.rst = some .stage4 ∧ u.pwr.commit = true ∧
      u.saf.stage4 = true ∧ u.fio.order = true ∧ u.lgr.opn = 0 ∧ u.hasEvent evCalve4 devObj)

/-- R426, R436, R441: VSTBY comes up with what it powers cleared; the rails follow in sequence; at the release the straps are
sampled and device time starts; the start-up checks set the service level. -/
def Obligations.PartsPowerUp : Prop :=
  (∀ s : State, s.pwr.rails = false → ∃ u, exec .standbyRailsUp s = .next u ∧ u.pwr.stby = true ∧ u.lgr.retUse = false ∧
    u.saf.setOk = false ∧ (∀ g, (u.sgrp g).st = .sto) ∧ u.cfg.flash = s.cfg.flash) ∧
  (∀ s : State, s.pwr.rails = false → s.pwr.stby = true → ∃ u, exec .railSequenceStart s = .next u ∧ u.pwr.rails = true) ∧
  (∀ (s : State) (h : Bool) (b : Fin 4) (vio : Nat), s.pwr.up = false → s.pwr.rails = true → s.pwr.below3 = false → s.pwr.rst = none →
    ∃ u, exec (.resetRelease h b vio) s = .next u ∧ u.pwr.up = true ∧ u.host.hostsel = h ∧ u.pwr.boot = b.val ∧ u.frm.now = 0 ∧
      u.cfg.lcy = (match s.cfg.lcyNext with | some k => k | none => s.cfg.lcy) ∧ u.pwr.vio33 = decide (2500 ≤ vio)) ∧
  (∀ (s : State) (w : Fin 5), s.pwr.up = true → s.cfg.fwOn = true → s.cfg.fwSlot ≠ 255 → s.pwr.good = false →
    ∃ u, exec (.startupChecksComplete w) s = .next u ∧ u.pwr.good = true ∧ u.pwr.sl = (if w = 0 then 2 else 1) ∧
      u.pwr.sl1why = w.val)

/-- R428, R434, R437: the causes that allow a commit close every ledger and order the outputs safe first; the others begin the
reset at once, with what retention memory holds kept for the next start. -/
def ResetsBegin : Prop :=
  (∀ s : State, s.pwr.up = true → s.pwr.rst = none →
    (∃ u, exec .resetPin s = .next u ∧ u.pwr.rst = some .pin ∧ u.pwr.commit = s.cfg.fwOn ∧ u.lgr.opn = 0 ∧ u.fio.order = true) ∧
    (∀ v : W32, v.toNat / 65536 = 0x2A57 → ∃ u, exec (.pwrRstreq v) s = .next u ∧ u.pwr.rst = some .host ∧
      u.pwr.commit = s.cfg.fwOn ∧ u.lgr.opn = 0 ∧ u.fio.order = true) ∧
    (∀ v : W32, v.toNat / 65536 ≠ 0x2A57 → ∃ u, exec (.pwrRstreq v) s = .next u ∧ u.pwr.rst = none ∧ u.lgr.opn = s.lgr.opn) ∧
    (∃ u, exec .brownout s = .next u ∧ u.pwr.rst = some .brownout ∧ u.pwr.commit = false) ∧
    (∃ u, exec .fwWatchdogExpiry s = .next u ∧ u.pwr.rst = some .fwdog ∧ u.pwr.commit = false ∧ u.lgr.retUse = true) ∧
    (∀ mv, mv < 760 ∨ 840 < mv → ∃ u, exec (.vcoreFault mv) s = .next u ∧ u.pwr.rst = some .vcore ∧ u.lgr.retUse = true) ∧
    (∀ mv, 760 ≤ mv → mv ≤ 840 → ∃ u, exec (.vcoreFault mv) s = .next u ∧ u.pwr.rst = none) ∧
    (∀ c : Fin 5, ∃ u, exec (.clockLoss c) s = .next u ∧ u.pwr.rst = some .clock ∧ u.lgr.retUse = true)) ∧
  (∀ s : State, s.pwr.below3 = true → ∃ u, exec .powerOnReset s = .next u ∧ u.pwr.rst = some .por ∧ u.pwr.below3 = false)

/-- R437 to R439: once nothing is left to commit, the core die is at its reset values; flash, lifecycle, retention memory and die
B keep theirs, every group is in STO, the field dies hold their switches, and PWR_RSTCAUSE shows the cause. -/
def CoreDieResets : Prop :=
  (∀ (s : State) (c : RstCause), s.pwr.rst = some c → s.pwr.commit = false → ∃ u, exec .coreDieReset s = .next u ∧
    u.pwr.up = false ∧ u.frm = {} ∧ u.axes = [] ∧ u.params = [] ∧ u.net = {} ∧ u.dsp = {} ∧ u.cfg.running = false ∧
    u.cfg.flash = s.cfg.flash ∧ u.cfg.lcy = s.cfg.lcy ∧ u.lgr.ret = s.lgr.ret ∧ u.lgr.logRing = s.lgr.logRing ∧ u.saf.b = s.saf.b ∧
    u.pending = s.pending ∧ (∀ g, (u.sgrp g).st = .sto) ∧ (∀ k, k < 32 → (u.fch k).sw = (s.fch k).sw ∧ (u.fch k).st = (s.fch k).st) ∧
    u.pwr.cause = (if c = .por then 1 else s.pwr.cause ||| c.bit)) ∧
  (∀ s : State, s.pwr.commit = true ∨ s.pwr.rst = none → exec .coreDieReset s = .next s)

/-! ## The frame boundary, ledgers and counters (01, 12, 14, 15, 18) -/

/-- R15, R38, R70, R394: the tick takes effect once, three CK_CORE cycles after the end of the CK_NET cycle that T0 lies in; a
PENDING output image is then ACTIVE; an axis whose numbers were not finite is in FAULT. -/
def TheTickTakesEffect : Prop :=
  ∀ s : State, s.frm.tickPend = true → s.pwr.up = true → s.cfg.endAt = none →
    ∃ u, exec .tickTakesEffect s = .next u ∧ u.frm.tickPend = false ∧
      u.frm.now = (let x := s.goto ((s.frm.t0 / 16 + 1) * 16); x.timeOfPhase (25 * (x.prf.core + if x.prf.coreAcc = 0 then 2 else 3))) ∧
      (∀ k, s.host.piPend = some k → u.host.piActive = k ∧ u.host.piPend = none ∧ u.host.committed = true) ∧
      (s.host.taken = [] → s.frm.run = true → s.frm.role = .head → s.red.restartOn = false → ∀ i, i ∈ s.axisIds →
        (s.axis i).nonfin = true → (u.axis i).st = .fault)

/-- R13, R212, R257, R320, R321: at S the field inputs and the net emitted step counts are latched; at A the output bits of the
image command the channels in OUTPUT, and a part that has left the head role withdraws held steps; a node-role part takes the
class-3 frame of the frame before, or counts one more A without one, and after more than K_keep takes its SAFE values. -/
def InstantsSampleAndApply : Prop :=
  (∀ s : State, s.frm.run = true → s.frm.tickPend = false → twf {} s.fio.ch = true → twf {} s.steps = true →
    ∃ u, exec .sampleInstant s = .next u ∧ u.frm.now = max s.frm.now s.instS ∧
      (∀ c, c < 32 → (u.fch c).latched = ((s.fch c).level && !(s.fch c).isOut) ∧ (u.fch c).invLat = (s.fch c).inv) ∧
      (∀ c, c < 16 → (u.step_ c).latch = (s.step_ c).net)) ∧
  (∀ s : State, s.frm.run = true → s.frm.tickPend = false → s.frm.role = .head →
    ∃ u, exec .applyInstant s = .next u ∧ u.frm.now = max s.frm.now s.instA ∧
      ∀ c, c < 32 → (s.fch c).st = .output → (s.fch c).opening = false → (s.fch c).resuming = false →
        (u.fch c).cmd = s.imgOut.getLsbD c) ∧
  (∀ (s : State) (a : Nat), s.frm.role ≠ .head → s.frm.run = false → s.red.quitA = some a →
    ∃ u, exec .applyInstant s = .next u ∧ u.frm.now = max s.frm.now a ∧ u.red.quitA = none ∧
      ∀ c, c < 16 → (u.step_ c).stopped = true ∧
        ((s.step_ c).stopped = false → (u.step_ c).queue = [] ∧ (u.step_ c).backlog = 0)) ∧
  (∀ s : State, s.frm.role = .node → s.frm.run = true → s.frm.tickPend = false → s.red.quitA = none →
    (∀ (n : Nat) (d : List Byte), (s.net.nrole.down.find? fun x => x.1 + 1 == s.frm.frame.toNat) = some (n, d) →
      ∃ u, exec .applyInstant s = .next u ∧ u.net.nrole.keep = 0 ∧ u.net.nrole.safe = false ∧
        u.net.nrole.out = BitVec.ofNat 32 (beAt d 0 4)) ∧
    ((s.net.nrole.down.find? fun x => x.1 + 1 == s.frm.frame.toNat) = none →
      ∃ u, exec .applyInstant s = .next u ∧ u.net.nrole.keep = s.net.nrole.keep + 1 ∧ u.net.nrole.out = s.net.nrole.out)) ∧
  (∀ s : State, s.frm.role = .node → s.net.nrole.safe = false → s.pn 2 0 18 < s.net.nrole.keep →
    ∃ u, exec .nroleKeeperExpiry s = .next u ∧ u.net.nrole.safe = true ∧ u.net.nrole.out = s.safeWord)

/-- R391, R397: the oldest input image under way is whole: MBX_PILAST names it and its frame, and source PIIN is set. -/
def InputImagesComplete : Prop :=
  ∀ (s : State) (b : Nat) (m : W48) (r : List (Nat × W48)), s.host.piWr = (b, m) :: r →
    ∃ u, exec .inputImageComplete s = .next u ∧ u.host.piWr = r ∧ u.host.piLast = b ∧ u.host.piFcnt = m.setWidth 16 ∧
      u.evt.istat = s.evt.istat ||| 4

/-- R438, R448, R455: a requested ledger check evaluates the tick's snapshot once and copies it into retention memory; a commit
moves every pending log entry into the log and releases a reset that waited for it; a half-full region is compacted into the
other. -/
def LedgersAreCheckedAndLogged : Prop :=
  (∀ s : State, s.lgr.takeDue = true → ∃ u, exec .ledgerCheck s = .next u ∧ u.lgr.takeDue = false ∧ u.lgr.chkCnt = s.lgr.chkCnt + 1 ∧
    u.lgr.snapFc = s.lgr.takeFc ∧ u.lgr.retFc = s.lgr.takeFc ∧ u.lgr.retOpen = s.lgr.opn ∧ u.lgr.ret = u.lgr.snap) ∧
  (∀ s : State, s.lgr.takeDue = false → exec .ledgerCheck s = .next s) ∧
  (∀ s : State, s.lgr.logPend ≠ [] ∨ s.pwr.commit = true → ∃ u, exec .faultLogCommit s = .next u ∧ u.lgr.logPend = [] ∧
    u.pwr.commit = false ∧ u.lgr.logUsed = s.lgr.logUsed + 128 * s.lgr.logPend.length + 128) ∧
  (∀ s : State, 0x80000 < s.lgr.logUsed + 0x10000 → ∃ u, exec .faultLogCompact s = .next u ∧ u.lgr.logHalf = !s.lgr.logHalf ∧
    u.lgr.logFirst = s.lgr.logFirst ∧ u.lgr.logRing = s.lgr.logRing ∧
    u.lgr.logUsed = 128 * (s.lgr.logFirst.length + s.lgr.logRing.length) + 128)

/-- R362, R363, R366, R367: a count that passes 2⁴⁸ − 1 wraps with its overflow noted; a bandwidth window ends at the next multiple
of its length, and one that saw a calving stage is discarded. -/
def CountersWrapAndWindowsEnd : Prop :=
  (∀ (s : State) (k : Fin 8), 2 ^ 48 ≤ (s.pc k).cnt → ∃ u, exec (.counterOverflow k) s = .next u ∧
    (u.pc k).cnt = (s.pc k).cnt - 2 ^ 48 ∧ (u.pc k).ovf = true ∧ (u.pc k).ovfn = min ((s.pc k).ovfn + 1) 255) ∧
  (∀ (s : State) (m : Fin 10), 0 < (tget {} s.prf.bw m.val).win → ∃ u, exec (.bwWindowEnd m) s = .next u ∧
    let b := tget {} s.prf.bw m.val
    let e := (b.endAt / usT b.win + 1) * usT b.win
    u.frm.now = max s.frm.now e ∧ (tget {} u.prf.bw m.val).endAt = e ∧ (tget {} u.prf.bw m.val).now = 0 ∧
      (1 ≤ s.pwr.stage → (tget {} u.prf.bw m.val).last = b.last ∧ (tget {} u.prf.bw m.val).cnt = b.cnt))

/-! ## Reset, keys and identities -/

/-- The registers whose reset value the spec gives as one number, by offset: those of chapters 01, 06, 07, 08, 09. -/
def resetWords1 : List (Nat × W32) :=
  [(0x400, 0), (0x404, 0x6403), (0x40C, 0), (0x410, 0), (0x424, 0), (0x428, 0), (0x42C, 0), (0x430, 0xA00), (0x5000, 0), (0x5020, 0),
   (0x5058, 0x80007FFF), (0x5070, 0), (0x50A0, 7), (0x3000, 0), (0x3030, 0), (0x3034, 0), (0x3080, 0xFFFFFF00), (0x7000, 0),
   (0x7004, 0), (0x7008, 0), (0x7018, 0), (0x7030, 0)]

/-- Those of chapters 10 to 18. -/
def resetWords2 : List (Nat × W32) :=
  [(0x4C00, 0), (0x4C04, 0), (0x4C0C, 0), (0x4C10, 0xFFFFFFFF), (0x4C14, 0), (0x4000, 0), (0x4008, 0), (0x4010, 0xFFFFFFFF),
   (0x4020, 0x24), (0x4100, 0xC020), (0x2000, 0), (0x2014, 0), (0x1800, 0), (0x1810, 0), (0x1904, 0xFFFFFFFF), (0x1908, 0),
   (0x1A04, 1), (0x000C, 0), (0x0800, 0x80000000), (0x0808, 0x200), (0x080C, 0), (0x0824, 1), (0x0828, 0xC0000000), (0x1000, 0),
   (0x1008, 0x00FAC688), (0x6004, 0xFFFF0000), (0x6008, 0xFFFF0000), (0x6028, 0), (0x1400, 0x210000), (0x144C, 0)]

/-- R33, R190, R215, R233, R264, R294, R335, R357, R372, R402, R445, R457: after reset each of these registers reads as its reset
column says; every axis table is empty, and every safety group is in STO. -/
def RegistersReadTheirResetValues : Prop :=
  (∀ x ∈ resetWords1, State.reset.regRead x.1 = x.2) ∧ (∀ x ∈ resetWords2, State.reset.regRead x.1 = x.2) ∧
  State.reset.axes = [] ∧ State.reset.pending = [] ∧ ∀ g, (State.reset.sgrp g).st = .sto

/-- R403: a parameter key holds its class in bits 23 to 18, its instance in bits 17 to 10 and its item in bits 9 to 0; bits 31 to 24
of its word are zero; 5.12.203 is 0x001430CB. -/
def Obligations.ParameterKeysHoldTheirFields : Prop :=
  (∀ c i n : Nat, c < 2 ^ 6 → i < 2 ^ 8 → n < 2 ^ 10 →
    keyClass (pkey c i n) = c ∧ keyInst (pkey c i n) = i ∧ keyItem (pkey c i n) = n ∧
    pkey c i n < 2 ^ 24 ∧ (BitVec.ofNat 32 (pkey c i n)).extractLsb 31 24 = 0 ∧
    (BitVec.ofNat 32 (pkey c i n)).extractLsb 23 18 = BitVec.ofNat 6 c ∧
    (BitVec.ofNat 32 (pkey c i n)).extractLsb 17 10 = BitVec.ofNat 8 i ∧
    (BitVec.ofNat 32 (pkey c i n)).extractLsb 9 0 = BitVec.ofNat 10 n) ∧
  pkey 5 12 203 = 5 * 2 ^ 18 + 12 * 2 ^ 10 + 203 ∧ pkey 5 12 203 = 0x001430CB

/-- R194: a CSM that carries the head's own HEAD_ID and arrives on one of its branch ports raises EV_OWN_CSM, where the frame has
not raised it yet (R186), and sets NET_CSSTAT.OWNSEEN; the head acts on nothing in it: beyond the frame's reception as such,
nothing of the machine has changed but the event and its bookkeeping. -/
def Obligations.OwnCsmIsOnlyNoted : Prop :=
  ∀ (s : State) (b : Fin 8) (f : List Byte) (t : Nat) (err : Bool), s.frm.role = .head → s.pn 3 b 0 = 1 → isCsm f = true →
    s.monitors = false ∨ b ≠ 0 → (csmOf f (t + 8 * s.tB)).headId = Config.headId →
    ∃ u, exec (.foreignCsm b f ⟨t, err⟩) s = .next u ∧ (s.seenEv evOwnCsm b = false → u.hasEvent evOwnCsm b) ∧
      u.net = { (s.rxFrame b t f err).net with ownSeen := true } ∧ u.frm = (s.rxFrame b t f err).frm ∧ u.red = s.red ∧
      u.axes = s.axes ∧ u.fio = s.fio ∧ u.saf = s.saf ∧ u.dsp = s.dsp ∧ u.params = s.params ∧ u.cfg = s.cfg

/-- R270: pairs in a row that show demand in either channel, and pairs in a row that show none, are counted; SIN.FILT of the one
kind make the filtered demand active, SIN.FILT of the other inactive; both channels use the one value. Pairs fed by test pulses
show the samples R273 leaves, and a channel in fault leaves the other alone (R286); outside both this is the whole rule. -/
def Obligations.FilteredDemandFollowsItsPairs : Prop :=
  (∀ (s : State) (a b : Byte), twf {} s.saf.pairs = true → s.judgesA = true → s.judgesB = true → ∃ u, exec (.safetyInputSample a b) s = .next u ∧
    ∀ n, n < 8 → s.sinP n 3 ≠ 1 →
      let demand : Bool := !a.getLsbD n || (if s.sinP n 0 = 1 then b.getLsbD n else !b.getLsbD n)
      (u.spair n).onRun = (if demand then (s.spair n).onRun + 1 else 0) ∧
      (u.spair n).offRun = (if demand then 0 else (s.spair n).offRun + 1)) ∧
  (∀ (s : State) (p : Fin 8), (s.spair p).demand = false →
    (s.sinP p 1 ≤ (s.spair p).onRun → ∃ u, exec (.filteredDemandChange p) s = .next u ∧ (u.spair p).demand = true) ∧
    ((s.spair p).onRun < s.sinP p 1 → exec (.filteredDemandChange p) s = .next s)) ∧
  (∀ (s : State) (p : Fin 8), (s.spair p).demand = true → (s.spair p).onRun < s.sinP p 1 →
    (s.sinP p 1 ≤ (s.spair p).offRun → ∃ u, exec (.filteredDemandChange p) s = .next u ∧ (u.spair p).demand = false) ∧
    ((s.spair p).offRun < s.sinP p 1 → exec (.filteredDemandChange p) s = .next s))

/-! ## What a command on one of many leaves as it was -/

/-- A command on one axis, zone, step channel or encoder input leaves every other as it was. -/
def CommandsOnAnAxisKeepTheOthers : Prop :=
  (∀ (s u : State) (i : Fin 256) (c : Fin 4) (k : Nat), k ≠ i →
    exec (.satTime i c) s = .next u ∨ exec (.fbLost i) s = .next u ∨ exec (.fbFrozen i) s = .next u ∨
      exec (.estExpired i) s = .next u ∨ exec (.encDev i) s = .next u ∨ exec (.inpos i) s = .next u →
    u.axis k = s.axis k) ∧
  (∀ (s u : State) (z : Fin 64) (k : Nat), k ≠ z →
    exec (.webBreak z) s = .next u ∨ exec (.lcInvalid z) s = .next u → u.zone k = s.zone k) ∧
  (∀ (s u : State) (c : Fin 16) (k : Nat), k ≠ c →
    exec (.stepPulse c) s = .next u ∨ exec (.dirChange c) s = .next u ∨ exec (.crefIdleExpiry c) s = .next u ∨
      exec (.crefRampComplete c) s = .next u →
    u.step_ k = s.step_ k) ∧
  (∀ (s u : State) (e : Fin 8) (a b : Bool) (run t k : Nat), k ≠ e →
    exec (.encEdge e a b ⟨run, t⟩) s = .next u ∨ exec (.enczEdge e a ⟨run, t⟩) s = .next u ∨ exec (.ssiDelivery e t a) s = .next u →
    u.enc k = s.enc k)

/-- A command on one field channel, safety output or input pair leaves every other as it was. -/
def CommandsOnAChannelKeepTheOthers : Prop :=
  (∀ (s u : State) (c : Fin 32) (a : Bool) (mv t k : Nat), k ≠ c →
    exec (.overcur c a) s = .next u ∨ exec (.thermalShutdown c t) s = .next u ∨ exec (.thermalRetry c mv t) s = .next u ∨
      exec (.reverseShutdown c) s = .next u ∨ exec (.reverseReclose c) s = .next u ∨ exec (.diagClassify c mv) s = .next u ∨
      exec (.fieldInputChange c a t) s = .next u ∨ exec (.quiesceComplete c) s = .next u ∨
      exec (.couplerReversalComplete c) s = .next u →
    u.fch k = s.fch k) ∧
  (∀ (s u : State) (o : Fin 4) (low : Bool) (mv t k : Nat), k ≠ o →
    exec (.outputFault o) s = .next u ∨ exec (.outputOffTest o low) s = .next u ∨ exec (.offTestWindowEnd o low ⟨mv, t⟩) s = .next u ∨
      exec (.switchLimitExpiry o low) s = .next u →
    u.sout k = s.sout k) ∧
  (∀ (s u : State) (p : Fin 8) (k : Nat), k ≠ p →
    exec (.filteredDemandChange p) s = .next u ∨ exec (.discrepancyFault p) s = .next u → u.spair k = s.spair k) ∧
  (∀ (s u : State) (m : Fin 32) (v : W32) (k : Nat), exec (.mbxDb m v) s = .next u →
    (k ≠ v.toNat % 512 → u.bufSt k = s.bufSt k) ∧ (k ≠ m → tget [] u.host.q k = tget [] s.host.q k))

def Obligations.IndexedCommandsKeepTheOthers : Prop := CommandsOnAnAxisKeepTheOthers ∧ CommandsOnAChannelKeepTheOthers

/-- What the host, the capture engine, the flash and the cam staging areas store goes where its address says, and every other
byte of that memory reads as before. -/
def Obligations.MemoriesKeepTheirOtherBytes : Prop :=
  (∀ (s u : State) (off : Nat) (v : W32) (x : Nat), exec (.mailboxBufferWrite off v) s = .next u →
    x < off / 4 * 4 ∨ off / 4 * 4 + 4 ≤ x → mread ramByte u.host.mem x 1 = mread ramByte s.host.mem x 1) ∧
  (∀ (s u : State) (off : Nat) (v : W32), exec (.outputWindowWrite off v) s = .next u →
    (∀ k, k ≠ s.host.piHost → tget [] u.host.po k = tget [] s.host.po k) ∧
    (twf [] s.host.po = true → ∀ x, x < off / 4 * 4 ∨ off / 4 * 4 + 4 ≤ x →
      mread ramByte (tget [] u.host.po s.host.piHost) x 1 = mread ramByte (tget [] s.host.po s.host.piHost) x 1)) ∧
  (∀ (s u : State) (off : Nat) (v : W32) (x : Nat), exec (.captureApertureWrite off v) s = .next u →
    let a := s.cap.apBase * 2 ^ 20 + off % 2 ^ 25 / 4 * 4
    x < a ∨ a + 4 ≤ x → mread ramByte u.cap.mem x 1 = mread ramByte s.cap.mem x 1) ∧
  (∀ (s u : State) (y : StgSmp) (r : List StgSmp) (x : Nat), s.cap.stg = y :: r → exec .stagingDrain s = .next u →
    x < y.addr ∨ y.addr + y.bytes.length ≤ x → mread ramByte u.cap.mem x 1 = mread ramByte s.cap.mem x 1) ∧
  (∀ (s u : State) (c j a size : Nat) (d : List Byte) (x : Nat), s.cfg.erasing = some (c, d, j) → slotSpace c = some (a, size) →
    d.length ≤ size → exec .flashWriteComplete s = .next u → x < a ∨ a + size ≤ x →
    mread flashByte u.cfg.flash x 1 = mread flashByte s.cfg.flash x 1) ∧
  (∀ (s u : State) (m j n a size : Nat) (x : Nat), Request s m j 0x0041 n → slotSpace (s.pay j 0 1) = some (a, size) →
    exec .cfgWrite s = .next u → x < a + s.pay j 1 4 ∨ a + s.pay j 1 4 + (n - 5) ≤ x →
    mread flashByte u.cfg.flash x 1 = mread flashByte s.cfg.flash x 1) ∧
  (∀ (s u : State) (x : Nat), exec .safeLoadEraseComplete s = .next u → s.saf.load.first.length ≤ 0x40000 →
    x < s.safeBase ∨ s.safeBase + 0x80000 ≤ x → mread flashByte u.cfg.flash x 1 = mread flashByte s.cfg.flash x 1) ∧
  (∀ (s u : State) (m j n : Nat), Request s m j 0x0030 n → exec .camWrite s = .next u →
    (∀ k, k ≠ s.pay j 0 1 → tget [] u.camStg k = tget [] s.camStg k) ∧
    (twf [] s.camStg = true → ∀ x, x < s.pay j 2 4 ∨ s.pay j 2 4 + (n - 6) ≤ x →
      mread ramByte (tget [] u.camStg (s.pay j 0 1)) x 1 = mread ramByte (tget [] s.camStg (s.pay j 0 1)) x 1))

/-! ## The dispatcher's decrements -/

/-- R222: a decrement that finds DEP at zero leaves it at zero: it is discarded where the instance was readied by its timeout, and
elsewhere sets DSP_FAULT.DEPUF and raises EV_DEP_FAULT (once a frame, R232); a task already readied keeps its state and every
ready list stays as it was. -/
def Obligations.DecrementsAtZeroAreHandled : Prop :=
  ∀ (s : State) (d : Fin 1024), (s.task d).cls ≠ .unused →
    ∃ u, exec (.firmwareSignal d) s = .next u ∧
      ((s.task d).dep = 0 → u.task d = s.task d ∧ (∀ k, u.readyList k = s.readyList k) ∧
        ((s.task d).tmo = true → u.dsp = s.dsp ∧ u.evt = s.evt) ∧
        ((s.task d).tmo = false → u.dsp.fault = s.dsp.fault ||| 1 ∧
          (s.seenEv evDepFault devObj = false → u.hasEvent evDepFault devObj))) ∧
      ((s.task d).st ≠ .wait → (u.task d).st = (s.task d).st ∧ ∀ k, u.readyList k = s.readyList k)

/-! ## The statements put together from the above -/

/-- Every command completes and changes no part of the state outside its write set; every step takes one command off the queue:
CommandsKeepToTheirWriteSets and EveryStepTakesOneCommand. -/
def Obligations.StepsKeepToTheirWriteSets : Prop :=
  CommandsKeepToTheirWriteSets ∧ EveryStepTakesOneCommand

/-- The state after reset meets the two invariants, and the listed registers read their reset values: LifecycleForwardAtReset,
CanonicalFormAtReset and RegistersReadTheirResetValues. -/
def Obligations.ResetStateHoldsItsValues : Prop :=
  LifecycleForwardAtReset ∧ CanonicalFormAtReset ∧ RegistersReadTheirResetValues

/-- FRAME_TICK, LSYNC_FALL and the LSYNC_IN commands: what they do to frame, tick, pulse and stamp: FrameTickBeginsTheFrame and
LsyncInIsStampedAndWatched. -/
def Obligations.FramesBeginAndLsyncIsHeard : Prop :=
  FrameTickBeginsTheFrame ∧ LsyncInIsStampedAndWatched

/-- Static frames become VALID, CORRUPT or LATE, and a slot's deadline makes its event: StaticFramesAreJudged and
SlotDeadlineMakesTheSlotEvent. -/
def Obligations.StaticFramesTakeTheirSlots : Prop :=
  StaticFramesAreJudged ∧ SlotDeadlineMakesTheSlotEvent

/-- Lost nodes, closed path-trim averages, and links that come and go: NodeWatchActs and LinksComeAndGo. -/
def Obligations.NodesAndLinksAreWatched : Prop :=
  NodeWatchActs ∧ LinksComeAndGo

/-- Dynamic uplink frames judged, command blocks started, dynamic downlink frames in order: DynamicFramesAreJudged,
CommandBlocksStart and DynamicDownlinkFramesGoInOrder. -/
def Obligations.DynamicTrafficIsJudgedAndSent : Prop :=
  DynamicFramesAreJudged ∧ CommandBlocksStart ∧ DynamicDownlinkFramesGoInOrder

/-- A head listens before it starts; a CSM moves a follower's join machine: ColdstartListensFirst and CsmsMoveTheJoinMachine. -/
def Obligations.CyclesStartAndAreJoined : Prop :=
  ColdstartListensFirst ∧ CsmsMoveTheJoinMachine

/-- What a follower takes from its head's frames, and what a part in the node role sends: FollowersHearTheirHead and
NodeRoleKeepsItsCycle. -/
def Obligations.FollowersKeepTheirCycle : Prop :=
  FollowersHearTheirHead ∧ NodeRoleKeepsItsCycle

/-- Kernels dispatched by level; releases, delays and timeouts make tasks ready: KernelsAreDispatchedByLevel and
TasksBecomeReady. -/
def Obligations.TasksAreReleasedAndDispatched : Prop :=
  KernelsAreDispatchedByLevel ∧ TasksBecomeReady

/-- Dependence counters fall by one; overruns abandon, skip, count and raise: DependencesAreCountedDown and OverrunsAreCounted.
-/
def Obligations.DependencesAndOverrunsAreCounted : Prop :=
  DependencesAreCountedDown ∧ OverrunsAreCounted

/-- Threads are pre-empted, block, yield and complete; sub-ticks fall on microseconds: ThreadsGiveWay, SubTicksCountMicroseconds
and ThreadsComplete. -/
def Obligations.ThreadsRunAndComplete : Prop :=
  ThreadsGiveWay ∧ SubTicksCountMicroseconds ∧ ThreadsComplete

/-- Critical, trailing and zone kernels write what their chapters compute, or the fallback: CriticalKernelsUpdateTheirAxis and
TrailingAndZoneKernelsUpdate. -/
def Obligations.KernelsUpdateTheirLoops : Prop :=
  CriticalKernelsUpdateTheirAxis ∧ TrailingAndZoneKernelsUpdate

/-- Axis and zone supervision reports a count that reaches its limit, with its event: AxisSupervisionReports and
ZoneSupervisionReports. -/
def Obligations.SupervisionReportsOnce : Prop :=
  AxisSupervisionReports ∧ ZoneSupervisionReports

/-- Step pulses keep their spacing, the current reference ramps down, encoders count and latch: StepPulsesKeepTheirTimes,
CurrentReferenceRampsDown and EncodersCountAndLatch. -/
def Obligations.PulsesReferencesAndEncodersAct : Prop :=
  StepPulsesKeepTheirTimes ∧ CurrentReferenceRampsDown ∧ EncodersCountAndLatch

/-- Reads with an effect: latched high halves, cleared fields, advancing entries: LowReadsLatchTheHighHalf, ReadsClearTheirField
and EntryReadsAdvance. -/
def Obligations.ReadsLatchAndClear : Prop :=
  LowReadsLatchTheHighHalf ∧ ReadsClearTheirField ∧ EntryReadsAdvance

/-- Register writes: trace, counters, tags, ledger selection, and fields by their access codes: ObservationRegistersAreWritten
and RegisterWritesFollowTheirCodes. -/
def Obligations.RegisterWritesAct : Prop :=
  ObservationRegistersAreWritten ∧ RegisterWritesFollowTheirCodes

/-- The PCIe link's commands act on the link alone; the host watchdog runs and expires: TheHostLinkComesAndGoes and
TheHostWatchdogRuns. -/
def Obligations.HostLinkAndWatchdogAct : Prop :=
  TheHostLinkComesAndGoes ∧ TheHostWatchdogRuns

/-- Mailbox buffers go round between host and part; a misuse sets its error bit and changes no buffer: BuffersGoRound and
BufferErrorsAreRefused. -/
def Obligations.BuffersAreKeptByTheirOwner : Prop :=
  BuffersGoRound ∧ BufferErrorsAreRefused

/-- Events go into the ring; output images are committed; input images complete: EventsGoIntoTheRing, OutputImagesAreCommitted
and InputImagesComplete. -/
def Obligations.EventsAndImagesReachTheHost : Prop :=
  EventsGoIntoTheRing ∧ OutputImagesAreCommitted ∧ InputImagesComplete

/-- GRP_CLRDERATE, YIELD and the cam requests act; a request times out without effect: GroupAndCamRequestsAct and
RequestsTimeOut. -/
def Obligations.GroupRequestsAndTimeouts : Prop :=
  GroupAndCamRequestsAct ∧ RequestsTimeOut

/-- Flash slots are written, keys provisioned, the lifecycle moved by request: SlotsAreWritten and KeysAndLifecycle. -/
def Obligations.SlotsKeysAndLifecycle : Prop :=
  SlotsAreWritten ∧ KeysAndLifecycle

/-- A standby watches heartbeats and CSM windows, and tests itself: StandbyWatchesItsHead and StandbysTestThemselves. -/
def Obligations.StandbysWatchAndTest : Prop :=
  StandbyWatchesItsHead ∧ StandbysTestThemselves

/-- A takeover, a planned handover, and the restart of the axes from an image: StandbysBecomeHeadInTime and
ImagesRestartTheAxes. -/
def Obligations.StandbysBecomeHead : Prop :=
  StandbysBecomeHeadInTime ∧ ImagesRestartTheAxes

/-- Firn images are snapshot, sent in segments, received and answered: ImagesAreSent and ImagesAreReceived. -/
def Obligations.ImagesCrossTheFirnLink : Prop :=
  ImagesAreSent ∧ ImagesAreReceived

/-- Returns tell fitness; a head gives way to a higher EPOCH or at its yield: ReturnsTellFitness and HeadsGiveWay. -/
def Obligations.HeadsKnowTheirStandby : Prop :=
  ReturnsTellFitness ∧ HeadsGiveWay

/-- Safety input pairs are sampled, filtered, compared and test-pulsed: SafetyInputsAreJudged and TestPulsesCheckInputs. -/
def Obligations.SafetyInputsAreSampled : Prop :=
  SafetyInputsAreJudged ∧ TestPulsesCheckInputs

/-- Safety timers expire, and channel faults are classed: SafetyTimersExpire and ChannelFaultsAreClassed. -/
def Obligations.SafetyTimersAndFaults : Prop :=
  SafetyTimersExpire ∧ ChannelFaultsAreClassed

/-- Safety sets are checked, loaded, confirmed or discarded; resets and clears are requested: SafetySetsAreLoaded and
SafetyRequestsAct. -/
def Obligations.SafetySetsAndRequests : Prop :=
  SafetySetsAreLoaded ∧ SafetyRequestsAct

/-- Housekeeping returns reach the channels; inputs filter; couplers reverse: HousekeepingTellsTheDies and
InputsAndCouplersChange. -/
def Obligations.FieldScanAndCouplers : Prop :=
  HousekeepingTellsTheDies ∧ InputsAndCouplersChange

/-- Capture instants enter staging, samples and records go to memory: CaptureSamplesGoToMemory and CaptureInstantsAreTaken. -/
def Obligations.CaptureRecordsAreMade : Prop :=
  CaptureSamplesGoToMemory ∧ CaptureInstantsAreTaken

/-- Droop, VIO and the calving stages follow the supplies: SuppliesAreWatched and CalvingStagesFollowVmain. -/
def Obligations.SuppliesAndCalving : Prop :=
  SuppliesAreWatched ∧ CalvingStagesFollowVmain

/-- Resets begin by their causes, and the core-die reset keeps what outlives it: ResetsBegin and CoreDieResets. -/
def Obligations.ResetsBeginAndAct : Prop :=
  ResetsBegin ∧ CoreDieResets

/-- The tick's effect, the sample and apply instants, the node role's keeper expiry: TheTickTakesEffect and
InstantsSampleAndApply. -/
def Obligations.TicksAndInstantsAct : Prop :=
  TheTickTakesEffect ∧ InstantsSampleAndApply

/-- Ledger checks, log commits, counter wraps and bandwidth windows: LedgersAreCheckedAndLogged and CountersWrapAndWindowsEnd.
-/
def Obligations.LedgersAndCountersAct : Prop :=
  LedgersAreCheckedAndLogged ∧ CountersWrapAndWindowsEnd
end

