-- ==== Sys2Proof/Laws/Only.lean ====
section
/-! SUPPORT. How frames compose: what changes a part of the state at most keeps every other. -/

namespace Sys2Proof.Machine

theorem Part.same_refl (p : Part) (s : State) : p.same s s := by cases p <;> rfl

theorem Part.same_trans {p : Part} {s t u : State} (h : p.same s t) (g : p.same t u) : p.same s u := by
  cases p <;> exact Eq.trans g h

theorem Only.refl (w : List Part) (s : State) : Only w s s := ⟨fun p _ => p.same_refl s⟩

/-- A step that changes parts of v only, after one that changes parts of w only, v being part of w. -/
theorem Only.step {v w : List Part} {s t u : State} (g : Only v t u) (hv : v.all w.contains = true) (h : Only w s t) :
    Only w s u := by
  refine ⟨fun p hp => Part.same_trans (h.out p hp) (g.out p ?_)⟩
  cases hc : v.contains p with
  | false => rfl
  | true =>
    have := List.all_eq_true.mp hv p (by simpa using hc)
    rw [hp] at this; cases this

theorem Only.ite {w : List Part} {s a b : State} {c : Prop} [Decidable c] (ha : Only w s a) (hb : Only w s b) :
    Only w s (if c then a else b) := by split <;> assumption

theorem Only.foldl {α : Type} {w : List Part} {s : State} {f : State → α → State} {l : List α} {x : State}
    (hf : ∀ y a, Only w s y → Only w s (f y a)) (hx : Only w s x) : Only w s (l.foldl f x) := by
  induction l generalizing x with
  | nil => exact hx
  | cons a l ih => exact ih (hf x a hx)

/-- The state of an answer with something beside it. -/
theorem Only.eq_fst {α : Type} {w : List Part} {t a : State} {p : State × α} {b : α} (h : Only w t p.1) (e : p = (a, b)) :
    Only w t a := by subst e; exact h

theorem Only.eq_snd {α : Type} {w : List Part} {t a : State} {p : α × State} {b : α} (h : Only w t p.2) (e : p = (b, a)) :
    Only w t a := by subst e; exact h

theorem Only.iteFst {α : Type} {w : List Part} {s : State} {a b : State × α} {c : Prop} [Decidable c] (ha : Only w s a.1)
    (hb : Only w s b.1) : Only w s (if c then a else b).1 := by split <;> assumption

theorem Only.iteSnd {α : Type} {w : List Part} {s : State} {a b : α × State} {c : Prop} [Decidable c] (ha : Only w s a.2)
    (hb : Only w s b.2) : Only w s (if c then a else b).2 := by split <;> assumption

theorem Only.foldlFst {α β : Type} {w : List Part} {s : State} {f : State × β → α → State × β} {l : List α} {x : State × β}
    (hf : ∀ y a, Only w s y.1 → Only w s (f y a).1) (hx : Only w s x.1) : Only w s (l.foldl f x).1 := by
  induction l generalizing x with
  | nil => exact hx
  | cons a l ih => exact ih (hf x a hx)

theorem Answers.next {w : List Part} {s t : State} (h : Only w s t) : Answers w s (.next t) := ⟨t, rfl, h⟩

theorem Answers.ite {w : List Part} {s : State} {a b : Out} {c : Prop} [Decidable c] (ha : Answers w s a)
    (hb : Answers w s b) : Answers w s (if c then a else b) := by split <;> assumption

/-! ## An update of one field, or of several at once -/

theorem Only.frm {w : List Part} {s x : State} {v0 : Frm}
    (h0 : w.contains Part.frm = true) (h : Only w s x) :
    Only w s { x with frm := v0 } := by
  refine ⟨fun p hp => ?_⟩
  cases p <;> first
    | (rw [h0] at hp; cases hp)
    | exact h.out _ hp

theorem Only.axes {w : List Part} {s x : State} {v0 : Tbl Axis}
    (h0 : w.contains Part.axes = true) (h : Only w s x) :
    Only w s { x with axes := v0 } := by
  refine ⟨fun p hp => ?_⟩
  cases p <;> first
    | (rw [h0] at hp; cases hp)
    | exact h.out _ hp

theorem Only.lines {w : List Part} {s x : State} {v0 : Tbl Line}
    (h0 : w.contains Part.lines = true) (h : Only w s x) :
    Only w s { x with lines := v0 } := by
  refine ⟨fun p hp => ?_⟩
  cases p <;> first
    | (rw [h0] at hp; cases hp)
    | exact h.out _ hp

theorem Only.cams {w : List Part} {s x : State} {v0 : Tbl CamTable}
    (h0 : w.contains Part.cams = true) (h : Only w s x) :
    Only w s { x with cams := v0 } := by
  refine ⟨fun p hp => ?_⟩
  cases p <;> first
    | (rw [h0] at hp; cases hp)
    | exact h.out _ hp

theorem Only.camStg {w : List Part} {s x : State} {v0 : Tbl (List Host.Cell)}
    (h0 : w.contains Part.camStg = true) (h : Only w s x) :
    Only w s { x with camStg := v0 } := by
  refine ⟨fun p hp => ?_⟩
  cases p <;> first
    | (rw [h0] at hp; cases hp)
    | exact h.out _ hp

theorem Only.zones {w : List Part} {s x : State} {v0 : Tbl Zone}
    (h0 : w.contains Part.zones = true) (h : Only w s x) :
    Only w s { x with zones := v0 } := by
  refine ⟨fun p hp => ?_⟩
  cases p <;> first
    | (rw [h0] at hp; cases hp)
    | exact h.out _ hp

theorem Only.steps {w : List Part} {s x : State} {v0 : Tbl StepCh}
    (h0 : w.contains Part.steps = true) (h : Only w s x) :
    Only w s { x with steps := v0 } := by
  refine ⟨fun p hp => ?_⟩
  cases p <;> first
    | (rw [h0] at hp; cases hp)
    | exact h.out _ hp

theorem Only.encs {w : List Part} {s x : State} {v0 : Tbl Enc}
    (h0 : w.contains Part.encs = true) (h : Only w s x) :
    Only w s { x with encs := v0 } := by
  refine ⟨fun p hp => ?_⟩
  cases p <;> first
    | (rw [h0] at hp; cases hp)
    | exact h.out _ hp

theorem Only.net {w : List Part} {s x : State} {v0 : Net}
    (h0 : w.contains Part.net = true) (h : Only w s x) :
    Only w s { x with net := v0 } := by
  refine ⟨fun p hp => ?_⟩
  cases p <;> first
    | (rw [h0] at hp; cases hp)
    | exact h.out _ hp

theorem Only.dsp {w : List Part} {s x : State} {v0 : Dsp}
    (h0 : w.contains Part.dsp = true) (h : Only w s x) :
    Only w s { x with dsp := v0 } := by
  refine ⟨fun p hp => ?_⟩
  cases p <;> first
    | (rw [h0] at hp; cases hp)
    | exact h.out _ hp

theorem Only.red {w : List Part} {s x : State} {v0 : Red}
    (h0 : w.contains Part.red = true) (h : Only w s x) :
    Only w s { x with red := v0 } := by
  refine ⟨fun p hp => ?_⟩
  cases p <;> first
    | (rw [h0] at hp; cases hp)
    | exact h.out _ hp

theorem Only.saf {w : List Part} {s x : State} {v0 : Saf}
    (h0 : w.contains Part.saf = true) (h : Only w s x) :
    Only w s { x with saf := v0 } := by
  refine ⟨fun p hp => ?_⟩
  cases p <;> first
    | (rw [h0] at hp; cases hp)
    | exact h.out _ hp

theorem Only.fio {w : List Part} {s x : State} {v0 : Fio}
    (h0 : w.contains Part.fio = true) (h : Only w s x) :
    Only w s { x with fio := v0 } := by
  refine ⟨fun p hp => ?_⟩
  cases p <;> first
    | (rw [h0] at hp; cases hp)
    | exact h.out _ hp

theorem Only.cap {w : List Part} {s x : State} {v0 : Cap}
    (h0 : w.contains Part.cap = true) (h : Only w s x) :
    Only w s { x with cap := v0 } := by
  refine ⟨fun p hp => ?_⟩
  cases p <;> first
    | (rw [h0] at hp; cases hp)
    | exact h.out _ hp

theorem Only.prf {w : List Part} {s x : State} {v0 : Prf}
    (h0 : w.contains Part.prf = true) (h : Only w s x) :
    Only w s { x with prf := v0 } := by
  refine ⟨fun p hp => ?_⟩
  cases p <;> first
    | (rw [h0] at hp; cases hp)
    | exact h.out _ hp

theorem Only.host {w : List Part} {s x : State} {v0 : Hst}
    (h0 : w.contains Part.host = true) (h : Only w s x) :
    Only w s { x with host := v0 } := by
  refine ⟨fun p hp => ?_⟩
  cases p <;> first
    | (rw [h0] at hp; cases hp)
    | exact h.out _ hp

theorem Only.evt {w : List Part} {s x : State} {v0 : Evt}
    (h0 : w.contains Part.evt = true) (h : Only w s x) :
    Only w s { x with evt := v0 } := by
  refine ⟨fun p hp => ?_⟩
  cases p <;> first
    | (rw [h0] at hp; cases hp)
    | exact h.out _ hp

theorem Only.params {w : List Part} {s x : State} {v0 : Tbl W64}
    (h0 : w.contains Part.params = true) (h : Only w s x) :
    Only w s { x with params := v0 } := by
  refine ⟨fun p hp => ?_⟩
  cases p <;> first
    | (rw [h0] at hp; cases hp)
    | exact h.out _ hp

theorem Only.cfg {w : List Part} {s x : State} {v0 : Cfg}
    (h0 : w.contains Part.cfg = true) (h : Only w s x) :
    Only w s { x with cfg := v0 } := by
  refine ⟨fun p hp => ?_⟩
  cases p <;> first
    | (rw [h0] at hp; cases hp)
    | exact h.out _ hp

theorem Only.pwr {w : List Part} {s x : State} {v0 : Pwr}
    (h0 : w.contains Part.pwr = true) (h : Only w s x) :
    Only w s { x with pwr := v0 } := by
  refine ⟨fun p hp => ?_⟩
  cases p <;> first
    | (rw [h0] at hp; cases hp)
    | exact h.out _ hp

theorem Only.lgr {w : List Part} {s x : State} {v0 : Lgr}
    (h0 : w.contains Part.lgr = true) (h : Only w s x) :
    Only w s { x with lgr := v0 } := by
  refine ⟨fun p hp => ?_⟩
  cases p <;> first
    | (rw [h0] at hp; cases hp)
    | exact h.out _ hp

theorem Only.pending {w : List Part} {s x : State} {v0 : List Instr}
    (h0 : w.contains Part.pending = true) (h : Only w s x) :
    Only w s { x with pending := v0 } := by
  refine ⟨fun p hp => ?_⟩
  cases p <;> first
    | (rw [h0] at hp; cases hp)
    | exact h.out _ hp

theorem Only.axes_lines_cams_zones_params {w : List Part} {s x : State} {v0 : Tbl Axis} {v1 : Tbl Line} {v2 : Tbl CamTable} {v3 : Tbl Zone} {v4 : Tbl W64}
    (h0 : w.contains Part.axes = true) (h1 : w.contains Part.lines = true) (h2 : w.contains Part.cams = true) (h3 : w.contains Part.zones = true) (h4 : w.contains Part.params = true) (h : Only w s x) :
    Only w s { x with axes := v0, lines := v1, cams := v2, zones := v3, params := v4 } := by
  refine ⟨fun p hp => ?_⟩
  cases p <;> first
    | (rw [h0] at hp; cases hp)
    | (rw [h1] at hp; cases hp)
    | (rw [h2] at hp; cases hp)
    | (rw [h3] at hp; cases hp)
    | (rw [h4] at hp; cases hp)
    | exact h.out _ hp

theorem Only.axes_lines_zones {w : List Part} {s x : State} {v0 : Tbl Axis} {v1 : Tbl Line} {v2 : Tbl Zone}
    (h0 : w.contains Part.axes = true) (h1 : w.contains Part.lines = true) (h2 : w.contains Part.zones = true) (h : Only w s x) :
    Only w s { x with axes := v0, lines := v1, zones := v2 } := by
  refine ⟨fun p hp => ?_⟩
  cases p <;> first
    | (rw [h0] at hp; cases hp)
    | (rw [h1] at hp; cases hp)
    | (rw [h2] at hp; cases hp)
    | exact h.out _ hp

theorem Only.cams_camStg_evt_params {w : List Part} {s x : State} {v0 : Tbl CamTable} {v1 : Tbl (List Host.Cell)} {v2 : Evt} {v3 : Tbl W64}
    (h0 : w.contains Part.cams = true) (h1 : w.contains Part.camStg = true) (h2 : w.contains Part.evt = true) (h3 : w.contains Part.params = true) (h : Only w s x) :
    Only w s { x with cams := v0, camStg := v1, evt := v2, params := v3 } := by
  refine ⟨fun p hp => ?_⟩
  cases p <;> first
    | (rw [h0] at hp; cases hp)
    | (rw [h1] at hp; cases hp)
    | (rw [h2] at hp; cases hp)
    | (rw [h3] at hp; cases hp)
    | exact h.out _ hp

theorem Only.dsp_prf {w : List Part} {s x : State} {v0 : Dsp} {v1 : Prf}
    (h0 : w.contains Part.dsp = true) (h1 : w.contains Part.prf = true) (h : Only w s x) :
    Only w s { x with dsp := v0, prf := v1 } := by
  refine ⟨fun p hp => ?_⟩
  cases p <;> first
    | (rw [h0] at hp; cases hp)
    | (rw [h1] at hp; cases hp)
    | exact h.out _ hp

theorem Only.fio_cap {w : List Part} {s x : State} {v0 : Fio} {v1 : Cap}
    (h0 : w.contains Part.fio = true) (h1 : w.contains Part.cap = true) (h : Only w s x) :
    Only w s { x with fio := v0, cap := v1 } := by
  refine ⟨fun p hp => ?_⟩
  cases p <;> first
    | (rw [h0] at hp; cases hp)
    | (rw [h1] at hp; cases hp)
    | exact h.out _ hp

theorem Only.frm_cams {w : List Part} {s x : State} {v0 : Frm} {v1 : Tbl CamTable}
    (h0 : w.contains Part.frm = true) (h1 : w.contains Part.cams = true) (h : Only w s x) :
    Only w s { x with frm := v0, cams := v1 } := by
  refine ⟨fun p hp => ?_⟩
  cases p <;> first
    | (rw [h0] at hp; cases hp)
    | (rw [h1] at hp; cases hp)
    | exact h.out _ hp

theorem Only.frm_dsp {w : List Part} {s x : State} {v0 : Frm} {v1 : Dsp}
    (h0 : w.contains Part.frm = true) (h1 : w.contains Part.dsp = true) (h : Only w s x) :
    Only w s { x with frm := v0, dsp := v1 } := by
  refine ⟨fun p hp => ?_⟩
  cases p <;> first
    | (rw [h0] at hp; cases hp)
    | (rw [h1] at hp; cases hp)
    | exact h.out _ hp

theorem Only.frm_evt_pwr {w : List Part} {s x : State} {v0 : Frm} {v1 : Evt} {v2 : Pwr}
    (h0 : w.contains Part.frm = true) (h1 : w.contains Part.evt = true) (h2 : w.contains Part.pwr = true) (h : Only w s x) :
    Only w s { x with frm := v0, evt := v1, pwr := v2 } := by
  refine ⟨fun p hp => ?_⟩
  cases p <;> first
    | (rw [h0] at hp; cases hp)
    | (rw [h1] at hp; cases hp)
    | (rw [h2] at hp; cases hp)
    | exact h.out _ hp

theorem Only.frm_fio {w : List Part} {s x : State} {v0 : Frm} {v1 : Fio}
    (h0 : w.contains Part.frm = true) (h1 : w.contains Part.fio = true) (h : Only w s x) :
    Only w s { x with frm := v0, fio := v1 } := by
  refine ⟨fun p hp => ?_⟩
  cases p <;> first
    | (rw [h0] at hp; cases hp)
    | (rw [h1] at hp; cases hp)
    | exact h.out _ hp

theorem Only.frm_host_cfg_pwr {w : List Part} {s x : State} {v0 : Frm} {v1 : Hst} {v2 : Cfg} {v3 : Pwr}
    (h0 : w.contains Part.frm = true) (h1 : w.contains Part.host = true) (h2 : w.contains Part.cfg = true) (h3 : w.contains Part.pwr = true) (h : Only w s x) :
    Only w s { x with frm := v0, host := v1, cfg := v2, pwr := v3 } := by
  refine ⟨fun p hp => ?_⟩
  cases p <;> first
    | (rw [h0] at hp; cases hp)
    | (rw [h1] at hp; cases hp)
    | (rw [h2] at hp; cases hp)
    | (rw [h3] at hp; cases hp)
    | exact h.out _ hp

theorem Only.frm_net {w : List Part} {s x : State} {v0 : Frm} {v1 : Net}
    (h0 : w.contains Part.frm = true) (h1 : w.contains Part.net = true) (h : Only w s x) :
    Only w s { x with frm := v0, net := v1 } := by
  refine ⟨fun p hp => ?_⟩
  cases p <;> first
    | (rw [h0] at hp; cases hp)
    | (rw [h1] at hp; cases hp)
    | exact h.out _ hp

theorem Only.frm_net_evt_cfg {w : List Part} {s x : State} {v0 : Frm} {v1 : Net} {v2 : Evt} {v3 : Cfg}
    (h0 : w.contains Part.frm = true) (h1 : w.contains Part.net = true) (h2 : w.contains Part.evt = true) (h3 : w.contains Part.cfg = true) (h : Only w s x) :
    Only w s { x with frm := v0, net := v1, evt := v2, cfg := v3 } := by
  refine ⟨fun p hp => ?_⟩
  cases p <;> first
    | (rw [h0] at hp; cases hp)
    | (rw [h1] at hp; cases hp)
    | (rw [h2] at hp; cases hp)
    | (rw [h3] at hp; cases hp)
    | exact h.out _ hp

theorem Only.frm_net_red {w : List Part} {s x : State} {v0 : Frm} {v1 : Net} {v2 : Red}
    (h0 : w.contains Part.frm = true) (h1 : w.contains Part.net = true) (h2 : w.contains Part.red = true) (h : Only w s x) :
    Only w s { x with frm := v0, net := v1, red := v2 } := by
  refine ⟨fun p hp => ?_⟩
  cases p <;> first
    | (rw [h0] at hp; cases hp)
    | (rw [h1] at hp; cases hp)
    | (rw [h2] at hp; cases hp)
    | exact h.out _ hp

theorem Only.host_pwr {w : List Part} {s x : State} {v0 : Hst} {v1 : Pwr}
    (h0 : w.contains Part.host = true) (h1 : w.contains Part.pwr = true) (h : Only w s x) :
    Only w s { x with host := v0, pwr := v1 } := by
  refine ⟨fun p hp => ?_⟩
  cases p <;> first
    | (rw [h0] at hp; cases hp)
    | (rw [h1] at hp; cases hp)
    | exact h.out _ hp

theorem Only.lines_red_evt {w : List Part} {s x : State} {v0 : Tbl Line} {v1 : Red} {v2 : Evt}
    (h0 : w.contains Part.lines = true) (h1 : w.contains Part.red = true) (h2 : w.contains Part.evt = true) (h : Only w s x) :
    Only w s { x with lines := v0, red := v1, evt := v2 } := by
  refine ⟨fun p hp => ?_⟩
  cases p <;> first
    | (rw [h0] at hp; cases hp)
    | (rw [h1] at hp; cases hp)
    | (rw [h2] at hp; cases hp)
    | exact h.out _ hp

theorem Only.net_fio {w : List Part} {s x : State} {v0 : Net} {v1 : Fio}
    (h0 : w.contains Part.net = true) (h1 : w.contains Part.fio = true) (h : Only w s x) :
    Only w s { x with net := v0, fio := v1 } := by
  refine ⟨fun p hp => ?_⟩
  cases p <;> first
    | (rw [h0] at hp; cases hp)
    | (rw [h1] at hp; cases hp)
    | exact h.out _ hp

theorem Only.net_red {w : List Part} {s x : State} {v0 : Net} {v1 : Red}
    (h0 : w.contains Part.net = true) (h1 : w.contains Part.red = true) (h : Only w s x) :
    Only w s { x with net := v0, red := v1 } := by
  refine ⟨fun p hp => ?_⟩
  cases p <;> first
    | (rw [h0] at hp; cases hp)
    | (rw [h1] at hp; cases hp)
    | exact h.out _ hp

theorem Only.net_red_evt {w : List Part} {s x : State} {v0 : Net} {v1 : Red} {v2 : Evt}
    (h0 : w.contains Part.net = true) (h1 : w.contains Part.red = true) (h2 : w.contains Part.evt = true) (h : Only w s x) :
    Only w s { x with net := v0, red := v1, evt := v2 } := by
  refine ⟨fun p hp => ?_⟩
  cases p <;> first
    | (rw [h0] at hp; cases hp)
    | (rw [h1] at hp; cases hp)
    | (rw [h2] at hp; cases hp)
    | exact h.out _ hp

theorem Only.prf_pwr {w : List Part} {s x : State} {v0 : Prf} {v1 : Pwr}
    (h0 : w.contains Part.prf = true) (h1 : w.contains Part.pwr = true) (h : Only w s x) :
    Only w s { x with prf := v0, pwr := v1 } := by
  refine ⟨fun p hp => ?_⟩
  cases p <;> first
    | (rw [h0] at hp; cases hp)
    | (rw [h1] at hp; cases hp)
    | exact h.out _ hp

theorem Only.pwr_lgr {w : List Part} {s x : State} {v0 : Pwr} {v1 : Lgr}
    (h0 : w.contains Part.pwr = true) (h1 : w.contains Part.lgr = true) (h : Only w s x) :
    Only w s { x with pwr := v0, lgr := v1 } := by
  refine ⟨fun p hp => ?_⟩
  cases p <;> first
    | (rw [h0] at hp; cases hp)
    | (rw [h1] at hp; cases hp)
    | exact h.out _ hp

theorem Only.red_cfg {w : List Part} {s x : State} {v0 : Red} {v1 : Cfg}
    (h0 : w.contains Part.red = true) (h1 : w.contains Part.cfg = true) (h : Only w s x) :
    Only w s { x with red := v0, cfg := v1 } := by
  refine ⟨fun p hp => ?_⟩
  cases p <;> first
    | (rw [h0] at hp; cases hp)
    | (rw [h1] at hp; cases hp)
    | exact h.out _ hp

theorem Only.red_evt {w : List Part} {s x : State} {v0 : Red} {v1 : Evt}
    (h0 : w.contains Part.red = true) (h1 : w.contains Part.evt = true) (h : Only w s x) :
    Only w s { x with red := v0, evt := v1 } := by
  refine ⟨fun p hp => ?_⟩
  cases p <;> first
    | (rw [h0] at hp; cases hp)
    | (rw [h1] at hp; cases hp)
    | exact h.out _ hp

theorem Only.saf_cfg {w : List Part} {s x : State} {v0 : Saf} {v1 : Cfg}
    (h0 : w.contains Part.saf = true) (h1 : w.contains Part.cfg = true) (h : Only w s x) :
    Only w s { x with saf := v0, cfg := v1 } := by
  refine ⟨fun p hp => ?_⟩
  cases p <;> first
    | (rw [h0] at hp; cases hp)
    | (rw [h1] at hp; cases hp)
    | exact h.out _ hp

theorem Only.saf_host_cfg {w : List Part} {s x : State} {v0 : Saf} {v1 : Hst} {v2 : Cfg}
    (h0 : w.contains Part.saf = true) (h1 : w.contains Part.host = true) (h2 : w.contains Part.cfg = true) (h : Only w s x) :
    Only w s { x with saf := v0, host := v1, cfg := v2 } := by
  refine ⟨fun p hp => ?_⟩
  cases p <;> first
    | (rw [h0] at hp; cases hp)
    | (rw [h1] at hp; cases hp)
    | (rw [h2] at hp; cases hp)
    | exact h.out _ hp

theorem Only.saf_pwr {w : List Part} {s x : State} {v0 : Saf} {v1 : Pwr}
    (h0 : w.contains Part.saf = true) (h1 : w.contains Part.pwr = true) (h : Only w s x) :
    Only w s { x with saf := v0, pwr := v1 } := by
  refine ⟨fun p hp => ?_⟩
  cases p <;> first
    | (rw [h0] at hp; cases hp)
    | (rw [h1] at hp; cases hp)
    | exact h.out _ hp

theorem Only.saf_pwr_lgr {w : List Part} {s x : State} {v0 : Saf} {v1 : Pwr} {v2 : Lgr}
    (h0 : w.contains Part.saf = true) (h1 : w.contains Part.pwr = true) (h2 : w.contains Part.lgr = true) (h : Only w s x) :
    Only w s { x with saf := v0, pwr := v1, lgr := v2 } := by
  refine ⟨fun p hp => ?_⟩
  cases p <;> first
    | (rw [h0] at hp; cases hp)
    | (rw [h1] at hp; cases hp)
    | (rw [h2] at hp; cases hp)
    | exact h.out _ hp

end Sys2Proof.Machine
end

