-- ==== Sys2Proof/Laws/Params.lean ====
section
/-! SUPPORT. What the operations of Machine/Params change of the state: nothing outside the listed parts. -/

set_option linter.unusedTactic false
set_option linter.unreachableTactic false

namespace Sys2Proof.Machine

theorem State.setPar_only (s : State) (c i n : Nat) (v : W64) : Only [.params] s (State.setPar s c i n v) := by
  unfold State.setPar
  repeat (first
    | with_reducible exact Only.refl _ _
    | with_reducible assumption
    | fail_if_no_progress with_reducible refine Only.params (by decide) ?_)

end Sys2Proof.Machine
end

