-- ==== Sys2Proof/Laws/Ops.lean ====
section
/-! SUPPORT. What the operations of Machine/Ops change of the state: nothing outside the listed parts. -/

set_option linter.unusedTactic false
set_option linter.unreachableTactic false

namespace Sys2Proof.Machine

theorem State.setAxis_only (s : State) (i : Nat) (a : Axis) : Only [.axes] s (State.setAxis s i a) := by
  unfold State.setAxis
  repeat (first
    | with_reducible exact Only.refl _ _
    | with_reducible assumption
    | fail_if_no_progress with_reducible refine Only.axes (by decide) ?_)

theorem State.setZone_only (s : State) (z : Nat) (a : Zone) : Only [.zones] s (State.setZone s z a) := by
  unfold State.setZone
  repeat (first
    | with_reducible exact Only.refl _ _
    | with_reducible assumption
    | fail_if_no_progress with_reducible refine Only.zones (by decide) ?_)

theorem State.setLine_only (s : State) (l : Nat) (a : Line) : Only [.lines] s (State.setLine s l a) := by
  unfold State.setLine
  repeat (first
    | with_reducible exact Only.refl _ _
    | with_reducible assumption
    | fail_if_no_progress with_reducible refine Only.lines (by decide) ?_)

theorem State.setStep_only (s : State) (c : Nat) (a : StepCh) : Only [.steps] s (State.setStep s c a) := by
  unfold State.setStep
  repeat (first
    | with_reducible exact Only.refl _ _
    | with_reducible assumption
    | fail_if_no_progress with_reducible refine Only.steps (by decide) ?_)

theorem State.setEnc_only (s : State) (e : Nat) (a : Enc) : Only [.encs] s (State.setEnc s e a) := by
  unfold State.setEnc
  repeat (first
    | with_reducible exact Only.refl _ _
    | with_reducible assumption
    | fail_if_no_progress with_reducible refine Only.encs (by decide) ?_)

theorem State.setPort_only (s : State) (b : Nat) (p : Port) : Only [.net] s (State.setPort s b p) := by
  unfold State.setPort
  repeat (first
    | with_reducible exact Only.refl _ _
    | with_reducible assumption
    | fail_if_no_progress with_reducible refine Only.net (by decide) ?_)

theorem State.setBranch_only (s : State) (b : Nat) (x : Branch) : Only [.net] s (State.setBranch s b x) := by
  unfold State.setBranch
  repeat (first
    | with_reducible exact Only.refl _ _
    | with_reducible assumption
    | fail_if_no_progress with_reducible refine Only.net (by decide) ?_)

theorem State.setNode_only (s : State) (b p : Nat) (n : Node) : Only [.net] s (State.setNode s b p n) := by
  unfold State.setNode
  repeat (first
    | with_reducible exact Only.refl _ _
    | with_reducible assumption
    | fail_if_no_progress with_reducible refine Only.net (by decide) ?_)

theorem State.setJoin_only (s : State) (b : Nat) (j : Join) : Only [.net] s (State.setJoin s b j) := by
  unfold State.setJoin
  repeat (first
    | with_reducible exact Only.refl _ _
    | with_reducible assumption
    | fail_if_no_progress with_reducible refine Only.net (by decide) ?_)

theorem State.setFch_only (s : State) (c : Nat) (x : FioCh) : Only [.fio] s (State.setFch s c x) := by
  unfold State.setFch
  repeat (first
    | with_reducible exact Only.refl _ _
    | with_reducible assumption
    | fail_if_no_progress with_reducible refine Only.fio (by decide) ?_)

theorem State.setDie_only (s : State) (d : Nat) (x : FioDie) : Only [.fio] s (State.setDie s d x) := by
  unfold State.setDie
  repeat (first
    | with_reducible exact Only.refl _ _
    | with_reducible assumption
    | fail_if_no_progress with_reducible refine Only.fio (by decide) ?_)

theorem State.setTask_only (s : State) (d : Nat) (x : Task) : Only [.dsp] s (State.setTask s d x) := by
  unfold State.setTask
  repeat (first
    | with_reducible exact Only.refl _ _
    | with_reducible assumption
    | fail_if_no_progress with_reducible refine Only.dsp (by decide) ?_)

theorem State.setConn_only (s : State) (c : Nat) (x : Conn) : Only [.saf] s (State.setConn s c x) := by
  unfold State.setConn
  repeat (first
    | with_reducible exact Only.refl _ _
    | with_reducible assumption
    | fail_if_no_progress with_reducible refine Only.saf (by decide) ?_)

theorem State.setSgrp_only (s : State) (g : Nat) (x : SGroup) : Only [.saf] s (State.setSgrp s g x) := by
  unfold State.setSgrp
  repeat (first
    | with_reducible exact Only.refl _ _
    | with_reducible assumption
    | fail_if_no_progress with_reducible refine Only.saf (by decide) ?_)

theorem State.setSout_only (s : State) (o : Nat) (x : SOut) : Only [.saf] s (State.setSout s o x) := by
  unfold State.setSout
  repeat (first
    | with_reducible exact Only.refl _ _
    | with_reducible assumption
    | fail_if_no_progress with_reducible refine Only.saf (by decide) ?_)

theorem State.setSpair_only (s : State) (p : Nat) (x : SinPair) : Only [.saf] s (State.setSpair s p x) := by
  unfold State.setSpair
  repeat (first
    | with_reducible exact Only.refl _ _
    | with_reducible assumption
    | fail_if_no_progress with_reducible refine Only.saf (by decide) ?_)

theorem State.mapAxes_only (s : State) (f : Nat → Axis → Axis) (l : List Nat) : Only [.axes] s (State.mapAxes s f l) := by
  unfold State.mapAxes
  repeat (first
    | with_reducible exact Only.refl _ _
    | with_reducible assumption
    | ((with_reducible apply Only.step (State.setAxis_only ..)); decide)
    | with_reducible refine Only.foldl ?_ ?_
    | (intro _ _ _; try beta_reduce))

theorem State.pulseN_only (s : State) (c lat n : Nat) : Only [.prf] s (State.pulseN s c lat n) := by
  unfold State.pulseN
  repeat (first
    | with_reducible exact Only.refl _ _
    | with_reducible assumption
    | fail_if_no_progress with_reducible refine Only.prf (by decide) ?_)

theorem State.pulse_only (s : State) (c : Nat) : Only [.prf] s (State.pulse s c) := by
  unfold State.pulse
  repeat (first
    | with_reducible exact Only.refl _ _
    | with_reducible assumption
    | ((with_reducible apply Only.step (State.pulseN_only ..)); decide))

theorem State.pulseX_only (s : State) (c : Nat) : Only [.prf] s (State.pulseX s c) := by
  unfold State.pulseX
  repeat (first
    | with_reducible exact Only.refl _ _
    | with_reducible assumption
    | ((with_reducible apply Only.step (State.pulseN_only ..)); decide))

theorem State.irq_only (s : State) (k : Nat) : Only [.prf, .evt] s (State.irq s k) := by
  unfold State.irq
  repeat (first
    | with_reducible exact Only.refl _ _
    | with_reducible assumption
    | ((with_reducible apply Only.step (State.pulseN_only ..)); decide)
    | fail_if_no_progress with_reducible refine Only.evt (by decide) ?_
    | split
    | (dsimp -proj -beta only []; split))

theorem State.setRole_only (s : State) (r : Role) : Only [.frm, .prf, .evt] s (State.setRole s r) := by
  unfold State.setRole
  repeat (first
    | with_reducible exact Only.refl _ _
    | with_reducible assumption
    | ((with_reducible apply Only.step (State.irq_only ..)); decide)
    | with_reducible refine Only.ite ?_ ?_
    | fail_if_no_progress with_reducible refine Only.frm (by decide) ?_)

theorem State.cycles_only (s : State) (n : Nat) : Only [.prf] s (State.cycles s n) := by
  unfold State.cycles
  repeat (first
    | with_reducible exact Only.refl _ _
    | with_reducible assumption
    | with_reducible refine Only.ite ?_ ?_
    | with_reducible refine Only.foldl ?_ ?_
    | (intro _ _ _; try beta_reduce)
    | fail_if_no_progress with_reducible refine Only.prf (by decide) ?_)

theorem State.droopCycle_only (s : State) : Only [.prf, .pwr] s (State.droopCycle s) := by
  unfold State.droopCycle
  repeat (first
    | with_reducible exact Only.refl _ _
    | with_reducible assumption
    | ((with_reducible apply Only.step (State.cycles_only ..)); decide)
    | ((with_reducible apply Only.step (State.pulse_only ..)); decide)
    | with_reducible refine Only.ite ?_ ?_
    | fail_if_no_progress with_reducible refine Only.pwr (by decide) ?_
    | split
    | (dsimp -proj -beta only []; split))

theorem State.droopRun_only (s : State) (n acc : Nat) : Only [.prf, .pwr] s (State.droopRun s n acc).1 := by
  induction n generalizing s acc with
  | zero => exact Only.refl _ _
  | succ n ih =>
    unfold State.droopRun
    dsimp only
    repeat (first
      | with_reducible exact Only.refl _ _
      | with_reducible refine Only.iteFst ?_ ?_
      | with_reducible refine Only.step (ih ..) (by decide) ?_
      | with_reducible refine Only.step (State.droopCycle_only ..) (by decide) ?_
      | split)

theorem State.holdRun_only (s : State) (acc : Nat) : Only [.prf, .pwr] s (State.holdRun s acc).1 := by
  unfold State.holdRun
  dsimp only
  split
  · exact Only.refl _ _
  · exact Only.step (State.cycles_only ..) (by decide) (Only.pwr (by decide) (Only.step (State.pulseN_only ..) (by decide)
      (Only.refl _ _)))

theorem State.coreTime_only (s : State) (dt : Nat) : Only [.prf, .pwr] s (State.coreTime s dt) := by
  unfold State.coreTime
  split
  · exact Only.refl _ _
  · refine Only.prf (by decide) ?_
    refine Only.iteFst (State.holdRun_only ..) (Only.iteFst (State.droopRun_only ..) ?_)
    exact Only.step (State.cycles_only ..) (by decide) (Only.pwr (by decide) (Only.refl _ _))

theorem State.advance_only (s : State) (t : Nat) : Only [.frm, .prf, .pwr] s (State.advance s t) := by
  unfold State.advance
  repeat (first
    | with_reducible exact Only.refl _ _
    | with_reducible assumption
    | ((with_reducible apply Only.step (State.coreTime_only ..)); decide)
    | fail_if_no_progress with_reducible refine Only.frm (by decide) ?_)

theorem State.capTrigger_only (s : State) (src t : Nat) : Only [.cap] s (State.capTrigger s src t) := by
  unfold State.capTrigger
  repeat (first
    | with_reducible exact Only.refl _ _
    | with_reducible assumption
    | with_reducible refine Only.ite ?_ ?_
    | fail_if_no_progress with_reducible refine Only.cap (by decide) ?_)

theorem State.logAt_only (s : State) (time : Nat) (frame : W48) (kind led code cause : Nat) (data : List Byte) : Only [.lgr] s (State.logAt s time frame kind led code cause data) := by
  unfold State.logAt
  repeat (first
    | with_reducible exact Only.refl _ _
    | with_reducible assumption
    | with_reducible refine Only.ite ?_ ?_
    | fail_if_no_progress with_reducible refine Only.lgr (by decide) ?_)

theorem State.log_only (s : State) (kind led code cause : Nat) (data : List Byte) : Only [.lgr] s (State.log s kind led code cause data) := by
  unfold State.log
  repeat (first
    | with_reducible exact Only.refl _ _
    | with_reducible assumption
    | ((with_reducible apply Only.step (State.logAt_only ..)); decide))

theorem State.raiseCore_only (s : State) (code obj groups : Nat) (data : List Byte) : Only [.cap, .prf, .evt, .lgr] s (State.raiseCore s code obj groups data) := by
  unfold State.raiseCore
  repeat (first
    | with_reducible exact Only.refl _ _
    | with_reducible assumption
    | ((with_reducible apply Only.step (State.log_only ..)); decide)
    | ((with_reducible apply Only.step (State.capTrigger_only ..)); decide)
    | ((with_reducible apply Only.step (State.pulse_only ..)); decide)
    | with_reducible refine Only.ite ?_ ?_
    | fail_if_no_progress with_reducible refine Only.evt (by decide) ?_)

theorem State.markEv_only (s : State) (code obj : Nat) : Only [.evt] s (State.markEv s code obj) := by
  unfold State.markEv
  repeat (first
    | with_reducible exact Only.refl _ _
    | with_reducible assumption
    | fail_if_no_progress with_reducible refine Only.evt (by decide) ?_)

theorem State.raise_only (s : State) (code obj groups : Nat) (data : List Byte) : Only [.cap, .prf, .evt, .lgr] s (State.raise s code obj groups data) := by
  unfold State.raise
  repeat (first
    | with_reducible exact Only.refl _ _
    | with_reducible assumption
    | ((with_reducible apply Only.step (State.markEv_only ..)); decide)
    | ((with_reducible apply Only.step (State.raiseCore_only ..)); decide)
    | with_reducible refine Only.ite ?_ ?_)

theorem State.raiseOnce_only (s : State) (code obj groups : Nat) (data : List Byte) : Only [.cap, .prf, .evt, .lgr] s (State.raiseOnce s code obj groups data) := by
  unfold State.raiseOnce
  repeat (first
    | with_reducible exact Only.refl _ _
    | with_reducible assumption
    | ((with_reducible apply Only.step (State.raise_only ..)); decide)
    | ((with_reducible apply Only.step (State.markEv_only ..)); decide)
    | with_reducible refine Only.ite ?_ ?_)

theorem State.raiseDev_only (s : State) (code : Nat) (data : List Byte) : Only [.cap, .prf, .evt, .lgr] s (State.raiseDev s code data) := by
  unfold State.raiseDev
  repeat (first
    | with_reducible exact Only.refl _ _
    | with_reducible assumption
    | ((with_reducible apply Only.step (State.raise_only ..)); decide))

theorem State.raiseDevOnce_only (s : State) (code : Nat) (data : List Byte) : Only [.cap, .prf, .evt, .lgr] s (State.raiseDevOnce s code data) := by
  unfold State.raiseDevOnce
  repeat (first
    | with_reducible exact Only.refl _ _
    | with_reducible assumption
    | ((with_reducible apply Only.step (State.raiseOnce_only ..)); decide))

theorem State.raiseAx_only (s : State) (code i : Nat) (data : List Byte) : Only [.cap, .prf, .evt, .lgr] s (State.raiseAx s code i data) := by
  unfold State.raiseAx
  repeat (first
    | with_reducible exact Only.refl _ _
    | with_reducible assumption
    | ((with_reducible apply Only.step (State.raiseOnce_only ..)); decide))

theorem State.raiseNode_only (s : State) (code b p : Nat) (data : List Byte) : Only [.cap, .prf, .evt, .lgr] s (State.raiseNode s code b p data) := by
  unfold State.raiseNode
  repeat (first
    | with_reducible exact Only.refl _ _
    | with_reducible assumption
    | ((with_reducible apply Only.step (State.raiseOnce_only ..)); decide))

theorem State.goto_only (s : State) (t : Nat) : Only [.frm, .cap, .prf, .evt, .pwr, .lgr] s (State.goto s t) := by
  unfold State.goto
  repeat (first
    | with_reducible exact Only.refl _ _
    | with_reducible assumption
    | ((with_reducible apply Only.step (State.raiseDev_only ..)); decide)
    | ((with_reducible apply Only.step (State.markEv_only ..)); decide)
    | ((with_reducible apply Only.step (State.advance_only ..)); decide)
    | with_reducible refine Only.ite ?_ ?_
    | fail_if_no_progress with_reducible refine Only.pwr (by decide) ?_)

theorem State.gotoPhase_only (s : State) (p : Nat) : Only [.frm, .cap, .prf, .evt, .pwr, .lgr] s (State.gotoPhase s p) := by
  unfold State.gotoPhase
  repeat (first
    | with_reducible exact Only.refl _ _
    | with_reducible assumption
    | ((with_reducible apply Only.step (State.goto_only ..)); decide))

theorem State.gotoLatency_only (s : State) (e : Nat) : Only [.frm, .cap, .prf, .evt, .pwr, .lgr] s (State.gotoLatency s e) := by
  unfold State.gotoLatency
  repeat (first
    | with_reducible exact Only.refl _ _
    | with_reducible assumption
    | ((with_reducible apply Only.step (State.gotoPhase_only ..)); decide)
    | ((with_reducible apply Only.step (State.goto_only ..)); decide))

theorem State.bwBytes_only (s : State) (m n : Nat) : Only [.prf] s (State.bwBytes s m n) := by
  unfold State.bwBytes
  repeat (first
    | with_reducible exact Only.refl _ _
    | with_reducible assumption
    | with_reducible refine Only.ite ?_ ?_
    | fail_if_no_progress with_reducible refine Only.prf (by decide) ?_)

theorem State.bwFrame_only (s : State) (b dir n : Nat) : Only [.prf] s (State.bwFrame s b dir n) := by
  unfold State.bwFrame
  repeat (first
    | with_reducible exact Only.refl _ _
    | with_reducible assumption
    | ((with_reducible apply Only.step (State.bwBytes_only ..)); decide)
    | with_reducible refine Only.ite ?_ ?_)

end Sys2Proof.Machine
end

