-- ==== Sys2Proof/Laws/Dispatcher.lean ====
section
/-! SUPPORT. What the operations of Machine/Dispatcher change of the state: nothing outside the listed parts. -/

set_option linter.unusedTactic false
set_option linter.unreachableTactic false

namespace Sys2Proof.Machine

theorem State.setReady_only (s : State) (k : Nat) (l : List Nat) : Only [.dsp] s (State.setReady s k l) := by
  unfold State.setReady
  repeat (first
    | with_reducible exact Only.refl _ _
    | with_reducible assumption
    | fail_if_no_progress with_reducible refine Only.dsp (by decide) ?_)

theorem State.trcLose_only (s : State) : Only [.dsp, .prf] s (State.trcLose s) := by
  unfold State.trcLose
  repeat (first
    | with_reducible exact Only.refl _ _
    | with_reducible assumption
    | ((with_reducible apply Only.step (State.pulse_only ..)); decide)
    | fail_if_no_progress with_reducible refine Only.dsp (by decide) ?_)

theorem State.traceIn_only (s : State) (n kind d server : Nat) : Only [.dsp, .prf] s (State.traceIn s n kind d server) := by
  unfold State.traceIn
  repeat (first
    | with_reducible exact Only.refl _ _
    | with_reducible assumption
    | ((with_reducible apply Only.step (State.trcLose_only ..)); decide)
    | ((with_reducible apply Only.step (State.pulse_only ..)); decide)
    | with_reducible refine Only.ite ?_ ?_
    | fail_if_no_progress with_reducible refine Only.dsp (by decide) ?_)

theorem State.trace_only (s : State) (kind d server : Nat) : Only [.dsp, .prf] s (State.trace s kind d server) := by
  unfold State.trace
  repeat (first
    | with_reducible exact Only.refl _ _
    | with_reducible assumption
    | ((with_reducible apply Only.step (State.traceIn_only ..)); decide))

theorem State.tagDispatch_only (s : State) (d k : Nat) : Only [.prf] s (State.tagDispatch s d k) := by
  unfold State.tagDispatch
  repeat (first
    | with_reducible exact Only.refl _ _
    | with_reducible assumption
    | with_reducible refine Only.ite ?_ ?_
    | fail_if_no_progress with_reducible refine Only.prf (by decide) ?_)

theorem State.tagWrite_only (s : State) (r : TagRun) (pack : Option Nat) : Only [.prf] s (State.tagWrite s r pack) := by
  unfold State.tagWrite
  repeat (first
    | with_reducible exact Only.refl _ _
    | with_reducible assumption
    | ((with_reducible apply Only.step (State.pulse_only ..)); decide)
    | with_reducible refine Only.ite ?_ ?_
    | fail_if_no_progress with_reducible refine Only.prf (by decide) ?_)

theorem State.tagComplete_only (s : State) (d : Nat) (opnd comp t : Nat) (branch : Option Nat) (ln : Bool) : Only [.prf] s (State.tagComplete s d opnd comp t branch ln) := by
  unfold State.tagComplete
  repeat (first
    | with_reducible exact Only.refl _ _
    | with_reducible assumption
    | ((with_reducible apply Only.step (State.tagWrite_only ..)); decide)
    | with_reducible refine Only.ite ?_ ?_
    | fail_if_no_progress with_reducible refine Only.prf (by decide) ?_
    | split
    | (dsimp -proj -beta only []; split))

theorem State.tagPack_only (s : State) (b : Nat) : Only [.prf] s (State.tagPack s b) := by
  unfold State.tagPack
  repeat (first
    | with_reducible exact Only.refl _ _
    | with_reducible assumption
    | ((with_reducible apply Only.step (State.tagWrite_only ..)); decide)
    | with_reducible refine Only.foldl ?_ ?_
    | (intro _ _ _; try beta_reduce)
    | fail_if_no_progress with_reducible refine Only.prf (by decide) ?_)

theorem State.noteDepth_only (s : State) (l : Nat) : Only [.dsp] s (State.noteDepth s l) := by
  unfold State.noteDepth
  repeat (first
    | with_reducible exact Only.refl _ _
    | with_reducible assumption
    | fail_if_no_progress with_reducible refine Only.dsp (by decide) ?_)

theorem State.enterReady_only (s : State) (n : Nat) (exp : Bool) (d : Nat) : Only [.dsp] s (State.enterReady s n exp d) := by
  unfold State.enterReady
  repeat (first
    | with_reducible exact Only.refl _ _
    | with_reducible assumption
    | ((with_reducible apply Only.step (State.noteDepth_only ..)); decide)
    | ((with_reducible apply Only.step (State.setReady_only ..)); decide)
    | ((with_reducible apply Only.step (State.setTask_only ..)); decide)
    | with_reducible refine Only.ite ?_ ?_
    | fail_if_no_progress with_reducible refine Only.dsp (by decide) ?_)

theorem State.startThread_only (s : State) (n fp : Nat) : Only [.dsp, .prf] s (State.startThread s n fp) := by
  unfold State.startThread
  repeat (first
    | with_reducible exact Only.refl _ _
    | with_reducible assumption
    | ((with_reducible apply Only.step (State.traceIn_only ..)); decide)
    | ((with_reducible apply Only.step (State.setReady_only ..)); decide)
    | ((with_reducible apply Only.step (State.pulse_only ..)); decide)
    | ((with_reducible apply Only.step (State.setTask_only ..)); decide)
    | with_reducible refine Only.ite ?_ ?_
    | fail_if_no_progress with_reducible refine Only.dsp (by decide) ?_
    | split
    | (dsimp -proj -beta only []; split))

theorem State.kick_only (s : State) (n d : Nat) : Only [.dsp, .prf] s (State.kick s n d) := by
  unfold State.kick
  repeat (first
    | with_reducible exact Only.refl _ _
    | with_reducible assumption
    | ((with_reducible apply Only.step (State.startThread_only ..)); decide)
    | with_reducible refine Only.ite ?_ ?_)

theorem State.enterDelay_only (s : State) (d : Nat) : Only [.dsp] s (State.enterDelay s d) := by
  unfold State.enterDelay
  repeat (first
    | with_reducible exact Only.refl _ _
    | with_reducible assumption
    | fail_if_no_progress with_reducible refine Only.dsp (by decide) ?_)

theorem State.beginWait_only (s : State) (d base delay : Nat) : Only [.dsp] s (State.beginWait s d base delay) := by
  unfold State.beginWait
  repeat (first
    | with_reducible exact Only.refl _ _
    | with_reducible assumption
    | ((with_reducible apply Only.step (State.enterDelay_only ..)); decide)
    | ((with_reducible apply Only.step (State.enterReady_only ..)); decide)
    | ((with_reducible apply Only.step (State.setTask_only ..)); decide)
    | with_reducible refine Only.ite ?_ ?_
    | split
    | (dsimp -proj -beta only []; split))

theorem State.startInstance_only (s : State) (d : Nat) : Only [.dsp] s (State.startInstance s d) := by
  unfold State.startInstance
  repeat (first
    | with_reducible exact Only.refl _ _
    | with_reducible assumption
    | ((with_reducible apply Only.step (State.beginWait_only ..)); decide)
    | ((with_reducible apply Only.step (State.setTask_only ..)); decide)
    | with_reducible refine Only.ite ?_ ?_)

theorem State.kickReady_only (s : State) (d : Nat) : Only [.dsp, .prf] s (State.kickReady s d) := by
  unfold State.kickReady
  repeat (first
    | with_reducible exact Only.refl _ _
    | with_reducible assumption
    | ((with_reducible apply Only.step (State.kick_only ..)); decide)
    | with_reducible refine Only.ite ?_ ?_)

theorem State.unlist_only (s : State) (d : Nat) : Only [.dsp] s (State.unlist s d) := by
  unfold State.unlist
  repeat (first
    | with_reducible exact Only.refl _ _
    | with_reducible assumption
    | ((with_reducible apply Only.step (State.setReady_only ..)); decide)
    | fail_if_no_progress with_reducible refine Only.dsp (by decide) ?_)

theorem State.supersede_only (s : State) (d : Nat) : Only [.dsp, .prf] s (State.supersede s d) := by
  unfold State.supersede
  repeat (first
    | with_reducible exact Only.refl _ _
    | with_reducible assumption
    | ((with_reducible apply Only.step (State.trace_only ..)); decide)
    | ((with_reducible apply Only.step (State.pulse_only ..)); decide)
    | fail_if_no_progress with_reducible refine Only.dsp (by decide) ?_)

theorem State.countRelease_only (s : State) (d : Nat) : Only [.dsp, .prf] s (State.countRelease s d) := by
  unfold State.countRelease
  repeat (first
    | with_reducible exact Only.refl _ _
    | with_reducible assumption
    | ((with_reducible apply Only.step (State.trace_only ..)); decide)
    | ((with_reducible apply Only.step (State.setTask_only ..)); decide)
    | fail_if_no_progress with_reducible refine Only.dsp (by decide) ?_)

theorem State.fp3Resume_only (s : State) : Only [.dsp, .prf, .pwr] s (State.fp3Resume s) := by
  unfold State.fp3Resume
  repeat (first
    | with_reducible exact Only.refl _ _
    | with_reducible assumption
    | ((with_reducible apply Only.step (State.startThread_only ..)); decide)
    | fail_if_no_progress with_reducible refine Only.pwr (by decide) ?_)

theorem State.waitAgain_only (s : State) (d : Nat) : Only [.dsp] s (State.waitAgain s d) := by
  unfold State.waitAgain
  repeat (first
    | with_reducible exact Only.refl _ _
    | with_reducible assumption
    | ((with_reducible apply Only.step (State.setTask_only ..)); decide))

theorem State.releaseTask_only (s : State) (d : Nat) : Only [.dsp, .prf] s (State.releaseTask s d) := by
  unfold State.releaseTask
  repeat (first
    | with_reducible exact Only.refl _ _
    | with_reducible assumption
    | ((with_reducible apply Only.step (State.waitAgain_only ..)); decide)
    | ((with_reducible apply Only.step (State.countRelease_only ..)); decide)
    | ((with_reducible apply Only.step (State.supersede_only ..)); decide)
    | ((with_reducible apply Only.step (State.unlist_only ..)); decide)
    | ((with_reducible apply Only.step (State.kickReady_only ..)); decide)
    | ((with_reducible apply Only.step (State.startInstance_only ..)); decide)
    | with_reducible refine Only.ite ?_ ?_
    | fail_if_no_progress with_reducible refine Only.dsp (by decide) ?_)

theorem State.releaseOne_only (s : State) (d : Nat) : Only [.dsp, .prf, .pwr] s (State.releaseOne s d) := by
  unfold State.releaseOne
  repeat (first
    | with_reducible exact Only.refl _ _
    | with_reducible assumption
    | ((with_reducible apply Only.step (State.releaseTask_only ..)); decide)
    | ((with_reducible apply Only.step (State.fp3Resume_only ..)); decide)
    | with_reducible refine Only.ite ?_ ?_)

theorem State.release_only (s : State) (n d : Nat) : Only [.dsp, .prf, .pwr] s (State.release s n d) := by
  induction n generalizing s d with
  | zero => exact Only.refl _ _
  | succ n ih =>
    unfold State.release
    exact Only.foldl (fun y a h => Only.step (ih _ _) (by decide) h)
      (Only.step (State.releaseOne_only ..) (by decide) (Only.refl _ _))

theorem State.releaseFrame_only (s : State) (kernels : Bool) : Only [.dsp, .prf, .pwr] s (State.releaseFrame s kernels) := by
  unfold State.releaseFrame
  repeat (first
    | with_reducible exact Only.refl _ _
    | with_reducible assumption
    | ((with_reducible apply Only.step (State.release_only ..)); decide)
    | with_reducible refine Only.ite ?_ ?_
    | with_reducible refine Only.foldl ?_ ?_
    | (intro _ _ _; try beta_reduce)
    | fail_if_no_progress with_reducible refine Only.pwr (by decide) ?_)

theorem State.decrement_only (s : State) (n d : Nat) : Only [.dsp, .cap, .prf, .evt, .lgr] s (State.decrement s n d) := by
  unfold State.decrement
  repeat (first
    | with_reducible exact Only.refl _ _
    | with_reducible assumption
    | ((with_reducible apply Only.step (State.kick_only ..)); decide)
    | ((with_reducible apply Only.step (State.enterReady_only ..)); decide)
    | ((with_reducible apply Only.step (State.traceIn_only ..)); decide)
    | ((with_reducible apply Only.step (State.raiseDevOnce_only ..)); decide)
    | ((with_reducible apply Only.step (State.pulse_only ..)); decide)
    | ((with_reducible apply Only.step (State.setTask_only ..)); decide)
    | with_reducible refine Only.ite ?_ ?_
    | fail_if_no_progress with_reducible refine Only.dsp (by decide) ?_)

theorem State.decrements_only (s : State) (n : Nat) (l : List Nat) : Only [.dsp, .cap, .prf, .evt, .lgr] s (State.decrements s n l) := by
  unfold State.decrements
  repeat (first
    | with_reducible exact Only.refl _ _
    | with_reducible assumption
    | ((with_reducible apply Only.step (State.decrement_only ..)); decide)
    | with_reducible refine Only.foldl ?_ ?_
    | (intro _ _ _; try beta_reduce))

theorem State.complete_only (s : State) (d server : Nat) : Only [.dsp, .cap, .prf, .evt, .lgr] s (State.complete s d server) := by
  unfold State.complete
  repeat (first
    | with_reducible exact Only.refl _ _
    | with_reducible assumption
    | ((with_reducible apply Only.step (State.decrements_only ..)); decide)
    | ((with_reducible apply Only.step (State.kickReady_only ..)); decide)
    | ((with_reducible apply Only.step (State.startInstance_only ..)); decide)
    | ((with_reducible apply Only.step (State.trace_only ..)); decide)
    | ((with_reducible apply Only.step (State.setTask_only ..)); decide)
    | with_reducible refine Only.ite ?_ ?_
    | fail_if_no_progress with_reducible refine Only.dsp (by decide) ?_)

theorem State.completeKernel_only (s : State) (d : Nat) : Only [.dsp, .cap, .prf, .evt, .lgr] s (State.completeKernel s d) := by
  unfold State.completeKernel
  repeat (first
    | with_reducible exact Only.refl _ _
    | with_reducible assumption
    | ((with_reducible apply Only.step (State.complete_only ..)); decide)
    | ((with_reducible apply Only.step (State.pulse_only ..)); decide)
    | fail_if_no_progress with_reducible refine Only.dsp (by decide) ?_)

theorem State.gateCheck_only (s : State) : Only [.dsp] s (State.gateCheck s) := by
  unfold State.gateCheck
  repeat (first
    | with_reducible exact Only.refl _ _
    | with_reducible assumption
    | with_reducible refine Only.ite ?_ ?_
    | fail_if_no_progress with_reducible refine Only.dsp (by decide) ?_)

theorem State.abandon_only (s : State) (ds : List Nat) : Only [.dsp, .prf] s (State.abandon s ds) := by
  unfold State.abandon
  repeat (first
    | with_reducible exact Only.refl _ _
    | with_reducible assumption
    | ((with_reducible apply Only.step (State.gateCheck_only ..)); decide)
    | ((with_reducible apply Only.step (State.trace_only ..)); decide)
    | ((with_reducible apply Only.step (State.pulseN_only ..)); decide)
    | ((with_reducible apply Only.step (State.setTask_only ..)); decide)
    | with_reducible refine Only.foldl ?_ ?_
    | (intro _ _ _; try beta_reduce))

theorem State.place_only (s : State) (l k : Nat) : Only [.frm, .dsp, .cap, .prf, .evt, .pwr, .lgr] s (State.place s l k) := by
  unfold State.place
  repeat (first
    | with_reducible exact Only.refl _ _
    | with_reducible assumption
    | ((with_reducible apply Only.step (State.tagDispatch_only ..)); decide)
    | ((with_reducible apply Only.step (State.trace_only ..)); decide)
    | ((with_reducible apply Only.step (State.setReady_only ..)); decide)
    | ((with_reducible apply Only.step (State.goto_only ..)); decide)
    | ((with_reducible apply Only.step (State.pulse_only ..)); decide)
    | ((with_reducible apply Only.step (State.setTask_only ..)); decide)
    | with_reducible refine Only.ite ?_ ?_
    | fail_if_no_progress with_reducible refine Only.dsp (by decide) ?_
    | split
    | (dsimp -proj -beta only []; split))

theorem execKernelDispatch_only (s : State) : Answers [.frm, .dsp, .cap, .prf, .evt, .pwr, .lgr] s (execKernelDispatch s) := by
  unfold execKernelDispatch
  repeat (first
    | with_reducible refine Answers.next ?_
    | with_reducible exact Only.refl _ _
    | with_reducible assumption
    | ((with_reducible apply Only.step (State.place_only ..)); decide)
    | ((with_reducible apply Only.step (State.gateCheck_only ..)); decide)
    | with_reducible refine Only.ite ?_ ?_
    | split
    | (dsimp -proj -beta only []; split))

theorem execSlotEvent_only (b : Fin 8) (p : Fin 32) (s : State) : Answers [.frm, .net, .dsp, .cap, .prf, .evt, .pwr, .lgr] s (execSlotEvent b p s) := by
  unfold execSlotEvent
  repeat (first
    | with_reducible refine Answers.next ?_
    | with_reducible exact Only.refl _ _
    | with_reducible assumption
    | ((with_reducible apply Only.step (State.decrements_only ..)); decide)
    | ((with_reducible apply Only.step (State.gotoPhase_only ..)); decide)
    | ((with_reducible apply Only.step (State.setNode_only ..)); decide)
    | with_reducible refine Only.ite ?_ ?_
    | split
    | (dsimp -proj -beta only []; split))

theorem execLnFeedbackValid_only (s : State) : Answers [.frm, .dsp, .cap, .prf, .evt, .pwr, .lgr] s (execLnFeedbackValid s) := by
  unfold execLnFeedbackValid
  repeat (first
    | with_reducible refine Answers.next ?_
    | with_reducible exact Only.refl _ _
    | with_reducible assumption
    | ((with_reducible apply Only.step (State.decrements_only ..)); decide)
    | ((with_reducible apply Only.step (State.goto_only ..)); decide)
    | with_reducible refine Only.ite ?_ ?_)

theorem State.releaseThread_only (s : State) (d : Nat) : Only [.dsp, .prf, .pwr] s (State.releaseThread s d) := by
  unfold State.releaseThread
  repeat (first
    | with_reducible exact Only.refl _ _
    | with_reducible assumption
    | ((with_reducible apply Only.step (State.release_only ..)); decide)
    | with_reducible refine Only.ite ?_ ?_
    | fail_if_no_progress with_reducible refine Only.pwr (by decide) ?_)

theorem execFirmwareRelease_only (x : FwAct) (s : State) : Answers [.dsp, .prf, .pwr] s (execFirmwareRelease x s) := by
  unfold execFirmwareRelease
  repeat (first
    | with_reducible refine Answers.next ?_
    | with_reducible exact Only.refl _ _
    | with_reducible assumption
    | ((with_reducible apply Only.step (State.releaseThread_only ..)); decide)
    | ((with_reducible apply Only.step (State.release_only ..)); decide)
    | ((with_reducible apply Only.step (State.setTask_only ..)); decide)
    | with_reducible refine Only.ite ?_ ?_
    | split
    | (dsimp -proj -beta only []; split))

theorem execFirmwareSignal_only (d : Fin 1024) (s : State) : Answers [.dsp, .cap, .prf, .evt, .lgr] s (execFirmwareSignal d s) := by
  unfold execFirmwareSignal
  repeat (first
    | with_reducible refine Answers.next ?_
    | with_reducible exact Only.refl _ _
    | with_reducible assumption
    | ((with_reducible apply Only.step (State.decrement_only ..)); decide)
    | with_reducible refine Only.ite ?_ ?_)

theorem State.gotoExpiry_only (s : State) (d : Nat) : Only [.frm, .cap, .prf, .evt, .pwr, .lgr] s (State.gotoExpiry s d) := by
  unfold State.gotoExpiry
  repeat (first
    | with_reducible exact Only.refl _ _
    | with_reducible assumption
    | ((with_reducible apply Only.step (State.gotoLatency_only ..)); decide)
    | with_reducible refine Only.ite ?_ ?_)

theorem execDelayExpiry_only (d : Fin 1024) (s : State) : Answers [.frm, .dsp, .cap, .prf, .evt, .pwr, .lgr] s (execDelayExpiry d s) := by
  unfold execDelayExpiry
  repeat (first
    | with_reducible refine Answers.next ?_
    | with_reducible exact Only.refl _ _
    | with_reducible assumption
    | ((with_reducible apply Only.step (State.gotoExpiry_only ..)); decide)
    | ((with_reducible apply Only.step (State.kick_only ..)); decide)
    | ((with_reducible apply Only.step (State.enterReady_only ..)); decide)
    | ((with_reducible apply Only.step (State.trace_only ..)); decide)
    | with_reducible refine Only.ite ?_ ?_)

theorem execTimeoutExpiry_only (d : Fin 1024) (s : State) : Answers [.frm, .dsp, .cap, .prf, .evt, .pwr, .lgr] s (execTimeoutExpiry d s) := by
  unfold execTimeoutExpiry
  repeat (first
    | with_reducible refine Answers.next ?_
    | with_reducible exact Only.refl _ _
    | with_reducible assumption
    | ((with_reducible apply Only.step (State.gotoExpiry_only ..)); decide)
    | ((with_reducible apply Only.step (State.kick_only ..)); decide)
    | ((with_reducible apply Only.step (State.enterReady_only ..)); decide)
    | ((with_reducible apply Only.step (State.trace_only ..)); decide)
    | ((with_reducible apply Only.step (State.pulse_only ..)); decide)
    | ((with_reducible apply Only.step (State.setTask_only ..)); decide)
    | with_reducible refine Only.ite ?_ ?_
    | fail_if_no_progress with_reducible refine Only.dsp (by decide) ?_)

theorem State.idleFp_only (s : State) (fp : Nat) : Only [.dsp] s (State.idleFp s fp) := by
  unfold State.idleFp
  repeat (first
    | with_reducible exact Only.refl _ _
    | with_reducible assumption
    | fail_if_no_progress with_reducible refine Only.dsp (by decide) ?_)

theorem execThreadPreempt_only (fp : Fin 4) (s : State) : Answers [.dsp, .prf] s (execThreadPreempt fp s) := by
  unfold execThreadPreempt
  repeat (first
    | with_reducible refine Answers.next ?_
    | with_reducible exact Only.refl _ _
    | with_reducible assumption
    | ((with_reducible apply Only.step (State.idleFp_only ..)); decide)
    | ((with_reducible apply Only.step (State.startThread_only ..)); decide)
    | ((with_reducible apply Only.step (State.noteDepth_only ..)); decide)
    | ((with_reducible apply Only.step (State.trace_only ..)); decide)
    | ((with_reducible apply Only.step (State.setReady_only ..)); decide)
    | ((with_reducible apply Only.step (State.pulse_only ..)); decide)
    | ((with_reducible apply Only.step (State.setTask_only ..)); decide)
    | with_reducible refine Only.ite ?_ ?_
    | fail_if_no_progress with_reducible refine Only.dsp (by decide) ?_
    | split
    | (dsimp -proj -beta only []; split))

theorem State.finishThread_only (s : State) (fp : Nat) : Only [.dsp, .cap, .prf, .evt, .lgr] s (State.finishThread s fp) := by
  unfold State.finishThread
  repeat (first
    | with_reducible exact Only.refl _ _
    | with_reducible assumption
    | ((with_reducible apply Only.step (State.idleFp_only ..)); decide)
    | ((with_reducible apply Only.step (State.complete_only ..)); decide)
    | ((with_reducible apply Only.step (State.startThread_only ..)); decide)
    | split
    | (dsimp -proj -beta only []; split))

theorem execThreadBlock_only (fp : Fin 4) (base : Fin 3) (delay t : Nat) (s : State) : Answers [.frm, .dsp, .cap, .prf, .evt, .pwr, .lgr] s (execThreadBlock fp base delay t s) := by
  unfold execThreadBlock
  repeat (first
    | with_reducible refine Answers.next ?_
    | with_reducible exact Only.refl _ _
    | with_reducible assumption
    | ((with_reducible apply Only.step (State.idleFp_only ..)); decide)
    | ((with_reducible apply Only.step (State.beginWait_only ..)); decide)
    | ((with_reducible apply Only.step (State.startThread_only ..)); decide)
    | ((with_reducible apply Only.step (State.goto_only ..)); decide)
    | split
    | (dsimp -proj -beta only []; split))

theorem execThreadYield_only (fp : Fin 4) (s : State) : Answers [.dsp, .prf] s (execThreadYield fp s) := by
  unfold execThreadYield
  repeat (first
    | with_reducible refine Answers.next ?_
    | with_reducible exact Only.refl _ _
    | with_reducible assumption
    | ((with_reducible apply Only.step (State.idleFp_only ..)); decide)
    | ((with_reducible apply Only.step (State.startThread_only ..)); decide)
    | ((with_reducible apply Only.step (State.enterReady_only ..)); decide)
    | split
    | (dsimp -proj -beta only []; split))

theorem execSubTick_only (s : State) : Answers [.frm, .dsp, .cap, .prf, .evt, .pwr, .lgr] s (execSubTick s) := by
  unfold execSubTick
  repeat (first
    | with_reducible refine Answers.next ?_
    | with_reducible exact Only.refl _ _
    | with_reducible assumption
    | ((with_reducible apply Only.step (State.goto_only ..)); decide)
    | ((with_reducible apply Only.step (State.pulseX_only ..)); decide)
    | fail_if_no_progress with_reducible refine Only.dsp (by decide) ?_)

theorem State.frameOverrun_only (s : State) (i : Nat) : Only [.frm, .cap, .prf, .evt, .lgr] s (State.frameOverrun s i) := by
  unfold State.frameOverrun
  repeat (first
    | with_reducible exact Only.refl _ _
    | with_reducible assumption
    | ((with_reducible apply Only.step (State.raiseAx_only ..)); decide)
    | with_reducible refine Only.ite ?_ ?_
    | fail_if_no_progress with_reducible refine Only.frm (by decide) ?_)

theorem State.abandonZones_only (s : State) : Only [.zones, .dsp, .prf] s (State.abandonZones s) := by
  unfold State.abandonZones
  repeat (first
    | with_reducible exact Only.refl _ _
    | with_reducible assumption
    | ((with_reducible apply Only.step (State.abandon_only ..)); decide)
    | ((with_reducible apply Only.step (State.setZone_only ..)); decide)
    | with_reducible refine Only.foldl ?_ ?_
    | (intro _ _ _; try beta_reduce))

theorem State.missDeadline_only (s : State) (ids : List Nat) : Only [.frm, .axes, .dsp, .cap, .prf, .evt, .lgr] s (State.missDeadline s ids) := by
  unfold State.missDeadline
  repeat (first
    | with_reducible exact Only.refl _ _
    | with_reducible assumption
    | ((with_reducible apply Only.step (State.frameOverrun_only ..)); decide)
    | ((with_reducible apply Only.step (State.abandon_only ..)); decide)
    | ((with_reducible apply Only.step (State.mapAxes_only ..)); decide)
    | with_reducible refine Only.foldl ?_ ?_
    | (intro _ _ _; try beta_reduce))

theorem execLnKernelDeadline_only (s : State) : Answers [.frm, .axes, .zones, .dsp, .cap, .prf, .evt, .pwr, .lgr] s (execLnKernelDeadline s) := by
  unfold execLnKernelDeadline
  repeat (first
    | with_reducible refine Answers.next ?_
    | with_reducible exact Only.refl _ _
    | with_reducible assumption
    | ((with_reducible apply Only.step (State.missDeadline_only ..)); decide)
    | ((with_reducible apply Only.step (State.abandonZones_only ..)); decide)
    | ((with_reducible apply Only.step (State.goto_only ..)); decide)
    | with_reducible refine Only.ite ?_ ?_)

theorem execOverrunSeries_only (s : State) : Answers [.frm, .cap, .prf, .evt, .lgr] s (execOverrunSeries s) := by
  unfold execOverrunSeries
  repeat (first
    | with_reducible refine Answers.next ?_
    | with_reducible exact Only.refl _ _
    | with_reducible assumption
    | ((with_reducible apply Only.step (State.raiseDev_only ..)); decide)
    | with_reducible refine Only.ite ?_ ?_
    | fail_if_no_progress with_reducible refine Only.frm (by decide) ?_)

theorem State.skipOne_only (s : State) (d : Nat) : Only [.axes, .zones, .dsp, .cap, .prf, .evt, .lgr] s (State.skipOne s d) := by
  unfold State.skipOne
  repeat (first
    | with_reducible exact Only.refl _ _
    | with_reducible assumption
    | ((with_reducible apply Only.step (State.unlist_only ..)); decide)
    | ((with_reducible apply Only.step (State.kickReady_only ..)); decide)
    | ((with_reducible apply Only.step (State.startInstance_only ..)); decide)
    | ((with_reducible apply Only.step (State.trace_only ..)); decide)
    | ((with_reducible apply Only.step (State.raise_only ..)); decide)
    | ((with_reducible apply Only.step (State.pulse_only ..)); decide)
    | ((with_reducible apply Only.step (State.setTask_only ..)); decide)
    | ((with_reducible apply Only.step (State.setZone_only ..)); decide)
    | ((with_reducible apply Only.step (State.setAxis_only ..)); decide)
    | with_reducible refine Only.ite ?_ ?_
    | fail_if_no_progress with_reducible refine Only.dsp (by decide) ?_)

theorem execU0TrailingSkip_only (s : State) : Answers [.frm, .axes, .zones, .dsp, .cap, .prf, .evt, .pwr, .lgr] s (execU0TrailingSkip s) := by
  unfold execU0TrailingSkip
  repeat (first
    | with_reducible refine Answers.next ?_
    | with_reducible exact Only.refl _ _
    | with_reducible assumption
    | ((with_reducible apply Only.step (State.skipOne_only ..)); decide)
    | ((with_reducible apply Only.step (State.gateCheck_only ..)); decide)
    | ((with_reducible apply Only.step (State.goto_only ..)); decide)
    | with_reducible refine Only.ite ?_ ?_
    | with_reducible refine Only.foldl ?_ ?_
    | (intro _ _ _; try beta_reduce)
    | fail_if_no_progress with_reducible refine Only.frm (by decide) ?_
    | fail_if_no_progress with_reducible refine Only.dsp (by decide) ?_)

theorem execFwDeadline_only (fp : Fin 4) (s : State) : Answers [.frm, .dsp, .cap, .prf, .evt, .lgr] s (execFwDeadline fp s) := by
  unfold execFwDeadline
  repeat (first
    | with_reducible refine Answers.next ?_
    | with_reducible exact Only.refl _ _
    | with_reducible assumption
    | ((with_reducible apply Only.step (State.raiseDev_only ..)); decide)
    | with_reducible refine Only.ite ?_ ?_
    | fail_if_no_progress with_reducible refine Only.frm_dsp (by decide) (by decide) ?_
    | fail_if_no_progress with_reducible refine Only.frm (by decide) ?_
    | fail_if_no_progress with_reducible refine Only.dsp (by decide) ?_)

end Sys2Proof.Machine
end

