-- ==== Sys2Proof/Laws/Relay.lean ====
section
/-! SUPPORT. What the operations of Machine/Relay change of the state: nothing outside the listed parts. -/

set_option linter.unusedTactic false
set_option linter.unreachableTactic false

namespace Sys2Proof.Machine

theorem State.relay_only (s : State) (b t : Nat) (f : List Byte) : Only [.net, .prf] s (State.relay s b t f) := by
  unfold State.relay
  repeat (first
    | with_reducible exact Only.refl _ _
    | with_reducible assumption
    | ((with_reducible apply Only.step (State.bwFrame_only ..)); decide)
    | with_reducible refine Only.ite ?_ ?_
    | with_reducible refine Only.foldl ?_ ?_
    | (intro _ _ _; try beta_reduce)
    | fail_if_no_progress with_reducible refine Only.net (by decide) ?_)

theorem State.rxFrame_only (s : State) (b t : Nat) (f : List Byte) (err : Bool) : Only [.frm, .net, .cap, .prf, .evt, .pwr, .lgr] s (State.rxFrame s b t f err) := by
  unfold State.rxFrame
  repeat (first
    | with_reducible exact Only.refl _ _
    | with_reducible assumption
    | ((with_reducible apply Only.step (State.relay_only ..)); decide)
    | ((with_reducible apply Only.step (State.bwFrame_only ..)); decide)
    | ((with_reducible apply Only.step (State.goto_only ..)); decide)
    | ((with_reducible apply Only.step (State.setPort_only ..)); decide)
    | with_reducible refine Only.ite ?_ ?_)

end Sys2Proof.Machine
end

