-- ==== Sys2Proof/Laws/Network.lean ====
section
/-! SUPPORT. What the operations of Machine/Network change of the state: nothing outside the listed parts. -/

set_option linter.unusedTactic false
set_option linter.unreachableTactic false

namespace Sys2Proof.Machine

theorem State.stray_only (s : State) (b : Nat) : Only [.net, .cap, .prf, .evt, .lgr] s (State.stray s b) := by
  unfold State.stray
  repeat (first
    | with_reducible exact Only.refl _ _
    | with_reducible assumption
    | ((with_reducible apply Only.step (State.raiseOnce_only ..)); decide)
    | ((with_reducible apply Only.step (State.setBranch_only ..)); decide))

theorem State.slotHappens_only (s : State) (b p t : Nat) : Only [.net] s (State.slotHappens s b p t) := by
  unfold State.slotHappens
  repeat (first
    | with_reducible exact Only.refl _ _
    | with_reducible assumption
    | ((with_reducible apply Only.step (State.setNode_only ..)); decide)
    | ((with_reducible apply Only.step (State.setBranch_only ..)); decide)
    | with_reducible refine Only.ite ?_ ?_)

theorem State.slotValid_only (s : State) (b p t : Nat) (f : List Byte) : Only [.net, .cap, .prf, .evt, .lgr] s (State.slotValid s b p t f) := by
  unfold State.slotValid
  repeat (first
    | with_reducible exact Only.refl _ _
    | with_reducible assumption
    | ((with_reducible apply Only.step (State.slotHappens_only ..)); decide)
    | ((with_reducible apply Only.step (State.raiseNode_only ..)); decide)
    | ((with_reducible apply Only.step (State.pulseX_only ..)); decide)
    | ((with_reducible apply Only.step (State.setNode_only ..)); decide)
    | with_reducible refine Only.ite ?_ ?_)

theorem State.judgeStatic_only (s : State) (b t : Nat) (f : List Byte) (err : Bool) : Only [.net, .cap, .prf, .evt, .lgr] s (State.judgeStatic s b t f err) := by
  unfold State.judgeStatic
  repeat (first
    | with_reducible exact Only.refl _ _
    | with_reducible assumption
    | ((with_reducible apply Only.step (State.slotValid_only ..)); decide)
    | ((with_reducible apply Only.step (State.stray_only ..)); decide)
    | ((with_reducible apply Only.step (State.setNode_only ..)); decide)
    | with_reducible refine Only.ite ?_ ?_
    | split
    | (dsimp -proj -beta only []; split)
    | split
    | (dsimp -proj -beta only []; split))

theorem execStaticFrameReceived_only (b : Fin 8) (bytes : List Byte) (t : Nat) (err : Bool) (s : State) : Answers [.frm, .net, .cap, .prf, .evt, .pwr, .lgr] s (execStaticFrameReceived b bytes t err s) := by
  unfold execStaticFrameReceived
  repeat (first
    | with_reducible refine Answers.next ?_
    | with_reducible exact Only.refl _ _
    | with_reducible assumption
    | ((with_reducible apply Only.step (State.judgeStatic_only ..)); decide)
    | ((with_reducible apply Only.step (State.stray_only ..)); decide)
    | ((with_reducible apply Only.step (State.rxFrame_only ..)); decide)
    | with_reducible refine Only.ite ?_ ?_)

theorem execSlotDeadline_only (b : Fin 8) (p : Fin 32) (s : State) : Answers [.frm, .net, .cap, .prf, .evt, .pwr, .lgr] s (execSlotDeadline b p s) := by
  unfold execSlotDeadline
  repeat (first
    | with_reducible refine Answers.next ?_
    | with_reducible exact Only.refl _ _
    | with_reducible assumption
    | ((with_reducible apply Only.step (State.slotHappens_only ..)); decide)
    | ((with_reducible apply Only.step (State.goto_only ..)); decide)
    | with_reducible refine Only.ite ?_ ?_)

theorem State.keeperReport_only (s : State) (b p : Nat) (body : List Byte) : Only [.red] s (State.keeperReport s b p body) := by
  unfold State.keeperReport
  repeat (first
    | with_reducible exact Only.refl _ _
    | with_reducible assumption
    | with_reducible refine Only.foldl ?_ ?_
    | (intro _ _ _; try beta_reduce)
    | fail_if_no_progress with_reducible refine Only.red (by decide) ?_
    | split
    | (dsimp -proj -beta only []; split))

theorem State.dynTake_only (s : State) (b p : Nat) (f : List Byte) : Only [.net, .red] s (State.dynTake s b p f) := by
  unfold State.dynTake
  repeat (first
    | with_reducible exact Only.refl _ _
    | with_reducible assumption
    | ((with_reducible apply Only.step (State.keeperReport_only ..)); decide)
    | ((with_reducible apply Only.step (State.setNode_only ..)); decide)
    | with_reducible refine Only.ite ?_ ?_)

theorem State.credit_only (s : State) (b m c : Nat) : Only [.net] s (State.credit s b m c) := by
  unfold State.credit
  repeat (first
    | with_reducible exact Only.refl _ _
    | with_reducible assumption
    | ((with_reducible apply Only.step (State.setBranch_only ..)); decide)
    | with_reducible refine Only.ite ?_ ?_)

theorem execDynamicUplinkReceived_only (b : Fin 8) (bytes : List Byte) (t : Nat) (err : Bool) (s : State) : Answers [.frm, .net, .red, .cap, .prf, .evt, .pwr, .lgr] s (execDynamicUplinkReceived b bytes t err s) := by
  unfold execDynamicUplinkReceived
  repeat (first
    | with_reducible refine Answers.next ?_
    | with_reducible exact Only.refl _ _
    | with_reducible assumption
    | ((with_reducible apply Only.step (State.credit_only ..)); decide)
    | ((with_reducible apply Only.step (State.dynTake_only ..)); decide)
    | ((with_reducible apply Only.step (State.stray_only ..)); decide)
    | ((with_reducible apply Only.step (State.rxFrame_only ..)); decide)
    | with_reducible refine Only.ite ?_ ?_
    | split
    | (dsimp -proj -beta only []; split)
    | split
    | (dsimp -proj -beta only []; split))

theorem State.finalSlot_only (s : State) (b p : Nat) : Only [.net, .cap, .prf, .evt, .lgr] s (State.finalSlot s b p) := by
  unfold State.finalSlot
  repeat (first
    | with_reducible exact Only.refl _ _
    | with_reducible assumption
    | ((with_reducible apply Only.step (State.raiseNode_only ..)); decide)
    | ((with_reducible apply Only.step (State.pulseX_only ..)); decide)
    | ((with_reducible apply Only.step (State.setNode_only ..)); decide)
    | with_reducible refine Only.ite ?_ ?_)

theorem execSlotOutcomeFinal_only (b : Fin 8) (s : State) : Answers [.frm, .net, .cap, .prf, .evt, .pwr, .lgr] s (execSlotOutcomeFinal b s) := by
  unfold execSlotOutcomeFinal
  repeat (first
    | with_reducible refine Answers.next ?_
    | with_reducible exact Only.refl _ _
    | with_reducible assumption
    | ((with_reducible apply Only.step (State.finalSlot_only ..)); decide)
    | ((with_reducible apply Only.step (State.goto_only ..)); decide)
    | ((with_reducible apply Only.step (State.setBranch_only ..)); decide)
    | with_reducible refine Only.ite ?_ ?_
    | with_reducible refine Only.foldl ?_ ?_
    | (intro _ _ _; try beta_reduce)
    | fail_if_no_progress with_reducible refine Only.net (by decide) ?_)

theorem execNodeLost_only (b : Fin 8) (p : Fin 32) (s : State) : Answers [.net, .cap, .prf, .evt, .lgr] s (execNodeLost b p s) := by
  unfold execNodeLost
  repeat (first
    | with_reducible refine Answers.next ?_
    | with_reducible exact Only.refl _ _
    | with_reducible assumption
    | ((with_reducible apply Only.step (State.raiseNode_only ..)); decide)
    | ((with_reducible apply Only.step (State.setNode_only ..)); decide)
    | with_reducible refine Only.ite ?_ ?_)

theorem State.startBlock_only (s : State) (b : Nat) : Only [.frm, .net, .prf] s (State.startBlock s b) := by
  unfold State.startBlock
  repeat (first
    | with_reducible exact Only.refl _ _
    | with_reducible assumption
    | ((with_reducible apply Only.step (State.turn_only ..)); decide)
    | ((with_reducible apply Only.step (State.tagPack_only ..)); decide)
    | ((with_reducible apply Only.step (State.bwFrame_only ..)); decide)
    | ((with_reducible apply Only.step (State.pulseX_only ..)); decide)
    | ((with_reducible apply Only.step (State.setBranch_only ..)); decide)
    | with_reducible refine Only.ite ?_ ?_
    | fail_if_no_progress with_reducible refine Only.frm (by decide) ?_)

theorem execCommandBlockStart_only (b : Fin 8) (s : State) : Answers [.frm, .net, .cap, .prf, .evt, .pwr, .lgr] s (execCommandBlockStart b s) := by
  unfold execCommandBlockStart
  repeat (first
    | with_reducible refine Answers.next ?_
    | with_reducible exact Only.refl _ _
    | with_reducible assumption
    | ((with_reducible apply Only.step (State.startBlock_only ..)); decide)
    | ((with_reducible apply Only.step (State.goto_only ..)); decide)
    | with_reducible refine Only.ite ?_ ?_)

theorem execCommandBlockDeadline_only (b : Fin 8) (s : State) : Answers [.frm, .axes, .zones, .net, .dsp, .cap, .prf, .evt, .pwr, .lgr] s (execCommandBlockDeadline b s) := by
  unfold execCommandBlockDeadline
  repeat (first
    | with_reducible refine Answers.next ?_
    | with_reducible exact Only.refl _ _
    | with_reducible assumption
    | ((with_reducible apply Only.step (State.startBlock_only ..)); decide)
    | ((with_reducible apply Only.step (State.missDeadline_only ..)); decide)
    | ((with_reducible apply Only.step (State.abandonZones_only ..)); decide)
    | ((with_reducible apply Only.step (State.goto_only ..)); decide)
    | ((with_reducible apply Only.step (State.setBranch_only ..)); decide)
    | with_reducible refine Only.ite ?_ ?_)

theorem State.sendDyn_only (s : State) (b t : Nat) (f : List Byte) : Only [.frm, .net, .cap, .prf, .evt, .pwr, .lgr] s (State.sendDyn s b t f) := by
  unfold State.sendDyn
  repeat (first
    | with_reducible exact Only.refl _ _
    | with_reducible assumption
    | ((with_reducible apply Only.step (State.bwFrame_only ..)); decide)
    | ((with_reducible apply Only.step (State.goto_only ..)); decide)
    | ((with_reducible apply Only.step (State.setBranch_only ..)); decide))

theorem execDynamicDownlinkFrame_only (b : Fin 8) (s : State) : Answers [.frm, .net, .cap, .prf, .evt, .pwr, .lgr] s (execDynamicDownlinkFrame b s) := by
  unfold execDynamicDownlinkFrame
  repeat (first
    | with_reducible refine Answers.next ?_
    | with_reducible exact Only.refl _ _
    | with_reducible assumption
    | ((with_reducible apply Only.step (State.sendDyn_only ..)); decide)
    | ((with_reducible apply Only.step (State.setNode_only ..)); decide)
    | ((with_reducible apply Only.step (State.setBranch_only ..)); decide)
    | with_reducible refine Only.ite ?_ ?_
    | split
    | (dsimp -proj -beta only []; split))

theorem execDlyTrimAverage_only (b : Fin 8) (p : Fin 32) (s : State) : Answers [.net, .cap, .prf, .evt, .lgr] s (execDlyTrimAverage b p s) := by
  unfold execDlyTrimAverage
  repeat (first
    | with_reducible refine Answers.next ?_
    | with_reducible exact Only.refl _ _
    | with_reducible assumption
    | ((with_reducible apply Only.step (State.raiseNode_only ..)); decide)
    | ((with_reducible apply Only.step (State.setNode_only ..)); decide)
    | ((with_reducible apply Only.step (State.setBranch_only ..)); decide)
    | with_reducible refine Only.ite ?_ ?_)

theorem State.setPortOf_only (s : State) (k : Nat) (p : Port) : Only [.net] s (State.setPortOf s k p) := by
  unfold State.setPortOf
  repeat (first
    | with_reducible exact Only.refl _ _
    | with_reducible assumption
    | ((with_reducible apply Only.step (State.setPort_only ..)); decide)
    | with_reducible refine Only.ite ?_ ?_
    | fail_if_no_progress with_reducible refine Only.net (by decide) ?_)

theorem execLinkUp_only (port : Fin 9) (sync : Bool) (t : Nat) (s : State) : Answers [.frm, .net, .cap, .prf, .evt, .pwr, .lgr] s (execLinkUp port sync t s) := by
  unfold execLinkUp
  repeat (first
    | with_reducible refine Answers.next ?_
    | with_reducible exact Only.refl _ _
    | with_reducible assumption
    | ((with_reducible apply Only.step (State.setPortOf_only ..)); decide)
    | ((with_reducible apply Only.step (State.goto_only ..)); decide)
    | with_reducible refine Only.ite ?_ ?_)

theorem execLinkDown_only (port : Fin 9) (x : SyncLoss) (s : State) : Answers [.frm, .net, .cap, .prf, .evt, .pwr, .lgr] s (execLinkDown port x s) := by
  unfold execLinkDown
  repeat (first
    | with_reducible refine Answers.next ?_
    | with_reducible exact Only.refl _ _
    | with_reducible assumption
    | ((with_reducible apply Only.step (State.setPortOf_only ..)); decide)
    | ((with_reducible apply Only.step (State.goto_only ..)); decide)
    | ((with_reducible apply Only.step (State.raiseOnce_only ..)); decide)
    | with_reducible refine Only.ite ?_ ?_)

theorem State.hostWord_only (s : State) (w : W32) : Only [.prf, .host] s (State.hostWord s w) := by
  unfold State.hostWord
  repeat (first
    | with_reducible exact Only.refl _ _
    | with_reducible assumption
    | ((with_reducible apply Only.step (State.bwBytes_only ..)); decide)
    | ((with_reducible apply Only.step (State.pulseX_only ..)); decide)
    | fail_if_no_progress with_reducible refine Only.host (by decide) ?_)

theorem State.hostWrite_only (s : State) : Only [.prf, .host] s (State.hostWrite s) := by
  unfold State.hostWrite
  repeat (first
    | with_reducible exact Only.refl _ _
    | with_reducible assumption
    | ((with_reducible apply Only.step (State.bwBytes_only ..)); decide)
    | ((with_reducible apply Only.step (State.pulseX_only ..)); decide)
    | fail_if_no_progress with_reducible refine Only.host (by decide) ?_)

theorem execNetOfsrange_only (s : State) : Answers [.net, .prf, .host] s (execNetOfsrange s) := by
  unfold execNetOfsrange
  repeat (first
    | with_reducible refine Answers.next ?_
    | with_reducible exact Only.refl _ _
    | with_reducible assumption
    | ((with_reducible apply Only.step (State.hostWord_only ..)); decide)
    | ((with_reducible apply Only.step (State.setNode_only ..)); decide))

theorem execNetHeadidLo_only (s : State) : Answers [.prf, .host] s (execNetHeadidLo s) := by
  unfold execNetHeadidLo
  repeat (first
    | with_reducible refine Answers.next ?_
    | with_reducible exact Only.refl _ _
    | with_reducible assumption
    | ((with_reducible apply Only.step (State.hostWord_only ..)); decide))

theorem execNetPeeridLo_only (s : State) : Answers [.net, .prf, .host] s (execNetPeeridLo s) := by
  unfold execNetPeeridLo
  repeat (first
    | with_reducible refine Answers.next ?_
    | with_reducible exact Only.refl _ _
    | with_reducible assumption
    | ((with_reducible apply Only.step (State.hostWord_only ..)); decide)
    | fail_if_no_progress with_reducible refine Only.net (by decide) ?_)

end Sys2Proof.Machine
end

