-- ==== Sys2Proof/Laws/Join.lean ====
section
/-! SUPPORT. What the operations of Machine/Join change of the state: nothing outside the listed parts. -/

set_option linter.unusedTactic false
set_option linter.unreachableTactic false

namespace Sys2Proof.Machine

theorem State.listen_only (s : State) (cs : CsState) (since : Nat) : Only [.net] s (State.listen s cs since) := by
  unfold State.listen
  repeat (first
    | with_reducible exact Only.refl _ _
    | with_reducible assumption
    | fail_if_no_progress with_reducible refine Only.net (by decide) ?_)

theorem execColdstartStart_only (s : State) : Answers [.net] s (execColdstartStart s) := by
  unfold execColdstartStart
  repeat (first
    | with_reducible refine Answers.next ?_
    | with_reducible exact Only.refl _ _
    | with_reducible assumption
    | ((with_reducible apply Only.step (State.listen_only ..)); decide)
    | with_reducible refine Only.ite ?_ ?_)

theorem State.standbyRole_only (s : State) : Only [.frm, .net, .prf, .evt] s (State.standbyRole s) := by
  unfold State.standbyRole
  repeat (first
    | with_reducible exact Only.refl _ _
    | with_reducible assumption
    | ((with_reducible apply Only.step (State.setRole_only ..)); decide)
    | fail_if_no_progress with_reducible refine Only.frm_net (by decide) (by decide) ?_
    | fail_if_no_progress with_reducible refine Only.frm (by decide) ?_
    | fail_if_no_progress with_reducible refine Only.net (by decide) ?_)

theorem State.yieldStart_only (s : State) (cs : CsState) (since : Nat) : Only [.frm, .net, .cap, .prf, .evt, .lgr] s (State.yieldStart s cs since) := by
  unfold State.yieldStart
  repeat (first
    | with_reducible exact Only.refl _ _
    | with_reducible assumption
    | ((with_reducible apply Only.step (State.standbyRole_only ..)); decide)
    | ((with_reducible apply Only.step (State.listen_only ..)); decide)
    | ((with_reducible apply Only.step (State.raiseDev_only ..)); decide)
    | with_reducible refine Only.ite ?_ ?_
    | fail_if_no_progress with_reducible refine Only.net (by decide) ?_)

theorem State.cycleOn_only (s : State) : Only [.net] s (State.cycleOn s) := by
  unfold State.cycleOn
  repeat (first
    | with_reducible exact Only.refl _ _
    | with_reducible assumption
    | ((with_reducible apply Only.step (State.setBranch_only ..)); decide)
    | with_reducible refine Only.foldl ?_ ?_
    | (intro _ _ _; try beta_reduce)
    | fail_if_no_progress with_reducible refine Only.net (by decide) ?_)

theorem State.headStart_only (s : State) (t : Nat) : Only [.frm, .net] s (State.headStart s t) := by
  unfold State.headStart
  repeat (first
    | with_reducible exact Only.refl _ _
    | with_reducible assumption
    | ((with_reducible apply Only.step (State.cycleOn_only ..)); decide)
    | fail_if_no_progress with_reducible refine Only.frm_net (by decide) (by decide) ?_
    | fail_if_no_progress with_reducible refine Only.frm (by decide) ?_
    | fail_if_no_progress with_reducible refine Only.net (by decide) ?_)

theorem execListenWindowExpiry_only (s : State) : Answers [.frm, .net, .cap, .prf, .evt, .pwr, .lgr] s (execListenWindowExpiry s) := by
  unfold execListenWindowExpiry
  repeat (first
    | with_reducible refine Answers.next ?_
    | with_reducible exact Only.refl _ _
    | with_reducible assumption
    | ((with_reducible apply Only.step (State.headStart_only ..)); decide)
    | ((with_reducible apply Only.step (State.yieldStart_only ..)); decide)
    | ((with_reducible apply Only.step (State.goto_only ..)); decide)
    | with_reducible refine Only.ite ?_ ?_)

theorem State.loseSync_only (s : State) (k : Nat) : Only [.net, .cap, .prf, .evt, .lgr] s (State.loseSync s k) := by
  unfold State.loseSync
  repeat (first
    | with_reducible exact Only.refl _ _
    | with_reducible assumption
    | ((with_reducible apply Only.step (State.listen_only ..)); decide)
    | ((with_reducible apply Only.step (State.raise_only ..)); decide)
    | ((with_reducible apply Only.step (State.setJoin_only ..)); decide)
    | fail_if_no_progress with_reducible refine Only.net (by decide) ?_)

theorem State.correct_only (s : State) (k : Nat) (e : Int) : Only [.frm, .net] s (State.correct s k e) := by
  unfold State.correct
  repeat (first
    | with_reducible exact Only.refl _ _
    | with_reducible assumption
    | with_reducible refine Only.ite ?_ ?_
    | fail_if_no_progress with_reducible refine Only.frm (by decide) ?_
    | fail_if_no_progress with_reducible refine Only.net (by decide) ?_)

theorem State.joinListen_only (s : State) (k : Nat) (c : Csm) : Only [.frm, .net] s (State.joinListen s k c) := by
  unfold State.joinListen
  repeat (first
    | with_reducible exact Only.refl _ _
    | with_reducible assumption
    | ((with_reducible apply Only.step (State.setJoin_only ..)); decide)
    | with_reducible refine Only.ite ?_ ?_
    | fail_if_no_progress with_reducible refine Only.frm (by decide) ?_
    | fail_if_no_progress with_reducible refine Only.net (by decide) ?_)

theorem State.takeCsm_only (s : State) (k : Nat) (c : Csm) : Only [.frm, .net, .red] s (State.takeCsm s k c) := by
  unfold State.takeCsm
  repeat (first
    | with_reducible exact Only.refl _ _
    | with_reducible assumption
    | ((with_reducible apply Only.step (State.correct_only ..)); decide)
    | ((with_reducible apply Only.step (State.setJoin_only ..)); decide)
    | with_reducible refine Only.ite ?_ ?_
    | fail_if_no_progress with_reducible refine Only.net_red (by decide) (by decide) ?_
    | fail_if_no_progress with_reducible refine Only.net (by decide) ?_
    | fail_if_no_progress with_reducible refine Only.red (by decide) ?_)

theorem State.decideCsm_only (s : State) (k : Nat) : Only [.frm, .net, .red, .cap, .prf, .evt, .lgr] s (State.decideCsm s k) := by
  unfold State.decideCsm
  repeat (first
    | with_reducible exact Only.refl _ _
    | with_reducible assumption
    | ((with_reducible apply Only.step (State.takeCsm_only ..)); decide)
    | ((with_reducible apply Only.step (State.loseSync_only ..)); decide)
    | ((with_reducible apply Only.step (State.listen_only ..)); decide)
    | ((with_reducible apply Only.step (State.setJoin_only ..)); decide)
    | with_reducible refine Only.ite ?_ ?_
    | split
    | (dsimp -proj -beta only []; split))

theorem State.hearCsm_only (s : State) (k : Nat) (c : Csm) : Only [.net] s (State.hearCsm s k c) := by
  unfold State.hearCsm
  repeat (first
    | with_reducible exact Only.refl _ _
    | with_reducible assumption
    | ((with_reducible apply Only.step (State.listen_only ..)); decide)
    | ((with_reducible apply Only.step (State.setJoin_only ..)); decide)
    | with_reducible refine Only.ite ?_ ?_)

theorem State.setHashMm_only (s : State) (k : Nat) (on : Bool) : Only [.net] s (State.setHashMm s k on) := by
  unfold State.setHashMm
  repeat (first
    | with_reducible exact Only.refl _ _
    | with_reducible assumption
    | with_reducible refine Only.ite ?_ ?_
    | fail_if_no_progress with_reducible refine Only.net (by decide) ?_)

theorem execCsmReceived_only (b : Fin 8) (bytes : List Byte) (x : Arrival) (s : State) : Answers [.frm, .net, .cap, .prf, .evt, .pwr, .lgr] s (execCsmReceived b bytes x s) := by
  unfold execCsmReceived
  repeat (first
    | with_reducible refine Answers.next ?_
    | with_reducible exact Only.refl _ _
    | with_reducible assumption
    | ((with_reducible apply Only.step (State.setHashMm_only ..)); decide)
    | ((with_reducible apply Only.step (State.hearCsm_only ..)); decide)
    | ((with_reducible apply Only.step (State.joinListen_only ..)); decide)
    | ((with_reducible apply Only.step (State.loseSync_only ..)); decide)
    | ((with_reducible apply Only.step (State.listen_only ..)); decide)
    | ((with_reducible apply Only.step (State.rxFrame_only ..)); decide)
    | with_reducible refine Only.ite ?_ ?_
    | split
    | (dsimp -proj -beta only []; split))

theorem State.observeBlock_only (s : State) (k : Nat) (f : List Byte) : Only [.red] s (State.observeBlock s k f) := by
  unfold State.observeBlock
  repeat (first
    | with_reducible exact Only.refl _ _
    | with_reducible assumption
    | with_reducible refine Only.ite ?_ ?_
    | with_reducible refine Only.foldl ?_ ?_
    | (intro _ _ _; try beta_reduce)
    | fail_if_no_progress with_reducible refine Only.red (by decide) ?_
    | split
    | (dsimp -proj -beta only []; split))

theorem execCommandBlockReceived_only (b : Fin 8) (bytes : List Byte) (t : Nat) (s : State) : Answers [.frm, .net, .red, .cap, .prf, .evt, .pwr, .lgr] s (execCommandBlockReceived b bytes t s) := by
  unfold execCommandBlockReceived
  repeat (first
    | with_reducible refine Answers.next ?_
    | with_reducible exact Only.refl _ _
    | with_reducible assumption
    | ((with_reducible apply Only.step (State.observeBlock_only ..)); decide)
    | ((with_reducible apply Only.step (State.rxFrame_only ..)); decide)
    | ((with_reducible apply Only.step (State.setJoin_only ..)); decide)
    | with_reducible refine Only.ite ?_ ?_
    | split
    | (dsimp -proj -beta only []; split))

theorem execKeeperFrameReceived_only (b : Fin 8) (bytes : List Byte) (t : Nat) (s : State) : Answers [.frm, .net, .cap, .prf, .evt, .pwr, .lgr] s (execKeeperFrameReceived b bytes t s) := by
  unfold execKeeperFrameReceived
  repeat (first
    | with_reducible refine Answers.next ?_
    | with_reducible exact Only.refl _ _
    | with_reducible assumption
    | ((with_reducible apply Only.step (State.rxFrame_only ..)); decide)
    | with_reducible refine Only.ite ?_ ?_
    | with_reducible refine Only.foldl ?_ ?_
    | (intro _ _ _; try beta_reduce)
    | fail_if_no_progress with_reducible refine Only.net (by decide) ?_
    | split
    | (dsimp -proj -beta only []; split))

theorem execDlyTrimReceived_only (b : Fin 8) (bytes : List Byte) (t : Nat) (s : State) : Answers [.frm, .net, .cap, .prf, .evt, .pwr, .lgr] s (execDlyTrimReceived b bytes t s) := by
  unfold execDlyTrimReceived
  repeat (first
    | with_reducible refine Answers.next ?_
    | with_reducible exact Only.refl _ _
    | with_reducible assumption
    | ((with_reducible apply Only.step (State.rxFrame_only ..)); decide)
    | ((with_reducible apply Only.step (State.setJoin_only ..)); decide)
    | with_reducible refine Only.ite ?_ ?_)

theorem State.turn_only (s : State) (k : Nat) : Only [.net] s (State.turn s k) := by
  unfold State.turn
  repeat (first
    | with_reducible exact Only.refl _ _
    | with_reducible assumption
    | with_reducible refine Only.ite ?_ ?_
    | fail_if_no_progress with_reducible refine Only.net (by decide) ?_
    | split
    | (dsimp -proj -beta only []; split))

theorem execOrientationDecision_only (s : State) : Answers [.frm, .net, .red, .cap, .prf, .evt, .pwr, .lgr] s (execOrientationDecision s) := by
  unfold execOrientationDecision
  repeat (first
    | with_reducible refine Answers.next ?_
    | with_reducible exact Only.refl _ _
    | with_reducible assumption
    | ((with_reducible apply Only.step (State.turn_only ..)); decide)
    | ((with_reducible apply Only.step (State.decideCsm_only ..)); decide)
    | ((with_reducible apply Only.step (State.goto_only ..)); decide)
    | with_reducible refine Only.ite ?_ ?_)

theorem execNodeStaticTransmit_only (s : State) : Answers [.frm, .net, .cap, .prf, .evt, .pwr, .lgr] s (execNodeStaticTransmit s) := by
  unfold execNodeStaticTransmit
  repeat (first
    | with_reducible refine Answers.next ?_
    | with_reducible exact Only.refl _ _
    | with_reducible assumption
    | ((with_reducible apply Only.step (State.bwFrame_only ..)); decide)
    | ((with_reducible apply Only.step (State.goto_only ..)); decide)
    | with_reducible refine Only.ite ?_ ?_
    | fail_if_no_progress with_reducible refine Only.net (by decide) ?_)

theorem execNodeDynamicTransmit_only (slot : Fin 32) (s : State) : Answers [.frm, .net, .cap, .prf, .evt, .pwr, .lgr] s (execNodeDynamicTransmit slot s) := by
  unfold execNodeDynamicTransmit
  repeat (first
    | with_reducible refine Answers.next ?_
    | with_reducible exact Only.refl _ _
    | with_reducible assumption
    | ((with_reducible apply Only.step (State.bwFrame_only ..)); decide)
    | ((with_reducible apply Only.step (State.goto_only ..)); decide)
    | with_reducible refine Only.ite ?_ ?_
    | fail_if_no_progress with_reducible refine Only.net (by decide) ?_
    | split
    | (dsimp -proj -beta only []; split))

theorem execFence_only (_b : Fin 8) (s : State) : Answers [.frm, .net, .cap, .prf, .evt, .pwr, .lgr] s (execFence _b s) := by
  unfold execFence
  repeat (first
    | with_reducible refine Answers.next ?_
    | with_reducible exact Only.refl _ _
    | with_reducible assumption
    | ((with_reducible apply Only.step (State.goto_only ..)); decide)
    | with_reducible refine Only.ite ?_ ?_
    | with_reducible refine Only.foldl ?_ ?_
    | (intro _ _ _; try beta_reduce)
    | fail_if_no_progress with_reducible refine Only.net (by decide) ?_
    | split
    | (dsimp -proj -beta only []; split))

theorem execProcessDataReceived_only (b : Fin 8) (bytes : List Byte) (t : Nat) (s : State) : Answers [.frm, .net, .cap, .prf, .evt, .pwr, .lgr] s (execProcessDataReceived b bytes t s) := by
  unfold execProcessDataReceived
  repeat (first
    | with_reducible refine Answers.next ?_
    | with_reducible exact Only.refl _ _
    | with_reducible assumption
    | ((with_reducible apply Only.step (State.rxFrame_only ..)); decide)
    | with_reducible refine Only.ite ?_ ?_
    | fail_if_no_progress with_reducible refine Only.net (by decide) ?_)

end Sys2Proof.Machine
end

