-- ==== Sys2Proof/Laws/Feed.lean ====
section
/-! SUPPORT. What the operations of Machine/Feed change of the state: nothing outside the listed parts. -/

set_option linter.unusedTactic false
set_option linter.unreachableTactic false

namespace Sys2Proof.Machine

theorem State.feedTake_only (s : State) : Only [.host] s (State.feedTake s) := by
  unfold State.feedTake
  repeat (first
    | with_reducible exact Only.refl _ _
    | with_reducible assumption
    | fail_if_no_progress with_reducible refine Only.host (by decide) ?_)

end Sys2Proof.Machine
end

