-- ==== Sys2Proof/Laws/Frame.lean ====
section
/-! SUPPORT. What the operations of Machine/Frame change of the state: nothing outside the listed parts. -/

set_option linter.unusedTactic false
set_option linter.unreachableTactic false

namespace Sys2Proof.Machine

theorem State.frameStats_only (s : State) : Only [.frm, .evt, .pwr] s (State.frameStats s) := by
  unfold State.frameStats
  repeat (first
    | with_reducible exact Only.refl _ _
    | with_reducible assumption
    | with_reducible refine Only.ite ?_ ?_
    | fail_if_no_progress with_reducible refine Only.frm_evt_pwr (by decide) (by decide) (by decide) ?_
    | fail_if_no_progress with_reducible refine Only.frm (by decide) ?_
    | fail_if_no_progress with_reducible refine Only.evt (by decide) ?_
    | fail_if_no_progress with_reducible refine Only.pwr (by decide) ?_)

theorem State.sendCsm_only (s : State) (b : Nat) : Only [.net, .prf] s (State.sendCsm s b) := by
  unfold State.sendCsm
  repeat (first
    | with_reducible exact Only.refl _ _
    | with_reducible assumption
    | ((with_reducible apply Only.step (State.bwFrame_only ..)); decide)
    | ((with_reducible apply Only.step (State.pulseX_only ..)); decide)
    | ((with_reducible apply Only.step (State.setNode_only ..)); decide)
    | ((with_reducible apply Only.step (State.setBranch_only ..)); decide)
    | ((with_reducible apply Only.step (State.setPort_only ..)); decide)
    | with_reducible refine Only.foldl ?_ ?_
    | (intro _ _ _; try beta_reduce))

theorem State.headSends_only (s : State) : Only [.net, .red, .prf] s (State.headSends s) := by
  unfold State.headSends
  repeat (first
    | with_reducible exact Only.refl _ _
    | with_reducible assumption
    | ((with_reducible apply Only.step (State.sendCsm_only ..)); decide)
    | with_reducible refine Only.ite ?_ ?_
    | with_reducible refine Only.foldl ?_ ?_
    | (intro _ _ _; try beta_reduce)
    | fail_if_no_progress with_reducible refine Only.net (by decide) ?_
    | fail_if_no_progress with_reducible refine Only.red (by decide) ?_)

theorem State.paramSends_only (s : State) : Only [.red] s (State.paramSends s) := by
  unfold State.paramSends
  repeat (first
    | with_reducible exact Only.refl _ _
    | with_reducible assumption
    | with_reducible refine Only.ite ?_ ?_
    | fail_if_no_progress with_reducible refine Only.red (by decide) ?_)

theorem State.followerTick_only (s : State) : Only [.frm, .net, .red] s (State.followerTick s) := by
  unfold State.followerTick
  repeat (first
    | with_reducible exact Only.refl _ _
    | with_reducible assumption
    | with_reducible refine Only.ite ?_ ?_
    | with_reducible refine Only.foldl ?_ ?_
    | (intro _ _ _; try beta_reduce)
    | fail_if_no_progress with_reducible refine Only.frm_net_red (by decide) (by decide) (by decide) ?_
    | fail_if_no_progress with_reducible refine Only.frm (by decide) ?_
    | fail_if_no_progress with_reducible refine Only.net (by decide) ?_
    | fail_if_no_progress with_reducible refine Only.red (by decide) ?_)

theorem State.redFrameEnd_only (s : State) : Only [.red] s (State.redFrameEnd s) := by
  unfold State.redFrameEnd
  repeat (first
    | with_reducible exact Only.refl _ _
    | with_reducible assumption
    | with_reducible refine Only.ite ?_ ?_
    | with_reducible refine Only.foldl ?_ ?_
    | (intro _ _ _; try beta_reduce)
    | fail_if_no_progress with_reducible refine Only.red (by decide) ?_)

theorem State.setTk_only (s : State) (n : Nat) : Only [.red, .prf, .evt] s (State.setTk s n) := by
  unfold State.setTk
  repeat (first
    | with_reducible exact Only.refl _ _
    | with_reducible assumption
    | ((with_reducible apply Only.step (State.irq_only ..)); decide)
    | with_reducible refine Only.ite ?_ ?_
    | fail_if_no_progress with_reducible refine Only.red (by decide) ?_)

theorem State.redTick_only (s : State) : Only [.red, .prf, .evt] s (State.redTick s) := by
  unfold State.redTick
  repeat (first
    | with_reducible exact Only.refl _ _
    | with_reducible assumption
    | ((with_reducible apply Only.step (State.setTk_only ..)); decide)
    | with_reducible refine Only.ite ?_ ?_)

theorem State.lsyncRise_only (s : State) : Only [.frm] s (State.lsyncRise s) := by
  unfold State.lsyncRise
  repeat (first
    | with_reducible exact Only.refl _ _
    | with_reducible assumption
    | with_reducible refine Only.ite ?_ ?_
    | fail_if_no_progress with_reducible refine Only.frm (by decide) ?_)

theorem State.lockSlew_only (s : State) : Only [.frm] s (State.lockSlew s) := by
  unfold State.lockSlew
  repeat (first
    | with_reducible exact Only.refl _ _
    | with_reducible assumption
    | with_reducible refine Only.ite ?_ ?_
    | fail_if_no_progress with_reducible refine Only.frm (by decide) ?_)

theorem State.frameEnd_only (s : State) (t : Nat) : Only [.frm, .red, .cap, .prf, .host, .evt, .pwr, .lgr] s (State.frameEnd s t) := by
  unfold State.frameEnd
  repeat (first
    | with_reducible exact Only.refl _ _
    | with_reducible assumption
    | ((with_reducible apply Only.step (State.redFrameEnd_only ..)); decide)
    | ((with_reducible apply Only.step (State.frameStats_only ..)); decide)
    | ((with_reducible apply Only.step (State.feedTake_only ..)); decide)
    | ((with_reducible apply Only.step (State.goto_only ..)); decide)
    | with_reducible refine Only.ite ?_ ?_)

theorem State.frameBegin_only (s : State) (t : Nat) : Only [.frm, .fio] s (State.frameBegin s t) := by
  unfold State.frameBegin
  repeat (first
    | with_reducible exact Only.refl _ _
    | with_reducible assumption
    | with_reducible refine Only.ite ?_ ?_
    | fail_if_no_progress with_reducible refine Only.frm_fio (by decide) (by decide) ?_
    | fail_if_no_progress with_reducible refine Only.frm (by decide) ?_
    | fail_if_no_progress with_reducible refine Only.fio (by decide) ?_)

theorem State.tickSends_only (s : State) : Only [.frm, .net, .red, .prf] s (State.tickSends s) := by
  unfold State.tickSends
  repeat (first
    | with_reducible exact Only.refl _ _
    | with_reducible assumption
    | ((with_reducible apply Only.step (State.followerTick_only ..)); decide)
    | ((with_reducible apply Only.step (State.headSends_only ..)); decide)
    | with_reducible refine Only.ite ?_ ?_
    | fail_if_no_progress with_reducible refine Only.net (by decide) ?_
    | fail_if_no_progress with_reducible refine Only.red (by decide) ?_)

theorem execFrameTick_only (s : State) : Answers [.frm, .net, .red, .fio, .cap, .prf, .host, .evt, .pwr, .lgr] s (execFrameTick s) := by
  unfold execFrameTick
  repeat (first
    | with_reducible refine Answers.next ?_
    | with_reducible exact Only.refl _ _
    | with_reducible assumption
    | ((with_reducible apply Only.step (State.tickSends_only ..)); decide)
    | ((with_reducible apply Only.step (State.frameBegin_only ..)); decide)
    | ((with_reducible apply Only.step (State.frameEnd_only ..)); decide)
    | ((with_reducible apply Only.step (State.lockSlew_only ..)); decide)
    | ((with_reducible apply Only.step (State.lsyncRise_only ..)); decide)
    | ((with_reducible apply Only.step (State.redTick_only ..)); decide)
    | ((with_reducible apply Only.step (State.pulseX_only ..)); decide)
    | with_reducible refine Only.ite ?_ ?_)

theorem execLsyncFall_only (s : State) : Answers [.frm, .cap, .prf, .evt, .pwr, .lgr] s (execLsyncFall s) := by
  unfold execLsyncFall
  repeat (first
    | with_reducible refine Answers.next ?_
    | with_reducible exact Only.refl _ _
    | with_reducible assumption
    | ((with_reducible apply Only.step (State.goto_only ..)); decide)
    | with_reducible refine Only.ite ?_ ?_
    | fail_if_no_progress with_reducible refine Only.frm (by decide) ?_)

theorem execLsyncInEdge_only (x : PinEdge) (s : State) : Answers [.frm, .cap, .prf, .evt, .pwr, .lgr] s (execLsyncInEdge x s) := by
  unfold execLsyncInEdge
  repeat (first
    | with_reducible refine Answers.next ?_
    | with_reducible exact Only.refl _ _
    | with_reducible assumption
    | ((with_reducible apply Only.step (State.goto_only ..)); decide)
    | ((with_reducible apply Only.step (State.capTrigger_only ..)); decide)
    | ((with_reducible apply Only.step (State.pulseX_only ..)); decide)
    | with_reducible refine Only.ite ?_ ?_
    | fail_if_no_progress with_reducible refine Only.frm (by decide) ?_)

theorem execLsyncInLoss_only (s : State) : Answers [.frm, .cap, .prf, .evt, .pwr, .lgr] s (execLsyncInLoss s) := by
  unfold execLsyncInLoss
  repeat (first
    | with_reducible refine Answers.next ?_
    | with_reducible exact Only.refl _ _
    | with_reducible assumption
    | ((with_reducible apply Only.step (State.goto_only ..)); decide)
    | ((with_reducible apply Only.step (State.raiseDev_only ..)); decide)
    | with_reducible refine Only.ite ?_ ?_
    | fail_if_no_progress with_reducible refine Only.frm (by decide) ?_
    | split
    | (dsimp -proj -beta only []; split))

theorem execFrmTimeLo_only (s : State) : Answers [.frm, .prf, .host] s (execFrmTimeLo s) := by
  unfold execFrmTimeLo
  repeat (first
    | with_reducible refine Answers.next ?_
    | with_reducible exact Only.refl _ _
    | with_reducible assumption
    | ((with_reducible apply Only.step (State.hostWord_only ..)); decide)
    | fail_if_no_progress with_reducible refine Only.frm (by decide) ?_)

theorem execFrmFcntLo_only (s : State) : Answers [.frm, .prf, .host] s (execFrmFcntLo s) := by
  unfold execFrmFcntLo
  repeat (first
    | with_reducible refine Answers.next ?_
    | with_reducible exact Only.refl _ _
    | with_reducible assumption
    | ((with_reducible apply Only.step (State.hostWord_only ..)); decide)
    | fail_if_no_progress with_reducible refine Only.frm (by decide) ?_)

theorem execFrmT0Lo_only (s : State) : Answers [.frm, .prf, .host] s (execFrmT0Lo s) := by
  unfold execFrmT0Lo
  repeat (first
    | with_reducible refine Answers.next ?_
    | with_reducible exact Only.refl _ _
    | with_reducible assumption
    | ((with_reducible apply Only.step (State.hostWord_only ..)); decide)
    | fail_if_no_progress with_reducible refine Only.frm (by decide) ?_)

theorem execFrmLsinLo_only (s : State) : Answers [.frm, .prf, .host] s (execFrmLsinLo s) := by
  unfold execFrmLsinLo
  repeat (first
    | with_reducible refine Answers.next ?_
    | with_reducible exact Only.refl _ _
    | with_reducible assumption
    | ((with_reducible apply Only.step (State.hostWord_only ..)); decide)
    | fail_if_no_progress with_reducible refine Only.frm (by decide) ?_)

theorem execFrmTurnmax_only (s : State) : Answers [.frm, .net, .prf, .host] s (execFrmTurnmax s) := by
  unfold execFrmTurnmax
  repeat (first
    | with_reducible refine Answers.next ?_
    | with_reducible exact Only.refl _ _
    | with_reducible assumption
    | ((with_reducible apply Only.step (State.turn_only ..)); decide)
    | ((with_reducible apply Only.step (State.hostWord_only ..)); decide)
    | fail_if_no_progress with_reducible refine Only.frm (by decide) ?_)

theorem State.idleCycle_only (s : State) : Only [.frm, .cap, .prf, .evt, .pwr, .lgr] s (State.idleCycle s) := by
  unfold State.idleCycle
  repeat (first
    | with_reducible exact Only.refl _ _
    | with_reducible assumption
    | ((with_reducible apply Only.step (State.goto_only ..)); decide)
    | with_reducible refine Only.ite ?_ ?_
    | fail_if_no_progress with_reducible refine Only.frm (by decide) ?_)

end Sys2Proof.Machine
end

