-- ==== Sys2Proof/Laws/Motion.lean ====
section
/-! SUPPORT. What the operations of Machine/Motion change of the state: nothing outside the listed parts. -/

set_option linter.unusedTactic false
set_option linter.unreachableTactic false

namespace Sys2Proof.Machine

theorem State.imgCheck_only (s : State) : Only [.cap, .prf, .evt, .lgr] s (State.imgCheck s) := by
  unfold State.imgCheck
  repeat (first
    | with_reducible exact Only.refl _ _
    | with_reducible assumption
    | ((with_reducible apply Only.step (State.raiseDev_only ..)); decide)
    | with_reducible refine Only.ite ?_ ?_
    | split
    | (dsimp -proj -beta only []; split))

theorem State.fpProfiles_only (s : State) : Only [.axes] s (State.fpProfiles s) := by
  unfold State.fpProfiles
  repeat (first
    | with_reducible exact Only.refl _ _
    | with_reducible assumption
    | ((with_reducible apply Only.step (State.setAxis_only ..)); decide)
    | with_reducible refine Only.ite ?_ ?_
    | with_reducible refine Only.foldl ?_ ?_
    | (intro _ _ _; try beta_reduce))

theorem State.fpLine_only (s : State) (i : Nat) : Only [.lines] s (State.fpLine s i) := by
  unfold State.fpLine
  repeat (first
    | with_reducible exact Only.refl _ _
    | with_reducible assumption
    | ((with_reducible apply Only.step (State.setLine_only ..)); decide)
    | with_reducible refine Only.ite ?_ ?_)

theorem State.fp1Work_only (s : State) : Only [.axes, .lines] s (State.fp1Work s) := by
  unfold State.fp1Work
  repeat (first
    | with_reducible exact Only.refl _ _
    | with_reducible assumption
    | ((with_reducible apply Only.step (State.fpLine_only ..)); decide)
    | ((with_reducible apply Only.step (State.fpProfiles_only ..)); decide)
    | with_reducible refine Only.foldl ?_ ?_
    | (intro _ _ _; try beta_reduce))

theorem execThreadComplete_only (fp : Fin 4) (t : Nat) (s : State) : Answers [.frm, .axes, .lines, .dsp, .fio, .cap, .prf, .evt, .pwr, .lgr] s (execThreadComplete fp t s) := by
  unfold execThreadComplete
  repeat (first
    | with_reducible refine Answers.next ?_
    | with_reducible exact Only.refl _ _
    | with_reducible assumption
    | ((with_reducible apply Only.step (State.fp1Work_only ..)); decide)
    | ((with_reducible apply Only.step (State.finishThread_only ..)); decide)
    | ((with_reducible apply Only.step (State.goto_only ..)); decide)
    | with_reducible refine Only.ite ?_ ?_
    | fail_if_no_progress with_reducible refine Only.fio (by decide) ?_
    | split
    | (dsimp -proj -beta only []; split))

theorem State.stallStep_only (s : State) (i : Nat) : Only [.axes, .steps] s (State.stallStep s i) := by
  unfold State.stallStep
  repeat (first
    | with_reducible exact Only.refl _ _
    | with_reducible assumption
    | ((with_reducible apply Only.step (State.setStep_only ..)); decide)
    | ((with_reducible apply Only.step (State.setAxis_only ..)); decide)
    | split
    | (dsimp -proj -beta only []; split))

theorem execStall_only (i : Fin 256) (s : State) : Answers [.axes, .steps] s (execStall i s) := by
  unfold execStall
  repeat (first
    | with_reducible refine Answers.next ?_
    | with_reducible exact Only.refl _ _
    | with_reducible assumption
    | ((with_reducible apply Only.step (State.stallStep_only ..)); decide)
    | ((with_reducible apply Only.step (State.setAxis_only ..)); decide)
    | with_reducible refine Only.ite ?_ ?_)

theorem execHomeFlagExpiry_only (i : Fin 256) (s : State) : Answers [.frm, .axes, .steps, .cap, .prf, .evt, .pwr, .lgr] s (execHomeFlagExpiry i s) := by
  unfold execHomeFlagExpiry
  repeat (first
    | with_reducible refine Answers.next ?_
    | with_reducible exact Only.refl _ _
    | with_reducible assumption
    | ((with_reducible apply Only.step (State.stallStep_only ..)); decide)
    | ((with_reducible apply Only.step (State.goto_only ..)); decide)
    | with_reducible refine Only.ite ?_ ?_
    | split
    | (dsimp -proj -beta only []; split))

theorem execInpos_only (i : Fin 256) (s : State) : Answers [.axes] s (execInpos i s) := by
  unfold execInpos
  repeat (first
    | with_reducible refine Answers.next ?_
    | with_reducible exact Only.refl _ _
    | with_reducible assumption
    | ((with_reducible apply Only.step (State.setAxis_only ..)); decide)
    | with_reducible refine Only.ite ?_ ?_)

end Sys2Proof.Machine
end

