-- ==== Sys2Proof/Laws/Kernel.lean ====
section
/-! SUPPORT. What the operations of Machine/Kernel change of the state: nothing outside the listed parts. -/

set_option linter.unusedTactic false
set_option linter.unreachableTactic false

namespace Sys2Proof.Machine

theorem State.stepKernel_only (s : State) (i f : Nat) : Only [.axes, .steps] s (State.stepKernel s i f) := by
  unfold State.stepKernel
  repeat (first
    | with_reducible exact Only.refl _ _
    | with_reducible assumption
    | ((with_reducible apply Only.step (State.setStep_only ..)); decide)
    | ((with_reducible apply Only.step (State.setAxis_only ..)); decide)
    | split
    | (dsimp -proj -beta only []; split))

theorem State.servoKernel_only (s : State) (i f : Nat) : Only [.axes, .cap, .prf, .evt, .lgr] s (State.servoKernel s i f) := by
  unfold State.servoKernel
  repeat (first
    | with_reducible exact Only.refl _ _
    | with_reducible assumption
    | ((with_reducible apply Only.step (State.raiseAx_only ..)); decide)
    | ((with_reducible apply Only.step (State.pulse_only ..)); decide)
    | ((with_reducible apply Only.step (State.setAxis_only ..)); decide)
    | with_reducible refine Only.ite ?_ ?_
    | split
    | (dsimp -proj -beta only []; split))

theorem execCriticalKernelComplete_only (i : Fin 256) (t opnd comp : Nat) (s : State) : Answers [.frm, .axes, .steps, .net, .dsp, .cap, .prf, .evt, .pwr, .lgr] s (execCriticalKernelComplete i t opnd comp s) := by
  unfold execCriticalKernelComplete
  repeat (first
    | with_reducible refine Answers.next ?_
    | with_reducible exact Only.refl _ _
    | with_reducible assumption
    | ((with_reducible apply Only.step (State.servoKernel_only ..)); decide)
    | ((with_reducible apply Only.step (State.stepKernel_only ..)); decide)
    | ((with_reducible apply Only.step (State.gateCheck_only ..)); decide)
    | ((with_reducible apply Only.step (State.completeKernel_only ..)); decide)
    | ((with_reducible apply Only.step (State.tagComplete_only ..)); decide)
    | ((with_reducible apply Only.step (State.goto_only ..)); decide)
    | ((with_reducible apply Only.step (State.setBranch_only ..)); decide)
    | ((with_reducible apply Only.step (State.setAxis_only ..)); decide)
    | with_reducible refine Only.ite ?_ ?_
    | fail_if_no_progress with_reducible refine Only.frm (by decide) ?_
    | split
    | (dsimp -proj -beta only []; split))

theorem State.devBase_only (s : State) (i : Nat) : Only [.steps] s (State.devBase s i) := by
  unfold State.devBase
  repeat (first
    | with_reducible exact Only.refl _ _
    | with_reducible assumption
    | ((with_reducible apply Only.step (State.setStep_only ..)); decide)
    | with_reducible refine Only.ite ?_ ?_
    | split
    | (dsimp -proj -beta only []; split))

theorem State.trailAxis_only (s : State) (i : Nat) : Only [.axes, .steps, .cap, .prf, .evt, .lgr] s (State.trailAxis s i) := by
  unfold State.trailAxis
  repeat (first
    | with_reducible exact Only.refl _ _
    | with_reducible assumption
    | ((with_reducible apply Only.step (State.devBase_only ..)); decide)
    | ((with_reducible apply Only.step (State.raiseAx_only ..)); decide)
    | ((with_reducible apply Only.step (State.setAxis_only ..)); decide)
    | with_reducible refine Only.ite ?_ ?_)

theorem execTrailingKernelComplete_only (i : Fin 256) (t opnd comp : Nat) (s : State) : Answers [.frm, .axes, .steps, .dsp, .cap, .prf, .evt, .pwr, .lgr] s (execTrailingKernelComplete i t opnd comp s) := by
  unfold execTrailingKernelComplete
  repeat (first
    | with_reducible refine Answers.next ?_
    | with_reducible exact Only.refl _ _
    | with_reducible assumption
    | ((with_reducible apply Only.step (State.trailAxis_only ..)); decide)
    | ((with_reducible apply Only.step (State.completeKernel_only ..)); decide)
    | ((with_reducible apply Only.step (State.tagComplete_only ..)); decide)
    | ((with_reducible apply Only.step (State.goto_only ..)); decide)
    | with_reducible refine Only.ite ?_ ?_
    | fail_if_no_progress with_reducible refine Only.frm (by decide) ?_)

theorem State.zoneKernel_only (s : State) (z f : Nat) : Only [.zones, .cap, .prf, .evt, .lgr] s (State.zoneKernel s z f) := by
  unfold State.zoneKernel
  repeat (first
    | with_reducible exact Only.refl _ _
    | with_reducible assumption
    | ((with_reducible apply Only.step (State.raiseOnce_only ..)); decide)
    | ((with_reducible apply Only.step (State.setZone_only ..)); decide)
    | with_reducible refine Only.ite ?_ ?_
    | split
    | (dsimp -proj -beta only []; split))

theorem execZoneKernelComplete_only (z : Fin 64) (t opnd comp : Nat) (s : State) : Answers [.frm, .zones, .dsp, .cap, .prf, .evt, .pwr, .lgr] s (execZoneKernelComplete z t opnd comp s) := by
  unfold execZoneKernelComplete
  repeat (first
    | with_reducible refine Answers.next ?_
    | with_reducible exact Only.refl _ _
    | with_reducible assumption
    | ((with_reducible apply Only.step (State.zoneKernel_only ..)); decide)
    | ((with_reducible apply Only.step (State.gateCheck_only ..)); decide)
    | ((with_reducible apply Only.step (State.completeKernel_only ..)); decide)
    | ((with_reducible apply Only.step (State.tagComplete_only ..)); decide)
    | ((with_reducible apply Only.step (State.goto_only ..)); decide)
    | ((with_reducible apply Only.step (State.setZone_only ..)); decide)
    | with_reducible refine Only.ite ?_ ?_
    | fail_if_no_progress with_reducible refine Only.frm (by decide) ?_
    | split
    | (dsimp -proj -beta only []; split))

theorem State.diaOf_only (s : State) (z i j : Nat) : Only [.axes, .cap, .prf, .evt, .lgr] s (State.diaOf s z i j) := by
  unfold State.diaOf
  repeat (first
    | with_reducible exact Only.refl _ _
    | with_reducible assumption
    | ((with_reducible apply Only.step (State.raiseAx_only ..)); decide)
    | ((with_reducible apply Only.step (State.setAxis_only ..)); decide)
    | with_reducible refine Only.ite ?_ ?_)

theorem State.zoneTrail_only (s : State) (z : Nat) : Only [.axes, .zones, .cap, .prf, .evt, .lgr] s (State.zoneTrail s z) := by
  unfold State.zoneTrail
  repeat (first
    | with_reducible exact Only.refl _ _
    | with_reducible assumption
    | ((with_reducible apply Only.step (State.diaOf_only ..)); decide)
    | ((with_reducible apply Only.step (State.raiseOnce_only ..)); decide)
    | ((with_reducible apply Only.step (State.setZone_only ..)); decide)
    | with_reducible refine Only.ite ?_ ?_
    | split
    | (dsimp -proj -beta only []; split))

theorem execZoneTrailingKernelComplete_only (z : Fin 64) (t opnd comp : Nat) (s : State) : Answers [.frm, .axes, .zones, .dsp, .cap, .prf, .evt, .pwr, .lgr] s (execZoneTrailingKernelComplete z t opnd comp s) := by
  unfold execZoneTrailingKernelComplete
  repeat (first
    | with_reducible refine Answers.next ?_
    | with_reducible exact Only.refl _ _
    | with_reducible assumption
    | ((with_reducible apply Only.step (State.zoneTrail_only ..)); decide)
    | ((with_reducible apply Only.step (State.completeKernel_only ..)); decide)
    | ((with_reducible apply Only.step (State.tagComplete_only ..)); decide)
    | ((with_reducible apply Only.step (State.goto_only ..)); decide)
    | with_reducible refine Only.ite ?_ ?_
    | fail_if_no_progress with_reducible refine Only.frm (by decide) ?_)

theorem execSatTime_only (i : Fin 256) (c : Fin 4) (s : State) : Answers [.axes, .cap, .prf, .evt, .lgr] s (execSatTime i c s) := by
  unfold execSatTime
  repeat (first
    | with_reducible refine Answers.next ?_
    | with_reducible exact Only.refl _ _
    | with_reducible assumption
    | ((with_reducible apply Only.step (State.raiseAx_only ..)); decide)
    | ((with_reducible apply Only.step (State.setAxis_only ..)); decide)
    | with_reducible refine Only.ite ?_ ?_)

theorem execFbLost_only (i : Fin 256) (s : State) : Answers [.axes, .cap, .prf, .evt, .lgr] s (execFbLost i s) := by
  unfold execFbLost
  repeat (first
    | with_reducible refine Answers.next ?_
    | with_reducible exact Only.refl _ _
    | with_reducible assumption
    | ((with_reducible apply Only.step (State.raiseAx_only ..)); decide)
    | ((with_reducible apply Only.step (State.setAxis_only ..)); decide)
    | with_reducible refine Only.ite ?_ ?_)

theorem execFbFrozen_only (i : Fin 256) (s : State) : Answers [.axes, .cap, .prf, .evt, .lgr] s (execFbFrozen i s) := by
  unfold execFbFrozen
  repeat (first
    | with_reducible refine Answers.next ?_
    | with_reducible exact Only.refl _ _
    | with_reducible assumption
    | ((with_reducible apply Only.step (State.raiseAx_only ..)); decide)
    | ((with_reducible apply Only.step (State.setAxis_only ..)); decide)
    | with_reducible refine Only.ite ?_ ?_)

theorem execEstExpired_only (i : Fin 256) (s : State) : Answers [.axes, .cap, .prf, .evt, .lgr] s (execEstExpired i s) := by
  unfold execEstExpired
  repeat (first
    | with_reducible refine Answers.next ?_
    | with_reducible exact Only.refl _ _
    | with_reducible assumption
    | ((with_reducible apply Only.step (State.raiseAx_only ..)); decide)
    | ((with_reducible apply Only.step (State.setAxis_only ..)); decide)
    | with_reducible refine Only.ite ?_ ?_)

theorem execWebBreak_only (z : Fin 64) (s : State) : Answers [.zones, .cap, .prf, .evt, .lgr] s (execWebBreak z s) := by
  unfold execWebBreak
  repeat (first
    | with_reducible refine Answers.next ?_
    | with_reducible exact Only.refl _ _
    | with_reducible assumption
    | ((with_reducible apply Only.step (State.raiseOnce_only ..)); decide)
    | ((with_reducible apply Only.step (State.setZone_only ..)); decide)
    | with_reducible refine Only.ite ?_ ?_)

theorem execLcInvalid_only (z : Fin 64) (s : State) : Answers [.zones, .cap, .prf, .evt, .lgr] s (execLcInvalid z s) := by
  unfold execLcInvalid
  repeat (first
    | with_reducible refine Answers.next ?_
    | with_reducible exact Only.refl _ _
    | with_reducible assumption
    | ((with_reducible apply Only.step (State.raiseOnce_only ..)); decide)
    | ((with_reducible apply Only.step (State.setZone_only ..)); decide)
    | with_reducible refine Only.ite ?_ ?_)

theorem execEncDev_only (i : Fin 256) (s : State) : Answers [.axes, .cap, .prf, .evt, .lgr] s (execEncDev i s) := by
  unfold execEncDev
  repeat (first
    | with_reducible refine Answers.next ?_
    | with_reducible exact Only.refl _ _
    | with_reducible assumption
    | ((with_reducible apply Only.step (State.raiseAx_only ..)); decide)
    | ((with_reducible apply Only.step (State.setAxis_only ..)); decide)
    | with_reducible refine Only.ite ?_ ?_
    | split
    | (dsimp -proj -beta only []; split))

end Sys2Proof.Machine
end

