-- ==== Sys2Proof/Laws/Stepper.lean ====
section
/-! SUPPORT. What the operations of Machine/Stepper change of the state: nothing outside the listed parts. -/

set_option linter.unusedTactic false
set_option linter.unreachableTactic false

namespace Sys2Proof.Machine

theorem State.rebase_only (s : State) (i c : Nat) : Only [.axes, .steps] s (State.rebase s i c) := by
  unfold State.rebase
  repeat (first
    | with_reducible exact Only.refl _ _
    | with_reducible assumption
    | ((with_reducible apply Only.step (State.setStep_only ..)); decide)
    | ((with_reducible apply Only.step (State.setAxis_only ..)); decide))

theorem State.nodeStep_only (s : State) (down : Option (List Byte)) (k c : Nat) : Only [.steps, .net] s (State.nodeStep s down k c) := by
  unfold State.nodeStep
  repeat (first
    | with_reducible exact Only.refl _ _
    | with_reducible assumption
    | ((with_reducible apply Only.step (State.setStep_only ..)); decide)
    | with_reducible refine Only.ite ?_ ?_
    | fail_if_no_progress with_reducible refine Only.net (by decide) ?_
    | split
    | (dsimp -proj -beta only []; split))

theorem State.stepWithdraw_only (s : State) (c : Nat) : Only [.steps] s (State.stepWithdraw s c) := by
  unfold State.stepWithdraw
  repeat (first
    | with_reducible exact Only.refl _ _
    | with_reducible assumption
    | ((with_reducible apply Only.step (State.setStep_only ..)); decide)
    | with_reducible refine Only.ite ?_ ?_)

theorem State.stepApply_only (s : State) (c : Nat) : Only [.axes, .steps, .cap, .prf, .evt, .lgr] s (State.stepApply s c) := by
  unfold State.stepApply
  repeat (first
    | with_reducible exact Only.refl _ _
    | with_reducible assumption
    | ((with_reducible apply Only.step (State.stepWithdraw_only ..)); decide)
    | ((with_reducible apply Only.step (State.rebase_only ..)); decide)
    | ((with_reducible apply Only.step (State.raiseAx_only ..)); decide)
    | ((with_reducible apply Only.step (State.setStep_only ..)); decide)
    | ((with_reducible apply Only.step (State.setAxis_only ..)); decide)
    | with_reducible refine Only.ite ?_ ?_
    | split
    | (dsimp -proj -beta only []; split))

theorem execStepPulse_only (c : Fin 16) (s : State) : Answers [.frm, .steps, .cap, .prf, .evt, .pwr, .lgr] s (execStepPulse c s) := by
  unfold execStepPulse
  repeat (first
    | with_reducible refine Answers.next ?_
    | with_reducible exact Only.refl _ _
    | with_reducible assumption
    | ((with_reducible apply Only.step (State.goto_only ..)); decide)
    | ((with_reducible apply Only.step (State.pulseX_only ..)); decide)
    | ((with_reducible apply Only.step (State.setStep_only ..)); decide)
    | with_reducible refine Only.ite ?_ ?_)

theorem execDirChange_only (c : Fin 16) (s : State) : Answers [.frm, .steps, .cap, .prf, .evt, .pwr, .lgr] s (execDirChange c s) := by
  unfold execDirChange
  repeat (first
    | with_reducible refine Answers.next ?_
    | with_reducible exact Only.refl _ _
    | with_reducible assumption
    | ((with_reducible apply Only.step (State.goto_only ..)); decide)
    | ((with_reducible apply Only.step (State.setStep_only ..)); decide)
    | with_reducible refine Only.ite ?_ ?_)

theorem execCrefIdleExpiry_only (c : Fin 16) (s : State) : Answers [.frm, .steps, .red, .cap, .prf, .evt, .pwr, .lgr] s (execCrefIdleExpiry c s) := by
  unfold execCrefIdleExpiry
  repeat (first
    | with_reducible refine Answers.next ?_
    | with_reducible exact Only.refl _ _
    | with_reducible assumption
    | ((with_reducible apply Only.step (State.goto_only ..)); decide)
    | ((with_reducible apply Only.step (State.setStep_only ..)); decide)
    | with_reducible refine Only.ite ?_ ?_
    | fail_if_no_progress with_reducible refine Only.red (by decide) ?_)

theorem execCrefRampComplete_only (c : Fin 16) (s : State) : Answers [.frm, .steps, .red, .cap, .prf, .evt, .pwr, .lgr] s (execCrefRampComplete c s) := by
  unfold execCrefRampComplete
  repeat (first
    | with_reducible refine Answers.next ?_
    | with_reducible exact Only.refl _ _
    | with_reducible assumption
    | ((with_reducible apply Only.step (State.goto_only ..)); decide)
    | ((with_reducible apply Only.step (State.setStep_only ..)); decide)
    | with_reducible refine Only.ite ?_ ?_
    | fail_if_no_progress with_reducible refine Only.red (by decide) ?_)

theorem State.encSample_only (s : State) (e : Nat) : Only [.encs] s (State.encSample s e) := by
  unfold State.encSample
  repeat (first
    | with_reducible exact Only.refl _ _
    | with_reducible assumption
    | ((with_reducible apply Only.step (State.setEnc_only ..)); decide)
    | with_reducible refine Only.ite ?_ ?_)

theorem State.encError_only (s : State) (e : Nat) : Only [.encs, .cap, .prf, .evt, .lgr] s (State.encError s e) := by
  unfold State.encError
  repeat (first
    | with_reducible exact Only.refl _ _
    | with_reducible assumption
    | ((with_reducible apply Only.step (State.raiseOnce_only ..)); decide)
    | ((with_reducible apply Only.step (State.pulseX_only ..)); decide)
    | ((with_reducible apply Only.step (State.setEnc_only ..)); decide))

theorem execEncEdge_only (e : Fin 8) (a b : Bool) (l : HeldLevel) (s : State) : Answers [.frm, .encs, .cap, .prf, .evt, .pwr, .lgr] s (execEncEdge e a b l s) := by
  unfold execEncEdge
  repeat (first
    | with_reducible refine Answers.next ?_
    | with_reducible exact Only.refl _ _
    | with_reducible assumption
    | ((with_reducible apply Only.step (State.encError_only ..)); decide)
    | ((with_reducible apply Only.step (State.goto_only ..)); decide)
    | ((with_reducible apply Only.step (State.setEnc_only ..)); decide)
    | with_reducible refine Only.ite ?_ ?_)

theorem execEnczEdge_only (e : Fin 8) (z : Bool) (l : HeldLevel) (s : State) : Answers [.frm, .encs, .cap, .prf, .evt, .pwr, .lgr] s (execEnczEdge e z l s) := by
  unfold execEnczEdge
  repeat (first
    | with_reducible refine Answers.next ?_
    | with_reducible exact Only.refl _ _
    | with_reducible assumption
    | ((with_reducible apply Only.step (State.goto_only ..)); decide)
    | ((with_reducible apply Only.step (State.setEnc_only ..)); decide)
    | with_reducible refine Only.ite ?_ ?_)

theorem State.ssiFree_only (s : State) (e : Nat) : Only [.dsp, .prf] s (State.ssiFree s e) := by
  unfold State.ssiFree
  repeat (first
    | with_reducible exact Only.refl _ _
    | with_reducible assumption
    | ((with_reducible apply Only.step (State.enterReady_only ..)); decide)
    | ((with_reducible apply Only.step (State.trace_only ..)); decide)
    | with_reducible refine Only.ite ?_ ?_
    | with_reducible refine Only.foldl ?_ ?_
    | (intro _ _ _; try beta_reduce))

theorem execSsiDelivery_only (e : Fin 8) (bits : Nat) (low : Bool) (s : State) : Answers [.frm, .encs, .dsp, .cap, .prf, .evt, .pwr, .lgr] s (execSsiDelivery e bits low s) := by
  unfold execSsiDelivery
  repeat (first
    | with_reducible refine Answers.next ?_
    | with_reducible exact Only.refl _ _
    | with_reducible assumption
    | ((with_reducible apply Only.step (State.ssiFree_only ..)); decide)
    | ((with_reducible apply Only.step (State.encError_only ..)); decide)
    | ((with_reducible apply Only.step (State.goto_only ..)); decide)
    | ((with_reducible apply Only.step (State.setEnc_only ..)); decide)
    | with_reducible refine Only.ite ?_ ?_)

end Sys2Proof.Machine
end

