-- ==== Sys2Proof/Laws/Ledger.lean ====
section
/-! SUPPORT. What the operations of Machine/Ledger change of the state: nothing outside the listed parts. -/

set_option linter.unusedTactic false
set_option linter.unreachableTactic false

namespace Sys2Proof.Machine

theorem State.ledBreak_only (s : State) (l kind i d : Nat) (diff : Int) : Only [.cap, .prf, .evt, .lgr] s (State.ledBreak s l kind i d diff) := by
  unfold State.ledBreak
  repeat (first
    | with_reducible exact Only.refl _ _
    | with_reducible assumption
    | ((with_reducible apply Only.step (State.raise_only ..)); decide)
    | with_reducible refine Only.ite ?_ ?_
    | fail_if_no_progress with_reducible refine Only.lgr (by decide) ?_)

theorem State.checkInst_only (l i d : Nat) (x : List Int) (a : State × Option (Nat × Nat × Nat × Int)) :
    Only [.lgr] a.1 (State.checkInst l i d x a).1 := by
  unfold State.checkInst
  dsimp only
  exact Only.lgr (by decide) (Only.refl _ _)

theorem State.checkLedger_only (s : State) (snap : Tbl (List Int)) (l : Nat) :
    Only [.cap, .prf, .evt, .lgr] s (State.checkLedger s snap l) := by
  unfold State.checkLedger
  dsimp only
  have h : ∀ (x : State) (is : List (Nat × List Int)), Only [.cap, .prf, .evt, .lgr] s x →
      Only [.cap, .prf, .evt, .lgr] s (is.foldl (fun a x => State.checkInst l (x.1 % 1024 / 2) (x.1 % 2) x.2 a) (x, none)).1 :=
    fun x is hx => Only.foldlFst (fun y a hy => Only.step (State.checkInst_only ..) (by decide) hy) hx
  have h := h _ (snap.filter fun x => x.1 / 1024 == l) (Only.step (State.pulseN_only _ 0x51 1 (if l = 0 then
    2 * (snap.filter fun x => x.1 / 1024 == l).length else (snap.filter fun x => x.1 / 1024 == l).length)) (by decide)
    (Only.lgr (v0 := { s.lgr with now := s.lgr.now &&& ~~~(BitVec.ofNat 8 (2 ^ l)) }) (by decide) (Only.refl _ s)))
  split
  · exact Only.step (State.ledBreak_only ..) (by decide) h
  · exact h

theorem State.ledRequest_only (s : State) : Only [.host, .lgr] s (State.ledRequest s) := by
  unfold State.ledRequest
  repeat (first
    | with_reducible exact Only.refl _ _
    | with_reducible assumption
    | ((with_reducible apply Only.step (State.take_only ..)); decide)
    | fail_if_no_progress with_reducible refine Only.lgr (by decide) ?_)

theorem State.ledRetain_only (s : State) : Only [.lgr] s (State.ledRetain s) := by
  unfold State.ledRetain
  repeat (first
    | with_reducible exact Only.refl _ _
    | with_reducible assumption
    | fail_if_no_progress with_reducible refine Only.lgr (by decide) ?_)

theorem execLedgerCheck_only (s : State) : Answers [.cap, .prf, .evt, .lgr] s (execLedgerCheck s) := by
  unfold execLedgerCheck
  repeat (first
    | with_reducible refine Answers.next ?_
    | with_reducible exact Only.refl _ _
    | with_reducible assumption
    | ((with_reducible apply Only.step (State.ledRetain_only ..)); decide)
    | ((with_reducible apply Only.step (State.checkLedger_only ..)); decide)
    | with_reducible refine Only.ite ?_ ?_
    | with_reducible refine Only.foldl ?_ ?_
    | (intro _ _ _; try beta_reduce)
    | fail_if_no_progress with_reducible refine Only.lgr (by decide) ?_)

theorem State.checkStreamB_only (a : State × Option (Nat × Nat × Int)) (k : Nat) :
    Only [.lgr] a.1 (State.checkStreamB a k).1 := by
  unfold State.checkStreamB
  exact Only.lgr (by decide) (Only.refl _ _)

theorem State.checkSseqB_only (s : State) : Only [.cap, .prf, .evt, .lgr] s (State.checkSseqB s) := by
  unfold State.checkSseqB
  have h : Only [.cap, .prf, .evt, .lgr] s ((List.range 128).foldl State.checkStreamB (s, none)).1 :=
    Only.foldlFst (fun y a hy => Only.step (State.checkStreamB_only ..) (by decide) hy) (Only.refl _ _)
  split
  · rename_i e
    exact Only.step (State.ledBreak_only ..) (by decide) (Only.eq_fst h e)
  · rename_i e
    exact Only.eq_fst h e

theorem State.checkSseq_only (s : State) : Only [.cap, .prf, .evt, .lgr] s (State.checkSseq s) := by
  unfold State.checkSseq
  repeat (first
    | with_reducible exact Only.refl _ _
    | with_reducible assumption
    | ((with_reducible apply Only.step (State.checkSseqB_only ..)); decide)
    | ((with_reducible apply Only.step (State.checkLedger_only ..)); decide)
    | with_reducible refine Only.ite ?_ ?_)

theorem State.openLedger_only (s : State) (l : Nat) : Only [.lgr] s (State.openLedger s l) := by
  unfold State.openLedger
  repeat (first
    | with_reducible exact Only.refl _ _
    | with_reducible assumption
    | with_reducible refine Only.foldl ?_ ?_
    | (intro _ _ _; try beta_reduce)
    | fail_if_no_progress with_reducible refine Only.lgr (by decide) ?_)

theorem State.closeLedger_only (s : State) (l cause : Nat) : Only [.cap, .prf, .evt, .lgr] s (State.closeLedger s l cause) := by
  unfold State.closeLedger
  repeat (first
    | with_reducible exact Only.refl _ _
    | with_reducible assumption
    | ((with_reducible apply Only.step (State.checkLedger_only ..)); decide)
    | ((with_reducible apply Only.step (State.log_only ..)); decide)
    | with_reducible refine Only.ite ?_ ?_
    | fail_if_no_progress with_reducible refine Only.lgr (by decide) ?_)

theorem State.closeLedgers_only (s : State) (ls : List Nat) (cause : Nat) : Only [.cap, .prf, .evt, .lgr] s (State.closeLedgers s ls cause) := by
  unfold State.closeLedgers
  repeat (first
    | with_reducible exact Only.refl _ _
    | with_reducible assumption
    | ((with_reducible apply Only.step (State.closeLedger_only ..)); decide)
    | with_reducible refine Only.foldl ?_ ?_
    | (intro _ _ _; try beta_reduce))

theorem State.dropSseq_only (s : State) : Only [.saf] s (State.dropSseq s) := by
  unfold State.dropSseq
  repeat (first
    | with_reducible exact Only.refl _ _
    | with_reducible assumption
    | fail_if_no_progress with_reducible refine Only.saf (by decide) ?_)

theorem State.retentionClosures_only (s : State) : Only [.lgr] s (State.retentionClosures s) := by
  unfold State.retentionClosures
  repeat (first
    | with_reducible exact Only.refl _ _
    | with_reducible assumption
    | ((with_reducible apply Only.step (State.logAt_only ..)); decide)
    | with_reducible refine Only.ite ?_ ?_
    | with_reducible refine Only.foldl ?_ ?_
    | (intro _ _ _; try beta_reduce)
    | fail_if_no_progress with_reducible refine Only.lgr (by decide) ?_)

theorem State.logKeep_only (s : State) (e : List Byte) : Only [.lgr] s (State.logKeep s e) := by
  unfold State.logKeep
  repeat (first
    | with_reducible exact Only.refl _ _
    | with_reducible assumption
    | with_reducible refine Only.ite ?_ ?_
    | fail_if_no_progress with_reducible refine Only.lgr (by decide) ?_)

theorem State.logCommit_only (s : State) : Only [.lgr] s (State.logCommit s) := by
  unfold State.logCommit
  repeat (first
    | with_reducible exact Only.refl _ _
    | with_reducible assumption
    | ((with_reducible apply Only.step (State.logKeep_only ..)); decide)
    | with_reducible refine Only.foldl ?_ ?_
    | (intro _ _ _; try beta_reduce)
    | fail_if_no_progress with_reducible refine Only.lgr (by decide) ?_)

theorem execFaultLogCommit_only (s : State) : Answers [.pwr, .lgr] s (execFaultLogCommit s) := by
  unfold execFaultLogCommit
  repeat (first
    | with_reducible refine Answers.next ?_
    | with_reducible exact Only.refl _ _
    | with_reducible assumption
    | ((with_reducible apply Only.step (State.logCommit_only ..)); decide)
    | with_reducible refine Only.ite ?_ ?_
    | fail_if_no_progress with_reducible refine Only.pwr (by decide) ?_)

theorem execFaultLogCompact_only (s : State) : Answers [.lgr] s (execFaultLogCompact s) := by
  unfold execFaultLogCompact
  repeat (first
    | with_reducible refine Answers.next ?_
    | with_reducible exact Only.refl _ _
    | with_reducible assumption
    | with_reducible refine Only.ite ?_ ?_
    | fail_if_no_progress with_reducible refine Only.lgr (by decide) ?_)

theorem execLgrSel_only (v : W32) (s : State) : Answers [.prf, .host, .lgr] s (execLgrSel v s) := by
  unfold execLgrSel
  repeat (first
    | with_reducible refine Answers.next ?_
    | with_reducible exact Only.refl _ _
    | with_reducible assumption
    | ((with_reducible apply Only.step (State.hostWrite_only ..)); decide)
    | with_reducible refine Only.ite ?_ ?_
    | fail_if_no_progress with_reducible refine Only.lgr (by decide) ?_)

end Sys2Proof.Machine
end

