-- ==== Sys2Proof/Laws/Mailbox.lean ====
section
/-! SUPPORT. What the operations of Machine/Mailbox change of the state: nothing outside the listed parts. -/

set_option linter.unusedTactic false
set_option linter.unreachableTactic false

namespace Sys2Proof.Machine

theorem State.setBuf_only (s : State) (j : Nat) (x : BufSt) : Only [.host] s (State.setBuf s j x) := by
  unfold State.setBuf
  repeat (first
    | with_reducible exact Only.refl _ _
    | with_reducible assumption
    | fail_if_no_progress with_reducible refine Only.host (by decide) ?_)

theorem State.protoErr_only (s : State) (bit : Nat) : Only [.cap, .prf, .host, .evt, .lgr] s (State.protoErr s bit) := by
  unfold State.protoErr
  repeat (first
    | with_reducible exact Only.refl _ _
    | with_reducible assumption
    | ((with_reducible apply Only.step (State.raiseDev_only ..)); decide)
    | fail_if_no_progress with_reducible refine Only.host (by decide) ?_)

theorem State.present_only (s : State) : Only [.host] s (State.present s) := by
  unfold State.present
  repeat (first
    | with_reducible exact Only.refl _ _
    | with_reducible assumption
    | fail_if_no_progress with_reducible refine Only.host (by decide) ?_)

theorem execMbxAlloc_only (s : State) : Answers [.prf, .host] s (execMbxAlloc s) := by
  unfold execMbxAlloc
  repeat (first
    | with_reducible refine Answers.next ?_
    | with_reducible exact Only.refl _ _
    | with_reducible assumption
    | ((with_reducible apply Only.step (State.present_only ..)); decide)
    | ((with_reducible apply Only.step (State.setBuf_only ..)); decide)
    | ((with_reducible apply Only.step (State.hostWord_only ..)); decide)
    | fail_if_no_progress with_reducible refine Only.host (by decide) ?_
    | split
    | (dsimp -proj -beta only []; split))

theorem execMbxFree_only (v : W32) (s : State) : Answers [.cap, .prf, .host, .evt, .lgr] s (execMbxFree v s) := by
  unfold execMbxFree
  repeat (first
    | with_reducible refine Answers.next ?_
    | with_reducible exact Only.refl _ _
    | with_reducible assumption
    | ((with_reducible apply Only.step (State.present_only ..)); decide)
    | ((with_reducible apply Only.step (State.protoErr_only ..)); decide)
    | ((with_reducible apply Only.step (State.setBuf_only ..)); decide)
    | ((with_reducible apply Only.step (State.hostWrite_only ..)); decide)
    | with_reducible refine Only.ite ?_ ?_
    | fail_if_no_progress with_reducible refine Only.host (by decide) ?_)

theorem execMbxDb_only (m : Fin 32) (v : W32) (s : State) : Answers [.cap, .prf, .host, .evt, .lgr] s (execMbxDb m v s) := by
  unfold execMbxDb
  repeat (first
    | with_reducible refine Answers.next ?_
    | with_reducible exact Only.refl _ _
    | with_reducible assumption
    | ((with_reducible apply Only.step (State.protoErr_only ..)); decide)
    | ((with_reducible apply Only.step (State.setBuf_only ..)); decide)
    | ((with_reducible apply Only.step (State.hostWrite_only ..)); decide)
    | ((with_reducible apply Only.step (State.pulseX_only ..)); decide)
    | with_reducible refine Only.ite ?_ ?_
    | fail_if_no_progress with_reducible refine Only.host (by decide) ?_)

theorem execMbxAns_only (m : Fin 32) (s : State) : Answers [.prf, .host] s (execMbxAns m s) := by
  unfold execMbxAns
  repeat (first
    | with_reducible refine Answers.next ?_
    | with_reducible exact Only.refl _ _
    | with_reducible assumption
    | ((with_reducible apply Only.step (State.setBuf_only ..)); decide)
    | ((with_reducible apply Only.step (State.hostWord_only ..)); decide)
    | fail_if_no_progress with_reducible refine Only.host (by decide) ?_
    | split
    | (dsimp -proj -beta only []; split))

theorem execMbxPoola_only (s : State) : Answers [.prf, .host] s (execMbxPoola s) := by
  unfold execMbxPoola
  repeat (first
    | with_reducible refine Answers.next ?_
    | with_reducible exact Only.refl _ _
    | with_reducible assumption
    | ((with_reducible apply Only.step (State.hostWord_only ..)); decide)
    | fail_if_no_progress with_reducible refine Only.host (by decide) ?_)

theorem execMailboxBufferWrite_only (off : Nat) (v : W32) (s : State) : Answers [.prf, .host] s (execMailboxBufferWrite off v s) := by
  unfold execMailboxBufferWrite
  repeat (first
    | with_reducible refine Answers.next ?_
    | with_reducible exact Only.refl _ _
    | with_reducible assumption
    | ((with_reducible apply Only.step (State.hostWrite_only ..)); decide)
    | with_reducible refine Only.ite ?_ ?_
    | fail_if_no_progress with_reducible refine Only.host (by decide) ?_)

theorem State.answer_only (s : State) (m j status eff : Nat) (pay : List Byte) : Only [.prf, .host, .evt] s (State.answer s m j status eff pay) := by
  unfold State.answer
  repeat (first
    | with_reducible exact Only.refl _ _
    | with_reducible assumption
    | ((with_reducible apply Only.step (State.setBuf_only ..)); decide)
    | ((with_reducible apply Only.step (State.irq_only ..)); decide)
    | fail_if_no_progress with_reducible refine Only.host (by decide) ?_)

theorem State.take_only (s : State) (m j : Nat) (ready : Bool) : Only [.host] s (State.take s m j ready) := by
  unfold State.take
  repeat (first
    | with_reducible exact Only.refl _ _
    | with_reducible assumption
    | ((with_reducible apply Only.step (State.setBuf_only ..)); decide)
    | fail_if_no_progress with_reducible refine Only.host (by decide) ?_)

theorem State.serve_only {w : List Part} (s : State) (op : Nat) (f : State → Nat → Nat → State)
    (hw : w.contains Part.host = true) (hf : ∀ y m j, Only w y (f y m j)) : Only w s (State.serve s op f) := by
  unfold State.serve
  repeat (first
    | with_reducible exact Only.refl _ _
    | ((with_reducible apply Only.step (hf ..)); simp)
    | ((with_reducible apply Only.step (State.take_only ..)); simpa using hw)
    | split)

theorem execBadOpcode_only (s : State) : Answers [.prf, .host, .evt] s (execBadOpcode s) := by
  unfold execBadOpcode
  repeat (first
    | with_reducible refine Answers.next ?_
    | with_reducible exact Only.refl _ _
    | with_reducible assumption
    | ((with_reducible apply Only.step (State.take_only ..)); decide)
    | ((with_reducible apply Only.step (State.answer_only ..)); decide)
    | with_reducible refine Only.ite ?_ ?_
    | split
    | (dsimp -proj -beta only []; split))

theorem execEcho_only (s : State) : Answers [.prf, .host, .evt] s (execEcho s) := by
  unfold execEcho
  repeat (first
    | with_reducible refine Answers.next ?_
    | with_reducible exact Only.refl _ _
    | with_reducible assumption
    | with_reducible refine State.serve_only _ _ _ (by decide) ?_
    | (intro _ _ _; try beta_reduce)
    | ((with_reducible apply Only.step (State.answer_only ..)); decide)
    | with_reducible refine Only.ite ?_ ?_)

theorem execParamRead_only (s : State) : Answers [.prf, .host, .evt] s (execParamRead s) := by
  unfold execParamRead
  repeat (first
    | with_reducible refine Answers.next ?_
    | with_reducible exact Only.refl _ _
    | with_reducible assumption
    | with_reducible refine State.serve_only _ _ _ (by decide) ?_
    | (intro _ _ _; try beta_reduce)
    | ((with_reducible apply Only.step (State.answer_only ..)); decide)
    | with_reducible refine Only.ite ?_ ?_)

theorem execParamInfo_only (s : State) : Answers [.prf, .host, .evt] s (execParamInfo s) := by
  unfold execParamInfo
  repeat (first
    | with_reducible refine Answers.next ?_
    | with_reducible exact Only.refl _ _
    | with_reducible assumption
    | with_reducible refine State.serve_only _ _ _ (by decide) ?_
    | (intro _ _ _; try beta_reduce)
    | ((with_reducible apply Only.step (State.answer_only ..)); decide)
    | with_reducible refine Only.ite ?_ ?_)

theorem execParamWrite_only (s : State) : Answers [.prf, .host, .evt] s (execParamWrite s) := by
  unfold execParamWrite
  repeat (first
    | with_reducible refine Answers.next ?_
    | with_reducible exact Only.refl _ _
    | with_reducible assumption
    | with_reducible refine State.serve_only _ _ _ (by decide) ?_
    | (intro _ _ _; try beta_reduce)
    | ((with_reducible apply Only.step (State.answer_only ..)); decide)
    | with_reducible refine Only.ite ?_ ?_)

theorem execGrpClrderate_only (s : State) : Answers [.prf, .host, .evt] s (execGrpClrderate s) := by
  unfold execGrpClrderate
  repeat (first
    | with_reducible refine Answers.next ?_
    | with_reducible exact Only.refl _ _
    | with_reducible assumption
    | with_reducible refine State.serve_only _ _ _ (by decide) ?_
    | (intro _ _ _; try beta_reduce)
    | ((with_reducible apply Only.step (State.answer_only ..)); decide)
    | with_reducible refine Only.ite ?_ ?_
    | fail_if_no_progress with_reducible refine Only.evt (by decide) ?_)

theorem execYield_only (s : State) : Answers [.red, .prf, .host, .evt] s (execYield s) := by
  unfold execYield
  repeat (first
    | with_reducible refine Answers.next ?_
    | with_reducible exact Only.refl _ _
    | with_reducible assumption
    | with_reducible refine State.serve_only _ _ _ (by decide) ?_
    | (intro _ _ _; try beta_reduce)
    | ((with_reducible apply Only.step (State.answer_only ..)); decide)
    | with_reducible refine Only.ite ?_ ?_
    | fail_if_no_progress with_reducible refine Only.red (by decide) ?_)

theorem State.setTaken_only (s : State) (t : Taken) : Only [.host] s (State.setTaken s t) := by
  unfold State.setTaken
  repeat (first
    | with_reducible exact Only.refl _ _
    | with_reducible assumption
    | with_reducible refine Only.ite ?_ ?_
    | fail_if_no_progress with_reducible refine Only.host (by decide) ?_)

theorem State.axEntry_only (s : State) (sub : Nat) (t : Taken) : Only [.host] s (State.axEntry s sub t) := by
  unfold State.axEntry
  repeat (first
    | with_reducible exact Only.refl _ _
    | with_reducible assumption
    | ((with_reducible apply Only.step (State.setTaken_only ..)); decide)
    | with_reducible refine Only.ite ?_ ?_)

theorem State.axRow_only (s : State) (sub : Nat) : Only [.prf, .host, .evt] s (State.axRow s sub) := by
  unfold State.axRow
  repeat (first
    | with_reducible exact Only.refl _ _
    | with_reducible assumption
    | ((with_reducible apply Only.step (State.axEntry_only ..)); decide)
    | ((with_reducible apply Only.step (State.take_only ..)); decide)
    | ((with_reducible apply Only.step (State.answer_only ..)); decide)
    | with_reducible refine Only.ite ?_ ?_
    | split
    | (dsimp -proj -beta only []; split))

theorem execEnable_only (s : State) : Answers [.prf, .host, .evt] s (execEnable s) := by
  unfold execEnable
  repeat (first
    | with_reducible refine Answers.next ?_
    | with_reducible exact Only.refl _ _
    | with_reducible assumption
    | ((with_reducible apply Only.step (State.axRow_only ..)); decide))

theorem execClose_only (s : State) : Answers [.prf, .host, .evt] s (execClose s) := by
  unfold execClose
  repeat (first
    | with_reducible refine Answers.next ?_
    | with_reducible exact Only.refl _ _
    | with_reducible assumption
    | ((with_reducible apply Only.step (State.axRow_only ..)); decide))

theorem execOpenLoop_only (s : State) : Answers [.prf, .host, .evt] s (execOpenLoop s) := by
  unfold execOpenLoop
  repeat (first
    | with_reducible refine Answers.next ?_
    | with_reducible exact Only.refl _ _
    | with_reducible assumption
    | ((with_reducible apply Only.step (State.axRow_only ..)); decide))

theorem execFreeze_only (s : State) : Answers [.prf, .host, .evt] s (execFreeze s) := by
  unfold execFreeze
  repeat (first
    | with_reducible refine Answers.next ?_
    | with_reducible exact Only.refl _ _
    | with_reducible assumption
    | ((with_reducible apply Only.step (State.axRow_only ..)); decide))

theorem execDisable_only (s : State) : Answers [.prf, .host, .evt] s (execDisable s) := by
  unfold execDisable
  repeat (first
    | with_reducible refine Answers.next ?_
    | with_reducible exact Only.refl _ _
    | with_reducible assumption
    | ((with_reducible apply Only.step (State.axRow_only ..)); decide))

theorem execAck_only (s : State) : Answers [.prf, .host, .evt] s (execAck s) := by
  unfold execAck
  repeat (first
    | with_reducible refine Answers.next ?_
    | with_reducible exact Only.refl _ _
    | with_reducible assumption
    | ((with_reducible apply Only.step (State.axRow_only ..)); decide))

theorem execStop_only (s : State) : Answers [.prf, .host, .evt] s (execStop s) := by
  unfold execStop
  repeat (first
    | with_reducible refine Answers.next ?_
    | with_reducible exact Only.refl _ _
    | with_reducible assumption
    | ((with_reducible apply Only.step (State.axRow_only ..)); decide))

theorem execHome_only (s : State) : Answers [.prf, .host, .evt] s (execHome s) := by
  unfold execHome
  repeat (first
    | with_reducible refine Answers.next ?_
    | with_reducible exact Only.refl _ _
    | with_reducible assumption
    | ((with_reducible apply Only.step (State.axRow_only ..)); decide))

theorem execDiaSet_only (s : State) : Answers [.prf, .host, .evt] s (execDiaSet s) := by
  unfold execDiaSet
  repeat (first
    | with_reducible refine Answers.next ?_
    | with_reducible exact Only.refl _ _
    | with_reducible assumption
    | ((with_reducible apply Only.step (State.axRow_only ..)); decide))

theorem execCamStart_only (s : State) : Answers [.prf, .host, .evt] s (execCamStart s) := by
  unfold execCamStart
  repeat (first
    | with_reducible refine Answers.next ?_
    | with_reducible exact Only.refl _ _
    | with_reducible assumption
    | ((with_reducible apply Only.step (State.axRow_only ..)); decide))

theorem execCamSelect_only (s : State) : Answers [.prf, .host, .evt] s (execCamSelect s) := by
  unfold execCamSelect
  repeat (first
    | with_reducible refine Answers.next ?_
    | with_reducible exact Only.refl _ _
    | with_reducible assumption
    | ((with_reducible apply Only.step (State.axRow_only ..)); decide))

theorem execCamWrite_only (s : State) : Answers [.camStg, .prf, .host, .evt] s (execCamWrite s) := by
  unfold execCamWrite
  repeat (first
    | with_reducible refine Answers.next ?_
    | with_reducible exact Only.refl _ _
    | with_reducible assumption
    | with_reducible refine State.serve_only _ _ _ (by decide) ?_
    | (intro _ _ _; try beta_reduce)
    | ((with_reducible apply Only.step (State.answer_only ..)); decide)
    | with_reducible refine Only.ite ?_ ?_
    | fail_if_no_progress with_reducible refine Only.camStg (by decide) ?_)

theorem execCamLoad_only (s : State) : Answers [.cams, .prf, .host, .evt] s (execCamLoad s) := by
  unfold execCamLoad
  repeat (first
    | with_reducible refine Answers.next ?_
    | with_reducible exact Only.refl _ _
    | with_reducible assumption
    | with_reducible refine State.serve_only _ _ _ (by decide) ?_
    | (intro _ _ _; try beta_reduce)
    | ((with_reducible apply Only.step (State.answer_only ..)); decide)
    | with_reducible refine Only.ite ?_ ?_
    | fail_if_no_progress with_reducible refine Only.cams (by decide) ?_)

theorem execMatrixRead_only (s : State) : Answers [.prf, .host, .evt] s (execMatrixRead s) := by
  unfold execMatrixRead
  repeat (first
    | with_reducible refine Answers.next ?_
    | with_reducible exact Only.refl _ _
    | with_reducible assumption
    | with_reducible refine State.serve_only _ _ _ (by decide) ?_
    | (intro _ _ _; try beta_reduce)
    | ((with_reducible apply Only.step (State.answer_only ..)); decide)
    | with_reducible refine Only.ite ?_ ?_)

theorem execFlogRead_only (s : State) : Answers [.prf, .host, .evt] s (execFlogRead s) := by
  unfold execFlogRead
  repeat (first
    | with_reducible refine Answers.next ?_
    | with_reducible exact Only.refl _ _
    | with_reducible assumption
    | with_reducible refine State.serve_only _ _ _ (by decide) ?_
    | (intro _ _ _; try beta_reduce)
    | ((with_reducible apply Only.step (State.answer_only ..)); decide)
    | with_reducible refine Only.ite ?_ ?_)

theorem State.dropReq_only (s : State) (m j : Nat) : Only [.saf, .host, .cfg] s (State.dropReq s m j) := by
  unfold State.dropReq
  repeat (first
    | with_reducible exact Only.refl _ _
    | with_reducible assumption
    | with_reducible refine Only.ite ?_ ?_
    | fail_if_no_progress with_reducible refine Only.saf_host_cfg (by decide) (by decide) (by decide) ?_
    | fail_if_no_progress with_reducible refine Only.saf (by decide) ?_
    | fail_if_no_progress with_reducible refine Only.host (by decide) ?_
    | fail_if_no_progress with_reducible refine Only.cfg (by decide) ?_
    | split
    | (dsimp -proj -beta only []; split))

theorem execMailboxTimeout_only (j : Fin 512) (s : State) : Answers [.frm, .saf, .cap, .prf, .host, .evt, .cfg, .pwr, .lgr] s (execMailboxTimeout j s) := by
  unfold execMailboxTimeout
  repeat (first
    | with_reducible refine Answers.next ?_
    | with_reducible exact Only.refl _ _
    | with_reducible assumption
    | ((with_reducible apply Only.step (State.dropReq_only ..)); decide)
    | ((with_reducible apply Only.step (State.answer_only ..)); decide)
    | ((with_reducible apply Only.step (State.goto_only ..)); decide)
    | ((with_reducible apply Only.step (State.raiseDev_only ..)); decide)
    | with_reducible refine Only.ite ?_ ?_
    | split
    | (dsimp -proj -beta only []; split))

theorem State.roleChange_only (s : State) : Only [.saf, .prf, .host, .evt, .cfg] s (State.roleChange s) := by
  unfold State.roleChange
  repeat (first
    | with_reducible exact Only.refl _ _
    | with_reducible assumption
    | ((with_reducible apply Only.step (State.dropReq_only ..)); decide)
    | ((with_reducible apply Only.step (State.answer_only ..)); decide)
    | with_reducible refine Only.ite ?_ ?_
    | with_reducible refine Only.foldl ?_ ?_
    | (intro _ _ _; try beta_reduce))

theorem execBar0UnsupportedAccess_only (_off _bytes : Nat) (s : State) : Answers [.host] s (execBar0UnsupportedAccess _off _bytes s) := by
  unfold execBar0UnsupportedAccess
  repeat (first
    | with_reducible refine Answers.next ?_
    | with_reducible exact Only.refl _ _
    | with_reducible assumption
    | fail_if_no_progress with_reducible refine Only.host (by decide) ?_)

theorem execPcieLinkUp_only (speed width : Nat) (s : State) : Answers [.host, .pwr] s (execPcieLinkUp speed width s) := by
  unfold execPcieLinkUp
  repeat (first
    | with_reducible refine Answers.next ?_
    | with_reducible exact Only.refl _ _
    | with_reducible assumption
    | with_reducible refine Only.ite ?_ ?_
    | fail_if_no_progress with_reducible refine Only.host_pwr (by decide) (by decide) ?_
    | fail_if_no_progress with_reducible refine Only.host (by decide) ?_
    | fail_if_no_progress with_reducible refine Only.pwr (by decide) ?_)

theorem State.linkLost_only (s : State) : Only [.host, .pwr] s (State.linkLost s) := by
  unfold State.linkLost
  repeat (first
    | with_reducible exact Only.refl _ _
    | with_reducible assumption
    | fail_if_no_progress with_reducible refine Only.host_pwr (by decide) (by decide) ?_
    | fail_if_no_progress with_reducible refine Only.host (by decide) ?_
    | fail_if_no_progress with_reducible refine Only.pwr (by decide) ?_)

theorem execPcieRefclkLoss_only (s : State) : Answers [.host, .pwr] s (execPcieRefclkLoss s) := by
  unfold execPcieRefclkLoss
  repeat (first
    | with_reducible refine Answers.next ?_
    | with_reducible exact Only.refl _ _
    | with_reducible assumption
    | ((with_reducible apply Only.step (State.linkLost_only ..)); decide)
    | with_reducible refine Only.ite ?_ ?_
    | fail_if_no_progress with_reducible refine Only.pwr (by decide) ?_)

theorem execPerstN_only (s : State) : Answers [.host, .pwr] s (execPerstN s) := by
  unfold execPerstN
  repeat (first
    | with_reducible refine Answers.next ?_
    | with_reducible exact Only.refl _ _
    | with_reducible assumption
    | ((with_reducible apply Only.step (State.linkLost_only ..)); decide)
    | with_reducible refine Only.ite ?_ ?_
    | fail_if_no_progress with_reducible refine Only.host_pwr (by decide) (by decide) ?_
    | fail_if_no_progress with_reducible refine Only.host (by decide) ?_
    | fail_if_no_progress with_reducible refine Only.pwr (by decide) ?_)

theorem execDevAlive_only (v : W32) (s : State) : Answers [.prf, .host] s (execDevAlive v s) := by
  unfold execDevAlive
  repeat (first
    | with_reducible refine Answers.next ?_
    | with_reducible exact Only.refl _ _
    | with_reducible assumption
    | ((with_reducible apply Only.step (State.hostWrite_only ..)); decide)
    | with_reducible refine Only.ite ?_ ?_
    | fail_if_no_progress with_reducible refine Only.host (by decide) ?_)

theorem execHostWatchdogExpiry_only (s : State) : Answers [.frm, .cap, .prf, .host, .evt, .pwr, .lgr] s (execHostWatchdogExpiry s) := by
  unfold execHostWatchdogExpiry
  repeat (first
    | with_reducible refine Answers.next ?_
    | with_reducible exact Only.refl _ _
    | with_reducible assumption
    | ((with_reducible apply Only.step (State.goto_only ..)); decide)
    | ((with_reducible apply Only.step (State.raiseDev_only ..)); decide)
    | ((with_reducible apply Only.step (State.irq_only ..)); decide)
    | with_reducible refine Only.ite ?_ ?_
    | fail_if_no_progress with_reducible refine Only.host (by decide) ?_)

theorem execEvtIstat_only (v : W32) (s : State) : Answers [.prf, .host, .evt] s (execEvtIstat v s) := by
  unfold execEvtIstat
  repeat (first
    | with_reducible refine Answers.next ?_
    | with_reducible exact Only.refl _ _
    | with_reducible assumption
    | ((with_reducible apply Only.step (State.hostWrite_only ..)); decide)
    | ((with_reducible apply Only.step (State.pulseN_only ..)); decide)
    | fail_if_no_progress with_reducible refine Only.evt (by decide) ?_
    | split
    | (dsimp -proj -beta only []; split))

theorem execEventRingWrite_only (s : State) : Answers [.prf, .evt] s (execEventRingWrite s) := by
  unfold execEventRingWrite
  repeat (first
    | with_reducible refine Answers.next ?_
    | with_reducible exact Only.refl _ _
    | with_reducible assumption
    | ((with_reducible apply Only.step (State.irq_only ..)); decide)
    | with_reducible refine Only.ite ?_ ?_
    | fail_if_no_progress with_reducible refine Only.evt (by decide) ?_
    | split
    | (dsimp -proj -beta only []; split))

theorem execMbxPicommit_only (v : W32) (s : State) : Answers [.prf, .host] s (execMbxPicommit v s) := by
  unfold execMbxPicommit
  repeat (first
    | with_reducible refine Answers.next ?_
    | with_reducible exact Only.refl _ _
    | with_reducible assumption
    | ((with_reducible apply Only.step (State.hostWrite_only ..)); decide)
    | ((with_reducible apply Only.step (State.pulseX_only ..)); decide)
    | with_reducible refine Only.ite ?_ ?_
    | fail_if_no_progress with_reducible refine Only.host (by decide) ?_
    | split
    | (dsimp -proj -beta only []; split)
    | split
    | (dsimp -proj -beta only []; split))

theorem execCommitCopyComplete_only (s : State) : Answers [.host] s (execCommitCopyComplete s) := by
  unfold execCommitCopyComplete
  repeat (first
    | with_reducible refine Answers.next ?_
    | with_reducible exact Only.refl _ _
    | with_reducible assumption
    | with_reducible refine Only.ite ?_ ?_
    | fail_if_no_progress with_reducible refine Only.host (by decide) ?_)

theorem execOutputWindowWrite_only (off : Nat) (v : W32) (s : State) : Answers [.prf, .host] s (execOutputWindowWrite off v s) := by
  unfold execOutputWindowWrite
  repeat (first
    | with_reducible refine Answers.next ?_
    | with_reducible exact Only.refl _ _
    | with_reducible assumption
    | ((with_reducible apply Only.step (State.hostWrite_only ..)); decide)
    | with_reducible refine Only.ite ?_ ?_
    | fail_if_no_progress with_reducible refine Only.host (by decide) ?_)

end Sys2Proof.Machine
end

