-- ==== Sys2Proof/Laws/Image.lean ====
section
/-! SUPPORT. What the operations of Machine/Image change of the state: nothing outside the listed parts. -/

set_option linter.unusedTactic false
set_option linter.unreachableTactic false

namespace Sys2Proof.Machine

theorem State.ovlShow_only (s : State) (k : Nat) : Only [.params] s (State.ovlShow s k) := by
  unfold State.ovlShow
  repeat (first
    | with_reducible exact Only.refl _ _
    | with_reducible assumption
    | ((with_reducible apply Only.step (State.setPar_only ..)); decide)
    | with_reducible refine Only.ite ?_ ?_)

end Sys2Proof.Machine
end

