-- ==== Sys2Proof/Laws/SafetyIn.lean ====
section
/-! SUPPORT. What the operations of Machine/SafetyIn change of the state: nothing outside the listed parts. -/

set_option linter.unusedTactic false
set_option linter.unreachableTactic false

namespace Sys2Proof.Machine

theorem State.degEnter_only (s : State) (chB : Bool) : Only [.saf, .cap, .prf, .evt, .lgr] s (State.degEnter s chB) := by
  unfold State.degEnter
  repeat (first
    | with_reducible exact Only.refl _ _
    | with_reducible assumption
    | ((with_reducible apply Only.step (State.raiseDev_only ..)); decide)
    | ((with_reducible apply Only.step (State.setSout_only ..)); decide)
    | ((with_reducible apply Only.step (State.setSgrp_only ..)); decide)
    | with_reducible refine Only.ite ?_ ?_
    | with_reducible refine Only.foldl ?_ ?_
    | (intro _ _ _; try beta_reduce)
    | fail_if_no_progress with_reducible refine Only.saf (by decide) ?_)

theorem State.degLeave_only (s : State) (cleared : Bool) : Only [.saf] s (State.degLeave s cleared) := by
  unfold State.degLeave
  repeat (first
    | with_reducible exact Only.refl _ _
    | with_reducible assumption
    | ((with_reducible apply Only.step (State.setSout_only ..)); decide)
    | with_reducible refine Only.foldl ?_ ?_
    | (intro _ _ _; try beta_reduce)
    | fail_if_no_progress with_reducible refine Only.saf (by decide) ?_)

theorem State.setChan_only (s : State) (chB : Bool) (c : SChan) : Only [.saf] s (State.setChan s chB c) := by
  unfold State.setChan
  repeat (first
    | with_reducible exact Only.refl _ _
    | with_reducible assumption
    | with_reducible refine Only.ite ?_ ?_
    | fail_if_no_progress with_reducible refine Only.saf (by decide) ?_)

theorem State.chanFault_only (s : State) (chB : Bool) (f : ChFault) : Only [.saf, .cap, .prf, .evt, .lgr] s (State.chanFault s chB f) := by
  unfold State.chanFault
  repeat (first
    | with_reducible exact Only.refl _ _
    | with_reducible assumption
    | ((with_reducible apply Only.step (State.setChan_only ..)); decide)
    | ((with_reducible apply Only.step (State.degLeave_only ..)); decide)
    | ((with_reducible apply Only.step (State.degEnter_only ..)); decide)
    | with_reducible refine Only.ite ?_ ?_)

theorem State.transient_only (s : State) (chB : Bool) : Only [.saf, .cap, .prf, .evt, .lgr] s (State.transient s chB) := by
  unfold State.transient
  repeat (first
    | with_reducible exact Only.refl _ _
    | with_reducible assumption
    | ((with_reducible apply Only.step (State.chanFault_only ..)); decide)
    | ((with_reducible apply Only.step (State.setChan_only ..)); decide)
    | with_reducible refine Only.ite ?_ ?_)

theorem execSafetyChannelFault_only (chB : Bool) (f : ChFault) (s : State) : Answers [.saf, .cap, .prf, .evt, .lgr] s (execSafetyChannelFault chB f s) := by
  unfold execSafetyChannelFault
  repeat (first
    | with_reducible refine Answers.next ?_
    | with_reducible exact Only.refl _ _
    | with_reducible assumption
    | ((with_reducible apply Only.step (State.transient_only ..)); decide)
    | ((with_reducible apply Only.step (State.chanFault_only ..)); decide)
    | split
    | (dsimp -proj -beta only []; split))

theorem State.diagDecide_only (s : State) (okA okB : Bool) : Only [.saf, .cap, .prf, .evt, .lgr] s (State.diagDecide s okA okB) := by
  unfold State.diagDecide
  repeat (first
    | with_reducible exact Only.refl _ _
    | with_reducible assumption
    | ((with_reducible apply Only.step (State.transient_only ..)); decide)
    | ((with_reducible apply Only.step (State.chanFault_only ..)); decide)
    | ((with_reducible apply Only.step (State.setChan_only ..)); decide)
    | with_reducible refine Only.ite ?_ ?_
    | fail_if_no_progress with_reducible refine Only.saf (by decide) ?_)

theorem execDiagnosisEnd_only (a b : ChFault) (s : State) : Answers [.saf, .cap, .prf, .evt, .lgr] s (execDiagnosisEnd a b s) := by
  unfold execDiagnosisEnd
  repeat (first
    | with_reducible refine Answers.next ?_
    | with_reducible exact Only.refl _ _
    | with_reducible assumption
    | ((with_reducible apply Only.step (State.diagDecide_only ..)); decide)
    | with_reducible refine Only.ite ?_ ?_
    | fail_if_no_progress with_reducible refine Only.saf (by decide) ?_)

theorem State.samplePair_only (s : State) (ra rb : Bool) (n : Nat) : Only [.saf] s (State.samplePair s ra rb n) := by
  unfold State.samplePair
  repeat (first
    | with_reducible exact Only.refl _ _
    | with_reducible assumption
    | ((with_reducible apply Only.step (State.setSpair_only ..)); decide)
    | with_reducible refine Only.ite ?_ ?_)

theorem execSafetyInputSample_only (a b : Byte) (s : State) : Answers [.frm, .saf, .cap, .prf, .evt, .pwr, .lgr] s (execSafetyInputSample a b s) := by
  unfold execSafetyInputSample
  repeat (first
    | with_reducible refine Answers.next ?_
    | with_reducible exact Only.refl _ _
    | with_reducible assumption
    | ((with_reducible apply Only.step (State.samplePair_only ..)); decide)
    | ((with_reducible apply Only.step (State.goto_only ..)); decide)
    | with_reducible refine Only.foldl ?_ ?_
    | (intro _ _ _; try beta_reduce)
    | fail_if_no_progress with_reducible refine Only.saf (by decide) ?_)

theorem State.resetPulse_only (s : State) (n : Nat) : Only [.saf] s (State.resetPulse s n) := by
  unfold State.resetPulse
  repeat (first
    | with_reducible exact Only.refl _ _
    | with_reducible assumption
    | ((with_reducible apply Only.step (State.setSgrp_only ..)); decide)
    | with_reducible refine Only.ite ?_ ?_
    | with_reducible refine Only.foldl ?_ ?_
    | (intro _ _ _; try beta_reduce)
    | split
    | (dsimp -proj -beta only []; split))

theorem execFilteredDemandChange_only (p : Fin 8) (s : State) : Answers [.saf] s (execFilteredDemandChange p s) := by
  unfold execFilteredDemandChange
  repeat (first
    | with_reducible refine Answers.next ?_
    | with_reducible exact Only.refl _ _
    | with_reducible assumption
    | ((with_reducible apply Only.step (State.resetPulse_only ..)); decide)
    | ((with_reducible apply Only.step (State.setSpair_only ..)); decide)
    | with_reducible refine Only.ite ?_ ?_)

theorem execDiscrepancyFault_only (p : Fin 8) (s : State) : Answers [.saf, .cap, .prf, .evt, .lgr] s (execDiscrepancyFault p s) := by
  unfold execDiscrepancyFault
  repeat (first
    | with_reducible refine Answers.next ?_
    | with_reducible exact Only.refl _ _
    | with_reducible assumption
    | ((with_reducible apply Only.step (State.raise_only ..)); decide)
    | ((with_reducible apply Only.step (State.setSpair_only ..)); decide)
    | with_reducible refine Only.ite ?_ ?_)

theorem execTestPulseStart_only (k : Fin 4) (s : State) : Answers [.frm, .saf, .cap, .prf, .evt, .pwr, .lgr] s (execTestPulseStart k s) := by
  unfold execTestPulseStart
  repeat (first
    | with_reducible refine Answers.next ?_
    | with_reducible exact Only.refl _ _
    | with_reducible assumption
    | ((with_reducible apply Only.step (State.goto_only ..)); decide)
    | ((with_reducible apply Only.step (State.setSpair_only ..)); decide)
    | with_reducible refine Only.ite ?_ ?_
    | with_reducible refine Only.foldl ?_ ?_
    | (intro _ _ _; try beta_reduce)
    | fail_if_no_progress with_reducible refine Only.saf (by decide) ?_)

theorem execTestPulseWindowEnd_only (k : Fin 4) (s : State) : Answers [.frm, .saf, .cap, .prf, .evt, .pwr, .lgr] s (execTestPulseWindowEnd k s) := by
  unfold execTestPulseWindowEnd
  repeat (first
    | with_reducible refine Answers.next ?_
    | with_reducible exact Only.refl _ _
    | with_reducible assumption
    | ((with_reducible apply Only.step (State.goto_only ..)); decide)
    | ((with_reducible apply Only.step (State.raise_only ..)); decide)
    | ((with_reducible apply Only.step (State.setSpair_only ..)); decide)
    | with_reducible refine Only.ite ?_ ?_
    | with_reducible refine Only.foldl ?_ ?_
    | (intro _ _ _; try beta_reduce)
    | fail_if_no_progress with_reducible refine Only.saf (by decide) ?_)

theorem State.drive_only (s : State) (o : Nat) (chB close : Bool) : Only [.saf] s (State.drive s o chB close) := by
  unfold State.drive
  repeat (first
    | with_reducible exact Only.refl _ _
    | with_reducible assumption
    | ((with_reducible apply Only.step (State.setSout_only ..)); decide)
    | with_reducible refine Only.ite ?_ ?_)

theorem State.outsOpen_only (s : State) : Only [.saf] s (State.outsOpen s) := by
  unfold State.outsOpen
  repeat (first
    | with_reducible exact Only.refl _ _
    | with_reducible assumption
    | ((with_reducible apply Only.step (State.drive_only ..)); decide)
    | with_reducible refine Only.foldl ?_ ?_
    | (intro _ _ _; try beta_reduce))

theorem State.readBack_only (s : State) (o : Nat) (chB agree : Bool) (mv : Nat) : Only [.saf, .cap, .prf, .evt, .lgr] s (State.readBack s o chB agree mv) := by
  unfold State.readBack
  repeat (first
    | with_reducible exact Only.refl _ _
    | with_reducible assumption
    | ((with_reducible apply Only.step (State.transient_only ..)); decide)
    | ((with_reducible apply Only.step (State.setSout_only ..)); decide)
    | with_reducible refine Only.ite ?_ ?_)

theorem execSafetyTick_only (rb : List Nat) (s : State) : Answers [.frm, .saf, .cap, .prf, .evt, .pwr, .lgr] s (execSafetyTick rb s) := by
  unfold execSafetyTick
  repeat (first
    | with_reducible refine Answers.next ?_
    | with_reducible exact Only.refl _ _
    | with_reducible assumption
    | ((with_reducible apply Only.step (State.readBack_only ..)); decide)
    | ((with_reducible apply Only.step (State.drive_only ..)); decide)
    | ((with_reducible apply Only.step (State.goto_only ..)); decide)
    | with_reducible refine Only.ite ?_ ?_
    | with_reducible refine Only.foldl ?_ ?_
    | (intro _ _ _; try beta_reduce)
    | fail_if_no_progress with_reducible refine Only.saf (by decide) ?_)

theorem execTickExchange_only (ok : Bool) (rb : List Nat) (s : State) : Answers [.saf, .cap, .prf, .evt, .lgr] s (execTickExchange ok rb s) := by
  unfold execTickExchange
  repeat (first
    | with_reducible refine Answers.next ?_
    | with_reducible exact Only.refl _ _
    | with_reducible assumption
    | ((with_reducible apply Only.step (State.readBack_only ..)); decide)
    | ((with_reducible apply Only.step (State.drive_only ..)); decide)
    | with_reducible refine Only.foldl ?_ ?_
    | (intro _ _ _; try beta_reduce)
    | fail_if_no_progress with_reducible refine Only.saf (by decide) ?_)

theorem State.outFault_only (s : State) (o : Nat) : Only [.saf, .cap, .prf, .evt, .lgr] s (State.outFault s o) := by
  unfold State.outFault
  repeat (first
    | with_reducible exact Only.refl _ _
    | with_reducible assumption
    | ((with_reducible apply Only.step (State.raise_only ..)); decide)
    | ((with_reducible apply Only.step (State.setSout_only ..)); decide)
    | with_reducible refine Only.ite ?_ ?_)

theorem execOutputFault_only (o : Fin 4) (s : State) : Answers [.saf, .cap, .prf, .evt, .lgr] s (execOutputFault o s) := by
  unfold execOutputFault
  repeat (first
    | with_reducible refine Answers.next ?_
    | with_reducible exact Only.refl _ _
    | with_reducible assumption
    | ((with_reducible apply Only.step (State.outFault_only ..)); decide)
    | with_reducible refine Only.ite ?_ ?_)

theorem execOutputOffTest_only (o : Fin 4) (low : Bool) (s : State) : Answers [.frm, .saf, .cap, .prf, .evt, .pwr, .lgr] s (execOutputOffTest o low s) := by
  unfold execOutputOffTest
  repeat (first
    | with_reducible refine Answers.next ?_
    | with_reducible exact Only.refl _ _
    | with_reducible assumption
    | ((with_reducible apply Only.step (State.goto_only ..)); decide)
    | ((with_reducible apply Only.step (State.setSout_only ..)); decide)
    | with_reducible refine Only.ite ?_ ?_)

theorem execOffTestWindowEnd_only (o : Fin 4) (low : Bool) (r : PinReading) (s : State) : Answers [.frm, .saf, .cap, .prf, .evt, .pwr, .lgr] s (execOffTestWindowEnd o low r s) := by
  unfold execOffTestWindowEnd
  repeat (first
    | with_reducible refine Answers.next ?_
    | with_reducible exact Only.refl _ _
    | with_reducible assumption
    | ((with_reducible apply Only.step (State.outFault_only ..)); decide)
    | ((with_reducible apply Only.step (State.drive_only ..)); decide)
    | ((with_reducible apply Only.step (State.goto_only ..)); decide)
    | ((with_reducible apply Only.step (State.setSout_only ..)); decide)
    | with_reducible refine Only.ite ?_ ?_)

theorem execSwitchLimitExpiry_only (o : Fin 4) (low : Bool) (s : State) : Answers [.saf, .cap, .prf, .evt, .lgr] s (execSwitchLimitExpiry o low s) := by
  unfold execSwitchLimitExpiry
  repeat (first
    | with_reducible refine Answers.next ?_
    | with_reducible exact Only.refl _ _
    | with_reducible assumption
    | ((with_reducible apply Only.step (State.outFault_only ..)); decide)
    | ((with_reducible apply Only.step (State.setSout_only ..)); decide)
    | with_reducible refine Only.ite ?_ ?_)

end Sys2Proof.Machine
end

