-- ==== Sys2Proof/Laws/FieldIO.lean ====
section
/-! SUPPORT. What the operations of Machine/FieldIO change of the state: nothing outside the listed parts. -/

set_option linter.unusedTactic false
set_option linter.unreachableTactic false

namespace Sys2Proof.Machine

theorem State.mapDie_only (s : State) (d : Nat) (f : FioCh → FioCh) : Only [.fio] s (State.mapDie s d f) := by
  unfold State.mapDie
  repeat (first
    | with_reducible exact Only.refl _ _
    | with_reducible assumption
    | ((with_reducible apply Only.step (State.setFch_only ..)); decide)
    | with_reducible refine Only.foldl ?_ ?_
    | (intro _ _ _; try beta_reduce))

theorem State.raiseCh_only (s : State) (code c : Nat) : Only [.cap, .prf, .evt, .lgr] s (State.raiseCh s code c) := by
  unfold State.raiseCh
  repeat (first
    | with_reducible exact Only.refl _ _
    | with_reducible assumption
    | ((with_reducible apply Only.step (State.raiseOnce_only ..)); decide)
    | with_reducible refine Only.ite ?_ ?_)

theorem State.raiseDie_only (s : State) (code d : Nat) : Only [.cap, .prf, .evt, .lgr] s (State.raiseDie s code d) := by
  unfold State.raiseDie
  repeat (first
    | with_reducible exact Only.refl _ _
    | with_reducible assumption
    | ((with_reducible apply Only.step (State.raiseOnce_only ..)); decide))

theorem State.hkDown_only (s : State) (d : Nat) : Only [.fio] s (State.hkDown s d) := by
  unfold State.hkDown
  repeat (first
    | with_reducible exact Only.refl _ _
    | with_reducible assumption
    | ((with_reducible apply Only.step (State.mapDie_only ..)); decide)
    | ((with_reducible apply Only.step (State.setDie_only ..)); decide)
    | ((with_reducible apply Only.step (State.setFch_only ..)); decide)
    | with_reducible refine Only.ite ?_ ?_
    | with_reducible refine Only.foldl ?_ ?_
    | (intro _ _ _; try beta_reduce))

theorem State.flagEvents_only (s : State) (c : Nat) (new : BitVec 5) : Only [.cap, .prf, .evt, .lgr] s (State.flagEvents s c new) := by
  unfold State.flagEvents
  repeat (first
    | with_reducible exact Only.refl _ _
    | with_reducible assumption
    | ((with_reducible apply Only.step (State.raiseCh_only ..)); decide)
    | with_reducible refine Only.ite ?_ ?_)

theorem State.returnCh_only (s : State) (c : Nat) : Only [.fio, .cap, .prf, .evt, .lgr] s (State.returnCh s c) := by
  unfold State.returnCh
  repeat (first
    | with_reducible exact Only.refl _ _
    | with_reducible assumption
    | ((with_reducible apply Only.step (State.flagEvents_only ..)); decide)
    | ((with_reducible apply Only.step (State.setFch_only ..)); decide))

theorem State.hkUp_only (s : State) (d : Nat) (r : Option (Byte × Byte)) : Only [.fio, .cap, .prf, .host, .evt, .lgr] s (State.hkUp s d r) := by
  unfold State.hkUp
  repeat (first
    | with_reducible exact Only.refl _ _
    | with_reducible assumption
    | ((with_reducible apply Only.step (State.returnCh_only ..)); decide)
    | ((with_reducible apply Only.step (State.raiseDie_only ..)); decide)
    | ((with_reducible apply Only.step (State.present_only ..)); decide)
    | ((with_reducible apply Only.step (State.setDie_only ..)); decide)
    | with_reducible refine Only.ite ?_ ?_
    | with_reducible refine Only.foldl ?_ ?_
    | (intro _ _ _; try beta_reduce)
    | split
    | (dsimp -proj -beta only []; split))

theorem execHousekeepingCycle_only (down : BitVec 4) (ret : List (Option (Byte × Byte))) (s : State) : Answers [.fio, .cap, .prf, .host, .evt, .lgr] s (execHousekeepingCycle down ret s) := by
  unfold execHousekeepingCycle
  repeat (first
    | with_reducible refine Answers.next ?_
    | with_reducible exact Only.refl _ _
    | with_reducible assumption
    | ((with_reducible apply Only.step (State.hkUp_only ..)); decide)
    | ((with_reducible apply Only.step (State.hkDown_only ..)); decide)
    | ((with_reducible apply Only.step (State.pulseX_only ..)); decide)
    | with_reducible refine Only.ite ?_ ?_
    | with_reducible refine Only.foldl ?_ ?_
    | (intro _ _ _; try beta_reduce)
    | fail_if_no_progress with_reducible refine Only.fio (by decide) ?_)

theorem execHousekeepingLost_only (d : Fin 4) (s : State) : Answers [.fio, .cap, .prf, .evt, .lgr] s (execHousekeepingLost d s) := by
  unfold execHousekeepingLost
  repeat (first
    | with_reducible refine Answers.next ?_
    | with_reducible exact Only.refl _ _
    | with_reducible assumption
    | ((with_reducible apply Only.step (State.raiseDie_only ..)); decide)
    | ((with_reducible apply Only.step (State.mapDie_only ..)); decide)
    | ((with_reducible apply Only.step (State.setDie_only ..)); decide)
    | with_reducible refine Only.ite ?_ ?_)

theorem execFieldInputChange_only (c : Fin 32) (level : Bool) (run : Nat) (s : State) : Answers [.fio, .cap] s (execFieldInputChange c level run s) := by
  unfold execFieldInputChange
  repeat (first
    | with_reducible refine Answers.next ?_
    | with_reducible exact Only.refl _ _
    | with_reducible assumption
    | ((with_reducible apply Only.step (State.capTrigger_only ..)); decide)
    | ((with_reducible apply Only.step (State.setFch_only ..)); decide)
    | with_reducible refine Only.ite ?_ ?_)

theorem execQuiesceComplete_only (c : Fin 32) (s : State) : Answers [.fio] s (execQuiesceComplete c s) := by
  unfold execQuiesceComplete
  repeat (first
    | with_reducible refine Answers.next ?_
    | with_reducible exact Only.refl _ _
    | with_reducible assumption
    | ((with_reducible apply Only.step (State.setFch_only ..)); decide)
    | with_reducible refine Only.ite ?_ ?_)

theorem execCouplerReversalComplete_only (c : Fin 32) (s : State) : Answers [.fio] s (execCouplerReversalComplete c s) := by
  unfold execCouplerReversalComplete
  repeat (first
    | with_reducible refine Answers.next ?_
    | with_reducible exact Only.refl _ _
    | with_reducible assumption
    | ((with_reducible apply Only.step (State.setFch_only ..)); decide)
    | with_reducible refine Only.ite ?_ ?_)

theorem State.mapMask_only (s : State) (m : Nat) (f : FioCh → FioCh) : Only [.fio] s (State.mapMask s m f) := by
  unfold State.mapMask
  repeat (first
    | with_reducible exact Only.refl _ _
    | with_reducible assumption
    | ((with_reducible apply Only.step (State.setFch_only ..)); decide)
    | with_reducible refine Only.foldl ?_ ?_
    | (intro _ _ _; try beta_reduce))

theorem State.fioQuiesceNow_only (s : State) (m : Nat) : Only [.fio] s (State.fioQuiesceNow s m) := by
  unfold State.fioQuiesceNow
  repeat (first
    | with_reducible exact Only.refl _ _
    | with_reducible assumption
    | ((with_reducible apply Only.step (State.mapMask_only ..)); decide))

theorem State.fioResumeNow_only (s : State) (m : Nat) : Only [.fio] s (State.fioResumeNow s m) := by
  unfold State.fioResumeNow
  repeat (first
    | with_reducible exact Only.refl _ _
    | with_reducible assumption
    | ((with_reducible apply Only.step (State.mapMask_only ..)); decide)
    | with_reducible refine Only.ite ?_ ?_)

theorem State.fioRearmNow_only (s : State) : Only [.fio] s (State.fioRearmNow s) := by
  unfold State.fioRearmNow
  repeat (first
    | with_reducible exact Only.refl _ _
    | with_reducible assumption
    | ((with_reducible apply Only.step (State.setDie_only ..)); decide)
    | with_reducible refine Only.ite ?_ ?_
    | with_reducible refine Only.foldl ?_ ?_
    | (intro _ _ _; try beta_reduce))

theorem State.fioBoundary_only (s : State) : Only [.fio] s (State.fioBoundary s) := by
  unfold State.fioBoundary
  repeat (first
    | with_reducible exact Only.refl _ _
    | with_reducible assumption
    | ((with_reducible apply Only.step (State.fioRearmNow_only ..)); decide)
    | ((with_reducible apply Only.step (State.fioResumeNow_only ..)); decide)
    | ((with_reducible apply Only.step (State.fioQuiesceNow_only ..)); decide)
    | with_reducible refine Only.ite ?_ ?_
    | fail_if_no_progress with_reducible refine Only.fio (by decide) ?_)

theorem execFioQuiesce_only (s : State) : Answers [.fio, .prf, .host, .evt] s (execFioQuiesce s) := by
  unfold execFioQuiesce
  repeat (first
    | with_reducible refine Answers.next ?_
    | with_reducible exact Only.refl _ _
    | with_reducible assumption
    | ((with_reducible apply Only.step (State.fioQuiesceNow_only ..)); decide)
    | with_reducible refine State.serve_only _ _ _ (by decide) ?_
    | (intro _ _ _; try beta_reduce)
    | ((with_reducible apply Only.step (State.answer_only ..)); decide)
    | with_reducible refine Only.ite ?_ ?_
    | fail_if_no_progress with_reducible refine Only.fio (by decide) ?_)

theorem execFioResume_only (s : State) : Answers [.fio, .prf, .host, .evt] s (execFioResume s) := by
  unfold execFioResume
  repeat (first
    | with_reducible refine Answers.next ?_
    | with_reducible exact Only.refl _ _
    | with_reducible assumption
    | ((with_reducible apply Only.step (State.fioResumeNow_only ..)); decide)
    | with_reducible refine State.serve_only _ _ _ (by decide) ?_
    | (intro _ _ _; try beta_reduce)
    | ((with_reducible apply Only.step (State.answer_only ..)); decide)
    | with_reducible refine Only.ite ?_ ?_
    | fail_if_no_progress with_reducible refine Only.fio (by decide) ?_)

theorem execFioRearm_only (s : State) : Answers [.fio, .prf, .host, .evt] s (execFioRearm s) := by
  unfold execFioRearm
  repeat (first
    | with_reducible refine Answers.next ?_
    | with_reducible exact Only.refl _ _
    | with_reducible assumption
    | ((with_reducible apply Only.step (State.fioRearmNow_only ..)); decide)
    | with_reducible refine State.serve_only _ _ _ (by decide) ?_
    | (intro _ _ _; try beta_reduce)
    | ((with_reducible apply Only.step (State.answer_only ..)); decide)
    | with_reducible refine Only.ite ?_ ?_
    | fail_if_no_progress with_reducible refine Only.fio (by decide) ?_)

theorem execOvercur_only (c : Fin 32) (acts : Bool) (s : State) : Answers [.fio] s (execOvercur c acts s) := by
  unfold execOvercur
  repeat (first
    | with_reducible refine Answers.next ?_
    | with_reducible exact Only.refl _ _
    | with_reducible assumption
    | ((with_reducible apply Only.step (State.setFch_only ..)); decide)
    | with_reducible refine Only.ite ?_ ?_)

theorem execThermalShutdown_only (c : Fin 32) (t : Nat) (s : State) : Answers [.frm, .fio, .cap, .prf, .evt, .pwr, .lgr] s (execThermalShutdown c t s) := by
  unfold execThermalShutdown
  repeat (first
    | with_reducible refine Answers.next ?_
    | with_reducible exact Only.refl _ _
    | with_reducible assumption
    | ((with_reducible apply Only.step (State.goto_only ..)); decide)
    | ((with_reducible apply Only.step (State.setFch_only ..)); decide)
    | with_reducible refine Only.ite ?_ ?_)

theorem execThermalRetry_only (c : Fin 32) (tj t : Nat) (s : State) : Answers [.frm, .fio, .cap, .prf, .evt, .pwr, .lgr] s (execThermalRetry c tj t s) := by
  unfold execThermalRetry
  repeat (first
    | with_reducible refine Answers.next ?_
    | with_reducible exact Only.refl _ _
    | with_reducible assumption
    | ((with_reducible apply Only.step (State.goto_only ..)); decide)
    | ((with_reducible apply Only.step (State.setFch_only ..)); decide)
    | with_reducible refine Only.ite ?_ ?_)

theorem execReverseShutdown_only (c : Fin 32) (s : State) : Answers [.fio] s (execReverseShutdown c s) := by
  unfold execReverseShutdown
  repeat (first
    | with_reducible refine Answers.next ?_
    | with_reducible exact Only.refl _ _
    | with_reducible assumption
    | ((with_reducible apply Only.step (State.setFch_only ..)); decide)
    | with_reducible refine Only.ite ?_ ?_)

theorem execReverseReclose_only (c : Fin 32) (s : State) : Answers [.fio] s (execReverseReclose c s) := by
  unfold execReverseReclose
  repeat (first
    | with_reducible refine Answers.next ?_
    | with_reducible exact Only.refl _ _
    | with_reducible assumption
    | ((with_reducible apply Only.step (State.setFch_only ..)); decide)
    | with_reducible refine Only.ite ?_ ?_)

theorem execDiagClassify_only (c : Fin 32) (mv : Nat) (s : State) : Answers [.fio] s (execDiagClassify c mv s) := by
  unfold execDiagClassify
  repeat (first
    | with_reducible refine Answers.next ?_
    | with_reducible exact Only.refl _ _
    | with_reducible assumption
    | ((with_reducible apply Only.step (State.setFch_only ..)); decide)
    | with_reducible refine Only.ite ?_ ?_
    | split
    | (dsimp -proj -beta only []; split))

theorem State.dieApply_only (s : State) (d : Nat) : Only [.fio] s (State.dieApply s d) := by
  unfold State.dieApply
  repeat (first
    | with_reducible exact Only.refl _ _
    | with_reducible assumption
    | ((with_reducible apply Only.step (State.setDie_only ..)); decide))

theorem State.fioApply_only (s : State) (out : W32) : Only [.fio] s (State.fioApply s out) := by
  unfold State.fioApply
  repeat (first
    | with_reducible exact Only.refl _ _
    | with_reducible assumption
    | ((with_reducible apply Only.step (State.dieApply_only ..)); decide)
    | ((with_reducible apply Only.step (State.setFch_only ..)); decide)
    | with_reducible refine Only.foldl ?_ ?_
    | (intro _ _ _; try beta_reduce))

theorem State.fioLatch_only (s : State) : Only [.fio] s (State.fioLatch s) := by
  unfold State.fioLatch
  repeat (first
    | with_reducible exact Only.refl _ _
    | with_reducible assumption
    | ((with_reducible apply Only.step (State.setFch_only ..)); decide)
    | with_reducible refine Only.foldl ?_ ?_
    | (intro _ _ _; try beta_reduce)
    | fail_if_no_progress with_reducible refine Only.fio (by decide) ?_)

theorem execLogicSilenceExpiry_only (d : Fin 4) (s : State) : Answers [.frm, .fio, .cap, .prf, .evt, .pwr, .lgr] s (execLogicSilenceExpiry d s) := by
  unfold execLogicSilenceExpiry
  repeat (first
    | with_reducible refine Answers.next ?_
    | with_reducible exact Only.refl _ _
    | with_reducible assumption
    | ((with_reducible apply Only.step (State.mapDie_only ..)); decide)
    | ((with_reducible apply Only.step (State.goto_only ..)); decide)
    | ((with_reducible apply Only.step (State.setDie_only ..)); decide)
    | with_reducible refine Only.ite ?_ ?_)

theorem State.safeSwitchesOpen_only (s : State) (d : Nat) : Only [.saf] s (State.safeSwitchesOpen s d) := by
  unfold State.safeSwitchesOpen
  repeat (first
    | with_reducible exact Only.refl _ _
    | with_reducible assumption
    | ((with_reducible apply Only.step (State.setSout_only ..)); decide)
    | with_reducible refine Only.ite ?_ ?_
    | with_reducible refine Only.foldl ?_ ?_
    | (intro _ _ _; try beta_reduce))

theorem execVfldThresholdCross_only (d : Fin 4) (k : Fin 3) (s : State) : Answers [.saf, .fio, .cap, .prf, .evt, .lgr] s (execVfldThresholdCross d k s) := by
  unfold execVfldThresholdCross
  repeat (first
    | with_reducible refine Answers.next ?_
    | with_reducible exact Only.refl _ _
    | with_reducible assumption
    | ((with_reducible apply Only.step (State.safeSwitchesOpen_only ..)); decide)
    | ((with_reducible apply Only.step (State.raiseDie_only ..)); decide)
    | ((with_reducible apply Only.step (State.mapDie_only ..)); decide)
    | ((with_reducible apply Only.step (State.setDie_only ..)); decide)
    | with_reducible refine Only.ite ?_ ?_)

theorem execVfldThresholdClear_only (d : Fin 4) (k : Fin 2) (s : State) : Answers [.fio] s (execVfldThresholdClear d k s) := by
  unfold execVfldThresholdClear
  repeat (first
    | with_reducible refine Answers.next ?_
    | with_reducible exact Only.refl _ _
    | with_reducible assumption
    | ((with_reducible apply Only.step (State.setDie_only ..)); decide)
    | with_reducible refine Only.ite ?_ ?_)

theorem execOffLatchRelease_only (d : Fin 4) (s : State) : Answers [.fio] s (execOffLatchRelease d s) := by
  unfold execOffLatchRelease
  repeat (first
    | with_reducible refine Answers.next ?_
    | with_reducible exact Only.refl _ _
    | with_reducible assumption
    | ((with_reducible apply Only.step (State.setDie_only ..)); decide)
    | with_reducible refine Only.ite ?_ ?_)

theorem execFieldDiePowerUp_only (d : Fin 4) (s : State) : Answers [.fio] s (execFieldDiePowerUp d s) := by
  unfold execFieldDiePowerUp
  repeat (first
    | with_reducible refine Answers.next ?_
    | with_reducible exact Only.refl _ _
    | with_reducible assumption
    | ((with_reducible apply Only.step (State.mapDie_only ..)); decide)
    | ((with_reducible apply Only.step (State.setDie_only ..)); decide))

end Sys2Proof.Machine
end

