-- ==== Sys2Proof/Laws/Capture.lean ====
section
/-! SUPPORT. What the operations of Machine/Capture change of the state: nothing outside the listed parts. -/

set_option linter.unusedTactic false
set_option linter.unreachableTactic false

namespace Sys2Proof.Machine

theorem State.capWrite_only (s : State) (a : Nat) (bs : List Byte) : Only [.cap] s (State.capWrite s a bs) := by
  unfold State.capWrite
  repeat (first
    | with_reducible exact Only.refl _ _
    | with_reducible assumption
    | fail_if_no_progress with_reducible refine Only.cap (by decide) ?_)

theorem State.capArm_only (s : State) : Only [.cap] s (State.capArm s) := by
  unfold State.capArm
  repeat (first
    | with_reducible exact Only.refl _ _
    | with_reducible assumption
    | ((with_reducible apply Only.step (State.capWrite_only ..)); decide)
    | with_reducible refine Only.ite ?_ ?_
    | fail_if_no_progress with_reducible refine Only.cap (by decide) ?_)

theorem State.crevWrite_only (s : State) (x : CrevRun) : Only [.cap] s (State.crevWrite s x) := by
  unfold State.crevWrite
  repeat (first
    | with_reducible exact Only.refl _ _
    | with_reducible assumption
    | ((with_reducible apply Only.step (State.capWrite_only ..)); decide)
    | with_reducible refine Only.ite ?_ ?_
    | fail_if_no_progress with_reducible refine Only.cap (by decide) ?_)

theorem State.crevClose_only (s : State) : Only [.cap] s (State.crevClose s) := by
  unfold State.crevClose
  repeat (first
    | with_reducible exact Only.refl _ _
    | with_reducible assumption
    | ((with_reducible apply Only.step (State.crevWrite_only ..)); decide)
    | with_reducible refine Only.ite ?_ ?_
    | fail_if_no_progress with_reducible refine Only.cap (by decide) ?_
    | split
    | (dsimp -proj -beta only []; split))

theorem State.capEnded_only (s : State) : Only [.prf, .evt] s (State.capEnded s) := by
  unfold State.capEnded
  repeat (first
    | with_reducible exact Only.refl _ _
    | with_reducible assumption
    | ((with_reducible apply Only.step (State.irq_only ..)); decide)
    | with_reducible refine Only.ite ?_ ?_)

theorem State.recEnd_only (s : State) (trunc : Bool) (next : CapSt) : Only [.cap, .prf, .evt] s (State.recEnd s trunc next) := by
  unfold State.recEnd
  repeat (first
    | with_reducible exact Only.refl _ _
    | with_reducible assumption
    | ((with_reducible apply Only.step (State.capEnded_only ..)); decide)
    | ((with_reducible apply Only.step (State.crevClose_only ..)); decide)
    | with_reducible refine Only.ite ?_ ?_
    | fail_if_no_progress with_reducible refine Only.cap (by decide) ?_)

theorem State.capHalt_only (s : State) (next : CapSt) : Only [.cap, .prf, .evt] s (State.capHalt s next) := by
  unfold State.capHalt
  repeat (first
    | with_reducible exact Only.refl _ _
    | with_reducible assumption
    | ((with_reducible apply Only.step (State.recEnd_only ..)); decide)
    | ((with_reducible apply Only.step (State.capEnded_only ..)); decide)
    | fail_if_no_progress with_reducible refine Only.cap (by decide) ?_
    | split
    | (dsimp -proj -beta only []; split))

theorem State.capAccept_only (s : State) (forced host : Bool) : Only [.cap] s (State.capAccept s forced host) := by
  unfold State.capAccept
  repeat (first
    | with_reducible exact Only.refl _ _
    | with_reducible assumption
    | ((with_reducible apply Only.step (State.crevWrite_only ..)); decide)
    | with_reducible refine Only.ite ?_ ?_
    | with_reducible refine Only.foldl ?_ ?_
    | (intro _ _ _; try beta_reduce)
    | fail_if_no_progress with_reducible refine Only.cap (by decide) ?_)

theorem State.levelTrig_only (s : State) (v : F64) : Only [.cap] s (State.levelTrig s v).2 := by
  unfold State.levelTrig
  exact Only.cap (by decide) (Only.refl _ _)

theorem State.tapTrig_only (s : State) (w : W16) : Only [.cap] s (State.tapTrig s w).2 := by
  unfold State.tapTrig
  repeat (first
    | with_reducible exact Only.refl _ _
    | with_reducible refine Only.iteSnd ?_ ?_
    | fail_if_no_progress with_reducible refine Only.cap (by decide) ?_)

theorem State.capJudge_only (s : State) (t : Nat) (own : Bool) : Only [.cap] s (State.capJudge s t own) := by
  unfold State.capJudge
  repeat (first
    | with_reducible exact Only.refl _ _
    | with_reducible assumption
    | ((with_reducible apply Only.step (State.capAccept_only ..)); decide)
    | with_reducible refine Only.ite ?_ ?_
    | fail_if_no_progress with_reducible refine Only.cap (by decide) ?_
    | split
    | (dsimp -proj -beta only []; split))

theorem State.capAdmit_only (s : State) (t : Nat) (bytes : List Byte) : Only [.cap] s (State.capAdmit s t bytes) := by
  unfold State.capAdmit
  repeat (first
    | with_reducible exact Only.refl _ _
    | with_reducible assumption
    | ((with_reducible apply Only.step (State.crevClose_only ..)); decide)
    | with_reducible refine Only.ite ?_ ?_
    | fail_if_no_progress with_reducible refine Only.cap (by decide) ?_)

theorem State.capMiss_only (s : State) (t cause : Nat) : Only [.cap, .prf, .evt, .lgr] s (State.capMiss s t cause) := by
  unfold State.capMiss
  repeat (first
    | with_reducible exact Only.refl _ _
    | with_reducible assumption
    | ((with_reducible apply Only.step (State.crevClose_only ..)); decide)
    | ((with_reducible apply Only.step (State.raiseDevOnce_only ..)); decide)
    | with_reducible refine Only.ite ?_ ?_
    | fail_if_no_progress with_reducible refine Only.cap (by decide) ?_
    | split
    | (dsimp -proj -beta only []; split))

theorem State.capDead_only (s : State) (t : Nat) : Only [.cap] s (State.capDead s t) := by
  unfold State.capDead
  repeat (first
    | with_reducible exact Only.refl _ _
    | with_reducible assumption
    | with_reducible refine Only.ite ?_ ?_
    | fail_if_no_progress with_reducible refine Only.cap (by decide) ?_)

theorem State.capAfter_only (s : State) (t : Nat) : Only [.cap, .prf, .evt, .lgr] s (State.capAfter s t) := by
  unfold State.capAfter
  repeat (first
    | with_reducible exact Only.refl _ _
    | with_reducible assumption
    | ((with_reducible apply Only.step (State.recEnd_only ..)); decide)
    | ((with_reducible apply Only.step (State.raiseDevOnce_only ..)); decide)
    | with_reducible refine Only.ite ?_ ?_
    | fail_if_no_progress with_reducible refine Only.cap (by decide) ?_
    | split
    | (dsimp -proj -beta only []; split))

theorem State.capInstant_only (s : State) (t : Nat) (w : W16) : Only [.cap, .prf, .evt, .lgr] s (State.capInstant s t w) := by
  unfold State.capInstant
  repeat (first
    | with_reducible exact Only.refl _ _
    | with_reducible assumption
    | ((with_reducible apply Only.step (State.capAfter_only ..)); decide)
    | ((with_reducible apply Only.step (State.capDead_only ..)); decide)
    | ((with_reducible apply Only.step (State.capMiss_only ..)); decide)
    | ((with_reducible apply Only.step (State.capAdmit_only ..)); decide)
    | ((with_reducible apply Only.step (State.capJudge_only ..)); decide)
    | ((with_reducible apply Only.step (State.tapTrig_only ..)); decide)
    | ((with_reducible apply Only.step (Only.eq_snd (State.tapTrig_only ..) (by assumption))); decide)
    | ((with_reducible apply Only.step (State.levelTrig_only ..)); decide)
    | ((with_reducible apply Only.step (Only.eq_snd (State.levelTrig_only ..) (by assumption))); decide)
    | with_reducible refine Only.ite ?_ ?_
    | fail_if_no_progress with_reducible refine Only.cap (by decide) ?_
    | split
    | (dsimp -proj -beta only []; split))

theorem execCaptureSample_only (w : W16) (t : Nat) (s : State) : Answers [.frm, .cap, .prf, .evt, .pwr, .lgr] s (execCaptureSample w t s) := by
  unfold execCaptureSample
  repeat (first
    | with_reducible refine Answers.next ?_
    | with_reducible exact Only.refl _ _
    | with_reducible assumption
    | ((with_reducible apply Only.step (State.capInstant_only ..)); decide)
    | ((with_reducible apply Only.step (State.goto_only ..)); decide)
    | with_reducible refine Only.ite ?_ ?_
    | fail_if_no_progress with_reducible refine Only.cap (by decide) ?_)

theorem execAutoTriggerExpiry_only (s : State) : Answers [.frm, .cap, .prf, .evt, .pwr, .lgr] s (execAutoTriggerExpiry s) := by
  unfold execAutoTriggerExpiry
  repeat (first
    | with_reducible refine Answers.next ?_
    | with_reducible exact Only.refl _ _
    | with_reducible assumption
    | ((with_reducible apply Only.step (State.goto_only ..)); decide)
    | with_reducible refine Only.ite ?_ ?_
    | fail_if_no_progress with_reducible refine Only.cap (by decide) ?_
    | split
    | (dsimp -proj -beta only []; split))

theorem execRearmComplete_only (t : Nat) (s : State) : Answers [.frm, .cap, .prf, .evt, .pwr, .lgr] s (execRearmComplete t s) := by
  unfold execRearmComplete
  repeat (first
    | with_reducible refine Answers.next ?_
    | with_reducible exact Only.refl _ _
    | with_reducible assumption
    | ((with_reducible apply Only.step (State.capArm_only ..)); decide)
    | ((with_reducible apply Only.step (State.goto_only ..)); decide)
    | with_reducible refine Only.ite ?_ ?_)

theorem State.setRec_only (s : State) (r : CapRec) : Only [.cap] s (State.setRec s r) := by
  unfold State.setRec
  repeat (first
    | with_reducible exact Only.refl _ _
    | with_reducible assumption
    | with_reducible refine Only.ite ?_ ?_
    | fail_if_no_progress with_reducible refine Only.cap (by decide) ?_)

theorem State.maskFreeze_only (s : State) (r : CapRec) (v : Nat) : Only [.cap, .prf, .evt] s (State.maskFreeze s r v) := by
  unfold State.maskFreeze
  repeat (first
    | with_reducible exact Only.refl _ _
    | with_reducible assumption
    | ((with_reducible apply Only.step (State.setRec_only ..)); decide)
    | ((with_reducible apply Only.step (State.capHalt_only ..)); decide)
    | ((with_reducible apply Only.step (State.recEnd_only ..)); decide)
    | ((with_reducible apply Only.step (State.capEnded_only ..)); decide)
    | with_reducible refine Only.ite ?_ ?_
    | fail_if_no_progress with_reducible refine Only.cap (by decide) ?_)

theorem State.maskSample_only (s : State) (x : StgSmp) : Only [.cap, .prf, .evt, .lgr] s (State.maskSample s x) := by
  unfold State.maskSample
  repeat (first
    | with_reducible exact Only.refl _ _
    | with_reducible assumption
    | ((with_reducible apply Only.step (State.maskFreeze_only ..)); decide)
    | ((with_reducible apply Only.step (State.setRec_only ..)); decide)
    | ((with_reducible apply Only.step (State.raiseDevOnce_only ..)); decide)
    | with_reducible refine Only.ite ?_ ?_
    | fail_if_no_progress with_reducible refine Only.cap (by decide) ?_
    | split
    | (dsimp -proj -beta only []; split))

theorem execStagingDrain_only (s : State) : Answers [.cap, .prf, .evt, .pwr, .lgr] s (execStagingDrain s) := by
  unfold execStagingDrain
  repeat (first
    | with_reducible refine Answers.next ?_
    | with_reducible exact Only.refl _ _
    | with_reducible assumption
    | ((with_reducible apply Only.step (State.maskSample_only ..)); decide)
    | ((with_reducible apply Only.step (State.capWrite_only ..)); decide)
    | ((with_reducible apply Only.step (State.bwBytes_only ..)); decide)
    | with_reducible refine Only.ite ?_ ?_
    | fail_if_no_progress with_reducible refine Only.cap (by decide) ?_
    | fail_if_no_progress with_reducible refine Only.pwr (by decide) ?_
    | split
    | (dsimp -proj -beta only []; split))

theorem execRecordComplete_only (s : State) : Answers [.cap] s (execRecordComplete s) := by
  unfold execRecordComplete
  repeat (first
    | with_reducible refine Answers.next ?_
    | with_reducible exact Only.refl _ _
    | with_reducible assumption
    | ((with_reducible apply Only.step (State.capWrite_only ..)); decide)
    | with_reducible refine Only.ite ?_ ?_
    | fail_if_no_progress with_reducible refine Only.cap (by decide) ?_
    | split
    | (dsimp -proj -beta only []; split))

theorem execCaptStart_only (s : State) : Answers [.cap, .prf, .host, .evt] s (execCaptStart s) := by
  unfold execCaptStart
  repeat (first
    | with_reducible refine Answers.next ?_
    | with_reducible exact Only.refl _ _
    | with_reducible assumption
    | with_reducible refine State.serve_only _ _ _ (by decide) ?_
    | (intro _ _ _; try beta_reduce)
    | ((with_reducible apply Only.step (State.answer_only ..)); decide)
    | with_reducible refine Only.ite ?_ ?_
    | fail_if_no_progress with_reducible refine Only.cap (by decide) ?_)

theorem execCaptStop_only (s : State) : Answers [.cap, .prf, .host, .evt] s (execCaptStop s) := by
  unfold execCaptStop
  repeat (first
    | with_reducible refine Answers.next ?_
    | with_reducible exact Only.refl _ _
    | with_reducible assumption
    | ((with_reducible apply Only.step (State.capHalt_only ..)); decide)
    | with_reducible refine State.serve_only _ _ _ (by decide) ?_
    | (intro _ _ _; try beta_reduce)
    | ((with_reducible apply Only.step (State.answer_only ..)); decide)
    | with_reducible refine Only.ite ?_ ?_
    | fail_if_no_progress with_reducible refine Only.cap (by decide) ?_)

theorem State.capForce_only (s : State) : Only [.cap] s (State.capForce s) := by
  unfold State.capForce
  repeat (first
    | with_reducible exact Only.refl _ _
    | with_reducible assumption
    | with_reducible refine Only.ite ?_ ?_
    | fail_if_no_progress with_reducible refine Only.cap (by decide) ?_)

theorem execCaptForce_only (s : State) : Answers [.cap, .prf, .host, .evt] s (execCaptForce s) := by
  unfold execCaptForce
  repeat (first
    | with_reducible refine Answers.next ?_
    | with_reducible exact Only.refl _ _
    | with_reducible assumption
    | ((with_reducible apply Only.step (State.capForce_only ..)); decide)
    | with_reducible refine State.serve_only _ _ _ (by decide) ?_
    | (intro _ _ _; try beta_reduce)
    | ((with_reducible apply Only.step (State.answer_only ..)); decide)
    | with_reducible refine Only.ite ?_ ?_
    | fail_if_no_progress with_reducible refine Only.cap (by decide) ?_)

theorem State.capBegin_only (s : State) : Only [.cap] s (State.capBegin s) := by
  unfold State.capBegin
  repeat (first
    | with_reducible exact Only.refl _ _
    | with_reducible assumption
    | ((with_reducible apply Only.step (State.capArm_only ..)); decide)
    | with_reducible refine Only.ite ?_ ?_
    | fail_if_no_progress with_reducible refine Only.cap (by decide) ?_)

theorem State.capBoundary_only (s : State) : Only [.cap, .prf, .evt] s (State.capBoundary s) := by
  unfold State.capBoundary
  repeat (first
    | with_reducible exact Only.refl _ _
    | with_reducible assumption
    | ((with_reducible apply Only.step (State.capBegin_only ..)); decide)
    | ((with_reducible apply Only.step (State.capForce_only ..)); decide)
    | ((with_reducible apply Only.step (State.capHalt_only ..)); decide)
    | with_reducible refine Only.ite ?_ ?_
    | fail_if_no_progress with_reducible refine Only.cap (by decide) ?_)

theorem State.capRoleEnd_only (s : State) : Only [.cap, .prf, .evt] s (State.capRoleEnd s) := by
  unfold State.capRoleEnd
  repeat (first
    | with_reducible exact Only.refl _ _
    | with_reducible assumption
    | ((with_reducible apply Only.step (State.capHalt_only ..)); decide)
    | with_reducible refine Only.ite ?_ ?_
    | fail_if_no_progress with_reducible refine Only.cap (by decide) ?_)

theorem execCaptureApertureWrite_only (off : Nat) (v : W32) (s : State) : Answers [.cap, .prf, .host] s (execCaptureApertureWrite off v s) := by
  unfold execCaptureApertureWrite
  repeat (first
    | with_reducible refine Answers.next ?_
    | with_reducible exact Only.refl _ _
    | with_reducible assumption
    | ((with_reducible apply Only.step (State.capWrite_only ..)); decide)
    | ((with_reducible apply Only.step (State.hostWrite_only ..)); decide)
    | with_reducible refine Only.ite ?_ ?_
    | fail_if_no_progress with_reducible refine Only.cap (by decide) ?_)

theorem execCapRecno_only (s : State) : Answers [.cap, .prf, .host] s (execCapRecno s) := by
  unfold execCapRecno
  repeat (first
    | with_reducible refine Answers.next ?_
    | with_reducible exact Only.refl _ _
    | with_reducible assumption
    | ((with_reducible apply Only.step (State.hostWord_only ..)); decide)
    | fail_if_no_progress with_reducible refine Only.cap (by decide) ?_)

theorem execCapCrevsmpLo_only (s : State) : Answers [.cap, .prf, .host] s (execCapCrevsmpLo s) := by
  unfold execCapCrevsmpLo
  repeat (first
    | with_reducible refine Answers.next ?_
    | with_reducible exact Only.refl _ _
    | with_reducible assumption
    | ((with_reducible apply Only.step (State.hostWord_only ..)); decide)
    | fail_if_no_progress with_reducible refine Only.cap (by decide) ?_)

theorem execCapDeadmax_only (s : State) : Answers [.cap, .prf, .host] s (execCapDeadmax s) := by
  unfold execCapDeadmax
  repeat (first
    | with_reducible refine Answers.next ?_
    | with_reducible exact Only.refl _ _
    | with_reducible assumption
    | ((with_reducible apply Only.step (State.hostWord_only ..)); decide)
    | fail_if_no_progress with_reducible refine Only.cap (by decide) ?_)

theorem execCapStage_only (s : State) : Answers [.cap, .prf, .host] s (execCapStage s) := by
  unfold execCapStage
  repeat (first
    | with_reducible refine Answers.next ?_
    | with_reducible exact Only.refl _ _
    | with_reducible assumption
    | ((with_reducible apply Only.step (State.hostWord_only ..)); decide)
    | fail_if_no_progress with_reducible refine Only.cap (by decide) ?_)

end Sys2Proof.Machine
end

