-- ==== Sys2Proof/Laws/Boundary.lean ====
section
/-! SUPPORT. What the operations of Machine/Boundary change of the state: nothing outside the listed parts. -/

set_option linter.unusedTactic false
set_option linter.unreachableTactic false

namespace Sys2Proof.Machine

theorem State.initAxes_only (s : State) : Only [.axes, .lines, .zones] s (State.initAxes s) := by
  unfold State.initAxes
  repeat (first
    | with_reducible exact Only.refl _ _
    | with_reducible assumption
    | ((with_reducible apply Only.step (State.setZone_only ..)); decide)
    | ((with_reducible apply Only.step (State.setAxis_only ..)); decide)
    | with_reducible refine Only.foldl ?_ ?_
    | (intro _ _ _; try beta_reduce)
    | fail_if_no_progress with_reducible refine Only.axes_lines_zones (by decide) (by decide) (by decide) ?_
    | fail_if_no_progress with_reducible refine Only.axes (by decide) ?_
    | fail_if_no_progress with_reducible refine Only.lines (by decide) ?_
    | fail_if_no_progress with_reducible refine Only.zones (by decide) ?_)

end Sys2Proof.Machine
end

