-- ==== Sys2Proof/Laws/SafetyFn.lean ====
section
/-! SUPPORT. What the operations of Machine/SafetyFn change of the state: nothing outside the listed parts. -/

set_option linter.unusedTactic false
set_option linter.unreachableTactic false

namespace Sys2Proof.Machine

theorem execSlsViolation_only (g : Fin 32) (s : State) : Answers [.saf, .cap, .prf, .evt, .lgr] s (execSlsViolation g s) := by
  unfold execSlsViolation
  repeat (first
    | with_reducible refine Answers.next ?_
    | with_reducible exact Only.refl _ _
    | with_reducible assumption
    | ((with_reducible apply Only.step (State.raise_only ..)); decide)
    | ((with_reducible apply Only.step (State.setSgrp_only ..)); decide)
    | with_reducible refine Only.ite ?_ ?_)

theorem execSs1TimeExpiry_only (g : Fin 32) (s : State) : Answers [.saf] s (execSs1TimeExpiry g s) := by
  unfold execSs1TimeExpiry
  repeat (first
    | with_reducible refine Answers.next ?_
    | with_reducible exact Only.refl _ _
    | with_reducible assumption
    | ((with_reducible apply Only.step (State.setSgrp_only ..)); decide)
    | with_reducible refine Only.ite ?_ ?_)

theorem execSs1TmaxExpiry_only (g : Fin 32) (s : State) : Answers [.saf] s (execSs1TmaxExpiry g s) := by
  unfold execSs1TmaxExpiry
  repeat (first
    | with_reducible refine Answers.next ?_
    | with_reducible exact Only.refl _ _
    | with_reducible assumption
    | ((with_reducible apply Only.step (State.setSgrp_only ..)); decide)
    | with_reducible refine Only.ite ?_ ?_)

theorem State.enterSto_only (s : State) (g reason : Nat) (fail : Bool) : Only [.saf, .cap, .prf, .evt, .lgr] s (State.enterSto s g reason fail) := by
  unfold State.enterSto
  repeat (first
    | with_reducible exact Only.refl _ _
    | with_reducible assumption
    | ((with_reducible apply Only.step (State.raise_only ..)); decide)
    | ((with_reducible apply Only.step (State.setSgrp_only ..)); decide)
    | with_reducible refine Only.ite ?_ ?_)

theorem State.enterSs1_only (s : State) (g : Nat) : Only [.saf, .cap, .prf, .evt, .lgr] s (State.enterSs1 s g) := by
  unfold State.enterSs1
  repeat (first
    | with_reducible exact Only.refl _ _
    | with_reducible assumption
    | ((with_reducible apply Only.step (State.raise_only ..)); decide)
    | ((with_reducible apply Only.step (State.setSgrp_only ..)); decide))

theorem State.outsReturn_only (s : State) (g : Nat) : Only [.saf] s (State.outsReturn s g) := by
  unfold State.outsReturn
  repeat (first
    | with_reducible exact Only.refl _ _
    | with_reducible assumption
    | ((with_reducible apply Only.step (State.setSout_only ..)); decide)
    | with_reducible refine Only.ite ?_ ?_
    | with_reducible refine Only.foldl ?_ ?_
    | (intro _ _ _; try beta_reduce))

theorem State.groupDecide_only (s : State) (exp : Bool) (g : Nat) : Only [.saf, .cap, .prf, .evt, .lgr] s (State.groupDecide s exp g) := by
  unfold State.groupDecide
  repeat (first
    | with_reducible exact Only.refl _ _
    | with_reducible assumption
    | ((with_reducible apply Only.step (State.outsReturn_only ..)); decide)
    | ((with_reducible apply Only.step (State.enterSs1_only ..)); decide)
    | ((with_reducible apply Only.step (State.enterSto_only ..)); decide)
    | ((with_reducible apply Only.step (State.setSgrp_only ..)); decide)
    | with_reducible refine Only.ite ?_ ?_
    | split
    | (dsimp -proj -beta only []; split))

theorem State.groupNext_only (s : State) (g : Nat) : Only [.saf] s (State.groupNext s g) := by
  unfold State.groupNext
  repeat (first
    | with_reducible exact Only.refl _ _
    | with_reducible assumption
    | ((with_reducible apply Only.step (State.setSgrp_only ..)); decide)
    | with_reducible refine Only.ite ?_ ?_)

theorem execSbcDelayExpiry_only (g : Fin 32) (s : State) : Answers [.saf] s (execSbcDelayExpiry g s) := by
  unfold execSbcDelayExpiry
  repeat (first
    | with_reducible refine Answers.next ?_
    | with_reducible exact Only.refl _ _
    | with_reducible assumption
    | ((with_reducible apply Only.step (State.outsOpen_only ..)); decide)
    | ((with_reducible apply Only.step (State.setSgrp_only ..)); decide)
    | with_reducible refine Only.ite ?_ ?_
    | split
    | (dsimp -proj -beta only []; split))

theorem execDegradedWindowExpiry_only (s : State) : Answers [.frm, .saf, .cap, .prf, .evt, .pwr, .lgr] s (execDegradedWindowExpiry s) := by
  unfold execDegradedWindowExpiry
  repeat (first
    | with_reducible refine Answers.next ?_
    | with_reducible exact Only.refl _ _
    | with_reducible assumption
    | ((with_reducible apply Only.step (State.goto_only ..)); decide)
    | with_reducible refine Only.ite ?_ ?_
    | fail_if_no_progress with_reducible refine Only.saf (by decide) ?_)

theorem State.issue_only (s : State) (c : Nat) : Only [.saf] s (State.issue s c) := by
  unfold State.issue
  repeat (first
    | with_reducible exact Only.refl _ _
    | with_reducible assumption
    | ((with_reducible apply Only.step (State.setConn_only ..)); decide))

theorem State.withhold_only (s : State) (c : Nat) : Only [.saf, .cap, .prf, .evt, .lgr] s (State.withhold s c) := by
  unfold State.withhold
  repeat (first
    | with_reducible exact Only.refl _ _
    | with_reducible assumption
    | ((with_reducible apply Only.step (State.raise_only ..)); decide)
    | ((with_reducible apply Only.step (State.setConn_only ..)); decide)
    | fail_if_no_progress with_reducible refine Only.saf (by decide) ?_
    | split
    | (dsimp -proj -beta only []; split))

theorem State.ssqOpen_only (s : State) : Only [.lgr] s (State.ssqOpen s) := by
  unfold State.ssqOpen
  repeat (first
    | with_reducible exact Only.refl _ _
    | with_reducible assumption
    | fail_if_no_progress with_reducible refine Only.lgr (by decide) ?_)

theorem execPduRelease_only (c : Fin 64) (s : State) : Answers [.saf, .cap, .prf, .evt, .lgr] s (execPduRelease c s) := by
  unfold execPduRelease
  repeat (first
    | with_reducible refine Answers.next ?_
    | with_reducible exact Only.refl _ _
    | with_reducible assumption
    | ((with_reducible apply Only.step (State.ssqOpen_only ..)); decide)
    | ((with_reducible apply Only.step (State.withhold_only ..)); decide)
    | ((with_reducible apply Only.step (State.pulseX_only ..)); decide)
    | ((with_reducible apply Only.step (State.setConn_only ..)); decide)
    | with_reducible refine Only.ite ?_ ?_)

theorem State.connSettle_only (s : State) (c why : Nat) : Only [.saf, .cap, .prf, .evt, .lgr] s (State.connSettle s c why) := by
  unfold State.connSettle
  repeat (first
    | with_reducible exact Only.refl _ _
    | with_reducible assumption
    | ((with_reducible apply Only.step (State.raise_only ..)); decide)
    | ((with_reducible apply Only.step (State.setConn_only ..)); decide)
    | with_reducible refine Only.ite ?_ ?_
    | split
    | (dsimp -proj -beta only []; split))

theorem State.connReject_only (s : State) (c : Nat) : Only [.saf, .cap, .prf, .evt, .lgr] s (State.connReject s c) := by
  unfold State.connReject
  repeat (first
    | with_reducible exact Only.refl _ _
    | with_reducible assumption
    | ((with_reducible apply Only.step (State.raise_only ..)); decide)
    | ((with_reducible apply Only.step (State.setConn_only ..)); decide)
    | with_reducible refine Only.ite ?_ ?_)

theorem State.connTake_only (s : State) (c : Nat) (p : RxPar) (b : Pdu) : Only [.saf, .cap, .prf, .evt, .lgr] s (State.connTake s c p b) := by
  unfold State.connTake
  repeat (first
    | with_reducible exact Only.refl _ _
    | with_reducible assumption
    | ((with_reducible apply Only.step (State.connSettle_only ..)); decide)
    | ((with_reducible apply Only.step (State.ssqOpen_only ..)); decide)
    | ((with_reducible apply Only.step (State.setConn_only ..)); decide)
    | with_reducible refine Only.ite ?_ ?_)

theorem State.connObserve_only (s : State) (c : Nat) (b : Pdu) : Only [.saf] s (State.connObserve s c b) := by
  unfold State.connObserve
  repeat (first
    | with_reducible exact Only.refl _ _
    | with_reducible assumption
    | ((with_reducible apply Only.step (State.setConn_only ..)); decide)
    | with_reducible refine Only.ite ?_ ?_
    | split
    | (dsimp -proj -beta only []; split))

theorem execSafetyPduReceived_only (c : Fin 64) (bytes : List Byte) (t : Nat) (s : State) : Answers [.frm, .saf, .cap, .prf, .evt, .pwr, .lgr] s (execSafetyPduReceived c bytes t s) := by
  unfold execSafetyPduReceived
  repeat (first
    | with_reducible refine Answers.next ?_
    | with_reducible exact Only.refl _ _
    | with_reducible assumption
    | ((with_reducible apply Only.step (State.connObserve_only ..)); decide)
    | ((with_reducible apply Only.step (State.connTake_only ..)); decide)
    | ((with_reducible apply Only.step (State.connReject_only ..)); decide)
    | ((with_reducible apply Only.step (State.goto_only ..)); decide)
    | with_reducible refine Only.ite ?_ ?_)

theorem execSafetyWatchdogExpiry_only (c : Fin 64) (chB : Bool) (s : State) : Answers [.frm, .saf, .cap, .prf, .evt, .pwr, .lgr] s (execSafetyWatchdogExpiry c chB s) := by
  unfold execSafetyWatchdogExpiry
  repeat (first
    | with_reducible refine Answers.next ?_
    | with_reducible exact Only.refl _ _
    | with_reducible assumption
    | ((with_reducible apply Only.step (State.connSettle_only ..)); decide)
    | ((with_reducible apply Only.step (State.goto_only ..)); decide)
    | ((with_reducible apply Only.step (State.setConn_only ..)); decide)
    | with_reducible refine Only.ite ?_ ?_)

theorem State.copyMirrors_only (s : State) : Only [.saf, .prf, .evt] s (State.copyMirrors s) := by
  unfold State.copyMirrors
  repeat (first
    | with_reducible exact Only.refl _ _
    | with_reducible assumption
    | ((with_reducible apply Only.step (State.irq_only ..)); decide)
    | with_reducible refine Only.ite ?_ ?_
    | with_reducible refine Only.foldl ?_ ?_
    | (intro _ _ _; try beta_reduce)
    | fail_if_no_progress with_reducible refine Only.saf (by decide) ?_)

theorem State.twoAgain_only (s : State) : Only [.saf] s (State.twoAgain s) := by
  unfold State.twoAgain
  repeat (first
    | with_reducible exact Only.refl _ _
    | with_reducible assumption
    | ((with_reducible apply Only.step (State.degLeave_only ..)); decide)
    | ((with_reducible apply Only.step (State.setConn_only ..)); decide)
    | with_reducible refine Only.ite ?_ ?_
    | with_reducible refine Only.foldl ?_ ?_
    | (intro _ _ _; try beta_reduce)
    | fail_if_no_progress with_reducible refine Only.saf (by decide) ?_)

theorem State.clocks_only (s : State) : Only [.saf, .cap, .prf, .evt, .lgr] s (State.clocks s) := by
  unfold State.clocks
  repeat (first
    | with_reducible exact Only.refl _ _
    | with_reducible assumption
    | ((with_reducible apply Only.step (State.chanFault_only ..)); decide)
    | with_reducible refine Only.ite ?_ ?_
    | fail_if_no_progress with_reducible refine Only.saf (by decide) ?_)

theorem State.diagCycle_only (s : State) : Only [.saf, .cap, .prf, .evt, .lgr] s (State.diagCycle s) := by
  unfold State.diagCycle
  repeat (first
    | with_reducible exact Only.refl _ _
    | with_reducible assumption
    | ((with_reducible apply Only.step (State.diagDecide_only ..)); decide)
    | with_reducible refine Only.ite ?_ ?_
    | fail_if_no_progress with_reducible refine Only.saf (by decide) ?_)

theorem State.clearCycle_only (s : State) : Only [.saf] s (State.clearCycle s) := by
  unfold State.clearCycle
  repeat (first
    | with_reducible exact Only.refl _ _
    | with_reducible assumption
    | ((with_reducible apply Only.step (State.twoAgain_only ..)); decide)
    | with_reducible refine Only.ite ?_ ?_
    | fail_if_no_progress with_reducible refine Only.saf (by decide) ?_
    | split
    | (dsimp -proj -beta only []; split))

theorem State.compare_only (s : State) : Only [.saf, .cap, .prf, .evt, .lgr] s (State.compare s) := by
  unfold State.compare
  repeat (first
    | with_reducible exact Only.refl _ _
    | with_reducible assumption
    | ((with_reducible apply Only.step (State.clearCycle_only ..)); decide)
    | ((with_reducible apply Only.step (State.diagCycle_only ..)); decide)
    | with_reducible refine Only.ite ?_ ?_
    | fail_if_no_progress with_reducible refine Only.saf (by decide) ?_
    | split
    | (dsimp -proj -beta only []; split))

theorem execSafetyCycleEnd_only (s : State) : Answers [.frm, .saf, .cap, .prf, .evt, .pwr, .lgr] s (execSafetyCycleEnd s) := by
  unfold execSafetyCycleEnd
  repeat (first
    | with_reducible refine Answers.next ?_
    | with_reducible exact Only.refl _ _
    | with_reducible assumption
    | ((with_reducible apply Only.step (State.compare_only ..)); decide)
    | ((with_reducible apply Only.step (State.clocks_only ..)); decide)
    | ((with_reducible apply Only.step (State.copyMirrors_only ..)); decide)
    | ((with_reducible apply Only.step (State.withhold_only ..)); decide)
    | ((with_reducible apply Only.step (State.issue_only ..)); decide)
    | ((with_reducible apply Only.step (State.groupNext_only ..)); decide)
    | ((with_reducible apply Only.step (State.groupDecide_only ..)); decide)
    | ((with_reducible apply Only.step (State.outsOpen_only ..)); decide)
    | ((with_reducible apply Only.step (State.degLeave_only ..)); decide)
    | ((with_reducible apply Only.step (State.checkSseq_only ..)); decide)
    | ((with_reducible apply Only.step (State.goto_only ..)); decide)
    | ((with_reducible apply Only.step (State.raiseDev_only ..)); decide)
    | ((with_reducible apply Only.step (State.setConn_only ..)); decide)
    | with_reducible refine Only.ite ?_ ?_
    | with_reducible refine Only.foldl ?_ ?_
    | (intro _ _ _; try beta_reduce)
    | fail_if_no_progress with_reducible refine Only.saf (by decide) ?_)

theorem State.runSet_only (s : State) (k : Nat) : Only [.saf] s (State.runSet s k) := by
  unfold State.runSet
  repeat (first
    | with_reducible exact Only.refl _ _
    | with_reducible assumption
    | fail_if_no_progress with_reducible refine Only.saf (by decide) ?_)

theorem execSafetySetCheck_only (s : State) : Answers [.saf, .cap, .prf, .evt, .lgr] s (execSafetySetCheck s) := by
  unfold execSafetySetCheck
  repeat (first
    | with_reducible refine Answers.next ?_
    | with_reducible exact Only.refl _ _
    | with_reducible assumption
    | ((with_reducible apply Only.step (State.runSet_only ..)); decide)
    | ((with_reducible apply Only.step (State.raiseDev_only ..)); decide)
    | with_reducible refine Only.ite ?_ ?_)

theorem execSafeConfirmTimeout_only (s : State) : Answers [.frm, .saf, .cap, .prf, .evt, .pwr, .lgr] s (execSafeConfirmTimeout s) := by
  unfold execSafeConfirmTimeout
  repeat (first
    | with_reducible refine Answers.next ?_
    | with_reducible exact Only.refl _ _
    | with_reducible assumption
    | ((with_reducible apply Only.step (State.goto_only ..)); decide)
    | with_reducible refine Only.ite ?_ ?_
    | fail_if_no_progress with_reducible refine Only.saf (by decide) ?_)

theorem execSafeReset_only (s : State) : Answers [.saf, .prf, .host, .evt] s (execSafeReset s) := by
  unfold execSafeReset
  repeat (first
    | with_reducible refine Answers.next ?_
    | with_reducible exact Only.refl _ _
    | with_reducible assumption
    | with_reducible refine State.serve_only _ _ _ (by decide) ?_
    | (intro _ _ _; try beta_reduce)
    | ((with_reducible apply Only.step (State.answer_only ..)); decide)
    | ((with_reducible apply Only.step (State.setSgrp_only ..)); decide)
    | with_reducible refine Only.ite ?_ ?_)

theorem execSafeClear_only (s : State) : Answers [.saf, .cap, .prf, .host, .evt, .lgr] s (execSafeClear s) := by
  unfold execSafeClear
  repeat (first
    | with_reducible refine Answers.next ?_
    | with_reducible exact Only.refl _ _
    | with_reducible assumption
    | ((with_reducible apply Only.step (State.transient_only ..)); decide)
    | with_reducible refine State.serve_only _ _ _ (by decide) ?_
    | (intro _ _ _; try beta_reduce)
    | ((with_reducible apply Only.step (State.answer_only ..)); decide)
    | with_reducible refine Only.ite ?_ ?_
    | fail_if_no_progress with_reducible refine Only.saf (by decide) ?_
    | split
    | (dsimp -proj -beta only []; split))

theorem State.safeStore_only (s : State) (off : Nat) (d : List Byte) : Only [.saf, .cfg] s (State.safeStore s off d) := by
  unfold State.safeStore
  repeat (first
    | with_reducible exact Only.refl _ _
    | with_reducible assumption
    | fail_if_no_progress with_reducible refine Only.saf_cfg (by decide) (by decide) ?_
    | fail_if_no_progress with_reducible refine Only.saf (by decide) ?_
    | fail_if_no_progress with_reducible refine Only.cfg (by decide) ?_)

theorem State.safeStored_only (s : State) (m j : Nat) : Only [.saf, .prf, .host, .evt] s (State.safeStored s m j) := by
  unfold State.safeStored
  repeat (first
    | with_reducible exact Only.refl _ _
    | with_reducible assumption
    | ((with_reducible apply Only.step (State.answer_only ..)); decide)
    | with_reducible refine Only.ite ?_ ?_
    | fail_if_no_progress with_reducible refine Only.saf (by decide) ?_)

theorem execSafeLoad_only (s : State) : Answers [.saf, .prf, .host, .evt, .cfg] s (execSafeLoad s) := by
  unfold execSafeLoad
  repeat (first
    | with_reducible refine Answers.next ?_
    | with_reducible exact Only.refl _ _
    | with_reducible assumption
    | ((with_reducible apply Only.step (State.safeStored_only ..)); decide)
    | ((with_reducible apply Only.step (State.safeStore_only ..)); decide)
    | with_reducible refine State.serve_only _ _ _ (by decide) ?_
    | (intro _ _ _; try beta_reduce)
    | ((with_reducible apply Only.step (State.answer_only ..)); decide)
    | with_reducible refine Only.ite ?_ ?_
    | fail_if_no_progress with_reducible refine Only.saf (by decide) ?_)

theorem execSafeLoadEraseComplete_only (s : State) : Answers [.saf, .prf, .host, .evt, .cfg] s (execSafeLoadEraseComplete s) := by
  unfold execSafeLoadEraseComplete
  repeat (first
    | with_reducible refine Answers.next ?_
    | with_reducible exact Only.refl _ _
    | with_reducible assumption
    | ((with_reducible apply Only.step (State.safeStored_only ..)); decide)
    | ((with_reducible apply Only.step (State.safeStore_only ..)); decide)
    | with_reducible refine Only.ite ?_ ?_
    | fail_if_no_progress with_reducible refine Only.saf (by decide) ?_
    | fail_if_no_progress with_reducible refine Only.cfg (by decide) ?_
    | split
    | (dsimp -proj -beta only []; split))

theorem execSafeConfirm_only (s : State) : Answers [.saf, .prf, .host, .evt, .cfg] s (execSafeConfirm s) := by
  unfold execSafeConfirm
  repeat (first
    | with_reducible refine Answers.next ?_
    | with_reducible exact Only.refl _ _
    | with_reducible assumption
    | ((with_reducible apply Only.step (State.runSet_only ..)); decide)
    | with_reducible refine State.serve_only _ _ _ (by decide) ?_
    | (intro _ _ _; try beta_reduce)
    | ((with_reducible apply Only.step (State.answer_only ..)); decide)
    | ((with_reducible apply Only.step (State.dropSseq_only ..)); decide)
    | with_reducible refine Only.ite ?_ ?_
    | fail_if_no_progress with_reducible refine Only.saf_cfg (by decide) (by decide) ?_
    | fail_if_no_progress with_reducible refine Only.saf (by decide) ?_
    | fail_if_no_progress with_reducible refine Only.cfg (by decide) ?_)

end Sys2Proof.Machine
end

