-- ==== Sys2Proof/Laws/Redundancy.lean ====
section
/-! SUPPORT. What the operations of Machine/Redundancy change of the state: nothing outside the listed parts. -/

set_option linter.unusedTactic false
set_option linter.unreachableTactic false

namespace Sys2Proof.Machine

theorem State.healthBit_only (s : State) (k : Nat) (bad : Bool) : Only [.red] s (State.healthBit s k bad) := by
  unfold State.healthBit
  repeat (first
    | with_reducible exact Only.refl _ _
    | with_reducible assumption
    | with_reducible refine Only.ite ?_ ?_
    | fail_if_no_progress with_reducible refine Only.red (by decide) ?_)

theorem execRedImgfcLo_only (s : State) : Answers [.red, .prf, .host] s (execRedImgfcLo s) := by
  unfold execRedImgfcLo
  repeat (first
    | with_reducible refine Answers.next ?_
    | with_reducible exact Only.refl _ _
    | with_reducible assumption
    | ((with_reducible apply Only.step (State.hostWord_only ..)); decide)
    | fail_if_no_progress with_reducible refine Only.red (by decide) ?_)

theorem execRedTkfcLo_only (s : State) : Answers [.red, .prf, .host] s (execRedTkfcLo s) := by
  unfold execRedTkfcLo
  repeat (first
    | with_reducible refine Answers.next ?_
    | with_reducible exact Only.refl _ _
    | with_reducible assumption
    | ((with_reducible apply Only.step (State.hostWord_only ..)); decide)
    | fail_if_no_progress with_reducible refine Only.red (by decide) ?_)

theorem execRedHbmiss_only (s : State) : Answers [.red, .prf, .host] s (execRedHbmiss s) := by
  unfold execRedHbmiss
  repeat (first
    | with_reducible refine Answers.next ?_
    | with_reducible exact Only.refl _ _
    | with_reducible assumption
    | ((with_reducible apply Only.step (State.hostWord_only ..)); decide)
    | fail_if_no_progress with_reducible refine Only.red (by decide) ?_)

theorem State.stopKernels_only (s : State) : Only [.dsp, .prf] s (State.stopKernels s) := by
  unfold State.stopKernels
  repeat (first
    | with_reducible exact Only.refl _ _
    | with_reducible assumption
    | ((with_reducible apply Only.step (State.unlist_only ..)); decide)
    | ((with_reducible apply Only.step (State.setTask_only ..)); decide)
    | with_reducible refine Only.ite ?_ ?_
    | with_reducible refine Only.foldl ?_ ?_
    | (intro _ _ _; try beta_reduce)
    | fail_if_no_progress with_reducible refine Only.dsp_prf (by decide) (by decide) ?_
    | fail_if_no_progress with_reducible refine Only.dsp (by decide) ?_
    | fail_if_no_progress with_reducible refine Only.prf (by decide) ?_)

theorem State.discardHead_only (s : State) : Only [.axes, .lines, .zones, .net, .red, .evt] s (State.discardHead s) := by
  unfold State.discardHead
  repeat (first
    | with_reducible exact Only.refl _ _
    | with_reducible assumption
    | ((with_reducible apply Only.step (State.initAxes_only ..)); decide)
    | ((with_reducible apply Only.step (State.credit_only ..)); decide)
    | with_reducible refine Only.ite ?_ ?_
    | fail_if_no_progress with_reducible refine Only.net_red_evt (by decide) (by decide) (by decide) ?_
    | fail_if_no_progress with_reducible refine Only.net (by decide) ?_
    | fail_if_no_progress with_reducible refine Only.red (by decide) ?_
    | fail_if_no_progress with_reducible refine Only.evt (by decide) ?_)

theorem State.leaveHead_only (s : State) : Only [.frm, .axes, .lines, .zones, .net, .dsp, .red, .saf, .fio, .cap, .prf, .host, .evt, .cfg, .lgr] s (State.leaveHead s) := by
  unfold State.leaveHead
  repeat (first
    | with_reducible exact Only.refl _ _
    | with_reducible assumption
    | ((with_reducible apply Only.step (State.discardHead_only ..)); decide)
    | ((with_reducible apply Only.step (State.stopKernels_only ..)); decide)
    | ((with_reducible apply Only.step (State.capRoleEnd_only ..)); decide)
    | ((with_reducible apply Only.step (State.roleChange_only ..)); decide)
    | ((with_reducible apply Only.step (State.closeLedgers_only ..)); decide)
    | ((with_reducible apply Only.step (State.openLedger_only ..)); decide)
    | ((with_reducible apply Only.step (State.standbyRole_only ..)); decide)
    | fail_if_no_progress with_reducible refine Only.net_fio (by decide) (by decide) ?_
    | fail_if_no_progress with_reducible refine Only.net (by decide) ?_
    | fail_if_no_progress with_reducible refine Only.fio (by decide) ?_)

theorem State.earlyYield_only (s : State) : Only [.frm, .axes, .lines, .zones, .net, .dsp, .red, .cap, .prf, .evt, .lgr] s (State.earlyYield s) := by
  unfold State.earlyYield
  repeat (first
    | with_reducible exact Only.refl _ _
    | with_reducible assumption
    | ((with_reducible apply Only.step (State.discardHead_only ..)); decide)
    | ((with_reducible apply Only.step (State.stopKernels_only ..)); decide)
    | ((with_reducible apply Only.step (State.capRoleEnd_only ..)); decide)
    | ((with_reducible apply Only.step (State.closeLedgers_only ..)); decide)
    | ((with_reducible apply Only.step (State.yieldStart_only ..)); decide)
    | ((with_reducible apply Only.step (State.raiseDev_only ..)); decide)
    | fail_if_no_progress with_reducible refine Only.frm (by decide) ?_)

theorem State.seeCsm_only (s : State) (b : Nat) (id : W64) : Only [.net] s (State.seeCsm s b id) := by
  unfold State.seeCsm
  repeat (first
    | with_reducible exact Only.refl _ _
    | with_reducible assumption
    | fail_if_no_progress with_reducible refine Only.net (by decide) ?_)

theorem execForeignCsm_only (b : Fin 8) (bytes : List Byte) (x : Arrival) (s : State) : Answers [.frm, .axes, .lines, .zones, .net, .dsp, .red, .saf, .fio, .cap, .prf, .host, .evt, .cfg, .pwr, .lgr] s (execForeignCsm b bytes x s) := by
  unfold execForeignCsm
  repeat (first
    | with_reducible refine Answers.next ?_
    | with_reducible exact Only.refl _ _
    | with_reducible assumption
    | ((with_reducible apply Only.step (State.seeCsm_only ..)); decide)
    | ((with_reducible apply Only.step (State.earlyYield_only ..)); decide)
    | ((with_reducible apply Only.step (State.leaveHead_only ..)); decide)
    | ((with_reducible apply Only.step (State.rxFrame_only ..)); decide)
    | ((with_reducible apply Only.step (State.raiseDev_only ..)); decide)
    | ((with_reducible apply Only.step (State.raiseOnce_only ..)); decide)
    | with_reducible refine Only.ite ?_ ?_
    | fail_if_no_progress with_reducible refine Only.net (by decide) ?_
    | split
    | (dsimp -proj -beta only []; split))

theorem State.connTxStart_only (s : State) : Only [.saf] s (State.connTxStart s) := by
  unfold State.connTxStart
  repeat (first
    | with_reducible exact Only.refl _ _
    | with_reducible assumption
    | ((with_reducible apply Only.step (State.setConn_only ..)); decide)
    | with_reducible refine Only.ite ?_ ?_
    | with_reducible refine Only.foldl ?_ ?_
    | (intro _ _ _; try beta_reduce)
    | split
    | (dsimp -proj -beta only []; split))

theorem State.takeoverDecision_only (s : State) : Only [.red, .saf, .cap, .prf, .evt, .lgr] s (State.takeoverDecision s) := by
  unfold State.takeoverDecision
  repeat (first
    | with_reducible exact Only.refl _ _
    | with_reducible assumption
    | ((with_reducible apply Only.step (State.connTxStart_only ..)); decide)
    | ((with_reducible apply Only.step (State.raiseDev_only ..)); decide)
    | with_reducible refine Only.ite ?_ ?_
    | fail_if_no_progress with_reducible refine Only.red (by decide) ?_)

theorem State.silentCheck_only (s : State) : Only [.red, .saf, .cap, .prf, .evt, .lgr] s (State.silentCheck s) := by
  unfold State.silentCheck
  repeat (first
    | with_reducible exact Only.refl _ _
    | with_reducible assumption
    | ((with_reducible apply Only.step (State.takeoverDecision_only ..)); decide)
    | ((with_reducible apply Only.step (State.setTk_only ..)); decide)
    | with_reducible refine Only.ite ?_ ?_
    | fail_if_no_progress with_reducible refine Only.red (by decide) ?_)

theorem execHeartbeatReceived_only (bytes : List Byte) (t : Nat) (s : State) : Answers [.frm, .red, .cap, .prf, .evt, .pwr, .lgr] s (execHeartbeatReceived bytes t s) := by
  unfold execHeartbeatReceived
  repeat (first
    | with_reducible refine Answers.next ?_
    | with_reducible exact Only.refl _ _
    | with_reducible assumption
    | ((with_reducible apply Only.step (State.goto_only ..)); decide)
    | with_reducible refine Only.ite ?_ ?_
    | fail_if_no_progress with_reducible refine Only.red (by decide) ?_
    | split
    | (dsimp -proj -beta only []; split))

theorem execHeartbeatWindowClose_only (s : State) : Answers [.frm, .red, .saf, .cap, .prf, .evt, .pwr, .lgr] s (execHeartbeatWindowClose s) := by
  unfold execHeartbeatWindowClose
  repeat (first
    | with_reducible refine Answers.next ?_
    | with_reducible exact Only.refl _ _
    | with_reducible assumption
    | ((with_reducible apply Only.step (State.silentCheck_only ..)); decide)
    | ((with_reducible apply Only.step (State.goto_only ..)); decide)
    | ((with_reducible apply Only.step (State.raiseDev_only ..)); decide)
    | ((with_reducible apply Only.step (State.pulseX_only ..)); decide)
    | with_reducible refine Only.ite ?_ ?_
    | fail_if_no_progress with_reducible refine Only.red (by decide) ?_)

theorem execCsmWindowClose_only (b : Fin 8) (s : State) : Answers [.frm, .net, .red, .saf, .cap, .prf, .evt, .pwr, .lgr] s (execCsmWindowClose b s) := by
  unfold execCsmWindowClose
  repeat (first
    | with_reducible refine Answers.next ?_
    | with_reducible exact Only.refl _ _
    | with_reducible assumption
    | ((with_reducible apply Only.step (State.silentCheck_only ..)); decide)
    | ((with_reducible apply Only.step (State.decideCsm_only ..)); decide)
    | ((with_reducible apply Only.step (State.goto_only ..)); decide)
    | with_reducible refine Only.ite ?_ ?_
    | fail_if_no_progress with_reducible refine Only.red (by decide) ?_)

theorem State.connRxStart_only (s : State) : Only [.saf] s (State.connRxStart s) := by
  unfold State.connRxStart
  repeat (first
    | with_reducible exact Only.refl _ _
    | with_reducible assumption
    | ((with_reducible apply Only.step (State.setConn_only ..)); decide)
    | with_reducible refine Only.foldl ?_ ?_
    | (intro _ _ _; try beta_reduce))

theorem State.becomeHead_only (s : State) (restart : W48) : Only [.frm, .net, .red, .saf, .prf, .host, .evt, .lgr] s (State.becomeHead s restart) := by
  unfold State.becomeHead
  repeat (first
    | with_reducible exact Only.refl _ _
    | with_reducible assumption
    | ((with_reducible apply Only.step (State.connRxStart_only ..)); decide)
    | ((with_reducible apply Only.step (State.present_only ..)); decide)
    | ((with_reducible apply Only.step (State.openLedger_only ..)); decide)
    | ((with_reducible apply Only.step (State.setTk_only ..)); decide)
    | ((with_reducible apply Only.step (State.headSends_only ..)); decide)
    | ((with_reducible apply Only.step (State.cycleOn_only ..)); decide)
    | ((with_reducible apply Only.step (State.setRole_only ..)); decide)
    | fail_if_no_progress with_reducible refine Only.frm_net_red (by decide) (by decide) (by decide) ?_
    | fail_if_no_progress with_reducible refine Only.frm (by decide) ?_
    | fail_if_no_progress with_reducible refine Only.net (by decide) ?_
    | fail_if_no_progress with_reducible refine Only.red (by decide) ?_)

theorem execTakeoverStart_only (s : State) : Answers [.frm, .net, .red, .saf, .cap, .prf, .host, .evt, .lgr] s (execTakeoverStart s) := by
  unfold execTakeoverStart
  repeat (first
    | with_reducible refine Answers.next ?_
    | with_reducible exact Only.refl _ _
    | with_reducible assumption
    | ((with_reducible apply Only.step (State.becomeHead_only ..)); decide)
    | ((with_reducible apply Only.step (State.raiseDev_only ..)); decide)
    | with_reducible refine Only.ite ?_ ?_)

theorem execHandoverStart_only (s : State) : Answers [.frm, .net, .red, .saf, .cap, .prf, .host, .evt, .lgr] s (execHandoverStart s) := by
  unfold execHandoverStart
  repeat (first
    | with_reducible refine Answers.next ?_
    | with_reducible exact Only.refl _ _
    | with_reducible assumption
    | ((with_reducible apply Only.step (State.becomeHead_only ..)); decide)
    | ((with_reducible apply Only.step (State.connTxStart_only ..)); decide)
    | ((with_reducible apply Only.step (State.raiseDev_only ..)); decide)
    | with_reducible refine Only.ite ?_ ?_
    | fail_if_no_progress with_reducible refine Only.red (by decide) ?_)

theorem execImageLoadComplete_only (t : Nat) (s : State) : Answers [.frm, .red, .cap, .prf, .evt, .pwr, .lgr] s (execImageLoadComplete t s) := by
  unfold execImageLoadComplete
  repeat (first
    | with_reducible refine Answers.next ?_
    | with_reducible exact Only.refl _ _
    | with_reducible assumption
    | ((with_reducible apply Only.step (State.goto_only ..)); decide)
    | with_reducible refine Only.ite ?_ ?_
    | fail_if_no_progress with_reducible refine Only.red (by decide) ?_
    | split
    | (dsimp -proj -beta only []; split))

theorem State.restartOne_only (s : State) (im : Image) (i : Nat) : Only [.axes, .red, .cap, .prf, .evt, .lgr] s (State.restartOne s im i) := by
  unfold State.restartOne
  repeat (first
    | with_reducible exact Only.refl _ _
    | with_reducible assumption
    | ((with_reducible apply Only.step (State.raiseAx_only ..)); decide)
    | ((with_reducible apply Only.step (State.setAxis_only ..)); decide)
    | with_reducible refine Only.ite ?_ ?_
    | fail_if_no_progress with_reducible refine Only.red (by decide) ?_
    | split
    | (dsimp -proj -beta only []; split))

theorem execRestartFrame_only (s : State) : Answers [.axes, .lines, .zones, .red, .cap, .prf, .evt, .lgr] s (execRestartFrame s) := by
  unfold execRestartFrame
  repeat (first
    | with_reducible refine Answers.next ?_
    | with_reducible exact Only.refl _ _
    | with_reducible assumption
    | ((with_reducible apply Only.step (State.restartOne_only ..)); decide)
    | ((with_reducible apply Only.step (State.setZone_only ..)); decide)
    | with_reducible refine Only.ite ?_ ?_
    | with_reducible refine Only.foldl ?_ ?_
    | (intro _ _ _; try beta_reduce)
    | fail_if_no_progress with_reducible refine Only.lines_red_evt (by decide) (by decide) (by decide) ?_
    | fail_if_no_progress with_reducible refine Only.lines (by decide) ?_
    | fail_if_no_progress with_reducible refine Only.red (by decide) ?_
    | fail_if_no_progress with_reducible refine Only.evt (by decide) ?_
    | split
    | (dsimp -proj -beta only []; split))

theorem State.takeSnapshot_only (s : State) (final : Bool) : Only [.red] s (State.takeSnapshot s final) := by
  unfold State.takeSnapshot
  repeat (first
    | with_reducible exact Only.refl _ _
    | with_reducible assumption
    | with_reducible refine Only.ite ?_ ?_
    | fail_if_no_progress with_reducible refine Only.red (by decide) ?_
    | split
    | (dsimp -proj -beta only []; split))

theorem execSnapshot_only (s : State) : Answers [.red] s (execSnapshot s) := by
  unfold execSnapshot
  repeat (first
    | with_reducible refine Answers.next ?_
    | with_reducible exact Only.refl _ _
    | with_reducible assumption
    | ((with_reducible apply Only.step (State.takeSnapshot_only ..)); decide)
    | with_reducible refine Only.ite ?_ ?_
    | fail_if_no_progress with_reducible refine Only.red (by decide) ?_)

theorem execFirnSegmentSend_only (s : State) : Answers [.frm, .red, .cap, .prf, .evt, .pwr, .lgr] s (execFirnSegmentSend s) := by
  unfold execFirnSegmentSend
  repeat (first
    | with_reducible refine Answers.next ?_
    | with_reducible exact Only.refl _ _
    | with_reducible assumption
    | ((with_reducible apply Only.step (State.goto_only ..)); decide)
    | ((with_reducible apply Only.step (State.pulseX_only ..)); decide)
    | with_reducible refine Only.ite ?_ ?_
    | fail_if_no_progress with_reducible refine Only.red (by decide) ?_
    | split
    | (dsimp -proj -beta only []; split))

theorem execFirnSegmentReceived_only (seg : Segment) (t : Nat) (s : State) : Answers [.frm, .red, .cap, .prf, .evt, .pwr, .lgr] s (execFirnSegmentReceived seg t s) := by
  unfold execFirnSegmentReceived
  repeat (first
    | with_reducible refine Answers.next ?_
    | with_reducible exact Only.refl _ _
    | with_reducible assumption
    | ((with_reducible apply Only.step (State.healthBit_only ..)); decide)
    | ((with_reducible apply Only.step (State.goto_only ..)); decide)
    | ((with_reducible apply Only.step (State.pulseX_only ..)); decide)
    | with_reducible refine Only.ite ?_ ?_
    | fail_if_no_progress with_reducible refine Only.red (by decide) ?_
    | split
    | (dsimp -proj -beta only []; split))

theorem execReturnSend_only (s : State) : Answers [.red] s (execReturnSend s) := by
  unfold execReturnSend
  repeat (first
    | with_reducible refine Answers.next ?_
    | with_reducible exact Only.refl _ _
    | with_reducible assumption
    | with_reducible refine Only.ite ?_ ?_
    | fail_if_no_progress with_reducible refine Only.red (by decide) ?_
    | split
    | (dsimp -proj -beta only []; split))

theorem State.applyEntry_only (s : State) (e : Nat × W64) : Only [.frm, .zones, .fio, .params] s (State.applyEntry s e) := by
  unfold State.applyEntry
  repeat (first
    | with_reducible exact Only.refl _ _
    | with_reducible assumption
    | ((with_reducible apply Only.step (State.setFch_only ..)); decide)
    | ((with_reducible apply Only.step (State.setZone_only ..)); decide)
    | ((with_reducible apply Only.step (State.setPar_only ..)); decide)
    | with_reducible refine Only.ite ?_ ?_
    | fail_if_no_progress with_reducible refine Only.frm (by decide) ?_)

theorem applyEntries_only (l : List (Nat × Nat)) (s : State) : Only [.frm, .zones, .fio, .params] s (applyEntries l s) := by
  induction l, s using applyEntries.induct with
  | case1 s => exact Only.refl _ _
  | case2 k v s => exact State.applyEntry_only ..
  | case3 k lo k' hi r s h ih =>
    unfold applyEntries; rw [if_pos h]
    exact Only.step ih (by decide) (State.applyEntry_only ..)
  | case4 k lo k' hi r s h ih =>
    unfold applyEntries; rw [if_neg h]
    exact Only.step ih (by decide) (State.applyEntry_only ..)

theorem execParameterRecordReceived_only (bytes : List Byte) (t : Nat) (s : State) : Answers [.frm, .zones, .fio, .cap, .prf, .evt, .params, .pwr, .lgr] s (execParameterRecordReceived bytes t s) := by
  unfold execParameterRecordReceived
  repeat (first
    | with_reducible refine Answers.next ?_
    | with_reducible exact Only.refl _ _
    | with_reducible assumption
    | ((with_reducible apply Only.step (applyEntries_only ..)); decide)
    | ((with_reducible apply Only.step (State.goto_only ..)); decide)
    | with_reducible refine Only.ite ?_ ?_)

theorem State.yieldAnswer_only (s : State) (seq : W32) (res : Nat) : Only [.red] s (State.yieldAnswer s seq res) := by
  unfold State.yieldAnswer
  repeat (first
    | with_reducible exact Only.refl _ _
    | with_reducible assumption
    | with_reducible refine Only.ite ?_ ?_
    | fail_if_no_progress with_reducible refine Only.red (by decide) ?_)

theorem execReturnReceived_only (bytes : List Byte) (t : Nat) (s : State) : Answers [.frm, .red, .cap, .prf, .evt, .pwr, .lgr] s (execReturnReceived bytes t s) := by
  unfold execReturnReceived
  repeat (first
    | with_reducible refine Answers.next ?_
    | with_reducible exact Only.refl _ _
    | with_reducible assumption
    | ((with_reducible apply Only.step (State.yieldAnswer_only ..)); decide)
    | ((with_reducible apply Only.step (State.goto_only ..)); decide)
    | ((with_reducible apply Only.step (State.raiseDev_only ..)); decide)
    | with_reducible refine Only.ite ?_ ?_
    | fail_if_no_progress with_reducible refine Only.red (by decide) ?_)

theorem execFirnReturnTimeout_only (s : State) : Answers [.red, .cap, .prf, .evt, .lgr] s (execFirnReturnTimeout s) := by
  unfold execFirnReturnTimeout
  repeat (first
    | with_reducible refine Answers.next ?_
    | with_reducible exact Only.refl _ _
    | with_reducible assumption
    | ((with_reducible apply Only.step (State.raiseDev_only ..)); decide)
    | with_reducible refine Only.ite ?_ ?_
    | fail_if_no_progress with_reducible refine Only.red (by decide) ?_)

theorem execGoldenVectorTest_only (pass : Byte) (s : State) : Answers [.red] s (execGoldenVectorTest pass s) := by
  unfold execGoldenVectorTest
  repeat (first
    | with_reducible refine Answers.next ?_
    | with_reducible exact Only.refl _ _
    | with_reducible assumption
    | ((with_reducible apply Only.step (State.healthBit_only ..)); decide)
    | with_reducible refine Only.ite ?_ ?_)

theorem execSramScrubPass_only (ok : Bool) (s : State) : Answers [.red] s (execSramScrubPass ok s) := by
  unfold execSramScrubPass
  repeat (first
    | with_reducible refine Answers.next ?_
    | with_reducible exact Only.refl _ _
    | with_reducible assumption
    | ((with_reducible apply Only.step (State.healthBit_only ..)); decide)
    | with_reducible refine Only.ite ?_ ?_)

theorem execLoopbackTest_only (b : Fin 8) (ok : Bool) (s : State) : Answers [.red] s (execLoopbackTest b ok s) := by
  unfold execLoopbackTest
  repeat (first
    | with_reducible refine Answers.next ?_
    | with_reducible exact Only.refl _ _
    | with_reducible assumption
    | with_reducible refine Only.ite ?_ ?_
    | fail_if_no_progress with_reducible refine Only.red (by decide) ?_)

theorem execShadowComputation_only (s : State) : Answers [.red] s (execShadowComputation s) := by
  unfold execShadowComputation
  repeat (first
    | with_reducible refine Answers.next ?_
    | with_reducible exact Only.refl _ _
    | with_reducible assumption
    | ((with_reducible apply Only.step (State.healthBit_only ..)); decide)
    | with_reducible refine Only.ite ?_ ?_
    | fail_if_no_progress with_reducible refine Only.red (by decide) ?_
    | split
    | (dsimp -proj -beta only []; split))

theorem execYieldSilence_only (s : State) : Answers [.frm, .axes, .lines, .zones, .net, .dsp, .red, .saf, .fio, .cap, .prf, .host, .evt, .cfg, .lgr] s (execYieldSilence s) := by
  unfold execYieldSilence
  repeat (first
    | with_reducible refine Answers.next ?_
    | with_reducible exact Only.refl _ _
    | with_reducible assumption
    | ((with_reducible apply Only.step (State.leaveHead_only ..)); decide)
    | with_reducible refine Only.ite ?_ ?_)

theorem execYieldTimeout_only (s : State) : Answers [.red, .cap, .prf, .evt, .lgr] s (execYieldTimeout s) := by
  unfold execYieldTimeout
  repeat (first
    | with_reducible refine Answers.next ?_
    | with_reducible exact Only.refl _ _
    | with_reducible assumption
    | ((with_reducible apply Only.step (State.raiseDev_only ..)); decide)
    | with_reducible refine Only.ite ?_ ?_
    | fail_if_no_progress with_reducible refine Only.red (by decide) ?_)

end Sys2Proof.Machine
end

