-- ==== Sys2Proof/Laws/BaseRime.lean ====
section
/-! SUPPORT. What the operations of Machine/BaseRime change of the state: nothing outside the listed parts. -/

set_option linter.unusedTactic false
set_option linter.unreachableTactic false

namespace Sys2Proof.Machine

theorem execDevInfo_only (s : State) : Answers [.prf, .host, .evt] s (execDevInfo s) := by
  unfold execDevInfo
  repeat (first
    | with_reducible refine Answers.next ?_
    | with_reducible exact Only.refl _ _
    | with_reducible assumption
    | with_reducible refine State.serve_only _ _ _ (by decide) ?_
    | (intro _ _ _; try beta_reduce)
    | ((with_reducible apply Only.step (State.answer_only ..)); decide)
    | with_reducible refine Only.ite ?_ ?_)

theorem execOvlApply_only (s : State) : Answers [.prf, .host, .evt] s (execOvlApply s) := by
  unfold execOvlApply
  repeat (first
    | with_reducible refine Answers.next ?_
    | with_reducible exact Only.refl _ _
    | with_reducible assumption
    | ((with_reducible apply Only.step (State.setTaken_only ..)); decide)
    | with_reducible refine State.serve_only _ _ _ (by decide) ?_
    | (intro _ _ _; try beta_reduce)
    | ((with_reducible apply Only.step (State.answer_only ..)); decide)
    | with_reducible refine Only.ite ?_ ?_
    | split
    | (dsimp -proj -beta only []; split))

theorem State.slotVerify_only (s : State) (c : Nat) : Only [.params, .cfg] s (State.slotVerify s c) := by
  unfold State.slotVerify
  repeat (first
    | with_reducible exact Only.refl _ _
    | with_reducible assumption
    | ((with_reducible apply Only.step (State.ovlShow_only ..)); decide)
    | with_reducible refine Only.ite ?_ ?_
    | fail_if_no_progress with_reducible refine Only.cfg (by decide) ?_)

theorem State.slotStored_only (s : State) (c off : Nat) (d : List Byte) : Only [.params, .cfg] s (State.slotStored s c off d) := by
  unfold State.slotStored
  repeat (first
    | with_reducible exact Only.refl _ _
    | with_reducible assumption
    | ((with_reducible apply Only.step (State.slotVerify_only ..)); decide)
    | with_reducible refine Only.ite ?_ ?_
    | fail_if_no_progress with_reducible refine Only.cfg (by decide) ?_
    | split
    | (dsimp -proj -beta only []; split))

theorem execCfgWrite_only (s : State) : Answers [.prf, .host, .evt, .params, .cfg] s (execCfgWrite s) := by
  unfold execCfgWrite
  repeat (first
    | with_reducible refine Answers.next ?_
    | with_reducible exact Only.refl _ _
    | with_reducible assumption
    | ((with_reducible apply Only.step (State.slotStored_only ..)); decide)
    | with_reducible refine State.serve_only _ _ _ (by decide) ?_
    | (intro _ _ _; try beta_reduce)
    | ((with_reducible apply Only.step (State.answer_only ..)); decide)
    | with_reducible refine Only.ite ?_ ?_
    | fail_if_no_progress with_reducible refine Only.cfg (by decide) ?_
    | split
    | (dsimp -proj -beta only []; split))

theorem State.slotErase_only (s : State) (c : Nat) : Only [.params, .cfg] s (State.slotErase s c) := by
  unfold State.slotErase
  repeat (first
    | with_reducible exact Only.refl _ _
    | with_reducible assumption
    | ((with_reducible apply Only.step (State.ovlShow_only ..)); decide)
    | with_reducible refine Only.ite ?_ ?_
    | fail_if_no_progress with_reducible refine Only.cfg (by decide) ?_
    | split
    | (dsimp -proj -beta only []; split))

theorem execFlashWriteComplete_only (s : State) : Answers [.prf, .host, .evt, .params, .cfg] s (execFlashWriteComplete s) := by
  unfold execFlashWriteComplete
  repeat (first
    | with_reducible refine Answers.next ?_
    | with_reducible exact Only.refl _ _
    | with_reducible assumption
    | ((with_reducible apply Only.step (State.slotErase_only ..)); decide)
    | ((with_reducible apply Only.step (State.slotStored_only ..)); decide)
    | ((with_reducible apply Only.step (State.answer_only ..)); decide)
    | fail_if_no_progress with_reducible refine Only.cfg (by decide) ?_
    | split
    | (dsimp -proj -beta only []; split))

theorem State.clearRun_only (s : State) : Only [.frm, .axes, .lines, .cams, .zones, .net, .red, .prf, .evt, .params, .cfg] s (State.clearRun s) := by
  unfold State.clearRun
  repeat (first
    | with_reducible exact Only.refl _ _
    | with_reducible assumption
    | ((with_reducible apply Only.step (State.discardHead_only ..)); decide)
    | ((with_reducible apply Only.step (State.setRole_only ..)); decide)
    | fail_if_no_progress with_reducible refine Only.frm_net_evt_cfg (by decide) (by decide) (by decide) (by decide) ?_
    | fail_if_no_progress with_reducible refine Only.axes_lines_cams_zones_params (by decide) (by decide) (by decide) (by decide) (by decide) ?_
    | fail_if_no_progress with_reducible refine Only.frm (by decide) ?_
    | fail_if_no_progress with_reducible refine Only.axes (by decide) ?_
    | fail_if_no_progress with_reducible refine Only.lines (by decide) ?_
    | fail_if_no_progress with_reducible refine Only.cams (by decide) ?_
    | fail_if_no_progress with_reducible refine Only.zones (by decide) ?_
    | fail_if_no_progress with_reducible refine Only.net (by decide) ?_
    | fail_if_no_progress with_reducible refine Only.evt (by decide) ?_
    | fail_if_no_progress with_reducible refine Only.params (by decide) ?_
    | fail_if_no_progress with_reducible refine Only.cfg (by decide) ?_)

theorem State.endConfig_only (s : State) : Only [.frm, .axes, .lines, .cams, .zones, .net, .dsp, .red, .saf, .fio, .cap, .prf, .evt, .params, .cfg, .lgr] s (State.endConfig s) := by
  unfold State.endConfig
  repeat (first
    | with_reducible exact Only.refl _ _
    | with_reducible assumption
    | ((with_reducible apply Only.step (State.clearRun_only ..)); decide)
    | ((with_reducible apply Only.step (State.stopKernels_only ..)); decide)
    | ((with_reducible apply Only.step (State.capHalt_only ..)); decide)
    | ((with_reducible apply Only.step (State.dropSseq_only ..)); decide)
    | ((with_reducible apply Only.step (State.closeLedgers_only ..)); decide)
    | with_reducible refine Only.ite ?_ ?_
    | fail_if_no_progress with_reducible refine Only.fio (by decide) ?_)

theorem State.activate_only (s : State) (k : Nat) : Only [.cfg] s (State.activate s k) := by
  unfold State.activate
  repeat (first
    | with_reducible exact Only.refl _ _
    | with_reducible assumption
    | fail_if_no_progress with_reducible refine Only.cfg (by decide) ?_)

theorem State.switchTo_only (s : State) (k : Nat) : Only [.frm, .axes, .lines, .cams, .zones, .net, .dsp, .red, .saf, .fio, .cap, .prf, .evt, .params, .cfg, .lgr] s (State.switchTo s k) := by
  unfold State.switchTo
  repeat (first
    | with_reducible exact Only.refl _ _
    | with_reducible assumption
    | ((with_reducible apply Only.step (State.endConfig_only ..)); decide)
    | with_reducible refine Only.ite ?_ ?_
    | fail_if_no_progress with_reducible refine Only.cfg (by decide) ?_)

theorem State.serveSlot_only {w : List Part} (s : State) (op : Nat → Bool) (f : State → Nat → Nat → State)
    (hw : w.contains Part.host = true) (hf : ∀ y m j, Only w y (f y m j)) : Only w s (State.serveSlot s op f) := by
  unfold State.serveSlot
  repeat (first
    | with_reducible exact Only.refl _ _
    | ((with_reducible apply Only.step (hf ..)); simp)
    | ((with_reducible apply Only.step (State.take_only ..)); simpa using hw)
    | split)

theorem execCfgActivate_only (s : State) : Answers [.frm, .axes, .lines, .cams, .zones, .net, .dsp, .red, .saf, .fio, .cap, .prf, .host, .evt, .params, .cfg, .lgr] s (execCfgActivate s) := by
  unfold execCfgActivate
  repeat (first
    | with_reducible refine Answers.next ?_
    | with_reducible exact Only.refl _ _
    | with_reducible assumption
    | with_reducible refine State.serveSlot_only _ _ _ (by decide) ?_
    | (intro _ _ _; try beta_reduce)
    | ((with_reducible apply Only.step (State.switchTo_only ..)); decide)
    | ((with_reducible apply Only.step (State.activate_only ..)); decide)
    | ((with_reducible apply Only.step (State.answer_only ..)); decide)
    | ((with_reducible apply Only.step (State.raiseDev_only ..)); decide)
    | with_reducible refine Only.ite ?_ ?_
    | fail_if_no_progress with_reducible refine Only.cfg (by decide) ?_)

theorem execFirmwareActivate_only (s : State) : Answers [.prf, .host, .evt, .cfg] s (execFirmwareActivate s) := by
  unfold execFirmwareActivate
  repeat (first
    | with_reducible refine Answers.next ?_
    | with_reducible exact Only.refl _ _
    | with_reducible assumption
    | with_reducible refine State.serveSlot_only _ _ _ (by decide) ?_
    | (intro _ _ _; try beta_reduce)
    | ((with_reducible apply Only.step (State.answer_only ..)); decide)
    | with_reducible refine Only.ite ?_ ?_
    | fail_if_no_progress with_reducible refine Only.cfg (by decide) ?_)

theorem execKeyProvision_only (s : State) : Answers [.prf, .host, .evt, .cfg] s (execKeyProvision s) := by
  unfold execKeyProvision
  repeat (first
    | with_reducible refine Answers.next ?_
    | with_reducible exact Only.refl _ _
    | with_reducible assumption
    | with_reducible refine State.serve_only _ _ _ (by decide) ?_
    | (intro _ _ _; try beta_reduce)
    | ((with_reducible apply Only.step (State.answer_only ..)); decide)
    | with_reducible refine Only.ite ?_ ?_
    | fail_if_no_progress with_reducible refine Only.cfg (by decide) ?_)

theorem State.wipe_only (s : State) : Only [.params, .cfg] s (State.wipe s) := by
  unfold State.wipe
  repeat (first
    | with_reducible exact Only.refl _ _
    | with_reducible assumption
    | ((with_reducible apply Only.step (State.slotErase_only ..)); decide)
    | with_reducible refine Only.foldl ?_ ?_
    | (intro _ _ _; try beta_reduce)
    | fail_if_no_progress with_reducible refine Only.cfg (by decide) ?_)

theorem execLifecycle_only (s : State) : Answers [.prf, .host, .evt, .params, .cfg] s (execLifecycle s) := by
  unfold execLifecycle
  repeat (first
    | with_reducible refine Answers.next ?_
    | with_reducible exact Only.refl _ _
    | with_reducible assumption
    | ((with_reducible apply Only.step (State.wipe_only ..)); decide)
    | with_reducible refine State.serve_only _ _ _ (by decide) ?_
    | (intro _ _ _; try beta_reduce)
    | ((with_reducible apply Only.step (State.answer_only ..)); decide)
    | with_reducible refine Only.ite ?_ ?_
    | fail_if_no_progress with_reducible refine Only.cfg (by decide) ?_)

theorem State.runFw_only (s : State) (f : Option Nat) : Only [.cfg] s (State.runFw s f) := by
  unfold State.runFw
  repeat (first
    | with_reducible exact Only.refl _ _
    | with_reducible assumption
    | fail_if_no_progress with_reducible refine Only.cfg (by decide) ?_
    | split
    | (dsimp -proj -beta only []; split))

theorem execBootStart_only (s : State) : Answers [.cap, .prf, .evt, .cfg, .pwr, .lgr] s (execBootStart s) := by
  unfold execBootStart
  repeat (first
    | with_reducible refine Answers.next ?_
    | with_reducible exact Only.refl _ _
    | with_reducible assumption
    | ((with_reducible apply Only.step (State.runFw_only ..)); decide)
    | ((with_reducible apply Only.step (State.retentionClosures_only ..)); decide)
    | ((with_reducible apply Only.step (State.raiseDev_only ..)); decide)
    | ((with_reducible apply Only.step (State.log_only ..)); decide)
    | with_reducible refine Only.ite ?_ ?_
    | fail_if_no_progress with_reducible refine Only.cfg (by decide) ?_
    | fail_if_no_progress with_reducible refine Only.pwr (by decide) ?_)

theorem State.writeTasks_only (s : State) : Only [.dsp] s (State.writeTasks s) := by
  unfold State.writeTasks
  repeat (first
    | with_reducible exact Only.refl _ _
    | with_reducible assumption
    | with_reducible refine Only.foldl ?_ ?_
    | (intro _ _ _; try beta_reduce)
    | fail_if_no_progress with_reducible refine Only.dsp (by decide) ?_)

theorem State.takeImage_only (s : State) (img : List Byte) : Only [.frm, .cams, .camStg, .evt, .params] s (State.takeImage s img) := by
  unfold State.takeImage
  repeat (first
    | with_reducible exact Only.refl _ _
    | with_reducible assumption
    | with_reducible refine Only.foldl ?_ ?_
    | (intro _ _ _; try beta_reduce)
    | fail_if_no_progress with_reducible refine Only.cams_camStg_evt_params (by decide) (by decide) (by decide) (by decide) ?_
    | fail_if_no_progress with_reducible refine Only.frm_cams (by decide) (by decide) ?_
    | fail_if_no_progress with_reducible refine Only.frm (by decide) ?_
    | fail_if_no_progress with_reducible refine Only.cams (by decide) ?_
    | fail_if_no_progress with_reducible refine Only.camStg (by decide) ?_
    | fail_if_no_progress with_reducible refine Only.evt (by decide) ?_
    | fail_if_no_progress with_reducible refine Only.params (by decide) ?_)

theorem State.enablePorts_only (s : State) (node : Bool) : Only [.net] s (State.enablePorts s node) := by
  unfold State.enablePorts
  repeat (first
    | with_reducible exact Only.refl _ _
    | with_reducible assumption
    | ((with_reducible apply Only.step (State.setPort_only ..)); decide)
    | with_reducible refine Only.ite ?_ ?_
    | with_reducible refine Only.foldl ?_ ?_
    | (intro _ _ _; try beta_reduce)
    | fail_if_no_progress with_reducible refine Only.net (by decide) ?_)

theorem State.netStart_only (s : State) (node : Bool) : Only [.net] s (State.netStart s node) := by
  unfold State.netStart
  repeat (first
    | with_reducible exact Only.refl _ _
    | with_reducible assumption
    | with_reducible refine Only.ite ?_ ?_
    | fail_if_no_progress with_reducible refine Only.net (by decide) ?_)

theorem State.hostStart_only (s : State) : Only [.host] s (State.hostStart s) := by
  unfold State.hostStart
  repeat (first
    | with_reducible exact Only.refl _ _
    | with_reducible assumption
    | fail_if_no_progress with_reducible refine Only.host (by decide) ?_)

theorem State.ioStart_only (s : State) : Only [.steps, .encs, .fio, .cap] s (State.ioStart s) := by
  unfold State.ioStart
  repeat (first
    | with_reducible exact Only.refl _ _
    | with_reducible assumption
    | ((with_reducible apply Only.step (State.setDie_only ..)); decide)
    | ((with_reducible apply Only.step (State.setFch_only ..)); decide)
    | ((with_reducible apply Only.step (State.setEnc_only ..)); decide)
    | ((with_reducible apply Only.step (State.setStep_only ..)); decide)
    | with_reducible refine Only.foldl ?_ ?_
    | (intro _ _ _; try beta_reduce)
    | fail_if_no_progress with_reducible refine Only.fio_cap (by decide) (by decide) ?_
    | fail_if_no_progress with_reducible refine Only.fio (by decide) ?_
    | fail_if_no_progress with_reducible refine Only.cap (by decide) ?_)

theorem State.startConfig_only (s : State) (k : Nat) : Only [.frm, .axes, .lines, .cams, .camStg, .zones, .steps, .encs, .net, .dsp, .red, .fio, .cap, .prf, .host, .evt, .params, .cfg, .lgr] s (State.startConfig s k) := by
  unfold State.startConfig
  repeat (first
    | with_reducible exact Only.refl _ _
    | with_reducible assumption
    | ((with_reducible apply Only.step (State.ioStart_only ..)); decide)
    | ((with_reducible apply Only.step (State.hostStart_only ..)); decide)
    | ((with_reducible apply Only.step (State.netStart_only ..)); decide)
    | ((with_reducible apply Only.step (State.enablePorts_only ..)); decide)
    | ((with_reducible apply Only.step (State.takeImage_only ..)); decide)
    | ((with_reducible apply Only.step (State.writeTasks_only ..)); decide)
    | ((with_reducible apply Only.step (State.initAxes_only ..)); decide)
    | ((with_reducible apply Only.step (State.ovlShow_only ..)); decide)
    | ((with_reducible apply Only.step (State.openLedger_only ..)); decide)
    | ((with_reducible apply Only.step (State.setRole_only ..)); decide)
    | with_reducible refine Only.ite ?_ ?_
    | with_reducible refine Only.foldl ?_ ?_
    | (intro _ _ _; try beta_reduce)
    | fail_if_no_progress with_reducible refine Only.red_cfg (by decide) (by decide) ?_
    | fail_if_no_progress with_reducible refine Only.frm (by decide) ?_
    | fail_if_no_progress with_reducible refine Only.red (by decide) ?_
    | fail_if_no_progress with_reducible refine Only.cfg (by decide) ?_)

theorem State.refuseConfig_only (s : State) (k r : Nat) : Only [.cap, .prf, .evt, .cfg, .lgr] s (State.refuseConfig s k r) := by
  unfold State.refuseConfig
  repeat (first
    | with_reducible exact Only.refl _ _
    | with_reducible assumption
    | ((with_reducible apply Only.step (State.raiseDev_only ..)); decide)
    | fail_if_no_progress with_reducible refine Only.cfg (by decide) ?_)

theorem execBaseConfigStart_only (s : State) : Answers [.frm, .axes, .lines, .cams, .camStg, .zones, .steps, .encs, .net, .dsp, .red, .fio, .cap, .prf, .host, .evt, .params, .cfg, .lgr] s (execBaseConfigStart s) := by
  unfold execBaseConfigStart
  repeat (first
    | with_reducible refine Answers.next ?_
    | with_reducible exact Only.refl _ _
    | with_reducible assumption
    | ((with_reducible apply Only.step (State.refuseConfig_only ..)); decide)
    | ((with_reducible apply Only.step (State.startConfig_only ..)); decide)
    | with_reducible refine Only.ite ?_ ?_
    | split
    | (dsimp -proj -beta only []; split))

end Sys2Proof.Machine
end

