-- ==== Sys2Proof/Laws/Counters.lean ====
section
/-! SUPPORT. What the operations of Machine/Counters change of the state: nothing outside the listed parts. -/

set_option linter.unusedTactic false
set_option linter.unreachableTactic false

namespace Sys2Proof.Machine

theorem State.setPc_only (s : State) (k : Nat) (p : Pc) : Only [.prf] s (State.setPc s k p) := by
  unfold State.setPc
  repeat (first
    | with_reducible exact Only.refl _ _
    | with_reducible assumption
    | fail_if_no_progress with_reducible refine Only.prf (by decide) ?_)

theorem execCounterOverflow_only (k : Fin 8) (s : State) : Answers [.prf] s (execCounterOverflow k s) := by
  unfold execCounterOverflow
  repeat (first
    | with_reducible refine Answers.next ?_
    | with_reducible exact Only.refl _ _
    | with_reducible assumption
    | ((with_reducible apply Only.step (State.setPc_only ..)); decide)
    | with_reducible refine Only.ite ?_ ?_)

theorem execPrfCycLo_only (s : State) : Answers [.prf, .host] s (execPrfCycLo s) := by
  unfold execPrfCycLo
  repeat (first
    | with_reducible refine Answers.next ?_
    | with_reducible exact Only.refl _ _
    | with_reducible assumption
    | ((with_reducible apply Only.step (State.hostWord_only ..)); decide)
    | fail_if_no_progress with_reducible refine Only.prf (by decide) ?_)

theorem execPrfCntLo_only (k : Fin 8) (s : State) : Answers [.prf, .host] s (execPrfCntLo k s) := by
  unfold execPrfCntLo
  repeat (first
    | with_reducible refine Answers.next ?_
    | with_reducible exact Only.refl _ _
    | with_reducible assumption
    | ((with_reducible apply Only.step (State.setPc_only ..)); decide)
    | ((with_reducible apply Only.step (State.hostWord_only ..)); decide))

theorem State.pcLoad_only (s : State) (k : Nat) : Only [.prf] s (State.pcLoad s k) := by
  unfold State.pcLoad
  repeat (first
    | with_reducible exact Only.refl _ _
    | with_reducible assumption
    | ((with_reducible apply Only.step (State.setPc_only ..)); decide))

theorem execPrfSetcmd_only (v : W32) (s : State) : Answers [.prf, .host] s (execPrfSetcmd v s) := by
  unfold execPrfSetcmd
  repeat (first
    | with_reducible refine Answers.next ?_
    | with_reducible exact Only.refl _ _
    | with_reducible assumption
    | ((with_reducible apply Only.step (State.pcLoad_only ..)); decide)
    | ((with_reducible apply Only.step (State.hostWrite_only ..)); decide)
    | with_reducible refine Only.foldl ?_ ?_
    | (intro _ _ _; try beta_reduce))

theorem execPrfCtrl_only (v : W32) (s : State) : Answers [.prf, .host] s (execPrfCtrl v s) := by
  unfold execPrfCtrl
  repeat (first
    | with_reducible refine Answers.next ?_
    | with_reducible exact Only.refl _ _
    | with_reducible assumption
    | ((with_reducible apply Only.step (State.setPc_only ..)); decide)
    | ((with_reducible apply Only.step (State.hostWrite_only ..)); decide)
    | with_reducible refine Only.foldl ?_ ?_
    | (intro _ _ _; try beta_reduce)
    | fail_if_no_progress with_reducible refine Only.prf (by decide) ?_)

theorem execPrfCfg_only (k : Fin 8) (v : W32) (s : State) : Answers [.prf, .host] s (execPrfCfg k v s) := by
  unfold execPrfCfg
  repeat (first
    | with_reducible refine Answers.next ?_
    | with_reducible exact Only.refl _ _
    | with_reducible assumption
    | ((with_reducible apply Only.step (State.setPc_only ..)); decide)
    | ((with_reducible apply Only.step (State.hostWrite_only ..)); decide))

theorem execBwWindowEnd_only (m : Fin 10) (s : State) : Answers [.frm, .cap, .prf, .evt, .pwr, .lgr] s (execBwWindowEnd m s) := by
  unfold execBwWindowEnd
  repeat (first
    | with_reducible refine Answers.next ?_
    | with_reducible exact Only.refl _ _
    | with_reducible assumption
    | ((with_reducible apply Only.step (State.goto_only ..)); decide)
    | with_reducible refine Only.ite ?_ ?_
    | fail_if_no_progress with_reducible refine Only.prf (by decide) ?_)

theorem execPrfBwMinmax_only (m : Fin 10) (hi : Bool) (s : State) : Answers [.prf, .host] s (execPrfBwMinmax m hi s) := by
  unfold execPrfBwMinmax
  repeat (first
    | with_reducible refine Answers.next ?_
    | with_reducible exact Only.refl _ _
    | with_reducible assumption
    | ((with_reducible apply Only.step (State.hostWord_only ..)); decide)
    | with_reducible refine Only.ite ?_ ?_
    | fail_if_no_progress with_reducible refine Only.prf (by decide) ?_
    | split
    | (dsimp -proj -beta only []; split))

theorem execPrfTagctl_only (v : W32) (s : State) : Answers [.prf, .host] s (execPrfTagctl v s) := by
  unfold execPrfTagctl
  repeat (first
    | with_reducible refine Answers.next ?_
    | with_reducible exact Only.refl _ _
    | with_reducible assumption
    | ((with_reducible apply Only.step (State.hostWrite_only ..)); decide)
    | with_reducible refine Only.ite ?_ ?_
    | fail_if_no_progress with_reducible refine Only.prf (by decide) ?_)

theorem execPrfTagd0_only (s : State) : Answers [.prf, .host] s (execPrfTagd0 s) := by
  unfold execPrfTagd0
  repeat (first
    | with_reducible refine Answers.next ?_
    | with_reducible exact Only.refl _ _
    | with_reducible assumption
    | ((with_reducible apply Only.step (State.hostWord_only ..)); decide)
    | fail_if_no_progress with_reducible refine Only.prf (by decide) ?_)

end Sys2Proof.Machine
end

