-- ==== Sys2Proof/Laws/Power.lean ====
section
/-! SUPPORT. What the operations of Machine/Power change of the state: nothing outside the listed parts. -/

set_option linter.unusedTactic false
set_option linter.unreachableTactic false

namespace Sys2Proof.Machine

theorem State.seeVmain_only (s : State) (mv : Nat) : Only [.pwr] s (State.seeVmain s mv) := by
  unfold State.seeVmain
  repeat (first
    | with_reducible exact Only.refl _ _
    | with_reducible assumption
    | fail_if_no_progress with_reducible refine Only.pwr (by decide) ?_)

theorem State.seeVcore_only (s : State) (mv : Nat) : Only [.pwr] s (State.seeVcore s mv) := by
  unfold State.seeVcore
  repeat (first
    | with_reducible exact Only.refl _ _
    | with_reducible assumption
    | fail_if_no_progress with_reducible refine Only.pwr (by decide) ?_)

theorem execDroopDetect_only (mv : Nat) (s : State) : Answers [.prf, .pwr] s (execDroopDetect mv s) := by
  unfold execDroopDetect
  repeat (first
    | with_reducible refine Answers.next ?_
    | with_reducible exact Only.refl _ _
    | with_reducible assumption
    | ((with_reducible apply Only.step (State.seeVcore_only ..)); decide)
    | ((with_reducible apply Only.step (State.pulse_only ..)); decide)
    | with_reducible refine Only.ite ?_ ?_
    | fail_if_no_progress with_reducible refine Only.pwr (by decide) ?_)

theorem execDroopClear_only (mv : Nat) (s : State) : Answers [.pwr] s (execDroopClear mv s) := by
  unfold execDroopClear
  repeat (first
    | with_reducible refine Answers.next ?_
    | with_reducible exact Only.refl _ _
    | with_reducible assumption
    | ((with_reducible apply Only.step (State.seeVcore_only ..)); decide)
    | with_reducible refine Only.ite ?_ ?_
    | fail_if_no_progress with_reducible refine Only.pwr (by decide) ?_)

theorem execStandbyRailsUp_only (s : State) : Answers [.saf, .pwr, .lgr] s (execStandbyRailsUp s) := by
  unfold execStandbyRailsUp
  repeat (first
    | with_reducible refine Answers.next ?_
    | with_reducible exact Only.refl _ _
    | with_reducible assumption
    | with_reducible refine Only.ite ?_ ?_
    | fail_if_no_progress with_reducible refine Only.saf_pwr_lgr (by decide) (by decide) (by decide) ?_
    | fail_if_no_progress with_reducible refine Only.saf (by decide) ?_
    | fail_if_no_progress with_reducible refine Only.pwr (by decide) ?_
    | fail_if_no_progress with_reducible refine Only.lgr (by decide) ?_)

theorem execRailSequenceStart_only (s : State) : Answers [.pwr] s (execRailSequenceStart s) := by
  unfold execRailSequenceStart
  repeat (first
    | with_reducible refine Answers.next ?_
    | with_reducible exact Only.refl _ _
    | with_reducible assumption
    | with_reducible refine Only.ite ?_ ?_
    | fail_if_no_progress with_reducible refine Only.pwr (by decide) ?_)

theorem execResetRelease_only (hostsel : Bool) (boot : Fin 4) (vio : Nat) (s : State) : Answers [.frm, .host, .cfg, .pwr] s (execResetRelease hostsel boot vio s) := by
  unfold execResetRelease
  repeat (first
    | with_reducible refine Answers.next ?_
    | with_reducible exact Only.refl _ _
    | with_reducible assumption
    | with_reducible refine Only.ite ?_ ?_
    | fail_if_no_progress with_reducible refine Only.frm_host_cfg_pwr (by decide) (by decide) (by decide) (by decide) ?_
    | fail_if_no_progress with_reducible refine Only.frm (by decide) ?_
    | fail_if_no_progress with_reducible refine Only.host (by decide) ?_
    | fail_if_no_progress with_reducible refine Only.cfg (by decide) ?_
    | fail_if_no_progress with_reducible refine Only.pwr (by decide) ?_)

theorem execStartupChecksComplete_only (why : Fin 5) (s : State) : Answers [.net, .pwr] s (execStartupChecksComplete why s) := by
  unfold execStartupChecksComplete
  repeat (first
    | with_reducible refine Answers.next ?_
    | with_reducible exact Only.refl _ _
    | with_reducible assumption
    | ((with_reducible apply Only.step (State.setPort_only ..)); decide)
    | with_reducible refine Only.ite ?_ ?_
    | fail_if_no_progress with_reducible refine Only.pwr (by decide) ?_)

theorem State.enterStage1_only (s : State) : Only [.cap, .prf, .evt, .pwr, .lgr] s (State.enterStage1 s) := by
  unfold State.enterStage1
  repeat (first
    | with_reducible exact Only.refl _ _
    | with_reducible assumption
    | ((with_reducible apply Only.step (State.raiseDev_only ..)); decide)
    | with_reducible refine Only.foldl ?_ ?_
    | (intro _ _ _; try beta_reduce)
    | fail_if_no_progress with_reducible refine Only.prf_pwr (by decide) (by decide) ?_
    | fail_if_no_progress with_reducible refine Only.prf (by decide) ?_
    | fail_if_no_progress with_reducible refine Only.pwr (by decide) ?_)

theorem State.enterStage2_only (s : State) : Only [.cap, .prf, .evt, .pwr, .lgr] s (State.enterStage2 s) := by
  unfold State.enterStage2
  repeat (first
    | with_reducible exact Only.refl _ _
    | with_reducible assumption
    | ((with_reducible apply Only.step (State.raiseDev_only ..)); decide)
    | fail_if_no_progress with_reducible refine Only.pwr (by decide) ?_)

theorem State.enterStage3_only (s : State) : Only [.cap, .prf, .evt, .pwr, .lgr] s (State.enterStage3 s) := by
  unfold State.enterStage3
  repeat (first
    | with_reducible exact Only.refl _ _
    | with_reducible assumption
    | ((with_reducible apply Only.step (State.raiseDev_only ..)); decide)
    | fail_if_no_progress with_reducible refine Only.pwr (by decide) ?_)

theorem State.enterTo_only (s : State) (k : Nat) : Only [.cap, .prf, .evt, .pwr, .lgr] s (State.enterTo s k) := by
  unfold State.enterTo
  repeat (first
    | with_reducible exact Only.refl _ _
    | with_reducible assumption
    | ((with_reducible apply Only.step (State.enterStage3_only ..)); decide)
    | ((with_reducible apply Only.step (State.enterStage2_only ..)); decide)
    | ((with_reducible apply Only.step (State.enterStage1_only ..)); decide)
    | with_reducible refine Only.ite ?_ ?_)

theorem execCalvingStageEntry_only (k : Fin 3) (mv : Nat) (s : State) : Answers [.cap, .prf, .evt, .pwr, .lgr] s (execCalvingStageEntry k mv s) := by
  unfold execCalvingStageEntry
  repeat (first
    | with_reducible refine Answers.next ?_
    | with_reducible exact Only.refl _ _
    | with_reducible assumption
    | ((with_reducible apply Only.step (State.enterTo_only ..)); decide)
    | ((with_reducible apply Only.step (State.seeVmain_only ..)); decide)
    | with_reducible refine Only.ite ?_ ?_)

theorem State.dropYield_only (s : State) : Only [.red] s (State.dropYield s) := by
  unfold State.dropYield
  repeat (first
    | with_reducible exact Only.refl _ _
    | with_reducible assumption
    | with_reducible refine Only.ite ?_ ?_
    | fail_if_no_progress with_reducible refine Only.red (by decide) ?_)

theorem State.safeOrder_only (s : State) : Only [.fio] s (State.safeOrder s) := by
  unfold State.safeOrder
  repeat (first
    | with_reducible exact Only.refl _ _
    | with_reducible assumption
    | fail_if_no_progress with_reducible refine Only.fio (by decide) ?_)

theorem State.beginReset_only (s : State) (cause : RstCause) (commit retention : Bool) : Only [.pwr, .lgr] s (State.beginReset s cause commit retention) := by
  unfold State.beginReset
  repeat (first
    | with_reducible exact Only.refl _ _
    | with_reducible assumption
    | with_reducible refine Only.ite ?_ ?_
    | fail_if_no_progress with_reducible refine Only.pwr_lgr (by decide) (by decide) ?_
    | fail_if_no_progress with_reducible refine Only.pwr (by decide) ?_
    | fail_if_no_progress with_reducible refine Only.lgr (by decide) ?_)

theorem execCalvingStage4_only (mv : Nat) (s : State) : Answers [.red, .saf, .fio, .cap, .prf, .evt, .pwr, .lgr] s (execCalvingStage4 mv s) := by
  unfold execCalvingStage4
  repeat (first
    | with_reducible refine Answers.next ?_
    | with_reducible exact Only.refl _ _
    | with_reducible assumption
    | ((with_reducible apply Only.step (State.beginReset_only ..)); decide)
    | ((with_reducible apply Only.step (State.safeOrder_only ..)); decide)
    | ((with_reducible apply Only.step (State.dropYield_only ..)); decide)
    | ((with_reducible apply Only.step (State.enterTo_only ..)); decide)
    | ((with_reducible apply Only.step (State.seeVmain_only ..)); decide)
    | ((with_reducible apply Only.step (State.capHalt_only ..)); decide)
    | ((with_reducible apply Only.step (State.closeLedgers_only ..)); decide)
    | ((with_reducible apply Only.step (State.raiseDev_only ..)); decide)
    | with_reducible refine Only.ite ?_ ?_
    | fail_if_no_progress with_reducible refine Only.saf_pwr (by decide) (by decide) ?_
    | fail_if_no_progress with_reducible refine Only.saf (by decide) ?_
    | fail_if_no_progress with_reducible refine Only.pwr (by decide) ?_)

theorem execCalvingStageExit_only (k : Fin 3) (mv : Nat) (s : State) : Answers [.pwr] s (execCalvingStageExit k mv s) := by
  unfold execCalvingStageExit
  repeat (first
    | with_reducible refine Answers.next ?_
    | with_reducible exact Only.refl _ _
    | with_reducible assumption
    | ((with_reducible apply Only.step (State.seeVmain_only ..)); decide)
    | with_reducible refine Only.ite ?_ ?_
    | fail_if_no_progress with_reducible refine Only.pwr (by decide) ?_)

theorem execDramSelfRefresh_only (s : State) : Answers [.frm, .cap, .prf, .evt, .pwr, .lgr] s (execDramSelfRefresh s) := by
  unfold execDramSelfRefresh
  repeat (first
    | with_reducible refine Answers.next ?_
    | with_reducible exact Only.refl _ _
    | with_reducible assumption
    | ((with_reducible apply Only.step (State.goto_only ..)); decide)
    | with_reducible refine Only.ite ?_ ?_
    | fail_if_no_progress with_reducible refine Only.pwr (by decide) ?_)

theorem execVioLow_only (s : State) : Answers [.cap, .prf, .evt, .pwr, .lgr] s (execVioLow s) := by
  unfold execVioLow
  repeat (first
    | with_reducible refine Answers.next ?_
    | with_reducible exact Only.refl _ _
    | with_reducible assumption
    | ((with_reducible apply Only.step (State.raiseDev_only ..)); decide)
    | with_reducible refine Only.ite ?_ ?_
    | fail_if_no_progress with_reducible refine Only.pwr (by decide) ?_)

theorem execVioRestored_only (s : State) : Answers [.pwr] s (execVioRestored s) := by
  unfold execVioRestored
  repeat (first
    | with_reducible refine Answers.next ?_
    | with_reducible exact Only.refl _ _
    | with_reducible assumption
    | fail_if_no_progress with_reducible refine Only.pwr (by decide) ?_)

theorem execPowerOnReset_only (s : State) : Answers [.pwr] s (execPowerOnReset s) := by
  unfold execPowerOnReset
  repeat (first
    | with_reducible refine Answers.next ?_
    | with_reducible exact Only.refl _ _
    | with_reducible assumption
    | with_reducible refine Only.ite ?_ ?_
    | fail_if_no_progress with_reducible refine Only.pwr (by decide) ?_)

theorem execBrownout_only (s : State) : Answers [.pwr, .lgr] s (execBrownout s) := by
  unfold execBrownout
  repeat (first
    | with_reducible refine Answers.next ?_
    | with_reducible exact Only.refl _ _
    | with_reducible assumption
    | ((with_reducible apply Only.step (State.beginReset_only ..)); decide)
    | with_reducible refine Only.ite ?_ ?_)

theorem State.resetCommitted_only (s : State) (cause : RstCause) : Only [.fio, .cap, .prf, .evt, .pwr, .lgr] s (State.resetCommitted s cause) := by
  unfold State.resetCommitted
  repeat (first
    | with_reducible exact Only.refl _ _
    | with_reducible assumption
    | ((with_reducible apply Only.step (State.beginReset_only ..)); decide)
    | ((with_reducible apply Only.step (State.safeOrder_only ..)); decide)
    | ((with_reducible apply Only.step (State.closeLedgers_only ..)); decide))

theorem execResetPin_only (s : State) : Answers [.fio, .cap, .prf, .evt, .pwr, .lgr] s (execResetPin s) := by
  unfold execResetPin
  repeat (first
    | with_reducible refine Answers.next ?_
    | with_reducible exact Only.refl _ _
    | with_reducible assumption
    | ((with_reducible apply Only.step (State.resetCommitted_only ..)); decide)
    | with_reducible refine Only.ite ?_ ?_)

theorem execPwrRstreq_only (v : W32) (s : State) : Answers [.fio, .cap, .prf, .host, .evt, .pwr, .lgr] s (execPwrRstreq v s) := by
  unfold execPwrRstreq
  repeat (first
    | with_reducible refine Answers.next ?_
    | with_reducible exact Only.refl _ _
    | with_reducible assumption
    | ((with_reducible apply Only.step (State.resetCommitted_only ..)); decide)
    | ((with_reducible apply Only.step (State.hostWrite_only ..)); decide)
    | with_reducible refine Only.ite ?_ ?_)

theorem execFwWatchdogExpiry_only (s : State) : Answers [.pwr, .lgr] s (execFwWatchdogExpiry s) := by
  unfold execFwWatchdogExpiry
  repeat (first
    | with_reducible refine Answers.next ?_
    | with_reducible exact Only.refl _ _
    | with_reducible assumption
    | ((with_reducible apply Only.step (State.beginReset_only ..)); decide)
    | with_reducible refine Only.ite ?_ ?_)

theorem execVcoreFault_only (mv : Nat) (s : State) : Answers [.pwr, .lgr] s (execVcoreFault mv s) := by
  unfold execVcoreFault
  repeat (first
    | with_reducible refine Answers.next ?_
    | with_reducible exact Only.refl _ _
    | with_reducible assumption
    | ((with_reducible apply Only.step (State.beginReset_only ..)); decide)
    | ((with_reducible apply Only.step (State.seeVcore_only ..)); decide)
    | with_reducible refine Only.ite ?_ ?_)

theorem execClockLoss_only (c : Fin 5) (s : State) : Answers [.pwr, .lgr] s (execClockLoss c s) := by
  unfold execClockLoss
  repeat (first
    | with_reducible refine Answers.next ?_
    | with_reducible exact Only.refl _ _
    | with_reducible assumption
    | ((with_reducible apply Only.step (State.beginReset_only ..)); decide)
    | with_reducible refine Only.ite ?_ ?_
    | fail_if_no_progress with_reducible refine Only.pwr (by decide) ?_)

theorem execCoreDieReset_only (s : State) : Answers [.frm, .axes, .lines, .cams, .camStg, .zones, .steps, .encs, .net, .dsp, .red, .saf, .fio, .cap, .prf, .host, .evt, .params, .cfg, .pwr, .lgr] s (execCoreDieReset s) := by
  unfold execCoreDieReset
  refine Answers.next ⟨fun p hp => ?_⟩
  cases p <;> first | cases hp | skip
  show State.pending _ = _
  split
  · rfl
  · split <;> rfl

theorem execPwrVmain_only (s : State) : Answers [.prf, .host, .pwr] s (execPwrVmain s) := by
  unfold execPwrVmain
  repeat (first
    | with_reducible refine Answers.next ?_
    | with_reducible exact Only.refl _ _
    | with_reducible assumption
    | ((with_reducible apply Only.step (State.hostWord_only ..)); decide)
    | fail_if_no_progress with_reducible refine Only.pwr (by decide) ?_)

theorem execPwrVcore_only (s : State) : Answers [.prf, .host, .pwr] s (execPwrVcore s) := by
  unfold execPwrVcore
  repeat (first
    | with_reducible refine Answers.next ?_
    | with_reducible exact Only.refl _ _
    | with_reducible assumption
    | ((with_reducible apply Only.step (State.hostWord_only ..)); decide)
    | fail_if_no_progress with_reducible refine Only.pwr (by decide) ?_)

end Sys2Proof.Machine
end

