-- ==== Sys2Proof/Laws/Registers.lean ====
section
/-! SUPPORT. What the operations of Machine/Registers change of the state: nothing outside the listed parts. -/

set_option linter.unusedTactic false
set_option linter.unreachableTactic false

namespace Sys2Proof.Machine

theorem execDspDescidx_only (v : W32) (s : State) : Answers [.dsp, .prf, .host] s (execDspDescidx v s) := by
  unfold execDspDescidx
  repeat (first
    | with_reducible refine Answers.next ?_
    | with_reducible exact Only.refl _ _
    | with_reducible assumption
    | ((with_reducible apply Only.step (State.hostWrite_only ..)); decide)
    | with_reducible refine Only.foldl ?_ ?_
    | (intro _ _ _; try beta_reduce)
    | fail_if_no_progress with_reducible refine Only.dsp (by decide) ?_)

theorem execDspTrcctl_only (v : W32) (s : State) : Answers [.dsp, .prf, .host] s (execDspTrcctl v s) := by
  unfold execDspTrcctl
  repeat (first
    | with_reducible refine Answers.next ?_
    | with_reducible exact Only.refl _ _
    | with_reducible assumption
    | ((with_reducible apply Only.step (State.hostWrite_only ..)); decide)
    | with_reducible refine Only.ite ?_ ?_
    | fail_if_no_progress with_reducible refine Only.dsp (by decide) ?_)

theorem execDspTrcd0_only (s : State) : Answers [.dsp, .prf, .host] s (execDspTrcd0 s) := by
  unfold execDspTrcd0
  repeat (first
    | with_reducible refine Answers.next ?_
    | with_reducible exact Only.refl _ _
    | with_reducible assumption
    | ((with_reducible apply Only.step (State.hostWord_only ..)); decide)
    | fail_if_no_progress with_reducible refine Only.dsp (by decide) ?_)

theorem execDspRdydep_only (l : Fin 8) (s : State) : Answers [.dsp, .prf, .host] s (execDspRdydep l s) := by
  unfold execDspRdydep
  repeat (first
    | with_reducible refine Answers.next ?_
    | with_reducible exact Only.refl _ _
    | with_reducible assumption
    | ((with_reducible apply Only.step (State.hostWord_only ..)); decide)
    | fail_if_no_progress with_reducible refine Only.dsp (by decide) ?_)

theorem execDspPreempt_only (s : State) : Answers [.dsp, .prf, .host] s (execDspPreempt s) := by
  unfold execDspPreempt
  repeat (first
    | with_reducible refine Answers.next ?_
    | with_reducible exact Only.refl _ _
    | with_reducible assumption
    | ((with_reducible apply Only.step (State.hostWord_only ..)); decide)
    | fail_if_no_progress with_reducible refine Only.dsp (by decide) ?_)

theorem State.setEvt_only (s : State) (e : Evt) : Only [.prf, .evt] s (State.setEvt s e) := by
  unfold State.setEvt
  repeat (first
    | with_reducible exact Only.refl _ _
    | with_reducible assumption
    | ((with_reducible apply Only.step (State.pulseN_only ..)); decide)
    | fail_if_no_progress with_reducible refine Only.evt (by decide) ?_
    | split
    | (dsimp -proj -beta only []; split))

theorem State.writeHost_only (s : State) (o : Nat) (v : W32) : Only [.frm, .prf, .host, .evt, .lgr] s (State.writeHost s o v) := by
  unfold State.writeHost
  repeat (first
    | with_reducible exact Only.refl _ _
    | with_reducible assumption
    | ((with_reducible apply Only.step (State.setEvt_only ..)); decide)
    | with_reducible refine Only.ite ?_ ?_
    | fail_if_no_progress with_reducible refine Only.frm (by decide) ?_
    | fail_if_no_progress with_reducible refine Only.host (by decide) ?_
    | fail_if_no_progress with_reducible refine Only.lgr (by decide) ?_)

theorem State.writeCore_only (s : State) (o : Nat) (v : W32) : Only [.dsp, .cap, .prf] s (State.writeCore s o v) := by
  unfold State.writeCore
  repeat (first
    | with_reducible exact Only.refl _ _
    | with_reducible assumption
    | with_reducible refine Only.ite ?_ ?_
    | with_reducible refine Only.foldl ?_ ?_
    | (intro _ _ _; try beta_reduce)
    | fail_if_no_progress with_reducible refine Only.dsp (by decide) ?_
    | fail_if_no_progress with_reducible refine Only.cap (by decide) ?_
    | fail_if_no_progress with_reducible refine Only.prf (by decide) ?_)

theorem State.writeIo_only (s : State) (o : Nat) (v : W32) : Only [.net, .saf, .fio, .host, .pwr] s (State.writeIo s o v) := by
  unfold State.writeIo
  repeat (first
    | with_reducible exact Only.refl _ _
    | with_reducible assumption
    | ((with_reducible apply Only.step (State.setFch_only ..)); decide)
    | ((with_reducible apply Only.step (State.setPort_only ..)); decide)
    | with_reducible refine Only.ite ?_ ?_
    | fail_if_no_progress with_reducible refine Only.net (by decide) ?_
    | fail_if_no_progress with_reducible refine Only.saf (by decide) ?_
    | fail_if_no_progress with_reducible refine Only.host (by decide) ?_
    | fail_if_no_progress with_reducible refine Only.pwr (by decide) ?_)

theorem execRegisterWrite_only (off : Nat) (v : W32) (s : State) : Answers [.frm, .net, .dsp, .saf, .fio, .cap, .prf, .host, .evt, .pwr, .lgr] s (execRegisterWrite off v s) := by
  unfold execRegisterWrite
  repeat (first
    | with_reducible refine Answers.next ?_
    | with_reducible exact Only.refl _ _
    | with_reducible assumption
    | ((with_reducible apply Only.step (State.writeIo_only ..)); decide)
    | ((with_reducible apply Only.step (State.writeCore_only ..)); decide)
    | ((with_reducible apply Only.step (State.writeHost_only ..)); decide)
    | ((with_reducible apply Only.step (State.hostWrite_only ..)); decide)
    | with_reducible refine Only.ite ?_ ?_)

end Sys2Proof.Machine
end

