-- ==== Sys2Proof/Laws/Commands.lean ====
section
/-! SUPPORT. What the operations of Machine/Commands change of the state: nothing outside the listed parts. -/

set_option linter.unusedTactic false
set_option linter.unreachableTactic false

namespace Sys2Proof.Machine

theorem State.axJudge_only (s : State) (e : AxEnt) : Only [.axes] s (State.axJudge s e).2 := by
  unfold State.axJudge
  split
  · exact Only.refl _ _
  · split
    · exact Only.refl _ _
    · exact Only.ite (State.setAxis_only ..) (Only.refl _ _)

theorem State.axRun_only (s : State) (p : AxEnt → Bool) (st : Tbl Nat) : Only [.axes] s (State.axRun s p st).1 := by
  unfold State.axRun
  refine Only.foldlFst (fun y a hy => Only.foldlFst (fun z b hz => ?_) hy) (Only.refl _ _)
  dsimp only
  split
  · exact hz
  · exact Only.step (State.axJudge_only ..) (by decide) hz

theorem State.axAnswers_only (s : State) (st : Tbl Nat) : Only [.prf, .host, .evt] s (State.axAnswers s st) := by
  unfold State.axAnswers
  repeat (first
    | with_reducible exact Only.refl _ _
    | with_reducible assumption
    | ((with_reducible apply Only.step (State.answer_only ..)); decide)
    | with_reducible refine Only.ite ?_ ?_
    | with_reducible refine Only.foldl ?_ ?_
    | (intro _ _ _; try beta_reduce))

theorem State.setEntry_only (s : State) (e : Nat × W64) : Only [.frm, .zones, .red, .fio, .params] s (State.setEntry s e) := by
  unfold State.setEntry
  repeat (first
    | with_reducible exact Only.refl _ _
    | with_reducible assumption
    | ((with_reducible apply Only.step (State.applyEntry_only ..)); decide)
    | fail_if_no_progress with_reducible refine Only.red (by decide) ?_)

theorem State.decideWrite_only (s : State) (t : Taken) : Only [.frm, .zones, .red, .fio, .prf, .host, .evt, .params] s (State.decideWrite s t) := by
  unfold State.decideWrite
  repeat (first
    | with_reducible exact Only.refl _ _
    | with_reducible assumption
    | ((with_reducible apply Only.step (State.setEntry_only ..)); decide)
    | ((with_reducible apply Only.step (State.answer_only ..)); decide)
    | ((with_reducible apply Only.step (State.pulse_only ..)); decide)
    | with_reducible refine Only.foldl ?_ ?_
    | (intro _ _ _; try beta_reduce)
    | split
    | (dsimp -proj -beta only []; split))

theorem State.autoFreeze_only (s : State) (es : List (Nat × W64)) : Only [.axes, .zones] s (State.autoFreeze s es) := by
  unfold State.autoFreeze
  repeat (first
    | with_reducible exact Only.refl _ _
    | with_reducible assumption
    | ((with_reducible apply Only.step (State.setZone_only ..)); decide)
    | ((with_reducible apply Only.step (State.setAxis_only ..)); decide)
    | with_reducible refine Only.foldl ?_ ?_
    | (intro _ _ _; try beta_reduce)
    | split
    | (dsimp -proj -beta only []; split))

theorem State.decideOvl_only (s : State) (t : Taken) : Only [.frm, .axes, .zones, .red, .fio, .cap, .prf, .host, .evt, .params, .lgr] s (State.decideOvl s t) := by
  unfold State.decideOvl
  repeat (first
    | with_reducible exact Only.refl _ _
    | with_reducible assumption
    | ((with_reducible apply Only.step (State.autoFreeze_only ..)); decide)
    | ((with_reducible apply Only.step (State.setEntry_only ..)); decide)
    | ((with_reducible apply Only.step (State.answer_only ..)); decide)
    | ((with_reducible apply Only.step (State.raiseDev_only ..)); decide)
    | ((with_reducible apply Only.step (State.pulse_only ..)); decide)
    | with_reducible refine Only.ite ?_ ?_
    | with_reducible refine Only.foldl ?_ ?_
    | (intro _ _ _; try beta_reduce)
    | split
    | (dsimp -proj -beta only []; split))

theorem State.decideCfg_only (s : State) (t : Taken) : Only [.frm, .axes, .lines, .cams, .zones, .net, .dsp, .red, .saf, .fio, .cap, .prf, .host, .evt, .params, .cfg, .lgr] s (State.decideCfg s t) := by
  unfold State.decideCfg
  repeat (first
    | with_reducible exact Only.refl _ _
    | with_reducible assumption
    | ((with_reducible apply Only.step (State.switchTo_only ..)); decide)
    | ((with_reducible apply Only.step (State.activate_only ..)); decide)
    | ((with_reducible apply Only.step (State.answer_only ..)); decide)
    | with_reducible refine Only.ite ?_ ?_)

theorem State.decideOne_only (s : State) (t : Taken) : Only [.frm, .axes, .lines, .cams, .zones, .net, .dsp, .red, .saf, .fio, .cap, .prf, .host, .evt, .params, .cfg, .lgr] s (State.decideOne s t) := by
  unfold State.decideOne
  repeat (first
    | with_reducible exact Only.refl _ _
    | with_reducible assumption
    | ((with_reducible apply Only.step (State.decideCfg_only ..)); decide)
    | ((with_reducible apply Only.step (State.decideOvl_only ..)); decide)
    | ((with_reducible apply Only.step (State.decideWrite_only ..)); decide)
    | ((with_reducible apply Only.step (State.answer_only ..)); decide)
    | with_reducible refine Only.ite ?_ ?_)

theorem State.decideTaken_only (s : State) : Only [.frm, .axes, .lines, .cams, .zones, .net, .dsp, .red, .saf, .fio, .cap, .prf, .host, .evt, .params, .cfg, .lgr] s (State.decideTaken s) := by
  unfold State.decideTaken
  repeat (first
    | with_reducible exact Only.refl _ _
    | with_reducible assumption
    | ((with_reducible apply Only.step (State.decideOne_only ..)); decide)
    | with_reducible refine Only.foldl ?_ ?_
    | (intro _ _ _; try beta_reduce))

end Sys2Proof.Machine
end

