-- ==== Sys2Proof/Laws/Tables.lean ====
section
/-! SUPPORT. Sparse tables and byte memories: reading after writing, and the canonical form that every operation keeps. -/

namespace Sys2Proof.Machine

/-! ## One entry -/

theorem tget_nil {α : Type} (d : α) (k : Nat) : tget d [] k = d := rfl

/-- An empty table is canonical. -/
theorem twf_nil {α : Type} [DecidableEq α] (d : α) : twf d [] = true := rfl

/-- A key below every key of a canonical table is unlisted. -/
theorem tget_below {α : Type} [DecidableEq α] (d : α) {t : Tbl α} {lo k : Nat} (h : twfFrom d lo t = true) (hk : k < lo) :
    tget d t k = d := by
  induction t generalizing lo with
  | nil => rfl
  | cons e r ih =>
    obtain ⟨a, v⟩ := e
    simp only [twfFrom, Bool.and_eq_true, decide_eq_true_eq] at h
    have hne : k ≠ a := by omega
    rw [tget, if_neg hne]
    exact ih h.2 (by omega)

/-- A canonical form from a bound on is one from any lower bound on. -/
theorem twfFrom_mono {α : Type} [DecidableEq α] (d : α) {t : Tbl α} {lo lo' : Nat} (h : twfFrom d lo t = true) (hl : lo' ≤ lo) :
    twfFrom d lo' t = true := by
  cases t with
  | nil => rfl
  | cons e r =>
    obtain ⟨a, v⟩ := e
    simp only [twfFrom, Bool.and_eq_true, decide_eq_true_eq] at h ⊢
    exact ⟨⟨by omega, h.1.2⟩, h.2⟩

/-- Reading the entry just set. -/
theorem tget_tset_same {α : Type} [DecidableEq α] (d v : α) (k lo : Nat) {t : Tbl α} (h : twfFrom d lo t = true) :
    tget d (tset d k v t) k = v := by
  induction t generalizing lo with
  | nil =>
    unfold tset
    split
    · simp_all [tget]
    · simp [tget]
  | cons e r ih =>
    obtain ⟨a, x⟩ := e
    simp only [twfFrom, Bool.and_eq_true, decide_eq_true_eq] at h
    unfold tset
    split
    · rename_i hlt
      split
      · rename_i hv
        rw [tget, if_neg (by omega), tget_below d h.2 (by omega), hv]
      · simp [tget]
    · split
      · rename_i hka
        split
        · rename_i hv
          rw [tget_below d h.2 (by omega), hv]
        · simp [tget]
      · rename_i hka
        rw [tget, if_neg hka]
        exact ih (a + 1) h.2

/-- Reading the entry just set, where it is not what an unlisted entry reads as. -/
theorem tget_tset_of_ne {α : Type} [DecidableEq α] (d v : α) (k : Nat) (t : Tbl α) (hv : v ≠ d) : tget d (tset d k v t) k = v := by
  induction t with
  | nil => simp [tset, hv, tget]
  | cons e r ih =>
    obtain ⟨a, x⟩ := e
    unfold tset
    split
    · simp [hv, tget]
    · split
      · simp [hv, tget]
      · rename_i hka
        rw [tget, if_neg hka]
        exact ih

/-- Setting one entry leaves every other as it was. -/
theorem tget_tset_other {α : Type} [DecidableEq α] (d v : α) (k j : Nat) (t : Tbl α) (hj : j ≠ k) :
    tget d (tset d k v t) j = tget d t j := by
  induction t with
  | nil =>
    unfold tset
    split
    · rfl
    · simp [tget, hj]
  | cons e r ih =>
    obtain ⟨a, x⟩ := e
    unfold tset
    split
    · split
      · rfl
      · simp [tget, hj]
    · split
      · rename_i hka
        subst hka
        split
        · simp [tget, hj]
        · simp [tget, hj]
      · simp only [tget, ih]

/-- An entry set keeps the canonical form. -/
theorem twfFrom_tset {α : Type} [DecidableEq α] (d v : α) (k lo : Nat) {t : Tbl α} (h : twfFrom d lo t = true) (hk : lo ≤ k) :
    twfFrom d lo (tset d k v t) = true := by
  induction t generalizing lo with
  | nil =>
    unfold tset
    split
    · rfl
    · rename_i hv
      simp [twfFrom, hk, hv]
  | cons e r ih =>
    obtain ⟨a, x⟩ := e
    have h' := h
    simp only [twfFrom, Bool.and_eq_true, decide_eq_true_eq] at h
    unfold tset
    split
    · rename_i hlt
      split
      · exact h'
      · rename_i hv
        simp only [twfFrom, Bool.and_eq_true, decide_eq_true_eq]
        exact ⟨⟨hk, hv⟩, ⟨by omega, h.1.2⟩, h.2⟩
    · split
      · rename_i hka
        split
        · exact twfFrom_mono d h.2 (by omega)
        · rename_i hv
          simp only [twfFrom, Bool.and_eq_true, decide_eq_true_eq]
          exact ⟨⟨hk, hv⟩, hka ▸ h.2⟩
      · simp only [twfFrom, Bool.and_eq_true, decide_eq_true_eq]
        exact ⟨h.1, ih (a + 1) h.2 (by omega)⟩

/-- Setting an entry keeps a table canonical. -/
theorem twf_tset {α : Type} [DecidableEq α] (d v : α) (k : Nat) {t : Tbl α} (h : twf d t = true) : twf d (tset d k v t) = true :=
  twfFrom_tset d v k 0 h (Nat.zero_le k)

/-- Changing an entry keeps a table canonical. -/
theorem twf_tmod {α : Type} [DecidableEq α] (d : α) (k : Nat) (f : α → α) {t : Tbl α} (h : twf d t = true) :
    twf d (tmod d k f t) = true := twf_tset d _ k h

/-- Dropping entries keeps a table canonical. -/
theorem twfFrom_filter {α : Type} [DecidableEq α] (d : α) (p : Nat × α → Bool) (lo : Nat) {t : Tbl α}
    (h : twfFrom d lo t = true) : twfFrom d lo (t.filter p) = true := by
  induction t generalizing lo with
  | nil => rfl
  | cons e r ih =>
    obtain ⟨a, x⟩ := e
    simp only [twfFrom, Bool.and_eq_true, decide_eq_true_eq] at h
    rw [List.filter_cons]
    split
    · simp only [twfFrom, Bool.and_eq_true, decide_eq_true_eq]
      exact ⟨h.1, ih (a + 1) h.2⟩
    · exact twfFrom_mono d (ih (a + 1) h.2) (by omega)

theorem twf_filter {α : Type} [DecidableEq α] (d : α) (p : Nat × α → Bool) {t : Tbl α} (h : twf d t = true) :
    twf d (t.filter p) = true := twfFrom_filter d p 0 h

theorem twfFrom_tmap {α : Type} [DecidableEq α] (d : α) (f : α → α) (lo : Nat) {t : Tbl α} (h : twfFrom d lo t = true) :
    twfFrom d lo (tmap d f t) = true := by
  induction t generalizing lo with
  | nil => rfl
  | cons e r ih =>
    obtain ⟨a, x⟩ := e
    simp only [twfFrom, Bool.and_eq_true, decide_eq_true_eq] at h
    have := ih (a + 1) h.2
    unfold tmap at *
    rw [List.map_cons, List.filter_cons]
    split
    · rename_i hx
      simp only [twfFrom, Bool.and_eq_true, decide_eq_true_eq]
      exact ⟨⟨h.1.1, by simpa using hx⟩, this⟩
    · exact twfFrom_mono d this (by omega)

/-- Changing every listed entry keeps a table canonical. -/
theorem twf_tmap {α : Type} [DecidableEq α] (d : α) (f : α → α) {t : Tbl α} (h : twf d t = true) : twf d (tmap d f t) = true :=
  twfFrom_tmap d f 0 h

/-! ## Byte memories -/

/-- A store keeps a memory canonical. -/
theorem wf_mwrite (d : Byte) (m : List Host.Cell) (a : Nat) (bs : List Byte) (h : Memory.wf d m = true) :
    Memory.wf d (mwrite d m a bs) = true := by
  induction bs generalizing m a with
  | nil => exact h
  | cons b bs ih => exact ih _ _ (twf_tset d b a h)

/-- An erasure keeps a memory canonical. -/
theorem wf_merase (d : Byte) (m : List Host.Cell) (a n : Nat) (h : Memory.wf d m = true) : Memory.wf d (merase m a n) = true :=
  twf_filter d _ h

/-- A store leaves every byte outside it as it was. -/
theorem tget_mwrite_outside (d : Byte) (m : List Host.Cell) (a j : Nat) (bs : List Byte) (h : j < a ∨ a + bs.length ≤ j) :
    tget d (mwrite d m a bs) j = tget d m j := by
  induction bs generalizing m a with
  | nil => rfl
  | cons b bs ih =>
    rw [mwrite, ih _ _ (by simp only [List.length_cons] at h; omega)]
    exact tget_tset_other d b a j m (by simp only [List.length_cons] at h; omega)

/-- Bytes read outside a store are as before. -/
theorem mread_mwrite_outside (d : Byte) (m : List Host.Cell) (a j n : Nat) (bs : List Byte)
    (h : j + n ≤ a ∨ a + bs.length ≤ j) : mread d (mwrite d m a bs) j n = mread d m j n := by
  induction n generalizing j with
  | zero => rfl
  | succ n ih =>
    rw [mread, mread, tget_mwrite_outside d m a j bs (by omega), ih (j + 1) (by omega)]

/-- Reading the bytes just stored. -/
theorem mread_mwrite (d : Byte) (m : List Host.Cell) (a : Nat) (bs : List Byte) (h : Memory.wf d m = true) :
    mread d (mwrite d m a bs) a bs.length = bs := by
  induction bs generalizing m a with
  | nil => rfl
  | cons b bs ih =>
    rw [List.length_cons, mread, mwrite, tget_mwrite_outside d _ (a + 1) a bs (by omega), tget_tset_same d b a 0 h,
      ih _ _ (twf_tset d b a h)]

/-- What a read returns has the length asked for. -/
theorem length_mread (d : Byte) (m : List Host.Cell) (a n : Nat) : (mread d m a n).length = n := by
  induction n generalizing a with
  | zero => rfl
  | succ n ih => simp [mread, ih]

end Sys2Proof.Machine
end

