-- ==== Sys2Proof/Laws/State.lean ====
section
/-! SUPPORT. What each update of one entry of the state leaves, and reading an entry after an update. -/

namespace Sys2Proof.Machine

@[simp] theorem State.setAxis_keeps (s : State) (i : Nat) (a : Axis) : (State.setAxis s i a).frm = s.frm ∧ (State.setAxis s
    i a).lines = s.lines ∧ (State.setAxis s i a).cams = s.cams ∧ (State.setAxis s i a).camStg = s.camStg ∧ (State.setAxis s
    i a).zones = s.zones ∧ (State.setAxis s i a).steps = s.steps ∧ (State.setAxis s i a).encs = s.encs ∧ (State.setAxis s i
    a).net = s.net ∧ (State.setAxis s i a).dsp = s.dsp ∧ (State.setAxis s i a).red = s.red ∧ (State.setAxis s i a).saf =
    s.saf ∧ (State.setAxis s i a).fio = s.fio ∧ (State.setAxis s i a).cap = s.cap ∧ (State.setAxis s i a).prf = s.prf ∧
    (State.setAxis s i a).host = s.host ∧ (State.setAxis s i a).evt = s.evt ∧ (State.setAxis s i a).params = s.params ∧
    (State.setAxis s i a).cfg = s.cfg ∧ (State.setAxis s i a).pwr = s.pwr ∧ (State.setAxis s i a).lgr = s.lgr ∧
    (State.setAxis s i a).pending = s.pending := ⟨rfl, rfl, rfl, rfl, rfl, rfl, rfl, rfl, rfl, rfl, rfl, rfl, rfl, rfl,
    rfl, rfl, rfl, rfl, rfl, rfl, rfl⟩


@[simp] theorem State.setZone_keeps (s : State) (z : Nat) (a : Zone) : (State.setZone s z a).frm = s.frm ∧ (State.setZone s
    z a).axes = s.axes ∧ (State.setZone s z a).lines = s.lines ∧ (State.setZone s z a).cams = s.cams ∧ (State.setZone s z
    a).camStg = s.camStg ∧ (State.setZone s z a).steps = s.steps ∧ (State.setZone s z a).encs = s.encs ∧ (State.setZone s z
    a).net = s.net ∧ (State.setZone s z a).dsp = s.dsp ∧ (State.setZone s z a).red = s.red ∧ (State.setZone s z a).saf =
    s.saf ∧ (State.setZone s z a).fio = s.fio ∧ (State.setZone s z a).cap = s.cap ∧ (State.setZone s z a).prf = s.prf ∧
    (State.setZone s z a).host = s.host ∧ (State.setZone s z a).evt = s.evt ∧ (State.setZone s z a).params = s.params ∧
    (State.setZone s z a).cfg = s.cfg ∧ (State.setZone s z a).pwr = s.pwr ∧ (State.setZone s z a).lgr = s.lgr ∧
    (State.setZone s z a).pending = s.pending := ⟨rfl, rfl, rfl, rfl, rfl, rfl, rfl, rfl, rfl, rfl, rfl, rfl, rfl, rfl,
    rfl, rfl, rfl, rfl, rfl, rfl, rfl⟩


@[simp] theorem State.setLine_keeps (s : State) (l : Nat) (a : Line) : (State.setLine s l a).frm = s.frm ∧ (State.setLine s
    l a).axes = s.axes ∧ (State.setLine s l a).cams = s.cams ∧ (State.setLine s l a).camStg = s.camStg ∧ (State.setLine s l
    a).zones = s.zones ∧ (State.setLine s l a).steps = s.steps ∧ (State.setLine s l a).encs = s.encs ∧ (State.setLine s l
    a).net = s.net ∧ (State.setLine s l a).dsp = s.dsp ∧ (State.setLine s l a).red = s.red ∧ (State.setLine s l a).saf =
    s.saf ∧ (State.setLine s l a).fio = s.fio ∧ (State.setLine s l a).cap = s.cap ∧ (State.setLine s l a).prf = s.prf ∧
    (State.setLine s l a).host = s.host ∧ (State.setLine s l a).evt = s.evt ∧ (State.setLine s l a).params = s.params ∧
    (State.setLine s l a).cfg = s.cfg ∧ (State.setLine s l a).pwr = s.pwr ∧ (State.setLine s l a).lgr = s.lgr ∧
    (State.setLine s l a).pending = s.pending := ⟨rfl, rfl, rfl, rfl, rfl, rfl, rfl, rfl, rfl, rfl, rfl, rfl, rfl, rfl,
    rfl, rfl, rfl, rfl, rfl, rfl, rfl⟩


@[simp] theorem State.setStep_keeps (s : State) (c : Nat) (a : StepCh) : (State.setStep s c a).frm = s.frm ∧ (State.setStep
    s c a).axes = s.axes ∧ (State.setStep s c a).lines = s.lines ∧ (State.setStep s c a).cams = s.cams ∧ (State.setStep s c
    a).camStg = s.camStg ∧ (State.setStep s c a).zones = s.zones ∧ (State.setStep s c a).encs = s.encs ∧ (State.setStep s c
    a).net = s.net ∧ (State.setStep s c a).dsp = s.dsp ∧ (State.setStep s c a).red = s.red ∧ (State.setStep s c a).saf =
    s.saf ∧ (State.setStep s c a).fio = s.fio ∧ (State.setStep s c a).cap = s.cap ∧ (State.setStep s c a).prf = s.prf ∧
    (State.setStep s c a).host = s.host ∧ (State.setStep s c a).evt = s.evt ∧ (State.setStep s c a).params = s.params ∧
    (State.setStep s c a).cfg = s.cfg ∧ (State.setStep s c a).pwr = s.pwr ∧ (State.setStep s c a).lgr = s.lgr ∧
    (State.setStep s c a).pending = s.pending := ⟨rfl, rfl, rfl, rfl, rfl, rfl, rfl, rfl, rfl, rfl, rfl, rfl, rfl, rfl,
    rfl, rfl, rfl, rfl, rfl, rfl, rfl⟩


@[simp] theorem State.setEnc_keeps (s : State) (e : Nat) (a : Enc) : (State.setEnc s e a).frm = s.frm ∧ (State.setEnc s e
    a).axes = s.axes ∧ (State.setEnc s e a).lines = s.lines ∧ (State.setEnc s e a).cams = s.cams ∧ (State.setEnc s e
    a).camStg = s.camStg ∧ (State.setEnc s e a).zones = s.zones ∧ (State.setEnc s e a).steps = s.steps ∧ (State.setEnc s e
    a).net = s.net ∧ (State.setEnc s e a).dsp = s.dsp ∧ (State.setEnc s e a).red = s.red ∧ (State.setEnc s e a).saf = s.saf
    ∧ (State.setEnc s e a).fio = s.fio ∧ (State.setEnc s e a).cap = s.cap ∧ (State.setEnc s e a).prf = s.prf ∧
    (State.setEnc s e a).host = s.host ∧ (State.setEnc s e a).evt = s.evt ∧ (State.setEnc s e a).params = s.params ∧
    (State.setEnc s e a).cfg = s.cfg ∧ (State.setEnc s e a).pwr = s.pwr ∧ (State.setEnc s e a).lgr = s.lgr ∧ (State.setEnc
    s e a).pending = s.pending := ⟨rfl, rfl, rfl, rfl, rfl, rfl, rfl, rfl, rfl, rfl, rfl, rfl, rfl, rfl, rfl, rfl, rfl,
    rfl, rfl, rfl, rfl⟩


@[simp] theorem State.setPort_keeps (s : State) (b : Nat) (p : Port) : (State.setPort s b p).frm = s.frm ∧ (State.setPort s
    b p).axes = s.axes ∧ (State.setPort s b p).lines = s.lines ∧ (State.setPort s b p).cams = s.cams ∧ (State.setPort s b
    p).camStg = s.camStg ∧ (State.setPort s b p).zones = s.zones ∧ (State.setPort s b p).steps = s.steps ∧ (State.setPort s
    b p).encs = s.encs ∧ (State.setPort s b p).dsp = s.dsp ∧ (State.setPort s b p).red = s.red ∧ (State.setPort s b p).saf
    = s.saf ∧ (State.setPort s b p).fio = s.fio ∧ (State.setPort s b p).cap = s.cap ∧ (State.setPort s b p).prf = s.prf ∧
    (State.setPort s b p).host = s.host ∧ (State.setPort s b p).evt = s.evt ∧ (State.setPort s b p).params = s.params ∧
    (State.setPort s b p).cfg = s.cfg ∧ (State.setPort s b p).pwr = s.pwr ∧ (State.setPort s b p).lgr = s.lgr ∧
    (State.setPort s b p).pending = s.pending := ⟨rfl, rfl, rfl, rfl, rfl, rfl, rfl, rfl, rfl, rfl, rfl, rfl, rfl, rfl,
    rfl, rfl, rfl, rfl, rfl, rfl, rfl⟩


@[simp] theorem State.setBranch_keeps (s : State) (b : Nat) (x : Branch) : (State.setBranch s b x).frm = s.frm ∧
    (State.setBranch s b x).axes = s.axes ∧ (State.setBranch s b x).lines = s.lines ∧ (State.setBranch s b x).cams = s.cams
    ∧ (State.setBranch s b x).camStg = s.camStg ∧ (State.setBranch s b x).zones = s.zones ∧ (State.setBranch s b x).steps =
    s.steps ∧ (State.setBranch s b x).encs = s.encs ∧ (State.setBranch s b x).dsp = s.dsp ∧ (State.setBranch s b x).red =
    s.red ∧ (State.setBranch s b x).saf = s.saf ∧ (State.setBranch s b x).fio = s.fio ∧ (State.setBranch s b x).cap = s.cap
    ∧ (State.setBranch s b x).prf = s.prf ∧ (State.setBranch s b x).host = s.host ∧ (State.setBranch s b x).evt = s.evt ∧
    (State.setBranch s b x).params = s.params ∧ (State.setBranch s b x).cfg = s.cfg ∧ (State.setBranch s b x).pwr = s.pwr ∧
    (State.setBranch s b x).lgr = s.lgr ∧ (State.setBranch s b x).pending = s.pending := ⟨rfl, rfl, rfl, rfl, rfl, rfl,
    rfl, rfl, rfl, rfl, rfl, rfl, rfl, rfl, rfl, rfl, rfl, rfl, rfl, rfl, rfl⟩


@[simp] theorem State.setNode_keeps (s : State) (b p : Nat) (n : Node) : (State.setNode s b p n).frm = s.frm ∧
    (State.setNode s b p n).axes = s.axes ∧ (State.setNode s b p n).lines = s.lines ∧ (State.setNode s b p n).cams = s.cams
    ∧ (State.setNode s b p n).camStg = s.camStg ∧ (State.setNode s b p n).zones = s.zones ∧ (State.setNode s b p n).steps =
    s.steps ∧ (State.setNode s b p n).encs = s.encs ∧ (State.setNode s b p n).dsp = s.dsp ∧ (State.setNode s b p n).red =
    s.red ∧ (State.setNode s b p n).saf = s.saf ∧ (State.setNode s b p n).fio = s.fio ∧ (State.setNode s b p n).cap = s.cap
    ∧ (State.setNode s b p n).prf = s.prf ∧ (State.setNode s b p n).host = s.host ∧ (State.setNode s b p n).evt = s.evt ∧
    (State.setNode s b p n).params = s.params ∧ (State.setNode s b p n).cfg = s.cfg ∧ (State.setNode s b p n).pwr = s.pwr ∧
    (State.setNode s b p n).lgr = s.lgr ∧ (State.setNode s b p n).pending = s.pending := ⟨rfl, rfl, rfl, rfl, rfl, rfl,
    rfl, rfl, rfl, rfl, rfl, rfl, rfl, rfl, rfl, rfl, rfl, rfl, rfl, rfl, rfl⟩


@[simp] theorem State.setJoin_keeps (s : State) (b : Nat) (j : Join) : (State.setJoin s b j).frm = s.frm ∧ (State.setJoin s
    b j).axes = s.axes ∧ (State.setJoin s b j).lines = s.lines ∧ (State.setJoin s b j).cams = s.cams ∧ (State.setJoin s b
    j).camStg = s.camStg ∧ (State.setJoin s b j).zones = s.zones ∧ (State.setJoin s b j).steps = s.steps ∧ (State.setJoin s
    b j).encs = s.encs ∧ (State.setJoin s b j).dsp = s.dsp ∧ (State.setJoin s b j).red = s.red ∧ (State.setJoin s b j).saf
    = s.saf ∧ (State.setJoin s b j).fio = s.fio ∧ (State.setJoin s b j).cap = s.cap ∧ (State.setJoin s b j).prf = s.prf ∧
    (State.setJoin s b j).host = s.host ∧ (State.setJoin s b j).evt = s.evt ∧ (State.setJoin s b j).params = s.params ∧
    (State.setJoin s b j).cfg = s.cfg ∧ (State.setJoin s b j).pwr = s.pwr ∧ (State.setJoin s b j).lgr = s.lgr ∧
    (State.setJoin s b j).pending = s.pending := ⟨rfl, rfl, rfl, rfl, rfl, rfl, rfl, rfl, rfl, rfl, rfl, rfl, rfl, rfl,
    rfl, rfl, rfl, rfl, rfl, rfl, rfl⟩


@[simp] theorem State.setFch_keeps (s : State) (c : Nat) (x : FioCh) : (State.setFch s c x).frm = s.frm ∧ (State.setFch s c
    x).axes = s.axes ∧ (State.setFch s c x).lines = s.lines ∧ (State.setFch s c x).cams = s.cams ∧ (State.setFch s c
    x).camStg = s.camStg ∧ (State.setFch s c x).zones = s.zones ∧ (State.setFch s c x).steps = s.steps ∧ (State.setFch s c
    x).encs = s.encs ∧ (State.setFch s c x).net = s.net ∧ (State.setFch s c x).dsp = s.dsp ∧ (State.setFch s c x).red =
    s.red ∧ (State.setFch s c x).saf = s.saf ∧ (State.setFch s c x).cap = s.cap ∧ (State.setFch s c x).prf = s.prf ∧
    (State.setFch s c x).host = s.host ∧ (State.setFch s c x).evt = s.evt ∧ (State.setFch s c x).params = s.params ∧
    (State.setFch s c x).cfg = s.cfg ∧ (State.setFch s c x).pwr = s.pwr ∧ (State.setFch s c x).lgr = s.lgr ∧ (State.setFch
    s c x).pending = s.pending := ⟨rfl, rfl, rfl, rfl, rfl, rfl, rfl, rfl, rfl, rfl, rfl, rfl, rfl, rfl, rfl, rfl, rfl,
    rfl, rfl, rfl, rfl⟩


@[simp] theorem State.setDie_keeps (s : State) (d : Nat) (x : FioDie) : (State.setDie s d x).frm = s.frm ∧ (State.setDie s
    d x).axes = s.axes ∧ (State.setDie s d x).lines = s.lines ∧ (State.setDie s d x).cams = s.cams ∧ (State.setDie s d
    x).camStg = s.camStg ∧ (State.setDie s d x).zones = s.zones ∧ (State.setDie s d x).steps = s.steps ∧ (State.setDie s d
    x).encs = s.encs ∧ (State.setDie s d x).net = s.net ∧ (State.setDie s d x).dsp = s.dsp ∧ (State.setDie s d x).red =
    s.red ∧ (State.setDie s d x).saf = s.saf ∧ (State.setDie s d x).cap = s.cap ∧ (State.setDie s d x).prf = s.prf ∧
    (State.setDie s d x).host = s.host ∧ (State.setDie s d x).evt = s.evt ∧ (State.setDie s d x).params = s.params ∧
    (State.setDie s d x).cfg = s.cfg ∧ (State.setDie s d x).pwr = s.pwr ∧ (State.setDie s d x).lgr = s.lgr ∧ (State.setDie
    s d x).pending = s.pending := ⟨rfl, rfl, rfl, rfl, rfl, rfl, rfl, rfl, rfl, rfl, rfl, rfl, rfl, rfl, rfl, rfl, rfl,
    rfl, rfl, rfl, rfl⟩


@[simp] theorem State.setTask_keeps (s : State) (d : Nat) (x : Task) : (State.setTask s d x).frm = s.frm ∧ (State.setTask s
    d x).axes = s.axes ∧ (State.setTask s d x).lines = s.lines ∧ (State.setTask s d x).cams = s.cams ∧ (State.setTask s d
    x).camStg = s.camStg ∧ (State.setTask s d x).zones = s.zones ∧ (State.setTask s d x).steps = s.steps ∧ (State.setTask s
    d x).encs = s.encs ∧ (State.setTask s d x).net = s.net ∧ (State.setTask s d x).red = s.red ∧ (State.setTask s d x).saf
    = s.saf ∧ (State.setTask s d x).fio = s.fio ∧ (State.setTask s d x).cap = s.cap ∧ (State.setTask s d x).prf = s.prf ∧
    (State.setTask s d x).host = s.host ∧ (State.setTask s d x).evt = s.evt ∧ (State.setTask s d x).params = s.params ∧
    (State.setTask s d x).cfg = s.cfg ∧ (State.setTask s d x).pwr = s.pwr ∧ (State.setTask s d x).lgr = s.lgr ∧
    (State.setTask s d x).pending = s.pending := ⟨rfl, rfl, rfl, rfl, rfl, rfl, rfl, rfl, rfl, rfl, rfl, rfl, rfl, rfl,
    rfl, rfl, rfl, rfl, rfl, rfl, rfl⟩


@[simp] theorem State.setConn_keeps (s : State) (c : Nat) (x : Conn) : (State.setConn s c x).frm = s.frm ∧ (State.setConn s
    c x).axes = s.axes ∧ (State.setConn s c x).lines = s.lines ∧ (State.setConn s c x).cams = s.cams ∧ (State.setConn s c
    x).camStg = s.camStg ∧ (State.setConn s c x).zones = s.zones ∧ (State.setConn s c x).steps = s.steps ∧ (State.setConn s
    c x).encs = s.encs ∧ (State.setConn s c x).net = s.net ∧ (State.setConn s c x).dsp = s.dsp ∧ (State.setConn s c x).red
    = s.red ∧ (State.setConn s c x).fio = s.fio ∧ (State.setConn s c x).cap = s.cap ∧ (State.setConn s c x).prf = s.prf ∧
    (State.setConn s c x).host = s.host ∧ (State.setConn s c x).evt = s.evt ∧ (State.setConn s c x).params = s.params ∧
    (State.setConn s c x).cfg = s.cfg ∧ (State.setConn s c x).pwr = s.pwr ∧ (State.setConn s c x).lgr = s.lgr ∧
    (State.setConn s c x).pending = s.pending := ⟨rfl, rfl, rfl, rfl, rfl, rfl, rfl, rfl, rfl, rfl, rfl, rfl, rfl, rfl,
    rfl, rfl, rfl, rfl, rfl, rfl, rfl⟩


@[simp] theorem State.setSgrp_keeps (s : State) (g : Nat) (x : SGroup) : (State.setSgrp s g x).frm = s.frm ∧ (State.setSgrp
    s g x).axes = s.axes ∧ (State.setSgrp s g x).lines = s.lines ∧ (State.setSgrp s g x).cams = s.cams ∧ (State.setSgrp s g
    x).camStg = s.camStg ∧ (State.setSgrp s g x).zones = s.zones ∧ (State.setSgrp s g x).steps = s.steps ∧ (State.setSgrp s
    g x).encs = s.encs ∧ (State.setSgrp s g x).net = s.net ∧ (State.setSgrp s g x).dsp = s.dsp ∧ (State.setSgrp s g x).red
    = s.red ∧ (State.setSgrp s g x).fio = s.fio ∧ (State.setSgrp s g x).cap = s.cap ∧ (State.setSgrp s g x).prf = s.prf ∧
    (State.setSgrp s g x).host = s.host ∧ (State.setSgrp s g x).evt = s.evt ∧ (State.setSgrp s g x).params = s.params ∧
    (State.setSgrp s g x).cfg = s.cfg ∧ (State.setSgrp s g x).pwr = s.pwr ∧ (State.setSgrp s g x).lgr = s.lgr ∧
    (State.setSgrp s g x).pending = s.pending := ⟨rfl, rfl, rfl, rfl, rfl, rfl, rfl, rfl, rfl, rfl, rfl, rfl, rfl, rfl,
    rfl, rfl, rfl, rfl, rfl, rfl, rfl⟩


@[simp] theorem State.setSout_keeps (s : State) (o : Nat) (x : SOut) : (State.setSout s o x).frm = s.frm ∧ (State.setSout s
    o x).axes = s.axes ∧ (State.setSout s o x).lines = s.lines ∧ (State.setSout s o x).cams = s.cams ∧ (State.setSout s o
    x).camStg = s.camStg ∧ (State.setSout s o x).zones = s.zones ∧ (State.setSout s o x).steps = s.steps ∧ (State.setSout s
    o x).encs = s.encs ∧ (State.setSout s o x).net = s.net ∧ (State.setSout s o x).dsp = s.dsp ∧ (State.setSout s o x).red
    = s.red ∧ (State.setSout s o x).fio = s.fio ∧ (State.setSout s o x).cap = s.cap ∧ (State.setSout s o x).prf = s.prf ∧
    (State.setSout s o x).host = s.host ∧ (State.setSout s o x).evt = s.evt ∧ (State.setSout s o x).params = s.params ∧
    (State.setSout s o x).cfg = s.cfg ∧ (State.setSout s o x).pwr = s.pwr ∧ (State.setSout s o x).lgr = s.lgr ∧
    (State.setSout s o x).pending = s.pending := ⟨rfl, rfl, rfl, rfl, rfl, rfl, rfl, rfl, rfl, rfl, rfl, rfl, rfl, rfl,
    rfl, rfl, rfl, rfl, rfl, rfl, rfl⟩


@[simp] theorem State.setSpair_keeps (s : State) (p : Nat) (x : SinPair) : (State.setSpair s p x).frm = s.frm ∧
    (State.setSpair s p x).axes = s.axes ∧ (State.setSpair s p x).lines = s.lines ∧ (State.setSpair s p x).cams = s.cams ∧
    (State.setSpair s p x).camStg = s.camStg ∧ (State.setSpair s p x).zones = s.zones ∧ (State.setSpair s p x).steps =
    s.steps ∧ (State.setSpair s p x).encs = s.encs ∧ (State.setSpair s p x).net = s.net ∧ (State.setSpair s p x).dsp =
    s.dsp ∧ (State.setSpair s p x).red = s.red ∧ (State.setSpair s p x).fio = s.fio ∧ (State.setSpair s p x).cap = s.cap ∧
    (State.setSpair s p x).prf = s.prf ∧ (State.setSpair s p x).host = s.host ∧ (State.setSpair s p x).evt = s.evt ∧
    (State.setSpair s p x).params = s.params ∧ (State.setSpair s p x).cfg = s.cfg ∧ (State.setSpair s p x).pwr = s.pwr ∧
    (State.setSpair s p x).lgr = s.lgr ∧ (State.setSpair s p x).pending = s.pending := ⟨rfl, rfl, rfl, rfl, rfl, rfl, rfl,
    rfl, rfl, rfl, rfl, rfl, rfl, rfl, rfl, rfl, rfl, rfl, rfl, rfl, rfl⟩


@[simp] theorem State.setPar_keeps (s : State) (c i n : Nat) (v : W64) : (State.setPar s c i n v).frm = s.frm ∧
    (State.setPar s c i n v).axes = s.axes ∧ (State.setPar s c i n v).lines = s.lines ∧ (State.setPar s c i n v).cams =
    s.cams ∧ (State.setPar s c i n v).camStg = s.camStg ∧ (State.setPar s c i n v).zones = s.zones ∧ (State.setPar s c i n
    v).steps = s.steps ∧ (State.setPar s c i n v).encs = s.encs ∧ (State.setPar s c i n v).net = s.net ∧ (State.setPar s c
    i n v).dsp = s.dsp ∧ (State.setPar s c i n v).red = s.red ∧ (State.setPar s c i n v).saf = s.saf ∧ (State.setPar s c i
    n v).fio = s.fio ∧ (State.setPar s c i n v).cap = s.cap ∧ (State.setPar s c i n v).prf = s.prf ∧ (State.setPar s c i n
    v).host = s.host ∧ (State.setPar s c i n v).evt = s.evt ∧ (State.setPar s c i n v).cfg = s.cfg ∧ (State.setPar s c i n
    v).pwr = s.pwr ∧ (State.setPar s c i n v).lgr = s.lgr ∧ (State.setPar s c i n v).pending = s.pending := ⟨rfl, rfl, rfl,
    rfl, rfl, rfl, rfl, rfl, rfl, rfl, rfl, rfl, rfl, rfl, rfl, rfl, rfl, rfl, rfl, rfl, rfl⟩


@[simp] theorem State.setReady_keeps (s : State) (k : Nat) (l : List Nat) : (State.setReady s k l).frm = s.frm ∧
    (State.setReady s k l).axes = s.axes ∧ (State.setReady s k l).lines = s.lines ∧ (State.setReady s k l).cams = s.cams ∧
    (State.setReady s k l).camStg = s.camStg ∧ (State.setReady s k l).zones = s.zones ∧ (State.setReady s k l).steps =
    s.steps ∧ (State.setReady s k l).encs = s.encs ∧ (State.setReady s k l).net = s.net ∧ (State.setReady s k l).red =
    s.red ∧ (State.setReady s k l).saf = s.saf ∧ (State.setReady s k l).fio = s.fio ∧ (State.setReady s k l).cap = s.cap ∧
    (State.setReady s k l).prf = s.prf ∧ (State.setReady s k l).host = s.host ∧ (State.setReady s k l).evt = s.evt ∧
    (State.setReady s k l).params = s.params ∧ (State.setReady s k l).cfg = s.cfg ∧ (State.setReady s k l).pwr = s.pwr ∧
    (State.setReady s k l).lgr = s.lgr ∧ (State.setReady s k l).pending = s.pending := ⟨rfl, rfl, rfl, rfl, rfl, rfl, rfl,
    rfl, rfl, rfl, rfl, rfl, rfl, rfl, rfl, rfl, rfl, rfl, rfl, rfl, rfl⟩


@[simp] theorem State.setPc_keeps (s : State) (k : Nat) (p : Pc) : (State.setPc s k p).frm = s.frm ∧ (State.setPc s k
    p).axes = s.axes ∧ (State.setPc s k p).lines = s.lines ∧ (State.setPc s k p).cams = s.cams ∧ (State.setPc s k p).camStg
    = s.camStg ∧ (State.setPc s k p).zones = s.zones ∧ (State.setPc s k p).steps = s.steps ∧ (State.setPc s k p).encs =
    s.encs ∧ (State.setPc s k p).net = s.net ∧ (State.setPc s k p).dsp = s.dsp ∧ (State.setPc s k p).red = s.red ∧
    (State.setPc s k p).saf = s.saf ∧ (State.setPc s k p).fio = s.fio ∧ (State.setPc s k p).cap = s.cap ∧ (State.setPc s k
    p).host = s.host ∧ (State.setPc s k p).evt = s.evt ∧ (State.setPc s k p).params = s.params ∧ (State.setPc s k p).cfg =
    s.cfg ∧ (State.setPc s k p).pwr = s.pwr ∧ (State.setPc s k p).lgr = s.lgr ∧ (State.setPc s k p).pending = s.pending :=
    ⟨rfl, rfl, rfl, rfl, rfl, rfl, rfl, rfl, rfl, rfl, rfl, rfl, rfl, rfl, rfl, rfl, rfl, rfl, rfl, rfl, rfl⟩


@[simp] theorem State.setBuf_keeps (s : State) (j : Nat) (x : BufSt) : (State.setBuf s j x).frm = s.frm ∧ (State.setBuf s j
    x).axes = s.axes ∧ (State.setBuf s j x).lines = s.lines ∧ (State.setBuf s j x).cams = s.cams ∧ (State.setBuf s j
    x).camStg = s.camStg ∧ (State.setBuf s j x).zones = s.zones ∧ (State.setBuf s j x).steps = s.steps ∧ (State.setBuf s j
    x).encs = s.encs ∧ (State.setBuf s j x).net = s.net ∧ (State.setBuf s j x).dsp = s.dsp ∧ (State.setBuf s j x).red =
    s.red ∧ (State.setBuf s j x).saf = s.saf ∧ (State.setBuf s j x).fio = s.fio ∧ (State.setBuf s j x).cap = s.cap ∧
    (State.setBuf s j x).prf = s.prf ∧ (State.setBuf s j x).evt = s.evt ∧ (State.setBuf s j x).params = s.params ∧
    (State.setBuf s j x).cfg = s.cfg ∧ (State.setBuf s j x).pwr = s.pwr ∧ (State.setBuf s j x).lgr = s.lgr ∧ (State.setBuf
    s j x).pending = s.pending := ⟨rfl, rfl, rfl, rfl, rfl, rfl, rfl, rfl, rfl, rfl, rfl, rfl, rfl, rfl, rfl, rfl, rfl,
    rfl, rfl, rfl, rfl⟩


@[simp] theorem State.setRec_keeps (s : State) (r : CapRec) : (State.setRec s r).frm = s.frm ∧ (State.setRec s r).axes =
    s.axes ∧ (State.setRec s r).lines = s.lines ∧ (State.setRec s r).cams = s.cams ∧ (State.setRec s r).camStg = s.camStg ∧
    (State.setRec s r).zones = s.zones ∧ (State.setRec s r).steps = s.steps ∧ (State.setRec s r).encs = s.encs ∧
    (State.setRec s r).net = s.net ∧ (State.setRec s r).dsp = s.dsp ∧ (State.setRec s r).red = s.red ∧ (State.setRec s
    r).saf = s.saf ∧ (State.setRec s r).fio = s.fio ∧ (State.setRec s r).prf = s.prf ∧ (State.setRec s r).host = s.host ∧
    (State.setRec s r).evt = s.evt ∧ (State.setRec s r).params = s.params ∧ (State.setRec s r).cfg = s.cfg ∧ (State.setRec
    s r).pwr = s.pwr ∧ (State.setRec s r).lgr = s.lgr ∧ (State.setRec s r).pending = s.pending := ⟨rfl, rfl, rfl, rfl, rfl,
    rfl, rfl, rfl, rfl, rfl, rfl, rfl, rfl, rfl, rfl, rfl, rfl, rfl, rfl, rfl, rfl⟩


@[simp] theorem State.setAxis_axes (s : State) (i : Nat) (a : Axis) : (State.setAxis s i a).axes = tset {} i a s.axes := rfl

@[simp] theorem State.setZone_zones (s : State) (z : Nat) (a : Zone) : (State.setZone s z a).zones = tset {} z a s.zones := rfl

@[simp] theorem State.setLine_lines (s : State) (l : Nat) (a : Line) : (State.setLine s l a).lines = tset {} l a s.lines := rfl

@[simp] theorem State.setStep_steps (s : State) (c : Nat) (a : StepCh) : (State.setStep s c a).steps = tset {} c a s.steps := rfl

@[simp] theorem State.setEnc_encs (s : State) (e : Nat) (a : Enc) : (State.setEnc s e a).encs = tset {} e a s.encs := rfl

/-! ## Reading an entry after an update: the entry itself, and any other -/

theorem State.setAxis_same (s : State) (i : Nat) (a : Axis) (h : twf ({} : Axis) s.axes = true) : (s.setAxis i a).axis i = a :=
  tget_tset_same _ a i 0 h

theorem State.setAxis_ne (s : State) (i : Nat) (a : Axis) (h : a ≠ {}) : (s.setAxis i a).axis i = a :=
  tget_tset_of_ne _ a i _ h

theorem State.setAxis_other (s : State) (i j : Nat) (a : Axis) (h : j ≠ i) : (s.setAxis i a).axis j = s.axis j :=
  tget_tset_other _ a i j _ h

theorem State.setZone_same (s : State) (z : Nat) (a : Zone) (h : twf ({} : Zone) s.zones = true) : (s.setZone z a).zone z = a :=
  tget_tset_same _ a z 0 h

theorem State.setZone_ne (s : State) (z : Nat) (a : Zone) (h : a ≠ {}) : (s.setZone z a).zone z = a :=
  tget_tset_of_ne _ a z _ h

theorem State.setZone_other (s : State) (z j : Nat) (a : Zone) (h : j ≠ z) : (s.setZone z a).zone j = s.zone j :=
  tget_tset_other _ a z j _ h

theorem State.setLine_same (s : State) (l : Nat) (a : Line) (h : twf ({} : Line) s.lines = true) : (s.setLine l a).line l = a :=
  tget_tset_same _ a l 0 h

theorem State.setLine_ne (s : State) (l : Nat) (a : Line) (h : a ≠ {}) : (s.setLine l a).line l = a :=
  tget_tset_of_ne _ a l _ h

theorem State.setLine_other (s : State) (l j : Nat) (a : Line) (h : j ≠ l) : (s.setLine l a).line j = s.line j :=
  tget_tset_other _ a l j _ h

theorem State.setStep_same (s : State) (c : Nat) (a : StepCh) (h : twf ({} : StepCh) s.steps = true) : (s.setStep c a).step_ c = a :=
  tget_tset_same _ a c 0 h

theorem State.setStep_ne (s : State) (c : Nat) (a : StepCh) (h : a ≠ {}) : (s.setStep c a).step_ c = a :=
  tget_tset_of_ne _ a c _ h

theorem State.setStep_other (s : State) (c j : Nat) (a : StepCh) (h : j ≠ c) : (s.setStep c a).step_ j = s.step_ j :=
  tget_tset_other _ a c j _ h

theorem State.setEnc_same (s : State) (e : Nat) (a : Enc) (h : twf ({} : Enc) s.encs = true) : (s.setEnc e a).enc e = a :=
  tget_tset_same _ a e 0 h

theorem State.setEnc_ne (s : State) (e : Nat) (a : Enc) (h : a ≠ {}) : (s.setEnc e a).enc e = a :=
  tget_tset_of_ne _ a e _ h

theorem State.setEnc_other (s : State) (e j : Nat) (a : Enc) (h : j ≠ e) : (s.setEnc e a).enc j = s.enc j :=
  tget_tset_other _ a e j _ h

theorem State.setPort_same (s : State) (b : Nat) (a : Port) (h : twf ({} : Port) s.net.ports = true) : (s.setPort b a).port b = a :=
  tget_tset_same _ a b 0 h

theorem State.setPort_ne (s : State) (b : Nat) (a : Port) (h : a ≠ {}) : (s.setPort b a).port b = a :=
  tget_tset_of_ne _ a b _ h

theorem State.setPort_other (s : State) (b j : Nat) (a : Port) (h : j ≠ b) : (s.setPort b a).port j = s.port j :=
  tget_tset_other _ a b j _ h

theorem State.setBranch_same (s : State) (b : Nat) (a : Branch) (h : twf ({} : Branch) s.net.br = true) : (s.setBranch b a).branch b = a :=
  tget_tset_same _ a b 0 h

theorem State.setBranch_ne (s : State) (b : Nat) (a : Branch) (h : a ≠ {}) : (s.setBranch b a).branch b = a :=
  tget_tset_of_ne _ a b _ h

theorem State.setBranch_other (s : State) (b j : Nat) (a : Branch) (h : j ≠ b) : (s.setBranch b a).branch j = s.branch j :=
  tget_tset_other _ a b j _ h

theorem State.setJoin_same (s : State) (b : Nat) (a : Join) (h : twf ({} : Join) s.net.joins = true) : (s.setJoin b a).join b = a :=
  tget_tset_same _ a b 0 h

theorem State.setJoin_ne (s : State) (b : Nat) (a : Join) (h : a ≠ {}) : (s.setJoin b a).join b = a :=
  tget_tset_of_ne _ a b _ h

theorem State.setJoin_other (s : State) (b j : Nat) (a : Join) (h : j ≠ b) : (s.setJoin b a).join j = s.join j :=
  tget_tset_other _ a b j _ h

theorem State.setFch_same (s : State) (c : Nat) (a : FioCh) (h : twf ({} : FioCh) s.fio.ch = true) : (s.setFch c a).fch c = a :=
  tget_tset_same _ a c 0 h

theorem State.setFch_ne (s : State) (c : Nat) (a : FioCh) (h : a ≠ {}) : (s.setFch c a).fch c = a :=
  tget_tset_of_ne _ a c _ h

theorem State.setFch_other (s : State) (c j : Nat) (a : FioCh) (h : j ≠ c) : (s.setFch c a).fch j = s.fch j :=
  tget_tset_other _ a c j _ h

theorem State.setDie_same (s : State) (d : Nat) (a : FioDie) (h : twf ({} : FioDie) s.fio.dies = true) : (s.setDie d a).die d = a :=
  tget_tset_same _ a d 0 h

theorem State.setDie_ne (s : State) (d : Nat) (a : FioDie) (h : a ≠ {}) : (s.setDie d a).die d = a :=
  tget_tset_of_ne _ a d _ h

theorem State.setDie_other (s : State) (d j : Nat) (a : FioDie) (h : j ≠ d) : (s.setDie d a).die j = s.die j :=
  tget_tset_other _ a d j _ h

theorem State.setTask_same (s : State) (d : Nat) (a : Task) (h : twf ({} : Task) s.dsp.tasks = true) : (s.setTask d a).task d = a :=
  tget_tset_same _ a d 0 h

theorem State.setTask_ne (s : State) (d : Nat) (a : Task) (h : a ≠ {}) : (s.setTask d a).task d = a :=
  tget_tset_of_ne _ a d _ h

theorem State.setTask_other (s : State) (d j : Nat) (a : Task) (h : j ≠ d) : (s.setTask d a).task j = s.task j :=
  tget_tset_other _ a d j _ h

theorem State.setConn_same (s : State) (c : Nat) (a : Conn) (h : twf ({} : Conn) s.saf.conns = true) : (s.setConn c a).conn c = a :=
  tget_tset_same _ a c 0 h

theorem State.setConn_ne (s : State) (c : Nat) (a : Conn) (h : a ≠ {}) : (s.setConn c a).conn c = a :=
  tget_tset_of_ne _ a c _ h

theorem State.setConn_other (s : State) (c j : Nat) (a : Conn) (h : j ≠ c) : (s.setConn c a).conn j = s.conn j :=
  tget_tset_other _ a c j _ h

theorem State.setSgrp_same (s : State) (g : Nat) (a : SGroup) (h : twf ({} : SGroup) s.saf.groups = true) : (s.setSgrp g a).sgrp g = a :=
  tget_tset_same _ a g 0 h

theorem State.setSgrp_ne (s : State) (g : Nat) (a : SGroup) (h : a ≠ {}) : (s.setSgrp g a).sgrp g = a :=
  tget_tset_of_ne _ a g _ h

theorem State.setSgrp_other (s : State) (g j : Nat) (a : SGroup) (h : j ≠ g) : (s.setSgrp g a).sgrp j = s.sgrp j :=
  tget_tset_other _ a g j _ h

theorem State.setSout_same (s : State) (o : Nat) (a : SOut) (h : twf ({} : SOut) s.saf.outs = true) : (s.setSout o a).sout o = a :=
  tget_tset_same _ a o 0 h

theorem State.setSout_ne (s : State) (o : Nat) (a : SOut) (h : a ≠ {}) : (s.setSout o a).sout o = a :=
  tget_tset_of_ne _ a o _ h

theorem State.setSout_other (s : State) (o j : Nat) (a : SOut) (h : j ≠ o) : (s.setSout o a).sout j = s.sout j :=
  tget_tset_other _ a o j _ h

theorem State.setSpair_same (s : State) (p : Nat) (a : SinPair) (h : twf ({} : SinPair) s.saf.pairs = true) : (s.setSpair p a).spair p = a :=
  tget_tset_same _ a p 0 h

theorem State.setSpair_ne (s : State) (p : Nat) (a : SinPair) (h : a ≠ {}) : (s.setSpair p a).spair p = a :=
  tget_tset_of_ne _ a p _ h

theorem State.setSpair_other (s : State) (p j : Nat) (a : SinPair) (h : j ≠ p) : (s.setSpair p a).spair j = s.spair j :=
  tget_tset_other _ a p j _ h

theorem State.setNode_ne (s : State) (b p : Nat) (a : Node) (h : a ≠ {}) : (s.setNode b p a).node b p = a :=
  tget_tset_of_ne _ a _ _ h

theorem State.setNode_other (s : State) (b p c q : Nat) (a : Node) (h : nodeKey c q ≠ nodeKey b p) :
    (s.setNode b p a).node c q = s.node c q :=
  tget_tset_other _ a _ _ _ h

end Sys2Proof.Machine
end

