-- ==== Sys2Proof/Laws/Tick.lean ====
section
/-! SUPPORT. What the operations of Machine/Tick change of the state: nothing outside the listed parts. -/

set_option linter.unusedTactic false
set_option linter.unreachableTactic false

namespace Sys2Proof.Machine

theorem State.imageUsed_only (s : State) : Only [.axes, .lines, .zones] s (State.imageUsed s) := by
  unfold State.imageUsed
  repeat (first
    | with_reducible exact Only.refl _ _
    | with_reducible assumption
    | ((with_reducible apply Only.step (State.setLine_only ..)); decide)
    | ((with_reducible apply Only.step (State.setZone_only ..)); decide)
    | ((with_reducible apply Only.step (State.setAxis_only ..)); decide)
    | with_reducible refine Only.foldl ?_ ?_
    | (intro _ _ _; try beta_reduce))

theorem State.takeOutput_only (s : State) : Only [.prf, .host, .evt] s (State.takeOutput s) := by
  unfold State.takeOutput
  repeat (first
    | with_reducible exact Only.refl _ _
    | with_reducible assumption
    | ((with_reducible apply Only.step (State.irq_only ..)); decide)
    | fail_if_no_progress with_reducible refine Only.host (by decide) ?_
    | split
    | (dsimp -proj -beta only []; split))

theorem State.takeDecim_only (s : State) : Only [.host] s (State.takeDecim s) := by
  unfold State.takeDecim
  repeat (first
    | with_reducible exact Only.refl _ _
    | with_reducible assumption
    | with_reducible refine Only.ite ?_ ?_
    | fail_if_no_progress with_reducible refine Only.host (by decide) ?_)

theorem State.seqInc_only (s : State) (b : Nat) : Only [.host] s (State.seqInc s b) := by
  unfold State.seqInc
  repeat (first
    | with_reducible exact Only.refl _ _
    | with_reducible assumption
    | fail_if_no_progress with_reducible refine Only.host (by decide) ?_)

theorem State.inputStart_only (s : State) : Only [.host] s (State.inputStart s) := by
  unfold State.inputStart
  repeat (first
    | with_reducible exact Only.refl _ _
    | with_reducible assumption
    | ((with_reducible apply Only.step (State.seqInc_only ..)); decide)
    | with_reducible refine Only.ite ?_ ?_
    | fail_if_no_progress with_reducible refine Only.host (by decide) ?_)

theorem State.applyFaults_only (s : State) : Only [.axes] s (State.applyFaults s) := by
  unfold State.applyFaults
  repeat (first
    | with_reducible exact Only.refl _ _
    | with_reducible assumption
    | ((with_reducible apply Only.step (State.mapAxes_only ..)); decide)
    | with_reducible refine Only.ite ?_ ?_)

theorem State.stopGroup_only (s : State) (g : Nat) : Only [.axes, .lines, .evt] s (State.stopGroup s g) := by
  unfold State.stopGroup
  repeat (first
    | with_reducible exact Only.refl _ _
    | with_reducible assumption
    | ((with_reducible apply Only.step (State.mapAxes_only ..)); decide)
    | ((with_reducible apply Only.step (State.setLine_only ..)); decide)
    | with_reducible refine Only.ite ?_ ?_
    | with_reducible refine Only.foldl ?_ ?_
    | (intro _ _ _; try beta_reduce)
    | fail_if_no_progress with_reducible refine Only.evt (by decide) ?_)

theorem State.stopGroups_only (s : State) : Only [.axes, .lines, .evt] s (State.stopGroups s) := by
  unfold State.stopGroups
  repeat (first
    | with_reducible exact Only.refl _ _
    | with_reducible assumption
    | ((with_reducible apply Only.step (State.stopGroup_only ..)); decide)
    | with_reducible refine Only.foldl ?_ ?_
    | (intro _ _ _; try beta_reduce))

theorem State.derateGroups_only (s : State) : Only [.evt] s (State.derateGroups s) := by
  unfold State.derateGroups
  repeat (first
    | with_reducible exact Only.refl _ _
    | with_reducible assumption
    | with_reducible refine Only.ite ?_ ?_
    | with_reducible refine Only.foldl ?_ ?_
    | (intro _ _ _; try beta_reduce)
    | fail_if_no_progress with_reducible refine Only.evt (by decide) ?_)

theorem State.endStops_only (s : State) : Only [.lines, .evt] s (State.endStops s) := by
  unfold State.endStops
  repeat (first
    | with_reducible exact Only.refl _ _
    | with_reducible assumption
    | ((with_reducible apply Only.step (State.setLine_only ..)); decide)
    | with_reducible refine Only.ite ?_ ?_
    | with_reducible refine Only.foldl ?_ ?_
    | (intro _ _ _; try beta_reduce)
    | fail_if_no_progress with_reducible refine Only.evt (by decide) ?_)

theorem State.startYield_only (s : State) : Only [.red] s (State.startYield s) := by
  unfold State.startYield
  repeat (first
    | with_reducible exact Only.refl _ _
    | with_reducible assumption
    | with_reducible refine Only.ite ?_ ?_
    | fail_if_no_progress with_reducible refine Only.red (by decide) ?_)

theorem State.shiftFrame_only (s : State) : Only [.axes, .lines, .zones] s (State.shiftFrame s) := by
  unfold State.shiftFrame
  repeat (first
    | with_reducible exact Only.refl _ _
    | with_reducible assumption
    | ((with_reducible apply Only.step (State.mapAxes_only ..)); decide)
    | ((with_reducible apply Only.step (State.setLine_only ..)); decide)
    | ((with_reducible apply Only.step (State.setZone_only ..)); decide)
    | with_reducible refine Only.foldl ?_ ?_
    | (intro _ _ _; try beta_reduce))

theorem State.axisBoundary_only (s : State) : Only [.axes, .lines, .zones, .prf, .host, .evt] s (State.axisBoundary s) := by
  unfold State.axisBoundary
  repeat (first
    | with_reducible exact Only.refl _ _
    | with_reducible assumption
    | ((with_reducible apply Only.step (State.shiftFrame_only ..)); decide)
    | ((with_reducible apply Only.step (State.derateGroups_only ..)); decide)
    | ((with_reducible apply Only.step (State.stopGroups_only ..)); decide)
    | ((with_reducible apply Only.step (State.applyFaults_only ..)); decide)
    | ((with_reducible apply Only.step (State.axAnswers_only ..)); decide)
    | ((with_reducible apply Only.step (State.axRun_only ..)); decide)
    | ((with_reducible apply Only.step (Only.eq_fst (State.axRun_only ..) (by assumption))); decide)
    | ((with_reducible apply Only.step (State.mapAxes_only ..)); decide)
    | split
    | (dsimp -proj -beta only []; split))

theorem State.headBoundary_only (s : State) : Only [.frm, .axes, .lines, .cams, .zones, .net, .dsp, .red, .saf, .fio, .cap, .prf, .host, .evt, .params, .cfg, .lgr] s (State.headBoundary s) := by
  unfold State.headBoundary
  repeat (first
    | with_reducible exact Only.refl _ _
    | with_reducible assumption
    | ((with_reducible apply Only.step (State.axisBoundary_only ..)); decide)
    | ((with_reducible apply Only.step (State.startYield_only ..)); decide)
    | ((with_reducible apply Only.step (State.endStops_only ..)); decide)
    | ((with_reducible apply Only.step (State.decideTaken_only ..)); decide)
    | ((with_reducible apply Only.step (State.axAnswers_only ..)); decide)
    | ((with_reducible apply Only.step (State.axRun_only ..)); decide)
    | ((with_reducible apply Only.step (Only.eq_fst (State.axRun_only ..) (by assumption))); decide)
    | with_reducible refine Only.ite ?_ ?_
    | fail_if_no_progress with_reducible refine Only.evt (by decide) ?_
    | split
    | (dsimp -proj -beta only []; split))

theorem State.otherBoundary_only (s : State) : Only [.frm, .axes, .lines, .cams, .zones, .net, .dsp, .red, .saf, .fio, .cap, .prf, .host, .evt, .params, .cfg, .lgr] s (State.otherBoundary s) := by
  unfold State.otherBoundary
  repeat (first
    | with_reducible exact Only.refl _ _
    | with_reducible assumption
    | ((with_reducible apply Only.step (State.decideTaken_only ..)); decide)
    | fail_if_no_progress with_reducible refine Only.red_evt (by decide) (by decide) ?_
    | fail_if_no_progress with_reducible refine Only.red (by decide) ?_
    | fail_if_no_progress with_reducible refine Only.evt (by decide) ?_)

theorem State.procUsed_only (s : State) (r : Nat) : Only [.net] s (State.procUsed s r) := by
  unfold State.procUsed
  repeat (first
    | with_reducible exact Only.refl _ _
    | with_reducible assumption
    | with_reducible refine Only.ite ?_ ?_
    | with_reducible refine Only.foldl ?_ ?_
    | (intro _ _ _; try beta_reduce)
    | fail_if_no_progress with_reducible refine Only.net (by decide) ?_)

theorem State.procSends_only (s : State) : Only [.net] s (State.procSends s) := by
  unfold State.procSends
  repeat (first
    | with_reducible exact Only.refl _ _
    | with_reducible assumption
    | ((with_reducible apply Only.step (State.procUsed_only ..)); decide)
    | ((with_reducible apply Only.step (State.setBranch_only ..)); decide)
    | with_reducible refine Only.ite ?_ ?_
    | with_reducible refine Only.foldl ?_ ?_
    | (intro _ _ _; try beta_reduce))

theorem State.fullClock_only (s : State) : Only [.pwr] s (State.fullClock s) := by
  unfold State.fullClock
  repeat (first
    | with_reducible exact Only.refl _ _
    | with_reducible assumption
    | with_reducible refine Only.ite ?_ ?_
    | fail_if_no_progress with_reducible refine Only.pwr (by decide) ?_)

theorem State.ioBoundary_only (s : State) : Only [.axes, .lines, .zones, .fio, .cap, .prf, .host, .evt, .lgr] s (State.ioBoundary s) := by
  unfold State.ioBoundary
  repeat (first
    | with_reducible exact Only.refl _ _
    | with_reducible assumption
    | ((with_reducible apply Only.step (State.takeOutput_only ..)); decide)
    | ((with_reducible apply Only.step (State.imageUsed_only ..)); decide)
    | ((with_reducible apply Only.step (State.capBoundary_only ..)); decide)
    | ((with_reducible apply Only.step (State.fioBoundary_only ..)); decide)
    | ((with_reducible apply Only.step (State.imgCheck_only ..)); decide)
    | with_reducible refine Only.ite ?_ ?_)

theorem State.boundaryEnd_only (late : Bool) (s : State) : Only [.frm, .net, .dsp, .red, .prf, .host, .pwr, .lgr] s (State.boundaryEnd late s) := by
  unfold State.boundaryEnd
  repeat (first
    | with_reducible exact Only.refl _ _
    | with_reducible assumption
    | ((with_reducible apply Only.step (State.procSends_only ..)); decide)
    | ((with_reducible apply Only.step (State.inputStart_only ..)); decide)
    | ((with_reducible apply Only.step (State.ledRequest_only ..)); decide)
    | ((with_reducible apply Only.step (State.paramSends_only ..)); decide)
    | ((with_reducible apply Only.step (State.headSends_only ..)); decide)
    | ((with_reducible apply Only.step (State.releaseFrame_only ..)); decide)
    | with_reducible refine Only.ite ?_ ?_
    | fail_if_no_progress with_reducible refine Only.frm (by decide) ?_)

theorem execTickTakesEffect_only (s : State) : Answers [.frm, .axes, .lines, .cams, .zones, .net, .dsp, .red, .saf, .fio, .cap, .prf, .host, .evt, .params, .cfg, .pwr, .lgr] s (execTickTakesEffect s) := by
  unfold execTickTakesEffect
  repeat (first
    | with_reducible refine Answers.next ?_
    | with_reducible exact Only.refl _ _
    | with_reducible assumption
    | ((with_reducible apply Only.step (State.boundaryEnd_only ..)); decide)
    | ((with_reducible apply Only.step (State.ioBoundary_only ..)); decide)
    | ((with_reducible apply Only.step (State.fullClock_only ..)); decide)
    | ((with_reducible apply Only.step (State.otherBoundary_only ..)); decide)
    | ((with_reducible apply Only.step (State.headBoundary_only ..)); decide)
    | ((with_reducible apply Only.step (State.takeDecim_only ..)); decide)
    | ((with_reducible apply Only.step (State.switchTo_only ..)); decide)
    | ((with_reducible apply Only.step (State.gotoLatency_only ..)); decide)
    | with_reducible refine Only.ite ?_ ?_
    | fail_if_no_progress with_reducible refine Only.frm (by decide) ?_
    | split
    | (dsimp -proj -beta only []; split))

theorem execSampleInstant_only (s : State) : Answers [.frm, .steps, .encs, .fio, .cap, .prf, .evt, .pwr, .lgr] s (execSampleInstant s) := by
  unfold execSampleInstant
  repeat (first
    | with_reducible refine Answers.next ?_
    | with_reducible exact Only.refl _ _
    | with_reducible assumption
    | ((with_reducible apply Only.step (State.fioLatch_only ..)); decide)
    | ((with_reducible apply Only.step (State.encSample_only ..)); decide)
    | ((with_reducible apply Only.step (State.goto_only ..)); decide)
    | ((with_reducible apply Only.step (State.setStep_only ..)); decide)
    | with_reducible refine Only.ite ?_ ?_
    | with_reducible refine Only.foldl ?_ ?_
    | (intro _ _ _; try beta_reduce))

theorem State.nodeApply_only (s : State) : Only [.steps, .net, .fio] s (State.nodeApply s) := by
  unfold State.nodeApply
  repeat (first
    | with_reducible exact Only.refl _ _
    | with_reducible assumption
    | ((with_reducible apply Only.step (State.fioApply_only ..)); decide)
    | ((with_reducible apply Only.step (State.nodeStep_only ..)); decide)
    | with_reducible refine Only.ite ?_ ?_
    | with_reducible refine Only.foldl ?_ ?_
    | (intro _ _ _; try beta_reduce)
    | fail_if_no_progress with_reducible refine Only.net (by decide) ?_
    | split
    | (dsimp -proj -beta only []; split))

theorem State.quitSteps_only (s : State) : Only [.frm, .steps, .red, .cap, .prf, .evt, .pwr, .lgr] s (State.quitSteps s) := by
  unfold State.quitSteps
  repeat (first
    | with_reducible exact Only.refl _ _
    | with_reducible assumption
    | ((with_reducible apply Only.step (State.stepWithdraw_only ..)); decide)
    | ((with_reducible apply Only.step (State.goto_only ..)); decide)
    | with_reducible refine Only.foldl ?_ ?_
    | (intro _ _ _; try beta_reduce)
    | fail_if_no_progress with_reducible refine Only.red (by decide) ?_
    | split
    | (dsimp -proj -beta only []; split))

theorem execApplyInstant_only (s : State) : Answers [.frm, .axes, .steps, .net, .red, .fio, .cap, .prf, .evt, .pwr, .lgr] s (execApplyInstant s) := by
  unfold execApplyInstant
  repeat (first
    | with_reducible refine Answers.next ?_
    | with_reducible exact Only.refl _ _
    | with_reducible assumption
    | ((with_reducible apply Only.step (State.quitSteps_only ..)); decide)
    | ((with_reducible apply Only.step (State.nodeApply_only ..)); decide)
    | ((with_reducible apply Only.step (State.fioApply_only ..)); decide)
    | ((with_reducible apply Only.step (State.stepApply_only ..)); decide)
    | ((with_reducible apply Only.step (State.goto_only ..)); decide)
    | with_reducible refine Only.ite ?_ ?_
    | with_reducible refine Only.foldl ?_ ?_
    | (intro _ _ _; try beta_reduce)
    | split
    | (dsimp -proj -beta only []; split))

theorem execNroleKeeperExpiry_only (s : State) : Answers [.net, .fio] s (execNroleKeeperExpiry s) := by
  unfold execNroleKeeperExpiry
  repeat (first
    | with_reducible refine Answers.next ?_
    | with_reducible exact Only.refl _ _
    | with_reducible assumption
    | ((with_reducible apply Only.step (State.fioApply_only ..)); decide)
    | with_reducible refine Only.ite ?_ ?_
    | fail_if_no_progress with_reducible refine Only.net (by decide) ?_)

theorem execInputImageComplete_only (s : State) : Answers [.prf, .host, .evt] s (execInputImageComplete s) := by
  unfold execInputImageComplete
  repeat (first
    | with_reducible refine Answers.next ?_
    | with_reducible exact Only.refl _ _
    | with_reducible assumption
    | ((with_reducible apply Only.step (State.irq_only ..)); decide)
    | with_reducible refine Only.ite ?_ ?_
    | fail_if_no_progress with_reducible refine Only.host (by decide) ?_
    | split
    | (dsimp -proj -beta only []; split))

end Sys2Proof.Machine
end

