-- ==== Sys2Proof/Laws/Keeps.lean ====
section
/-! SUPPORT. The frames of the shared operations, field by field, as rewriting rules. -/

namespace Sys2Proof.Machine

@[simp] theorem State.mapAxes_keeps (s : State) (f : Nat → Axis → Axis) (l : List Nat) : (State.mapAxes s f l).frm = s.frm
    ∧ (State.mapAxes s f l).lines = s.lines ∧ (State.mapAxes s f l).cams = s.cams ∧ (State.mapAxes s f l).camStg = s.camStg
    ∧ (State.mapAxes s f l).zones = s.zones ∧ (State.mapAxes s f l).steps = s.steps ∧ (State.mapAxes s f l).encs = s.encs ∧
    (State.mapAxes s f l).net = s.net ∧ (State.mapAxes s f l).dsp = s.dsp ∧ (State.mapAxes s f l).red = s.red ∧
    (State.mapAxes s f l).saf = s.saf ∧ (State.mapAxes s f l).fio = s.fio ∧ (State.mapAxes s f l).cap = s.cap ∧
    (State.mapAxes s f l).prf = s.prf ∧ (State.mapAxes s f l).host = s.host ∧ (State.mapAxes s f l).evt = s.evt ∧
    (State.mapAxes s f l).params = s.params ∧ (State.mapAxes s f l).cfg = s.cfg ∧ (State.mapAxes s f l).pwr = s.pwr ∧
    (State.mapAxes s f l).lgr = s.lgr ∧ (State.mapAxes s f l).pending = s.pending :=
  let h := State.mapAxes_only s f l
  ⟨h.out .frm rfl, h.out .lines rfl, h.out .cams rfl, h.out .camStg rfl, h.out .zones rfl, h.out .steps rfl, h.out .encs
    rfl, h.out .net rfl, h.out .dsp rfl, h.out .red rfl, h.out .saf rfl, h.out .fio rfl, h.out .cap rfl, h.out .prf rfl,
    h.out .host rfl, h.out .evt rfl, h.out .params rfl, h.out .cfg rfl, h.out .pwr rfl, h.out .lgr rfl, h.out .pending rfl⟩


@[simp] theorem State.pulseN_keeps (s : State) (c lat n : Nat) : (State.pulseN s c lat n).frm = s.frm ∧ (State.pulseN s c
    lat n).axes = s.axes ∧ (State.pulseN s c lat n).lines = s.lines ∧ (State.pulseN s c lat n).cams = s.cams ∧
    (State.pulseN s c lat n).camStg = s.camStg ∧ (State.pulseN s c lat n).zones = s.zones ∧ (State.pulseN s c lat n).steps
    = s.steps ∧ (State.pulseN s c lat n).encs = s.encs ∧ (State.pulseN s c lat n).net = s.net ∧ (State.pulseN s c lat
    n).dsp = s.dsp ∧ (State.pulseN s c lat n).red = s.red ∧ (State.pulseN s c lat n).saf = s.saf ∧ (State.pulseN s c lat
    n).fio = s.fio ∧ (State.pulseN s c lat n).cap = s.cap ∧ (State.pulseN s c lat n).host = s.host ∧ (State.pulseN s c lat
    n).evt = s.evt ∧ (State.pulseN s c lat n).params = s.params ∧ (State.pulseN s c lat n).cfg = s.cfg ∧ (State.pulseN s c
    lat n).pwr = s.pwr ∧ (State.pulseN s c lat n).lgr = s.lgr ∧ (State.pulseN s c lat n).pending = s.pending :=
  let h := State.pulseN_only s c lat n
  ⟨h.out .frm rfl, h.out .axes rfl, h.out .lines rfl, h.out .cams rfl, h.out .camStg rfl, h.out .zones rfl, h.out .steps
    rfl, h.out .encs rfl, h.out .net rfl, h.out .dsp rfl, h.out .red rfl, h.out .saf rfl, h.out .fio rfl, h.out .cap rfl,
    h.out .host rfl, h.out .evt rfl, h.out .params rfl, h.out .cfg rfl, h.out .pwr rfl, h.out .lgr rfl, h.out .pending rfl⟩


@[simp] theorem State.pulse_keeps (s : State) (c : Nat) : (State.pulse s c).frm = s.frm ∧ (State.pulse s c).axes = s.axes ∧
    (State.pulse s c).lines = s.lines ∧ (State.pulse s c).cams = s.cams ∧ (State.pulse s c).camStg = s.camStg ∧
    (State.pulse s c).zones = s.zones ∧ (State.pulse s c).steps = s.steps ∧ (State.pulse s c).encs = s.encs ∧ (State.pulse
    s c).net = s.net ∧ (State.pulse s c).dsp = s.dsp ∧ (State.pulse s c).red = s.red ∧ (State.pulse s c).saf = s.saf ∧
    (State.pulse s c).fio = s.fio ∧ (State.pulse s c).cap = s.cap ∧ (State.pulse s c).host = s.host ∧ (State.pulse s c).evt
    = s.evt ∧ (State.pulse s c).params = s.params ∧ (State.pulse s c).cfg = s.cfg ∧ (State.pulse s c).pwr = s.pwr ∧
    (State.pulse s c).lgr = s.lgr ∧ (State.pulse s c).pending = s.pending :=
  let h := State.pulse_only s c
  ⟨h.out .frm rfl, h.out .axes rfl, h.out .lines rfl, h.out .cams rfl, h.out .camStg rfl, h.out .zones rfl, h.out .steps
    rfl, h.out .encs rfl, h.out .net rfl, h.out .dsp rfl, h.out .red rfl, h.out .saf rfl, h.out .fio rfl, h.out .cap rfl,
    h.out .host rfl, h.out .evt rfl, h.out .params rfl, h.out .cfg rfl, h.out .pwr rfl, h.out .lgr rfl, h.out .pending rfl⟩


@[simp] theorem State.pulseX_keeps (s : State) (c : Nat) : (State.pulseX s c).frm = s.frm ∧ (State.pulseX s c).axes =
    s.axes ∧ (State.pulseX s c).lines = s.lines ∧ (State.pulseX s c).cams = s.cams ∧ (State.pulseX s c).camStg = s.camStg ∧
    (State.pulseX s c).zones = s.zones ∧ (State.pulseX s c).steps = s.steps ∧ (State.pulseX s c).encs = s.encs ∧
    (State.pulseX s c).net = s.net ∧ (State.pulseX s c).dsp = s.dsp ∧ (State.pulseX s c).red = s.red ∧ (State.pulseX s
    c).saf = s.saf ∧ (State.pulseX s c).fio = s.fio ∧ (State.pulseX s c).cap = s.cap ∧ (State.pulseX s c).host = s.host ∧
    (State.pulseX s c).evt = s.evt ∧ (State.pulseX s c).params = s.params ∧ (State.pulseX s c).cfg = s.cfg ∧ (State.pulseX
    s c).pwr = s.pwr ∧ (State.pulseX s c).lgr = s.lgr ∧ (State.pulseX s c).pending = s.pending :=
  let h := State.pulseX_only s c
  ⟨h.out .frm rfl, h.out .axes rfl, h.out .lines rfl, h.out .cams rfl, h.out .camStg rfl, h.out .zones rfl, h.out .steps
    rfl, h.out .encs rfl, h.out .net rfl, h.out .dsp rfl, h.out .red rfl, h.out .saf rfl, h.out .fio rfl, h.out .cap rfl,
    h.out .host rfl, h.out .evt rfl, h.out .params rfl, h.out .cfg rfl, h.out .pwr rfl, h.out .lgr rfl, h.out .pending rfl⟩


@[simp] theorem State.irq_keeps (s : State) (k : Nat) : (State.irq s k).frm = s.frm ∧ (State.irq s k).axes = s.axes ∧
    (State.irq s k).lines = s.lines ∧ (State.irq s k).cams = s.cams ∧ (State.irq s k).camStg = s.camStg ∧ (State.irq s
    k).zones = s.zones ∧ (State.irq s k).steps = s.steps ∧ (State.irq s k).encs = s.encs ∧ (State.irq s k).net = s.net ∧
    (State.irq s k).dsp = s.dsp ∧ (State.irq s k).red = s.red ∧ (State.irq s k).saf = s.saf ∧ (State.irq s k).fio = s.fio ∧
    (State.irq s k).cap = s.cap ∧ (State.irq s k).host = s.host ∧ (State.irq s k).params = s.params ∧ (State.irq s k).cfg =
    s.cfg ∧ (State.irq s k).pwr = s.pwr ∧ (State.irq s k).lgr = s.lgr ∧ (State.irq s k).pending = s.pending :=
  let h := State.irq_only s k
  ⟨h.out .frm rfl, h.out .axes rfl, h.out .lines rfl, h.out .cams rfl, h.out .camStg rfl, h.out .zones rfl, h.out .steps
    rfl, h.out .encs rfl, h.out .net rfl, h.out .dsp rfl, h.out .red rfl, h.out .saf rfl, h.out .fio rfl, h.out .cap rfl,
    h.out .host rfl, h.out .params rfl, h.out .cfg rfl, h.out .pwr rfl, h.out .lgr rfl, h.out .pending rfl⟩


@[simp] theorem State.setRole_keeps (s : State) (r : Role) : (State.setRole s r).axes = s.axes ∧ (State.setRole s r).lines
    = s.lines ∧ (State.setRole s r).cams = s.cams ∧ (State.setRole s r).camStg = s.camStg ∧ (State.setRole s r).zones =
    s.zones ∧ (State.setRole s r).steps = s.steps ∧ (State.setRole s r).encs = s.encs ∧ (State.setRole s r).net = s.net ∧
    (State.setRole s r).dsp = s.dsp ∧ (State.setRole s r).red = s.red ∧ (State.setRole s r).saf = s.saf ∧ (State.setRole s
    r).fio = s.fio ∧ (State.setRole s r).cap = s.cap ∧ (State.setRole s r).host = s.host ∧ (State.setRole s r).params =
    s.params ∧ (State.setRole s r).cfg = s.cfg ∧ (State.setRole s r).pwr = s.pwr ∧ (State.setRole s r).lgr = s.lgr ∧
    (State.setRole s r).pending = s.pending :=
  let h := State.setRole_only s r
  ⟨h.out .axes rfl, h.out .lines rfl, h.out .cams rfl, h.out .camStg rfl, h.out .zones rfl, h.out .steps rfl, h.out .encs
    rfl, h.out .net rfl, h.out .dsp rfl, h.out .red rfl, h.out .saf rfl, h.out .fio rfl, h.out .cap rfl, h.out .host rfl,
    h.out .params rfl, h.out .cfg rfl, h.out .pwr rfl, h.out .lgr rfl, h.out .pending rfl⟩


@[simp] theorem State.cycles_keeps (s : State) (n : Nat) : (State.cycles s n).frm = s.frm ∧ (State.cycles s n).axes =
    s.axes ∧ (State.cycles s n).lines = s.lines ∧ (State.cycles s n).cams = s.cams ∧ (State.cycles s n).camStg = s.camStg ∧
    (State.cycles s n).zones = s.zones ∧ (State.cycles s n).steps = s.steps ∧ (State.cycles s n).encs = s.encs ∧
    (State.cycles s n).net = s.net ∧ (State.cycles s n).dsp = s.dsp ∧ (State.cycles s n).red = s.red ∧ (State.cycles s
    n).saf = s.saf ∧ (State.cycles s n).fio = s.fio ∧ (State.cycles s n).cap = s.cap ∧ (State.cycles s n).host = s.host ∧
    (State.cycles s n).evt = s.evt ∧ (State.cycles s n).params = s.params ∧ (State.cycles s n).cfg = s.cfg ∧ (State.cycles
    s n).pwr = s.pwr ∧ (State.cycles s n).lgr = s.lgr ∧ (State.cycles s n).pending = s.pending :=
  let h := State.cycles_only s n
  ⟨h.out .frm rfl, h.out .axes rfl, h.out .lines rfl, h.out .cams rfl, h.out .camStg rfl, h.out .zones rfl, h.out .steps
    rfl, h.out .encs rfl, h.out .net rfl, h.out .dsp rfl, h.out .red rfl, h.out .saf rfl, h.out .fio rfl, h.out .cap rfl,
    h.out .host rfl, h.out .evt rfl, h.out .params rfl, h.out .cfg rfl, h.out .pwr rfl, h.out .lgr rfl, h.out .pending rfl⟩


@[simp] theorem State.coreTime_keeps (s : State) (dt : Nat) : (State.coreTime s dt).frm = s.frm ∧ (State.coreTime s
    dt).axes = s.axes ∧ (State.coreTime s dt).lines = s.lines ∧ (State.coreTime s dt).cams = s.cams ∧ (State.coreTime s
    dt).camStg = s.camStg ∧ (State.coreTime s dt).zones = s.zones ∧ (State.coreTime s dt).steps = s.steps ∧ (State.coreTime
    s dt).encs = s.encs ∧ (State.coreTime s dt).net = s.net ∧ (State.coreTime s dt).dsp = s.dsp ∧ (State.coreTime s dt).red
    = s.red ∧ (State.coreTime s dt).saf = s.saf ∧ (State.coreTime s dt).fio = s.fio ∧ (State.coreTime s dt).cap = s.cap ∧
    (State.coreTime s dt).host = s.host ∧ (State.coreTime s dt).evt = s.evt ∧ (State.coreTime s dt).params = s.params ∧
    (State.coreTime s dt).cfg = s.cfg ∧ (State.coreTime s dt).lgr = s.lgr ∧ (State.coreTime s dt).pending = s.pending :=
  let h := State.coreTime_only s dt
  ⟨h.out .frm rfl, h.out .axes rfl, h.out .lines rfl, h.out .cams rfl, h.out .camStg rfl, h.out .zones rfl, h.out .steps
    rfl, h.out .encs rfl, h.out .net rfl, h.out .dsp rfl, h.out .red rfl, h.out .saf rfl, h.out .fio rfl, h.out .cap rfl,
    h.out .host rfl, h.out .evt rfl, h.out .params rfl, h.out .cfg rfl, h.out .lgr rfl, h.out .pending rfl⟩


@[simp] theorem State.advance_keeps (s : State) (t : Nat) : (State.advance s t).axes = s.axes ∧ (State.advance s t).lines =
    s.lines ∧ (State.advance s t).cams = s.cams ∧ (State.advance s t).camStg = s.camStg ∧ (State.advance s t).zones =
    s.zones ∧ (State.advance s t).steps = s.steps ∧ (State.advance s t).encs = s.encs ∧ (State.advance s t).net = s.net ∧
    (State.advance s t).dsp = s.dsp ∧ (State.advance s t).red = s.red ∧ (State.advance s t).saf = s.saf ∧ (State.advance s
    t).fio = s.fio ∧ (State.advance s t).cap = s.cap ∧ (State.advance s t).host = s.host ∧ (State.advance s t).evt = s.evt
    ∧ (State.advance s t).params = s.params ∧ (State.advance s t).cfg = s.cfg ∧ (State.advance s t).lgr = s.lgr ∧
    (State.advance s t).pending = s.pending :=
  let h := State.advance_only s t
  ⟨h.out .axes rfl, h.out .lines rfl, h.out .cams rfl, h.out .camStg rfl, h.out .zones rfl, h.out .steps rfl, h.out .encs
    rfl, h.out .net rfl, h.out .dsp rfl, h.out .red rfl, h.out .saf rfl, h.out .fio rfl, h.out .cap rfl, h.out .host rfl,
    h.out .evt rfl, h.out .params rfl, h.out .cfg rfl, h.out .lgr rfl, h.out .pending rfl⟩


@[simp] theorem State.capTrigger_keeps (s : State) (src t : Nat) : (State.capTrigger s src t).frm = s.frm ∧
    (State.capTrigger s src t).axes = s.axes ∧ (State.capTrigger s src t).lines = s.lines ∧ (State.capTrigger s src t).cams
    = s.cams ∧ (State.capTrigger s src t).camStg = s.camStg ∧ (State.capTrigger s src t).zones = s.zones ∧
    (State.capTrigger s src t).steps = s.steps ∧ (State.capTrigger s src t).encs = s.encs ∧ (State.capTrigger s src t).net
    = s.net ∧ (State.capTrigger s src t).dsp = s.dsp ∧ (State.capTrigger s src t).red = s.red ∧ (State.capTrigger s src
    t).saf = s.saf ∧ (State.capTrigger s src t).fio = s.fio ∧ (State.capTrigger s src t).prf = s.prf ∧ (State.capTrigger s
    src t).host = s.host ∧ (State.capTrigger s src t).evt = s.evt ∧ (State.capTrigger s src t).params = s.params ∧
    (State.capTrigger s src t).cfg = s.cfg ∧ (State.capTrigger s src t).pwr = s.pwr ∧ (State.capTrigger s src t).lgr =
    s.lgr ∧ (State.capTrigger s src t).pending = s.pending :=
  let h := State.capTrigger_only s src t
  ⟨h.out .frm rfl, h.out .axes rfl, h.out .lines rfl, h.out .cams rfl, h.out .camStg rfl, h.out .zones rfl, h.out .steps
    rfl, h.out .encs rfl, h.out .net rfl, h.out .dsp rfl, h.out .red rfl, h.out .saf rfl, h.out .fio rfl, h.out .prf rfl,
    h.out .host rfl, h.out .evt rfl, h.out .params rfl, h.out .cfg rfl, h.out .pwr rfl, h.out .lgr rfl, h.out .pending rfl⟩


@[simp] theorem State.logAt_keeps (s : State) (time : Nat) (frame : W48) (kind led code cause : Nat) (data : List Byte) :
    (State.logAt s time frame kind led code cause data).frm = s.frm ∧ (State.logAt s time frame kind led code cause
    data).axes = s.axes ∧ (State.logAt s time frame kind led code cause data).lines = s.lines ∧ (State.logAt s time frame
    kind led code cause data).cams = s.cams ∧ (State.logAt s time frame kind led code cause data).camStg = s.camStg ∧
    (State.logAt s time frame kind led code cause data).zones = s.zones ∧ (State.logAt s time frame kind led code cause
    data).steps = s.steps ∧ (State.logAt s time frame kind led code cause data).encs = s.encs ∧ (State.logAt s time frame
    kind led code cause data).net = s.net ∧ (State.logAt s time frame kind led code cause data).dsp = s.dsp ∧ (State.logAt
    s time frame kind led code cause data).red = s.red ∧ (State.logAt s time frame kind led code cause data).saf = s.saf ∧
    (State.logAt s time frame kind led code cause data).fio = s.fio ∧ (State.logAt s time frame kind led code cause
    data).cap = s.cap ∧ (State.logAt s time frame kind led code cause data).prf = s.prf ∧ (State.logAt s time frame kind
    led code cause data).host = s.host ∧ (State.logAt s time frame kind led code cause data).evt = s.evt ∧ (State.logAt s
    time frame kind led code cause data).params = s.params ∧ (State.logAt s time frame kind led code cause data).cfg =
    s.cfg ∧ (State.logAt s time frame kind led code cause data).pwr = s.pwr ∧ (State.logAt s time frame kind led code cause
    data).pending = s.pending :=
  let h := State.logAt_only s time frame kind led code cause data
  ⟨h.out .frm rfl, h.out .axes rfl, h.out .lines rfl, h.out .cams rfl, h.out .camStg rfl, h.out .zones rfl, h.out .steps
    rfl, h.out .encs rfl, h.out .net rfl, h.out .dsp rfl, h.out .red rfl, h.out .saf rfl, h.out .fio rfl, h.out .cap rfl,
    h.out .prf rfl, h.out .host rfl, h.out .evt rfl, h.out .params rfl, h.out .cfg rfl, h.out .pwr rfl, h.out .pending rfl⟩


@[simp] theorem State.log_keeps (s : State) (kind led code cause : Nat) (data : List Byte) : (State.log s kind led code
    cause data).frm = s.frm ∧ (State.log s kind led code cause data).axes = s.axes ∧ (State.log s kind led code cause
    data).lines = s.lines ∧ (State.log s kind led code cause data).cams = s.cams ∧ (State.log s kind led code cause
    data).camStg = s.camStg ∧ (State.log s kind led code cause data).zones = s.zones ∧ (State.log s kind led code cause
    data).steps = s.steps ∧ (State.log s kind led code cause data).encs = s.encs ∧ (State.log s kind led code cause
    data).net = s.net ∧ (State.log s kind led code cause data).dsp = s.dsp ∧ (State.log s kind led code cause data).red =
    s.red ∧ (State.log s kind led code cause data).saf = s.saf ∧ (State.log s kind led code cause data).fio = s.fio ∧
    (State.log s kind led code cause data).cap = s.cap ∧ (State.log s kind led code cause data).prf = s.prf ∧ (State.log s
    kind led code cause data).host = s.host ∧ (State.log s kind led code cause data).evt = s.evt ∧ (State.log s kind led
    code cause data).params = s.params ∧ (State.log s kind led code cause data).cfg = s.cfg ∧ (State.log s kind led code
    cause data).pwr = s.pwr ∧ (State.log s kind led code cause data).pending = s.pending :=
  let h := State.log_only s kind led code cause data
  ⟨h.out .frm rfl, h.out .axes rfl, h.out .lines rfl, h.out .cams rfl, h.out .camStg rfl, h.out .zones rfl, h.out .steps
    rfl, h.out .encs rfl, h.out .net rfl, h.out .dsp rfl, h.out .red rfl, h.out .saf rfl, h.out .fio rfl, h.out .cap rfl,
    h.out .prf rfl, h.out .host rfl, h.out .evt rfl, h.out .params rfl, h.out .cfg rfl, h.out .pwr rfl, h.out .pending rfl⟩


@[simp] theorem State.raiseCore_keeps (s : State) (code obj groups : Nat) (data : List Byte) : (State.raiseCore s code obj
    groups data).frm = s.frm ∧ (State.raiseCore s code obj groups data).axes = s.axes ∧ (State.raiseCore s code obj groups
    data).lines = s.lines ∧ (State.raiseCore s code obj groups data).cams = s.cams ∧ (State.raiseCore s code obj groups
    data).camStg = s.camStg ∧ (State.raiseCore s code obj groups data).zones = s.zones ∧ (State.raiseCore s code obj groups
    data).steps = s.steps ∧ (State.raiseCore s code obj groups data).encs = s.encs ∧ (State.raiseCore s code obj groups
    data).net = s.net ∧ (State.raiseCore s code obj groups data).dsp = s.dsp ∧ (State.raiseCore s code obj groups data).red
    = s.red ∧ (State.raiseCore s code obj groups data).saf = s.saf ∧ (State.raiseCore s code obj groups data).fio = s.fio ∧
    (State.raiseCore s code obj groups data).host = s.host ∧ (State.raiseCore s code obj groups data).params = s.params ∧
    (State.raiseCore s code obj groups data).cfg = s.cfg ∧ (State.raiseCore s code obj groups data).pwr = s.pwr ∧
    (State.raiseCore s code obj groups data).pending = s.pending :=
  let h := State.raiseCore_only s code obj groups data
  ⟨h.out .frm rfl, h.out .axes rfl, h.out .lines rfl, h.out .cams rfl, h.out .camStg rfl, h.out .zones rfl, h.out .steps
    rfl, h.out .encs rfl, h.out .net rfl, h.out .dsp rfl, h.out .red rfl, h.out .saf rfl, h.out .fio rfl, h.out .host rfl,
    h.out .params rfl, h.out .cfg rfl, h.out .pwr rfl, h.out .pending rfl⟩


@[simp] theorem State.markEv_keeps (s : State) (code obj : Nat) : (State.markEv s code obj).frm = s.frm ∧ (State.markEv s
    code obj).axes = s.axes ∧ (State.markEv s code obj).lines = s.lines ∧ (State.markEv s code obj).cams = s.cams ∧
    (State.markEv s code obj).camStg = s.camStg ∧ (State.markEv s code obj).zones = s.zones ∧ (State.markEv s code
    obj).steps = s.steps ∧ (State.markEv s code obj).encs = s.encs ∧ (State.markEv s code obj).net = s.net ∧ (State.markEv
    s code obj).dsp = s.dsp ∧ (State.markEv s code obj).red = s.red ∧ (State.markEv s code obj).saf = s.saf ∧ (State.markEv
    s code obj).fio = s.fio ∧ (State.markEv s code obj).cap = s.cap ∧ (State.markEv s code obj).prf = s.prf ∧ (State.markEv
    s code obj).host = s.host ∧ (State.markEv s code obj).params = s.params ∧ (State.markEv s code obj).cfg = s.cfg ∧
    (State.markEv s code obj).pwr = s.pwr ∧ (State.markEv s code obj).lgr = s.lgr ∧ (State.markEv s code obj).pending =
    s.pending :=
  let h := State.markEv_only s code obj
  ⟨h.out .frm rfl, h.out .axes rfl, h.out .lines rfl, h.out .cams rfl, h.out .camStg rfl, h.out .zones rfl, h.out .steps
    rfl, h.out .encs rfl, h.out .net rfl, h.out .dsp rfl, h.out .red rfl, h.out .saf rfl, h.out .fio rfl, h.out .cap rfl,
    h.out .prf rfl, h.out .host rfl, h.out .params rfl, h.out .cfg rfl, h.out .pwr rfl, h.out .lgr rfl, h.out .pending rfl⟩


@[simp] theorem State.raise_keeps (s : State) (code obj groups : Nat) (data : List Byte) : (State.raise s code obj groups
    data).frm = s.frm ∧ (State.raise s code obj groups data).axes = s.axes ∧ (State.raise s code obj groups data).lines =
    s.lines ∧ (State.raise s code obj groups data).cams = s.cams ∧ (State.raise s code obj groups data).camStg = s.camStg ∧
    (State.raise s code obj groups data).zones = s.zones ∧ (State.raise s code obj groups data).steps = s.steps ∧
    (State.raise s code obj groups data).encs = s.encs ∧ (State.raise s code obj groups data).net = s.net ∧ (State.raise s
    code obj groups data).dsp = s.dsp ∧ (State.raise s code obj groups data).red = s.red ∧ (State.raise s code obj groups
    data).saf = s.saf ∧ (State.raise s code obj groups data).fio = s.fio ∧ (State.raise s code obj groups data).host =
    s.host ∧ (State.raise s code obj groups data).params = s.params ∧ (State.raise s code obj groups data).cfg = s.cfg ∧
    (State.raise s code obj groups data).pwr = s.pwr ∧ (State.raise s code obj groups data).pending = s.pending :=
  let h := State.raise_only s code obj groups data
  ⟨h.out .frm rfl, h.out .axes rfl, h.out .lines rfl, h.out .cams rfl, h.out .camStg rfl, h.out .zones rfl, h.out .steps
    rfl, h.out .encs rfl, h.out .net rfl, h.out .dsp rfl, h.out .red rfl, h.out .saf rfl, h.out .fio rfl, h.out .host rfl,
    h.out .params rfl, h.out .cfg rfl, h.out .pwr rfl, h.out .pending rfl⟩


@[simp] theorem State.raiseOnce_keeps (s : State) (code obj groups : Nat) (data : List Byte) : (State.raiseOnce s code obj
    groups data).frm = s.frm ∧ (State.raiseOnce s code obj groups data).axes = s.axes ∧ (State.raiseOnce s code obj groups
    data).lines = s.lines ∧ (State.raiseOnce s code obj groups data).cams = s.cams ∧ (State.raiseOnce s code obj groups
    data).camStg = s.camStg ∧ (State.raiseOnce s code obj groups data).zones = s.zones ∧ (State.raiseOnce s code obj groups
    data).steps = s.steps ∧ (State.raiseOnce s code obj groups data).encs = s.encs ∧ (State.raiseOnce s code obj groups
    data).net = s.net ∧ (State.raiseOnce s code obj groups data).dsp = s.dsp ∧ (State.raiseOnce s code obj groups data).red
    = s.red ∧ (State.raiseOnce s code obj groups data).saf = s.saf ∧ (State.raiseOnce s code obj groups data).fio = s.fio ∧
    (State.raiseOnce s code obj groups data).host = s.host ∧ (State.raiseOnce s code obj groups data).params = s.params ∧
    (State.raiseOnce s code obj groups data).cfg = s.cfg ∧ (State.raiseOnce s code obj groups data).pwr = s.pwr ∧
    (State.raiseOnce s code obj groups data).pending = s.pending :=
  let h := State.raiseOnce_only s code obj groups data
  ⟨h.out .frm rfl, h.out .axes rfl, h.out .lines rfl, h.out .cams rfl, h.out .camStg rfl, h.out .zones rfl, h.out .steps
    rfl, h.out .encs rfl, h.out .net rfl, h.out .dsp rfl, h.out .red rfl, h.out .saf rfl, h.out .fio rfl, h.out .host rfl,
    h.out .params rfl, h.out .cfg rfl, h.out .pwr rfl, h.out .pending rfl⟩


@[simp] theorem State.raiseDev_keeps (s : State) (code : Nat) (data : List Byte) : (State.raiseDev s code data).frm = s.frm
    ∧ (State.raiseDev s code data).axes = s.axes ∧ (State.raiseDev s code data).lines = s.lines ∧ (State.raiseDev s code
    data).cams = s.cams ∧ (State.raiseDev s code data).camStg = s.camStg ∧ (State.raiseDev s code data).zones = s.zones ∧
    (State.raiseDev s code data).steps = s.steps ∧ (State.raiseDev s code data).encs = s.encs ∧ (State.raiseDev s code
    data).net = s.net ∧ (State.raiseDev s code data).dsp = s.dsp ∧ (State.raiseDev s code data).red = s.red ∧
    (State.raiseDev s code data).saf = s.saf ∧ (State.raiseDev s code data).fio = s.fio ∧ (State.raiseDev s code data).host
    = s.host ∧ (State.raiseDev s code data).params = s.params ∧ (State.raiseDev s code data).cfg = s.cfg ∧ (State.raiseDev
    s code data).pwr = s.pwr ∧ (State.raiseDev s code data).pending = s.pending :=
  let h := State.raiseDev_only s code data
  ⟨h.out .frm rfl, h.out .axes rfl, h.out .lines rfl, h.out .cams rfl, h.out .camStg rfl, h.out .zones rfl, h.out .steps
    rfl, h.out .encs rfl, h.out .net rfl, h.out .dsp rfl, h.out .red rfl, h.out .saf rfl, h.out .fio rfl, h.out .host rfl,
    h.out .params rfl, h.out .cfg rfl, h.out .pwr rfl, h.out .pending rfl⟩


@[simp] theorem State.raiseDevOnce_keeps (s : State) (code : Nat) (data : List Byte) : (State.raiseDevOnce s code data).frm
    = s.frm ∧ (State.raiseDevOnce s code data).axes = s.axes ∧ (State.raiseDevOnce s code data).lines = s.lines ∧
    (State.raiseDevOnce s code data).cams = s.cams ∧ (State.raiseDevOnce s code data).camStg = s.camStg ∧
    (State.raiseDevOnce s code data).zones = s.zones ∧ (State.raiseDevOnce s code data).steps = s.steps ∧
    (State.raiseDevOnce s code data).encs = s.encs ∧ (State.raiseDevOnce s code data).net = s.net ∧ (State.raiseDevOnce s
    code data).dsp = s.dsp ∧ (State.raiseDevOnce s code data).red = s.red ∧ (State.raiseDevOnce s code data).saf = s.saf ∧
    (State.raiseDevOnce s code data).fio = s.fio ∧ (State.raiseDevOnce s code data).host = s.host ∧ (State.raiseDevOnce s
    code data).params = s.params ∧ (State.raiseDevOnce s code data).cfg = s.cfg ∧ (State.raiseDevOnce s code data).pwr =
    s.pwr ∧ (State.raiseDevOnce s code data).pending = s.pending :=
  let h := State.raiseDevOnce_only s code data
  ⟨h.out .frm rfl, h.out .axes rfl, h.out .lines rfl, h.out .cams rfl, h.out .camStg rfl, h.out .zones rfl, h.out .steps
    rfl, h.out .encs rfl, h.out .net rfl, h.out .dsp rfl, h.out .red rfl, h.out .saf rfl, h.out .fio rfl, h.out .host rfl,
    h.out .params rfl, h.out .cfg rfl, h.out .pwr rfl, h.out .pending rfl⟩


@[simp] theorem State.raiseAx_keeps (s : State) (code i : Nat) (data : List Byte) : (State.raiseAx s code i data).frm =
    s.frm ∧ (State.raiseAx s code i data).axes = s.axes ∧ (State.raiseAx s code i data).lines = s.lines ∧ (State.raiseAx s
    code i data).cams = s.cams ∧ (State.raiseAx s code i data).camStg = s.camStg ∧ (State.raiseAx s code i data).zones =
    s.zones ∧ (State.raiseAx s code i data).steps = s.steps ∧ (State.raiseAx s code i data).encs = s.encs ∧ (State.raiseAx
    s code i data).net = s.net ∧ (State.raiseAx s code i data).dsp = s.dsp ∧ (State.raiseAx s code i data).red = s.red ∧
    (State.raiseAx s code i data).saf = s.saf ∧ (State.raiseAx s code i data).fio = s.fio ∧ (State.raiseAx s code i
    data).host = s.host ∧ (State.raiseAx s code i data).params = s.params ∧ (State.raiseAx s code i data).cfg = s.cfg ∧
    (State.raiseAx s code i data).pwr = s.pwr ∧ (State.raiseAx s code i data).pending = s.pending :=
  let h := State.raiseAx_only s code i data
  ⟨h.out .frm rfl, h.out .axes rfl, h.out .lines rfl, h.out .cams rfl, h.out .camStg rfl, h.out .zones rfl, h.out .steps
    rfl, h.out .encs rfl, h.out .net rfl, h.out .dsp rfl, h.out .red rfl, h.out .saf rfl, h.out .fio rfl, h.out .host rfl,
    h.out .params rfl, h.out .cfg rfl, h.out .pwr rfl, h.out .pending rfl⟩


@[simp] theorem State.raiseNode_keeps (s : State) (code b p : Nat) (data : List Byte) : (State.raiseNode s code b p
    data).frm = s.frm ∧ (State.raiseNode s code b p data).axes = s.axes ∧ (State.raiseNode s code b p data).lines = s.lines
    ∧ (State.raiseNode s code b p data).cams = s.cams ∧ (State.raiseNode s code b p data).camStg = s.camStg ∧
    (State.raiseNode s code b p data).zones = s.zones ∧ (State.raiseNode s code b p data).steps = s.steps ∧
    (State.raiseNode s code b p data).encs = s.encs ∧ (State.raiseNode s code b p data).net = s.net ∧ (State.raiseNode s
    code b p data).dsp = s.dsp ∧ (State.raiseNode s code b p data).red = s.red ∧ (State.raiseNode s code b p data).saf =
    s.saf ∧ (State.raiseNode s code b p data).fio = s.fio ∧ (State.raiseNode s code b p data).host = s.host ∧
    (State.raiseNode s code b p data).params = s.params ∧ (State.raiseNode s code b p data).cfg = s.cfg ∧ (State.raiseNode
    s code b p data).pwr = s.pwr ∧ (State.raiseNode s code b p data).pending = s.pending :=
  let h := State.raiseNode_only s code b p data
  ⟨h.out .frm rfl, h.out .axes rfl, h.out .lines rfl, h.out .cams rfl, h.out .camStg rfl, h.out .zones rfl, h.out .steps
    rfl, h.out .encs rfl, h.out .net rfl, h.out .dsp rfl, h.out .red rfl, h.out .saf rfl, h.out .fio rfl, h.out .host rfl,
    h.out .params rfl, h.out .cfg rfl, h.out .pwr rfl, h.out .pending rfl⟩


@[simp] theorem State.goto_keeps (s : State) (t : Nat) : (State.goto s t).axes = s.axes ∧ (State.goto s t).lines = s.lines
    ∧ (State.goto s t).cams = s.cams ∧ (State.goto s t).camStg = s.camStg ∧ (State.goto s t).zones = s.zones ∧ (State.goto
    s t).steps = s.steps ∧ (State.goto s t).encs = s.encs ∧ (State.goto s t).net = s.net ∧ (State.goto s t).dsp = s.dsp ∧
    (State.goto s t).red = s.red ∧ (State.goto s t).saf = s.saf ∧ (State.goto s t).fio = s.fio ∧ (State.goto s t).host =
    s.host ∧ (State.goto s t).params = s.params ∧ (State.goto s t).cfg = s.cfg ∧ (State.goto s t).pending = s.pending :=
  let h := State.goto_only s t
  ⟨h.out .axes rfl, h.out .lines rfl, h.out .cams rfl, h.out .camStg rfl, h.out .zones rfl, h.out .steps rfl, h.out .encs
    rfl, h.out .net rfl, h.out .dsp rfl, h.out .red rfl, h.out .saf rfl, h.out .fio rfl, h.out .host rfl, h.out .params
    rfl, h.out .cfg rfl, h.out .pending rfl⟩


@[simp] theorem State.bwBytes_keeps (s : State) (m n : Nat) : (State.bwBytes s m n).frm = s.frm ∧ (State.bwBytes s m
    n).axes = s.axes ∧ (State.bwBytes s m n).lines = s.lines ∧ (State.bwBytes s m n).cams = s.cams ∧ (State.bwBytes s m
    n).camStg = s.camStg ∧ (State.bwBytes s m n).zones = s.zones ∧ (State.bwBytes s m n).steps = s.steps ∧ (State.bwBytes s
    m n).encs = s.encs ∧ (State.bwBytes s m n).net = s.net ∧ (State.bwBytes s m n).dsp = s.dsp ∧ (State.bwBytes s m n).red
    = s.red ∧ (State.bwBytes s m n).saf = s.saf ∧ (State.bwBytes s m n).fio = s.fio ∧ (State.bwBytes s m n).cap = s.cap ∧
    (State.bwBytes s m n).host = s.host ∧ (State.bwBytes s m n).evt = s.evt ∧ (State.bwBytes s m n).params = s.params ∧
    (State.bwBytes s m n).cfg = s.cfg ∧ (State.bwBytes s m n).pwr = s.pwr ∧ (State.bwBytes s m n).lgr = s.lgr ∧
    (State.bwBytes s m n).pending = s.pending :=
  let h := State.bwBytes_only s m n
  ⟨h.out .frm rfl, h.out .axes rfl, h.out .lines rfl, h.out .cams rfl, h.out .camStg rfl, h.out .zones rfl, h.out .steps
    rfl, h.out .encs rfl, h.out .net rfl, h.out .dsp rfl, h.out .red rfl, h.out .saf rfl, h.out .fio rfl, h.out .cap rfl,
    h.out .host rfl, h.out .evt rfl, h.out .params rfl, h.out .cfg rfl, h.out .pwr rfl, h.out .lgr rfl, h.out .pending rfl⟩


@[simp] theorem State.bwFrame_keeps (s : State) (b dir n : Nat) : (State.bwFrame s b dir n).frm = s.frm ∧ (State.bwFrame s
    b dir n).axes = s.axes ∧ (State.bwFrame s b dir n).lines = s.lines ∧ (State.bwFrame s b dir n).cams = s.cams ∧
    (State.bwFrame s b dir n).camStg = s.camStg ∧ (State.bwFrame s b dir n).zones = s.zones ∧ (State.bwFrame s b dir
    n).steps = s.steps ∧ (State.bwFrame s b dir n).encs = s.encs ∧ (State.bwFrame s b dir n).net = s.net ∧ (State.bwFrame s
    b dir n).dsp = s.dsp ∧ (State.bwFrame s b dir n).red = s.red ∧ (State.bwFrame s b dir n).saf = s.saf ∧ (State.bwFrame s
    b dir n).fio = s.fio ∧ (State.bwFrame s b dir n).cap = s.cap ∧ (State.bwFrame s b dir n).host = s.host ∧ (State.bwFrame
    s b dir n).evt = s.evt ∧ (State.bwFrame s b dir n).params = s.params ∧ (State.bwFrame s b dir n).cfg = s.cfg ∧
    (State.bwFrame s b dir n).pwr = s.pwr ∧ (State.bwFrame s b dir n).lgr = s.lgr ∧ (State.bwFrame s b dir n).pending =
    s.pending :=
  let h := State.bwFrame_only s b dir n
  ⟨h.out .frm rfl, h.out .axes rfl, h.out .lines rfl, h.out .cams rfl, h.out .camStg rfl, h.out .zones rfl, h.out .steps
    rfl, h.out .encs rfl, h.out .net rfl, h.out .dsp rfl, h.out .red rfl, h.out .saf rfl, h.out .fio rfl, h.out .cap rfl,
    h.out .host rfl, h.out .evt rfl, h.out .params rfl, h.out .cfg rfl, h.out .pwr rfl, h.out .lgr rfl, h.out .pending rfl⟩


@[simp] theorem State.trcLose_keeps (s : State) : (State.trcLose s).frm = s.frm ∧ (State.trcLose s).axes = s.axes ∧
    (State.trcLose s).lines = s.lines ∧ (State.trcLose s).cams = s.cams ∧ (State.trcLose s).camStg = s.camStg ∧
    (State.trcLose s).zones = s.zones ∧ (State.trcLose s).steps = s.steps ∧ (State.trcLose s).encs = s.encs ∧
    (State.trcLose s).net = s.net ∧ (State.trcLose s).red = s.red ∧ (State.trcLose s).saf = s.saf ∧ (State.trcLose s).fio =
    s.fio ∧ (State.trcLose s).cap = s.cap ∧ (State.trcLose s).host = s.host ∧ (State.trcLose s).evt = s.evt ∧
    (State.trcLose s).params = s.params ∧ (State.trcLose s).cfg = s.cfg ∧ (State.trcLose s).pwr = s.pwr ∧ (State.trcLose
    s).lgr = s.lgr ∧ (State.trcLose s).pending = s.pending :=
  let h := State.trcLose_only s
  ⟨h.out .frm rfl, h.out .axes rfl, h.out .lines rfl, h.out .cams rfl, h.out .camStg rfl, h.out .zones rfl, h.out .steps
    rfl, h.out .encs rfl, h.out .net rfl, h.out .red rfl, h.out .saf rfl, h.out .fio rfl, h.out .cap rfl, h.out .host rfl,
    h.out .evt rfl, h.out .params rfl, h.out .cfg rfl, h.out .pwr rfl, h.out .lgr rfl, h.out .pending rfl⟩


@[simp] theorem State.trace_keeps (s : State) (kind d server : Nat) : (State.trace s kind d server).frm = s.frm ∧
    (State.trace s kind d server).axes = s.axes ∧ (State.trace s kind d server).lines = s.lines ∧ (State.trace s kind d
    server).cams = s.cams ∧ (State.trace s kind d server).camStg = s.camStg ∧ (State.trace s kind d server).zones = s.zones
    ∧ (State.trace s kind d server).steps = s.steps ∧ (State.trace s kind d server).encs = s.encs ∧ (State.trace s kind d
    server).net = s.net ∧ (State.trace s kind d server).red = s.red ∧ (State.trace s kind d server).saf = s.saf ∧
    (State.trace s kind d server).fio = s.fio ∧ (State.trace s kind d server).cap = s.cap ∧ (State.trace s kind d
    server).host = s.host ∧ (State.trace s kind d server).evt = s.evt ∧ (State.trace s kind d server).params = s.params ∧
    (State.trace s kind d server).cfg = s.cfg ∧ (State.trace s kind d server).pwr = s.pwr ∧ (State.trace s kind d
    server).lgr = s.lgr ∧ (State.trace s kind d server).pending = s.pending :=
  let h := State.trace_only s kind d server
  ⟨h.out .frm rfl, h.out .axes rfl, h.out .lines rfl, h.out .cams rfl, h.out .camStg rfl, h.out .zones rfl, h.out .steps
    rfl, h.out .encs rfl, h.out .net rfl, h.out .red rfl, h.out .saf rfl, h.out .fio rfl, h.out .cap rfl, h.out .host rfl,
    h.out .evt rfl, h.out .params rfl, h.out .cfg rfl, h.out .pwr rfl, h.out .lgr rfl, h.out .pending rfl⟩


@[simp] theorem State.enterReady_keeps (s : State) (n : Nat) (exp : Bool) (d : Nat) : (State.enterReady s n exp d).frm =
    s.frm ∧ (State.enterReady s n exp d).axes = s.axes ∧ (State.enterReady s n exp d).lines = s.lines ∧ (State.enterReady s
    n exp d).cams = s.cams ∧ (State.enterReady s n exp d).camStg = s.camStg ∧ (State.enterReady s n exp d).zones = s.zones
    ∧ (State.enterReady s n exp d).steps = s.steps ∧ (State.enterReady s n exp d).encs = s.encs ∧ (State.enterReady s n exp
    d).net = s.net ∧ (State.enterReady s n exp d).red = s.red ∧ (State.enterReady s n exp d).saf = s.saf ∧
    (State.enterReady s n exp d).fio = s.fio ∧ (State.enterReady s n exp d).cap = s.cap ∧ (State.enterReady s n exp d).prf
    = s.prf ∧ (State.enterReady s n exp d).host = s.host ∧ (State.enterReady s n exp d).evt = s.evt ∧ (State.enterReady s n
    exp d).params = s.params ∧ (State.enterReady s n exp d).cfg = s.cfg ∧ (State.enterReady s n exp d).pwr = s.pwr ∧
    (State.enterReady s n exp d).lgr = s.lgr ∧ (State.enterReady s n exp d).pending = s.pending :=
  let h := State.enterReady_only s n exp d
  ⟨h.out .frm rfl, h.out .axes rfl, h.out .lines rfl, h.out .cams rfl, h.out .camStg rfl, h.out .zones rfl, h.out .steps
    rfl, h.out .encs rfl, h.out .net rfl, h.out .red rfl, h.out .saf rfl, h.out .fio rfl, h.out .cap rfl, h.out .prf rfl,
    h.out .host rfl, h.out .evt rfl, h.out .params rfl, h.out .cfg rfl, h.out .pwr rfl, h.out .lgr rfl, h.out .pending rfl⟩


@[simp] theorem State.startThread_keeps (s : State) (n fp : Nat) : (State.startThread s n fp).frm = s.frm ∧
    (State.startThread s n fp).axes = s.axes ∧ (State.startThread s n fp).lines = s.lines ∧ (State.startThread s n fp).cams
    = s.cams ∧ (State.startThread s n fp).camStg = s.camStg ∧ (State.startThread s n fp).zones = s.zones ∧
    (State.startThread s n fp).steps = s.steps ∧ (State.startThread s n fp).encs = s.encs ∧ (State.startThread s n fp).net
    = s.net ∧ (State.startThread s n fp).red = s.red ∧ (State.startThread s n fp).saf = s.saf ∧ (State.startThread s n
    fp).fio = s.fio ∧ (State.startThread s n fp).cap = s.cap ∧ (State.startThread s n fp).host = s.host ∧
    (State.startThread s n fp).evt = s.evt ∧ (State.startThread s n fp).params = s.params ∧ (State.startThread s n fp).cfg
    = s.cfg ∧ (State.startThread s n fp).pwr = s.pwr ∧ (State.startThread s n fp).lgr = s.lgr ∧ (State.startThread s n
    fp).pending = s.pending :=
  let h := State.startThread_only s n fp
  ⟨h.out .frm rfl, h.out .axes rfl, h.out .lines rfl, h.out .cams rfl, h.out .camStg rfl, h.out .zones rfl, h.out .steps
    rfl, h.out .encs rfl, h.out .net rfl, h.out .red rfl, h.out .saf rfl, h.out .fio rfl, h.out .cap rfl, h.out .host rfl,
    h.out .evt rfl, h.out .params rfl, h.out .cfg rfl, h.out .pwr rfl, h.out .lgr rfl, h.out .pending rfl⟩


@[simp] theorem State.kick_keeps (s : State) (n d : Nat) : (State.kick s n d).frm = s.frm ∧ (State.kick s n d).axes =
    s.axes ∧ (State.kick s n d).lines = s.lines ∧ (State.kick s n d).cams = s.cams ∧ (State.kick s n d).camStg = s.camStg ∧
    (State.kick s n d).zones = s.zones ∧ (State.kick s n d).steps = s.steps ∧ (State.kick s n d).encs = s.encs ∧
    (State.kick s n d).net = s.net ∧ (State.kick s n d).red = s.red ∧ (State.kick s n d).saf = s.saf ∧ (State.kick s n
    d).fio = s.fio ∧ (State.kick s n d).cap = s.cap ∧ (State.kick s n d).host = s.host ∧ (State.kick s n d).evt = s.evt ∧
    (State.kick s n d).params = s.params ∧ (State.kick s n d).cfg = s.cfg ∧ (State.kick s n d).pwr = s.pwr ∧ (State.kick s
    n d).lgr = s.lgr ∧ (State.kick s n d).pending = s.pending :=
  let h := State.kick_only s n d
  ⟨h.out .frm rfl, h.out .axes rfl, h.out .lines rfl, h.out .cams rfl, h.out .camStg rfl, h.out .zones rfl, h.out .steps
    rfl, h.out .encs rfl, h.out .net rfl, h.out .red rfl, h.out .saf rfl, h.out .fio rfl, h.out .cap rfl, h.out .host rfl,
    h.out .evt rfl, h.out .params rfl, h.out .cfg rfl, h.out .pwr rfl, h.out .lgr rfl, h.out .pending rfl⟩


@[simp] theorem State.startInstance_keeps (s : State) (d : Nat) : (State.startInstance s d).frm = s.frm ∧
    (State.startInstance s d).axes = s.axes ∧ (State.startInstance s d).lines = s.lines ∧ (State.startInstance s d).cams =
    s.cams ∧ (State.startInstance s d).camStg = s.camStg ∧ (State.startInstance s d).zones = s.zones ∧ (State.startInstance
    s d).steps = s.steps ∧ (State.startInstance s d).encs = s.encs ∧ (State.startInstance s d).net = s.net ∧
    (State.startInstance s d).red = s.red ∧ (State.startInstance s d).saf = s.saf ∧ (State.startInstance s d).fio = s.fio ∧
    (State.startInstance s d).cap = s.cap ∧ (State.startInstance s d).prf = s.prf ∧ (State.startInstance s d).host = s.host
    ∧ (State.startInstance s d).evt = s.evt ∧ (State.startInstance s d).params = s.params ∧ (State.startInstance s d).cfg =
    s.cfg ∧ (State.startInstance s d).pwr = s.pwr ∧ (State.startInstance s d).lgr = s.lgr ∧ (State.startInstance s
    d).pending = s.pending :=
  let h := State.startInstance_only s d
  ⟨h.out .frm rfl, h.out .axes rfl, h.out .lines rfl, h.out .cams rfl, h.out .camStg rfl, h.out .zones rfl, h.out .steps
    rfl, h.out .encs rfl, h.out .net rfl, h.out .red rfl, h.out .saf rfl, h.out .fio rfl, h.out .cap rfl, h.out .prf rfl,
    h.out .host rfl, h.out .evt rfl, h.out .params rfl, h.out .cfg rfl, h.out .pwr rfl, h.out .lgr rfl, h.out .pending rfl⟩


@[simp] theorem State.unlist_keeps (s : State) (d : Nat) : (State.unlist s d).frm = s.frm ∧ (State.unlist s d).axes =
    s.axes ∧ (State.unlist s d).lines = s.lines ∧ (State.unlist s d).cams = s.cams ∧ (State.unlist s d).camStg = s.camStg ∧
    (State.unlist s d).zones = s.zones ∧ (State.unlist s d).steps = s.steps ∧ (State.unlist s d).encs = s.encs ∧
    (State.unlist s d).net = s.net ∧ (State.unlist s d).red = s.red ∧ (State.unlist s d).saf = s.saf ∧ (State.unlist s
    d).fio = s.fio ∧ (State.unlist s d).cap = s.cap ∧ (State.unlist s d).prf = s.prf ∧ (State.unlist s d).host = s.host ∧
    (State.unlist s d).evt = s.evt ∧ (State.unlist s d).params = s.params ∧ (State.unlist s d).cfg = s.cfg ∧ (State.unlist
    s d).pwr = s.pwr ∧ (State.unlist s d).lgr = s.lgr ∧ (State.unlist s d).pending = s.pending :=
  let h := State.unlist_only s d
  ⟨h.out .frm rfl, h.out .axes rfl, h.out .lines rfl, h.out .cams rfl, h.out .camStg rfl, h.out .zones rfl, h.out .steps
    rfl, h.out .encs rfl, h.out .net rfl, h.out .red rfl, h.out .saf rfl, h.out .fio rfl, h.out .cap rfl, h.out .prf rfl,
    h.out .host rfl, h.out .evt rfl, h.out .params rfl, h.out .cfg rfl, h.out .pwr rfl, h.out .lgr rfl, h.out .pending rfl⟩


@[simp] theorem State.countRelease_keeps (s : State) (d : Nat) : (State.countRelease s d).frm = s.frm ∧ (State.countRelease
    s d).axes = s.axes ∧ (State.countRelease s d).lines = s.lines ∧ (State.countRelease s d).cams = s.cams ∧
    (State.countRelease s d).camStg = s.camStg ∧ (State.countRelease s d).zones = s.zones ∧ (State.countRelease s d).steps
    = s.steps ∧ (State.countRelease s d).encs = s.encs ∧ (State.countRelease s d).net = s.net ∧ (State.countRelease s
    d).red = s.red ∧ (State.countRelease s d).saf = s.saf ∧ (State.countRelease s d).fio = s.fio ∧ (State.countRelease s
    d).cap = s.cap ∧ (State.countRelease s d).host = s.host ∧ (State.countRelease s d).evt = s.evt ∧ (State.countRelease s
    d).params = s.params ∧ (State.countRelease s d).cfg = s.cfg ∧ (State.countRelease s d).pwr = s.pwr ∧
    (State.countRelease s d).lgr = s.lgr ∧ (State.countRelease s d).pending = s.pending :=
  let h := State.countRelease_only s d
  ⟨h.out .frm rfl, h.out .axes rfl, h.out .lines rfl, h.out .cams rfl, h.out .camStg rfl, h.out .zones rfl, h.out .steps
    rfl, h.out .encs rfl, h.out .net rfl, h.out .red rfl, h.out .saf rfl, h.out .fio rfl, h.out .cap rfl, h.out .host rfl,
    h.out .evt rfl, h.out .params rfl, h.out .cfg rfl, h.out .pwr rfl, h.out .lgr rfl, h.out .pending rfl⟩


@[simp] theorem State.releaseOne_keeps (s : State) (d : Nat) : (State.releaseOne s d).frm = s.frm ∧ (State.releaseOne s
    d).axes = s.axes ∧ (State.releaseOne s d).lines = s.lines ∧ (State.releaseOne s d).cams = s.cams ∧ (State.releaseOne s
    d).camStg = s.camStg ∧ (State.releaseOne s d).zones = s.zones ∧ (State.releaseOne s d).steps = s.steps ∧
    (State.releaseOne s d).encs = s.encs ∧ (State.releaseOne s d).net = s.net ∧ (State.releaseOne s d).red = s.red ∧
    (State.releaseOne s d).saf = s.saf ∧ (State.releaseOne s d).fio = s.fio ∧ (State.releaseOne s d).cap = s.cap ∧
    (State.releaseOne s d).host = s.host ∧ (State.releaseOne s d).evt = s.evt ∧ (State.releaseOne s d).params = s.params ∧
    (State.releaseOne s d).cfg = s.cfg ∧ (State.releaseOne s d).lgr = s.lgr ∧ (State.releaseOne s d).pending = s.pending :=
  let h := State.releaseOne_only s d
  ⟨h.out .frm rfl, h.out .axes rfl, h.out .lines rfl, h.out .cams rfl, h.out .camStg rfl, h.out .zones rfl, h.out .steps
    rfl, h.out .encs rfl, h.out .net rfl, h.out .red rfl, h.out .saf rfl, h.out .fio rfl, h.out .cap rfl, h.out .host rfl,
    h.out .evt rfl, h.out .params rfl, h.out .cfg rfl, h.out .lgr rfl, h.out .pending rfl⟩


@[simp] theorem State.decrement_keeps (s : State) (n d : Nat) : (State.decrement s n d).frm = s.frm ∧ (State.decrement s n
    d).axes = s.axes ∧ (State.decrement s n d).lines = s.lines ∧ (State.decrement s n d).cams = s.cams ∧ (State.decrement s
    n d).camStg = s.camStg ∧ (State.decrement s n d).zones = s.zones ∧ (State.decrement s n d).steps = s.steps ∧
    (State.decrement s n d).encs = s.encs ∧ (State.decrement s n d).net = s.net ∧ (State.decrement s n d).red = s.red ∧
    (State.decrement s n d).saf = s.saf ∧ (State.decrement s n d).fio = s.fio ∧ (State.decrement s n d).host = s.host ∧
    (State.decrement s n d).params = s.params ∧ (State.decrement s n d).cfg = s.cfg ∧ (State.decrement s n d).pwr = s.pwr ∧
    (State.decrement s n d).pending = s.pending :=
  let h := State.decrement_only s n d
  ⟨h.out .frm rfl, h.out .axes rfl, h.out .lines rfl, h.out .cams rfl, h.out .camStg rfl, h.out .zones rfl, h.out .steps
    rfl, h.out .encs rfl, h.out .net rfl, h.out .red rfl, h.out .saf rfl, h.out .fio rfl, h.out .host rfl, h.out .params
    rfl, h.out .cfg rfl, h.out .pwr rfl, h.out .pending rfl⟩


@[simp] theorem State.complete_keeps (s : State) (d server : Nat) : (State.complete s d server).frm = s.frm ∧
    (State.complete s d server).axes = s.axes ∧ (State.complete s d server).lines = s.lines ∧ (State.complete s d
    server).cams = s.cams ∧ (State.complete s d server).camStg = s.camStg ∧ (State.complete s d server).zones = s.zones ∧
    (State.complete s d server).steps = s.steps ∧ (State.complete s d server).encs = s.encs ∧ (State.complete s d
    server).net = s.net ∧ (State.complete s d server).red = s.red ∧ (State.complete s d server).saf = s.saf ∧
    (State.complete s d server).fio = s.fio ∧ (State.complete s d server).host = s.host ∧ (State.complete s d
    server).params = s.params ∧ (State.complete s d server).cfg = s.cfg ∧ (State.complete s d server).pwr = s.pwr ∧
    (State.complete s d server).pending = s.pending :=
  let h := State.complete_only s d server
  ⟨h.out .frm rfl, h.out .axes rfl, h.out .lines rfl, h.out .cams rfl, h.out .camStg rfl, h.out .zones rfl, h.out .steps
    rfl, h.out .encs rfl, h.out .net rfl, h.out .red rfl, h.out .saf rfl, h.out .fio rfl, h.out .host rfl, h.out .params
    rfl, h.out .cfg rfl, h.out .pwr rfl, h.out .pending rfl⟩


@[simp] theorem State.completeKernel_keeps (s : State) (d : Nat) : (State.completeKernel s d).frm = s.frm ∧
    (State.completeKernel s d).axes = s.axes ∧ (State.completeKernel s d).lines = s.lines ∧ (State.completeKernel s d).cams
    = s.cams ∧ (State.completeKernel s d).camStg = s.camStg ∧ (State.completeKernel s d).zones = s.zones ∧
    (State.completeKernel s d).steps = s.steps ∧ (State.completeKernel s d).encs = s.encs ∧ (State.completeKernel s d).net
    = s.net ∧ (State.completeKernel s d).red = s.red ∧ (State.completeKernel s d).saf = s.saf ∧ (State.completeKernel s
    d).fio = s.fio ∧ (State.completeKernel s d).host = s.host ∧ (State.completeKernel s d).params = s.params ∧
    (State.completeKernel s d).cfg = s.cfg ∧ (State.completeKernel s d).pwr = s.pwr ∧ (State.completeKernel s d).pending =
    s.pending :=
  let h := State.completeKernel_only s d
  ⟨h.out .frm rfl, h.out .axes rfl, h.out .lines rfl, h.out .cams rfl, h.out .camStg rfl, h.out .zones rfl, h.out .steps
    rfl, h.out .encs rfl, h.out .net rfl, h.out .red rfl, h.out .saf rfl, h.out .fio rfl, h.out .host rfl, h.out .params
    rfl, h.out .cfg rfl, h.out .pwr rfl, h.out .pending rfl⟩


@[simp] theorem State.gateCheck_keeps (s : State) : (State.gateCheck s).frm = s.frm ∧ (State.gateCheck s).axes = s.axes ∧
    (State.gateCheck s).lines = s.lines ∧ (State.gateCheck s).cams = s.cams ∧ (State.gateCheck s).camStg = s.camStg ∧
    (State.gateCheck s).zones = s.zones ∧ (State.gateCheck s).steps = s.steps ∧ (State.gateCheck s).encs = s.encs ∧
    (State.gateCheck s).net = s.net ∧ (State.gateCheck s).red = s.red ∧ (State.gateCheck s).saf = s.saf ∧ (State.gateCheck
    s).fio = s.fio ∧ (State.gateCheck s).cap = s.cap ∧ (State.gateCheck s).prf = s.prf ∧ (State.gateCheck s).host = s.host
    ∧ (State.gateCheck s).evt = s.evt ∧ (State.gateCheck s).params = s.params ∧ (State.gateCheck s).cfg = s.cfg ∧
    (State.gateCheck s).pwr = s.pwr ∧ (State.gateCheck s).lgr = s.lgr ∧ (State.gateCheck s).pending = s.pending :=
  let h := State.gateCheck_only s
  ⟨h.out .frm rfl, h.out .axes rfl, h.out .lines rfl, h.out .cams rfl, h.out .camStg rfl, h.out .zones rfl, h.out .steps
    rfl, h.out .encs rfl, h.out .net rfl, h.out .red rfl, h.out .saf rfl, h.out .fio rfl, h.out .cap rfl, h.out .prf rfl,
    h.out .host rfl, h.out .evt rfl, h.out .params rfl, h.out .cfg rfl, h.out .pwr rfl, h.out .lgr rfl, h.out .pending rfl⟩


@[simp] theorem State.abandon_keeps (s : State) (ds : List Nat) : (State.abandon s ds).frm = s.frm ∧ (State.abandon s
    ds).axes = s.axes ∧ (State.abandon s ds).lines = s.lines ∧ (State.abandon s ds).cams = s.cams ∧ (State.abandon s
    ds).camStg = s.camStg ∧ (State.abandon s ds).zones = s.zones ∧ (State.abandon s ds).steps = s.steps ∧ (State.abandon s
    ds).encs = s.encs ∧ (State.abandon s ds).net = s.net ∧ (State.abandon s ds).red = s.red ∧ (State.abandon s ds).saf =
    s.saf ∧ (State.abandon s ds).fio = s.fio ∧ (State.abandon s ds).cap = s.cap ∧ (State.abandon s ds).host = s.host ∧
    (State.abandon s ds).evt = s.evt ∧ (State.abandon s ds).params = s.params ∧ (State.abandon s ds).cfg = s.cfg ∧
    (State.abandon s ds).pwr = s.pwr ∧ (State.abandon s ds).lgr = s.lgr ∧ (State.abandon s ds).pending = s.pending :=
  let h := State.abandon_only s ds
  ⟨h.out .frm rfl, h.out .axes rfl, h.out .lines rfl, h.out .cams rfl, h.out .camStg rfl, h.out .zones rfl, h.out .steps
    rfl, h.out .encs rfl, h.out .net rfl, h.out .red rfl, h.out .saf rfl, h.out .fio rfl, h.out .cap rfl, h.out .host rfl,
    h.out .evt rfl, h.out .params rfl, h.out .cfg rfl, h.out .pwr rfl, h.out .lgr rfl, h.out .pending rfl⟩


@[simp] theorem State.hostWord_keeps (s : State) (w : W32) : (State.hostWord s w).frm = s.frm ∧ (State.hostWord s w).axes =
    s.axes ∧ (State.hostWord s w).lines = s.lines ∧ (State.hostWord s w).cams = s.cams ∧ (State.hostWord s w).camStg =
    s.camStg ∧ (State.hostWord s w).zones = s.zones ∧ (State.hostWord s w).steps = s.steps ∧ (State.hostWord s w).encs =
    s.encs ∧ (State.hostWord s w).net = s.net ∧ (State.hostWord s w).dsp = s.dsp ∧ (State.hostWord s w).red = s.red ∧
    (State.hostWord s w).saf = s.saf ∧ (State.hostWord s w).fio = s.fio ∧ (State.hostWord s w).cap = s.cap ∧
    (State.hostWord s w).evt = s.evt ∧ (State.hostWord s w).params = s.params ∧ (State.hostWord s w).cfg = s.cfg ∧
    (State.hostWord s w).pwr = s.pwr ∧ (State.hostWord s w).lgr = s.lgr ∧ (State.hostWord s w).pending = s.pending :=
  let h := State.hostWord_only s w
  ⟨h.out .frm rfl, h.out .axes rfl, h.out .lines rfl, h.out .cams rfl, h.out .camStg rfl, h.out .zones rfl, h.out .steps
    rfl, h.out .encs rfl, h.out .net rfl, h.out .dsp rfl, h.out .red rfl, h.out .saf rfl, h.out .fio rfl, h.out .cap rfl,
    h.out .evt rfl, h.out .params rfl, h.out .cfg rfl, h.out .pwr rfl, h.out .lgr rfl, h.out .pending rfl⟩


@[simp] theorem State.hostWrite_keeps (s : State) : (State.hostWrite s).frm = s.frm ∧ (State.hostWrite s).axes = s.axes ∧
    (State.hostWrite s).lines = s.lines ∧ (State.hostWrite s).cams = s.cams ∧ (State.hostWrite s).camStg = s.camStg ∧
    (State.hostWrite s).zones = s.zones ∧ (State.hostWrite s).steps = s.steps ∧ (State.hostWrite s).encs = s.encs ∧
    (State.hostWrite s).net = s.net ∧ (State.hostWrite s).dsp = s.dsp ∧ (State.hostWrite s).red = s.red ∧ (State.hostWrite
    s).saf = s.saf ∧ (State.hostWrite s).fio = s.fio ∧ (State.hostWrite s).cap = s.cap ∧ (State.hostWrite s).evt = s.evt ∧
    (State.hostWrite s).params = s.params ∧ (State.hostWrite s).cfg = s.cfg ∧ (State.hostWrite s).pwr = s.pwr ∧
    (State.hostWrite s).lgr = s.lgr ∧ (State.hostWrite s).pending = s.pending :=
  let h := State.hostWrite_only s
  ⟨h.out .frm rfl, h.out .axes rfl, h.out .lines rfl, h.out .cams rfl, h.out .camStg rfl, h.out .zones rfl, h.out .steps
    rfl, h.out .encs rfl, h.out .net rfl, h.out .dsp rfl, h.out .red rfl, h.out .saf rfl, h.out .fio rfl, h.out .cap rfl,
    h.out .evt rfl, h.out .params rfl, h.out .cfg rfl, h.out .pwr rfl, h.out .lgr rfl, h.out .pending rfl⟩


@[simp] theorem State.answer_keeps (s : State) (m j status eff : Nat) (pay : List Byte) : (State.answer s m j status eff
    pay).frm = s.frm ∧ (State.answer s m j status eff pay).axes = s.axes ∧ (State.answer s m j status eff pay).lines =
    s.lines ∧ (State.answer s m j status eff pay).cams = s.cams ∧ (State.answer s m j status eff pay).camStg = s.camStg ∧
    (State.answer s m j status eff pay).zones = s.zones ∧ (State.answer s m j status eff pay).steps = s.steps ∧
    (State.answer s m j status eff pay).encs = s.encs ∧ (State.answer s m j status eff pay).net = s.net ∧ (State.answer s m
    j status eff pay).dsp = s.dsp ∧ (State.answer s m j status eff pay).red = s.red ∧ (State.answer s m j status eff
    pay).saf = s.saf ∧ (State.answer s m j status eff pay).fio = s.fio ∧ (State.answer s m j status eff pay).cap = s.cap ∧
    (State.answer s m j status eff pay).params = s.params ∧ (State.answer s m j status eff pay).cfg = s.cfg ∧ (State.answer
    s m j status eff pay).pwr = s.pwr ∧ (State.answer s m j status eff pay).lgr = s.lgr ∧ (State.answer s m j status eff
    pay).pending = s.pending :=
  let h := State.answer_only s m j status eff pay
  ⟨h.out .frm rfl, h.out .axes rfl, h.out .lines rfl, h.out .cams rfl, h.out .camStg rfl, h.out .zones rfl, h.out .steps
    rfl, h.out .encs rfl, h.out .net rfl, h.out .dsp rfl, h.out .red rfl, h.out .saf rfl, h.out .fio rfl, h.out .cap rfl,
    h.out .params rfl, h.out .cfg rfl, h.out .pwr rfl, h.out .lgr rfl, h.out .pending rfl⟩


@[simp] theorem State.take_keeps (s : State) (m j : Nat) (ready : Bool) : (State.take s m j ready).frm = s.frm ∧
    (State.take s m j ready).axes = s.axes ∧ (State.take s m j ready).lines = s.lines ∧ (State.take s m j ready).cams =
    s.cams ∧ (State.take s m j ready).camStg = s.camStg ∧ (State.take s m j ready).zones = s.zones ∧ (State.take s m j
    ready).steps = s.steps ∧ (State.take s m j ready).encs = s.encs ∧ (State.take s m j ready).net = s.net ∧ (State.take s
    m j ready).dsp = s.dsp ∧ (State.take s m j ready).red = s.red ∧ (State.take s m j ready).saf = s.saf ∧ (State.take s m
    j ready).fio = s.fio ∧ (State.take s m j ready).cap = s.cap ∧ (State.take s m j ready).prf = s.prf ∧ (State.take s m j
    ready).evt = s.evt ∧ (State.take s m j ready).params = s.params ∧ (State.take s m j ready).cfg = s.cfg ∧ (State.take s
    m j ready).pwr = s.pwr ∧ (State.take s m j ready).lgr = s.lgr ∧ (State.take s m j ready).pending = s.pending :=
  let h := State.take_only s m j ready
  ⟨h.out .frm rfl, h.out .axes rfl, h.out .lines rfl, h.out .cams rfl, h.out .camStg rfl, h.out .zones rfl, h.out .steps
    rfl, h.out .encs rfl, h.out .net rfl, h.out .dsp rfl, h.out .red rfl, h.out .saf rfl, h.out .fio rfl, h.out .cap rfl,
    h.out .prf rfl, h.out .evt rfl, h.out .params rfl, h.out .cfg rfl, h.out .pwr rfl, h.out .lgr rfl, h.out .pending rfl⟩


@[simp] theorem State.setTaken_keeps (s : State) (t : Taken) : (State.setTaken s t).frm = s.frm ∧ (State.setTaken s t).axes
    = s.axes ∧ (State.setTaken s t).lines = s.lines ∧ (State.setTaken s t).cams = s.cams ∧ (State.setTaken s t).camStg =
    s.camStg ∧ (State.setTaken s t).zones = s.zones ∧ (State.setTaken s t).steps = s.steps ∧ (State.setTaken s t).encs =
    s.encs ∧ (State.setTaken s t).net = s.net ∧ (State.setTaken s t).dsp = s.dsp ∧ (State.setTaken s t).red = s.red ∧
    (State.setTaken s t).saf = s.saf ∧ (State.setTaken s t).fio = s.fio ∧ (State.setTaken s t).cap = s.cap ∧
    (State.setTaken s t).prf = s.prf ∧ (State.setTaken s t).evt = s.evt ∧ (State.setTaken s t).params = s.params ∧
    (State.setTaken s t).cfg = s.cfg ∧ (State.setTaken s t).pwr = s.pwr ∧ (State.setTaken s t).lgr = s.lgr ∧
    (State.setTaken s t).pending = s.pending :=
  let h := State.setTaken_only s t
  ⟨h.out .frm rfl, h.out .axes rfl, h.out .lines rfl, h.out .cams rfl, h.out .camStg rfl, h.out .zones rfl, h.out .steps
    rfl, h.out .encs rfl, h.out .net rfl, h.out .dsp rfl, h.out .red rfl, h.out .saf rfl, h.out .fio rfl, h.out .cap rfl,
    h.out .prf rfl, h.out .evt rfl, h.out .params rfl, h.out .cfg rfl, h.out .pwr rfl, h.out .lgr rfl, h.out .pending rfl⟩


@[simp] theorem State.axEntry_keeps (s : State) (sub : Nat) (t : Taken) : (State.axEntry s sub t).frm = s.frm ∧
    (State.axEntry s sub t).axes = s.axes ∧ (State.axEntry s sub t).lines = s.lines ∧ (State.axEntry s sub t).cams = s.cams
    ∧ (State.axEntry s sub t).camStg = s.camStg ∧ (State.axEntry s sub t).zones = s.zones ∧ (State.axEntry s sub t).steps =
    s.steps ∧ (State.axEntry s sub t).encs = s.encs ∧ (State.axEntry s sub t).net = s.net ∧ (State.axEntry s sub t).dsp =
    s.dsp ∧ (State.axEntry s sub t).red = s.red ∧ (State.axEntry s sub t).saf = s.saf ∧ (State.axEntry s sub t).fio = s.fio
    ∧ (State.axEntry s sub t).cap = s.cap ∧ (State.axEntry s sub t).prf = s.prf ∧ (State.axEntry s sub t).evt = s.evt ∧
    (State.axEntry s sub t).params = s.params ∧ (State.axEntry s sub t).cfg = s.cfg ∧ (State.axEntry s sub t).pwr = s.pwr ∧
    (State.axEntry s sub t).lgr = s.lgr ∧ (State.axEntry s sub t).pending = s.pending :=
  let h := State.axEntry_only s sub t
  ⟨h.out .frm rfl, h.out .axes rfl, h.out .lines rfl, h.out .cams rfl, h.out .camStg rfl, h.out .zones rfl, h.out .steps
    rfl, h.out .encs rfl, h.out .net rfl, h.out .dsp rfl, h.out .red rfl, h.out .saf rfl, h.out .fio rfl, h.out .cap rfl,
    h.out .prf rfl, h.out .evt rfl, h.out .params rfl, h.out .cfg rfl, h.out .pwr rfl, h.out .lgr rfl, h.out .pending rfl⟩


@[simp] theorem State.protoErr_keeps (s : State) (bit : Nat) : (State.protoErr s bit).frm = s.frm ∧ (State.protoErr s
    bit).axes = s.axes ∧ (State.protoErr s bit).lines = s.lines ∧ (State.protoErr s bit).cams = s.cams ∧ (State.protoErr s
    bit).camStg = s.camStg ∧ (State.protoErr s bit).zones = s.zones ∧ (State.protoErr s bit).steps = s.steps ∧
    (State.protoErr s bit).encs = s.encs ∧ (State.protoErr s bit).net = s.net ∧ (State.protoErr s bit).dsp = s.dsp ∧
    (State.protoErr s bit).red = s.red ∧ (State.protoErr s bit).saf = s.saf ∧ (State.protoErr s bit).fio = s.fio ∧
    (State.protoErr s bit).params = s.params ∧ (State.protoErr s bit).cfg = s.cfg ∧ (State.protoErr s bit).pwr = s.pwr ∧
    (State.protoErr s bit).pending = s.pending :=
  let h := State.protoErr_only s bit
  ⟨h.out .frm rfl, h.out .axes rfl, h.out .lines rfl, h.out .cams rfl, h.out .camStg rfl, h.out .zones rfl, h.out .steps
    rfl, h.out .encs rfl, h.out .net rfl, h.out .dsp rfl, h.out .red rfl, h.out .saf rfl, h.out .fio rfl, h.out .params
    rfl, h.out .cfg rfl, h.out .pwr rfl, h.out .pending rfl⟩


@[simp] theorem State.chanFault_keeps (s : State) (chB : Bool) (f : ChFault) : (State.chanFault s chB f).frm = s.frm ∧
    (State.chanFault s chB f).axes = s.axes ∧ (State.chanFault s chB f).lines = s.lines ∧ (State.chanFault s chB f).cams =
    s.cams ∧ (State.chanFault s chB f).camStg = s.camStg ∧ (State.chanFault s chB f).zones = s.zones ∧ (State.chanFault s
    chB f).steps = s.steps ∧ (State.chanFault s chB f).encs = s.encs ∧ (State.chanFault s chB f).net = s.net ∧
    (State.chanFault s chB f).dsp = s.dsp ∧ (State.chanFault s chB f).red = s.red ∧ (State.chanFault s chB f).fio = s.fio ∧
    (State.chanFault s chB f).host = s.host ∧ (State.chanFault s chB f).params = s.params ∧ (State.chanFault s chB f).cfg =
    s.cfg ∧ (State.chanFault s chB f).pwr = s.pwr ∧ (State.chanFault s chB f).pending = s.pending :=
  let h := State.chanFault_only s chB f
  ⟨h.out .frm rfl, h.out .axes rfl, h.out .lines rfl, h.out .cams rfl, h.out .camStg rfl, h.out .zones rfl, h.out .steps
    rfl, h.out .encs rfl, h.out .net rfl, h.out .dsp rfl, h.out .red rfl, h.out .fio rfl, h.out .host rfl, h.out .params
    rfl, h.out .cfg rfl, h.out .pwr rfl, h.out .pending rfl⟩


@[simp] theorem State.degEnter_keeps (s : State) (chB : Bool) : (State.degEnter s chB).frm = s.frm ∧ (State.degEnter s
    chB).axes = s.axes ∧ (State.degEnter s chB).lines = s.lines ∧ (State.degEnter s chB).cams = s.cams ∧ (State.degEnter s
    chB).camStg = s.camStg ∧ (State.degEnter s chB).zones = s.zones ∧ (State.degEnter s chB).steps = s.steps ∧
    (State.degEnter s chB).encs = s.encs ∧ (State.degEnter s chB).net = s.net ∧ (State.degEnter s chB).dsp = s.dsp ∧
    (State.degEnter s chB).red = s.red ∧ (State.degEnter s chB).fio = s.fio ∧ (State.degEnter s chB).host = s.host ∧
    (State.degEnter s chB).params = s.params ∧ (State.degEnter s chB).cfg = s.cfg ∧ (State.degEnter s chB).pwr = s.pwr ∧
    (State.degEnter s chB).pending = s.pending :=
  let h := State.degEnter_only s chB
  ⟨h.out .frm rfl, h.out .axes rfl, h.out .lines rfl, h.out .cams rfl, h.out .camStg rfl, h.out .zones rfl, h.out .steps
    rfl, h.out .encs rfl, h.out .net rfl, h.out .dsp rfl, h.out .red rfl, h.out .fio rfl, h.out .host rfl, h.out .params
    rfl, h.out .cfg rfl, h.out .pwr rfl, h.out .pending rfl⟩


@[simp] theorem State.degLeave_keeps (s : State) (cleared : Bool) : (State.degLeave s cleared).frm = s.frm ∧
    (State.degLeave s cleared).axes = s.axes ∧ (State.degLeave s cleared).lines = s.lines ∧ (State.degLeave s cleared).cams
    = s.cams ∧ (State.degLeave s cleared).camStg = s.camStg ∧ (State.degLeave s cleared).zones = s.zones ∧ (State.degLeave
    s cleared).steps = s.steps ∧ (State.degLeave s cleared).encs = s.encs ∧ (State.degLeave s cleared).net = s.net ∧
    (State.degLeave s cleared).dsp = s.dsp ∧ (State.degLeave s cleared).red = s.red ∧ (State.degLeave s cleared).fio =
    s.fio ∧ (State.degLeave s cleared).cap = s.cap ∧ (State.degLeave s cleared).prf = s.prf ∧ (State.degLeave s
    cleared).host = s.host ∧ (State.degLeave s cleared).evt = s.evt ∧ (State.degLeave s cleared).params = s.params ∧
    (State.degLeave s cleared).cfg = s.cfg ∧ (State.degLeave s cleared).pwr = s.pwr ∧ (State.degLeave s cleared).lgr =
    s.lgr ∧ (State.degLeave s cleared).pending = s.pending :=
  let h := State.degLeave_only s cleared
  ⟨h.out .frm rfl, h.out .axes rfl, h.out .lines rfl, h.out .cams rfl, h.out .camStg rfl, h.out .zones rfl, h.out .steps
    rfl, h.out .encs rfl, h.out .net rfl, h.out .dsp rfl, h.out .red rfl, h.out .fio rfl, h.out .cap rfl, h.out .prf rfl,
    h.out .host rfl, h.out .evt rfl, h.out .params rfl, h.out .cfg rfl, h.out .pwr rfl, h.out .lgr rfl, h.out .pending rfl⟩


@[simp] theorem State.raiseCh_keeps (s : State) (code c : Nat) : (State.raiseCh s code c).frm = s.frm ∧ (State.raiseCh s
    code c).axes = s.axes ∧ (State.raiseCh s code c).lines = s.lines ∧ (State.raiseCh s code c).cams = s.cams ∧
    (State.raiseCh s code c).camStg = s.camStg ∧ (State.raiseCh s code c).zones = s.zones ∧ (State.raiseCh s code c).steps
    = s.steps ∧ (State.raiseCh s code c).encs = s.encs ∧ (State.raiseCh s code c).net = s.net ∧ (State.raiseCh s code
    c).dsp = s.dsp ∧ (State.raiseCh s code c).red = s.red ∧ (State.raiseCh s code c).saf = s.saf ∧ (State.raiseCh s code
    c).fio = s.fio ∧ (State.raiseCh s code c).host = s.host ∧ (State.raiseCh s code c).params = s.params ∧ (State.raiseCh s
    code c).cfg = s.cfg ∧ (State.raiseCh s code c).pwr = s.pwr ∧ (State.raiseCh s code c).pending = s.pending :=
  let h := State.raiseCh_only s code c
  ⟨h.out .frm rfl, h.out .axes rfl, h.out .lines rfl, h.out .cams rfl, h.out .camStg rfl, h.out .zones rfl, h.out .steps
    rfl, h.out .encs rfl, h.out .net rfl, h.out .dsp rfl, h.out .red rfl, h.out .saf rfl, h.out .fio rfl, h.out .host rfl,
    h.out .params rfl, h.out .cfg rfl, h.out .pwr rfl, h.out .pending rfl⟩


@[simp] theorem State.raiseDie_keeps (s : State) (code d : Nat) : (State.raiseDie s code d).frm = s.frm ∧ (State.raiseDie s
    code d).axes = s.axes ∧ (State.raiseDie s code d).lines = s.lines ∧ (State.raiseDie s code d).cams = s.cams ∧
    (State.raiseDie s code d).camStg = s.camStg ∧ (State.raiseDie s code d).zones = s.zones ∧ (State.raiseDie s code
    d).steps = s.steps ∧ (State.raiseDie s code d).encs = s.encs ∧ (State.raiseDie s code d).net = s.net ∧ (State.raiseDie
    s code d).dsp = s.dsp ∧ (State.raiseDie s code d).red = s.red ∧ (State.raiseDie s code d).saf = s.saf ∧ (State.raiseDie
    s code d).fio = s.fio ∧ (State.raiseDie s code d).host = s.host ∧ (State.raiseDie s code d).params = s.params ∧
    (State.raiseDie s code d).cfg = s.cfg ∧ (State.raiseDie s code d).pwr = s.pwr ∧ (State.raiseDie s code d).pending =
    s.pending :=
  let h := State.raiseDie_only s code d
  ⟨h.out .frm rfl, h.out .axes rfl, h.out .lines rfl, h.out .cams rfl, h.out .camStg rfl, h.out .zones rfl, h.out .steps
    rfl, h.out .encs rfl, h.out .net rfl, h.out .dsp rfl, h.out .red rfl, h.out .saf rfl, h.out .fio rfl, h.out .host rfl,
    h.out .params rfl, h.out .cfg rfl, h.out .pwr rfl, h.out .pending rfl⟩


@[simp] theorem State.frameOverrun_keeps (s : State) (i : Nat) : (State.frameOverrun s i).axes = s.axes ∧
    (State.frameOverrun s i).lines = s.lines ∧ (State.frameOverrun s i).cams = s.cams ∧ (State.frameOverrun s i).camStg =
    s.camStg ∧ (State.frameOverrun s i).zones = s.zones ∧ (State.frameOverrun s i).steps = s.steps ∧ (State.frameOverrun s
    i).encs = s.encs ∧ (State.frameOverrun s i).net = s.net ∧ (State.frameOverrun s i).dsp = s.dsp ∧ (State.frameOverrun s
    i).red = s.red ∧ (State.frameOverrun s i).saf = s.saf ∧ (State.frameOverrun s i).fio = s.fio ∧ (State.frameOverrun s
    i).host = s.host ∧ (State.frameOverrun s i).params = s.params ∧ (State.frameOverrun s i).cfg = s.cfg ∧
    (State.frameOverrun s i).pwr = s.pwr ∧ (State.frameOverrun s i).pending = s.pending :=
  let h := State.frameOverrun_only s i
  ⟨h.out .axes rfl, h.out .lines rfl, h.out .cams rfl, h.out .camStg rfl, h.out .zones rfl, h.out .steps rfl, h.out .encs
    rfl, h.out .net rfl, h.out .dsp rfl, h.out .red rfl, h.out .saf rfl, h.out .fio rfl, h.out .host rfl, h.out .params
    rfl, h.out .cfg rfl, h.out .pwr rfl, h.out .pending rfl⟩


@[simp] theorem State.tagDispatch_keeps (s : State) (d k : Nat) : (State.tagDispatch s d k).frm = s.frm ∧
    (State.tagDispatch s d k).axes = s.axes ∧ (State.tagDispatch s d k).lines = s.lines ∧ (State.tagDispatch s d k).cams =
    s.cams ∧ (State.tagDispatch s d k).camStg = s.camStg ∧ (State.tagDispatch s d k).zones = s.zones ∧ (State.tagDispatch s
    d k).steps = s.steps ∧ (State.tagDispatch s d k).encs = s.encs ∧ (State.tagDispatch s d k).net = s.net ∧
    (State.tagDispatch s d k).dsp = s.dsp ∧ (State.tagDispatch s d k).red = s.red ∧ (State.tagDispatch s d k).saf = s.saf ∧
    (State.tagDispatch s d k).fio = s.fio ∧ (State.tagDispatch s d k).cap = s.cap ∧ (State.tagDispatch s d k).host = s.host
    ∧ (State.tagDispatch s d k).evt = s.evt ∧ (State.tagDispatch s d k).params = s.params ∧ (State.tagDispatch s d k).cfg =
    s.cfg ∧ (State.tagDispatch s d k).pwr = s.pwr ∧ (State.tagDispatch s d k).lgr = s.lgr ∧ (State.tagDispatch s d
    k).pending = s.pending :=
  let h := State.tagDispatch_only s d k
  ⟨h.out .frm rfl, h.out .axes rfl, h.out .lines rfl, h.out .cams rfl, h.out .camStg rfl, h.out .zones rfl, h.out .steps
    rfl, h.out .encs rfl, h.out .net rfl, h.out .dsp rfl, h.out .red rfl, h.out .saf rfl, h.out .fio rfl, h.out .cap rfl,
    h.out .host rfl, h.out .evt rfl, h.out .params rfl, h.out .cfg rfl, h.out .pwr rfl, h.out .lgr rfl, h.out .pending rfl⟩


@[simp] theorem State.tagWrite_keeps (s : State) (r : TagRun) (pack : Option Nat) : (State.tagWrite s r pack).frm = s.frm ∧
    (State.tagWrite s r pack).axes = s.axes ∧ (State.tagWrite s r pack).lines = s.lines ∧ (State.tagWrite s r pack).cams =
    s.cams ∧ (State.tagWrite s r pack).camStg = s.camStg ∧ (State.tagWrite s r pack).zones = s.zones ∧ (State.tagWrite s r
    pack).steps = s.steps ∧ (State.tagWrite s r pack).encs = s.encs ∧ (State.tagWrite s r pack).net = s.net ∧
    (State.tagWrite s r pack).dsp = s.dsp ∧ (State.tagWrite s r pack).red = s.red ∧ (State.tagWrite s r pack).saf = s.saf ∧
    (State.tagWrite s r pack).fio = s.fio ∧ (State.tagWrite s r pack).cap = s.cap ∧ (State.tagWrite s r pack).host = s.host
    ∧ (State.tagWrite s r pack).evt = s.evt ∧ (State.tagWrite s r pack).params = s.params ∧ (State.tagWrite s r pack).cfg =
    s.cfg ∧ (State.tagWrite s r pack).pwr = s.pwr ∧ (State.tagWrite s r pack).lgr = s.lgr ∧ (State.tagWrite s r
    pack).pending = s.pending :=
  let h := State.tagWrite_only s r pack
  ⟨h.out .frm rfl, h.out .axes rfl, h.out .lines rfl, h.out .cams rfl, h.out .camStg rfl, h.out .zones rfl, h.out .steps
    rfl, h.out .encs rfl, h.out .net rfl, h.out .dsp rfl, h.out .red rfl, h.out .saf rfl, h.out .fio rfl, h.out .cap rfl,
    h.out .host rfl, h.out .evt rfl, h.out .params rfl, h.out .cfg rfl, h.out .pwr rfl, h.out .lgr rfl, h.out .pending rfl⟩


@[simp] theorem State.tagComplete_keeps (s : State) (d : Nat) (opnd comp t : Nat) (branch : Option Nat) (ln : Bool) :
    (State.tagComplete s d opnd comp t branch ln).frm = s.frm ∧ (State.tagComplete s d opnd comp t branch ln).axes = s.axes
    ∧ (State.tagComplete s d opnd comp t branch ln).lines = s.lines ∧ (State.tagComplete s d opnd comp t branch ln).cams =
    s.cams ∧ (State.tagComplete s d opnd comp t branch ln).camStg = s.camStg ∧ (State.tagComplete s d opnd comp t branch
    ln).zones = s.zones ∧ (State.tagComplete s d opnd comp t branch ln).steps = s.steps ∧ (State.tagComplete s d opnd comp
    t branch ln).encs = s.encs ∧ (State.tagComplete s d opnd comp t branch ln).net = s.net ∧ (State.tagComplete s d opnd
    comp t branch ln).dsp = s.dsp ∧ (State.tagComplete s d opnd comp t branch ln).red = s.red ∧ (State.tagComplete s d opnd
    comp t branch ln).saf = s.saf ∧ (State.tagComplete s d opnd comp t branch ln).fio = s.fio ∧ (State.tagComplete s d opnd
    comp t branch ln).cap = s.cap ∧ (State.tagComplete s d opnd comp t branch ln).host = s.host ∧ (State.tagComplete s d
    opnd comp t branch ln).evt = s.evt ∧ (State.tagComplete s d opnd comp t branch ln).params = s.params ∧
    (State.tagComplete s d opnd comp t branch ln).cfg = s.cfg ∧ (State.tagComplete s d opnd comp t branch ln).pwr = s.pwr ∧
    (State.tagComplete s d opnd comp t branch ln).lgr = s.lgr ∧ (State.tagComplete s d opnd comp t branch ln).pending =
    s.pending :=
  let h := State.tagComplete_only s d opnd comp t branch ln
  ⟨h.out .frm rfl, h.out .axes rfl, h.out .lines rfl, h.out .cams rfl, h.out .camStg rfl, h.out .zones rfl, h.out .steps
    rfl, h.out .encs rfl, h.out .net rfl, h.out .dsp rfl, h.out .red rfl, h.out .saf rfl, h.out .fio rfl, h.out .cap rfl,
    h.out .host rfl, h.out .evt rfl, h.out .params rfl, h.out .cfg rfl, h.out .pwr rfl, h.out .lgr rfl, h.out .pending rfl⟩


@[simp] theorem State.mapDie_keeps (s : State) (d : Nat) (f : FioCh → FioCh) : (State.mapDie s d f).frm = s.frm ∧
    (State.mapDie s d f).axes = s.axes ∧ (State.mapDie s d f).lines = s.lines ∧ (State.mapDie s d f).cams = s.cams ∧
    (State.mapDie s d f).camStg = s.camStg ∧ (State.mapDie s d f).zones = s.zones ∧ (State.mapDie s d f).steps = s.steps ∧
    (State.mapDie s d f).encs = s.encs ∧ (State.mapDie s d f).net = s.net ∧ (State.mapDie s d f).dsp = s.dsp ∧
    (State.mapDie s d f).red = s.red ∧ (State.mapDie s d f).saf = s.saf ∧ (State.mapDie s d f).cap = s.cap ∧ (State.mapDie
    s d f).prf = s.prf ∧ (State.mapDie s d f).host = s.host ∧ (State.mapDie s d f).evt = s.evt ∧ (State.mapDie s d
    f).params = s.params ∧ (State.mapDie s d f).cfg = s.cfg ∧ (State.mapDie s d f).pwr = s.pwr ∧ (State.mapDie s d f).lgr =
    s.lgr ∧ (State.mapDie s d f).pending = s.pending :=
  let h := State.mapDie_only s d f
  ⟨h.out .frm rfl, h.out .axes rfl, h.out .lines rfl, h.out .cams rfl, h.out .camStg rfl, h.out .zones rfl, h.out .steps
    rfl, h.out .encs rfl, h.out .net rfl, h.out .dsp rfl, h.out .red rfl, h.out .saf rfl, h.out .cap rfl, h.out .prf rfl,
    h.out .host rfl, h.out .evt rfl, h.out .params rfl, h.out .cfg rfl, h.out .pwr rfl, h.out .lgr rfl, h.out .pending rfl⟩


@[simp] theorem State.mapMask_keeps (s : State) (m : Nat) (f : FioCh → FioCh) : (State.mapMask s m f).frm = s.frm ∧
    (State.mapMask s m f).axes = s.axes ∧ (State.mapMask s m f).lines = s.lines ∧ (State.mapMask s m f).cams = s.cams ∧
    (State.mapMask s m f).camStg = s.camStg ∧ (State.mapMask s m f).zones = s.zones ∧ (State.mapMask s m f).steps = s.steps
    ∧ (State.mapMask s m f).encs = s.encs ∧ (State.mapMask s m f).net = s.net ∧ (State.mapMask s m f).dsp = s.dsp ∧
    (State.mapMask s m f).red = s.red ∧ (State.mapMask s m f).saf = s.saf ∧ (State.mapMask s m f).cap = s.cap ∧
    (State.mapMask s m f).prf = s.prf ∧ (State.mapMask s m f).host = s.host ∧ (State.mapMask s m f).evt = s.evt ∧
    (State.mapMask s m f).params = s.params ∧ (State.mapMask s m f).cfg = s.cfg ∧ (State.mapMask s m f).pwr = s.pwr ∧
    (State.mapMask s m f).lgr = s.lgr ∧ (State.mapMask s m f).pending = s.pending :=
  let h := State.mapMask_only s m f
  ⟨h.out .frm rfl, h.out .axes rfl, h.out .lines rfl, h.out .cams rfl, h.out .camStg rfl, h.out .zones rfl, h.out .steps
    rfl, h.out .encs rfl, h.out .net rfl, h.out .dsp rfl, h.out .red rfl, h.out .saf rfl, h.out .cap rfl, h.out .prf rfl,
    h.out .host rfl, h.out .evt rfl, h.out .params rfl, h.out .cfg rfl, h.out .pwr rfl, h.out .lgr rfl, h.out .pending rfl⟩


@[simp] theorem State.loseSync_keeps (s : State) (k : Nat) : (State.loseSync s k).frm = s.frm ∧ (State.loseSync s k).axes =
    s.axes ∧ (State.loseSync s k).lines = s.lines ∧ (State.loseSync s k).cams = s.cams ∧ (State.loseSync s k).camStg =
    s.camStg ∧ (State.loseSync s k).zones = s.zones ∧ (State.loseSync s k).steps = s.steps ∧ (State.loseSync s k).encs =
    s.encs ∧ (State.loseSync s k).dsp = s.dsp ∧ (State.loseSync s k).red = s.red ∧ (State.loseSync s k).saf = s.saf ∧
    (State.loseSync s k).fio = s.fio ∧ (State.loseSync s k).host = s.host ∧ (State.loseSync s k).params = s.params ∧
    (State.loseSync s k).cfg = s.cfg ∧ (State.loseSync s k).pwr = s.pwr ∧ (State.loseSync s k).pending = s.pending :=
  let h := State.loseSync_only s k
  ⟨h.out .frm rfl, h.out .axes rfl, h.out .lines rfl, h.out .cams rfl, h.out .camStg rfl, h.out .zones rfl, h.out .steps
    rfl, h.out .encs rfl, h.out .dsp rfl, h.out .red rfl, h.out .saf rfl, h.out .fio rfl, h.out .host rfl, h.out .params
    rfl, h.out .cfg rfl, h.out .pwr rfl, h.out .pending rfl⟩


@[simp] theorem State.linkLost_keeps (s : State) : (State.linkLost s).frm = s.frm ∧ (State.linkLost s).axes = s.axes ∧
    (State.linkLost s).lines = s.lines ∧ (State.linkLost s).cams = s.cams ∧ (State.linkLost s).camStg = s.camStg ∧
    (State.linkLost s).zones = s.zones ∧ (State.linkLost s).steps = s.steps ∧ (State.linkLost s).encs = s.encs ∧
    (State.linkLost s).net = s.net ∧ (State.linkLost s).dsp = s.dsp ∧ (State.linkLost s).red = s.red ∧ (State.linkLost
    s).saf = s.saf ∧ (State.linkLost s).fio = s.fio ∧ (State.linkLost s).cap = s.cap ∧ (State.linkLost s).prf = s.prf ∧
    (State.linkLost s).evt = s.evt ∧ (State.linkLost s).params = s.params ∧ (State.linkLost s).cfg = s.cfg ∧
    (State.linkLost s).lgr = s.lgr ∧ (State.linkLost s).pending = s.pending :=
  let h := State.linkLost_only s
  ⟨h.out .frm rfl, h.out .axes rfl, h.out .lines rfl, h.out .cams rfl, h.out .camStg rfl, h.out .zones rfl, h.out .steps
    rfl, h.out .encs rfl, h.out .net rfl, h.out .dsp rfl, h.out .red rfl, h.out .saf rfl, h.out .fio rfl, h.out .cap rfl,
    h.out .prf rfl, h.out .evt rfl, h.out .params rfl, h.out .cfg rfl, h.out .lgr rfl, h.out .pending rfl⟩


@[simp] theorem State.capWrite_keeps (s : State) (a : Nat) (bs : List Byte) : (State.capWrite s a bs).frm = s.frm ∧
    (State.capWrite s a bs).axes = s.axes ∧ (State.capWrite s a bs).lines = s.lines ∧ (State.capWrite s a bs).cams = s.cams
    ∧ (State.capWrite s a bs).camStg = s.camStg ∧ (State.capWrite s a bs).zones = s.zones ∧ (State.capWrite s a bs).steps =
    s.steps ∧ (State.capWrite s a bs).encs = s.encs ∧ (State.capWrite s a bs).net = s.net ∧ (State.capWrite s a bs).dsp =
    s.dsp ∧ (State.capWrite s a bs).red = s.red ∧ (State.capWrite s a bs).saf = s.saf ∧ (State.capWrite s a bs).fio = s.fio
    ∧ (State.capWrite s a bs).prf = s.prf ∧ (State.capWrite s a bs).host = s.host ∧ (State.capWrite s a bs).evt = s.evt ∧
    (State.capWrite s a bs).params = s.params ∧ (State.capWrite s a bs).cfg = s.cfg ∧ (State.capWrite s a bs).pwr = s.pwr ∧
    (State.capWrite s a bs).lgr = s.lgr ∧ (State.capWrite s a bs).pending = s.pending :=
  let h := State.capWrite_only s a bs
  ⟨h.out .frm rfl, h.out .axes rfl, h.out .lines rfl, h.out .cams rfl, h.out .camStg rfl, h.out .zones rfl, h.out .steps
    rfl, h.out .encs rfl, h.out .net rfl, h.out .dsp rfl, h.out .red rfl, h.out .saf rfl, h.out .fio rfl, h.out .prf rfl,
    h.out .host rfl, h.out .evt rfl, h.out .params rfl, h.out .cfg rfl, h.out .pwr rfl, h.out .lgr rfl, h.out .pending rfl⟩


@[simp] theorem State.recEnd_keeps (s : State) (trunc : Bool) (next : CapSt) : (State.recEnd s trunc next).frm = s.frm ∧
    (State.recEnd s trunc next).axes = s.axes ∧ (State.recEnd s trunc next).lines = s.lines ∧ (State.recEnd s trunc
    next).cams = s.cams ∧ (State.recEnd s trunc next).camStg = s.camStg ∧ (State.recEnd s trunc next).zones = s.zones ∧
    (State.recEnd s trunc next).steps = s.steps ∧ (State.recEnd s trunc next).encs = s.encs ∧ (State.recEnd s trunc
    next).net = s.net ∧ (State.recEnd s trunc next).dsp = s.dsp ∧ (State.recEnd s trunc next).red = s.red ∧ (State.recEnd s
    trunc next).saf = s.saf ∧ (State.recEnd s trunc next).fio = s.fio ∧ (State.recEnd s trunc next).host = s.host ∧
    (State.recEnd s trunc next).params = s.params ∧ (State.recEnd s trunc next).cfg = s.cfg ∧ (State.recEnd s trunc
    next).pwr = s.pwr ∧ (State.recEnd s trunc next).lgr = s.lgr ∧ (State.recEnd s trunc next).pending = s.pending :=
  let h := State.recEnd_only s trunc next
  ⟨h.out .frm rfl, h.out .axes rfl, h.out .lines rfl, h.out .cams rfl, h.out .camStg rfl, h.out .zones rfl, h.out .steps
    rfl, h.out .encs rfl, h.out .net rfl, h.out .dsp rfl, h.out .red rfl, h.out .saf rfl, h.out .fio rfl, h.out .host rfl,
    h.out .params rfl, h.out .cfg rfl, h.out .pwr rfl, h.out .lgr rfl, h.out .pending rfl⟩


@[simp] theorem State.capHalt_keeps (s : State) (next : CapSt) : (State.capHalt s next).frm = s.frm ∧ (State.capHalt s
    next).axes = s.axes ∧ (State.capHalt s next).lines = s.lines ∧ (State.capHalt s next).cams = s.cams ∧ (State.capHalt s
    next).camStg = s.camStg ∧ (State.capHalt s next).zones = s.zones ∧ (State.capHalt s next).steps = s.steps ∧
    (State.capHalt s next).encs = s.encs ∧ (State.capHalt s next).net = s.net ∧ (State.capHalt s next).dsp = s.dsp ∧
    (State.capHalt s next).red = s.red ∧ (State.capHalt s next).saf = s.saf ∧ (State.capHalt s next).fio = s.fio ∧
    (State.capHalt s next).host = s.host ∧ (State.capHalt s next).params = s.params ∧ (State.capHalt s next).cfg = s.cfg ∧
    (State.capHalt s next).pwr = s.pwr ∧ (State.capHalt s next).lgr = s.lgr ∧ (State.capHalt s next).pending = s.pending :=
  let h := State.capHalt_only s next
  ⟨h.out .frm rfl, h.out .axes rfl, h.out .lines rfl, h.out .cams rfl, h.out .camStg rfl, h.out .zones rfl, h.out .steps
    rfl, h.out .encs rfl, h.out .net rfl, h.out .dsp rfl, h.out .red rfl, h.out .saf rfl, h.out .fio rfl, h.out .host rfl,
    h.out .params rfl, h.out .cfg rfl, h.out .pwr rfl, h.out .lgr rfl, h.out .pending rfl⟩


@[simp] theorem State.outsOpen_keeps (s : State) : (State.outsOpen s).frm = s.frm ∧ (State.outsOpen s).axes = s.axes ∧
    (State.outsOpen s).lines = s.lines ∧ (State.outsOpen s).cams = s.cams ∧ (State.outsOpen s).camStg = s.camStg ∧
    (State.outsOpen s).zones = s.zones ∧ (State.outsOpen s).steps = s.steps ∧ (State.outsOpen s).encs = s.encs ∧
    (State.outsOpen s).net = s.net ∧ (State.outsOpen s).dsp = s.dsp ∧ (State.outsOpen s).red = s.red ∧ (State.outsOpen
    s).fio = s.fio ∧ (State.outsOpen s).cap = s.cap ∧ (State.outsOpen s).prf = s.prf ∧ (State.outsOpen s).host = s.host ∧
    (State.outsOpen s).evt = s.evt ∧ (State.outsOpen s).params = s.params ∧ (State.outsOpen s).cfg = s.cfg ∧
    (State.outsOpen s).pwr = s.pwr ∧ (State.outsOpen s).lgr = s.lgr ∧ (State.outsOpen s).pending = s.pending :=
  let h := State.outsOpen_only s
  ⟨h.out .frm rfl, h.out .axes rfl, h.out .lines rfl, h.out .cams rfl, h.out .camStg rfl, h.out .zones rfl, h.out .steps
    rfl, h.out .encs rfl, h.out .net rfl, h.out .dsp rfl, h.out .red rfl, h.out .fio rfl, h.out .cap rfl, h.out .prf rfl,
    h.out .host rfl, h.out .evt rfl, h.out .params rfl, h.out .cfg rfl, h.out .pwr rfl, h.out .lgr rfl, h.out .pending rfl⟩


@[simp] theorem State.enterSto_keeps (s : State) (g reason : Nat) (fail : Bool) : (State.enterSto s g reason fail).frm =
    s.frm ∧ (State.enterSto s g reason fail).axes = s.axes ∧ (State.enterSto s g reason fail).lines = s.lines ∧
    (State.enterSto s g reason fail).cams = s.cams ∧ (State.enterSto s g reason fail).camStg = s.camStg ∧ (State.enterSto s
    g reason fail).zones = s.zones ∧ (State.enterSto s g reason fail).steps = s.steps ∧ (State.enterSto s g reason
    fail).encs = s.encs ∧ (State.enterSto s g reason fail).net = s.net ∧ (State.enterSto s g reason fail).dsp = s.dsp ∧
    (State.enterSto s g reason fail).red = s.red ∧ (State.enterSto s g reason fail).fio = s.fio ∧ (State.enterSto s g
    reason fail).host = s.host ∧ (State.enterSto s g reason fail).params = s.params ∧ (State.enterSto s g reason fail).cfg
    = s.cfg ∧ (State.enterSto s g reason fail).pwr = s.pwr ∧ (State.enterSto s g reason fail).pending = s.pending :=
  let h := State.enterSto_only s g reason fail
  ⟨h.out .frm rfl, h.out .axes rfl, h.out .lines rfl, h.out .cams rfl, h.out .camStg rfl, h.out .zones rfl, h.out .steps
    rfl, h.out .encs rfl, h.out .net rfl, h.out .dsp rfl, h.out .red rfl, h.out .fio rfl, h.out .host rfl, h.out .params
    rfl, h.out .cfg rfl, h.out .pwr rfl, h.out .pending rfl⟩


@[simp] theorem State.enterSs1_keeps (s : State) (g : Nat) : (State.enterSs1 s g).frm = s.frm ∧ (State.enterSs1 s g).axes =
    s.axes ∧ (State.enterSs1 s g).lines = s.lines ∧ (State.enterSs1 s g).cams = s.cams ∧ (State.enterSs1 s g).camStg =
    s.camStg ∧ (State.enterSs1 s g).zones = s.zones ∧ (State.enterSs1 s g).steps = s.steps ∧ (State.enterSs1 s g).encs =
    s.encs ∧ (State.enterSs1 s g).net = s.net ∧ (State.enterSs1 s g).dsp = s.dsp ∧ (State.enterSs1 s g).red = s.red ∧
    (State.enterSs1 s g).fio = s.fio ∧ (State.enterSs1 s g).host = s.host ∧ (State.enterSs1 s g).params = s.params ∧
    (State.enterSs1 s g).cfg = s.cfg ∧ (State.enterSs1 s g).pwr = s.pwr ∧ (State.enterSs1 s g).pending = s.pending :=
  let h := State.enterSs1_only s g
  ⟨h.out .frm rfl, h.out .axes rfl, h.out .lines rfl, h.out .cams rfl, h.out .camStg rfl, h.out .zones rfl, h.out .steps
    rfl, h.out .encs rfl, h.out .net rfl, h.out .dsp rfl, h.out .red rfl, h.out .fio rfl, h.out .host rfl, h.out .params
    rfl, h.out .cfg rfl, h.out .pwr rfl, h.out .pending rfl⟩


@[simp] theorem State.ledBreak_keeps (s : State) (l kind i d : Nat) (diff : Int) : (State.ledBreak s l kind i d diff).frm =
    s.frm ∧ (State.ledBreak s l kind i d diff).axes = s.axes ∧ (State.ledBreak s l kind i d diff).lines = s.lines ∧
    (State.ledBreak s l kind i d diff).cams = s.cams ∧ (State.ledBreak s l kind i d diff).camStg = s.camStg ∧
    (State.ledBreak s l kind i d diff).zones = s.zones ∧ (State.ledBreak s l kind i d diff).steps = s.steps ∧
    (State.ledBreak s l kind i d diff).encs = s.encs ∧ (State.ledBreak s l kind i d diff).net = s.net ∧ (State.ledBreak s l
    kind i d diff).dsp = s.dsp ∧ (State.ledBreak s l kind i d diff).red = s.red ∧ (State.ledBreak s l kind i d diff).saf =
    s.saf ∧ (State.ledBreak s l kind i d diff).fio = s.fio ∧ (State.ledBreak s l kind i d diff).host = s.host ∧
    (State.ledBreak s l kind i d diff).params = s.params ∧ (State.ledBreak s l kind i d diff).cfg = s.cfg ∧ (State.ledBreak
    s l kind i d diff).pwr = s.pwr ∧ (State.ledBreak s l kind i d diff).pending = s.pending :=
  let h := State.ledBreak_only s l kind i d diff
  ⟨h.out .frm rfl, h.out .axes rfl, h.out .lines rfl, h.out .cams rfl, h.out .camStg rfl, h.out .zones rfl, h.out .steps
    rfl, h.out .encs rfl, h.out .net rfl, h.out .dsp rfl, h.out .red rfl, h.out .saf rfl, h.out .fio rfl, h.out .host rfl,
    h.out .params rfl, h.out .cfg rfl, h.out .pwr rfl, h.out .pending rfl⟩


@[simp] theorem State.closeLedger_keeps (s : State) (l cause : Nat) : (State.closeLedger s l cause).frm = s.frm ∧
    (State.closeLedger s l cause).axes = s.axes ∧ (State.closeLedger s l cause).lines = s.lines ∧ (State.closeLedger s l
    cause).cams = s.cams ∧ (State.closeLedger s l cause).camStg = s.camStg ∧ (State.closeLedger s l cause).zones = s.zones
    ∧ (State.closeLedger s l cause).steps = s.steps ∧ (State.closeLedger s l cause).encs = s.encs ∧ (State.closeLedger s l
    cause).net = s.net ∧ (State.closeLedger s l cause).dsp = s.dsp ∧ (State.closeLedger s l cause).red = s.red ∧
    (State.closeLedger s l cause).saf = s.saf ∧ (State.closeLedger s l cause).fio = s.fio ∧ (State.closeLedger s l
    cause).host = s.host ∧ (State.closeLedger s l cause).params = s.params ∧ (State.closeLedger s l cause).cfg = s.cfg ∧
    (State.closeLedger s l cause).pwr = s.pwr ∧ (State.closeLedger s l cause).pending = s.pending :=
  let h := State.closeLedger_only s l cause
  ⟨h.out .frm rfl, h.out .axes rfl, h.out .lines rfl, h.out .cams rfl, h.out .camStg rfl, h.out .zones rfl, h.out .steps
    rfl, h.out .encs rfl, h.out .net rfl, h.out .dsp rfl, h.out .red rfl, h.out .saf rfl, h.out .fio rfl, h.out .host rfl,
    h.out .params rfl, h.out .cfg rfl, h.out .pwr rfl, h.out .pending rfl⟩


@[simp] theorem State.openLedger_keeps (s : State) (l : Nat) : (State.openLedger s l).frm = s.frm ∧ (State.openLedger s
    l).axes = s.axes ∧ (State.openLedger s l).lines = s.lines ∧ (State.openLedger s l).cams = s.cams ∧ (State.openLedger s
    l).camStg = s.camStg ∧ (State.openLedger s l).zones = s.zones ∧ (State.openLedger s l).steps = s.steps ∧
    (State.openLedger s l).encs = s.encs ∧ (State.openLedger s l).net = s.net ∧ (State.openLedger s l).dsp = s.dsp ∧
    (State.openLedger s l).red = s.red ∧ (State.openLedger s l).saf = s.saf ∧ (State.openLedger s l).fio = s.fio ∧
    (State.openLedger s l).cap = s.cap ∧ (State.openLedger s l).prf = s.prf ∧ (State.openLedger s l).host = s.host ∧
    (State.openLedger s l).evt = s.evt ∧ (State.openLedger s l).params = s.params ∧ (State.openLedger s l).cfg = s.cfg ∧
    (State.openLedger s l).pwr = s.pwr ∧ (State.openLedger s l).pending = s.pending :=
  let h := State.openLedger_only s l
  ⟨h.out .frm rfl, h.out .axes rfl, h.out .lines rfl, h.out .cams rfl, h.out .camStg rfl, h.out .zones rfl, h.out .steps
    rfl, h.out .encs rfl, h.out .net rfl, h.out .dsp rfl, h.out .red rfl, h.out .saf rfl, h.out .fio rfl, h.out .cap rfl,
    h.out .prf rfl, h.out .host rfl, h.out .evt rfl, h.out .params rfl, h.out .cfg rfl, h.out .pwr rfl, h.out .pending rfl⟩


end Sys2Proof.Machine
end

