-- ==== Sys2Proof/Laws/Lifecycle.lean ====
section
/-! SUPPORT. What keeps the lifecycle state and the change that awaits a reset (R421) -/

set_option linter.unusedTactic false
set_option linter.unreachableTactic false

namespace Sys2Proof.Machine

/-- The lifecycle state and the change that awaits a reset are as they were. -/
structure LcySame (s t : State) : Prop where
  out : t.cfg.lcy = s.cfg.lcy ∧ t.cfg.lcyNext = s.cfg.lcyNext

/-- A meaning answers a next state so related to s. -/
structure AnswersLcy (s : State) (o : Out) : Prop where
  out : ∃ t, o = .next t ∧ LcySame s t

theorem LcySame.refl (s : State) : LcySame s s := ⟨rfl, rfl⟩

theorem LcySame.trans {s t u : State} (h : LcySame s t) (g : LcySame t u) : LcySame s u := ⟨g.out.1.trans h.out.1, g.out.2.trans h.out.2⟩

theorem LcySame.step {s t u : State} (g : LcySame t u) (h : LcySame s t) : LcySame s u := h.trans g

theorem LcySame.only {v : List Part} {s t u : State} (g : Only v t u) (hv : v.contains Part.cfg = false) (h : LcySame s t) : LcySame s u :=
  ⟨(g.out .cfg hv : u.cfg = t.cfg) ▸ h.out⟩

theorem LcySame.ite {s a b : State} {c : Prop} [Decidable c] (ha : LcySame s a) (hb : LcySame s b) : LcySame s (if c then a else b) := by
  split <;> assumption

theorem LcySame.foldl {α : Type} {s : State} {f : State → α → State} {l : List α} {x : State}
    (hf : ∀ y a, LcySame s y → LcySame s (f y a)) (hx : LcySame s x) : LcySame s (l.foldl f x) := by
  induction l generalizing x with
  | nil => exact hx
  | cons a l ih => exact ih (hf x a hx)

theorem LcySame.eq_fst {α : Type} {t a : State} {p : State × α} {b : α} (h : LcySame t p.1) (e : p = (a, b)) : LcySame t a := by
  subst e; exact h

theorem LcySame.eq_snd {α : Type} {t a : State} {p : α × State} {b : α} (h : LcySame t p.2) (e : p = (b, a)) : LcySame t a := by
  subst e; exact h

theorem AnswersLcy.next {s t : State} (h : LcySame s t) : AnswersLcy s (.next t) := ⟨t, rfl, h⟩

theorem LcySame.rfl {a : Cfg} : a.lcy = a.lcy ∧ a.lcyNext = a.lcyNext := ⟨Eq.refl _, Eq.refl _⟩

theorem LcySame.upd {s x y : State} (h : LcySame s x) (g : y.cfg.lcy = x.cfg.lcy ∧ y.cfg.lcyNext = x.cfg.lcyNext) : LcySame s y :=
  ⟨g.1.trans h.out.1, g.2.trans h.out.2⟩


theorem LcySame.frm {s x : State} {v0 : Frm} (h : LcySame s x) :
    LcySame s { x with frm := v0 } := by
  exact LcySame.upd h LcySame.rfl

theorem LcySame.axes {s x : State} {v0 : Tbl Axis} (h : LcySame s x) :
    LcySame s { x with axes := v0 } := by
  exact LcySame.upd h LcySame.rfl

theorem LcySame.lines {s x : State} {v0 : Tbl Line} (h : LcySame s x) :
    LcySame s { x with lines := v0 } := by
  exact LcySame.upd h LcySame.rfl

theorem LcySame.cams {s x : State} {v0 : Tbl CamTable} (h : LcySame s x) :
    LcySame s { x with cams := v0 } := by
  exact LcySame.upd h LcySame.rfl

theorem LcySame.camStg {s x : State} {v0 : Tbl (List Host.Cell)} (h : LcySame s x) :
    LcySame s { x with camStg := v0 } := by
  exact LcySame.upd h LcySame.rfl

theorem LcySame.zones {s x : State} {v0 : Tbl Zone} (h : LcySame s x) :
    LcySame s { x with zones := v0 } := by
  exact LcySame.upd h LcySame.rfl

theorem LcySame.steps {s x : State} {v0 : Tbl StepCh} (h : LcySame s x) :
    LcySame s { x with steps := v0 } := by
  exact LcySame.upd h LcySame.rfl

theorem LcySame.encs {s x : State} {v0 : Tbl Enc} (h : LcySame s x) :
    LcySame s { x with encs := v0 } := by
  exact LcySame.upd h LcySame.rfl

theorem LcySame.net {s x : State} {v0 : Net} (h : LcySame s x) :
    LcySame s { x with net := v0 } := by
  exact LcySame.upd h LcySame.rfl

theorem LcySame.dsp {s x : State} {v0 : Dsp} (h : LcySame s x) :
    LcySame s { x with dsp := v0 } := by
  exact LcySame.upd h LcySame.rfl

theorem LcySame.red {s x : State} {v0 : Red} (h : LcySame s x) :
    LcySame s { x with red := v0 } := by
  exact LcySame.upd h LcySame.rfl

theorem LcySame.saf {s x : State} {v0 : Saf} (h : LcySame s x) :
    LcySame s { x with saf := v0 } := by
  exact LcySame.upd h LcySame.rfl

theorem LcySame.fio {s x : State} {v0 : Fio} (h : LcySame s x) :
    LcySame s { x with fio := v0 } := by
  exact LcySame.upd h LcySame.rfl

theorem LcySame.cap {s x : State} {v0 : Cap} (h : LcySame s x) :
    LcySame s { x with cap := v0 } := by
  exact LcySame.upd h LcySame.rfl

theorem LcySame.prf {s x : State} {v0 : Prf} (h : LcySame s x) :
    LcySame s { x with prf := v0 } := by
  exact LcySame.upd h LcySame.rfl

theorem LcySame.host {s x : State} {v0 : Hst} (h : LcySame s x) :
    LcySame s { x with host := v0 } := by
  exact LcySame.upd h LcySame.rfl

theorem LcySame.evt {s x : State} {v0 : Evt} (h : LcySame s x) :
    LcySame s { x with evt := v0 } := by
  exact LcySame.upd h LcySame.rfl

theorem LcySame.params {s x : State} {v0 : Tbl W64} (h : LcySame s x) :
    LcySame s { x with params := v0 } := by
  exact LcySame.upd h LcySame.rfl

theorem LcySame.cfg {s x : State} {v0 : Cfg} (g : v0.lcy = x.cfg.lcy ∧ v0.lcyNext = x.cfg.lcyNext) (h : LcySame s x) :
    LcySame s { x with cfg := v0 } := by
  exact LcySame.upd h g

theorem LcySame.pwr {s x : State} {v0 : Pwr} (h : LcySame s x) :
    LcySame s { x with pwr := v0 } := by
  exact LcySame.upd h LcySame.rfl

theorem LcySame.lgr {s x : State} {v0 : Lgr} (h : LcySame s x) :
    LcySame s { x with lgr := v0 } := by
  exact LcySame.upd h LcySame.rfl

theorem LcySame.pending {s x : State} {v0 : List Instr} (h : LcySame s x) :
    LcySame s { x with pending := v0 } := by
  exact LcySame.upd h LcySame.rfl

theorem LcySame.axes_lines_cams_zones_params {s x : State} {v0 : Tbl Axis} {v1 : Tbl Line} {v2 : Tbl CamTable} {v3 : Tbl Zone} {v4 : Tbl W64} (h : LcySame s x) :
    LcySame s { x with axes := v0, lines := v1, cams := v2, zones := v3, params := v4 } := by
  exact LcySame.upd h LcySame.rfl

theorem LcySame.axes_lines_zones {s x : State} {v0 : Tbl Axis} {v1 : Tbl Line} {v2 : Tbl Zone} (h : LcySame s x) :
    LcySame s { x with axes := v0, lines := v1, zones := v2 } := by
  exact LcySame.upd h LcySame.rfl

theorem LcySame.cams_camStg_evt_params {s x : State} {v0 : Tbl CamTable} {v1 : Tbl (List Host.Cell)} {v2 : Evt} {v3 : Tbl W64} (h : LcySame s x) :
    LcySame s { x with cams := v0, camStg := v1, evt := v2, params := v3 } := by
  exact LcySame.upd h LcySame.rfl

theorem LcySame.dsp_prf {s x : State} {v0 : Dsp} {v1 : Prf} (h : LcySame s x) :
    LcySame s { x with dsp := v0, prf := v1 } := by
  exact LcySame.upd h LcySame.rfl

theorem LcySame.fio_cap {s x : State} {v0 : Fio} {v1 : Cap} (h : LcySame s x) :
    LcySame s { x with fio := v0, cap := v1 } := by
  exact LcySame.upd h LcySame.rfl

theorem LcySame.frm_cams {s x : State} {v0 : Frm} {v1 : Tbl CamTable} (h : LcySame s x) :
    LcySame s { x with frm := v0, cams := v1 } := by
  exact LcySame.upd h LcySame.rfl

theorem LcySame.frm_dsp {s x : State} {v0 : Frm} {v1 : Dsp} (h : LcySame s x) :
    LcySame s { x with frm := v0, dsp := v1 } := by
  exact LcySame.upd h LcySame.rfl

theorem LcySame.frm_evt_pwr {s x : State} {v0 : Frm} {v1 : Evt} {v2 : Pwr} (h : LcySame s x) :
    LcySame s { x with frm := v0, evt := v1, pwr := v2 } := by
  exact LcySame.upd h LcySame.rfl

theorem LcySame.frm_fio {s x : State} {v0 : Frm} {v1 : Fio} (h : LcySame s x) :
    LcySame s { x with frm := v0, fio := v1 } := by
  exact LcySame.upd h LcySame.rfl

theorem LcySame.frm_host_cfg_pwr {s x : State} {v0 : Frm} {v1 : Hst} {v2 : Cfg} {v3 : Pwr} (g : v2.lcy = x.cfg.lcy ∧ v2.lcyNext = x.cfg.lcyNext) (h : LcySame s x) :
    LcySame s { x with frm := v0, host := v1, cfg := v2, pwr := v3 } := by
  exact LcySame.upd h g

theorem LcySame.frm_net {s x : State} {v0 : Frm} {v1 : Net} (h : LcySame s x) :
    LcySame s { x with frm := v0, net := v1 } := by
  exact LcySame.upd h LcySame.rfl

theorem LcySame.frm_net_evt_cfg {s x : State} {v0 : Frm} {v1 : Net} {v2 : Evt} {v3 : Cfg} (g : v3.lcy = x.cfg.lcy ∧ v3.lcyNext = x.cfg.lcyNext) (h : LcySame s x) :
    LcySame s { x with frm := v0, net := v1, evt := v2, cfg := v3 } := by
  exact LcySame.upd h g

theorem LcySame.frm_net_red {s x : State} {v0 : Frm} {v1 : Net} {v2 : Red} (h : LcySame s x) :
    LcySame s { x with frm := v0, net := v1, red := v2 } := by
  exact LcySame.upd h LcySame.rfl

theorem LcySame.host_pwr {s x : State} {v0 : Hst} {v1 : Pwr} (h : LcySame s x) :
    LcySame s { x with host := v0, pwr := v1 } := by
  exact LcySame.upd h LcySame.rfl

theorem LcySame.lines_red_evt {s x : State} {v0 : Tbl Line} {v1 : Red} {v2 : Evt} (h : LcySame s x) :
    LcySame s { x with lines := v0, red := v1, evt := v2 } := by
  exact LcySame.upd h LcySame.rfl

theorem LcySame.net_fio {s x : State} {v0 : Net} {v1 : Fio} (h : LcySame s x) :
    LcySame s { x with net := v0, fio := v1 } := by
  exact LcySame.upd h LcySame.rfl

theorem LcySame.net_red {s x : State} {v0 : Net} {v1 : Red} (h : LcySame s x) :
    LcySame s { x with net := v0, red := v1 } := by
  exact LcySame.upd h LcySame.rfl

theorem LcySame.net_red_evt {s x : State} {v0 : Net} {v1 : Red} {v2 : Evt} (h : LcySame s x) :
    LcySame s { x with net := v0, red := v1, evt := v2 } := by
  exact LcySame.upd h LcySame.rfl

theorem LcySame.prf_pwr {s x : State} {v0 : Prf} {v1 : Pwr} (h : LcySame s x) :
    LcySame s { x with prf := v0, pwr := v1 } := by
  exact LcySame.upd h LcySame.rfl

theorem LcySame.pwr_lgr {s x : State} {v0 : Pwr} {v1 : Lgr} (h : LcySame s x) :
    LcySame s { x with pwr := v0, lgr := v1 } := by
  exact LcySame.upd h LcySame.rfl

theorem LcySame.red_cfg {s x : State} {v0 : Red} {v1 : Cfg} (g : v1.lcy = x.cfg.lcy ∧ v1.lcyNext = x.cfg.lcyNext) (h : LcySame s x) :
    LcySame s { x with red := v0, cfg := v1 } := by
  exact LcySame.upd h g

theorem LcySame.red_evt {s x : State} {v0 : Red} {v1 : Evt} (h : LcySame s x) :
    LcySame s { x with red := v0, evt := v1 } := by
  exact LcySame.upd h LcySame.rfl

theorem LcySame.saf_cfg {s x : State} {v0 : Saf} {v1 : Cfg} (g : v1.lcy = x.cfg.lcy ∧ v1.lcyNext = x.cfg.lcyNext) (h : LcySame s x) :
    LcySame s { x with saf := v0, cfg := v1 } := by
  exact LcySame.upd h g

theorem LcySame.saf_host_cfg {s x : State} {v0 : Saf} {v1 : Hst} {v2 : Cfg} (g : v2.lcy = x.cfg.lcy ∧ v2.lcyNext = x.cfg.lcyNext) (h : LcySame s x) :
    LcySame s { x with saf := v0, host := v1, cfg := v2 } := by
  exact LcySame.upd h g

theorem LcySame.saf_pwr {s x : State} {v0 : Saf} {v1 : Pwr} (h : LcySame s x) :
    LcySame s { x with saf := v0, pwr := v1 } := by
  exact LcySame.upd h LcySame.rfl

theorem LcySame.saf_pwr_lgr {s x : State} {v0 : Saf} {v1 : Pwr} {v2 : Lgr} (h : LcySame s x) :
    LcySame s { x with saf := v0, pwr := v1, lgr := v2 } := by
  exact LcySame.upd h LcySame.rfl

theorem State.serve_lcy (s : State) (op : Nat) (f : State → Nat → Nat → State) (hf : ∀ y m j, LcySame y (f y m j)) : LcySame s (State.serve s op f) := by
  unfold State.serve
  repeat (first
    | with_reducible exact LcySame.refl _
    | with_reducible assumption
    | with_reducible apply LcySame.step (hf ..)
    | ((with_reducible apply LcySame.only (State.take_only ..)); decide)
    | with_reducible refine LcySame.ite ?_ ?_
    | split
    | (dsimp -proj -beta only []; split))

theorem State.dropReq_lcy (s : State) (m j : Nat) : LcySame s (State.dropReq s m j) := by
  unfold State.dropReq
  repeat (first
    | with_reducible exact LcySame.refl _
    | with_reducible assumption
    | with_reducible refine LcySame.ite ?_ ?_
    | fail_if_no_progress with_reducible refine LcySame.saf_host_cfg ⟨Eq.refl _, Eq.refl _⟩ ?_
    | fail_if_no_progress with_reducible refine LcySame.saf ?_
    | fail_if_no_progress with_reducible refine LcySame.host ?_
    | fail_if_no_progress with_reducible refine LcySame.cfg ⟨Eq.refl _, Eq.refl _⟩ ?_
    | split
    | (dsimp -proj -beta only []; split))

theorem execMailboxTimeout_lcy (j : Fin 512) (s : State) : AnswersLcy s (execMailboxTimeout j s) := by
  unfold execMailboxTimeout
  repeat (first
    | with_reducible refine AnswersLcy.next ?_
    | with_reducible exact LcySame.refl _
    | with_reducible assumption
    | with_reducible apply LcySame.step (State.dropReq_lcy ..)
    | ((with_reducible apply LcySame.only (State.answer_only ..)); decide)
    | ((with_reducible apply LcySame.only (State.goto_only ..)); decide)
    | ((with_reducible apply LcySame.only (State.raiseDev_only ..)); decide)
    | with_reducible refine LcySame.ite ?_ ?_
    | split
    | (dsimp -proj -beta only []; split))

theorem State.roleChange_lcy (s : State) : LcySame s (State.roleChange s) := by
  unfold State.roleChange
  repeat (first
    | with_reducible exact LcySame.refl _
    | with_reducible assumption
    | with_reducible apply LcySame.step (State.dropReq_lcy ..)
    | ((with_reducible apply LcySame.only (State.answer_only ..)); decide)
    | with_reducible refine LcySame.ite ?_ ?_
    | with_reducible refine LcySame.foldl ?_ ?_
    | (intro _ _ _; try beta_reduce))

theorem State.safeStore_lcy (s : State) (off : Nat) (d : List Byte) : LcySame s (State.safeStore s off d) := by
  unfold State.safeStore
  repeat (first
    | with_reducible exact LcySame.refl _
    | with_reducible assumption
    | fail_if_no_progress with_reducible refine LcySame.saf_cfg ⟨Eq.refl _, Eq.refl _⟩ ?_
    | fail_if_no_progress with_reducible refine LcySame.saf ?_
    | fail_if_no_progress with_reducible refine LcySame.cfg ⟨Eq.refl _, Eq.refl _⟩ ?_)

theorem execSafeLoad_lcy (s : State) : AnswersLcy s (execSafeLoad s) := by
  unfold execSafeLoad
  repeat (first
    | with_reducible refine AnswersLcy.next ?_
    | with_reducible exact LcySame.refl _
    | with_reducible assumption
    | ((with_reducible apply LcySame.only (State.safeStored_only ..)); decide)
    | with_reducible apply LcySame.step (State.safeStore_lcy ..)
    | with_reducible refine State.serve_lcy _ _ _ ?_
    | (intro _ _ _; try beta_reduce)
    | ((with_reducible apply LcySame.only (State.answer_only ..)); decide)
    | with_reducible refine LcySame.ite ?_ ?_
    | fail_if_no_progress with_reducible refine LcySame.saf ?_)

theorem execSafeLoadEraseComplete_lcy (s : State) : AnswersLcy s (execSafeLoadEraseComplete s) := by
  unfold execSafeLoadEraseComplete
  repeat (first
    | with_reducible refine AnswersLcy.next ?_
    | with_reducible exact LcySame.refl _
    | with_reducible assumption
    | ((with_reducible apply LcySame.only (State.safeStored_only ..)); decide)
    | with_reducible apply LcySame.step (State.safeStore_lcy ..)
    | with_reducible refine LcySame.ite ?_ ?_
    | fail_if_no_progress with_reducible refine LcySame.saf ?_
    | fail_if_no_progress with_reducible refine LcySame.cfg ⟨Eq.refl _, Eq.refl _⟩ ?_
    | split
    | (dsimp -proj -beta only []; split))

theorem execSafeConfirm_lcy (s : State) : AnswersLcy s (execSafeConfirm s) := by
  unfold execSafeConfirm
  repeat (first
    | with_reducible refine AnswersLcy.next ?_
    | with_reducible exact LcySame.refl _
    | with_reducible assumption
    | ((with_reducible apply LcySame.only (State.runSet_only ..)); decide)
    | with_reducible refine State.serve_lcy _ _ _ ?_
    | (intro _ _ _; try beta_reduce)
    | ((with_reducible apply LcySame.only (State.answer_only ..)); decide)
    | ((with_reducible apply LcySame.only (State.dropSseq_only ..)); decide)
    | with_reducible refine LcySame.ite ?_ ?_
    | fail_if_no_progress with_reducible refine LcySame.saf_cfg ⟨Eq.refl _, Eq.refl _⟩ ?_
    | fail_if_no_progress with_reducible refine LcySame.saf ?_
    | fail_if_no_progress with_reducible refine LcySame.cfg ⟨Eq.refl _, Eq.refl _⟩ ?_)

theorem State.leaveHead_lcy (s : State) : LcySame s (State.leaveHead s) := by
  unfold State.leaveHead
  repeat (first
    | with_reducible exact LcySame.refl _
    | with_reducible assumption
    | ((with_reducible apply LcySame.only (State.discardHead_only ..)); decide)
    | ((with_reducible apply LcySame.only (State.stopKernels_only ..)); decide)
    | ((with_reducible apply LcySame.only (State.capRoleEnd_only ..)); decide)
    | with_reducible apply LcySame.step (State.roleChange_lcy ..)
    | ((with_reducible apply LcySame.only (State.closeLedgers_only ..)); decide)
    | ((with_reducible apply LcySame.only (State.openLedger_only ..)); decide)
    | ((with_reducible apply LcySame.only (State.standbyRole_only ..)); decide)
    | fail_if_no_progress with_reducible refine LcySame.net_fio ?_
    | fail_if_no_progress with_reducible refine LcySame.net ?_
    | fail_if_no_progress with_reducible refine LcySame.fio ?_)

theorem execForeignCsm_lcy (b : Fin 8) (bytes : List Byte) (x : Arrival) (s : State) : AnswersLcy s (execForeignCsm b bytes x s) := by
  unfold execForeignCsm
  repeat (first
    | with_reducible refine AnswersLcy.next ?_
    | with_reducible exact LcySame.refl _
    | with_reducible assumption
    | ((with_reducible apply LcySame.only (State.seeCsm_only ..)); decide)
    | ((with_reducible apply LcySame.only (State.earlyYield_only ..)); decide)
    | with_reducible apply LcySame.step (State.leaveHead_lcy ..)
    | ((with_reducible apply LcySame.only (State.rxFrame_only ..)); decide)
    | ((with_reducible apply LcySame.only (State.raiseDev_only ..)); decide)
    | ((with_reducible apply LcySame.only (State.raiseOnce_only ..)); decide)
    | with_reducible refine LcySame.ite ?_ ?_
    | fail_if_no_progress with_reducible refine LcySame.net ?_
    | split
    | (dsimp -proj -beta only []; split))

theorem execYieldSilence_lcy (s : State) : AnswersLcy s (execYieldSilence s) := by
  unfold execYieldSilence
  repeat (first
    | with_reducible refine AnswersLcy.next ?_
    | with_reducible exact LcySame.refl _
    | with_reducible assumption
    | with_reducible apply LcySame.step (State.leaveHead_lcy ..)
    | with_reducible refine LcySame.ite ?_ ?_)

theorem State.slotVerify_lcy (s : State) (c : Nat) : LcySame s (State.slotVerify s c) := by
  unfold State.slotVerify
  repeat (first
    | with_reducible exact LcySame.refl _
    | with_reducible assumption
    | ((with_reducible apply LcySame.only (State.ovlShow_only ..)); decide)
    | with_reducible refine LcySame.ite ?_ ?_
    | fail_if_no_progress with_reducible refine LcySame.cfg ⟨Eq.refl _, Eq.refl _⟩ ?_)

theorem State.slotStored_lcy (s : State) (c off : Nat) (d : List Byte) : LcySame s (State.slotStored s c off d) := by
  unfold State.slotStored
  repeat (first
    | with_reducible exact LcySame.refl _
    | with_reducible assumption
    | with_reducible apply LcySame.step (State.slotVerify_lcy ..)
    | with_reducible refine LcySame.ite ?_ ?_
    | fail_if_no_progress with_reducible refine LcySame.cfg ⟨Eq.refl _, Eq.refl _⟩ ?_
    | split
    | (dsimp -proj -beta only []; split))

theorem execCfgWrite_lcy (s : State) : AnswersLcy s (execCfgWrite s) := by
  unfold execCfgWrite
  repeat (first
    | with_reducible refine AnswersLcy.next ?_
    | with_reducible exact LcySame.refl _
    | with_reducible assumption
    | with_reducible apply LcySame.step (State.slotStored_lcy ..)
    | with_reducible refine State.serve_lcy _ _ _ ?_
    | (intro _ _ _; try beta_reduce)
    | ((with_reducible apply LcySame.only (State.answer_only ..)); decide)
    | with_reducible refine LcySame.ite ?_ ?_
    | fail_if_no_progress with_reducible refine LcySame.cfg ⟨Eq.refl _, Eq.refl _⟩ ?_
    | split
    | (dsimp -proj -beta only []; split))

theorem State.slotErase_lcy (s : State) (c : Nat) : LcySame s (State.slotErase s c) := by
  unfold State.slotErase
  repeat (first
    | with_reducible exact LcySame.refl _
    | with_reducible assumption
    | ((with_reducible apply LcySame.only (State.ovlShow_only ..)); decide)
    | with_reducible refine LcySame.ite ?_ ?_
    | fail_if_no_progress with_reducible refine LcySame.cfg ⟨Eq.refl _, Eq.refl _⟩ ?_
    | split
    | (dsimp -proj -beta only []; split))

theorem execFlashWriteComplete_lcy (s : State) : AnswersLcy s (execFlashWriteComplete s) := by
  unfold execFlashWriteComplete
  repeat (first
    | with_reducible refine AnswersLcy.next ?_
    | with_reducible exact LcySame.refl _
    | with_reducible assumption
    | with_reducible apply LcySame.step (State.slotErase_lcy ..)
    | with_reducible apply LcySame.step (State.slotStored_lcy ..)
    | ((with_reducible apply LcySame.only (State.answer_only ..)); decide)
    | fail_if_no_progress with_reducible refine LcySame.cfg ⟨Eq.refl _, Eq.refl _⟩ ?_
    | split
    | (dsimp -proj -beta only []; split))

theorem State.clearRun_lcy (s : State) : LcySame s (State.clearRun s) := by
  unfold State.clearRun
  repeat (first
    | with_reducible exact LcySame.refl _
    | with_reducible assumption
    | ((with_reducible apply LcySame.only (State.discardHead_only ..)); decide)
    | ((with_reducible apply LcySame.only (State.setRole_only ..)); decide)
    | fail_if_no_progress with_reducible refine LcySame.frm_net_evt_cfg ⟨Eq.refl _, Eq.refl _⟩ ?_
    | fail_if_no_progress with_reducible refine LcySame.axes_lines_cams_zones_params ?_
    | fail_if_no_progress with_reducible refine LcySame.frm ?_
    | fail_if_no_progress with_reducible refine LcySame.axes ?_
    | fail_if_no_progress with_reducible refine LcySame.lines ?_
    | fail_if_no_progress with_reducible refine LcySame.cams ?_
    | fail_if_no_progress with_reducible refine LcySame.zones ?_
    | fail_if_no_progress with_reducible refine LcySame.net ?_
    | fail_if_no_progress with_reducible refine LcySame.evt ?_
    | fail_if_no_progress with_reducible refine LcySame.params ?_
    | fail_if_no_progress with_reducible refine LcySame.cfg ⟨Eq.refl _, Eq.refl _⟩ ?_)

theorem State.endConfig_lcy (s : State) : LcySame s (State.endConfig s) := by
  unfold State.endConfig
  repeat (first
    | with_reducible exact LcySame.refl _
    | with_reducible assumption
    | with_reducible apply LcySame.step (State.clearRun_lcy ..)
    | ((with_reducible apply LcySame.only (State.stopKernels_only ..)); decide)
    | ((with_reducible apply LcySame.only (State.capHalt_only ..)); decide)
    | ((with_reducible apply LcySame.only (State.dropSseq_only ..)); decide)
    | ((with_reducible apply LcySame.only (State.closeLedgers_only ..)); decide)
    | with_reducible refine LcySame.ite ?_ ?_
    | fail_if_no_progress with_reducible refine LcySame.fio ?_)

theorem State.activate_lcy (s : State) (k : Nat) : LcySame s (State.activate s k) := by
  unfold State.activate
  repeat (first
    | with_reducible exact LcySame.refl _
    | with_reducible assumption
    | fail_if_no_progress with_reducible refine LcySame.cfg ⟨Eq.refl _, Eq.refl _⟩ ?_)

theorem State.switchTo_lcy (s : State) (k : Nat) : LcySame s (State.switchTo s k) := by
  unfold State.switchTo
  repeat (first
    | with_reducible exact LcySame.refl _
    | with_reducible assumption
    | with_reducible apply LcySame.step (State.endConfig_lcy ..)
    | with_reducible refine LcySame.ite ?_ ?_
    | fail_if_no_progress with_reducible refine LcySame.cfg ⟨Eq.refl _, Eq.refl _⟩ ?_)

theorem State.serveSlot_lcy (s : State) (p : Nat → Bool) (f : State → Nat → Nat → State) (hf : ∀ y m j, LcySame y (f y m j)) : LcySame s (State.serveSlot s p f) := by
  unfold State.serveSlot
  repeat (first
    | with_reducible exact LcySame.refl _
    | with_reducible assumption
    | with_reducible apply LcySame.step (hf ..)
    | ((with_reducible apply LcySame.only (State.take_only ..)); decide)
    | with_reducible refine LcySame.ite ?_ ?_
    | split
    | (dsimp -proj -beta only []; split))

theorem execCfgActivate_lcy (s : State) : AnswersLcy s (execCfgActivate s) := by
  unfold execCfgActivate
  repeat (first
    | with_reducible refine AnswersLcy.next ?_
    | with_reducible exact LcySame.refl _
    | with_reducible assumption
    | with_reducible refine State.serveSlot_lcy _ _ _ ?_
    | (intro _ _ _; try beta_reduce)
    | with_reducible apply LcySame.step (State.switchTo_lcy ..)
    | with_reducible apply LcySame.step (State.activate_lcy ..)
    | ((with_reducible apply LcySame.only (State.answer_only ..)); decide)
    | ((with_reducible apply LcySame.only (State.raiseDev_only ..)); decide)
    | with_reducible refine LcySame.ite ?_ ?_
    | fail_if_no_progress with_reducible refine LcySame.cfg ⟨Eq.refl _, Eq.refl _⟩ ?_)

theorem execFirmwareActivate_lcy (s : State) : AnswersLcy s (execFirmwareActivate s) := by
  unfold execFirmwareActivate
  repeat (first
    | with_reducible refine AnswersLcy.next ?_
    | with_reducible exact LcySame.refl _
    | with_reducible assumption
    | with_reducible refine State.serveSlot_lcy _ _ _ ?_
    | (intro _ _ _; try beta_reduce)
    | ((with_reducible apply LcySame.only (State.answer_only ..)); decide)
    | with_reducible refine LcySame.ite ?_ ?_
    | fail_if_no_progress with_reducible refine LcySame.cfg ⟨Eq.refl _, Eq.refl _⟩ ?_)

theorem execKeyProvision_lcy (s : State) : AnswersLcy s (execKeyProvision s) := by
  unfold execKeyProvision
  repeat (first
    | with_reducible refine AnswersLcy.next ?_
    | with_reducible exact LcySame.refl _
    | with_reducible assumption
    | with_reducible refine State.serve_lcy _ _ _ ?_
    | (intro _ _ _; try beta_reduce)
    | ((with_reducible apply LcySame.only (State.answer_only ..)); decide)
    | with_reducible refine LcySame.ite ?_ ?_
    | fail_if_no_progress with_reducible refine LcySame.cfg ⟨Eq.refl _, Eq.refl _⟩ ?_)

theorem State.wipe_lcy (s : State) : LcySame s (State.wipe s) := by
  unfold State.wipe
  repeat (first
    | with_reducible exact LcySame.refl _
    | with_reducible assumption
    | with_reducible apply LcySame.step (State.slotErase_lcy ..)
    | with_reducible refine LcySame.foldl ?_ ?_
    | (intro _ _ _; try beta_reduce)
    | fail_if_no_progress with_reducible refine LcySame.cfg ⟨Eq.refl _, Eq.refl _⟩ ?_)

theorem State.runFw_lcy (s : State) (f : Option Nat) : LcySame s (State.runFw s f) := by
  unfold State.runFw
  repeat (first
    | with_reducible exact LcySame.refl _
    | with_reducible assumption
    | fail_if_no_progress with_reducible refine LcySame.cfg ⟨Eq.refl _, Eq.refl _⟩ ?_
    | split
    | (dsimp -proj -beta only []; split))

theorem execBootStart_lcy (s : State) : AnswersLcy s (execBootStart s) := by
  unfold execBootStart
  repeat (first
    | with_reducible refine AnswersLcy.next ?_
    | with_reducible exact LcySame.refl _
    | with_reducible assumption
    | with_reducible apply LcySame.step (State.runFw_lcy ..)
    | ((with_reducible apply LcySame.only (State.retentionClosures_only ..)); decide)
    | ((with_reducible apply LcySame.only (State.raiseDev_only ..)); decide)
    | ((with_reducible apply LcySame.only (State.log_only ..)); decide)
    | with_reducible refine LcySame.ite ?_ ?_
    | fail_if_no_progress with_reducible refine LcySame.cfg ⟨Eq.refl _, Eq.refl _⟩ ?_
    | fail_if_no_progress with_reducible refine LcySame.pwr ?_)

theorem State.startConfig_lcy (s : State) (k : Nat) : LcySame s (State.startConfig s k) := by
  unfold State.startConfig
  repeat (first
    | with_reducible exact LcySame.refl _
    | with_reducible assumption
    | ((with_reducible apply LcySame.only (State.ioStart_only ..)); decide)
    | ((with_reducible apply LcySame.only (State.hostStart_only ..)); decide)
    | ((with_reducible apply LcySame.only (State.netStart_only ..)); decide)
    | ((with_reducible apply LcySame.only (State.enablePorts_only ..)); decide)
    | ((with_reducible apply LcySame.only (State.takeImage_only ..)); decide)
    | ((with_reducible apply LcySame.only (State.writeTasks_only ..)); decide)
    | ((with_reducible apply LcySame.only (State.initAxes_only ..)); decide)
    | ((with_reducible apply LcySame.only (State.ovlShow_only ..)); decide)
    | ((with_reducible apply LcySame.only (State.openLedger_only ..)); decide)
    | ((with_reducible apply LcySame.only (State.setRole_only ..)); decide)
    | with_reducible refine LcySame.ite ?_ ?_
    | with_reducible refine LcySame.foldl ?_ ?_
    | (intro _ _ _; try beta_reduce)
    | fail_if_no_progress with_reducible refine LcySame.red_cfg ⟨Eq.refl _, Eq.refl _⟩ ?_
    | fail_if_no_progress with_reducible refine LcySame.frm ?_
    | fail_if_no_progress with_reducible refine LcySame.red ?_
    | fail_if_no_progress with_reducible refine LcySame.cfg ⟨Eq.refl _, Eq.refl _⟩ ?_)

theorem State.refuseConfig_lcy (s : State) (k r : Nat) : LcySame s (State.refuseConfig s k r) := by
  unfold State.refuseConfig
  repeat (first
    | with_reducible exact LcySame.refl _
    | with_reducible assumption
    | ((with_reducible apply LcySame.only (State.raiseDev_only ..)); decide)
    | fail_if_no_progress with_reducible refine LcySame.cfg ⟨Eq.refl _, Eq.refl _⟩ ?_)

theorem execBaseConfigStart_lcy (s : State) : AnswersLcy s (execBaseConfigStart s) := by
  unfold execBaseConfigStart
  repeat (first
    | with_reducible refine AnswersLcy.next ?_
    | with_reducible exact LcySame.refl _
    | with_reducible assumption
    | with_reducible apply LcySame.step (State.refuseConfig_lcy ..)
    | with_reducible apply LcySame.step (State.startConfig_lcy ..)
    | with_reducible refine LcySame.ite ?_ ?_
    | split
    | (dsimp -proj -beta only []; split))

theorem State.decideCfg_lcy (s : State) (t : Taken) : LcySame s (State.decideCfg s t) := by
  unfold State.decideCfg
  repeat (first
    | with_reducible exact LcySame.refl _
    | with_reducible assumption
    | with_reducible apply LcySame.step (State.switchTo_lcy ..)
    | with_reducible apply LcySame.step (State.activate_lcy ..)
    | ((with_reducible apply LcySame.only (State.answer_only ..)); decide)
    | with_reducible refine LcySame.ite ?_ ?_)

theorem State.decideOne_lcy (s : State) (t : Taken) : LcySame s (State.decideOne s t) := by
  unfold State.decideOne
  repeat (first
    | with_reducible exact LcySame.refl _
    | with_reducible assumption
    | with_reducible apply LcySame.step (State.decideCfg_lcy ..)
    | ((with_reducible apply LcySame.only (State.decideOvl_only ..)); decide)
    | ((with_reducible apply LcySame.only (State.decideWrite_only ..)); decide)
    | ((with_reducible apply LcySame.only (State.answer_only ..)); decide)
    | with_reducible refine LcySame.ite ?_ ?_)

theorem State.decideTaken_lcy (s : State) : LcySame s (State.decideTaken s) := by
  unfold State.decideTaken
  repeat (first
    | with_reducible exact LcySame.refl _
    | with_reducible assumption
    | with_reducible apply LcySame.step (State.decideOne_lcy ..)
    | with_reducible refine LcySame.foldl ?_ ?_
    | (intro _ _ _; try beta_reduce))

theorem State.headBoundary_lcy (s : State) : LcySame s (State.headBoundary s) := by
  unfold State.headBoundary
  repeat (first
    | with_reducible exact LcySame.refl _
    | with_reducible assumption
    | ((with_reducible apply LcySame.only (State.axisBoundary_only ..)); decide)
    | ((with_reducible apply LcySame.only (State.startYield_only ..)); decide)
    | ((with_reducible apply LcySame.only (State.endStops_only ..)); decide)
    | with_reducible apply LcySame.step (State.decideTaken_lcy ..)
    | ((with_reducible apply LcySame.only (State.axAnswers_only ..)); decide)
    | ((with_reducible apply LcySame.only (Only.eq_fst (State.axRun_only ..) (by assumption))); decide)
    | ((with_reducible apply LcySame.only (State.axRun_only ..)); decide)
    | with_reducible refine LcySame.ite ?_ ?_
    | fail_if_no_progress with_reducible refine LcySame.evt ?_
    | split
    | (dsimp -proj -beta only []; split))

theorem State.otherBoundary_lcy (s : State) : LcySame s (State.otherBoundary s) := by
  unfold State.otherBoundary
  repeat (first
    | with_reducible exact LcySame.refl _
    | with_reducible assumption
    | with_reducible apply LcySame.step (State.decideTaken_lcy ..)
    | fail_if_no_progress with_reducible refine LcySame.red_evt ?_
    | fail_if_no_progress with_reducible refine LcySame.red ?_
    | fail_if_no_progress with_reducible refine LcySame.evt ?_)

theorem execTickTakesEffect_lcy (s : State) : AnswersLcy s (execTickTakesEffect s) := by
  unfold execTickTakesEffect
  repeat (first
    | with_reducible refine AnswersLcy.next ?_
    | with_reducible exact LcySame.refl _
    | with_reducible assumption
    | ((with_reducible apply LcySame.only (State.boundaryEnd_only ..)); decide)
    | ((with_reducible apply LcySame.only (State.ioBoundary_only ..)); decide)
    | ((with_reducible apply LcySame.only (State.fullClock_only ..)); decide)
    | with_reducible apply LcySame.step (State.otherBoundary_lcy ..)
    | with_reducible apply LcySame.step (State.headBoundary_lcy ..)
    | ((with_reducible apply LcySame.only (State.takeDecim_only ..)); decide)
    | with_reducible apply LcySame.step (State.switchTo_lcy ..)
    | ((with_reducible apply LcySame.only (State.gotoLatency_only ..)); decide)
    | with_reducible refine LcySame.ite ?_ ?_
    | fail_if_no_progress with_reducible refine LcySame.frm ?_
    | split
    | (dsimp -proj -beta only []; split))

end Sys2Proof.Machine
end

