-- ==== Sys2Proof/Laws/MemFlash.lean ====
section
/-! SUPPORT. Every operation keeps the flash canonical -/

set_option linter.unusedTactic false
set_option linter.unreachableTactic false

namespace Sys2Proof.Machine

/-- If the memory is canonical in s, it is in t. -/
structure FlashOk (s t : State) : Prop where
  out : Memory.wf flashByte s.cfg.flash = true → Memory.wf flashByte t.cfg.flash = true

/-- A meaning answers a next state so related to s. -/
structure AnswersFlashOk (s : State) (o : Out) : Prop where
  out : ∃ t, o = .next t ∧ FlashOk s t

theorem FlashOk.refl (s : State) : FlashOk s s := ⟨fun x => x⟩

theorem FlashOk.trans {s t u : State} (h : FlashOk s t) (g : FlashOk t u) : FlashOk s u := ⟨fun x => g.out (h.out x)⟩

theorem FlashOk.step {s t u : State} (g : FlashOk t u) (h : FlashOk s t) : FlashOk s u := h.trans g

theorem FlashOk.only {v : List Part} {s t u : State} (g : Only v t u) (hv : v.contains Part.cfg = false) (h : FlashOk s t) : FlashOk s u :=
  ⟨fun x => by rw [(g.out .cfg hv : u.cfg = t.cfg)]; exact h.out x⟩

theorem FlashOk.ite {s a b : State} {c : Prop} [Decidable c] (ha : FlashOk s a) (hb : FlashOk s b) : FlashOk s (if c then a else b) := by
  split <;> assumption

theorem FlashOk.foldl {α : Type} {s : State} {f : State → α → State} {l : List α} {x : State}
    (hf : ∀ y a, FlashOk s y → FlashOk s (f y a)) (hx : FlashOk s x) : FlashOk s (l.foldl f x) := by
  induction l generalizing x with
  | nil => exact hx
  | cons a l ih => exact ih (hf x a hx)

theorem FlashOk.eq_fst {α : Type} {t a : State} {p : State × α} {b : α} (h : FlashOk t p.1) (e : p = (a, b)) : FlashOk t a := by
  subst e; exact h

theorem FlashOk.eq_snd {α : Type} {t a : State} {p : α × State} {b : α} (h : FlashOk t p.2) (e : p = (b, a)) : FlashOk t a := by
  subst e; exact h

theorem AnswersFlashOk.next {s t : State} (h : FlashOk s t) : AnswersFlashOk s (.next t) := ⟨t, rfl, h⟩

theorem FlashOk.rfl {a : Cfg} : Memory.wf flashByte a.flash = true → Memory.wf flashByte a.flash = true := id

theorem FlashOk.upd {s x y : State} (h : FlashOk s x) (g : Memory.wf flashByte x.cfg.flash = true → Memory.wf flashByte y.cfg.flash = true) :
    FlashOk s y := ⟨fun w => g (h.out w)⟩


theorem FlashOk.frm {s x : State} {v0 : Frm} (h : FlashOk s x) :
    FlashOk s { x with frm := v0 } := by
  exact FlashOk.upd h FlashOk.rfl

theorem FlashOk.axes {s x : State} {v0 : Tbl Axis} (h : FlashOk s x) :
    FlashOk s { x with axes := v0 } := by
  exact FlashOk.upd h FlashOk.rfl

theorem FlashOk.lines {s x : State} {v0 : Tbl Line} (h : FlashOk s x) :
    FlashOk s { x with lines := v0 } := by
  exact FlashOk.upd h FlashOk.rfl

theorem FlashOk.cams {s x : State} {v0 : Tbl CamTable} (h : FlashOk s x) :
    FlashOk s { x with cams := v0 } := by
  exact FlashOk.upd h FlashOk.rfl

theorem FlashOk.camStg {s x : State} {v0 : Tbl (List Host.Cell)} (h : FlashOk s x) :
    FlashOk s { x with camStg := v0 } := by
  exact FlashOk.upd h FlashOk.rfl

theorem FlashOk.zones {s x : State} {v0 : Tbl Zone} (h : FlashOk s x) :
    FlashOk s { x with zones := v0 } := by
  exact FlashOk.upd h FlashOk.rfl

theorem FlashOk.steps {s x : State} {v0 : Tbl StepCh} (h : FlashOk s x) :
    FlashOk s { x with steps := v0 } := by
  exact FlashOk.upd h FlashOk.rfl

theorem FlashOk.encs {s x : State} {v0 : Tbl Enc} (h : FlashOk s x) :
    FlashOk s { x with encs := v0 } := by
  exact FlashOk.upd h FlashOk.rfl

theorem FlashOk.net {s x : State} {v0 : Net} (h : FlashOk s x) :
    FlashOk s { x with net := v0 } := by
  exact FlashOk.upd h FlashOk.rfl

theorem FlashOk.dsp {s x : State} {v0 : Dsp} (h : FlashOk s x) :
    FlashOk s { x with dsp := v0 } := by
  exact FlashOk.upd h FlashOk.rfl

theorem FlashOk.red {s x : State} {v0 : Red} (h : FlashOk s x) :
    FlashOk s { x with red := v0 } := by
  exact FlashOk.upd h FlashOk.rfl

theorem FlashOk.saf {s x : State} {v0 : Saf} (h : FlashOk s x) :
    FlashOk s { x with saf := v0 } := by
  exact FlashOk.upd h FlashOk.rfl

theorem FlashOk.fio {s x : State} {v0 : Fio} (h : FlashOk s x) :
    FlashOk s { x with fio := v0 } := by
  exact FlashOk.upd h FlashOk.rfl

theorem FlashOk.cap {s x : State} {v0 : Cap} (h : FlashOk s x) :
    FlashOk s { x with cap := v0 } := by
  exact FlashOk.upd h FlashOk.rfl

theorem FlashOk.prf {s x : State} {v0 : Prf} (h : FlashOk s x) :
    FlashOk s { x with prf := v0 } := by
  exact FlashOk.upd h FlashOk.rfl

theorem FlashOk.host {s x : State} {v0 : Hst} (h : FlashOk s x) :
    FlashOk s { x with host := v0 } := by
  exact FlashOk.upd h FlashOk.rfl

theorem FlashOk.evt {s x : State} {v0 : Evt} (h : FlashOk s x) :
    FlashOk s { x with evt := v0 } := by
  exact FlashOk.upd h FlashOk.rfl

theorem FlashOk.params {s x : State} {v0 : Tbl W64} (h : FlashOk s x) :
    FlashOk s { x with params := v0 } := by
  exact FlashOk.upd h FlashOk.rfl

theorem FlashOk.cfg {s x : State} {v0 : Cfg} (g : Memory.wf flashByte x.cfg.flash = true → Memory.wf flashByte v0.flash = true) (h : FlashOk s x) :
    FlashOk s { x with cfg := v0 } := by
  exact FlashOk.upd h g

theorem FlashOk.pwr {s x : State} {v0 : Pwr} (h : FlashOk s x) :
    FlashOk s { x with pwr := v0 } := by
  exact FlashOk.upd h FlashOk.rfl

theorem FlashOk.lgr {s x : State} {v0 : Lgr} (h : FlashOk s x) :
    FlashOk s { x with lgr := v0 } := by
  exact FlashOk.upd h FlashOk.rfl

theorem FlashOk.pending {s x : State} {v0 : List Instr} (h : FlashOk s x) :
    FlashOk s { x with pending := v0 } := by
  exact FlashOk.upd h FlashOk.rfl

theorem FlashOk.axes_lines_cams_zones_params {s x : State} {v0 : Tbl Axis} {v1 : Tbl Line} {v2 : Tbl CamTable} {v3 : Tbl Zone} {v4 : Tbl W64} (h : FlashOk s x) :
    FlashOk s { x with axes := v0, lines := v1, cams := v2, zones := v3, params := v4 } := by
  exact FlashOk.upd h FlashOk.rfl

theorem FlashOk.axes_lines_zones {s x : State} {v0 : Tbl Axis} {v1 : Tbl Line} {v2 : Tbl Zone} (h : FlashOk s x) :
    FlashOk s { x with axes := v0, lines := v1, zones := v2 } := by
  exact FlashOk.upd h FlashOk.rfl

theorem FlashOk.cams_camStg_evt_params {s x : State} {v0 : Tbl CamTable} {v1 : Tbl (List Host.Cell)} {v2 : Evt} {v3 : Tbl W64} (h : FlashOk s x) :
    FlashOk s { x with cams := v0, camStg := v1, evt := v2, params := v3 } := by
  exact FlashOk.upd h FlashOk.rfl

theorem FlashOk.dsp_prf {s x : State} {v0 : Dsp} {v1 : Prf} (h : FlashOk s x) :
    FlashOk s { x with dsp := v0, prf := v1 } := by
  exact FlashOk.upd h FlashOk.rfl

theorem FlashOk.fio_cap {s x : State} {v0 : Fio} {v1 : Cap} (h : FlashOk s x) :
    FlashOk s { x with fio := v0, cap := v1 } := by
  exact FlashOk.upd h FlashOk.rfl

theorem FlashOk.frm_cams {s x : State} {v0 : Frm} {v1 : Tbl CamTable} (h : FlashOk s x) :
    FlashOk s { x with frm := v0, cams := v1 } := by
  exact FlashOk.upd h FlashOk.rfl

theorem FlashOk.frm_dsp {s x : State} {v0 : Frm} {v1 : Dsp} (h : FlashOk s x) :
    FlashOk s { x with frm := v0, dsp := v1 } := by
  exact FlashOk.upd h FlashOk.rfl

theorem FlashOk.frm_evt_pwr {s x : State} {v0 : Frm} {v1 : Evt} {v2 : Pwr} (h : FlashOk s x) :
    FlashOk s { x with frm := v0, evt := v1, pwr := v2 } := by
  exact FlashOk.upd h FlashOk.rfl

theorem FlashOk.frm_fio {s x : State} {v0 : Frm} {v1 : Fio} (h : FlashOk s x) :
    FlashOk s { x with frm := v0, fio := v1 } := by
  exact FlashOk.upd h FlashOk.rfl

theorem FlashOk.frm_host_cfg_pwr {s x : State} {v0 : Frm} {v1 : Hst} {v2 : Cfg} {v3 : Pwr} (g : Memory.wf flashByte x.cfg.flash = true → Memory.wf flashByte v2.flash = true) (h : FlashOk s x) :
    FlashOk s { x with frm := v0, host := v1, cfg := v2, pwr := v3 } := by
  exact FlashOk.upd h g

theorem FlashOk.frm_net {s x : State} {v0 : Frm} {v1 : Net} (h : FlashOk s x) :
    FlashOk s { x with frm := v0, net := v1 } := by
  exact FlashOk.upd h FlashOk.rfl

theorem FlashOk.frm_net_evt_cfg {s x : State} {v0 : Frm} {v1 : Net} {v2 : Evt} {v3 : Cfg} (g : Memory.wf flashByte x.cfg.flash = true → Memory.wf flashByte v3.flash = true) (h : FlashOk s x) :
    FlashOk s { x with frm := v0, net := v1, evt := v2, cfg := v3 } := by
  exact FlashOk.upd h g

theorem FlashOk.frm_net_red {s x : State} {v0 : Frm} {v1 : Net} {v2 : Red} (h : FlashOk s x) :
    FlashOk s { x with frm := v0, net := v1, red := v2 } := by
  exact FlashOk.upd h FlashOk.rfl

theorem FlashOk.host_pwr {s x : State} {v0 : Hst} {v1 : Pwr} (h : FlashOk s x) :
    FlashOk s { x with host := v0, pwr := v1 } := by
  exact FlashOk.upd h FlashOk.rfl

theorem FlashOk.lines_red_evt {s x : State} {v0 : Tbl Line} {v1 : Red} {v2 : Evt} (h : FlashOk s x) :
    FlashOk s { x with lines := v0, red := v1, evt := v2 } := by
  exact FlashOk.upd h FlashOk.rfl

theorem FlashOk.net_fio {s x : State} {v0 : Net} {v1 : Fio} (h : FlashOk s x) :
    FlashOk s { x with net := v0, fio := v1 } := by
  exact FlashOk.upd h FlashOk.rfl

theorem FlashOk.net_red {s x : State} {v0 : Net} {v1 : Red} (h : FlashOk s x) :
    FlashOk s { x with net := v0, red := v1 } := by
  exact FlashOk.upd h FlashOk.rfl

theorem FlashOk.net_red_evt {s x : State} {v0 : Net} {v1 : Red} {v2 : Evt} (h : FlashOk s x) :
    FlashOk s { x with net := v0, red := v1, evt := v2 } := by
  exact FlashOk.upd h FlashOk.rfl

theorem FlashOk.prf_pwr {s x : State} {v0 : Prf} {v1 : Pwr} (h : FlashOk s x) :
    FlashOk s { x with prf := v0, pwr := v1 } := by
  exact FlashOk.upd h FlashOk.rfl

theorem FlashOk.pwr_lgr {s x : State} {v0 : Pwr} {v1 : Lgr} (h : FlashOk s x) :
    FlashOk s { x with pwr := v0, lgr := v1 } := by
  exact FlashOk.upd h FlashOk.rfl

theorem FlashOk.red_cfg {s x : State} {v0 : Red} {v1 : Cfg} (g : Memory.wf flashByte x.cfg.flash = true → Memory.wf flashByte v1.flash = true) (h : FlashOk s x) :
    FlashOk s { x with red := v0, cfg := v1 } := by
  exact FlashOk.upd h g

theorem FlashOk.red_evt {s x : State} {v0 : Red} {v1 : Evt} (h : FlashOk s x) :
    FlashOk s { x with red := v0, evt := v1 } := by
  exact FlashOk.upd h FlashOk.rfl

theorem FlashOk.saf_cfg {s x : State} {v0 : Saf} {v1 : Cfg} (g : Memory.wf flashByte x.cfg.flash = true → Memory.wf flashByte v1.flash = true) (h : FlashOk s x) :
    FlashOk s { x with saf := v0, cfg := v1 } := by
  exact FlashOk.upd h g

theorem FlashOk.saf_host_cfg {s x : State} {v0 : Saf} {v1 : Hst} {v2 : Cfg} (g : Memory.wf flashByte x.cfg.flash = true → Memory.wf flashByte v2.flash = true) (h : FlashOk s x) :
    FlashOk s { x with saf := v0, host := v1, cfg := v2 } := by
  exact FlashOk.upd h g

theorem FlashOk.saf_pwr {s x : State} {v0 : Saf} {v1 : Pwr} (h : FlashOk s x) :
    FlashOk s { x with saf := v0, pwr := v1 } := by
  exact FlashOk.upd h FlashOk.rfl

theorem FlashOk.saf_pwr_lgr {s x : State} {v0 : Saf} {v1 : Pwr} {v2 : Lgr} (h : FlashOk s x) :
    FlashOk s { x with saf := v0, pwr := v1, lgr := v2 } := by
  exact FlashOk.upd h FlashOk.rfl

theorem State.serve_flashOk (s : State) (op : Nat) (f : State → Nat → Nat → State) (hf : ∀ y m j, FlashOk y (f y m j)) : FlashOk s (State.serve s op f) := by
  unfold State.serve
  repeat (first
    | with_reducible exact FlashOk.refl _
    | with_reducible assumption
    | with_reducible apply FlashOk.step (hf ..)
    | ((with_reducible apply FlashOk.only (State.take_only ..)); decide)
    | with_reducible refine FlashOk.ite ?_ ?_
    | split
    | (dsimp -proj -beta only []; split))

theorem State.dropReq_flashOk (s : State) (m j : Nat) : FlashOk s (State.dropReq s m j) := by
  unfold State.dropReq
  repeat (first
    | with_reducible exact FlashOk.refl _
    | with_reducible assumption
    | with_reducible refine FlashOk.ite ?_ ?_
    | fail_if_no_progress with_reducible refine FlashOk.saf_host_cfg (by first | exact id | exact twf_tset _ _ _ | exact wf_mwrite _ _ _ _ | exact wf_merase _ _ _ _ | exact fun w => wf_mwrite _ _ _ _ (wf_mwrite _ _ _ _ w) | exact fun _ => twf_nil _) ?_
    | fail_if_no_progress with_reducible refine FlashOk.saf ?_
    | fail_if_no_progress with_reducible refine FlashOk.host ?_
    | fail_if_no_progress with_reducible refine FlashOk.cfg (by first | exact id | exact twf_tset _ _ _ | exact wf_mwrite _ _ _ _ | exact wf_merase _ _ _ _ | exact fun w => wf_mwrite _ _ _ _ (wf_mwrite _ _ _ _ w) | exact fun _ => twf_nil _) ?_
    | split
    | (dsimp -proj -beta only []; split))

theorem execMailboxTimeout_flashOk (j : Fin 512) (s : State) : AnswersFlashOk s (execMailboxTimeout j s) := by
  unfold execMailboxTimeout
  repeat (first
    | with_reducible refine AnswersFlashOk.next ?_
    | with_reducible exact FlashOk.refl _
    | with_reducible assumption
    | with_reducible apply FlashOk.step (State.dropReq_flashOk ..)
    | ((with_reducible apply FlashOk.only (State.answer_only ..)); decide)
    | ((with_reducible apply FlashOk.only (State.goto_only ..)); decide)
    | ((with_reducible apply FlashOk.only (State.raiseDev_only ..)); decide)
    | with_reducible refine FlashOk.ite ?_ ?_
    | split
    | (dsimp -proj -beta only []; split))

theorem State.roleChange_flashOk (s : State) : FlashOk s (State.roleChange s) := by
  unfold State.roleChange
  repeat (first
    | with_reducible exact FlashOk.refl _
    | with_reducible assumption
    | with_reducible apply FlashOk.step (State.dropReq_flashOk ..)
    | ((with_reducible apply FlashOk.only (State.answer_only ..)); decide)
    | with_reducible refine FlashOk.ite ?_ ?_
    | with_reducible refine FlashOk.foldl ?_ ?_
    | (intro _ _ _; try beta_reduce))

theorem State.safeStore_flashOk (s : State) (off : Nat) (d : List Byte) : FlashOk s (State.safeStore s off d) := by
  unfold State.safeStore
  repeat (first
    | with_reducible exact FlashOk.refl _
    | with_reducible assumption
    | fail_if_no_progress with_reducible refine FlashOk.saf_cfg (by first | exact id | exact twf_tset _ _ _ | exact wf_mwrite _ _ _ _ | exact wf_merase _ _ _ _ | exact fun w => wf_mwrite _ _ _ _ (wf_mwrite _ _ _ _ w) | exact fun _ => twf_nil _) ?_
    | fail_if_no_progress with_reducible refine FlashOk.saf ?_
    | fail_if_no_progress with_reducible refine FlashOk.cfg (by first | exact id | exact twf_tset _ _ _ | exact wf_mwrite _ _ _ _ | exact wf_merase _ _ _ _ | exact fun w => wf_mwrite _ _ _ _ (wf_mwrite _ _ _ _ w) | exact fun _ => twf_nil _) ?_)

theorem execSafeLoad_flashOk (s : State) : AnswersFlashOk s (execSafeLoad s) := by
  unfold execSafeLoad
  repeat (first
    | with_reducible refine AnswersFlashOk.next ?_
    | with_reducible exact FlashOk.refl _
    | with_reducible assumption
    | ((with_reducible apply FlashOk.only (State.safeStored_only ..)); decide)
    | with_reducible apply FlashOk.step (State.safeStore_flashOk ..)
    | with_reducible refine State.serve_flashOk _ _ _ ?_
    | (intro _ _ _; try beta_reduce)
    | ((with_reducible apply FlashOk.only (State.answer_only ..)); decide)
    | with_reducible refine FlashOk.ite ?_ ?_
    | fail_if_no_progress with_reducible refine FlashOk.saf ?_)

theorem execSafeLoadEraseComplete_flashOk (s : State) : AnswersFlashOk s (execSafeLoadEraseComplete s) := by
  unfold execSafeLoadEraseComplete
  repeat (first
    | with_reducible refine AnswersFlashOk.next ?_
    | with_reducible exact FlashOk.refl _
    | with_reducible assumption
    | ((with_reducible apply FlashOk.only (State.safeStored_only ..)); decide)
    | with_reducible apply FlashOk.step (State.safeStore_flashOk ..)
    | with_reducible refine FlashOk.ite ?_ ?_
    | fail_if_no_progress with_reducible refine FlashOk.saf ?_
    | fail_if_no_progress with_reducible refine FlashOk.cfg (by first | exact id | exact twf_tset _ _ _ | exact wf_mwrite _ _ _ _ | exact wf_merase _ _ _ _ | exact fun w => wf_mwrite _ _ _ _ (wf_mwrite _ _ _ _ w) | exact fun _ => twf_nil _) ?_
    | split
    | (dsimp -proj -beta only []; split))

theorem execSafeConfirm_flashOk (s : State) : AnswersFlashOk s (execSafeConfirm s) := by
  unfold execSafeConfirm
  repeat (first
    | with_reducible refine AnswersFlashOk.next ?_
    | with_reducible exact FlashOk.refl _
    | with_reducible assumption
    | ((with_reducible apply FlashOk.only (State.runSet_only ..)); decide)
    | with_reducible refine State.serve_flashOk _ _ _ ?_
    | (intro _ _ _; try beta_reduce)
    | ((with_reducible apply FlashOk.only (State.answer_only ..)); decide)
    | ((with_reducible apply FlashOk.only (State.dropSseq_only ..)); decide)
    | with_reducible refine FlashOk.ite ?_ ?_
    | fail_if_no_progress with_reducible refine FlashOk.saf_cfg (by first | exact id | exact twf_tset _ _ _ | exact wf_mwrite _ _ _ _ | exact wf_merase _ _ _ _ | exact fun w => wf_mwrite _ _ _ _ (wf_mwrite _ _ _ _ w) | exact fun _ => twf_nil _) ?_
    | fail_if_no_progress with_reducible refine FlashOk.saf ?_
    | fail_if_no_progress with_reducible refine FlashOk.cfg (by first | exact id | exact twf_tset _ _ _ | exact wf_mwrite _ _ _ _ | exact wf_merase _ _ _ _ | exact fun w => wf_mwrite _ _ _ _ (wf_mwrite _ _ _ _ w) | exact fun _ => twf_nil _) ?_)

theorem State.leaveHead_flashOk (s : State) : FlashOk s (State.leaveHead s) := by
  unfold State.leaveHead
  repeat (first
    | with_reducible exact FlashOk.refl _
    | with_reducible assumption
    | ((with_reducible apply FlashOk.only (State.discardHead_only ..)); decide)
    | ((with_reducible apply FlashOk.only (State.stopKernels_only ..)); decide)
    | ((with_reducible apply FlashOk.only (State.capRoleEnd_only ..)); decide)
    | with_reducible apply FlashOk.step (State.roleChange_flashOk ..)
    | ((with_reducible apply FlashOk.only (State.closeLedgers_only ..)); decide)
    | ((with_reducible apply FlashOk.only (State.openLedger_only ..)); decide)
    | ((with_reducible apply FlashOk.only (State.standbyRole_only ..)); decide)
    | fail_if_no_progress with_reducible refine FlashOk.net_fio ?_
    | fail_if_no_progress with_reducible refine FlashOk.net ?_
    | fail_if_no_progress with_reducible refine FlashOk.fio ?_)

theorem execForeignCsm_flashOk (b : Fin 8) (bytes : List Byte) (x : Arrival) (s : State) : AnswersFlashOk s (execForeignCsm b bytes x s) := by
  unfold execForeignCsm
  repeat (first
    | with_reducible refine AnswersFlashOk.next ?_
    | with_reducible exact FlashOk.refl _
    | with_reducible assumption
    | ((with_reducible apply FlashOk.only (State.seeCsm_only ..)); decide)
    | ((with_reducible apply FlashOk.only (State.earlyYield_only ..)); decide)
    | with_reducible apply FlashOk.step (State.leaveHead_flashOk ..)
    | ((with_reducible apply FlashOk.only (State.rxFrame_only ..)); decide)
    | ((with_reducible apply FlashOk.only (State.raiseDev_only ..)); decide)
    | ((with_reducible apply FlashOk.only (State.raiseOnce_only ..)); decide)
    | with_reducible refine FlashOk.ite ?_ ?_
    | fail_if_no_progress with_reducible refine FlashOk.net ?_
    | split
    | (dsimp -proj -beta only []; split))

theorem execYieldSilence_flashOk (s : State) : AnswersFlashOk s (execYieldSilence s) := by
  unfold execYieldSilence
  repeat (first
    | with_reducible refine AnswersFlashOk.next ?_
    | with_reducible exact FlashOk.refl _
    | with_reducible assumption
    | with_reducible apply FlashOk.step (State.leaveHead_flashOk ..)
    | with_reducible refine FlashOk.ite ?_ ?_)

theorem State.slotVerify_flashOk (s : State) (c : Nat) : FlashOk s (State.slotVerify s c) := by
  unfold State.slotVerify
  repeat (first
    | with_reducible exact FlashOk.refl _
    | with_reducible assumption
    | ((with_reducible apply FlashOk.only (State.ovlShow_only ..)); decide)
    | with_reducible refine FlashOk.ite ?_ ?_
    | fail_if_no_progress with_reducible refine FlashOk.cfg (by first | exact id | exact twf_tset _ _ _ | exact wf_mwrite _ _ _ _ | exact wf_merase _ _ _ _ | exact fun w => wf_mwrite _ _ _ _ (wf_mwrite _ _ _ _ w) | exact fun _ => twf_nil _) ?_)

theorem State.slotStored_flashOk (s : State) (c off : Nat) (d : List Byte) : FlashOk s (State.slotStored s c off d) := by
  unfold State.slotStored
  repeat (first
    | with_reducible exact FlashOk.refl _
    | with_reducible assumption
    | with_reducible apply FlashOk.step (State.slotVerify_flashOk ..)
    | with_reducible refine FlashOk.ite ?_ ?_
    | fail_if_no_progress with_reducible refine FlashOk.cfg (by first | exact id | exact twf_tset _ _ _ | exact wf_mwrite _ _ _ _ | exact wf_merase _ _ _ _ | exact fun w => wf_mwrite _ _ _ _ (wf_mwrite _ _ _ _ w) | exact fun _ => twf_nil _) ?_
    | split
    | (dsimp -proj -beta only []; split))

theorem execCfgWrite_flashOk (s : State) : AnswersFlashOk s (execCfgWrite s) := by
  unfold execCfgWrite
  repeat (first
    | with_reducible refine AnswersFlashOk.next ?_
    | with_reducible exact FlashOk.refl _
    | with_reducible assumption
    | with_reducible apply FlashOk.step (State.slotStored_flashOk ..)
    | with_reducible refine State.serve_flashOk _ _ _ ?_
    | (intro _ _ _; try beta_reduce)
    | ((with_reducible apply FlashOk.only (State.answer_only ..)); decide)
    | with_reducible refine FlashOk.ite ?_ ?_
    | fail_if_no_progress with_reducible refine FlashOk.cfg (by first | exact id | exact twf_tset _ _ _ | exact wf_mwrite _ _ _ _ | exact wf_merase _ _ _ _ | exact fun w => wf_mwrite _ _ _ _ (wf_mwrite _ _ _ _ w) | exact fun _ => twf_nil _) ?_
    | split
    | (dsimp -proj -beta only []; split))

theorem State.slotErase_flashOk (s : State) (c : Nat) : FlashOk s (State.slotErase s c) := by
  unfold State.slotErase
  repeat (first
    | with_reducible exact FlashOk.refl _
    | with_reducible assumption
    | ((with_reducible apply FlashOk.only (State.ovlShow_only ..)); decide)
    | with_reducible refine FlashOk.ite ?_ ?_
    | fail_if_no_progress with_reducible refine FlashOk.cfg (by first | exact id | exact twf_tset _ _ _ | exact wf_mwrite _ _ _ _ | exact wf_merase _ _ _ _ | exact fun w => wf_mwrite _ _ _ _ (wf_mwrite _ _ _ _ w) | exact fun _ => twf_nil _) ?_
    | split
    | (dsimp -proj -beta only []; split))

theorem execFlashWriteComplete_flashOk (s : State) : AnswersFlashOk s (execFlashWriteComplete s) := by
  unfold execFlashWriteComplete
  repeat (first
    | with_reducible refine AnswersFlashOk.next ?_
    | with_reducible exact FlashOk.refl _
    | with_reducible assumption
    | with_reducible apply FlashOk.step (State.slotErase_flashOk ..)
    | with_reducible apply FlashOk.step (State.slotStored_flashOk ..)
    | ((with_reducible apply FlashOk.only (State.answer_only ..)); decide)
    | fail_if_no_progress with_reducible refine FlashOk.cfg (by first | exact id | exact twf_tset _ _ _ | exact wf_mwrite _ _ _ _ | exact wf_merase _ _ _ _ | exact fun w => wf_mwrite _ _ _ _ (wf_mwrite _ _ _ _ w) | exact fun _ => twf_nil _) ?_
    | split
    | (dsimp -proj -beta only []; split))

theorem State.clearRun_flashOk (s : State) : FlashOk s (State.clearRun s) := by
  unfold State.clearRun
  repeat (first
    | with_reducible exact FlashOk.refl _
    | with_reducible assumption
    | ((with_reducible apply FlashOk.only (State.discardHead_only ..)); decide)
    | ((with_reducible apply FlashOk.only (State.setRole_only ..)); decide)
    | fail_if_no_progress with_reducible refine FlashOk.frm_net_evt_cfg (by first | exact id | exact twf_tset _ _ _ | exact wf_mwrite _ _ _ _ | exact wf_merase _ _ _ _ | exact fun w => wf_mwrite _ _ _ _ (wf_mwrite _ _ _ _ w) | exact fun _ => twf_nil _) ?_
    | fail_if_no_progress with_reducible refine FlashOk.axes_lines_cams_zones_params ?_
    | fail_if_no_progress with_reducible refine FlashOk.frm ?_
    | fail_if_no_progress with_reducible refine FlashOk.axes ?_
    | fail_if_no_progress with_reducible refine FlashOk.lines ?_
    | fail_if_no_progress with_reducible refine FlashOk.cams ?_
    | fail_if_no_progress with_reducible refine FlashOk.zones ?_
    | fail_if_no_progress with_reducible refine FlashOk.net ?_
    | fail_if_no_progress with_reducible refine FlashOk.evt ?_
    | fail_if_no_progress with_reducible refine FlashOk.params ?_
    | fail_if_no_progress with_reducible refine FlashOk.cfg (by first | exact id | exact twf_tset _ _ _ | exact wf_mwrite _ _ _ _ | exact wf_merase _ _ _ _ | exact fun w => wf_mwrite _ _ _ _ (wf_mwrite _ _ _ _ w) | exact fun _ => twf_nil _) ?_)

theorem State.endConfig_flashOk (s : State) : FlashOk s (State.endConfig s) := by
  unfold State.endConfig
  repeat (first
    | with_reducible exact FlashOk.refl _
    | with_reducible assumption
    | with_reducible apply FlashOk.step (State.clearRun_flashOk ..)
    | ((with_reducible apply FlashOk.only (State.stopKernels_only ..)); decide)
    | ((with_reducible apply FlashOk.only (State.capHalt_only ..)); decide)
    | ((with_reducible apply FlashOk.only (State.dropSseq_only ..)); decide)
    | ((with_reducible apply FlashOk.only (State.closeLedgers_only ..)); decide)
    | with_reducible refine FlashOk.ite ?_ ?_
    | fail_if_no_progress with_reducible refine FlashOk.fio ?_)

theorem State.activate_flashOk (s : State) (k : Nat) : FlashOk s (State.activate s k) := by
  unfold State.activate
  repeat (first
    | with_reducible exact FlashOk.refl _
    | with_reducible assumption
    | fail_if_no_progress with_reducible refine FlashOk.cfg (by first | exact id | exact twf_tset _ _ _ | exact wf_mwrite _ _ _ _ | exact wf_merase _ _ _ _ | exact fun w => wf_mwrite _ _ _ _ (wf_mwrite _ _ _ _ w) | exact fun _ => twf_nil _) ?_)

theorem State.switchTo_flashOk (s : State) (k : Nat) : FlashOk s (State.switchTo s k) := by
  unfold State.switchTo
  repeat (first
    | with_reducible exact FlashOk.refl _
    | with_reducible assumption
    | with_reducible apply FlashOk.step (State.endConfig_flashOk ..)
    | with_reducible refine FlashOk.ite ?_ ?_
    | fail_if_no_progress with_reducible refine FlashOk.cfg (by first | exact id | exact twf_tset _ _ _ | exact wf_mwrite _ _ _ _ | exact wf_merase _ _ _ _ | exact fun w => wf_mwrite _ _ _ _ (wf_mwrite _ _ _ _ w) | exact fun _ => twf_nil _) ?_)

theorem State.serveSlot_flashOk (s : State) (p : Nat → Bool) (f : State → Nat → Nat → State) (hf : ∀ y m j, FlashOk y (f y m j)) : FlashOk s (State.serveSlot s p f) := by
  unfold State.serveSlot
  repeat (first
    | with_reducible exact FlashOk.refl _
    | with_reducible assumption
    | with_reducible apply FlashOk.step (hf ..)
    | ((with_reducible apply FlashOk.only (State.take_only ..)); decide)
    | with_reducible refine FlashOk.ite ?_ ?_
    | split
    | (dsimp -proj -beta only []; split))

theorem execCfgActivate_flashOk (s : State) : AnswersFlashOk s (execCfgActivate s) := by
  unfold execCfgActivate
  repeat (first
    | with_reducible refine AnswersFlashOk.next ?_
    | with_reducible exact FlashOk.refl _
    | with_reducible assumption
    | with_reducible refine State.serveSlot_flashOk _ _ _ ?_
    | (intro _ _ _; try beta_reduce)
    | with_reducible apply FlashOk.step (State.switchTo_flashOk ..)
    | with_reducible apply FlashOk.step (State.activate_flashOk ..)
    | ((with_reducible apply FlashOk.only (State.answer_only ..)); decide)
    | ((with_reducible apply FlashOk.only (State.raiseDev_only ..)); decide)
    | with_reducible refine FlashOk.ite ?_ ?_
    | fail_if_no_progress with_reducible refine FlashOk.cfg (by first | exact id | exact twf_tset _ _ _ | exact wf_mwrite _ _ _ _ | exact wf_merase _ _ _ _ | exact fun w => wf_mwrite _ _ _ _ (wf_mwrite _ _ _ _ w) | exact fun _ => twf_nil _) ?_)

theorem execFirmwareActivate_flashOk (s : State) : AnswersFlashOk s (execFirmwareActivate s) := by
  unfold execFirmwareActivate
  repeat (first
    | with_reducible refine AnswersFlashOk.next ?_
    | with_reducible exact FlashOk.refl _
    | with_reducible assumption
    | with_reducible refine State.serveSlot_flashOk _ _ _ ?_
    | (intro _ _ _; try beta_reduce)
    | ((with_reducible apply FlashOk.only (State.answer_only ..)); decide)
    | with_reducible refine FlashOk.ite ?_ ?_
    | fail_if_no_progress with_reducible refine FlashOk.cfg (by first | exact id | exact twf_tset _ _ _ | exact wf_mwrite _ _ _ _ | exact wf_merase _ _ _ _ | exact fun w => wf_mwrite _ _ _ _ (wf_mwrite _ _ _ _ w) | exact fun _ => twf_nil _) ?_)

theorem execKeyProvision_flashOk (s : State) : AnswersFlashOk s (execKeyProvision s) := by
  unfold execKeyProvision
  repeat (first
    | with_reducible refine AnswersFlashOk.next ?_
    | with_reducible exact FlashOk.refl _
    | with_reducible assumption
    | with_reducible refine State.serve_flashOk _ _ _ ?_
    | (intro _ _ _; try beta_reduce)
    | ((with_reducible apply FlashOk.only (State.answer_only ..)); decide)
    | with_reducible refine FlashOk.ite ?_ ?_
    | fail_if_no_progress with_reducible refine FlashOk.cfg (by first | exact id | exact twf_tset _ _ _ | exact wf_mwrite _ _ _ _ | exact wf_merase _ _ _ _ | exact fun w => wf_mwrite _ _ _ _ (wf_mwrite _ _ _ _ w) | exact fun _ => twf_nil _) ?_)

theorem State.wipe_flashOk (s : State) : FlashOk s (State.wipe s) := by
  unfold State.wipe
  repeat (first
    | with_reducible exact FlashOk.refl _
    | with_reducible assumption
    | with_reducible apply FlashOk.step (State.slotErase_flashOk ..)
    | with_reducible refine FlashOk.foldl ?_ ?_
    | (intro _ _ _; try beta_reduce)
    | fail_if_no_progress with_reducible refine FlashOk.cfg (by first | exact id | exact twf_tset _ _ _ | exact wf_mwrite _ _ _ _ | exact wf_merase _ _ _ _ | exact fun w => wf_mwrite _ _ _ _ (wf_mwrite _ _ _ _ w) | exact fun _ => twf_nil _) ?_)

theorem execLifecycle_flashOk (s : State) : AnswersFlashOk s (execLifecycle s) := by
  unfold execLifecycle
  repeat (first
    | with_reducible refine AnswersFlashOk.next ?_
    | with_reducible exact FlashOk.refl _
    | with_reducible assumption
    | with_reducible apply FlashOk.step (State.wipe_flashOk ..)
    | with_reducible refine State.serve_flashOk _ _ _ ?_
    | (intro _ _ _; try beta_reduce)
    | ((with_reducible apply FlashOk.only (State.answer_only ..)); decide)
    | with_reducible refine FlashOk.ite ?_ ?_
    | fail_if_no_progress with_reducible refine FlashOk.cfg (by first | exact id | exact twf_tset _ _ _ | exact wf_mwrite _ _ _ _ | exact wf_merase _ _ _ _ | exact fun w => wf_mwrite _ _ _ _ (wf_mwrite _ _ _ _ w) | exact fun _ => twf_nil _) ?_)

theorem State.runFw_flashOk (s : State) (f : Option Nat) : FlashOk s (State.runFw s f) := by
  unfold State.runFw
  repeat (first
    | with_reducible exact FlashOk.refl _
    | with_reducible assumption
    | fail_if_no_progress with_reducible refine FlashOk.cfg (by first | exact id | exact twf_tset _ _ _ | exact wf_mwrite _ _ _ _ | exact wf_merase _ _ _ _ | exact fun w => wf_mwrite _ _ _ _ (wf_mwrite _ _ _ _ w) | exact fun _ => twf_nil _) ?_
    | split
    | (dsimp -proj -beta only []; split))

theorem execBootStart_flashOk (s : State) : AnswersFlashOk s (execBootStart s) := by
  unfold execBootStart
  repeat (first
    | with_reducible refine AnswersFlashOk.next ?_
    | with_reducible exact FlashOk.refl _
    | with_reducible assumption
    | with_reducible apply FlashOk.step (State.runFw_flashOk ..)
    | ((with_reducible apply FlashOk.only (State.retentionClosures_only ..)); decide)
    | ((with_reducible apply FlashOk.only (State.raiseDev_only ..)); decide)
    | ((with_reducible apply FlashOk.only (State.log_only ..)); decide)
    | with_reducible refine FlashOk.ite ?_ ?_
    | fail_if_no_progress with_reducible refine FlashOk.cfg (by first | exact id | exact twf_tset _ _ _ | exact wf_mwrite _ _ _ _ | exact wf_merase _ _ _ _ | exact fun w => wf_mwrite _ _ _ _ (wf_mwrite _ _ _ _ w) | exact fun _ => twf_nil _) ?_
    | fail_if_no_progress with_reducible refine FlashOk.pwr ?_)

theorem State.startConfig_flashOk (s : State) (k : Nat) : FlashOk s (State.startConfig s k) := by
  unfold State.startConfig
  repeat (first
    | with_reducible exact FlashOk.refl _
    | with_reducible assumption
    | ((with_reducible apply FlashOk.only (State.ioStart_only ..)); decide)
    | ((with_reducible apply FlashOk.only (State.hostStart_only ..)); decide)
    | ((with_reducible apply FlashOk.only (State.netStart_only ..)); decide)
    | ((with_reducible apply FlashOk.only (State.enablePorts_only ..)); decide)
    | ((with_reducible apply FlashOk.only (State.takeImage_only ..)); decide)
    | ((with_reducible apply FlashOk.only (State.writeTasks_only ..)); decide)
    | ((with_reducible apply FlashOk.only (State.initAxes_only ..)); decide)
    | ((with_reducible apply FlashOk.only (State.ovlShow_only ..)); decide)
    | ((with_reducible apply FlashOk.only (State.openLedger_only ..)); decide)
    | ((with_reducible apply FlashOk.only (State.setRole_only ..)); decide)
    | with_reducible refine FlashOk.ite ?_ ?_
    | with_reducible refine FlashOk.foldl ?_ ?_
    | (intro _ _ _; try beta_reduce)
    | fail_if_no_progress with_reducible refine FlashOk.red_cfg (by first | exact id | exact twf_tset _ _ _ | exact wf_mwrite _ _ _ _ | exact wf_merase _ _ _ _ | exact fun w => wf_mwrite _ _ _ _ (wf_mwrite _ _ _ _ w) | exact fun _ => twf_nil _) ?_
    | fail_if_no_progress with_reducible refine FlashOk.frm ?_
    | fail_if_no_progress with_reducible refine FlashOk.red ?_
    | fail_if_no_progress with_reducible refine FlashOk.cfg (by first | exact id | exact twf_tset _ _ _ | exact wf_mwrite _ _ _ _ | exact wf_merase _ _ _ _ | exact fun w => wf_mwrite _ _ _ _ (wf_mwrite _ _ _ _ w) | exact fun _ => twf_nil _) ?_)

theorem State.refuseConfig_flashOk (s : State) (k r : Nat) : FlashOk s (State.refuseConfig s k r) := by
  unfold State.refuseConfig
  repeat (first
    | with_reducible exact FlashOk.refl _
    | with_reducible assumption
    | ((with_reducible apply FlashOk.only (State.raiseDev_only ..)); decide)
    | fail_if_no_progress with_reducible refine FlashOk.cfg (by first | exact id | exact twf_tset _ _ _ | exact wf_mwrite _ _ _ _ | exact wf_merase _ _ _ _ | exact fun w => wf_mwrite _ _ _ _ (wf_mwrite _ _ _ _ w) | exact fun _ => twf_nil _) ?_)

theorem execBaseConfigStart_flashOk (s : State) : AnswersFlashOk s (execBaseConfigStart s) := by
  unfold execBaseConfigStart
  repeat (first
    | with_reducible refine AnswersFlashOk.next ?_
    | with_reducible exact FlashOk.refl _
    | with_reducible assumption
    | with_reducible apply FlashOk.step (State.refuseConfig_flashOk ..)
    | with_reducible apply FlashOk.step (State.startConfig_flashOk ..)
    | with_reducible refine FlashOk.ite ?_ ?_
    | split
    | (dsimp -proj -beta only []; split))

theorem execResetRelease_flashOk (hostsel : Bool) (boot : Fin 4) (vio : Nat) (s : State) : AnswersFlashOk s (execResetRelease hostsel boot vio s) := by
  unfold execResetRelease
  repeat (first
    | with_reducible refine AnswersFlashOk.next ?_
    | with_reducible exact FlashOk.refl _
    | with_reducible assumption
    | with_reducible refine FlashOk.ite ?_ ?_
    | fail_if_no_progress with_reducible refine FlashOk.frm_host_cfg_pwr (by first | exact id | exact twf_tset _ _ _ | exact wf_mwrite _ _ _ _ | exact wf_merase _ _ _ _ | exact fun w => wf_mwrite _ _ _ _ (wf_mwrite _ _ _ _ w) | exact fun _ => twf_nil _) ?_
    | fail_if_no_progress with_reducible refine FlashOk.frm ?_
    | fail_if_no_progress with_reducible refine FlashOk.host ?_
    | fail_if_no_progress with_reducible refine FlashOk.cfg (by first | exact id | exact twf_tset _ _ _ | exact wf_mwrite _ _ _ _ | exact wf_merase _ _ _ _ | exact fun w => wf_mwrite _ _ _ _ (wf_mwrite _ _ _ _ w) | exact fun _ => twf_nil _) ?_
    | fail_if_no_progress with_reducible refine FlashOk.pwr ?_)

theorem State.decideCfg_flashOk (s : State) (t : Taken) : FlashOk s (State.decideCfg s t) := by
  unfold State.decideCfg
  repeat (first
    | with_reducible exact FlashOk.refl _
    | with_reducible assumption
    | with_reducible apply FlashOk.step (State.switchTo_flashOk ..)
    | with_reducible apply FlashOk.step (State.activate_flashOk ..)
    | ((with_reducible apply FlashOk.only (State.answer_only ..)); decide)
    | with_reducible refine FlashOk.ite ?_ ?_)

theorem State.decideOne_flashOk (s : State) (t : Taken) : FlashOk s (State.decideOne s t) := by
  unfold State.decideOne
  repeat (first
    | with_reducible exact FlashOk.refl _
    | with_reducible assumption
    | with_reducible apply FlashOk.step (State.decideCfg_flashOk ..)
    | ((with_reducible apply FlashOk.only (State.decideOvl_only ..)); decide)
    | ((with_reducible apply FlashOk.only (State.decideWrite_only ..)); decide)
    | ((with_reducible apply FlashOk.only (State.answer_only ..)); decide)
    | with_reducible refine FlashOk.ite ?_ ?_)

theorem State.decideTaken_flashOk (s : State) : FlashOk s (State.decideTaken s) := by
  unfold State.decideTaken
  repeat (first
    | with_reducible exact FlashOk.refl _
    | with_reducible assumption
    | with_reducible apply FlashOk.step (State.decideOne_flashOk ..)
    | with_reducible refine FlashOk.foldl ?_ ?_
    | (intro _ _ _; try beta_reduce))

theorem State.headBoundary_flashOk (s : State) : FlashOk s (State.headBoundary s) := by
  unfold State.headBoundary
  repeat (first
    | with_reducible exact FlashOk.refl _
    | with_reducible assumption
    | ((with_reducible apply FlashOk.only (State.axisBoundary_only ..)); decide)
    | ((with_reducible apply FlashOk.only (State.startYield_only ..)); decide)
    | ((with_reducible apply FlashOk.only (State.endStops_only ..)); decide)
    | with_reducible apply FlashOk.step (State.decideTaken_flashOk ..)
    | ((with_reducible apply FlashOk.only (State.axAnswers_only ..)); decide)
    | ((with_reducible apply FlashOk.only (Only.eq_fst (State.axRun_only ..) (by assumption))); decide)
    | ((with_reducible apply FlashOk.only (State.axRun_only ..)); decide)
    | with_reducible refine FlashOk.ite ?_ ?_
    | fail_if_no_progress with_reducible refine FlashOk.evt ?_
    | split
    | (dsimp -proj -beta only []; split))

theorem State.otherBoundary_flashOk (s : State) : FlashOk s (State.otherBoundary s) := by
  unfold State.otherBoundary
  repeat (first
    | with_reducible exact FlashOk.refl _
    | with_reducible assumption
    | with_reducible apply FlashOk.step (State.decideTaken_flashOk ..)
    | fail_if_no_progress with_reducible refine FlashOk.red_evt ?_
    | fail_if_no_progress with_reducible refine FlashOk.red ?_
    | fail_if_no_progress with_reducible refine FlashOk.evt ?_)

theorem execTickTakesEffect_flashOk (s : State) : AnswersFlashOk s (execTickTakesEffect s) := by
  unfold execTickTakesEffect
  repeat (first
    | with_reducible refine AnswersFlashOk.next ?_
    | with_reducible exact FlashOk.refl _
    | with_reducible assumption
    | ((with_reducible apply FlashOk.only (State.boundaryEnd_only ..)); decide)
    | ((with_reducible apply FlashOk.only (State.ioBoundary_only ..)); decide)
    | ((with_reducible apply FlashOk.only (State.fullClock_only ..)); decide)
    | with_reducible apply FlashOk.step (State.otherBoundary_flashOk ..)
    | with_reducible apply FlashOk.step (State.headBoundary_flashOk ..)
    | ((with_reducible apply FlashOk.only (State.takeDecim_only ..)); decide)
    | with_reducible apply FlashOk.step (State.switchTo_flashOk ..)
    | ((with_reducible apply FlashOk.only (State.gotoLatency_only ..)); decide)
    | with_reducible refine FlashOk.ite ?_ ?_
    | fail_if_no_progress with_reducible refine FlashOk.frm ?_
    | split
    | (dsimp -proj -beta only []; split))

end Sys2Proof.Machine
end

