-- ==== Sys2Proof/Laws/MemMailbox.lean ====
section
/-! SUPPORT. Every operation keeps the memory of the mailbox buffers canonical -/

set_option linter.unusedTactic false
set_option linter.unreachableTactic false

namespace Sys2Proof.Machine

/-- If the memory is canonical in s, it is in t. -/
structure MbxMemOk (s t : State) : Prop where
  out : Memory.wf ramByte s.host.mem = true → Memory.wf ramByte t.host.mem = true

/-- A meaning answers a next state so related to s. -/
structure AnswersMbxMemOk (s : State) (o : Out) : Prop where
  out : ∃ t, o = .next t ∧ MbxMemOk s t

theorem MbxMemOk.refl (s : State) : MbxMemOk s s := ⟨fun x => x⟩

theorem MbxMemOk.trans {s t u : State} (h : MbxMemOk s t) (g : MbxMemOk t u) : MbxMemOk s u := ⟨fun x => g.out (h.out x)⟩

theorem MbxMemOk.step {s t u : State} (g : MbxMemOk t u) (h : MbxMemOk s t) : MbxMemOk s u := h.trans g

theorem MbxMemOk.only {v : List Part} {s t u : State} (g : Only v t u) (hv : v.contains Part.host = false) (h : MbxMemOk s t) : MbxMemOk s u :=
  ⟨fun x => by rw [(g.out .host hv : u.host = t.host)]; exact h.out x⟩

theorem MbxMemOk.ite {s a b : State} {c : Prop} [Decidable c] (ha : MbxMemOk s a) (hb : MbxMemOk s b) : MbxMemOk s (if c then a else b) := by
  split <;> assumption

theorem MbxMemOk.foldl {α : Type} {s : State} {f : State → α → State} {l : List α} {x : State}
    (hf : ∀ y a, MbxMemOk s y → MbxMemOk s (f y a)) (hx : MbxMemOk s x) : MbxMemOk s (l.foldl f x) := by
  induction l generalizing x with
  | nil => exact hx
  | cons a l ih => exact ih (hf x a hx)

theorem MbxMemOk.eq_fst {α : Type} {t a : State} {p : State × α} {b : α} (h : MbxMemOk t p.1) (e : p = (a, b)) : MbxMemOk t a := by
  subst e; exact h

theorem MbxMemOk.eq_snd {α : Type} {t a : State} {p : α × State} {b : α} (h : MbxMemOk t p.2) (e : p = (b, a)) : MbxMemOk t a := by
  subst e; exact h

theorem AnswersMbxMemOk.next {s t : State} (h : MbxMemOk s t) : AnswersMbxMemOk s (.next t) := ⟨t, rfl, h⟩

theorem MbxMemOk.rfl {a : Hst} : Memory.wf ramByte a.mem = true → Memory.wf ramByte a.mem = true := id

theorem MbxMemOk.upd {s x y : State} (h : MbxMemOk s x) (g : Memory.wf ramByte x.host.mem = true → Memory.wf ramByte y.host.mem = true) :
    MbxMemOk s y := ⟨fun w => g (h.out w)⟩


theorem MbxMemOk.frm {s x : State} {v0 : Frm} (h : MbxMemOk s x) :
    MbxMemOk s { x with frm := v0 } := by
  exact MbxMemOk.upd h MbxMemOk.rfl

theorem MbxMemOk.axes {s x : State} {v0 : Tbl Axis} (h : MbxMemOk s x) :
    MbxMemOk s { x with axes := v0 } := by
  exact MbxMemOk.upd h MbxMemOk.rfl

theorem MbxMemOk.lines {s x : State} {v0 : Tbl Line} (h : MbxMemOk s x) :
    MbxMemOk s { x with lines := v0 } := by
  exact MbxMemOk.upd h MbxMemOk.rfl

theorem MbxMemOk.cams {s x : State} {v0 : Tbl CamTable} (h : MbxMemOk s x) :
    MbxMemOk s { x with cams := v0 } := by
  exact MbxMemOk.upd h MbxMemOk.rfl

theorem MbxMemOk.camStg {s x : State} {v0 : Tbl (List Host.Cell)} (h : MbxMemOk s x) :
    MbxMemOk s { x with camStg := v0 } := by
  exact MbxMemOk.upd h MbxMemOk.rfl

theorem MbxMemOk.zones {s x : State} {v0 : Tbl Zone} (h : MbxMemOk s x) :
    MbxMemOk s { x with zones := v0 } := by
  exact MbxMemOk.upd h MbxMemOk.rfl

theorem MbxMemOk.steps {s x : State} {v0 : Tbl StepCh} (h : MbxMemOk s x) :
    MbxMemOk s { x with steps := v0 } := by
  exact MbxMemOk.upd h MbxMemOk.rfl

theorem MbxMemOk.encs {s x : State} {v0 : Tbl Enc} (h : MbxMemOk s x) :
    MbxMemOk s { x with encs := v0 } := by
  exact MbxMemOk.upd h MbxMemOk.rfl

theorem MbxMemOk.net {s x : State} {v0 : Net} (h : MbxMemOk s x) :
    MbxMemOk s { x with net := v0 } := by
  exact MbxMemOk.upd h MbxMemOk.rfl

theorem MbxMemOk.dsp {s x : State} {v0 : Dsp} (h : MbxMemOk s x) :
    MbxMemOk s { x with dsp := v0 } := by
  exact MbxMemOk.upd h MbxMemOk.rfl

theorem MbxMemOk.red {s x : State} {v0 : Red} (h : MbxMemOk s x) :
    MbxMemOk s { x with red := v0 } := by
  exact MbxMemOk.upd h MbxMemOk.rfl

theorem MbxMemOk.saf {s x : State} {v0 : Saf} (h : MbxMemOk s x) :
    MbxMemOk s { x with saf := v0 } := by
  exact MbxMemOk.upd h MbxMemOk.rfl

theorem MbxMemOk.fio {s x : State} {v0 : Fio} (h : MbxMemOk s x) :
    MbxMemOk s { x with fio := v0 } := by
  exact MbxMemOk.upd h MbxMemOk.rfl

theorem MbxMemOk.cap {s x : State} {v0 : Cap} (h : MbxMemOk s x) :
    MbxMemOk s { x with cap := v0 } := by
  exact MbxMemOk.upd h MbxMemOk.rfl

theorem MbxMemOk.prf {s x : State} {v0 : Prf} (h : MbxMemOk s x) :
    MbxMemOk s { x with prf := v0 } := by
  exact MbxMemOk.upd h MbxMemOk.rfl

theorem MbxMemOk.host {s x : State} {v0 : Hst} (g : Memory.wf ramByte x.host.mem = true → Memory.wf ramByte v0.mem = true) (h : MbxMemOk s x) :
    MbxMemOk s { x with host := v0 } := by
  exact MbxMemOk.upd h g

theorem MbxMemOk.evt {s x : State} {v0 : Evt} (h : MbxMemOk s x) :
    MbxMemOk s { x with evt := v0 } := by
  exact MbxMemOk.upd h MbxMemOk.rfl

theorem MbxMemOk.params {s x : State} {v0 : Tbl W64} (h : MbxMemOk s x) :
    MbxMemOk s { x with params := v0 } := by
  exact MbxMemOk.upd h MbxMemOk.rfl

theorem MbxMemOk.cfg {s x : State} {v0 : Cfg} (h : MbxMemOk s x) :
    MbxMemOk s { x with cfg := v0 } := by
  exact MbxMemOk.upd h MbxMemOk.rfl

theorem MbxMemOk.pwr {s x : State} {v0 : Pwr} (h : MbxMemOk s x) :
    MbxMemOk s { x with pwr := v0 } := by
  exact MbxMemOk.upd h MbxMemOk.rfl

theorem MbxMemOk.lgr {s x : State} {v0 : Lgr} (h : MbxMemOk s x) :
    MbxMemOk s { x with lgr := v0 } := by
  exact MbxMemOk.upd h MbxMemOk.rfl

theorem MbxMemOk.pending {s x : State} {v0 : List Instr} (h : MbxMemOk s x) :
    MbxMemOk s { x with pending := v0 } := by
  exact MbxMemOk.upd h MbxMemOk.rfl

theorem MbxMemOk.axes_lines_cams_zones_params {s x : State} {v0 : Tbl Axis} {v1 : Tbl Line} {v2 : Tbl CamTable} {v3 : Tbl Zone} {v4 : Tbl W64} (h : MbxMemOk s x) :
    MbxMemOk s { x with axes := v0, lines := v1, cams := v2, zones := v3, params := v4 } := by
  exact MbxMemOk.upd h MbxMemOk.rfl

theorem MbxMemOk.axes_lines_zones {s x : State} {v0 : Tbl Axis} {v1 : Tbl Line} {v2 : Tbl Zone} (h : MbxMemOk s x) :
    MbxMemOk s { x with axes := v0, lines := v1, zones := v2 } := by
  exact MbxMemOk.upd h MbxMemOk.rfl

theorem MbxMemOk.cams_camStg_evt_params {s x : State} {v0 : Tbl CamTable} {v1 : Tbl (List Host.Cell)} {v2 : Evt} {v3 : Tbl W64} (h : MbxMemOk s x) :
    MbxMemOk s { x with cams := v0, camStg := v1, evt := v2, params := v3 } := by
  exact MbxMemOk.upd h MbxMemOk.rfl

theorem MbxMemOk.dsp_prf {s x : State} {v0 : Dsp} {v1 : Prf} (h : MbxMemOk s x) :
    MbxMemOk s { x with dsp := v0, prf := v1 } := by
  exact MbxMemOk.upd h MbxMemOk.rfl

theorem MbxMemOk.fio_cap {s x : State} {v0 : Fio} {v1 : Cap} (h : MbxMemOk s x) :
    MbxMemOk s { x with fio := v0, cap := v1 } := by
  exact MbxMemOk.upd h MbxMemOk.rfl

theorem MbxMemOk.frm_cams {s x : State} {v0 : Frm} {v1 : Tbl CamTable} (h : MbxMemOk s x) :
    MbxMemOk s { x with frm := v0, cams := v1 } := by
  exact MbxMemOk.upd h MbxMemOk.rfl

theorem MbxMemOk.frm_dsp {s x : State} {v0 : Frm} {v1 : Dsp} (h : MbxMemOk s x) :
    MbxMemOk s { x with frm := v0, dsp := v1 } := by
  exact MbxMemOk.upd h MbxMemOk.rfl

theorem MbxMemOk.frm_evt_pwr {s x : State} {v0 : Frm} {v1 : Evt} {v2 : Pwr} (h : MbxMemOk s x) :
    MbxMemOk s { x with frm := v0, evt := v1, pwr := v2 } := by
  exact MbxMemOk.upd h MbxMemOk.rfl

theorem MbxMemOk.frm_fio {s x : State} {v0 : Frm} {v1 : Fio} (h : MbxMemOk s x) :
    MbxMemOk s { x with frm := v0, fio := v1 } := by
  exact MbxMemOk.upd h MbxMemOk.rfl

theorem MbxMemOk.frm_host_cfg_pwr {s x : State} {v0 : Frm} {v1 : Hst} {v2 : Cfg} {v3 : Pwr} (g : Memory.wf ramByte x.host.mem = true → Memory.wf ramByte v1.mem = true) (h : MbxMemOk s x) :
    MbxMemOk s { x with frm := v0, host := v1, cfg := v2, pwr := v3 } := by
  exact MbxMemOk.upd h g

theorem MbxMemOk.frm_net {s x : State} {v0 : Frm} {v1 : Net} (h : MbxMemOk s x) :
    MbxMemOk s { x with frm := v0, net := v1 } := by
  exact MbxMemOk.upd h MbxMemOk.rfl

theorem MbxMemOk.frm_net_evt_cfg {s x : State} {v0 : Frm} {v1 : Net} {v2 : Evt} {v3 : Cfg} (h : MbxMemOk s x) :
    MbxMemOk s { x with frm := v0, net := v1, evt := v2, cfg := v3 } := by
  exact MbxMemOk.upd h MbxMemOk.rfl

theorem MbxMemOk.frm_net_red {s x : State} {v0 : Frm} {v1 : Net} {v2 : Red} (h : MbxMemOk s x) :
    MbxMemOk s { x with frm := v0, net := v1, red := v2 } := by
  exact MbxMemOk.upd h MbxMemOk.rfl

theorem MbxMemOk.host_pwr {s x : State} {v0 : Hst} {v1 : Pwr} (g : Memory.wf ramByte x.host.mem = true → Memory.wf ramByte v0.mem = true) (h : MbxMemOk s x) :
    MbxMemOk s { x with host := v0, pwr := v1 } := by
  exact MbxMemOk.upd h g

theorem MbxMemOk.lines_red_evt {s x : State} {v0 : Tbl Line} {v1 : Red} {v2 : Evt} (h : MbxMemOk s x) :
    MbxMemOk s { x with lines := v0, red := v1, evt := v2 } := by
  exact MbxMemOk.upd h MbxMemOk.rfl

theorem MbxMemOk.net_fio {s x : State} {v0 : Net} {v1 : Fio} (h : MbxMemOk s x) :
    MbxMemOk s { x with net := v0, fio := v1 } := by
  exact MbxMemOk.upd h MbxMemOk.rfl

theorem MbxMemOk.net_red {s x : State} {v0 : Net} {v1 : Red} (h : MbxMemOk s x) :
    MbxMemOk s { x with net := v0, red := v1 } := by
  exact MbxMemOk.upd h MbxMemOk.rfl

theorem MbxMemOk.net_red_evt {s x : State} {v0 : Net} {v1 : Red} {v2 : Evt} (h : MbxMemOk s x) :
    MbxMemOk s { x with net := v0, red := v1, evt := v2 } := by
  exact MbxMemOk.upd h MbxMemOk.rfl

theorem MbxMemOk.prf_pwr {s x : State} {v0 : Prf} {v1 : Pwr} (h : MbxMemOk s x) :
    MbxMemOk s { x with prf := v0, pwr := v1 } := by
  exact MbxMemOk.upd h MbxMemOk.rfl

theorem MbxMemOk.pwr_lgr {s x : State} {v0 : Pwr} {v1 : Lgr} (h : MbxMemOk s x) :
    MbxMemOk s { x with pwr := v0, lgr := v1 } := by
  exact MbxMemOk.upd h MbxMemOk.rfl

theorem MbxMemOk.red_cfg {s x : State} {v0 : Red} {v1 : Cfg} (h : MbxMemOk s x) :
    MbxMemOk s { x with red := v0, cfg := v1 } := by
  exact MbxMemOk.upd h MbxMemOk.rfl

theorem MbxMemOk.red_evt {s x : State} {v0 : Red} {v1 : Evt} (h : MbxMemOk s x) :
    MbxMemOk s { x with red := v0, evt := v1 } := by
  exact MbxMemOk.upd h MbxMemOk.rfl

theorem MbxMemOk.saf_cfg {s x : State} {v0 : Saf} {v1 : Cfg} (h : MbxMemOk s x) :
    MbxMemOk s { x with saf := v0, cfg := v1 } := by
  exact MbxMemOk.upd h MbxMemOk.rfl

theorem MbxMemOk.saf_host_cfg {s x : State} {v0 : Saf} {v1 : Hst} {v2 : Cfg} (g : Memory.wf ramByte x.host.mem = true → Memory.wf ramByte v1.mem = true) (h : MbxMemOk s x) :
    MbxMemOk s { x with saf := v0, host := v1, cfg := v2 } := by
  exact MbxMemOk.upd h g

theorem MbxMemOk.saf_pwr {s x : State} {v0 : Saf} {v1 : Pwr} (h : MbxMemOk s x) :
    MbxMemOk s { x with saf := v0, pwr := v1 } := by
  exact MbxMemOk.upd h MbxMemOk.rfl

theorem MbxMemOk.saf_pwr_lgr {s x : State} {v0 : Saf} {v1 : Pwr} {v2 : Lgr} (h : MbxMemOk s x) :
    MbxMemOk s { x with saf := v0, pwr := v1, lgr := v2 } := by
  exact MbxMemOk.upd h MbxMemOk.rfl

theorem State.hostWord_mbxOk (s : State) (w : W32) : MbxMemOk s (State.hostWord s w) := by
  unfold State.hostWord
  repeat (first
    | with_reducible exact MbxMemOk.refl _
    | with_reducible assumption
    | ((with_reducible apply MbxMemOk.only (State.bwBytes_only ..)); decide)
    | ((with_reducible apply MbxMemOk.only (State.pulseX_only ..)); decide)
    | fail_if_no_progress with_reducible refine MbxMemOk.host (by first | exact id | exact twf_tset _ _ _ | exact wf_mwrite _ _ _ _ | exact wf_merase _ _ _ _ | exact fun w => wf_mwrite _ _ _ _ (wf_mwrite _ _ _ _ w) | exact fun _ => twf_nil _) ?_)

theorem State.hostWrite_mbxOk (s : State) : MbxMemOk s (State.hostWrite s) := by
  unfold State.hostWrite
  repeat (first
    | with_reducible exact MbxMemOk.refl _
    | with_reducible assumption
    | ((with_reducible apply MbxMemOk.only (State.bwBytes_only ..)); decide)
    | ((with_reducible apply MbxMemOk.only (State.pulseX_only ..)); decide)
    | fail_if_no_progress with_reducible refine MbxMemOk.host (by first | exact id | exact twf_tset _ _ _ | exact wf_mwrite _ _ _ _ | exact wf_merase _ _ _ _ | exact fun w => wf_mwrite _ _ _ _ (wf_mwrite _ _ _ _ w) | exact fun _ => twf_nil _) ?_)

theorem execNetOfsrange_mbxOk (s : State) : AnswersMbxMemOk s (execNetOfsrange s) := by
  unfold execNetOfsrange
  repeat (first
    | with_reducible refine AnswersMbxMemOk.next ?_
    | with_reducible exact MbxMemOk.refl _
    | with_reducible assumption
    | with_reducible apply MbxMemOk.step (State.hostWord_mbxOk ..)
    | ((with_reducible apply MbxMemOk.only (State.setNode_only ..)); decide))

theorem execNetHeadidLo_mbxOk (s : State) : AnswersMbxMemOk s (execNetHeadidLo s) := by
  unfold execNetHeadidLo
  repeat (first
    | with_reducible refine AnswersMbxMemOk.next ?_
    | with_reducible exact MbxMemOk.refl _
    | with_reducible assumption
    | with_reducible apply MbxMemOk.step (State.hostWord_mbxOk ..))

theorem execNetPeeridLo_mbxOk (s : State) : AnswersMbxMemOk s (execNetPeeridLo s) := by
  unfold execNetPeeridLo
  repeat (first
    | with_reducible refine AnswersMbxMemOk.next ?_
    | with_reducible exact MbxMemOk.refl _
    | with_reducible assumption
    | with_reducible apply MbxMemOk.step (State.hostWord_mbxOk ..)
    | fail_if_no_progress with_reducible refine MbxMemOk.net ?_)

theorem State.feedTake_mbxOk (s : State) : MbxMemOk s (State.feedTake s) := by
  unfold State.feedTake
  repeat (first
    | with_reducible exact MbxMemOk.refl _
    | with_reducible assumption
    | fail_if_no_progress with_reducible refine MbxMemOk.host (by first | exact id | exact twf_tset _ _ _ | exact wf_mwrite _ _ _ _ | exact wf_merase _ _ _ _ | exact fun w => wf_mwrite _ _ _ _ (wf_mwrite _ _ _ _ w) | exact fun _ => twf_nil _) ?_)

theorem State.frameEnd_mbxOk (s : State) (t : Nat) : MbxMemOk s (State.frameEnd s t) := by
  unfold State.frameEnd
  repeat (first
    | with_reducible exact MbxMemOk.refl _
    | with_reducible assumption
    | ((with_reducible apply MbxMemOk.only (State.redFrameEnd_only ..)); decide)
    | ((with_reducible apply MbxMemOk.only (State.frameStats_only ..)); decide)
    | with_reducible apply MbxMemOk.step (State.feedTake_mbxOk ..)
    | ((with_reducible apply MbxMemOk.only (State.goto_only ..)); decide)
    | with_reducible refine MbxMemOk.ite ?_ ?_)

theorem execFrameTick_mbxOk (s : State) : AnswersMbxMemOk s (execFrameTick s) := by
  unfold execFrameTick
  repeat (first
    | with_reducible refine AnswersMbxMemOk.next ?_
    | with_reducible exact MbxMemOk.refl _
    | with_reducible assumption
    | ((with_reducible apply MbxMemOk.only (State.tickSends_only ..)); decide)
    | ((with_reducible apply MbxMemOk.only (State.frameBegin_only ..)); decide)
    | with_reducible apply MbxMemOk.step (State.frameEnd_mbxOk ..)
    | ((with_reducible apply MbxMemOk.only (State.lockSlew_only ..)); decide)
    | ((with_reducible apply MbxMemOk.only (State.lsyncRise_only ..)); decide)
    | ((with_reducible apply MbxMemOk.only (State.redTick_only ..)); decide)
    | ((with_reducible apply MbxMemOk.only (State.pulseX_only ..)); decide)
    | with_reducible refine MbxMemOk.ite ?_ ?_)

theorem execFrmTimeLo_mbxOk (s : State) : AnswersMbxMemOk s (execFrmTimeLo s) := by
  unfold execFrmTimeLo
  repeat (first
    | with_reducible refine AnswersMbxMemOk.next ?_
    | with_reducible exact MbxMemOk.refl _
    | with_reducible assumption
    | with_reducible apply MbxMemOk.step (State.hostWord_mbxOk ..)
    | fail_if_no_progress with_reducible refine MbxMemOk.frm ?_)

theorem execFrmFcntLo_mbxOk (s : State) : AnswersMbxMemOk s (execFrmFcntLo s) := by
  unfold execFrmFcntLo
  repeat (first
    | with_reducible refine AnswersMbxMemOk.next ?_
    | with_reducible exact MbxMemOk.refl _
    | with_reducible assumption
    | with_reducible apply MbxMemOk.step (State.hostWord_mbxOk ..)
    | fail_if_no_progress with_reducible refine MbxMemOk.frm ?_)

theorem execFrmT0Lo_mbxOk (s : State) : AnswersMbxMemOk s (execFrmT0Lo s) := by
  unfold execFrmT0Lo
  repeat (first
    | with_reducible refine AnswersMbxMemOk.next ?_
    | with_reducible exact MbxMemOk.refl _
    | with_reducible assumption
    | with_reducible apply MbxMemOk.step (State.hostWord_mbxOk ..)
    | fail_if_no_progress with_reducible refine MbxMemOk.frm ?_)

theorem execFrmLsinLo_mbxOk (s : State) : AnswersMbxMemOk s (execFrmLsinLo s) := by
  unfold execFrmLsinLo
  repeat (first
    | with_reducible refine AnswersMbxMemOk.next ?_
    | with_reducible exact MbxMemOk.refl _
    | with_reducible assumption
    | with_reducible apply MbxMemOk.step (State.hostWord_mbxOk ..)
    | fail_if_no_progress with_reducible refine MbxMemOk.frm ?_)

theorem execFrmTurnmax_mbxOk (s : State) : AnswersMbxMemOk s (execFrmTurnmax s) := by
  unfold execFrmTurnmax
  repeat (first
    | with_reducible refine AnswersMbxMemOk.next ?_
    | with_reducible exact MbxMemOk.refl _
    | with_reducible assumption
    | ((with_reducible apply MbxMemOk.only (State.turn_only ..)); decide)
    | with_reducible apply MbxMemOk.step (State.hostWord_mbxOk ..)
    | fail_if_no_progress with_reducible refine MbxMemOk.frm ?_)

theorem State.ledRequest_mbxOk (s : State) : MbxMemOk s (State.ledRequest s) := by
  unfold State.ledRequest
  repeat (first
    | with_reducible exact MbxMemOk.refl _
    | with_reducible assumption
    | with_reducible apply MbxMemOk.step (State.take_mbxOk ..)
    | fail_if_no_progress with_reducible refine MbxMemOk.lgr ?_)

theorem execLgrSel_mbxOk (v : W32) (s : State) : AnswersMbxMemOk s (execLgrSel v s) := by
  unfold execLgrSel
  repeat (first
    | with_reducible refine AnswersMbxMemOk.next ?_
    | with_reducible exact MbxMemOk.refl _
    | with_reducible assumption
    | with_reducible apply MbxMemOk.step (State.hostWrite_mbxOk ..)
    | with_reducible refine MbxMemOk.ite ?_ ?_
    | fail_if_no_progress with_reducible refine MbxMemOk.lgr ?_)

theorem State.setBuf_mbxOk (s : State) (j : Nat) (x : BufSt) : MbxMemOk s (State.setBuf s j x) := by
  unfold State.setBuf
  repeat (first
    | with_reducible exact MbxMemOk.refl _
    | with_reducible assumption
    | fail_if_no_progress with_reducible refine MbxMemOk.host (by first | exact id | exact twf_tset _ _ _ | exact wf_mwrite _ _ _ _ | exact wf_merase _ _ _ _ | exact fun w => wf_mwrite _ _ _ _ (wf_mwrite _ _ _ _ w) | exact fun _ => twf_nil _) ?_)

theorem State.protoErr_mbxOk (s : State) (bit : Nat) : MbxMemOk s (State.protoErr s bit) := by
  unfold State.protoErr
  repeat (first
    | with_reducible exact MbxMemOk.refl _
    | with_reducible assumption
    | ((with_reducible apply MbxMemOk.only (State.raiseDev_only ..)); decide)
    | fail_if_no_progress with_reducible refine MbxMemOk.host (by first | exact id | exact twf_tset _ _ _ | exact wf_mwrite _ _ _ _ | exact wf_merase _ _ _ _ | exact fun w => wf_mwrite _ _ _ _ (wf_mwrite _ _ _ _ w) | exact fun _ => twf_nil _) ?_)

theorem State.present_mbxOk (s : State) : MbxMemOk s (State.present s) := by
  unfold State.present
  repeat (first
    | with_reducible exact MbxMemOk.refl _
    | with_reducible assumption
    | fail_if_no_progress with_reducible refine MbxMemOk.host (by first | exact id | exact twf_tset _ _ _ | exact wf_mwrite _ _ _ _ | exact wf_merase _ _ _ _ | exact fun w => wf_mwrite _ _ _ _ (wf_mwrite _ _ _ _ w) | exact fun _ => twf_nil _) ?_)

theorem execMbxAlloc_mbxOk (s : State) : AnswersMbxMemOk s (execMbxAlloc s) := by
  unfold execMbxAlloc
  repeat (first
    | with_reducible refine AnswersMbxMemOk.next ?_
    | with_reducible exact MbxMemOk.refl _
    | with_reducible assumption
    | with_reducible apply MbxMemOk.step (State.present_mbxOk ..)
    | with_reducible apply MbxMemOk.step (State.setBuf_mbxOk ..)
    | with_reducible apply MbxMemOk.step (State.hostWord_mbxOk ..)
    | fail_if_no_progress with_reducible refine MbxMemOk.host (by first | exact id | exact twf_tset _ _ _ | exact wf_mwrite _ _ _ _ | exact wf_merase _ _ _ _ | exact fun w => wf_mwrite _ _ _ _ (wf_mwrite _ _ _ _ w) | exact fun _ => twf_nil _) ?_
    | split
    | (dsimp -proj -beta only []; split))

theorem execMbxFree_mbxOk (v : W32) (s : State) : AnswersMbxMemOk s (execMbxFree v s) := by
  unfold execMbxFree
  repeat (first
    | with_reducible refine AnswersMbxMemOk.next ?_
    | with_reducible exact MbxMemOk.refl _
    | with_reducible assumption
    | with_reducible apply MbxMemOk.step (State.present_mbxOk ..)
    | with_reducible apply MbxMemOk.step (State.protoErr_mbxOk ..)
    | with_reducible apply MbxMemOk.step (State.setBuf_mbxOk ..)
    | with_reducible apply MbxMemOk.step (State.hostWrite_mbxOk ..)
    | with_reducible refine MbxMemOk.ite ?_ ?_
    | fail_if_no_progress with_reducible refine MbxMemOk.host (by first | exact id | exact twf_tset _ _ _ | exact wf_mwrite _ _ _ _ | exact wf_merase _ _ _ _ | exact fun w => wf_mwrite _ _ _ _ (wf_mwrite _ _ _ _ w) | exact fun _ => twf_nil _) ?_)

theorem execMbxDb_mbxOk (m : Fin 32) (v : W32) (s : State) : AnswersMbxMemOk s (execMbxDb m v s) := by
  unfold execMbxDb
  repeat (first
    | with_reducible refine AnswersMbxMemOk.next ?_
    | with_reducible exact MbxMemOk.refl _
    | with_reducible assumption
    | with_reducible apply MbxMemOk.step (State.protoErr_mbxOk ..)
    | with_reducible apply MbxMemOk.step (State.setBuf_mbxOk ..)
    | with_reducible apply MbxMemOk.step (State.hostWrite_mbxOk ..)
    | ((with_reducible apply MbxMemOk.only (State.pulseX_only ..)); decide)
    | with_reducible refine MbxMemOk.ite ?_ ?_
    | fail_if_no_progress with_reducible refine MbxMemOk.host (by first | exact id | exact twf_tset _ _ _ | exact wf_mwrite _ _ _ _ | exact wf_merase _ _ _ _ | exact fun w => wf_mwrite _ _ _ _ (wf_mwrite _ _ _ _ w) | exact fun _ => twf_nil _) ?_)

theorem execMbxAns_mbxOk (m : Fin 32) (s : State) : AnswersMbxMemOk s (execMbxAns m s) := by
  unfold execMbxAns
  repeat (first
    | with_reducible refine AnswersMbxMemOk.next ?_
    | with_reducible exact MbxMemOk.refl _
    | with_reducible assumption
    | with_reducible apply MbxMemOk.step (State.setBuf_mbxOk ..)
    | with_reducible apply MbxMemOk.step (State.hostWord_mbxOk ..)
    | fail_if_no_progress with_reducible refine MbxMemOk.host (by first | exact id | exact twf_tset _ _ _ | exact wf_mwrite _ _ _ _ | exact wf_merase _ _ _ _ | exact fun w => wf_mwrite _ _ _ _ (wf_mwrite _ _ _ _ w) | exact fun _ => twf_nil _) ?_
    | split
    | (dsimp -proj -beta only []; split))

theorem execMbxPoola_mbxOk (s : State) : AnswersMbxMemOk s (execMbxPoola s) := by
  unfold execMbxPoola
  repeat (first
    | with_reducible refine AnswersMbxMemOk.next ?_
    | with_reducible exact MbxMemOk.refl _
    | with_reducible assumption
    | with_reducible apply MbxMemOk.step (State.hostWord_mbxOk ..)
    | fail_if_no_progress with_reducible refine MbxMemOk.host (by first | exact id | exact twf_tset _ _ _ | exact wf_mwrite _ _ _ _ | exact wf_merase _ _ _ _ | exact fun w => wf_mwrite _ _ _ _ (wf_mwrite _ _ _ _ w) | exact fun _ => twf_nil _) ?_)

theorem execMailboxBufferWrite_mbxOk (off : Nat) (v : W32) (s : State) : AnswersMbxMemOk s (execMailboxBufferWrite off v s) := by
  unfold execMailboxBufferWrite
  repeat (first
    | with_reducible refine AnswersMbxMemOk.next ?_
    | with_reducible exact MbxMemOk.refl _
    | with_reducible assumption
    | with_reducible apply MbxMemOk.step (State.hostWrite_mbxOk ..)
    | with_reducible refine MbxMemOk.ite ?_ ?_
    | fail_if_no_progress with_reducible refine MbxMemOk.host (by first | exact id | exact twf_tset _ _ _ | exact wf_mwrite _ _ _ _ | exact wf_merase _ _ _ _ | exact fun w => wf_mwrite _ _ _ _ (wf_mwrite _ _ _ _ w) | exact fun _ => twf_nil _) ?_)

theorem State.answer_mbxOk (s : State) (m j status eff : Nat) (pay : List Byte) : MbxMemOk s (State.answer s m j status eff pay) := by
  unfold State.answer
  repeat (first
    | with_reducible exact MbxMemOk.refl _
    | with_reducible assumption
    | with_reducible apply MbxMemOk.step (State.setBuf_mbxOk ..)
    | ((with_reducible apply MbxMemOk.only (State.irq_only ..)); decide)
    | fail_if_no_progress with_reducible refine MbxMemOk.host (by first | exact id | exact twf_tset _ _ _ | exact wf_mwrite _ _ _ _ | exact wf_merase _ _ _ _ | exact fun w => wf_mwrite _ _ _ _ (wf_mwrite _ _ _ _ w) | exact fun _ => twf_nil _) ?_)

theorem State.take_mbxOk (s : State) (m j : Nat) (ready : Bool) : MbxMemOk s (State.take s m j ready) := by
  unfold State.take
  repeat (first
    | with_reducible exact MbxMemOk.refl _
    | with_reducible assumption
    | with_reducible apply MbxMemOk.step (State.setBuf_mbxOk ..)
    | fail_if_no_progress with_reducible refine MbxMemOk.host (by first | exact id | exact twf_tset _ _ _ | exact wf_mwrite _ _ _ _ | exact wf_merase _ _ _ _ | exact fun w => wf_mwrite _ _ _ _ (wf_mwrite _ _ _ _ w) | exact fun _ => twf_nil _) ?_)

theorem State.serve_mbxOk (s : State) (op : Nat) (f : State → Nat → Nat → State) (hf : ∀ y m j, MbxMemOk y (f y m j)) : MbxMemOk s (State.serve s op f) := by
  unfold State.serve
  repeat (first
    | with_reducible exact MbxMemOk.refl _
    | with_reducible assumption
    | with_reducible apply MbxMemOk.step (hf ..)
    | with_reducible apply MbxMemOk.step (State.take_mbxOk ..)
    | with_reducible refine MbxMemOk.ite ?_ ?_
    | split
    | (dsimp -proj -beta only []; split))

theorem execBadOpcode_mbxOk (s : State) : AnswersMbxMemOk s (execBadOpcode s) := by
  unfold execBadOpcode
  repeat (first
    | with_reducible refine AnswersMbxMemOk.next ?_
    | with_reducible exact MbxMemOk.refl _
    | with_reducible assumption
    | with_reducible apply MbxMemOk.step (State.take_mbxOk ..)
    | with_reducible apply MbxMemOk.step (State.answer_mbxOk ..)
    | with_reducible refine MbxMemOk.ite ?_ ?_
    | split
    | (dsimp -proj -beta only []; split))

theorem execEcho_mbxOk (s : State) : AnswersMbxMemOk s (execEcho s) := by
  unfold execEcho
  repeat (first
    | with_reducible refine AnswersMbxMemOk.next ?_
    | with_reducible exact MbxMemOk.refl _
    | with_reducible assumption
    | with_reducible refine State.serve_mbxOk _ _ _ ?_
    | (intro _ _ _; try beta_reduce)
    | with_reducible apply MbxMemOk.step (State.answer_mbxOk ..)
    | with_reducible refine MbxMemOk.ite ?_ ?_)

theorem execParamRead_mbxOk (s : State) : AnswersMbxMemOk s (execParamRead s) := by
  unfold execParamRead
  repeat (first
    | with_reducible refine AnswersMbxMemOk.next ?_
    | with_reducible exact MbxMemOk.refl _
    | with_reducible assumption
    | with_reducible refine State.serve_mbxOk _ _ _ ?_
    | (intro _ _ _; try beta_reduce)
    | with_reducible apply MbxMemOk.step (State.answer_mbxOk ..)
    | with_reducible refine MbxMemOk.ite ?_ ?_)

theorem execParamInfo_mbxOk (s : State) : AnswersMbxMemOk s (execParamInfo s) := by
  unfold execParamInfo
  repeat (first
    | with_reducible refine AnswersMbxMemOk.next ?_
    | with_reducible exact MbxMemOk.refl _
    | with_reducible assumption
    | with_reducible refine State.serve_mbxOk _ _ _ ?_
    | (intro _ _ _; try beta_reduce)
    | with_reducible apply MbxMemOk.step (State.answer_mbxOk ..)
    | with_reducible refine MbxMemOk.ite ?_ ?_)

theorem execParamWrite_mbxOk (s : State) : AnswersMbxMemOk s (execParamWrite s) := by
  unfold execParamWrite
  repeat (first
    | with_reducible refine AnswersMbxMemOk.next ?_
    | with_reducible exact MbxMemOk.refl _
    | with_reducible assumption
    | with_reducible refine State.serve_mbxOk _ _ _ ?_
    | (intro _ _ _; try beta_reduce)
    | with_reducible apply MbxMemOk.step (State.answer_mbxOk ..)
    | with_reducible refine MbxMemOk.ite ?_ ?_)

theorem execGrpClrderate_mbxOk (s : State) : AnswersMbxMemOk s (execGrpClrderate s) := by
  unfold execGrpClrderate
  repeat (first
    | with_reducible refine AnswersMbxMemOk.next ?_
    | with_reducible exact MbxMemOk.refl _
    | with_reducible assumption
    | with_reducible refine State.serve_mbxOk _ _ _ ?_
    | (intro _ _ _; try beta_reduce)
    | with_reducible apply MbxMemOk.step (State.answer_mbxOk ..)
    | with_reducible refine MbxMemOk.ite ?_ ?_
    | fail_if_no_progress with_reducible refine MbxMemOk.evt ?_)

theorem execYield_mbxOk (s : State) : AnswersMbxMemOk s (execYield s) := by
  unfold execYield
  repeat (first
    | with_reducible refine AnswersMbxMemOk.next ?_
    | with_reducible exact MbxMemOk.refl _
    | with_reducible assumption
    | with_reducible refine State.serve_mbxOk _ _ _ ?_
    | (intro _ _ _; try beta_reduce)
    | with_reducible apply MbxMemOk.step (State.answer_mbxOk ..)
    | with_reducible refine MbxMemOk.ite ?_ ?_
    | fail_if_no_progress with_reducible refine MbxMemOk.red ?_)

theorem State.setTaken_mbxOk (s : State) (t : Taken) : MbxMemOk s (State.setTaken s t) := by
  unfold State.setTaken
  repeat (first
    | with_reducible exact MbxMemOk.refl _
    | with_reducible assumption
    | with_reducible refine MbxMemOk.ite ?_ ?_
    | fail_if_no_progress with_reducible refine MbxMemOk.host (by first | exact id | exact twf_tset _ _ _ | exact wf_mwrite _ _ _ _ | exact wf_merase _ _ _ _ | exact fun w => wf_mwrite _ _ _ _ (wf_mwrite _ _ _ _ w) | exact fun _ => twf_nil _) ?_)

theorem State.axEntry_mbxOk (s : State) (sub : Nat) (t : Taken) : MbxMemOk s (State.axEntry s sub t) := by
  unfold State.axEntry
  repeat (first
    | with_reducible exact MbxMemOk.refl _
    | with_reducible assumption
    | with_reducible apply MbxMemOk.step (State.setTaken_mbxOk ..)
    | with_reducible refine MbxMemOk.ite ?_ ?_)

theorem State.axRow_mbxOk (s : State) (sub : Nat) : MbxMemOk s (State.axRow s sub) := by
  unfold State.axRow
  repeat (first
    | with_reducible exact MbxMemOk.refl _
    | with_reducible assumption
    | with_reducible apply MbxMemOk.step (State.axEntry_mbxOk ..)
    | with_reducible apply MbxMemOk.step (State.take_mbxOk ..)
    | with_reducible apply MbxMemOk.step (State.answer_mbxOk ..)
    | with_reducible refine MbxMemOk.ite ?_ ?_
    | split
    | (dsimp -proj -beta only []; split))

theorem execEnable_mbxOk (s : State) : AnswersMbxMemOk s (execEnable s) := by
  unfold execEnable
  repeat (first
    | with_reducible refine AnswersMbxMemOk.next ?_
    | with_reducible exact MbxMemOk.refl _
    | with_reducible assumption
    | with_reducible apply MbxMemOk.step (State.axRow_mbxOk ..))

theorem execClose_mbxOk (s : State) : AnswersMbxMemOk s (execClose s) := by
  unfold execClose
  repeat (first
    | with_reducible refine AnswersMbxMemOk.next ?_
    | with_reducible exact MbxMemOk.refl _
    | with_reducible assumption
    | with_reducible apply MbxMemOk.step (State.axRow_mbxOk ..))

theorem execOpenLoop_mbxOk (s : State) : AnswersMbxMemOk s (execOpenLoop s) := by
  unfold execOpenLoop
  repeat (first
    | with_reducible refine AnswersMbxMemOk.next ?_
    | with_reducible exact MbxMemOk.refl _
    | with_reducible assumption
    | with_reducible apply MbxMemOk.step (State.axRow_mbxOk ..))

theorem execFreeze_mbxOk (s : State) : AnswersMbxMemOk s (execFreeze s) := by
  unfold execFreeze
  repeat (first
    | with_reducible refine AnswersMbxMemOk.next ?_
    | with_reducible exact MbxMemOk.refl _
    | with_reducible assumption
    | with_reducible apply MbxMemOk.step (State.axRow_mbxOk ..))

theorem execDisable_mbxOk (s : State) : AnswersMbxMemOk s (execDisable s) := by
  unfold execDisable
  repeat (first
    | with_reducible refine AnswersMbxMemOk.next ?_
    | with_reducible exact MbxMemOk.refl _
    | with_reducible assumption
    | with_reducible apply MbxMemOk.step (State.axRow_mbxOk ..))

theorem execAck_mbxOk (s : State) : AnswersMbxMemOk s (execAck s) := by
  unfold execAck
  repeat (first
    | with_reducible refine AnswersMbxMemOk.next ?_
    | with_reducible exact MbxMemOk.refl _
    | with_reducible assumption
    | with_reducible apply MbxMemOk.step (State.axRow_mbxOk ..))

theorem execStop_mbxOk (s : State) : AnswersMbxMemOk s (execStop s) := by
  unfold execStop
  repeat (first
    | with_reducible refine AnswersMbxMemOk.next ?_
    | with_reducible exact MbxMemOk.refl _
    | with_reducible assumption
    | with_reducible apply MbxMemOk.step (State.axRow_mbxOk ..))

theorem execHome_mbxOk (s : State) : AnswersMbxMemOk s (execHome s) := by
  unfold execHome
  repeat (first
    | with_reducible refine AnswersMbxMemOk.next ?_
    | with_reducible exact MbxMemOk.refl _
    | with_reducible assumption
    | with_reducible apply MbxMemOk.step (State.axRow_mbxOk ..))

theorem execDiaSet_mbxOk (s : State) : AnswersMbxMemOk s (execDiaSet s) := by
  unfold execDiaSet
  repeat (first
    | with_reducible refine AnswersMbxMemOk.next ?_
    | with_reducible exact MbxMemOk.refl _
    | with_reducible assumption
    | with_reducible apply MbxMemOk.step (State.axRow_mbxOk ..))

theorem execCamStart_mbxOk (s : State) : AnswersMbxMemOk s (execCamStart s) := by
  unfold execCamStart
  repeat (first
    | with_reducible refine AnswersMbxMemOk.next ?_
    | with_reducible exact MbxMemOk.refl _
    | with_reducible assumption
    | with_reducible apply MbxMemOk.step (State.axRow_mbxOk ..))

theorem execCamSelect_mbxOk (s : State) : AnswersMbxMemOk s (execCamSelect s) := by
  unfold execCamSelect
  repeat (first
    | with_reducible refine AnswersMbxMemOk.next ?_
    | with_reducible exact MbxMemOk.refl _
    | with_reducible assumption
    | with_reducible apply MbxMemOk.step (State.axRow_mbxOk ..))

theorem execCamWrite_mbxOk (s : State) : AnswersMbxMemOk s (execCamWrite s) := by
  unfold execCamWrite
  repeat (first
    | with_reducible refine AnswersMbxMemOk.next ?_
    | with_reducible exact MbxMemOk.refl _
    | with_reducible assumption
    | with_reducible refine State.serve_mbxOk _ _ _ ?_
    | (intro _ _ _; try beta_reduce)
    | with_reducible apply MbxMemOk.step (State.answer_mbxOk ..)
    | with_reducible refine MbxMemOk.ite ?_ ?_
    | fail_if_no_progress with_reducible refine MbxMemOk.camStg ?_)

theorem execCamLoad_mbxOk (s : State) : AnswersMbxMemOk s (execCamLoad s) := by
  unfold execCamLoad
  repeat (first
    | with_reducible refine AnswersMbxMemOk.next ?_
    | with_reducible exact MbxMemOk.refl _
    | with_reducible assumption
    | with_reducible refine State.serve_mbxOk _ _ _ ?_
    | (intro _ _ _; try beta_reduce)
    | with_reducible apply MbxMemOk.step (State.answer_mbxOk ..)
    | with_reducible refine MbxMemOk.ite ?_ ?_
    | fail_if_no_progress with_reducible refine MbxMemOk.cams ?_)

theorem execMatrixRead_mbxOk (s : State) : AnswersMbxMemOk s (execMatrixRead s) := by
  unfold execMatrixRead
  repeat (first
    | with_reducible refine AnswersMbxMemOk.next ?_
    | with_reducible exact MbxMemOk.refl _
    | with_reducible assumption
    | with_reducible refine State.serve_mbxOk _ _ _ ?_
    | (intro _ _ _; try beta_reduce)
    | with_reducible apply MbxMemOk.step (State.answer_mbxOk ..)
    | with_reducible refine MbxMemOk.ite ?_ ?_)

theorem execFlogRead_mbxOk (s : State) : AnswersMbxMemOk s (execFlogRead s) := by
  unfold execFlogRead
  repeat (first
    | with_reducible refine AnswersMbxMemOk.next ?_
    | with_reducible exact MbxMemOk.refl _
    | with_reducible assumption
    | with_reducible refine State.serve_mbxOk _ _ _ ?_
    | (intro _ _ _; try beta_reduce)
    | with_reducible apply MbxMemOk.step (State.answer_mbxOk ..)
    | with_reducible refine MbxMemOk.ite ?_ ?_)

theorem State.dropReq_mbxOk (s : State) (m j : Nat) : MbxMemOk s (State.dropReq s m j) := by
  unfold State.dropReq
  repeat (first
    | with_reducible exact MbxMemOk.refl _
    | with_reducible assumption
    | with_reducible refine MbxMemOk.ite ?_ ?_
    | fail_if_no_progress with_reducible refine MbxMemOk.saf_host_cfg (by first | exact id | exact twf_tset _ _ _ | exact wf_mwrite _ _ _ _ | exact wf_merase _ _ _ _ | exact fun w => wf_mwrite _ _ _ _ (wf_mwrite _ _ _ _ w) | exact fun _ => twf_nil _) ?_
    | fail_if_no_progress with_reducible refine MbxMemOk.saf ?_
    | fail_if_no_progress with_reducible refine MbxMemOk.host (by first | exact id | exact twf_tset _ _ _ | exact wf_mwrite _ _ _ _ | exact wf_merase _ _ _ _ | exact fun w => wf_mwrite _ _ _ _ (wf_mwrite _ _ _ _ w) | exact fun _ => twf_nil _) ?_
    | fail_if_no_progress with_reducible refine MbxMemOk.cfg ?_
    | split
    | (dsimp -proj -beta only []; split))

theorem execMailboxTimeout_mbxOk (j : Fin 512) (s : State) : AnswersMbxMemOk s (execMailboxTimeout j s) := by
  unfold execMailboxTimeout
  repeat (first
    | with_reducible refine AnswersMbxMemOk.next ?_
    | with_reducible exact MbxMemOk.refl _
    | with_reducible assumption
    | with_reducible apply MbxMemOk.step (State.dropReq_mbxOk ..)
    | with_reducible apply MbxMemOk.step (State.answer_mbxOk ..)
    | ((with_reducible apply MbxMemOk.only (State.goto_only ..)); decide)
    | ((with_reducible apply MbxMemOk.only (State.raiseDev_only ..)); decide)
    | with_reducible refine MbxMemOk.ite ?_ ?_
    | split
    | (dsimp -proj -beta only []; split))

theorem State.roleChange_mbxOk (s : State) : MbxMemOk s (State.roleChange s) := by
  unfold State.roleChange
  repeat (first
    | with_reducible exact MbxMemOk.refl _
    | with_reducible assumption
    | with_reducible apply MbxMemOk.step (State.dropReq_mbxOk ..)
    | with_reducible apply MbxMemOk.step (State.answer_mbxOk ..)
    | with_reducible refine MbxMemOk.ite ?_ ?_
    | with_reducible refine MbxMemOk.foldl ?_ ?_
    | (intro _ _ _; try beta_reduce))

theorem execBar0UnsupportedAccess_mbxOk (_off _bytes : Nat) (s : State) : AnswersMbxMemOk s (execBar0UnsupportedAccess _off _bytes s) := by
  unfold execBar0UnsupportedAccess
  repeat (first
    | with_reducible refine AnswersMbxMemOk.next ?_
    | with_reducible exact MbxMemOk.refl _
    | with_reducible assumption
    | fail_if_no_progress with_reducible refine MbxMemOk.host (by first | exact id | exact twf_tset _ _ _ | exact wf_mwrite _ _ _ _ | exact wf_merase _ _ _ _ | exact fun w => wf_mwrite _ _ _ _ (wf_mwrite _ _ _ _ w) | exact fun _ => twf_nil _) ?_)

theorem execPcieLinkUp_mbxOk (speed width : Nat) (s : State) : AnswersMbxMemOk s (execPcieLinkUp speed width s) := by
  unfold execPcieLinkUp
  repeat (first
    | with_reducible refine AnswersMbxMemOk.next ?_
    | with_reducible exact MbxMemOk.refl _
    | with_reducible assumption
    | with_reducible refine MbxMemOk.ite ?_ ?_
    | fail_if_no_progress with_reducible refine MbxMemOk.host_pwr (by first | exact id | exact twf_tset _ _ _ | exact wf_mwrite _ _ _ _ | exact wf_merase _ _ _ _ | exact fun w => wf_mwrite _ _ _ _ (wf_mwrite _ _ _ _ w) | exact fun _ => twf_nil _) ?_
    | fail_if_no_progress with_reducible refine MbxMemOk.host (by first | exact id | exact twf_tset _ _ _ | exact wf_mwrite _ _ _ _ | exact wf_merase _ _ _ _ | exact fun w => wf_mwrite _ _ _ _ (wf_mwrite _ _ _ _ w) | exact fun _ => twf_nil _) ?_
    | fail_if_no_progress with_reducible refine MbxMemOk.pwr ?_)

theorem State.linkLost_mbxOk (s : State) : MbxMemOk s (State.linkLost s) := by
  unfold State.linkLost
  repeat (first
    | with_reducible exact MbxMemOk.refl _
    | with_reducible assumption
    | fail_if_no_progress with_reducible refine MbxMemOk.host_pwr (by first | exact id | exact twf_tset _ _ _ | exact wf_mwrite _ _ _ _ | exact wf_merase _ _ _ _ | exact fun w => wf_mwrite _ _ _ _ (wf_mwrite _ _ _ _ w) | exact fun _ => twf_nil _) ?_
    | fail_if_no_progress with_reducible refine MbxMemOk.host (by first | exact id | exact twf_tset _ _ _ | exact wf_mwrite _ _ _ _ | exact wf_merase _ _ _ _ | exact fun w => wf_mwrite _ _ _ _ (wf_mwrite _ _ _ _ w) | exact fun _ => twf_nil _) ?_
    | fail_if_no_progress with_reducible refine MbxMemOk.pwr ?_)

theorem execPcieRefclkLoss_mbxOk (s : State) : AnswersMbxMemOk s (execPcieRefclkLoss s) := by
  unfold execPcieRefclkLoss
  repeat (first
    | with_reducible refine AnswersMbxMemOk.next ?_
    | with_reducible exact MbxMemOk.refl _
    | with_reducible assumption
    | with_reducible apply MbxMemOk.step (State.linkLost_mbxOk ..)
    | with_reducible refine MbxMemOk.ite ?_ ?_
    | fail_if_no_progress with_reducible refine MbxMemOk.pwr ?_)

theorem execPerstN_mbxOk (s : State) : AnswersMbxMemOk s (execPerstN s) := by
  unfold execPerstN
  repeat (first
    | with_reducible refine AnswersMbxMemOk.next ?_
    | with_reducible exact MbxMemOk.refl _
    | with_reducible assumption
    | with_reducible apply MbxMemOk.step (State.linkLost_mbxOk ..)
    | with_reducible refine MbxMemOk.ite ?_ ?_
    | fail_if_no_progress with_reducible refine MbxMemOk.host_pwr (by first | exact id | exact twf_tset _ _ _ | exact wf_mwrite _ _ _ _ | exact wf_merase _ _ _ _ | exact fun w => wf_mwrite _ _ _ _ (wf_mwrite _ _ _ _ w) | exact fun _ => twf_nil _) ?_
    | fail_if_no_progress with_reducible refine MbxMemOk.host (by first | exact id | exact twf_tset _ _ _ | exact wf_mwrite _ _ _ _ | exact wf_merase _ _ _ _ | exact fun w => wf_mwrite _ _ _ _ (wf_mwrite _ _ _ _ w) | exact fun _ => twf_nil _) ?_
    | fail_if_no_progress with_reducible refine MbxMemOk.pwr ?_)

theorem execDevAlive_mbxOk (v : W32) (s : State) : AnswersMbxMemOk s (execDevAlive v s) := by
  unfold execDevAlive
  repeat (first
    | with_reducible refine AnswersMbxMemOk.next ?_
    | with_reducible exact MbxMemOk.refl _
    | with_reducible assumption
    | with_reducible apply MbxMemOk.step (State.hostWrite_mbxOk ..)
    | with_reducible refine MbxMemOk.ite ?_ ?_
    | fail_if_no_progress with_reducible refine MbxMemOk.host (by first | exact id | exact twf_tset _ _ _ | exact wf_mwrite _ _ _ _ | exact wf_merase _ _ _ _ | exact fun w => wf_mwrite _ _ _ _ (wf_mwrite _ _ _ _ w) | exact fun _ => twf_nil _) ?_)

theorem execHostWatchdogExpiry_mbxOk (s : State) : AnswersMbxMemOk s (execHostWatchdogExpiry s) := by
  unfold execHostWatchdogExpiry
  repeat (first
    | with_reducible refine AnswersMbxMemOk.next ?_
    | with_reducible exact MbxMemOk.refl _
    | with_reducible assumption
    | ((with_reducible apply MbxMemOk.only (State.goto_only ..)); decide)
    | ((with_reducible apply MbxMemOk.only (State.raiseDev_only ..)); decide)
    | ((with_reducible apply MbxMemOk.only (State.irq_only ..)); decide)
    | with_reducible refine MbxMemOk.ite ?_ ?_
    | fail_if_no_progress with_reducible refine MbxMemOk.host (by first | exact id | exact twf_tset _ _ _ | exact wf_mwrite _ _ _ _ | exact wf_merase _ _ _ _ | exact fun w => wf_mwrite _ _ _ _ (wf_mwrite _ _ _ _ w) | exact fun _ => twf_nil _) ?_)

theorem execEvtIstat_mbxOk (v : W32) (s : State) : AnswersMbxMemOk s (execEvtIstat v s) := by
  unfold execEvtIstat
  repeat (first
    | with_reducible refine AnswersMbxMemOk.next ?_
    | with_reducible exact MbxMemOk.refl _
    | with_reducible assumption
    | with_reducible apply MbxMemOk.step (State.hostWrite_mbxOk ..)
    | ((with_reducible apply MbxMemOk.only (State.pulseN_only ..)); decide)
    | fail_if_no_progress with_reducible refine MbxMemOk.evt ?_
    | split
    | (dsimp -proj -beta only []; split))

theorem execMbxPicommit_mbxOk (v : W32) (s : State) : AnswersMbxMemOk s (execMbxPicommit v s) := by
  unfold execMbxPicommit
  repeat (first
    | with_reducible refine AnswersMbxMemOk.next ?_
    | with_reducible exact MbxMemOk.refl _
    | with_reducible assumption
    | with_reducible apply MbxMemOk.step (State.hostWrite_mbxOk ..)
    | ((with_reducible apply MbxMemOk.only (State.pulseX_only ..)); decide)
    | with_reducible refine MbxMemOk.ite ?_ ?_
    | fail_if_no_progress with_reducible refine MbxMemOk.host (by first | exact id | exact twf_tset _ _ _ | exact wf_mwrite _ _ _ _ | exact wf_merase _ _ _ _ | exact fun w => wf_mwrite _ _ _ _ (wf_mwrite _ _ _ _ w) | exact fun _ => twf_nil _) ?_
    | split
    | (dsimp -proj -beta only []; split))

theorem execCommitCopyComplete_mbxOk (s : State) : AnswersMbxMemOk s (execCommitCopyComplete s) := by
  unfold execCommitCopyComplete
  repeat (first
    | with_reducible refine AnswersMbxMemOk.next ?_
    | with_reducible exact MbxMemOk.refl _
    | with_reducible assumption
    | with_reducible refine MbxMemOk.ite ?_ ?_
    | fail_if_no_progress with_reducible refine MbxMemOk.host (by first | exact id | exact twf_tset _ _ _ | exact wf_mwrite _ _ _ _ | exact wf_merase _ _ _ _ | exact fun w => wf_mwrite _ _ _ _ (wf_mwrite _ _ _ _ w) | exact fun _ => twf_nil _) ?_)

theorem execOutputWindowWrite_mbxOk (off : Nat) (v : W32) (s : State) : AnswersMbxMemOk s (execOutputWindowWrite off v s) := by
  unfold execOutputWindowWrite
  repeat (first
    | with_reducible refine AnswersMbxMemOk.next ?_
    | with_reducible exact MbxMemOk.refl _
    | with_reducible assumption
    | with_reducible apply MbxMemOk.step (State.hostWrite_mbxOk ..)
    | with_reducible refine MbxMemOk.ite ?_ ?_
    | fail_if_no_progress with_reducible refine MbxMemOk.host (by first | exact id | exact twf_tset _ _ _ | exact wf_mwrite _ _ _ _ | exact wf_merase _ _ _ _ | exact fun w => wf_mwrite _ _ _ _ (wf_mwrite _ _ _ _ w) | exact fun _ => twf_nil _) ?_)

theorem State.hkUp_mbxOk (s : State) (d : Nat) (r : Option (Byte × Byte)) : MbxMemOk s (State.hkUp s d r) := by
  unfold State.hkUp
  repeat (first
    | with_reducible exact MbxMemOk.refl _
    | with_reducible assumption
    | ((with_reducible apply MbxMemOk.only (State.returnCh_only ..)); decide)
    | ((with_reducible apply MbxMemOk.only (State.raiseDie_only ..)); decide)
    | with_reducible apply MbxMemOk.step (State.present_mbxOk ..)
    | ((with_reducible apply MbxMemOk.only (State.setDie_only ..)); decide)
    | with_reducible refine MbxMemOk.ite ?_ ?_
    | with_reducible refine MbxMemOk.foldl ?_ ?_
    | (intro _ _ _; try beta_reduce)
    | split
    | (dsimp -proj -beta only []; split))

theorem execHousekeepingCycle_mbxOk (down : BitVec 4) (ret : List (Option (Byte × Byte))) (s : State) : AnswersMbxMemOk s (execHousekeepingCycle down ret s) := by
  unfold execHousekeepingCycle
  repeat (first
    | with_reducible refine AnswersMbxMemOk.next ?_
    | with_reducible exact MbxMemOk.refl _
    | with_reducible assumption
    | with_reducible apply MbxMemOk.step (State.hkUp_mbxOk ..)
    | ((with_reducible apply MbxMemOk.only (State.hkDown_only ..)); decide)
    | ((with_reducible apply MbxMemOk.only (State.pulseX_only ..)); decide)
    | with_reducible refine MbxMemOk.ite ?_ ?_
    | with_reducible refine MbxMemOk.foldl ?_ ?_
    | (intro _ _ _; try beta_reduce)
    | fail_if_no_progress with_reducible refine MbxMemOk.fio ?_)

theorem execFioQuiesce_mbxOk (s : State) : AnswersMbxMemOk s (execFioQuiesce s) := by
  unfold execFioQuiesce
  repeat (first
    | with_reducible refine AnswersMbxMemOk.next ?_
    | with_reducible exact MbxMemOk.refl _
    | with_reducible assumption
    | ((with_reducible apply MbxMemOk.only (State.fioQuiesceNow_only ..)); decide)
    | with_reducible refine State.serve_mbxOk _ _ _ ?_
    | (intro _ _ _; try beta_reduce)
    | with_reducible apply MbxMemOk.step (State.answer_mbxOk ..)
    | with_reducible refine MbxMemOk.ite ?_ ?_
    | fail_if_no_progress with_reducible refine MbxMemOk.fio ?_)

theorem execFioResume_mbxOk (s : State) : AnswersMbxMemOk s (execFioResume s) := by
  unfold execFioResume
  repeat (first
    | with_reducible refine AnswersMbxMemOk.next ?_
    | with_reducible exact MbxMemOk.refl _
    | with_reducible assumption
    | ((with_reducible apply MbxMemOk.only (State.fioResumeNow_only ..)); decide)
    | with_reducible refine State.serve_mbxOk _ _ _ ?_
    | (intro _ _ _; try beta_reduce)
    | with_reducible apply MbxMemOk.step (State.answer_mbxOk ..)
    | with_reducible refine MbxMemOk.ite ?_ ?_
    | fail_if_no_progress with_reducible refine MbxMemOk.fio ?_)

theorem execFioRearm_mbxOk (s : State) : AnswersMbxMemOk s (execFioRearm s) := by
  unfold execFioRearm
  repeat (first
    | with_reducible refine AnswersMbxMemOk.next ?_
    | with_reducible exact MbxMemOk.refl _
    | with_reducible assumption
    | ((with_reducible apply MbxMemOk.only (State.fioRearmNow_only ..)); decide)
    | with_reducible refine State.serve_mbxOk _ _ _ ?_
    | (intro _ _ _; try beta_reduce)
    | with_reducible apply MbxMemOk.step (State.answer_mbxOk ..)
    | with_reducible refine MbxMemOk.ite ?_ ?_
    | fail_if_no_progress with_reducible refine MbxMemOk.fio ?_)

theorem execCaptStart_mbxOk (s : State) : AnswersMbxMemOk s (execCaptStart s) := by
  unfold execCaptStart
  repeat (first
    | with_reducible refine AnswersMbxMemOk.next ?_
    | with_reducible exact MbxMemOk.refl _
    | with_reducible assumption
    | with_reducible refine State.serve_mbxOk _ _ _ ?_
    | (intro _ _ _; try beta_reduce)
    | with_reducible apply MbxMemOk.step (State.answer_mbxOk ..)
    | with_reducible refine MbxMemOk.ite ?_ ?_
    | fail_if_no_progress with_reducible refine MbxMemOk.cap ?_)

theorem execCaptStop_mbxOk (s : State) : AnswersMbxMemOk s (execCaptStop s) := by
  unfold execCaptStop
  repeat (first
    | with_reducible refine AnswersMbxMemOk.next ?_
    | with_reducible exact MbxMemOk.refl _
    | with_reducible assumption
    | ((with_reducible apply MbxMemOk.only (State.capHalt_only ..)); decide)
    | with_reducible refine State.serve_mbxOk _ _ _ ?_
    | (intro _ _ _; try beta_reduce)
    | with_reducible apply MbxMemOk.step (State.answer_mbxOk ..)
    | with_reducible refine MbxMemOk.ite ?_ ?_
    | fail_if_no_progress with_reducible refine MbxMemOk.cap ?_)

theorem execCaptForce_mbxOk (s : State) : AnswersMbxMemOk s (execCaptForce s) := by
  unfold execCaptForce
  repeat (first
    | with_reducible refine AnswersMbxMemOk.next ?_
    | with_reducible exact MbxMemOk.refl _
    | with_reducible assumption
    | ((with_reducible apply MbxMemOk.only (State.capForce_only ..)); decide)
    | with_reducible refine State.serve_mbxOk _ _ _ ?_
    | (intro _ _ _; try beta_reduce)
    | with_reducible apply MbxMemOk.step (State.answer_mbxOk ..)
    | with_reducible refine MbxMemOk.ite ?_ ?_
    | fail_if_no_progress with_reducible refine MbxMemOk.cap ?_)

theorem execCaptureApertureWrite_mbxOk (off : Nat) (v : W32) (s : State) : AnswersMbxMemOk s (execCaptureApertureWrite off v s) := by
  unfold execCaptureApertureWrite
  repeat (first
    | with_reducible refine AnswersMbxMemOk.next ?_
    | with_reducible exact MbxMemOk.refl _
    | with_reducible assumption
    | ((with_reducible apply MbxMemOk.only (State.capWrite_only ..)); decide)
    | with_reducible apply MbxMemOk.step (State.hostWrite_mbxOk ..)
    | with_reducible refine MbxMemOk.ite ?_ ?_
    | fail_if_no_progress with_reducible refine MbxMemOk.cap ?_)

theorem execCapRecno_mbxOk (s : State) : AnswersMbxMemOk s (execCapRecno s) := by
  unfold execCapRecno
  repeat (first
    | with_reducible refine AnswersMbxMemOk.next ?_
    | with_reducible exact MbxMemOk.refl _
    | with_reducible assumption
    | with_reducible apply MbxMemOk.step (State.hostWord_mbxOk ..)
    | fail_if_no_progress with_reducible refine MbxMemOk.cap ?_)

theorem execCapCrevsmpLo_mbxOk (s : State) : AnswersMbxMemOk s (execCapCrevsmpLo s) := by
  unfold execCapCrevsmpLo
  repeat (first
    | with_reducible refine AnswersMbxMemOk.next ?_
    | with_reducible exact MbxMemOk.refl _
    | with_reducible assumption
    | with_reducible apply MbxMemOk.step (State.hostWord_mbxOk ..)
    | fail_if_no_progress with_reducible refine MbxMemOk.cap ?_)

theorem execCapDeadmax_mbxOk (s : State) : AnswersMbxMemOk s (execCapDeadmax s) := by
  unfold execCapDeadmax
  repeat (first
    | with_reducible refine AnswersMbxMemOk.next ?_
    | with_reducible exact MbxMemOk.refl _
    | with_reducible assumption
    | with_reducible apply MbxMemOk.step (State.hostWord_mbxOk ..)
    | fail_if_no_progress with_reducible refine MbxMemOk.cap ?_)

theorem execCapStage_mbxOk (s : State) : AnswersMbxMemOk s (execCapStage s) := by
  unfold execCapStage
  repeat (first
    | with_reducible refine AnswersMbxMemOk.next ?_
    | with_reducible exact MbxMemOk.refl _
    | with_reducible assumption
    | with_reducible apply MbxMemOk.step (State.hostWord_mbxOk ..)
    | fail_if_no_progress with_reducible refine MbxMemOk.cap ?_)

theorem execSafeReset_mbxOk (s : State) : AnswersMbxMemOk s (execSafeReset s) := by
  unfold execSafeReset
  repeat (first
    | with_reducible refine AnswersMbxMemOk.next ?_
    | with_reducible exact MbxMemOk.refl _
    | with_reducible assumption
    | with_reducible refine State.serve_mbxOk _ _ _ ?_
    | (intro _ _ _; try beta_reduce)
    | with_reducible apply MbxMemOk.step (State.answer_mbxOk ..)
    | ((with_reducible apply MbxMemOk.only (State.setSgrp_only ..)); decide)
    | with_reducible refine MbxMemOk.ite ?_ ?_)

theorem execSafeClear_mbxOk (s : State) : AnswersMbxMemOk s (execSafeClear s) := by
  unfold execSafeClear
  repeat (first
    | with_reducible refine AnswersMbxMemOk.next ?_
    | with_reducible exact MbxMemOk.refl _
    | with_reducible assumption
    | ((with_reducible apply MbxMemOk.only (State.transient_only ..)); decide)
    | with_reducible refine State.serve_mbxOk _ _ _ ?_
    | (intro _ _ _; try beta_reduce)
    | with_reducible apply MbxMemOk.step (State.answer_mbxOk ..)
    | with_reducible refine MbxMemOk.ite ?_ ?_
    | fail_if_no_progress with_reducible refine MbxMemOk.saf ?_
    | split
    | (dsimp -proj -beta only []; split))

theorem State.safeStored_mbxOk (s : State) (m j : Nat) : MbxMemOk s (State.safeStored s m j) := by
  unfold State.safeStored
  repeat (first
    | with_reducible exact MbxMemOk.refl _
    | with_reducible assumption
    | with_reducible apply MbxMemOk.step (State.answer_mbxOk ..)
    | with_reducible refine MbxMemOk.ite ?_ ?_
    | fail_if_no_progress with_reducible refine MbxMemOk.saf ?_)

theorem execSafeLoad_mbxOk (s : State) : AnswersMbxMemOk s (execSafeLoad s) := by
  unfold execSafeLoad
  repeat (first
    | with_reducible refine AnswersMbxMemOk.next ?_
    | with_reducible exact MbxMemOk.refl _
    | with_reducible assumption
    | with_reducible apply MbxMemOk.step (State.safeStored_mbxOk ..)
    | ((with_reducible apply MbxMemOk.only (State.safeStore_only ..)); decide)
    | with_reducible refine State.serve_mbxOk _ _ _ ?_
    | (intro _ _ _; try beta_reduce)
    | with_reducible apply MbxMemOk.step (State.answer_mbxOk ..)
    | with_reducible refine MbxMemOk.ite ?_ ?_
    | fail_if_no_progress with_reducible refine MbxMemOk.saf ?_)

theorem execSafeLoadEraseComplete_mbxOk (s : State) : AnswersMbxMemOk s (execSafeLoadEraseComplete s) := by
  unfold execSafeLoadEraseComplete
  repeat (first
    | with_reducible refine AnswersMbxMemOk.next ?_
    | with_reducible exact MbxMemOk.refl _
    | with_reducible assumption
    | with_reducible apply MbxMemOk.step (State.safeStored_mbxOk ..)
    | ((with_reducible apply MbxMemOk.only (State.safeStore_only ..)); decide)
    | with_reducible refine MbxMemOk.ite ?_ ?_
    | fail_if_no_progress with_reducible refine MbxMemOk.saf ?_
    | fail_if_no_progress with_reducible refine MbxMemOk.cfg ?_
    | split
    | (dsimp -proj -beta only []; split))

theorem execSafeConfirm_mbxOk (s : State) : AnswersMbxMemOk s (execSafeConfirm s) := by
  unfold execSafeConfirm
  repeat (first
    | with_reducible refine AnswersMbxMemOk.next ?_
    | with_reducible exact MbxMemOk.refl _
    | with_reducible assumption
    | ((with_reducible apply MbxMemOk.only (State.runSet_only ..)); decide)
    | with_reducible refine State.serve_mbxOk _ _ _ ?_
    | (intro _ _ _; try beta_reduce)
    | with_reducible apply MbxMemOk.step (State.answer_mbxOk ..)
    | ((with_reducible apply MbxMemOk.only (State.dropSseq_only ..)); decide)
    | with_reducible refine MbxMemOk.ite ?_ ?_
    | fail_if_no_progress with_reducible refine MbxMemOk.saf_cfg ?_
    | fail_if_no_progress with_reducible refine MbxMemOk.saf ?_
    | fail_if_no_progress with_reducible refine MbxMemOk.cfg ?_)

theorem execRedImgfcLo_mbxOk (s : State) : AnswersMbxMemOk s (execRedImgfcLo s) := by
  unfold execRedImgfcLo
  repeat (first
    | with_reducible refine AnswersMbxMemOk.next ?_
    | with_reducible exact MbxMemOk.refl _
    | with_reducible assumption
    | with_reducible apply MbxMemOk.step (State.hostWord_mbxOk ..)
    | fail_if_no_progress with_reducible refine MbxMemOk.red ?_)

theorem execRedTkfcLo_mbxOk (s : State) : AnswersMbxMemOk s (execRedTkfcLo s) := by
  unfold execRedTkfcLo
  repeat (first
    | with_reducible refine AnswersMbxMemOk.next ?_
    | with_reducible exact MbxMemOk.refl _
    | with_reducible assumption
    | with_reducible apply MbxMemOk.step (State.hostWord_mbxOk ..)
    | fail_if_no_progress with_reducible refine MbxMemOk.red ?_)

theorem execRedHbmiss_mbxOk (s : State) : AnswersMbxMemOk s (execRedHbmiss s) := by
  unfold execRedHbmiss
  repeat (first
    | with_reducible refine AnswersMbxMemOk.next ?_
    | with_reducible exact MbxMemOk.refl _
    | with_reducible assumption
    | with_reducible apply MbxMemOk.step (State.hostWord_mbxOk ..)
    | fail_if_no_progress with_reducible refine MbxMemOk.red ?_)

theorem State.leaveHead_mbxOk (s : State) : MbxMemOk s (State.leaveHead s) := by
  unfold State.leaveHead
  repeat (first
    | with_reducible exact MbxMemOk.refl _
    | with_reducible assumption
    | ((with_reducible apply MbxMemOk.only (State.discardHead_only ..)); decide)
    | ((with_reducible apply MbxMemOk.only (State.stopKernels_only ..)); decide)
    | ((with_reducible apply MbxMemOk.only (State.capRoleEnd_only ..)); decide)
    | with_reducible apply MbxMemOk.step (State.roleChange_mbxOk ..)
    | ((with_reducible apply MbxMemOk.only (State.closeLedgers_only ..)); decide)
    | ((with_reducible apply MbxMemOk.only (State.openLedger_only ..)); decide)
    | ((with_reducible apply MbxMemOk.only (State.standbyRole_only ..)); decide)
    | fail_if_no_progress with_reducible refine MbxMemOk.net_fio ?_
    | fail_if_no_progress with_reducible refine MbxMemOk.net ?_
    | fail_if_no_progress with_reducible refine MbxMemOk.fio ?_)

theorem execForeignCsm_mbxOk (b : Fin 8) (bytes : List Byte) (x : Arrival) (s : State) : AnswersMbxMemOk s (execForeignCsm b bytes x s) := by
  unfold execForeignCsm
  repeat (first
    | with_reducible refine AnswersMbxMemOk.next ?_
    | with_reducible exact MbxMemOk.refl _
    | with_reducible assumption
    | ((with_reducible apply MbxMemOk.only (State.seeCsm_only ..)); decide)
    | ((with_reducible apply MbxMemOk.only (State.earlyYield_only ..)); decide)
    | with_reducible apply MbxMemOk.step (State.leaveHead_mbxOk ..)
    | ((with_reducible apply MbxMemOk.only (State.rxFrame_only ..)); decide)
    | ((with_reducible apply MbxMemOk.only (State.raiseDev_only ..)); decide)
    | ((with_reducible apply MbxMemOk.only (State.raiseOnce_only ..)); decide)
    | with_reducible refine MbxMemOk.ite ?_ ?_
    | fail_if_no_progress with_reducible refine MbxMemOk.net ?_
    | split
    | (dsimp -proj -beta only []; split))

theorem State.becomeHead_mbxOk (s : State) (restart : W48) : MbxMemOk s (State.becomeHead s restart) := by
  unfold State.becomeHead
  repeat (first
    | with_reducible exact MbxMemOk.refl _
    | with_reducible assumption
    | ((with_reducible apply MbxMemOk.only (State.connRxStart_only ..)); decide)
    | with_reducible apply MbxMemOk.step (State.present_mbxOk ..)
    | ((with_reducible apply MbxMemOk.only (State.openLedger_only ..)); decide)
    | ((with_reducible apply MbxMemOk.only (State.setTk_only ..)); decide)
    | ((with_reducible apply MbxMemOk.only (State.headSends_only ..)); decide)
    | ((with_reducible apply MbxMemOk.only (State.cycleOn_only ..)); decide)
    | ((with_reducible apply MbxMemOk.only (State.setRole_only ..)); decide)
    | fail_if_no_progress with_reducible refine MbxMemOk.frm_net_red ?_
    | fail_if_no_progress with_reducible refine MbxMemOk.frm ?_
    | fail_if_no_progress with_reducible refine MbxMemOk.net ?_
    | fail_if_no_progress with_reducible refine MbxMemOk.red ?_)

theorem execTakeoverStart_mbxOk (s : State) : AnswersMbxMemOk s (execTakeoverStart s) := by
  unfold execTakeoverStart
  repeat (first
    | with_reducible refine AnswersMbxMemOk.next ?_
    | with_reducible exact MbxMemOk.refl _
    | with_reducible assumption
    | with_reducible apply MbxMemOk.step (State.becomeHead_mbxOk ..)
    | ((with_reducible apply MbxMemOk.only (State.raiseDev_only ..)); decide)
    | with_reducible refine MbxMemOk.ite ?_ ?_)

theorem execHandoverStart_mbxOk (s : State) : AnswersMbxMemOk s (execHandoverStart s) := by
  unfold execHandoverStart
  repeat (first
    | with_reducible refine AnswersMbxMemOk.next ?_
    | with_reducible exact MbxMemOk.refl _
    | with_reducible assumption
    | with_reducible apply MbxMemOk.step (State.becomeHead_mbxOk ..)
    | ((with_reducible apply MbxMemOk.only (State.connTxStart_only ..)); decide)
    | ((with_reducible apply MbxMemOk.only (State.raiseDev_only ..)); decide)
    | with_reducible refine MbxMemOk.ite ?_ ?_
    | fail_if_no_progress with_reducible refine MbxMemOk.red ?_)

theorem execYieldSilence_mbxOk (s : State) : AnswersMbxMemOk s (execYieldSilence s) := by
  unfold execYieldSilence
  repeat (first
    | with_reducible refine AnswersMbxMemOk.next ?_
    | with_reducible exact MbxMemOk.refl _
    | with_reducible assumption
    | with_reducible apply MbxMemOk.step (State.leaveHead_mbxOk ..)
    | with_reducible refine MbxMemOk.ite ?_ ?_)

theorem execDevInfo_mbxOk (s : State) : AnswersMbxMemOk s (execDevInfo s) := by
  unfold execDevInfo
  repeat (first
    | with_reducible refine AnswersMbxMemOk.next ?_
    | with_reducible exact MbxMemOk.refl _
    | with_reducible assumption
    | with_reducible refine State.serve_mbxOk _ _ _ ?_
    | (intro _ _ _; try beta_reduce)
    | with_reducible apply MbxMemOk.step (State.answer_mbxOk ..)
    | with_reducible refine MbxMemOk.ite ?_ ?_)

theorem execOvlApply_mbxOk (s : State) : AnswersMbxMemOk s (execOvlApply s) := by
  unfold execOvlApply
  repeat (first
    | with_reducible refine AnswersMbxMemOk.next ?_
    | with_reducible exact MbxMemOk.refl _
    | with_reducible assumption
    | with_reducible apply MbxMemOk.step (State.setTaken_mbxOk ..)
    | with_reducible refine State.serve_mbxOk _ _ _ ?_
    | (intro _ _ _; try beta_reduce)
    | with_reducible apply MbxMemOk.step (State.answer_mbxOk ..)
    | with_reducible refine MbxMemOk.ite ?_ ?_
    | split
    | (dsimp -proj -beta only []; split))

theorem execCfgWrite_mbxOk (s : State) : AnswersMbxMemOk s (execCfgWrite s) := by
  unfold execCfgWrite
  repeat (first
    | with_reducible refine AnswersMbxMemOk.next ?_
    | with_reducible exact MbxMemOk.refl _
    | with_reducible assumption
    | ((with_reducible apply MbxMemOk.only (State.slotStored_only ..)); decide)
    | with_reducible refine State.serve_mbxOk _ _ _ ?_
    | (intro _ _ _; try beta_reduce)
    | with_reducible apply MbxMemOk.step (State.answer_mbxOk ..)
    | with_reducible refine MbxMemOk.ite ?_ ?_
    | fail_if_no_progress with_reducible refine MbxMemOk.cfg ?_
    | split
    | (dsimp -proj -beta only []; split))

theorem execFlashWriteComplete_mbxOk (s : State) : AnswersMbxMemOk s (execFlashWriteComplete s) := by
  unfold execFlashWriteComplete
  repeat (first
    | with_reducible refine AnswersMbxMemOk.next ?_
    | with_reducible exact MbxMemOk.refl _
    | with_reducible assumption
    | ((with_reducible apply MbxMemOk.only (State.slotErase_only ..)); decide)
    | ((with_reducible apply MbxMemOk.only (State.slotStored_only ..)); decide)
    | with_reducible apply MbxMemOk.step (State.answer_mbxOk ..)
    | fail_if_no_progress with_reducible refine MbxMemOk.cfg ?_
    | split
    | (dsimp -proj -beta only []; split))

theorem State.serveSlot_mbxOk (s : State) (p : Nat → Bool) (f : State → Nat → Nat → State) (hf : ∀ y m j, MbxMemOk y (f y m j)) : MbxMemOk s (State.serveSlot s p f) := by
  unfold State.serveSlot
  repeat (first
    | with_reducible exact MbxMemOk.refl _
    | with_reducible assumption
    | with_reducible apply MbxMemOk.step (hf ..)
    | with_reducible apply MbxMemOk.step (State.take_mbxOk ..)
    | with_reducible refine MbxMemOk.ite ?_ ?_
    | split
    | (dsimp -proj -beta only []; split))

theorem execCfgActivate_mbxOk (s : State) : AnswersMbxMemOk s (execCfgActivate s) := by
  unfold execCfgActivate
  repeat (first
    | with_reducible refine AnswersMbxMemOk.next ?_
    | with_reducible exact MbxMemOk.refl _
    | with_reducible assumption
    | with_reducible refine State.serveSlot_mbxOk _ _ _ ?_
    | (intro _ _ _; try beta_reduce)
    | ((with_reducible apply MbxMemOk.only (State.switchTo_only ..)); decide)
    | ((with_reducible apply MbxMemOk.only (State.activate_only ..)); decide)
    | with_reducible apply MbxMemOk.step (State.answer_mbxOk ..)
    | ((with_reducible apply MbxMemOk.only (State.raiseDev_only ..)); decide)
    | with_reducible refine MbxMemOk.ite ?_ ?_
    | fail_if_no_progress with_reducible refine MbxMemOk.cfg ?_)

theorem execFirmwareActivate_mbxOk (s : State) : AnswersMbxMemOk s (execFirmwareActivate s) := by
  unfold execFirmwareActivate
  repeat (first
    | with_reducible refine AnswersMbxMemOk.next ?_
    | with_reducible exact MbxMemOk.refl _
    | with_reducible assumption
    | with_reducible refine State.serveSlot_mbxOk _ _ _ ?_
    | (intro _ _ _; try beta_reduce)
    | with_reducible apply MbxMemOk.step (State.answer_mbxOk ..)
    | with_reducible refine MbxMemOk.ite ?_ ?_
    | fail_if_no_progress with_reducible refine MbxMemOk.cfg ?_)

theorem execKeyProvision_mbxOk (s : State) : AnswersMbxMemOk s (execKeyProvision s) := by
  unfold execKeyProvision
  repeat (first
    | with_reducible refine AnswersMbxMemOk.next ?_
    | with_reducible exact MbxMemOk.refl _
    | with_reducible assumption
    | with_reducible refine State.serve_mbxOk _ _ _ ?_
    | (intro _ _ _; try beta_reduce)
    | with_reducible apply MbxMemOk.step (State.answer_mbxOk ..)
    | with_reducible refine MbxMemOk.ite ?_ ?_
    | fail_if_no_progress with_reducible refine MbxMemOk.cfg ?_)

theorem execLifecycle_mbxOk (s : State) : AnswersMbxMemOk s (execLifecycle s) := by
  unfold execLifecycle
  repeat (first
    | with_reducible refine AnswersMbxMemOk.next ?_
    | with_reducible exact MbxMemOk.refl _
    | with_reducible assumption
    | ((with_reducible apply MbxMemOk.only (State.wipe_only ..)); decide)
    | with_reducible refine State.serve_mbxOk _ _ _ ?_
    | (intro _ _ _; try beta_reduce)
    | with_reducible apply MbxMemOk.step (State.answer_mbxOk ..)
    | with_reducible refine MbxMemOk.ite ?_ ?_
    | fail_if_no_progress with_reducible refine MbxMemOk.cfg ?_)

theorem State.hostStart_mbxOk (s : State) : MbxMemOk s (State.hostStart s) := by
  unfold State.hostStart
  repeat (first
    | with_reducible exact MbxMemOk.refl _
    | with_reducible assumption
    | fail_if_no_progress with_reducible refine MbxMemOk.host (by first | exact id | exact twf_tset _ _ _ | exact wf_mwrite _ _ _ _ | exact wf_merase _ _ _ _ | exact fun w => wf_mwrite _ _ _ _ (wf_mwrite _ _ _ _ w) | exact fun _ => twf_nil _) ?_)

theorem State.startConfig_mbxOk (s : State) (k : Nat) : MbxMemOk s (State.startConfig s k) := by
  unfold State.startConfig
  repeat (first
    | with_reducible exact MbxMemOk.refl _
    | with_reducible assumption
    | ((with_reducible apply MbxMemOk.only (State.ioStart_only ..)); decide)
    | with_reducible apply MbxMemOk.step (State.hostStart_mbxOk ..)
    | ((with_reducible apply MbxMemOk.only (State.netStart_only ..)); decide)
    | ((with_reducible apply MbxMemOk.only (State.enablePorts_only ..)); decide)
    | ((with_reducible apply MbxMemOk.only (State.takeImage_only ..)); decide)
    | ((with_reducible apply MbxMemOk.only (State.writeTasks_only ..)); decide)
    | ((with_reducible apply MbxMemOk.only (State.initAxes_only ..)); decide)
    | ((with_reducible apply MbxMemOk.only (State.ovlShow_only ..)); decide)
    | ((with_reducible apply MbxMemOk.only (State.openLedger_only ..)); decide)
    | ((with_reducible apply MbxMemOk.only (State.setRole_only ..)); decide)
    | with_reducible refine MbxMemOk.ite ?_ ?_
    | with_reducible refine MbxMemOk.foldl ?_ ?_
    | (intro _ _ _; try beta_reduce)
    | fail_if_no_progress with_reducible refine MbxMemOk.red_cfg ?_
    | fail_if_no_progress with_reducible refine MbxMemOk.frm ?_
    | fail_if_no_progress with_reducible refine MbxMemOk.red ?_
    | fail_if_no_progress with_reducible refine MbxMemOk.cfg ?_)

theorem execBaseConfigStart_mbxOk (s : State) : AnswersMbxMemOk s (execBaseConfigStart s) := by
  unfold execBaseConfigStart
  repeat (first
    | with_reducible refine AnswersMbxMemOk.next ?_
    | with_reducible exact MbxMemOk.refl _
    | with_reducible assumption
    | ((with_reducible apply MbxMemOk.only (State.refuseConfig_only ..)); decide)
    | with_reducible apply MbxMemOk.step (State.startConfig_mbxOk ..)
    | with_reducible refine MbxMemOk.ite ?_ ?_
    | split
    | (dsimp -proj -beta only []; split))

theorem execPrfCycLo_mbxOk (s : State) : AnswersMbxMemOk s (execPrfCycLo s) := by
  unfold execPrfCycLo
  repeat (first
    | with_reducible refine AnswersMbxMemOk.next ?_
    | with_reducible exact MbxMemOk.refl _
    | with_reducible assumption
    | with_reducible apply MbxMemOk.step (State.hostWord_mbxOk ..)
    | fail_if_no_progress with_reducible refine MbxMemOk.prf ?_)

theorem execPrfCntLo_mbxOk (k : Fin 8) (s : State) : AnswersMbxMemOk s (execPrfCntLo k s) := by
  unfold execPrfCntLo
  repeat (first
    | with_reducible refine AnswersMbxMemOk.next ?_
    | with_reducible exact MbxMemOk.refl _
    | with_reducible assumption
    | ((with_reducible apply MbxMemOk.only (State.setPc_only ..)); decide)
    | with_reducible apply MbxMemOk.step (State.hostWord_mbxOk ..))

theorem execPrfSetcmd_mbxOk (v : W32) (s : State) : AnswersMbxMemOk s (execPrfSetcmd v s) := by
  unfold execPrfSetcmd
  repeat (first
    | with_reducible refine AnswersMbxMemOk.next ?_
    | with_reducible exact MbxMemOk.refl _
    | with_reducible assumption
    | ((with_reducible apply MbxMemOk.only (State.pcLoad_only ..)); decide)
    | with_reducible apply MbxMemOk.step (State.hostWrite_mbxOk ..)
    | with_reducible refine MbxMemOk.foldl ?_ ?_
    | (intro _ _ _; try beta_reduce))

theorem execPrfCtrl_mbxOk (v : W32) (s : State) : AnswersMbxMemOk s (execPrfCtrl v s) := by
  unfold execPrfCtrl
  repeat (first
    | with_reducible refine AnswersMbxMemOk.next ?_
    | with_reducible exact MbxMemOk.refl _
    | with_reducible assumption
    | ((with_reducible apply MbxMemOk.only (State.setPc_only ..)); decide)
    | with_reducible apply MbxMemOk.step (State.hostWrite_mbxOk ..)
    | with_reducible refine MbxMemOk.foldl ?_ ?_
    | (intro _ _ _; try beta_reduce)
    | fail_if_no_progress with_reducible refine MbxMemOk.prf ?_)

theorem execPrfCfg_mbxOk (k : Fin 8) (v : W32) (s : State) : AnswersMbxMemOk s (execPrfCfg k v s) := by
  unfold execPrfCfg
  repeat (first
    | with_reducible refine AnswersMbxMemOk.next ?_
    | with_reducible exact MbxMemOk.refl _
    | with_reducible assumption
    | ((with_reducible apply MbxMemOk.only (State.setPc_only ..)); decide)
    | with_reducible apply MbxMemOk.step (State.hostWrite_mbxOk ..))

theorem execPrfBwMinmax_mbxOk (m : Fin 10) (hi : Bool) (s : State) : AnswersMbxMemOk s (execPrfBwMinmax m hi s) := by
  unfold execPrfBwMinmax
  repeat (first
    | with_reducible refine AnswersMbxMemOk.next ?_
    | with_reducible exact MbxMemOk.refl _
    | with_reducible assumption
    | with_reducible apply MbxMemOk.step (State.hostWord_mbxOk ..)
    | with_reducible refine MbxMemOk.ite ?_ ?_
    | fail_if_no_progress with_reducible refine MbxMemOk.prf ?_)

theorem execPrfTagctl_mbxOk (v : W32) (s : State) : AnswersMbxMemOk s (execPrfTagctl v s) := by
  unfold execPrfTagctl
  repeat (first
    | with_reducible refine AnswersMbxMemOk.next ?_
    | with_reducible exact MbxMemOk.refl _
    | with_reducible assumption
    | with_reducible apply MbxMemOk.step (State.hostWrite_mbxOk ..)
    | with_reducible refine MbxMemOk.ite ?_ ?_
    | fail_if_no_progress with_reducible refine MbxMemOk.prf ?_)

theorem execPrfTagd0_mbxOk (s : State) : AnswersMbxMemOk s (execPrfTagd0 s) := by
  unfold execPrfTagd0
  repeat (first
    | with_reducible refine AnswersMbxMemOk.next ?_
    | with_reducible exact MbxMemOk.refl _
    | with_reducible assumption
    | with_reducible apply MbxMemOk.step (State.hostWord_mbxOk ..)
    | fail_if_no_progress with_reducible refine MbxMemOk.prf ?_)

theorem execResetRelease_mbxOk (hostsel : Bool) (boot : Fin 4) (vio : Nat) (s : State) : AnswersMbxMemOk s (execResetRelease hostsel boot vio s) := by
  unfold execResetRelease
  repeat (first
    | with_reducible refine AnswersMbxMemOk.next ?_
    | with_reducible exact MbxMemOk.refl _
    | with_reducible assumption
    | with_reducible refine MbxMemOk.ite ?_ ?_
    | fail_if_no_progress with_reducible refine MbxMemOk.frm_host_cfg_pwr (by first | exact id | exact twf_tset _ _ _ | exact wf_mwrite _ _ _ _ | exact wf_merase _ _ _ _ | exact fun w => wf_mwrite _ _ _ _ (wf_mwrite _ _ _ _ w) | exact fun _ => twf_nil _) ?_
    | fail_if_no_progress with_reducible refine MbxMemOk.frm ?_
    | fail_if_no_progress with_reducible refine MbxMemOk.host (by first | exact id | exact twf_tset _ _ _ | exact wf_mwrite _ _ _ _ | exact wf_merase _ _ _ _ | exact fun w => wf_mwrite _ _ _ _ (wf_mwrite _ _ _ _ w) | exact fun _ => twf_nil _) ?_
    | fail_if_no_progress with_reducible refine MbxMemOk.cfg ?_
    | fail_if_no_progress with_reducible refine MbxMemOk.pwr ?_)

theorem execPwrRstreq_mbxOk (v : W32) (s : State) : AnswersMbxMemOk s (execPwrRstreq v s) := by
  unfold execPwrRstreq
  repeat (first
    | with_reducible refine AnswersMbxMemOk.next ?_
    | with_reducible exact MbxMemOk.refl _
    | with_reducible assumption
    | ((with_reducible apply MbxMemOk.only (State.resetCommitted_only ..)); decide)
    | with_reducible apply MbxMemOk.step (State.hostWrite_mbxOk ..)
    | with_reducible refine MbxMemOk.ite ?_ ?_)

theorem execPwrVmain_mbxOk (s : State) : AnswersMbxMemOk s (execPwrVmain s) := by
  unfold execPwrVmain
  repeat (first
    | with_reducible refine AnswersMbxMemOk.next ?_
    | with_reducible exact MbxMemOk.refl _
    | with_reducible assumption
    | with_reducible apply MbxMemOk.step (State.hostWord_mbxOk ..)
    | fail_if_no_progress with_reducible refine MbxMemOk.pwr ?_)

theorem execPwrVcore_mbxOk (s : State) : AnswersMbxMemOk s (execPwrVcore s) := by
  unfold execPwrVcore
  repeat (first
    | with_reducible refine AnswersMbxMemOk.next ?_
    | with_reducible exact MbxMemOk.refl _
    | with_reducible assumption
    | with_reducible apply MbxMemOk.step (State.hostWord_mbxOk ..)
    | fail_if_no_progress with_reducible refine MbxMemOk.pwr ?_)

theorem execDspDescidx_mbxOk (v : W32) (s : State) : AnswersMbxMemOk s (execDspDescidx v s) := by
  unfold execDspDescidx
  repeat (first
    | with_reducible refine AnswersMbxMemOk.next ?_
    | with_reducible exact MbxMemOk.refl _
    | with_reducible assumption
    | with_reducible apply MbxMemOk.step (State.hostWrite_mbxOk ..)
    | with_reducible refine MbxMemOk.foldl ?_ ?_
    | (intro _ _ _; try beta_reduce)
    | fail_if_no_progress with_reducible refine MbxMemOk.dsp ?_)

theorem execDspTrcctl_mbxOk (v : W32) (s : State) : AnswersMbxMemOk s (execDspTrcctl v s) := by
  unfold execDspTrcctl
  repeat (first
    | with_reducible refine AnswersMbxMemOk.next ?_
    | with_reducible exact MbxMemOk.refl _
    | with_reducible assumption
    | with_reducible apply MbxMemOk.step (State.hostWrite_mbxOk ..)
    | with_reducible refine MbxMemOk.ite ?_ ?_
    | fail_if_no_progress with_reducible refine MbxMemOk.dsp ?_)

theorem execDspTrcd0_mbxOk (s : State) : AnswersMbxMemOk s (execDspTrcd0 s) := by
  unfold execDspTrcd0
  repeat (first
    | with_reducible refine AnswersMbxMemOk.next ?_
    | with_reducible exact MbxMemOk.refl _
    | with_reducible assumption
    | with_reducible apply MbxMemOk.step (State.hostWord_mbxOk ..)
    | fail_if_no_progress with_reducible refine MbxMemOk.dsp ?_)

theorem execDspRdydep_mbxOk (l : Fin 8) (s : State) : AnswersMbxMemOk s (execDspRdydep l s) := by
  unfold execDspRdydep
  repeat (first
    | with_reducible refine AnswersMbxMemOk.next ?_
    | with_reducible exact MbxMemOk.refl _
    | with_reducible assumption
    | with_reducible apply MbxMemOk.step (State.hostWord_mbxOk ..)
    | fail_if_no_progress with_reducible refine MbxMemOk.dsp ?_)

theorem execDspPreempt_mbxOk (s : State) : AnswersMbxMemOk s (execDspPreempt s) := by
  unfold execDspPreempt
  repeat (first
    | with_reducible refine AnswersMbxMemOk.next ?_
    | with_reducible exact MbxMemOk.refl _
    | with_reducible assumption
    | with_reducible apply MbxMemOk.step (State.hostWord_mbxOk ..)
    | fail_if_no_progress with_reducible refine MbxMemOk.dsp ?_)

theorem State.writeHost_mbxOk (s : State) (o : Nat) (v : W32) : MbxMemOk s (State.writeHost s o v) := by
  unfold State.writeHost
  repeat (first
    | with_reducible exact MbxMemOk.refl _
    | with_reducible assumption
    | ((with_reducible apply MbxMemOk.only (State.setEvt_only ..)); decide)
    | with_reducible refine MbxMemOk.ite ?_ ?_
    | fail_if_no_progress with_reducible refine MbxMemOk.frm ?_
    | fail_if_no_progress with_reducible refine MbxMemOk.host (by first | exact id | exact twf_tset _ _ _ | exact wf_mwrite _ _ _ _ | exact wf_merase _ _ _ _ | exact fun w => wf_mwrite _ _ _ _ (wf_mwrite _ _ _ _ w) | exact fun _ => twf_nil _) ?_
    | fail_if_no_progress with_reducible refine MbxMemOk.lgr ?_)

theorem State.writeIo_mbxOk (s : State) (o : Nat) (v : W32) : MbxMemOk s (State.writeIo s o v) := by
  unfold State.writeIo
  repeat (first
    | with_reducible exact MbxMemOk.refl _
    | with_reducible assumption
    | ((with_reducible apply MbxMemOk.only (State.setFch_only ..)); decide)
    | ((with_reducible apply MbxMemOk.only (State.setPort_only ..)); decide)
    | with_reducible refine MbxMemOk.ite ?_ ?_
    | fail_if_no_progress with_reducible refine MbxMemOk.net ?_
    | fail_if_no_progress with_reducible refine MbxMemOk.saf ?_
    | fail_if_no_progress with_reducible refine MbxMemOk.host (by first | exact id | exact twf_tset _ _ _ | exact wf_mwrite _ _ _ _ | exact wf_merase _ _ _ _ | exact fun w => wf_mwrite _ _ _ _ (wf_mwrite _ _ _ _ w) | exact fun _ => twf_nil _) ?_
    | fail_if_no_progress with_reducible refine MbxMemOk.pwr ?_)

theorem execRegisterWrite_mbxOk (off : Nat) (v : W32) (s : State) : AnswersMbxMemOk s (execRegisterWrite off v s) := by
  unfold execRegisterWrite
  repeat (first
    | with_reducible refine AnswersMbxMemOk.next ?_
    | with_reducible exact MbxMemOk.refl _
    | with_reducible assumption
    | with_reducible apply MbxMemOk.step (State.writeIo_mbxOk ..)
    | ((with_reducible apply MbxMemOk.only (State.writeCore_only ..)); decide)
    | with_reducible apply MbxMemOk.step (State.writeHost_mbxOk ..)
    | with_reducible apply MbxMemOk.step (State.hostWrite_mbxOk ..)
    | with_reducible refine MbxMemOk.ite ?_ ?_)

theorem State.axAnswers_mbxOk (s : State) (st : Tbl Nat) : MbxMemOk s (State.axAnswers s st) := by
  unfold State.axAnswers
  repeat (first
    | with_reducible exact MbxMemOk.refl _
    | with_reducible assumption
    | with_reducible apply MbxMemOk.step (State.answer_mbxOk ..)
    | with_reducible refine MbxMemOk.ite ?_ ?_
    | with_reducible refine MbxMemOk.foldl ?_ ?_
    | (intro _ _ _; try beta_reduce))

theorem State.decideWrite_mbxOk (s : State) (t : Taken) : MbxMemOk s (State.decideWrite s t) := by
  unfold State.decideWrite
  repeat (first
    | with_reducible exact MbxMemOk.refl _
    | with_reducible assumption
    | ((with_reducible apply MbxMemOk.only (State.setEntry_only ..)); decide)
    | with_reducible apply MbxMemOk.step (State.answer_mbxOk ..)
    | ((with_reducible apply MbxMemOk.only (State.pulse_only ..)); decide)
    | with_reducible refine MbxMemOk.foldl ?_ ?_
    | (intro _ _ _; try beta_reduce)
    | split
    | (dsimp -proj -beta only []; split))

theorem State.decideOvl_mbxOk (s : State) (t : Taken) : MbxMemOk s (State.decideOvl s t) := by
  unfold State.decideOvl
  repeat (first
    | with_reducible exact MbxMemOk.refl _
    | with_reducible assumption
    | ((with_reducible apply MbxMemOk.only (State.autoFreeze_only ..)); decide)
    | ((with_reducible apply MbxMemOk.only (State.setEntry_only ..)); decide)
    | with_reducible apply MbxMemOk.step (State.answer_mbxOk ..)
    | ((with_reducible apply MbxMemOk.only (State.raiseDev_only ..)); decide)
    | ((with_reducible apply MbxMemOk.only (State.pulse_only ..)); decide)
    | with_reducible refine MbxMemOk.ite ?_ ?_
    | with_reducible refine MbxMemOk.foldl ?_ ?_
    | (intro _ _ _; try beta_reduce)
    | split
    | (dsimp -proj -beta only []; split))

theorem State.decideCfg_mbxOk (s : State) (t : Taken) : MbxMemOk s (State.decideCfg s t) := by
  unfold State.decideCfg
  repeat (first
    | with_reducible exact MbxMemOk.refl _
    | with_reducible assumption
    | ((with_reducible apply MbxMemOk.only (State.switchTo_only ..)); decide)
    | ((with_reducible apply MbxMemOk.only (State.activate_only ..)); decide)
    | with_reducible apply MbxMemOk.step (State.answer_mbxOk ..)
    | with_reducible refine MbxMemOk.ite ?_ ?_)

theorem State.decideOne_mbxOk (s : State) (t : Taken) : MbxMemOk s (State.decideOne s t) := by
  unfold State.decideOne
  repeat (first
    | with_reducible exact MbxMemOk.refl _
    | with_reducible assumption
    | with_reducible apply MbxMemOk.step (State.decideCfg_mbxOk ..)
    | with_reducible apply MbxMemOk.step (State.decideOvl_mbxOk ..)
    | with_reducible apply MbxMemOk.step (State.decideWrite_mbxOk ..)
    | with_reducible apply MbxMemOk.step (State.answer_mbxOk ..)
    | with_reducible refine MbxMemOk.ite ?_ ?_)

theorem State.decideTaken_mbxOk (s : State) : MbxMemOk s (State.decideTaken s) := by
  unfold State.decideTaken
  repeat (first
    | with_reducible exact MbxMemOk.refl _
    | with_reducible assumption
    | with_reducible apply MbxMemOk.step (State.decideOne_mbxOk ..)
    | with_reducible refine MbxMemOk.foldl ?_ ?_
    | (intro _ _ _; try beta_reduce))

theorem State.takeOutput_mbxOk (s : State) : MbxMemOk s (State.takeOutput s) := by
  unfold State.takeOutput
  repeat (first
    | with_reducible exact MbxMemOk.refl _
    | with_reducible assumption
    | ((with_reducible apply MbxMemOk.only (State.irq_only ..)); decide)
    | fail_if_no_progress with_reducible refine MbxMemOk.host (by first | exact id | exact twf_tset _ _ _ | exact wf_mwrite _ _ _ _ | exact wf_merase _ _ _ _ | exact fun w => wf_mwrite _ _ _ _ (wf_mwrite _ _ _ _ w) | exact fun _ => twf_nil _) ?_
    | split
    | (dsimp -proj -beta only []; split))

theorem State.takeDecim_mbxOk (s : State) : MbxMemOk s (State.takeDecim s) := by
  unfold State.takeDecim
  repeat (first
    | with_reducible exact MbxMemOk.refl _
    | with_reducible assumption
    | with_reducible refine MbxMemOk.ite ?_ ?_
    | fail_if_no_progress with_reducible refine MbxMemOk.host (by first | exact id | exact twf_tset _ _ _ | exact wf_mwrite _ _ _ _ | exact wf_merase _ _ _ _ | exact fun w => wf_mwrite _ _ _ _ (wf_mwrite _ _ _ _ w) | exact fun _ => twf_nil _) ?_)

theorem State.seqInc_mbxOk (s : State) (b : Nat) : MbxMemOk s (State.seqInc s b) := by
  unfold State.seqInc
  repeat (first
    | with_reducible exact MbxMemOk.refl _
    | with_reducible assumption
    | fail_if_no_progress with_reducible refine MbxMemOk.host (by first | exact id | exact twf_tset _ _ _ | exact wf_mwrite _ _ _ _ | exact wf_merase _ _ _ _ | exact fun w => wf_mwrite _ _ _ _ (wf_mwrite _ _ _ _ w) | exact fun _ => twf_nil _) ?_)

theorem State.inputStart_mbxOk (s : State) : MbxMemOk s (State.inputStart s) := by
  unfold State.inputStart
  repeat (first
    | with_reducible exact MbxMemOk.refl _
    | with_reducible assumption
    | with_reducible apply MbxMemOk.step (State.seqInc_mbxOk ..)
    | with_reducible refine MbxMemOk.ite ?_ ?_
    | fail_if_no_progress with_reducible refine MbxMemOk.host (by first | exact id | exact twf_tset _ _ _ | exact wf_mwrite _ _ _ _ | exact wf_merase _ _ _ _ | exact fun w => wf_mwrite _ _ _ _ (wf_mwrite _ _ _ _ w) | exact fun _ => twf_nil _) ?_)

theorem State.axisBoundary_mbxOk (s : State) : MbxMemOk s (State.axisBoundary s) := by
  unfold State.axisBoundary
  repeat (first
    | with_reducible exact MbxMemOk.refl _
    | with_reducible assumption
    | ((with_reducible apply MbxMemOk.only (State.shiftFrame_only ..)); decide)
    | ((with_reducible apply MbxMemOk.only (State.derateGroups_only ..)); decide)
    | ((with_reducible apply MbxMemOk.only (State.stopGroups_only ..)); decide)
    | ((with_reducible apply MbxMemOk.only (State.applyFaults_only ..)); decide)
    | with_reducible apply MbxMemOk.step (State.axAnswers_mbxOk ..)
    | ((with_reducible apply MbxMemOk.only (Only.eq_fst (State.axRun_only ..) (by assumption))); decide)
    | ((with_reducible apply MbxMemOk.only (State.axRun_only ..)); decide)
    | ((with_reducible apply MbxMemOk.only (State.mapAxes_only ..)); decide)
    | split
    | (dsimp -proj -beta only []; split))

theorem State.headBoundary_mbxOk (s : State) : MbxMemOk s (State.headBoundary s) := by
  unfold State.headBoundary
  repeat (first
    | with_reducible exact MbxMemOk.refl _
    | with_reducible assumption
    | with_reducible apply MbxMemOk.step (State.axisBoundary_mbxOk ..)
    | ((with_reducible apply MbxMemOk.only (State.startYield_only ..)); decide)
    | ((with_reducible apply MbxMemOk.only (State.endStops_only ..)); decide)
    | with_reducible apply MbxMemOk.step (State.decideTaken_mbxOk ..)
    | with_reducible apply MbxMemOk.step (State.axAnswers_mbxOk ..)
    | ((with_reducible apply MbxMemOk.only (Only.eq_fst (State.axRun_only ..) (by assumption))); decide)
    | ((with_reducible apply MbxMemOk.only (State.axRun_only ..)); decide)
    | with_reducible refine MbxMemOk.ite ?_ ?_
    | fail_if_no_progress with_reducible refine MbxMemOk.evt ?_
    | split
    | (dsimp -proj -beta only []; split))

theorem State.otherBoundary_mbxOk (s : State) : MbxMemOk s (State.otherBoundary s) := by
  unfold State.otherBoundary
  repeat (first
    | with_reducible exact MbxMemOk.refl _
    | with_reducible assumption
    | with_reducible apply MbxMemOk.step (State.decideTaken_mbxOk ..)
    | fail_if_no_progress with_reducible refine MbxMemOk.red_evt ?_
    | fail_if_no_progress with_reducible refine MbxMemOk.red ?_
    | fail_if_no_progress with_reducible refine MbxMemOk.evt ?_)

theorem State.ioBoundary_mbxOk (s : State) : MbxMemOk s (State.ioBoundary s) := by
  unfold State.ioBoundary
  repeat (first
    | with_reducible exact MbxMemOk.refl _
    | with_reducible assumption
    | with_reducible apply MbxMemOk.step (State.takeOutput_mbxOk ..)
    | ((with_reducible apply MbxMemOk.only (State.imageUsed_only ..)); decide)
    | ((with_reducible apply MbxMemOk.only (State.capBoundary_only ..)); decide)
    | ((with_reducible apply MbxMemOk.only (State.fioBoundary_only ..)); decide)
    | ((with_reducible apply MbxMemOk.only (State.imgCheck_only ..)); decide)
    | with_reducible refine MbxMemOk.ite ?_ ?_)

theorem State.boundaryEnd_mbxOk (late : Bool) (s : State) : MbxMemOk s (State.boundaryEnd late s) := by
  unfold State.boundaryEnd
  repeat (first
    | with_reducible exact MbxMemOk.refl _
    | with_reducible assumption
    | ((with_reducible apply MbxMemOk.only (State.procSends_only ..)); decide)
    | with_reducible apply MbxMemOk.step (State.inputStart_mbxOk ..)
    | with_reducible apply MbxMemOk.step (State.ledRequest_mbxOk ..)
    | ((with_reducible apply MbxMemOk.only (State.paramSends_only ..)); decide)
    | ((with_reducible apply MbxMemOk.only (State.headSends_only ..)); decide)
    | ((with_reducible apply MbxMemOk.only (State.releaseFrame_only ..)); decide)
    | with_reducible refine MbxMemOk.ite ?_ ?_
    | fail_if_no_progress with_reducible refine MbxMemOk.frm ?_)

theorem execTickTakesEffect_mbxOk (s : State) : AnswersMbxMemOk s (execTickTakesEffect s) := by
  unfold execTickTakesEffect
  repeat (first
    | with_reducible refine AnswersMbxMemOk.next ?_
    | with_reducible exact MbxMemOk.refl _
    | with_reducible assumption
    | with_reducible apply MbxMemOk.step (State.boundaryEnd_mbxOk ..)
    | with_reducible apply MbxMemOk.step (State.ioBoundary_mbxOk ..)
    | ((with_reducible apply MbxMemOk.only (State.fullClock_only ..)); decide)
    | with_reducible apply MbxMemOk.step (State.otherBoundary_mbxOk ..)
    | with_reducible apply MbxMemOk.step (State.headBoundary_mbxOk ..)
    | with_reducible apply MbxMemOk.step (State.takeDecim_mbxOk ..)
    | ((with_reducible apply MbxMemOk.only (State.switchTo_only ..)); decide)
    | ((with_reducible apply MbxMemOk.only (State.gotoLatency_only ..)); decide)
    | with_reducible refine MbxMemOk.ite ?_ ?_
    | fail_if_no_progress with_reducible refine MbxMemOk.frm ?_
    | split
    | (dsimp -proj -beta only []; split))

theorem execInputImageComplete_mbxOk (s : State) : AnswersMbxMemOk s (execInputImageComplete s) := by
  unfold execInputImageComplete
  repeat (first
    | with_reducible refine AnswersMbxMemOk.next ?_
    | with_reducible exact MbxMemOk.refl _
    | with_reducible assumption
    | ((with_reducible apply MbxMemOk.only (State.irq_only ..)); decide)
    | with_reducible refine MbxMemOk.ite ?_ ?_
    | fail_if_no_progress with_reducible refine MbxMemOk.host (by first | exact id | exact twf_tset _ _ _ | exact wf_mwrite _ _ _ _ | exact wf_merase _ _ _ _ | exact fun w => wf_mwrite _ _ _ _ (wf_mwrite _ _ _ _ w) | exact fun _ => twf_nil _) ?_
    | split
    | (dsimp -proj -beta only []; split))

end Sys2Proof.Machine
end

