-- ==== Sys2Proof/Laws/Shared.lean ====
section
/-! SUPPORT. What the shared operations do to the parts they change: the passing of time, raising an event, an answer, a host
access. -/

namespace Sys2Proof.Machine

/-! ## The passing of time -/

theorem State.advance_frm (s : State) (t : Nat) :
    (s.advance t).frm = { s.frm with now := s.frm.now + (t - s.frm.now), slewRem := s.frm.slewRem - s.slewOver t } := by
  unfold State.advance
  rw [(State.coreTime_only _ _).out .frm rfl]

/-- Going to a device time moves the clock there, never back, and takes off what a follower's slew has done; nothing else of the
frame block. -/
@[simp] theorem State.goto_frm (s : State) (t : Nat) :
    (s.goto t).frm = { s.frm with now := s.frm.now + (t - s.frm.now), slewRem := s.frm.slewRem - s.slewOver t } := by
  have h := State.advance_frm s t
  unfold State.goto
  dsimp only
  split
  · split
    · rw [(State.markEv_only _ _ _).out .frm rfl, (State.raiseDev_only _ _ _).out .frm rfl, ← h]
    · rw [(State.markEv_only _ _ _).out .frm rfl, ← h]
  · exact h

/-- Going to a later device time arrives at it. -/
theorem State.goto_now (s : State) (t : Nat) (h : s.frm.now ≤ t) : (s.goto t).frm.now = t := by
  rw [State.goto_frm]
  show s.frm.now + (t - s.frm.now) = t
  omega

/-! ## Raising an event -/

/-- What entering an event does to the event block: its reactions fall due, it joins the queue or counts as lost. -/
theorem State.raiseCore_evt (s : State) (code obj groups : Nat) (data : List Byte) :
    (s.raiseCore code obj groups data).evt = { s.evt with
      due := if s.frameNow != s.frm.frame then s.evt.due else dueMerge groups code s.reaction s.evt.due,
      dueLater := if s.frameNow != s.frm.frame then dueMerge groups code s.reaction s.evt.dueLater else s.evt.dueLater,
      queue := if 64 ≤ s.evt.queue.length then s.evt.queue else s.evt.queue ++
        [{ time := s.frm.now, frame := s.frameNow, code := BitVec.ofNat 16 code, obj := BitVec.ofNat 16 obj,
           react := s.worst code groups, groups := BitVec.ofNat 32 groups, data := data }],
      lost := if 64 ≤ s.evt.queue.length then satInc s.evt.lost else s.evt.lost } := by
  unfold State.raiseCore
  simp only [apply_ite State.evt, State.capTrigger_keeps, State.log_keeps, ite_self, State.pulse_keeps]
  have r : ∀ c g, (if code = evFrameOverrun then (s.pulse 80).pulse 92 else s.pulse 80).reaction c g = s.reaction c g := by
    intro c g; split <;> rfl
  have r' : (if code = evFrameOverrun then (s.pulse 80).pulse 92 else s.pulse 80).reaction = s.reaction := by
    funext c g; exact r c g
  have f : (if code = evFrameOverrun then (s.pulse 80).pulse 92 else s.pulse 80).frm = s.frm := by split <;> rfl
  by_cases h : s.frameNow = s.frm.frame <;> split <;> simp_all [State.worst, bne]

@[simp] theorem State.markEv_queue (s : State) (code obj : Nat) :
    (s.markEv code obj).evt.queue = s.evt.queue := rfl

/-- The queue only grows at its end; it grows where it is not full. -/
theorem State.raise_queue (s : State) (code obj groups : Nat) (data : List Byte) :
    (s.raise code obj groups data).evt.queue = if 64 ≤ s.evt.queue.length then s.evt.queue else s.evt.queue ++
        [{ time := s.frm.now, frame := s.frameNow, code := BitVec.ofNat 16 code, obj := BitVec.ofNat 16 obj,
           react := s.worst code groups, groups := BitVec.ofNat 32 groups, data := data }] := by
  unfold State.raise
  dsimp only
  split
  · rename_i h
    simp [State.raiseCore_evt, h.1]
  · rw [State.raiseCore_evt]

/-- An event raised stands in the queue, or the queue is full. -/
theorem State.raise_hasEvent (s : State) (code obj groups : Nat) (data : List Byte) :
    (s.raise code obj groups data).hasEvent code obj := by
  unfold State.hasEvent
  rw [State.raise_queue]
  split
  · exact .inr ‹_›
  · exact .inl ⟨_, List.mem_append_right _ (List.mem_singleton.mpr rfl), rfl, rfl⟩

theorem State.raiseOnce_hasEvent (s : State) (code obj groups : Nat) (data : List Byte) (h : s.seenEv code obj = false) :
    (s.raiseOnce code obj groups data).hasEvent code obj := by
  unfold State.raiseOnce
  rw [h]
  exact State.raise_hasEvent ..

theorem State.raiseDev_hasEvent (s : State) (code : Nat) (data : List Byte) : (s.raiseDev code data).hasEvent code devObj :=
  State.raise_hasEvent ..

/-- An event that stands in the queue stands there still after another is raised. -/
theorem State.hasEvent_raise (s : State) (code obj c o g : Nat) (data : List Byte) (h : s.hasEvent code obj) :
    (s.raise c o g data).hasEvent code obj := by
  unfold State.hasEvent at *
  rw [State.raise_queue]
  split
  · exact .inr ‹_›
  · rcases h with ⟨e, he, h⟩ | h
    · exact .inl ⟨e, List.mem_append_left _ he, h⟩
    · exact absurd h ‹_›

/-- The event queue decides which events stand. -/
theorem State.hasEvent_of_evt {s t : State} {code obj : Nat} (h : t.evt.queue = s.evt.queue) (g : s.hasEvent code obj) :
    t.hasEvent code obj := by
  unfold State.hasEvent at *
  rw [h]; exact g

end Sys2Proof.Machine
end

