-- ==== Sys2Proof/Laws/TblAxes.lean ====
section
/-! SUPPORT. Every operation keeps the table of axes canonical -/

set_option linter.unusedTactic false
set_option linter.unreachableTactic false

namespace Sys2Proof.Machine

/-- If the memory is canonical in s, it is in t. -/
structure AxesOk (s t : State) : Prop where
  out : twf ({} : Axis) s.axes = true → twf ({} : Axis) t.axes = true

/-- A meaning answers a next state so related to s. -/
structure AnswersAxesOk (s : State) (o : Out) : Prop where
  out : ∃ t, o = .next t ∧ AxesOk s t

theorem AxesOk.refl (s : State) : AxesOk s s := ⟨fun x => x⟩

theorem AxesOk.trans {s t u : State} (h : AxesOk s t) (g : AxesOk t u) : AxesOk s u := ⟨fun x => g.out (h.out x)⟩

theorem AxesOk.step {s t u : State} (g : AxesOk t u) (h : AxesOk s t) : AxesOk s u := h.trans g

theorem AxesOk.only {v : List Part} {s t u : State} (g : Only v t u) (hv : v.contains Part.axes = false) (h : AxesOk s t) : AxesOk s u :=
  ⟨fun x => by rw [(g.out .axes hv : u.axes = t.axes)]; exact h.out x⟩

theorem AxesOk.ite {s a b : State} {c : Prop} [Decidable c] (ha : AxesOk s a) (hb : AxesOk s b) : AxesOk s (if c then a else b) := by
  split <;> assumption

theorem AxesOk.foldl {α : Type} {s : State} {f : State → α → State} {l : List α} {x : State}
    (hf : ∀ y a, AxesOk s y → AxesOk s (f y a)) (hx : AxesOk s x) : AxesOk s (l.foldl f x) := by
  induction l generalizing x with
  | nil => exact hx
  | cons a l ih => exact ih (hf x a hx)

theorem AxesOk.eq_fst {α : Type} {t a : State} {p : State × α} {b : α} (h : AxesOk t p.1) (e : p = (a, b)) : AxesOk t a := by
  subst e; exact h

theorem AxesOk.eq_snd {α : Type} {t a : State} {p : α × State} {b : α} (h : AxesOk t p.2) (e : p = (b, a)) : AxesOk t a := by
  subst e; exact h

theorem AnswersAxesOk.next {s t : State} (h : AxesOk s t) : AnswersAxesOk s (.next t) := ⟨t, rfl, h⟩

theorem AxesOk.rfl {a : Tbl Axis} : twf ({} : Axis) a = true → twf ({} : Axis) a = true := id

theorem AxesOk.upd {s x y : State} (h : AxesOk s x) (g : twf ({} : Axis) x.axes = true → twf ({} : Axis) y.axes = true) :
    AxesOk s y := ⟨fun w => g (h.out w)⟩


theorem AxesOk.frm {s x : State} {v0 : Frm} (h : AxesOk s x) :
    AxesOk s { x with frm := v0 } := by
  exact AxesOk.upd h AxesOk.rfl

theorem AxesOk.axes {s x : State} {v0 : Tbl Axis} (g : twf ({} : Axis) x.axes = true → twf ({} : Axis) v0 = true) (h : AxesOk s x) :
    AxesOk s { x with axes := v0 } := by
  exact AxesOk.upd h g

theorem AxesOk.lines {s x : State} {v0 : Tbl Line} (h : AxesOk s x) :
    AxesOk s { x with lines := v0 } := by
  exact AxesOk.upd h AxesOk.rfl

theorem AxesOk.cams {s x : State} {v0 : Tbl CamTable} (h : AxesOk s x) :
    AxesOk s { x with cams := v0 } := by
  exact AxesOk.upd h AxesOk.rfl

theorem AxesOk.camStg {s x : State} {v0 : Tbl (List Host.Cell)} (h : AxesOk s x) :
    AxesOk s { x with camStg := v0 } := by
  exact AxesOk.upd h AxesOk.rfl

theorem AxesOk.zones {s x : State} {v0 : Tbl Zone} (h : AxesOk s x) :
    AxesOk s { x with zones := v0 } := by
  exact AxesOk.upd h AxesOk.rfl

theorem AxesOk.steps {s x : State} {v0 : Tbl StepCh} (h : AxesOk s x) :
    AxesOk s { x with steps := v0 } := by
  exact AxesOk.upd h AxesOk.rfl

theorem AxesOk.encs {s x : State} {v0 : Tbl Enc} (h : AxesOk s x) :
    AxesOk s { x with encs := v0 } := by
  exact AxesOk.upd h AxesOk.rfl

theorem AxesOk.net {s x : State} {v0 : Net} (h : AxesOk s x) :
    AxesOk s { x with net := v0 } := by
  exact AxesOk.upd h AxesOk.rfl

theorem AxesOk.dsp {s x : State} {v0 : Dsp} (h : AxesOk s x) :
    AxesOk s { x with dsp := v0 } := by
  exact AxesOk.upd h AxesOk.rfl

theorem AxesOk.red {s x : State} {v0 : Red} (h : AxesOk s x) :
    AxesOk s { x with red := v0 } := by
  exact AxesOk.upd h AxesOk.rfl

theorem AxesOk.saf {s x : State} {v0 : Saf} (h : AxesOk s x) :
    AxesOk s { x with saf := v0 } := by
  exact AxesOk.upd h AxesOk.rfl

theorem AxesOk.fio {s x : State} {v0 : Fio} (h : AxesOk s x) :
    AxesOk s { x with fio := v0 } := by
  exact AxesOk.upd h AxesOk.rfl

theorem AxesOk.cap {s x : State} {v0 : Cap} (h : AxesOk s x) :
    AxesOk s { x with cap := v0 } := by
  exact AxesOk.upd h AxesOk.rfl

theorem AxesOk.prf {s x : State} {v0 : Prf} (h : AxesOk s x) :
    AxesOk s { x with prf := v0 } := by
  exact AxesOk.upd h AxesOk.rfl

theorem AxesOk.host {s x : State} {v0 : Hst} (h : AxesOk s x) :
    AxesOk s { x with host := v0 } := by
  exact AxesOk.upd h AxesOk.rfl

theorem AxesOk.evt {s x : State} {v0 : Evt} (h : AxesOk s x) :
    AxesOk s { x with evt := v0 } := by
  exact AxesOk.upd h AxesOk.rfl

theorem AxesOk.params {s x : State} {v0 : Tbl W64} (h : AxesOk s x) :
    AxesOk s { x with params := v0 } := by
  exact AxesOk.upd h AxesOk.rfl

theorem AxesOk.cfg {s x : State} {v0 : Cfg} (h : AxesOk s x) :
    AxesOk s { x with cfg := v0 } := by
  exact AxesOk.upd h AxesOk.rfl

theorem AxesOk.pwr {s x : State} {v0 : Pwr} (h : AxesOk s x) :
    AxesOk s { x with pwr := v0 } := by
  exact AxesOk.upd h AxesOk.rfl

theorem AxesOk.lgr {s x : State} {v0 : Lgr} (h : AxesOk s x) :
    AxesOk s { x with lgr := v0 } := by
  exact AxesOk.upd h AxesOk.rfl

theorem AxesOk.pending {s x : State} {v0 : List Instr} (h : AxesOk s x) :
    AxesOk s { x with pending := v0 } := by
  exact AxesOk.upd h AxesOk.rfl

theorem AxesOk.axes_lines_cams_zones_params {s x : State} {v0 : Tbl Axis} {v1 : Tbl Line} {v2 : Tbl CamTable} {v3 : Tbl Zone} {v4 : Tbl W64} (g : twf ({} : Axis) x.axes = true → twf ({} : Axis) v0 = true) (h : AxesOk s x) :
    AxesOk s { x with axes := v0, lines := v1, cams := v2, zones := v3, params := v4 } := by
  exact AxesOk.upd h g

theorem AxesOk.axes_lines_zones {s x : State} {v0 : Tbl Axis} {v1 : Tbl Line} {v2 : Tbl Zone} (g : twf ({} : Axis) x.axes = true → twf ({} : Axis) v0 = true) (h : AxesOk s x) :
    AxesOk s { x with axes := v0, lines := v1, zones := v2 } := by
  exact AxesOk.upd h g

theorem AxesOk.cams_camStg_evt_params {s x : State} {v0 : Tbl CamTable} {v1 : Tbl (List Host.Cell)} {v2 : Evt} {v3 : Tbl W64} (h : AxesOk s x) :
    AxesOk s { x with cams := v0, camStg := v1, evt := v2, params := v3 } := by
  exact AxesOk.upd h AxesOk.rfl

theorem AxesOk.dsp_prf {s x : State} {v0 : Dsp} {v1 : Prf} (h : AxesOk s x) :
    AxesOk s { x with dsp := v0, prf := v1 } := by
  exact AxesOk.upd h AxesOk.rfl

theorem AxesOk.fio_cap {s x : State} {v0 : Fio} {v1 : Cap} (h : AxesOk s x) :
    AxesOk s { x with fio := v0, cap := v1 } := by
  exact AxesOk.upd h AxesOk.rfl

theorem AxesOk.frm_cams {s x : State} {v0 : Frm} {v1 : Tbl CamTable} (h : AxesOk s x) :
    AxesOk s { x with frm := v0, cams := v1 } := by
  exact AxesOk.upd h AxesOk.rfl

theorem AxesOk.frm_dsp {s x : State} {v0 : Frm} {v1 : Dsp} (h : AxesOk s x) :
    AxesOk s { x with frm := v0, dsp := v1 } := by
  exact AxesOk.upd h AxesOk.rfl

theorem AxesOk.frm_evt_pwr {s x : State} {v0 : Frm} {v1 : Evt} {v2 : Pwr} (h : AxesOk s x) :
    AxesOk s { x with frm := v0, evt := v1, pwr := v2 } := by
  exact AxesOk.upd h AxesOk.rfl

theorem AxesOk.frm_fio {s x : State} {v0 : Frm} {v1 : Fio} (h : AxesOk s x) :
    AxesOk s { x with frm := v0, fio := v1 } := by
  exact AxesOk.upd h AxesOk.rfl

theorem AxesOk.frm_host_cfg_pwr {s x : State} {v0 : Frm} {v1 : Hst} {v2 : Cfg} {v3 : Pwr} (h : AxesOk s x) :
    AxesOk s { x with frm := v0, host := v1, cfg := v2, pwr := v3 } := by
  exact AxesOk.upd h AxesOk.rfl

theorem AxesOk.frm_net {s x : State} {v0 : Frm} {v1 : Net} (h : AxesOk s x) :
    AxesOk s { x with frm := v0, net := v1 } := by
  exact AxesOk.upd h AxesOk.rfl

theorem AxesOk.frm_net_evt_cfg {s x : State} {v0 : Frm} {v1 : Net} {v2 : Evt} {v3 : Cfg} (h : AxesOk s x) :
    AxesOk s { x with frm := v0, net := v1, evt := v2, cfg := v3 } := by
  exact AxesOk.upd h AxesOk.rfl

theorem AxesOk.frm_net_red {s x : State} {v0 : Frm} {v1 : Net} {v2 : Red} (h : AxesOk s x) :
    AxesOk s { x with frm := v0, net := v1, red := v2 } := by
  exact AxesOk.upd h AxesOk.rfl

theorem AxesOk.host_pwr {s x : State} {v0 : Hst} {v1 : Pwr} (h : AxesOk s x) :
    AxesOk s { x with host := v0, pwr := v1 } := by
  exact AxesOk.upd h AxesOk.rfl

theorem AxesOk.lines_red_evt {s x : State} {v0 : Tbl Line} {v1 : Red} {v2 : Evt} (h : AxesOk s x) :
    AxesOk s { x with lines := v0, red := v1, evt := v2 } := by
  exact AxesOk.upd h AxesOk.rfl

theorem AxesOk.net_fio {s x : State} {v0 : Net} {v1 : Fio} (h : AxesOk s x) :
    AxesOk s { x with net := v0, fio := v1 } := by
  exact AxesOk.upd h AxesOk.rfl

theorem AxesOk.net_red {s x : State} {v0 : Net} {v1 : Red} (h : AxesOk s x) :
    AxesOk s { x with net := v0, red := v1 } := by
  exact AxesOk.upd h AxesOk.rfl

theorem AxesOk.net_red_evt {s x : State} {v0 : Net} {v1 : Red} {v2 : Evt} (h : AxesOk s x) :
    AxesOk s { x with net := v0, red := v1, evt := v2 } := by
  exact AxesOk.upd h AxesOk.rfl

theorem AxesOk.prf_pwr {s x : State} {v0 : Prf} {v1 : Pwr} (h : AxesOk s x) :
    AxesOk s { x with prf := v0, pwr := v1 } := by
  exact AxesOk.upd h AxesOk.rfl

theorem AxesOk.pwr_lgr {s x : State} {v0 : Pwr} {v1 : Lgr} (h : AxesOk s x) :
    AxesOk s { x with pwr := v0, lgr := v1 } := by
  exact AxesOk.upd h AxesOk.rfl

theorem AxesOk.red_cfg {s x : State} {v0 : Red} {v1 : Cfg} (h : AxesOk s x) :
    AxesOk s { x with red := v0, cfg := v1 } := by
  exact AxesOk.upd h AxesOk.rfl

theorem AxesOk.red_evt {s x : State} {v0 : Red} {v1 : Evt} (h : AxesOk s x) :
    AxesOk s { x with red := v0, evt := v1 } := by
  exact AxesOk.upd h AxesOk.rfl

theorem AxesOk.saf_cfg {s x : State} {v0 : Saf} {v1 : Cfg} (h : AxesOk s x) :
    AxesOk s { x with saf := v0, cfg := v1 } := by
  exact AxesOk.upd h AxesOk.rfl

theorem AxesOk.saf_host_cfg {s x : State} {v0 : Saf} {v1 : Hst} {v2 : Cfg} (h : AxesOk s x) :
    AxesOk s { x with saf := v0, host := v1, cfg := v2 } := by
  exact AxesOk.upd h AxesOk.rfl

theorem AxesOk.saf_pwr {s x : State} {v0 : Saf} {v1 : Pwr} (h : AxesOk s x) :
    AxesOk s { x with saf := v0, pwr := v1 } := by
  exact AxesOk.upd h AxesOk.rfl

theorem AxesOk.saf_pwr_lgr {s x : State} {v0 : Saf} {v1 : Pwr} {v2 : Lgr} (h : AxesOk s x) :
    AxesOk s { x with saf := v0, pwr := v1, lgr := v2 } := by
  exact AxesOk.upd h AxesOk.rfl

theorem State.setAxis_axesOk (s : State) (i : Nat) (a : Axis) : AxesOk s (State.setAxis s i a) := by
  unfold State.setAxis
  repeat (first
    | with_reducible exact AxesOk.refl _
    | with_reducible assumption
    | fail_if_no_progress with_reducible refine AxesOk.axes (by first | exact id | exact twf_tset _ _ _ | exact wf_mwrite _ _ _ _ | exact wf_merase _ _ _ _ | exact fun w => wf_mwrite _ _ _ _ (wf_mwrite _ _ _ _ w) | exact fun _ => twf_nil _) ?_)

theorem State.mapAxes_axesOk (s : State) (f : Nat → Axis → Axis) (l : List Nat) : AxesOk s (State.mapAxes s f l) := by
  unfold State.mapAxes
  repeat (first
    | with_reducible exact AxesOk.refl _
    | with_reducible assumption
    | with_reducible apply AxesOk.step (State.setAxis_axesOk ..)
    | with_reducible refine AxesOk.foldl ?_ ?_
    | (intro _ _ _; try beta_reduce))

theorem State.missDeadline_axesOk (s : State) (ids : List Nat) : AxesOk s (State.missDeadline s ids) := by
  unfold State.missDeadline
  repeat (first
    | with_reducible exact AxesOk.refl _
    | with_reducible assumption
    | ((with_reducible apply AxesOk.only (State.frameOverrun_only ..)); decide)
    | ((with_reducible apply AxesOk.only (State.abandon_only ..)); decide)
    | with_reducible apply AxesOk.step (State.mapAxes_axesOk ..)
    | with_reducible refine AxesOk.foldl ?_ ?_
    | (intro _ _ _; try beta_reduce))

theorem execLnKernelDeadline_axesOk (s : State) : AnswersAxesOk s (execLnKernelDeadline s) := by
  unfold execLnKernelDeadline
  repeat (first
    | with_reducible refine AnswersAxesOk.next ?_
    | with_reducible exact AxesOk.refl _
    | with_reducible assumption
    | with_reducible apply AxesOk.step (State.missDeadline_axesOk ..)
    | ((with_reducible apply AxesOk.only (State.abandonZones_only ..)); decide)
    | ((with_reducible apply AxesOk.only (State.goto_only ..)); decide)
    | with_reducible refine AxesOk.ite ?_ ?_)

theorem State.skipOne_axesOk (s : State) (d : Nat) : AxesOk s (State.skipOne s d) := by
  unfold State.skipOne
  repeat (first
    | with_reducible exact AxesOk.refl _
    | with_reducible assumption
    | ((with_reducible apply AxesOk.only (State.unlist_only ..)); decide)
    | ((with_reducible apply AxesOk.only (State.kickReady_only ..)); decide)
    | ((with_reducible apply AxesOk.only (State.startInstance_only ..)); decide)
    | ((with_reducible apply AxesOk.only (State.trace_only ..)); decide)
    | ((with_reducible apply AxesOk.only (State.raise_only ..)); decide)
    | ((with_reducible apply AxesOk.only (State.pulse_only ..)); decide)
    | ((with_reducible apply AxesOk.only (State.setTask_only ..)); decide)
    | ((with_reducible apply AxesOk.only (State.setZone_only ..)); decide)
    | with_reducible apply AxesOk.step (State.setAxis_axesOk ..)
    | with_reducible refine AxesOk.ite ?_ ?_
    | fail_if_no_progress with_reducible refine AxesOk.dsp ?_)

theorem execU0TrailingSkip_axesOk (s : State) : AnswersAxesOk s (execU0TrailingSkip s) := by
  unfold execU0TrailingSkip
  repeat (first
    | with_reducible refine AnswersAxesOk.next ?_
    | with_reducible exact AxesOk.refl _
    | with_reducible assumption
    | with_reducible apply AxesOk.step (State.skipOne_axesOk ..)
    | ((with_reducible apply AxesOk.only (State.gateCheck_only ..)); decide)
    | ((with_reducible apply AxesOk.only (State.goto_only ..)); decide)
    | with_reducible refine AxesOk.ite ?_ ?_
    | with_reducible refine AxesOk.foldl ?_ ?_
    | (intro _ _ _; try beta_reduce)
    | fail_if_no_progress with_reducible refine AxesOk.frm ?_
    | fail_if_no_progress with_reducible refine AxesOk.dsp ?_)

theorem execCommandBlockDeadline_axesOk (b : Fin 8) (s : State) : AnswersAxesOk s (execCommandBlockDeadline b s) := by
  unfold execCommandBlockDeadline
  repeat (first
    | with_reducible refine AnswersAxesOk.next ?_
    | with_reducible exact AxesOk.refl _
    | with_reducible assumption
    | ((with_reducible apply AxesOk.only (State.startBlock_only ..)); decide)
    | with_reducible apply AxesOk.step (State.missDeadline_axesOk ..)
    | ((with_reducible apply AxesOk.only (State.abandonZones_only ..)); decide)
    | ((with_reducible apply AxesOk.only (State.goto_only ..)); decide)
    | ((with_reducible apply AxesOk.only (State.setBranch_only ..)); decide)
    | with_reducible refine AxesOk.ite ?_ ?_)

theorem State.fpProfiles_axesOk (s : State) : AxesOk s (State.fpProfiles s) := by
  unfold State.fpProfiles
  repeat (first
    | with_reducible exact AxesOk.refl _
    | with_reducible assumption
    | with_reducible apply AxesOk.step (State.setAxis_axesOk ..)
    | with_reducible refine AxesOk.ite ?_ ?_
    | with_reducible refine AxesOk.foldl ?_ ?_
    | (intro _ _ _; try beta_reduce))

theorem State.fp1Work_axesOk (s : State) : AxesOk s (State.fp1Work s) := by
  unfold State.fp1Work
  repeat (first
    | with_reducible exact AxesOk.refl _
    | with_reducible assumption
    | ((with_reducible apply AxesOk.only (State.fpLine_only ..)); decide)
    | with_reducible apply AxesOk.step (State.fpProfiles_axesOk ..)
    | with_reducible refine AxesOk.foldl ?_ ?_
    | (intro _ _ _; try beta_reduce))

theorem execThreadComplete_axesOk (fp : Fin 4) (t : Nat) (s : State) : AnswersAxesOk s (execThreadComplete fp t s) := by
  unfold execThreadComplete
  repeat (first
    | with_reducible refine AnswersAxesOk.next ?_
    | with_reducible exact AxesOk.refl _
    | with_reducible assumption
    | with_reducible apply AxesOk.step (State.fp1Work_axesOk ..)
    | ((with_reducible apply AxesOk.only (State.finishThread_only ..)); decide)
    | ((with_reducible apply AxesOk.only (State.goto_only ..)); decide)
    | with_reducible refine AxesOk.ite ?_ ?_
    | fail_if_no_progress with_reducible refine AxesOk.fio ?_
    | split
    | (dsimp -proj -beta only []; split))

theorem State.stallStep_axesOk (s : State) (i : Nat) : AxesOk s (State.stallStep s i) := by
  unfold State.stallStep
  repeat (first
    | with_reducible exact AxesOk.refl _
    | with_reducible assumption
    | ((with_reducible apply AxesOk.only (State.setStep_only ..)); decide)
    | with_reducible apply AxesOk.step (State.setAxis_axesOk ..)
    | split
    | (dsimp -proj -beta only []; split))

theorem execStall_axesOk (i : Fin 256) (s : State) : AnswersAxesOk s (execStall i s) := by
  unfold execStall
  repeat (first
    | with_reducible refine AnswersAxesOk.next ?_
    | with_reducible exact AxesOk.refl _
    | with_reducible assumption
    | with_reducible apply AxesOk.step (State.stallStep_axesOk ..)
    | with_reducible apply AxesOk.step (State.setAxis_axesOk ..)
    | with_reducible refine AxesOk.ite ?_ ?_)

theorem execHomeFlagExpiry_axesOk (i : Fin 256) (s : State) : AnswersAxesOk s (execHomeFlagExpiry i s) := by
  unfold execHomeFlagExpiry
  repeat (first
    | with_reducible refine AnswersAxesOk.next ?_
    | with_reducible exact AxesOk.refl _
    | with_reducible assumption
    | with_reducible apply AxesOk.step (State.stallStep_axesOk ..)
    | ((with_reducible apply AxesOk.only (State.goto_only ..)); decide)
    | with_reducible refine AxesOk.ite ?_ ?_
    | split
    | (dsimp -proj -beta only []; split))

theorem execInpos_axesOk (i : Fin 256) (s : State) : AnswersAxesOk s (execInpos i s) := by
  unfold execInpos
  repeat (first
    | with_reducible refine AnswersAxesOk.next ?_
    | with_reducible exact AxesOk.refl _
    | with_reducible assumption
    | with_reducible apply AxesOk.step (State.setAxis_axesOk ..)
    | with_reducible refine AxesOk.ite ?_ ?_)

theorem State.stepKernel_axesOk (s : State) (i f : Nat) : AxesOk s (State.stepKernel s i f) := by
  unfold State.stepKernel
  repeat (first
    | with_reducible exact AxesOk.refl _
    | with_reducible assumption
    | ((with_reducible apply AxesOk.only (State.setStep_only ..)); decide)
    | with_reducible apply AxesOk.step (State.setAxis_axesOk ..)
    | split
    | (dsimp -proj -beta only []; split))

theorem State.servoKernel_axesOk (s : State) (i f : Nat) : AxesOk s (State.servoKernel s i f) := by
  unfold State.servoKernel
  repeat (first
    | with_reducible exact AxesOk.refl _
    | with_reducible assumption
    | ((with_reducible apply AxesOk.only (State.raiseAx_only ..)); decide)
    | ((with_reducible apply AxesOk.only (State.pulse_only ..)); decide)
    | with_reducible apply AxesOk.step (State.setAxis_axesOk ..)
    | with_reducible refine AxesOk.ite ?_ ?_
    | split
    | (dsimp -proj -beta only []; split))

theorem execCriticalKernelComplete_axesOk (i : Fin 256) (t opnd comp : Nat) (s : State) : AnswersAxesOk s (execCriticalKernelComplete i t opnd comp s) := by
  unfold execCriticalKernelComplete
  repeat (first
    | with_reducible refine AnswersAxesOk.next ?_
    | with_reducible exact AxesOk.refl _
    | with_reducible assumption
    | with_reducible apply AxesOk.step (State.servoKernel_axesOk ..)
    | with_reducible apply AxesOk.step (State.stepKernel_axesOk ..)
    | ((with_reducible apply AxesOk.only (State.gateCheck_only ..)); decide)
    | ((with_reducible apply AxesOk.only (State.completeKernel_only ..)); decide)
    | ((with_reducible apply AxesOk.only (State.tagComplete_only ..)); decide)
    | ((with_reducible apply AxesOk.only (State.goto_only ..)); decide)
    | ((with_reducible apply AxesOk.only (State.setBranch_only ..)); decide)
    | with_reducible apply AxesOk.step (State.setAxis_axesOk ..)
    | with_reducible refine AxesOk.ite ?_ ?_
    | fail_if_no_progress with_reducible refine AxesOk.frm ?_)

theorem State.trailAxis_axesOk (s : State) (i : Nat) : AxesOk s (State.trailAxis s i) := by
  unfold State.trailAxis
  repeat (first
    | with_reducible exact AxesOk.refl _
    | with_reducible assumption
    | ((with_reducible apply AxesOk.only (State.devBase_only ..)); decide)
    | ((with_reducible apply AxesOk.only (State.raiseAx_only ..)); decide)
    | with_reducible apply AxesOk.step (State.setAxis_axesOk ..)
    | with_reducible refine AxesOk.ite ?_ ?_)

theorem execTrailingKernelComplete_axesOk (i : Fin 256) (t opnd comp : Nat) (s : State) : AnswersAxesOk s (execTrailingKernelComplete i t opnd comp s) := by
  unfold execTrailingKernelComplete
  repeat (first
    | with_reducible refine AnswersAxesOk.next ?_
    | with_reducible exact AxesOk.refl _
    | with_reducible assumption
    | with_reducible apply AxesOk.step (State.trailAxis_axesOk ..)
    | ((with_reducible apply AxesOk.only (State.completeKernel_only ..)); decide)
    | ((with_reducible apply AxesOk.only (State.tagComplete_only ..)); decide)
    | ((with_reducible apply AxesOk.only (State.goto_only ..)); decide)
    | with_reducible refine AxesOk.ite ?_ ?_
    | fail_if_no_progress with_reducible refine AxesOk.frm ?_)

theorem State.diaOf_axesOk (s : State) (z i j : Nat) : AxesOk s (State.diaOf s z i j) := by
  unfold State.diaOf
  repeat (first
    | with_reducible exact AxesOk.refl _
    | with_reducible assumption
    | ((with_reducible apply AxesOk.only (State.raiseAx_only ..)); decide)
    | with_reducible apply AxesOk.step (State.setAxis_axesOk ..)
    | with_reducible refine AxesOk.ite ?_ ?_)

theorem State.zoneTrail_axesOk (s : State) (z : Nat) : AxesOk s (State.zoneTrail s z) := by
  unfold State.zoneTrail
  repeat (first
    | with_reducible exact AxesOk.refl _
    | with_reducible assumption
    | with_reducible apply AxesOk.step (State.diaOf_axesOk ..)
    | ((with_reducible apply AxesOk.only (State.raiseOnce_only ..)); decide)
    | ((with_reducible apply AxesOk.only (State.setZone_only ..)); decide)
    | with_reducible refine AxesOk.ite ?_ ?_
    | split
    | (dsimp -proj -beta only []; split))

theorem execZoneTrailingKernelComplete_axesOk (z : Fin 64) (t opnd comp : Nat) (s : State) : AnswersAxesOk s (execZoneTrailingKernelComplete z t opnd comp s) := by
  unfold execZoneTrailingKernelComplete
  repeat (first
    | with_reducible refine AnswersAxesOk.next ?_
    | with_reducible exact AxesOk.refl _
    | with_reducible assumption
    | with_reducible apply AxesOk.step (State.zoneTrail_axesOk ..)
    | ((with_reducible apply AxesOk.only (State.completeKernel_only ..)); decide)
    | ((with_reducible apply AxesOk.only (State.tagComplete_only ..)); decide)
    | ((with_reducible apply AxesOk.only (State.goto_only ..)); decide)
    | with_reducible refine AxesOk.ite ?_ ?_
    | fail_if_no_progress with_reducible refine AxesOk.frm ?_)

theorem execSatTime_axesOk (i : Fin 256) (c : Fin 4) (s : State) : AnswersAxesOk s (execSatTime i c s) := by
  unfold execSatTime
  repeat (first
    | with_reducible refine AnswersAxesOk.next ?_
    | with_reducible exact AxesOk.refl _
    | with_reducible assumption
    | ((with_reducible apply AxesOk.only (State.raiseAx_only ..)); decide)
    | with_reducible apply AxesOk.step (State.setAxis_axesOk ..)
    | with_reducible refine AxesOk.ite ?_ ?_)

theorem execFbLost_axesOk (i : Fin 256) (s : State) : AnswersAxesOk s (execFbLost i s) := by
  unfold execFbLost
  repeat (first
    | with_reducible refine AnswersAxesOk.next ?_
    | with_reducible exact AxesOk.refl _
    | with_reducible assumption
    | ((with_reducible apply AxesOk.only (State.raiseAx_only ..)); decide)
    | with_reducible apply AxesOk.step (State.setAxis_axesOk ..)
    | with_reducible refine AxesOk.ite ?_ ?_)

theorem execFbFrozen_axesOk (i : Fin 256) (s : State) : AnswersAxesOk s (execFbFrozen i s) := by
  unfold execFbFrozen
  repeat (first
    | with_reducible refine AnswersAxesOk.next ?_
    | with_reducible exact AxesOk.refl _
    | with_reducible assumption
    | ((with_reducible apply AxesOk.only (State.raiseAx_only ..)); decide)
    | with_reducible apply AxesOk.step (State.setAxis_axesOk ..)
    | with_reducible refine AxesOk.ite ?_ ?_)

theorem execEstExpired_axesOk (i : Fin 256) (s : State) : AnswersAxesOk s (execEstExpired i s) := by
  unfold execEstExpired
  repeat (first
    | with_reducible refine AnswersAxesOk.next ?_
    | with_reducible exact AxesOk.refl _
    | with_reducible assumption
    | ((with_reducible apply AxesOk.only (State.raiseAx_only ..)); decide)
    | with_reducible apply AxesOk.step (State.setAxis_axesOk ..)
    | with_reducible refine AxesOk.ite ?_ ?_)

theorem execEncDev_axesOk (i : Fin 256) (s : State) : AnswersAxesOk s (execEncDev i s) := by
  unfold execEncDev
  repeat (first
    | with_reducible refine AnswersAxesOk.next ?_
    | with_reducible exact AxesOk.refl _
    | with_reducible assumption
    | ((with_reducible apply AxesOk.only (State.raiseAx_only ..)); decide)
    | with_reducible apply AxesOk.step (State.setAxis_axesOk ..)
    | with_reducible refine AxesOk.ite ?_ ?_
    | split
    | (dsimp -proj -beta only []; split))

theorem State.rebase_axesOk (s : State) (i c : Nat) : AxesOk s (State.rebase s i c) := by
  unfold State.rebase
  repeat (first
    | with_reducible exact AxesOk.refl _
    | with_reducible assumption
    | ((with_reducible apply AxesOk.only (State.setStep_only ..)); decide)
    | with_reducible apply AxesOk.step (State.setAxis_axesOk ..))

theorem State.stepApply_axesOk (s : State) (c : Nat) : AxesOk s (State.stepApply s c) := by
  unfold State.stepApply
  repeat (first
    | with_reducible exact AxesOk.refl _
    | with_reducible assumption
    | ((with_reducible apply AxesOk.only (State.stepWithdraw_only ..)); decide)
    | with_reducible apply AxesOk.step (State.rebase_axesOk ..)
    | ((with_reducible apply AxesOk.only (State.raiseAx_only ..)); decide)
    | ((with_reducible apply AxesOk.only (State.setStep_only ..)); decide)
    | with_reducible apply AxesOk.step (State.setAxis_axesOk ..)
    | with_reducible refine AxesOk.ite ?_ ?_
    | split
    | (dsimp -proj -beta only []; split))

theorem State.serve_axesOk (s : State) (op : Nat) (f : State → Nat → Nat → State) (hf : ∀ y m j, AxesOk y (f y m j)) : AxesOk s (State.serve s op f) := by
  unfold State.serve
  repeat (first
    | with_reducible exact AxesOk.refl _
    | with_reducible assumption
    | with_reducible apply AxesOk.step (hf ..)
    | ((with_reducible apply AxesOk.only (State.take_only ..)); decide)
    | with_reducible refine AxesOk.ite ?_ ?_
    | split
    | (dsimp -proj -beta only []; split))

theorem State.initAxes_axesOk (s : State) : AxesOk s (State.initAxes s) := by
  unfold State.initAxes
  repeat (first
    | with_reducible exact AxesOk.refl _
    | with_reducible assumption
    | ((with_reducible apply AxesOk.only (State.setZone_only ..)); decide)
    | with_reducible apply AxesOk.step (State.setAxis_axesOk ..)
    | with_reducible refine AxesOk.foldl ?_ ?_
    | (intro _ _ _; try beta_reduce)
    | fail_if_no_progress with_reducible refine AxesOk.axes_lines_zones (by first | exact id | exact twf_tset _ _ _ | exact wf_mwrite _ _ _ _ | exact wf_merase _ _ _ _ | exact fun w => wf_mwrite _ _ _ _ (wf_mwrite _ _ _ _ w) | exact fun _ => twf_nil _) ?_
    | fail_if_no_progress with_reducible refine AxesOk.axes (by first | exact id | exact twf_tset _ _ _ | exact wf_mwrite _ _ _ _ | exact wf_merase _ _ _ _ | exact fun w => wf_mwrite _ _ _ _ (wf_mwrite _ _ _ _ w) | exact fun _ => twf_nil _) ?_
    | fail_if_no_progress with_reducible refine AxesOk.lines ?_
    | fail_if_no_progress with_reducible refine AxesOk.zones ?_)

theorem State.discardHead_axesOk (s : State) : AxesOk s (State.discardHead s) := by
  unfold State.discardHead
  repeat (first
    | with_reducible exact AxesOk.refl _
    | with_reducible assumption
    | with_reducible apply AxesOk.step (State.initAxes_axesOk ..)
    | ((with_reducible apply AxesOk.only (State.credit_only ..)); decide)
    | with_reducible refine AxesOk.ite ?_ ?_
    | fail_if_no_progress with_reducible refine AxesOk.net_red_evt ?_
    | fail_if_no_progress with_reducible refine AxesOk.net ?_
    | fail_if_no_progress with_reducible refine AxesOk.red ?_
    | fail_if_no_progress with_reducible refine AxesOk.evt ?_)

theorem State.leaveHead_axesOk (s : State) : AxesOk s (State.leaveHead s) := by
  unfold State.leaveHead
  repeat (first
    | with_reducible exact AxesOk.refl _
    | with_reducible assumption
    | with_reducible apply AxesOk.step (State.discardHead_axesOk ..)
    | ((with_reducible apply AxesOk.only (State.stopKernels_only ..)); decide)
    | ((with_reducible apply AxesOk.only (State.capRoleEnd_only ..)); decide)
    | ((with_reducible apply AxesOk.only (State.roleChange_only ..)); decide)
    | ((with_reducible apply AxesOk.only (State.closeLedgers_only ..)); decide)
    | ((with_reducible apply AxesOk.only (State.openLedger_only ..)); decide)
    | ((with_reducible apply AxesOk.only (State.standbyRole_only ..)); decide)
    | fail_if_no_progress with_reducible refine AxesOk.net_fio ?_
    | fail_if_no_progress with_reducible refine AxesOk.net ?_
    | fail_if_no_progress with_reducible refine AxesOk.fio ?_)

theorem State.earlyYield_axesOk (s : State) : AxesOk s (State.earlyYield s) := by
  unfold State.earlyYield
  repeat (first
    | with_reducible exact AxesOk.refl _
    | with_reducible assumption
    | with_reducible apply AxesOk.step (State.discardHead_axesOk ..)
    | ((with_reducible apply AxesOk.only (State.stopKernels_only ..)); decide)
    | ((with_reducible apply AxesOk.only (State.capRoleEnd_only ..)); decide)
    | ((with_reducible apply AxesOk.only (State.closeLedgers_only ..)); decide)
    | ((with_reducible apply AxesOk.only (State.yieldStart_only ..)); decide)
    | ((with_reducible apply AxesOk.only (State.raiseDev_only ..)); decide)
    | fail_if_no_progress with_reducible refine AxesOk.frm ?_)

theorem execForeignCsm_axesOk (b : Fin 8) (bytes : List Byte) (x : Arrival) (s : State) : AnswersAxesOk s (execForeignCsm b bytes x s) := by
  unfold execForeignCsm
  repeat (first
    | with_reducible refine AnswersAxesOk.next ?_
    | with_reducible exact AxesOk.refl _
    | with_reducible assumption
    | ((with_reducible apply AxesOk.only (State.seeCsm_only ..)); decide)
    | with_reducible apply AxesOk.step (State.earlyYield_axesOk ..)
    | with_reducible apply AxesOk.step (State.leaveHead_axesOk ..)
    | ((with_reducible apply AxesOk.only (State.rxFrame_only ..)); decide)
    | ((with_reducible apply AxesOk.only (State.raiseDev_only ..)); decide)
    | ((with_reducible apply AxesOk.only (State.raiseOnce_only ..)); decide)
    | with_reducible refine AxesOk.ite ?_ ?_
    | fail_if_no_progress with_reducible refine AxesOk.net ?_
    | split
    | (dsimp -proj -beta only []; split))

theorem State.restartOne_axesOk (s : State) (im : Image) (i : Nat) : AxesOk s (State.restartOne s im i) := by
  unfold State.restartOne
  repeat (first
    | with_reducible exact AxesOk.refl _
    | with_reducible assumption
    | ((with_reducible apply AxesOk.only (State.raiseAx_only ..)); decide)
    | with_reducible apply AxesOk.step (State.setAxis_axesOk ..)
    | with_reducible refine AxesOk.ite ?_ ?_
    | fail_if_no_progress with_reducible refine AxesOk.red ?_
    | split
    | (dsimp -proj -beta only []; split))

theorem execRestartFrame_axesOk (s : State) : AnswersAxesOk s (execRestartFrame s) := by
  unfold execRestartFrame
  repeat (first
    | with_reducible refine AnswersAxesOk.next ?_
    | with_reducible exact AxesOk.refl _
    | with_reducible assumption
    | with_reducible apply AxesOk.step (State.restartOne_axesOk ..)
    | ((with_reducible apply AxesOk.only (State.setZone_only ..)); decide)
    | with_reducible refine AxesOk.ite ?_ ?_
    | with_reducible refine AxesOk.foldl ?_ ?_
    | (intro _ _ _; try beta_reduce)
    | fail_if_no_progress with_reducible refine AxesOk.lines_red_evt ?_
    | fail_if_no_progress with_reducible refine AxesOk.lines ?_
    | fail_if_no_progress with_reducible refine AxesOk.red ?_
    | fail_if_no_progress with_reducible refine AxesOk.evt ?_
    | split
    | (dsimp -proj -beta only []; split))

theorem execYieldSilence_axesOk (s : State) : AnswersAxesOk s (execYieldSilence s) := by
  unfold execYieldSilence
  repeat (first
    | with_reducible refine AnswersAxesOk.next ?_
    | with_reducible exact AxesOk.refl _
    | with_reducible assumption
    | with_reducible apply AxesOk.step (State.leaveHead_axesOk ..)
    | with_reducible refine AxesOk.ite ?_ ?_)

theorem State.clearRun_axesOk (s : State) : AxesOk s (State.clearRun s) := by
  unfold State.clearRun
  repeat (first
    | with_reducible exact AxesOk.refl _
    | with_reducible assumption
    | with_reducible apply AxesOk.step (State.discardHead_axesOk ..)
    | ((with_reducible apply AxesOk.only (State.setRole_only ..)); decide)
    | fail_if_no_progress with_reducible refine AxesOk.frm_net_evt_cfg ?_
    | fail_if_no_progress with_reducible refine AxesOk.axes_lines_cams_zones_params (by first | exact id | exact twf_tset _ _ _ | exact wf_mwrite _ _ _ _ | exact wf_merase _ _ _ _ | exact fun w => wf_mwrite _ _ _ _ (wf_mwrite _ _ _ _ w) | exact fun _ => twf_nil _) ?_
    | fail_if_no_progress with_reducible refine AxesOk.frm ?_
    | fail_if_no_progress with_reducible refine AxesOk.axes (by first | exact id | exact twf_tset _ _ _ | exact wf_mwrite _ _ _ _ | exact wf_merase _ _ _ _ | exact fun w => wf_mwrite _ _ _ _ (wf_mwrite _ _ _ _ w) | exact fun _ => twf_nil _) ?_
    | fail_if_no_progress with_reducible refine AxesOk.lines ?_
    | fail_if_no_progress with_reducible refine AxesOk.cams ?_
    | fail_if_no_progress with_reducible refine AxesOk.zones ?_
    | fail_if_no_progress with_reducible refine AxesOk.net ?_
    | fail_if_no_progress with_reducible refine AxesOk.evt ?_
    | fail_if_no_progress with_reducible refine AxesOk.params ?_
    | fail_if_no_progress with_reducible refine AxesOk.cfg ?_)

theorem State.endConfig_axesOk (s : State) : AxesOk s (State.endConfig s) := by
  unfold State.endConfig
  repeat (first
    | with_reducible exact AxesOk.refl _
    | with_reducible assumption
    | with_reducible apply AxesOk.step (State.clearRun_axesOk ..)
    | ((with_reducible apply AxesOk.only (State.stopKernels_only ..)); decide)
    | ((with_reducible apply AxesOk.only (State.capHalt_only ..)); decide)
    | ((with_reducible apply AxesOk.only (State.dropSseq_only ..)); decide)
    | ((with_reducible apply AxesOk.only (State.closeLedgers_only ..)); decide)
    | with_reducible refine AxesOk.ite ?_ ?_
    | fail_if_no_progress with_reducible refine AxesOk.fio ?_)

theorem State.switchTo_axesOk (s : State) (k : Nat) : AxesOk s (State.switchTo s k) := by
  unfold State.switchTo
  repeat (first
    | with_reducible exact AxesOk.refl _
    | with_reducible assumption
    | with_reducible apply AxesOk.step (State.endConfig_axesOk ..)
    | with_reducible refine AxesOk.ite ?_ ?_
    | fail_if_no_progress with_reducible refine AxesOk.cfg ?_)

theorem State.serveSlot_axesOk (s : State) (p : Nat → Bool) (f : State → Nat → Nat → State) (hf : ∀ y m j, AxesOk y (f y m j)) : AxesOk s (State.serveSlot s p f) := by
  unfold State.serveSlot
  repeat (first
    | with_reducible exact AxesOk.refl _
    | with_reducible assumption
    | with_reducible apply AxesOk.step (hf ..)
    | ((with_reducible apply AxesOk.only (State.take_only ..)); decide)
    | with_reducible refine AxesOk.ite ?_ ?_
    | split
    | (dsimp -proj -beta only []; split))

theorem execCfgActivate_axesOk (s : State) : AnswersAxesOk s (execCfgActivate s) := by
  unfold execCfgActivate
  repeat (first
    | with_reducible refine AnswersAxesOk.next ?_
    | with_reducible exact AxesOk.refl _
    | with_reducible assumption
    | with_reducible refine State.serveSlot_axesOk _ _ _ ?_
    | (intro _ _ _; try beta_reduce)
    | with_reducible apply AxesOk.step (State.switchTo_axesOk ..)
    | ((with_reducible apply AxesOk.only (State.activate_only ..)); decide)
    | ((with_reducible apply AxesOk.only (State.answer_only ..)); decide)
    | ((with_reducible apply AxesOk.only (State.raiseDev_only ..)); decide)
    | with_reducible refine AxesOk.ite ?_ ?_
    | fail_if_no_progress with_reducible refine AxesOk.cfg ?_)

theorem State.startConfig_axesOk (s : State) (k : Nat) : AxesOk s (State.startConfig s k) := by
  unfold State.startConfig
  repeat (first
    | with_reducible exact AxesOk.refl _
    | with_reducible assumption
    | ((with_reducible apply AxesOk.only (State.ioStart_only ..)); decide)
    | ((with_reducible apply AxesOk.only (State.hostStart_only ..)); decide)
    | ((with_reducible apply AxesOk.only (State.netStart_only ..)); decide)
    | ((with_reducible apply AxesOk.only (State.enablePorts_only ..)); decide)
    | ((with_reducible apply AxesOk.only (State.takeImage_only ..)); decide)
    | ((with_reducible apply AxesOk.only (State.writeTasks_only ..)); decide)
    | with_reducible apply AxesOk.step (State.initAxes_axesOk ..)
    | ((with_reducible apply AxesOk.only (State.ovlShow_only ..)); decide)
    | ((with_reducible apply AxesOk.only (State.openLedger_only ..)); decide)
    | ((with_reducible apply AxesOk.only (State.setRole_only ..)); decide)
    | with_reducible refine AxesOk.ite ?_ ?_
    | with_reducible refine AxesOk.foldl ?_ ?_
    | (intro _ _ _; try beta_reduce)
    | fail_if_no_progress with_reducible refine AxesOk.red_cfg ?_
    | fail_if_no_progress with_reducible refine AxesOk.frm ?_
    | fail_if_no_progress with_reducible refine AxesOk.red ?_
    | fail_if_no_progress with_reducible refine AxesOk.cfg ?_)

theorem execBaseConfigStart_axesOk (s : State) : AnswersAxesOk s (execBaseConfigStart s) := by
  unfold execBaseConfigStart
  repeat (first
    | with_reducible refine AnswersAxesOk.next ?_
    | with_reducible exact AxesOk.refl _
    | with_reducible assumption
    | ((with_reducible apply AxesOk.only (State.refuseConfig_only ..)); decide)
    | with_reducible apply AxesOk.step (State.startConfig_axesOk ..)
    | with_reducible refine AxesOk.ite ?_ ?_
    | split
    | (dsimp -proj -beta only []; split))

theorem State.axJudge_axesOk (s : State) (e : AxEnt) : AxesOk s (State.axJudge s e).2 := by
  unfold State.axJudge
  split
  · exact AxesOk.refl _
  · split
    · exact AxesOk.refl _
    · exact AxesOk.ite (State.setAxis_axesOk ..) (AxesOk.refl _)

theorem State.axRun_axesOk (s : State) (p : AxEnt → Bool) (st : Tbl Nat) : AxesOk s (State.axRun s p st).1 := by
  have fold : ∀ {α β : Type} {f : State × β → α → State × β} (l : List α) (x : State × β),
      (∀ y a, AxesOk s y.1 → AxesOk s (f y a).1) → AxesOk s x.1 → AxesOk s (l.foldl f x).1 := by
    intro α β f l
    induction l with
    | nil => exact fun x _ hx => hx
    | cons a l ih => exact fun x hf hx => ih _ hf (hf x a hx)
  unfold State.axRun
  refine fold _ _ (fun y a hy => fold _ _ (fun z b hz => ?_) hy) (AxesOk.refl _)
  dsimp only
  split
  · exact hz
  · exact AxesOk.step (State.axJudge_axesOk ..) hz

theorem State.autoFreeze_axesOk (s : State) (es : List (Nat × W64)) : AxesOk s (State.autoFreeze s es) := by
  unfold State.autoFreeze
  repeat (first
    | with_reducible exact AxesOk.refl _
    | with_reducible assumption
    | ((with_reducible apply AxesOk.only (State.setZone_only ..)); decide)
    | with_reducible apply AxesOk.step (State.setAxis_axesOk ..)
    | with_reducible refine AxesOk.foldl ?_ ?_
    | (intro _ _ _; try beta_reduce)
    | split
    | (dsimp -proj -beta only []; split))

theorem State.decideOvl_axesOk (s : State) (t : Taken) : AxesOk s (State.decideOvl s t) := by
  unfold State.decideOvl
  repeat (first
    | with_reducible exact AxesOk.refl _
    | with_reducible assumption
    | with_reducible apply AxesOk.step (State.autoFreeze_axesOk ..)
    | ((with_reducible apply AxesOk.only (State.setEntry_only ..)); decide)
    | ((with_reducible apply AxesOk.only (State.answer_only ..)); decide)
    | ((with_reducible apply AxesOk.only (State.raiseDev_only ..)); decide)
    | ((with_reducible apply AxesOk.only (State.pulse_only ..)); decide)
    | with_reducible refine AxesOk.ite ?_ ?_
    | with_reducible refine AxesOk.foldl ?_ ?_
    | (intro _ _ _; try beta_reduce)
    | split
    | (dsimp -proj -beta only []; split))

theorem State.decideCfg_axesOk (s : State) (t : Taken) : AxesOk s (State.decideCfg s t) := by
  unfold State.decideCfg
  repeat (first
    | with_reducible exact AxesOk.refl _
    | with_reducible assumption
    | with_reducible apply AxesOk.step (State.switchTo_axesOk ..)
    | ((with_reducible apply AxesOk.only (State.activate_only ..)); decide)
    | ((with_reducible apply AxesOk.only (State.answer_only ..)); decide)
    | with_reducible refine AxesOk.ite ?_ ?_)

theorem State.decideOne_axesOk (s : State) (t : Taken) : AxesOk s (State.decideOne s t) := by
  unfold State.decideOne
  repeat (first
    | with_reducible exact AxesOk.refl _
    | with_reducible assumption
    | with_reducible apply AxesOk.step (State.decideCfg_axesOk ..)
    | with_reducible apply AxesOk.step (State.decideOvl_axesOk ..)
    | ((with_reducible apply AxesOk.only (State.decideWrite_only ..)); decide)
    | ((with_reducible apply AxesOk.only (State.answer_only ..)); decide)
    | with_reducible refine AxesOk.ite ?_ ?_)

theorem State.decideTaken_axesOk (s : State) : AxesOk s (State.decideTaken s) := by
  unfold State.decideTaken
  repeat (first
    | with_reducible exact AxesOk.refl _
    | with_reducible assumption
    | with_reducible apply AxesOk.step (State.decideOne_axesOk ..)
    | with_reducible refine AxesOk.foldl ?_ ?_
    | (intro _ _ _; try beta_reduce))

theorem State.imageUsed_axesOk (s : State) : AxesOk s (State.imageUsed s) := by
  unfold State.imageUsed
  repeat (first
    | with_reducible exact AxesOk.refl _
    | with_reducible assumption
    | ((with_reducible apply AxesOk.only (State.setLine_only ..)); decide)
    | ((with_reducible apply AxesOk.only (State.setZone_only ..)); decide)
    | with_reducible apply AxesOk.step (State.setAxis_axesOk ..)
    | with_reducible refine AxesOk.foldl ?_ ?_
    | (intro _ _ _; try beta_reduce))

theorem State.applyFaults_axesOk (s : State) : AxesOk s (State.applyFaults s) := by
  unfold State.applyFaults
  repeat (first
    | with_reducible exact AxesOk.refl _
    | with_reducible assumption
    | with_reducible apply AxesOk.step (State.mapAxes_axesOk ..)
    | with_reducible refine AxesOk.ite ?_ ?_)

theorem State.stopGroup_axesOk (s : State) (g : Nat) : AxesOk s (State.stopGroup s g) := by
  unfold State.stopGroup
  repeat (first
    | with_reducible exact AxesOk.refl _
    | with_reducible assumption
    | with_reducible apply AxesOk.step (State.mapAxes_axesOk ..)
    | ((with_reducible apply AxesOk.only (State.setLine_only ..)); decide)
    | with_reducible refine AxesOk.ite ?_ ?_
    | with_reducible refine AxesOk.foldl ?_ ?_
    | (intro _ _ _; try beta_reduce)
    | fail_if_no_progress with_reducible refine AxesOk.evt ?_)

theorem State.stopGroups_axesOk (s : State) : AxesOk s (State.stopGroups s) := by
  unfold State.stopGroups
  repeat (first
    | with_reducible exact AxesOk.refl _
    | with_reducible assumption
    | with_reducible apply AxesOk.step (State.stopGroup_axesOk ..)
    | with_reducible refine AxesOk.foldl ?_ ?_
    | (intro _ _ _; try beta_reduce))

theorem State.shiftFrame_axesOk (s : State) : AxesOk s (State.shiftFrame s) := by
  unfold State.shiftFrame
  repeat (first
    | with_reducible exact AxesOk.refl _
    | with_reducible assumption
    | with_reducible apply AxesOk.step (State.mapAxes_axesOk ..)
    | ((with_reducible apply AxesOk.only (State.setLine_only ..)); decide)
    | ((with_reducible apply AxesOk.only (State.setZone_only ..)); decide)
    | with_reducible refine AxesOk.foldl ?_ ?_
    | (intro _ _ _; try beta_reduce))

theorem State.axisBoundary_axesOk (s : State) : AxesOk s (State.axisBoundary s) := by
  unfold State.axisBoundary
  repeat (first
    | with_reducible exact AxesOk.refl _
    | with_reducible assumption
    | with_reducible apply AxesOk.step (State.shiftFrame_axesOk ..)
    | ((with_reducible apply AxesOk.only (State.derateGroups_only ..)); decide)
    | with_reducible apply AxesOk.step (State.stopGroups_axesOk ..)
    | with_reducible apply AxesOk.step (State.applyFaults_axesOk ..)
    | ((with_reducible apply AxesOk.only (State.axAnswers_only ..)); decide)
    | with_reducible apply AxesOk.step (AxesOk.eq_fst (State.axRun_axesOk ..) (by assumption))
    | with_reducible apply AxesOk.step (State.axRun_axesOk ..)
    | with_reducible apply AxesOk.step (State.mapAxes_axesOk ..)
    | split
    | (dsimp -proj -beta only []; split))

theorem State.headBoundary_axesOk (s : State) : AxesOk s (State.headBoundary s) := by
  unfold State.headBoundary
  repeat (first
    | with_reducible exact AxesOk.refl _
    | with_reducible assumption
    | with_reducible apply AxesOk.step (State.axisBoundary_axesOk ..)
    | ((with_reducible apply AxesOk.only (State.startYield_only ..)); decide)
    | ((with_reducible apply AxesOk.only (State.endStops_only ..)); decide)
    | with_reducible apply AxesOk.step (State.decideTaken_axesOk ..)
    | ((with_reducible apply AxesOk.only (State.axAnswers_only ..)); decide)
    | with_reducible apply AxesOk.step (AxesOk.eq_fst (State.axRun_axesOk ..) (by assumption))
    | with_reducible apply AxesOk.step (State.axRun_axesOk ..)
    | with_reducible refine AxesOk.ite ?_ ?_
    | fail_if_no_progress with_reducible refine AxesOk.evt ?_
    | split
    | (dsimp -proj -beta only []; split))

theorem State.otherBoundary_axesOk (s : State) : AxesOk s (State.otherBoundary s) := by
  unfold State.otherBoundary
  repeat (first
    | with_reducible exact AxesOk.refl _
    | with_reducible assumption
    | with_reducible apply AxesOk.step (State.decideTaken_axesOk ..)
    | fail_if_no_progress with_reducible refine AxesOk.red_evt ?_
    | fail_if_no_progress with_reducible refine AxesOk.red ?_
    | fail_if_no_progress with_reducible refine AxesOk.evt ?_)

theorem State.ioBoundary_axesOk (s : State) : AxesOk s (State.ioBoundary s) := by
  unfold State.ioBoundary
  repeat (first
    | with_reducible exact AxesOk.refl _
    | with_reducible assumption
    | ((with_reducible apply AxesOk.only (State.takeOutput_only ..)); decide)
    | with_reducible apply AxesOk.step (State.imageUsed_axesOk ..)
    | ((with_reducible apply AxesOk.only (State.capBoundary_only ..)); decide)
    | ((with_reducible apply AxesOk.only (State.fioBoundary_only ..)); decide)
    | ((with_reducible apply AxesOk.only (State.imgCheck_only ..)); decide)
    | with_reducible refine AxesOk.ite ?_ ?_)

theorem execTickTakesEffect_axesOk (s : State) : AnswersAxesOk s (execTickTakesEffect s) := by
  unfold execTickTakesEffect
  repeat (first
    | with_reducible refine AnswersAxesOk.next ?_
    | with_reducible exact AxesOk.refl _
    | with_reducible assumption
    | ((with_reducible apply AxesOk.only (State.boundaryEnd_only ..)); decide)
    | with_reducible apply AxesOk.step (State.ioBoundary_axesOk ..)
    | ((with_reducible apply AxesOk.only (State.fullClock_only ..)); decide)
    | with_reducible apply AxesOk.step (State.otherBoundary_axesOk ..)
    | with_reducible apply AxesOk.step (State.headBoundary_axesOk ..)
    | ((with_reducible apply AxesOk.only (State.takeDecim_only ..)); decide)
    | with_reducible apply AxesOk.step (State.switchTo_axesOk ..)
    | ((with_reducible apply AxesOk.only (State.gotoLatency_only ..)); decide)
    | with_reducible refine AxesOk.ite ?_ ?_
    | fail_if_no_progress with_reducible refine AxesOk.frm ?_
    | split
    | (dsimp -proj -beta only []; split))

theorem execApplyInstant_axesOk (s : State) : AnswersAxesOk s (execApplyInstant s) := by
  unfold execApplyInstant
  repeat (first
    | with_reducible refine AnswersAxesOk.next ?_
    | with_reducible exact AxesOk.refl _
    | with_reducible assumption
    | ((with_reducible apply AxesOk.only (State.quitSteps_only ..)); decide)
    | ((with_reducible apply AxesOk.only (State.nodeApply_only ..)); decide)
    | ((with_reducible apply AxesOk.only (State.fioApply_only ..)); decide)
    | with_reducible apply AxesOk.step (State.stepApply_axesOk ..)
    | ((with_reducible apply AxesOk.only (State.goto_only ..)); decide)
    | with_reducible refine AxesOk.ite ?_ ?_
    | with_reducible refine AxesOk.foldl ?_ ?_
    | (intro _ _ _; try beta_reduce)
    | split
    | (dsimp -proj -beta only []; split))

end Sys2Proof.Machine
end

