-- ==== Sys2Proof/Laws/TblEncs.lean ====
section
/-! SUPPORT. Every operation keeps the table of encoder inputs canonical -/

set_option linter.unusedTactic false
set_option linter.unreachableTactic false

namespace Sys2Proof.Machine

/-- If the memory is canonical in s, it is in t. -/
structure EncsOk (s t : State) : Prop where
  out : twf ({} : Enc) s.encs = true → twf ({} : Enc) t.encs = true

/-- A meaning answers a next state so related to s. -/
structure AnswersEncsOk (s : State) (o : Out) : Prop where
  out : ∃ t, o = .next t ∧ EncsOk s t

theorem EncsOk.refl (s : State) : EncsOk s s := ⟨fun x => x⟩

theorem EncsOk.trans {s t u : State} (h : EncsOk s t) (g : EncsOk t u) : EncsOk s u := ⟨fun x => g.out (h.out x)⟩

theorem EncsOk.step {s t u : State} (g : EncsOk t u) (h : EncsOk s t) : EncsOk s u := h.trans g

theorem EncsOk.only {v : List Part} {s t u : State} (g : Only v t u) (hv : v.contains Part.encs = false) (h : EncsOk s t) : EncsOk s u :=
  ⟨fun x => by rw [(g.out .encs hv : u.encs = t.encs)]; exact h.out x⟩

theorem EncsOk.ite {s a b : State} {c : Prop} [Decidable c] (ha : EncsOk s a) (hb : EncsOk s b) : EncsOk s (if c then a else b) := by
  split <;> assumption

theorem EncsOk.foldl {α : Type} {s : State} {f : State → α → State} {l : List α} {x : State}
    (hf : ∀ y a, EncsOk s y → EncsOk s (f y a)) (hx : EncsOk s x) : EncsOk s (l.foldl f x) := by
  induction l generalizing x with
  | nil => exact hx
  | cons a l ih => exact ih (hf x a hx)

theorem EncsOk.eq_fst {α : Type} {t a : State} {p : State × α} {b : α} (h : EncsOk t p.1) (e : p = (a, b)) : EncsOk t a := by
  subst e; exact h

theorem EncsOk.eq_snd {α : Type} {t a : State} {p : α × State} {b : α} (h : EncsOk t p.2) (e : p = (b, a)) : EncsOk t a := by
  subst e; exact h

theorem AnswersEncsOk.next {s t : State} (h : EncsOk s t) : AnswersEncsOk s (.next t) := ⟨t, rfl, h⟩

theorem EncsOk.rfl {a : Tbl Enc} : twf ({} : Enc) a = true → twf ({} : Enc) a = true := id

theorem EncsOk.upd {s x y : State} (h : EncsOk s x) (g : twf ({} : Enc) x.encs = true → twf ({} : Enc) y.encs = true) :
    EncsOk s y := ⟨fun w => g (h.out w)⟩


theorem EncsOk.frm {s x : State} {v0 : Frm} (h : EncsOk s x) :
    EncsOk s { x with frm := v0 } := by
  exact EncsOk.upd h EncsOk.rfl

theorem EncsOk.axes {s x : State} {v0 : Tbl Axis} (h : EncsOk s x) :
    EncsOk s { x with axes := v0 } := by
  exact EncsOk.upd h EncsOk.rfl

theorem EncsOk.lines {s x : State} {v0 : Tbl Line} (h : EncsOk s x) :
    EncsOk s { x with lines := v0 } := by
  exact EncsOk.upd h EncsOk.rfl

theorem EncsOk.cams {s x : State} {v0 : Tbl CamTable} (h : EncsOk s x) :
    EncsOk s { x with cams := v0 } := by
  exact EncsOk.upd h EncsOk.rfl

theorem EncsOk.camStg {s x : State} {v0 : Tbl (List Host.Cell)} (h : EncsOk s x) :
    EncsOk s { x with camStg := v0 } := by
  exact EncsOk.upd h EncsOk.rfl

theorem EncsOk.zones {s x : State} {v0 : Tbl Zone} (h : EncsOk s x) :
    EncsOk s { x with zones := v0 } := by
  exact EncsOk.upd h EncsOk.rfl

theorem EncsOk.steps {s x : State} {v0 : Tbl StepCh} (h : EncsOk s x) :
    EncsOk s { x with steps := v0 } := by
  exact EncsOk.upd h EncsOk.rfl

theorem EncsOk.encs {s x : State} {v0 : Tbl Enc} (g : twf ({} : Enc) x.encs = true → twf ({} : Enc) v0 = true) (h : EncsOk s x) :
    EncsOk s { x with encs := v0 } := by
  exact EncsOk.upd h g

theorem EncsOk.net {s x : State} {v0 : Net} (h : EncsOk s x) :
    EncsOk s { x with net := v0 } := by
  exact EncsOk.upd h EncsOk.rfl

theorem EncsOk.dsp {s x : State} {v0 : Dsp} (h : EncsOk s x) :
    EncsOk s { x with dsp := v0 } := by
  exact EncsOk.upd h EncsOk.rfl

theorem EncsOk.red {s x : State} {v0 : Red} (h : EncsOk s x) :
    EncsOk s { x with red := v0 } := by
  exact EncsOk.upd h EncsOk.rfl

theorem EncsOk.saf {s x : State} {v0 : Saf} (h : EncsOk s x) :
    EncsOk s { x with saf := v0 } := by
  exact EncsOk.upd h EncsOk.rfl

theorem EncsOk.fio {s x : State} {v0 : Fio} (h : EncsOk s x) :
    EncsOk s { x with fio := v0 } := by
  exact EncsOk.upd h EncsOk.rfl

theorem EncsOk.cap {s x : State} {v0 : Cap} (h : EncsOk s x) :
    EncsOk s { x with cap := v0 } := by
  exact EncsOk.upd h EncsOk.rfl

theorem EncsOk.prf {s x : State} {v0 : Prf} (h : EncsOk s x) :
    EncsOk s { x with prf := v0 } := by
  exact EncsOk.upd h EncsOk.rfl

theorem EncsOk.host {s x : State} {v0 : Hst} (h : EncsOk s x) :
    EncsOk s { x with host := v0 } := by
  exact EncsOk.upd h EncsOk.rfl

theorem EncsOk.evt {s x : State} {v0 : Evt} (h : EncsOk s x) :
    EncsOk s { x with evt := v0 } := by
  exact EncsOk.upd h EncsOk.rfl

theorem EncsOk.params {s x : State} {v0 : Tbl W64} (h : EncsOk s x) :
    EncsOk s { x with params := v0 } := by
  exact EncsOk.upd h EncsOk.rfl

theorem EncsOk.cfg {s x : State} {v0 : Cfg} (h : EncsOk s x) :
    EncsOk s { x with cfg := v0 } := by
  exact EncsOk.upd h EncsOk.rfl

theorem EncsOk.pwr {s x : State} {v0 : Pwr} (h : EncsOk s x) :
    EncsOk s { x with pwr := v0 } := by
  exact EncsOk.upd h EncsOk.rfl

theorem EncsOk.lgr {s x : State} {v0 : Lgr} (h : EncsOk s x) :
    EncsOk s { x with lgr := v0 } := by
  exact EncsOk.upd h EncsOk.rfl

theorem EncsOk.pending {s x : State} {v0 : List Instr} (h : EncsOk s x) :
    EncsOk s { x with pending := v0 } := by
  exact EncsOk.upd h EncsOk.rfl

theorem EncsOk.axes_lines_cams_zones_params {s x : State} {v0 : Tbl Axis} {v1 : Tbl Line} {v2 : Tbl CamTable} {v3 : Tbl Zone} {v4 : Tbl W64} (h : EncsOk s x) :
    EncsOk s { x with axes := v0, lines := v1, cams := v2, zones := v3, params := v4 } := by
  exact EncsOk.upd h EncsOk.rfl

theorem EncsOk.axes_lines_zones {s x : State} {v0 : Tbl Axis} {v1 : Tbl Line} {v2 : Tbl Zone} (h : EncsOk s x) :
    EncsOk s { x with axes := v0, lines := v1, zones := v2 } := by
  exact EncsOk.upd h EncsOk.rfl

theorem EncsOk.cams_camStg_evt_params {s x : State} {v0 : Tbl CamTable} {v1 : Tbl (List Host.Cell)} {v2 : Evt} {v3 : Tbl W64} (h : EncsOk s x) :
    EncsOk s { x with cams := v0, camStg := v1, evt := v2, params := v3 } := by
  exact EncsOk.upd h EncsOk.rfl

theorem EncsOk.dsp_prf {s x : State} {v0 : Dsp} {v1 : Prf} (h : EncsOk s x) :
    EncsOk s { x with dsp := v0, prf := v1 } := by
  exact EncsOk.upd h EncsOk.rfl

theorem EncsOk.fio_cap {s x : State} {v0 : Fio} {v1 : Cap} (h : EncsOk s x) :
    EncsOk s { x with fio := v0, cap := v1 } := by
  exact EncsOk.upd h EncsOk.rfl

theorem EncsOk.frm_cams {s x : State} {v0 : Frm} {v1 : Tbl CamTable} (h : EncsOk s x) :
    EncsOk s { x with frm := v0, cams := v1 } := by
  exact EncsOk.upd h EncsOk.rfl

theorem EncsOk.frm_dsp {s x : State} {v0 : Frm} {v1 : Dsp} (h : EncsOk s x) :
    EncsOk s { x with frm := v0, dsp := v1 } := by
  exact EncsOk.upd h EncsOk.rfl

theorem EncsOk.frm_evt_pwr {s x : State} {v0 : Frm} {v1 : Evt} {v2 : Pwr} (h : EncsOk s x) :
    EncsOk s { x with frm := v0, evt := v1, pwr := v2 } := by
  exact EncsOk.upd h EncsOk.rfl

theorem EncsOk.frm_fio {s x : State} {v0 : Frm} {v1 : Fio} (h : EncsOk s x) :
    EncsOk s { x with frm := v0, fio := v1 } := by
  exact EncsOk.upd h EncsOk.rfl

theorem EncsOk.frm_host_cfg_pwr {s x : State} {v0 : Frm} {v1 : Hst} {v2 : Cfg} {v3 : Pwr} (h : EncsOk s x) :
    EncsOk s { x with frm := v0, host := v1, cfg := v2, pwr := v3 } := by
  exact EncsOk.upd h EncsOk.rfl

theorem EncsOk.frm_net {s x : State} {v0 : Frm} {v1 : Net} (h : EncsOk s x) :
    EncsOk s { x with frm := v0, net := v1 } := by
  exact EncsOk.upd h EncsOk.rfl

theorem EncsOk.frm_net_evt_cfg {s x : State} {v0 : Frm} {v1 : Net} {v2 : Evt} {v3 : Cfg} (h : EncsOk s x) :
    EncsOk s { x with frm := v0, net := v1, evt := v2, cfg := v3 } := by
  exact EncsOk.upd h EncsOk.rfl

theorem EncsOk.frm_net_red {s x : State} {v0 : Frm} {v1 : Net} {v2 : Red} (h : EncsOk s x) :
    EncsOk s { x with frm := v0, net := v1, red := v2 } := by
  exact EncsOk.upd h EncsOk.rfl

theorem EncsOk.host_pwr {s x : State} {v0 : Hst} {v1 : Pwr} (h : EncsOk s x) :
    EncsOk s { x with host := v0, pwr := v1 } := by
  exact EncsOk.upd h EncsOk.rfl

theorem EncsOk.lines_red_evt {s x : State} {v0 : Tbl Line} {v1 : Red} {v2 : Evt} (h : EncsOk s x) :
    EncsOk s { x with lines := v0, red := v1, evt := v2 } := by
  exact EncsOk.upd h EncsOk.rfl

theorem EncsOk.net_fio {s x : State} {v0 : Net} {v1 : Fio} (h : EncsOk s x) :
    EncsOk s { x with net := v0, fio := v1 } := by
  exact EncsOk.upd h EncsOk.rfl

theorem EncsOk.net_red {s x : State} {v0 : Net} {v1 : Red} (h : EncsOk s x) :
    EncsOk s { x with net := v0, red := v1 } := by
  exact EncsOk.upd h EncsOk.rfl

theorem EncsOk.net_red_evt {s x : State} {v0 : Net} {v1 : Red} {v2 : Evt} (h : EncsOk s x) :
    EncsOk s { x with net := v0, red := v1, evt := v2 } := by
  exact EncsOk.upd h EncsOk.rfl

theorem EncsOk.prf_pwr {s x : State} {v0 : Prf} {v1 : Pwr} (h : EncsOk s x) :
    EncsOk s { x with prf := v0, pwr := v1 } := by
  exact EncsOk.upd h EncsOk.rfl

theorem EncsOk.pwr_lgr {s x : State} {v0 : Pwr} {v1 : Lgr} (h : EncsOk s x) :
    EncsOk s { x with pwr := v0, lgr := v1 } := by
  exact EncsOk.upd h EncsOk.rfl

theorem EncsOk.red_cfg {s x : State} {v0 : Red} {v1 : Cfg} (h : EncsOk s x) :
    EncsOk s { x with red := v0, cfg := v1 } := by
  exact EncsOk.upd h EncsOk.rfl

theorem EncsOk.red_evt {s x : State} {v0 : Red} {v1 : Evt} (h : EncsOk s x) :
    EncsOk s { x with red := v0, evt := v1 } := by
  exact EncsOk.upd h EncsOk.rfl

theorem EncsOk.saf_cfg {s x : State} {v0 : Saf} {v1 : Cfg} (h : EncsOk s x) :
    EncsOk s { x with saf := v0, cfg := v1 } := by
  exact EncsOk.upd h EncsOk.rfl

theorem EncsOk.saf_host_cfg {s x : State} {v0 : Saf} {v1 : Hst} {v2 : Cfg} (h : EncsOk s x) :
    EncsOk s { x with saf := v0, host := v1, cfg := v2 } := by
  exact EncsOk.upd h EncsOk.rfl

theorem EncsOk.saf_pwr {s x : State} {v0 : Saf} {v1 : Pwr} (h : EncsOk s x) :
    EncsOk s { x with saf := v0, pwr := v1 } := by
  exact EncsOk.upd h EncsOk.rfl

theorem EncsOk.saf_pwr_lgr {s x : State} {v0 : Saf} {v1 : Pwr} {v2 : Lgr} (h : EncsOk s x) :
    EncsOk s { x with saf := v0, pwr := v1, lgr := v2 } := by
  exact EncsOk.upd h EncsOk.rfl

theorem State.setEnc_encsOk (s : State) (e : Nat) (a : Enc) : EncsOk s (State.setEnc s e a) := by
  unfold State.setEnc
  repeat (first
    | with_reducible exact EncsOk.refl _
    | with_reducible assumption
    | fail_if_no_progress with_reducible refine EncsOk.encs (by first | exact id | exact twf_tset _ _ _ | exact wf_mwrite _ _ _ _ | exact wf_merase _ _ _ _ | exact fun w => wf_mwrite _ _ _ _ (wf_mwrite _ _ _ _ w) | exact fun _ => twf_nil _) ?_)

theorem State.encSample_encsOk (s : State) (e : Nat) : EncsOk s (State.encSample s e) := by
  unfold State.encSample
  repeat (first
    | with_reducible exact EncsOk.refl _
    | with_reducible assumption
    | with_reducible apply EncsOk.step (State.setEnc_encsOk ..)
    | with_reducible refine EncsOk.ite ?_ ?_)

theorem State.encError_encsOk (s : State) (e : Nat) : EncsOk s (State.encError s e) := by
  unfold State.encError
  repeat (first
    | with_reducible exact EncsOk.refl _
    | with_reducible assumption
    | ((with_reducible apply EncsOk.only (State.raiseOnce_only ..)); decide)
    | ((with_reducible apply EncsOk.only (State.pulseX_only ..)); decide)
    | with_reducible apply EncsOk.step (State.setEnc_encsOk ..))

theorem execEncEdge_encsOk (e : Fin 8) (a b : Bool) (l : HeldLevel) (s : State) : AnswersEncsOk s (execEncEdge e a b l s) := by
  unfold execEncEdge
  repeat (first
    | with_reducible refine AnswersEncsOk.next ?_
    | with_reducible exact EncsOk.refl _
    | with_reducible assumption
    | with_reducible apply EncsOk.step (State.encError_encsOk ..)
    | ((with_reducible apply EncsOk.only (State.goto_only ..)); decide)
    | with_reducible apply EncsOk.step (State.setEnc_encsOk ..)
    | with_reducible refine EncsOk.ite ?_ ?_)

theorem execEnczEdge_encsOk (e : Fin 8) (z : Bool) (l : HeldLevel) (s : State) : AnswersEncsOk s (execEnczEdge e z l s) := by
  unfold execEnczEdge
  repeat (first
    | with_reducible refine AnswersEncsOk.next ?_
    | with_reducible exact EncsOk.refl _
    | with_reducible assumption
    | ((with_reducible apply EncsOk.only (State.goto_only ..)); decide)
    | with_reducible apply EncsOk.step (State.setEnc_encsOk ..)
    | with_reducible refine EncsOk.ite ?_ ?_)

theorem execSsiDelivery_encsOk (e : Fin 8) (bits : Nat) (low : Bool) (s : State) : AnswersEncsOk s (execSsiDelivery e bits low s) := by
  unfold execSsiDelivery
  repeat (first
    | with_reducible refine AnswersEncsOk.next ?_
    | with_reducible exact EncsOk.refl _
    | with_reducible assumption
    | ((with_reducible apply EncsOk.only (State.ssiFree_only ..)); decide)
    | with_reducible apply EncsOk.step (State.encError_encsOk ..)
    | ((with_reducible apply EncsOk.only (State.goto_only ..)); decide)
    | with_reducible apply EncsOk.step (State.setEnc_encsOk ..)
    | with_reducible refine EncsOk.ite ?_ ?_)

theorem State.serve_encsOk (s : State) (op : Nat) (f : State → Nat → Nat → State) (hf : ∀ y m j, EncsOk y (f y m j)) : EncsOk s (State.serve s op f) := by
  unfold State.serve
  repeat (first
    | with_reducible exact EncsOk.refl _
    | with_reducible assumption
    | with_reducible apply EncsOk.step (hf ..)
    | ((with_reducible apply EncsOk.only (State.take_only ..)); decide)
    | with_reducible refine EncsOk.ite ?_ ?_
    | split
    | (dsimp -proj -beta only []; split))

theorem State.serveSlot_encsOk (s : State) (p : Nat → Bool) (f : State → Nat → Nat → State) (hf : ∀ y m j, EncsOk y (f y m j)) : EncsOk s (State.serveSlot s p f) := by
  unfold State.serveSlot
  repeat (first
    | with_reducible exact EncsOk.refl _
    | with_reducible assumption
    | with_reducible apply EncsOk.step (hf ..)
    | ((with_reducible apply EncsOk.only (State.take_only ..)); decide)
    | with_reducible refine EncsOk.ite ?_ ?_
    | split
    | (dsimp -proj -beta only []; split))

theorem State.ioStart_encsOk (s : State) : EncsOk s (State.ioStart s) := by
  unfold State.ioStart
  repeat (first
    | with_reducible exact EncsOk.refl _
    | with_reducible assumption
    | ((with_reducible apply EncsOk.only (State.setDie_only ..)); decide)
    | ((with_reducible apply EncsOk.only (State.setFch_only ..)); decide)
    | with_reducible apply EncsOk.step (State.setEnc_encsOk ..)
    | ((with_reducible apply EncsOk.only (State.setStep_only ..)); decide)
    | with_reducible refine EncsOk.foldl ?_ ?_
    | (intro _ _ _; try beta_reduce)
    | fail_if_no_progress with_reducible refine EncsOk.fio_cap ?_
    | fail_if_no_progress with_reducible refine EncsOk.fio ?_
    | fail_if_no_progress with_reducible refine EncsOk.cap ?_)

theorem State.startConfig_encsOk (s : State) (k : Nat) : EncsOk s (State.startConfig s k) := by
  unfold State.startConfig
  repeat (first
    | with_reducible exact EncsOk.refl _
    | with_reducible assumption
    | with_reducible apply EncsOk.step (State.ioStart_encsOk ..)
    | ((with_reducible apply EncsOk.only (State.hostStart_only ..)); decide)
    | ((with_reducible apply EncsOk.only (State.netStart_only ..)); decide)
    | ((with_reducible apply EncsOk.only (State.enablePorts_only ..)); decide)
    | ((with_reducible apply EncsOk.only (State.takeImage_only ..)); decide)
    | ((with_reducible apply EncsOk.only (State.writeTasks_only ..)); decide)
    | ((with_reducible apply EncsOk.only (State.initAxes_only ..)); decide)
    | ((with_reducible apply EncsOk.only (State.ovlShow_only ..)); decide)
    | ((with_reducible apply EncsOk.only (State.openLedger_only ..)); decide)
    | ((with_reducible apply EncsOk.only (State.setRole_only ..)); decide)
    | with_reducible refine EncsOk.ite ?_ ?_
    | with_reducible refine EncsOk.foldl ?_ ?_
    | (intro _ _ _; try beta_reduce)
    | fail_if_no_progress with_reducible refine EncsOk.red_cfg ?_
    | fail_if_no_progress with_reducible refine EncsOk.frm ?_
    | fail_if_no_progress with_reducible refine EncsOk.red ?_
    | fail_if_no_progress with_reducible refine EncsOk.cfg ?_)

theorem execBaseConfigStart_encsOk (s : State) : AnswersEncsOk s (execBaseConfigStart s) := by
  unfold execBaseConfigStart
  repeat (first
    | with_reducible refine AnswersEncsOk.next ?_
    | with_reducible exact EncsOk.refl _
    | with_reducible assumption
    | ((with_reducible apply EncsOk.only (State.refuseConfig_only ..)); decide)
    | with_reducible apply EncsOk.step (State.startConfig_encsOk ..)
    | with_reducible refine EncsOk.ite ?_ ?_
    | split
    | (dsimp -proj -beta only []; split))

theorem execSampleInstant_encsOk (s : State) : AnswersEncsOk s (execSampleInstant s) := by
  unfold execSampleInstant
  repeat (first
    | with_reducible refine AnswersEncsOk.next ?_
    | with_reducible exact EncsOk.refl _
    | with_reducible assumption
    | ((with_reducible apply EncsOk.only (State.fioLatch_only ..)); decide)
    | with_reducible apply EncsOk.step (State.encSample_encsOk ..)
    | ((with_reducible apply EncsOk.only (State.goto_only ..)); decide)
    | ((with_reducible apply EncsOk.only (State.setStep_only ..)); decide)
    | with_reducible refine EncsOk.ite ?_ ?_
    | with_reducible refine EncsOk.foldl ?_ ?_
    | (intro _ _ _; try beta_reduce))

end Sys2Proof.Machine
end

