-- ==== Sys2Proof/Laws/TblSteps.lean ====
section
/-! SUPPORT. Every operation keeps the table of step channels canonical -/

set_option linter.unusedTactic false
set_option linter.unreachableTactic false

namespace Sys2Proof.Machine

/-- If the memory is canonical in s, it is in t. -/
structure StepsOk (s t : State) : Prop where
  out : twf ({} : StepCh) s.steps = true → twf ({} : StepCh) t.steps = true

/-- A meaning answers a next state so related to s. -/
structure AnswersStepsOk (s : State) (o : Out) : Prop where
  out : ∃ t, o = .next t ∧ StepsOk s t

theorem StepsOk.refl (s : State) : StepsOk s s := ⟨fun x => x⟩

theorem StepsOk.trans {s t u : State} (h : StepsOk s t) (g : StepsOk t u) : StepsOk s u := ⟨fun x => g.out (h.out x)⟩

theorem StepsOk.step {s t u : State} (g : StepsOk t u) (h : StepsOk s t) : StepsOk s u := h.trans g

theorem StepsOk.only {v : List Part} {s t u : State} (g : Only v t u) (hv : v.contains Part.steps = false) (h : StepsOk s t) : StepsOk s u :=
  ⟨fun x => by rw [(g.out .steps hv : u.steps = t.steps)]; exact h.out x⟩

theorem StepsOk.ite {s a b : State} {c : Prop} [Decidable c] (ha : StepsOk s a) (hb : StepsOk s b) : StepsOk s (if c then a else b) := by
  split <;> assumption

theorem StepsOk.foldl {α : Type} {s : State} {f : State → α → State} {l : List α} {x : State}
    (hf : ∀ y a, StepsOk s y → StepsOk s (f y a)) (hx : StepsOk s x) : StepsOk s (l.foldl f x) := by
  induction l generalizing x with
  | nil => exact hx
  | cons a l ih => exact ih (hf x a hx)

theorem StepsOk.eq_fst {α : Type} {t a : State} {p : State × α} {b : α} (h : StepsOk t p.1) (e : p = (a, b)) : StepsOk t a := by
  subst e; exact h

theorem StepsOk.eq_snd {α : Type} {t a : State} {p : α × State} {b : α} (h : StepsOk t p.2) (e : p = (b, a)) : StepsOk t a := by
  subst e; exact h

theorem AnswersStepsOk.next {s t : State} (h : StepsOk s t) : AnswersStepsOk s (.next t) := ⟨t, rfl, h⟩

theorem StepsOk.rfl {a : Tbl StepCh} : twf ({} : StepCh) a = true → twf ({} : StepCh) a = true := id

theorem StepsOk.upd {s x y : State} (h : StepsOk s x) (g : twf ({} : StepCh) x.steps = true → twf ({} : StepCh) y.steps = true) :
    StepsOk s y := ⟨fun w => g (h.out w)⟩


theorem StepsOk.frm {s x : State} {v0 : Frm} (h : StepsOk s x) :
    StepsOk s { x with frm := v0 } := by
  exact StepsOk.upd h StepsOk.rfl

theorem StepsOk.axes {s x : State} {v0 : Tbl Axis} (h : StepsOk s x) :
    StepsOk s { x with axes := v0 } := by
  exact StepsOk.upd h StepsOk.rfl

theorem StepsOk.lines {s x : State} {v0 : Tbl Line} (h : StepsOk s x) :
    StepsOk s { x with lines := v0 } := by
  exact StepsOk.upd h StepsOk.rfl

theorem StepsOk.cams {s x : State} {v0 : Tbl CamTable} (h : StepsOk s x) :
    StepsOk s { x with cams := v0 } := by
  exact StepsOk.upd h StepsOk.rfl

theorem StepsOk.camStg {s x : State} {v0 : Tbl (List Host.Cell)} (h : StepsOk s x) :
    StepsOk s { x with camStg := v0 } := by
  exact StepsOk.upd h StepsOk.rfl

theorem StepsOk.zones {s x : State} {v0 : Tbl Zone} (h : StepsOk s x) :
    StepsOk s { x with zones := v0 } := by
  exact StepsOk.upd h StepsOk.rfl

theorem StepsOk.steps {s x : State} {v0 : Tbl StepCh} (g : twf ({} : StepCh) x.steps = true → twf ({} : StepCh) v0 = true) (h : StepsOk s x) :
    StepsOk s { x with steps := v0 } := by
  exact StepsOk.upd h g

theorem StepsOk.encs {s x : State} {v0 : Tbl Enc} (h : StepsOk s x) :
    StepsOk s { x with encs := v0 } := by
  exact StepsOk.upd h StepsOk.rfl

theorem StepsOk.net {s x : State} {v0 : Net} (h : StepsOk s x) :
    StepsOk s { x with net := v0 } := by
  exact StepsOk.upd h StepsOk.rfl

theorem StepsOk.dsp {s x : State} {v0 : Dsp} (h : StepsOk s x) :
    StepsOk s { x with dsp := v0 } := by
  exact StepsOk.upd h StepsOk.rfl

theorem StepsOk.red {s x : State} {v0 : Red} (h : StepsOk s x) :
    StepsOk s { x with red := v0 } := by
  exact StepsOk.upd h StepsOk.rfl

theorem StepsOk.saf {s x : State} {v0 : Saf} (h : StepsOk s x) :
    StepsOk s { x with saf := v0 } := by
  exact StepsOk.upd h StepsOk.rfl

theorem StepsOk.fio {s x : State} {v0 : Fio} (h : StepsOk s x) :
    StepsOk s { x with fio := v0 } := by
  exact StepsOk.upd h StepsOk.rfl

theorem StepsOk.cap {s x : State} {v0 : Cap} (h : StepsOk s x) :
    StepsOk s { x with cap := v0 } := by
  exact StepsOk.upd h StepsOk.rfl

theorem StepsOk.prf {s x : State} {v0 : Prf} (h : StepsOk s x) :
    StepsOk s { x with prf := v0 } := by
  exact StepsOk.upd h StepsOk.rfl

theorem StepsOk.host {s x : State} {v0 : Hst} (h : StepsOk s x) :
    StepsOk s { x with host := v0 } := by
  exact StepsOk.upd h StepsOk.rfl

theorem StepsOk.evt {s x : State} {v0 : Evt} (h : StepsOk s x) :
    StepsOk s { x with evt := v0 } := by
  exact StepsOk.upd h StepsOk.rfl

theorem StepsOk.params {s x : State} {v0 : Tbl W64} (h : StepsOk s x) :
    StepsOk s { x with params := v0 } := by
  exact StepsOk.upd h StepsOk.rfl

theorem StepsOk.cfg {s x : State} {v0 : Cfg} (h : StepsOk s x) :
    StepsOk s { x with cfg := v0 } := by
  exact StepsOk.upd h StepsOk.rfl

theorem StepsOk.pwr {s x : State} {v0 : Pwr} (h : StepsOk s x) :
    StepsOk s { x with pwr := v0 } := by
  exact StepsOk.upd h StepsOk.rfl

theorem StepsOk.lgr {s x : State} {v0 : Lgr} (h : StepsOk s x) :
    StepsOk s { x with lgr := v0 } := by
  exact StepsOk.upd h StepsOk.rfl

theorem StepsOk.pending {s x : State} {v0 : List Instr} (h : StepsOk s x) :
    StepsOk s { x with pending := v0 } := by
  exact StepsOk.upd h StepsOk.rfl

theorem StepsOk.axes_lines_cams_zones_params {s x : State} {v0 : Tbl Axis} {v1 : Tbl Line} {v2 : Tbl CamTable} {v3 : Tbl Zone} {v4 : Tbl W64} (h : StepsOk s x) :
    StepsOk s { x with axes := v0, lines := v1, cams := v2, zones := v3, params := v4 } := by
  exact StepsOk.upd h StepsOk.rfl

theorem StepsOk.axes_lines_zones {s x : State} {v0 : Tbl Axis} {v1 : Tbl Line} {v2 : Tbl Zone} (h : StepsOk s x) :
    StepsOk s { x with axes := v0, lines := v1, zones := v2 } := by
  exact StepsOk.upd h StepsOk.rfl

theorem StepsOk.cams_camStg_evt_params {s x : State} {v0 : Tbl CamTable} {v1 : Tbl (List Host.Cell)} {v2 : Evt} {v3 : Tbl W64} (h : StepsOk s x) :
    StepsOk s { x with cams := v0, camStg := v1, evt := v2, params := v3 } := by
  exact StepsOk.upd h StepsOk.rfl

theorem StepsOk.dsp_prf {s x : State} {v0 : Dsp} {v1 : Prf} (h : StepsOk s x) :
    StepsOk s { x with dsp := v0, prf := v1 } := by
  exact StepsOk.upd h StepsOk.rfl

theorem StepsOk.fio_cap {s x : State} {v0 : Fio} {v1 : Cap} (h : StepsOk s x) :
    StepsOk s { x with fio := v0, cap := v1 } := by
  exact StepsOk.upd h StepsOk.rfl

theorem StepsOk.frm_cams {s x : State} {v0 : Frm} {v1 : Tbl CamTable} (h : StepsOk s x) :
    StepsOk s { x with frm := v0, cams := v1 } := by
  exact StepsOk.upd h StepsOk.rfl

theorem StepsOk.frm_dsp {s x : State} {v0 : Frm} {v1 : Dsp} (h : StepsOk s x) :
    StepsOk s { x with frm := v0, dsp := v1 } := by
  exact StepsOk.upd h StepsOk.rfl

theorem StepsOk.frm_evt_pwr {s x : State} {v0 : Frm} {v1 : Evt} {v2 : Pwr} (h : StepsOk s x) :
    StepsOk s { x with frm := v0, evt := v1, pwr := v2 } := by
  exact StepsOk.upd h StepsOk.rfl

theorem StepsOk.frm_fio {s x : State} {v0 : Frm} {v1 : Fio} (h : StepsOk s x) :
    StepsOk s { x with frm := v0, fio := v1 } := by
  exact StepsOk.upd h StepsOk.rfl

theorem StepsOk.frm_host_cfg_pwr {s x : State} {v0 : Frm} {v1 : Hst} {v2 : Cfg} {v3 : Pwr} (h : StepsOk s x) :
    StepsOk s { x with frm := v0, host := v1, cfg := v2, pwr := v3 } := by
  exact StepsOk.upd h StepsOk.rfl

theorem StepsOk.frm_net {s x : State} {v0 : Frm} {v1 : Net} (h : StepsOk s x) :
    StepsOk s { x with frm := v0, net := v1 } := by
  exact StepsOk.upd h StepsOk.rfl

theorem StepsOk.frm_net_evt_cfg {s x : State} {v0 : Frm} {v1 : Net} {v2 : Evt} {v3 : Cfg} (h : StepsOk s x) :
    StepsOk s { x with frm := v0, net := v1, evt := v2, cfg := v3 } := by
  exact StepsOk.upd h StepsOk.rfl

theorem StepsOk.frm_net_red {s x : State} {v0 : Frm} {v1 : Net} {v2 : Red} (h : StepsOk s x) :
    StepsOk s { x with frm := v0, net := v1, red := v2 } := by
  exact StepsOk.upd h StepsOk.rfl

theorem StepsOk.host_pwr {s x : State} {v0 : Hst} {v1 : Pwr} (h : StepsOk s x) :
    StepsOk s { x with host := v0, pwr := v1 } := by
  exact StepsOk.upd h StepsOk.rfl

theorem StepsOk.lines_red_evt {s x : State} {v0 : Tbl Line} {v1 : Red} {v2 : Evt} (h : StepsOk s x) :
    StepsOk s { x with lines := v0, red := v1, evt := v2 } := by
  exact StepsOk.upd h StepsOk.rfl

theorem StepsOk.net_fio {s x : State} {v0 : Net} {v1 : Fio} (h : StepsOk s x) :
    StepsOk s { x with net := v0, fio := v1 } := by
  exact StepsOk.upd h StepsOk.rfl

theorem StepsOk.net_red {s x : State} {v0 : Net} {v1 : Red} (h : StepsOk s x) :
    StepsOk s { x with net := v0, red := v1 } := by
  exact StepsOk.upd h StepsOk.rfl

theorem StepsOk.net_red_evt {s x : State} {v0 : Net} {v1 : Red} {v2 : Evt} (h : StepsOk s x) :
    StepsOk s { x with net := v0, red := v1, evt := v2 } := by
  exact StepsOk.upd h StepsOk.rfl

theorem StepsOk.prf_pwr {s x : State} {v0 : Prf} {v1 : Pwr} (h : StepsOk s x) :
    StepsOk s { x with prf := v0, pwr := v1 } := by
  exact StepsOk.upd h StepsOk.rfl

theorem StepsOk.pwr_lgr {s x : State} {v0 : Pwr} {v1 : Lgr} (h : StepsOk s x) :
    StepsOk s { x with pwr := v0, lgr := v1 } := by
  exact StepsOk.upd h StepsOk.rfl

theorem StepsOk.red_cfg {s x : State} {v0 : Red} {v1 : Cfg} (h : StepsOk s x) :
    StepsOk s { x with red := v0, cfg := v1 } := by
  exact StepsOk.upd h StepsOk.rfl

theorem StepsOk.red_evt {s x : State} {v0 : Red} {v1 : Evt} (h : StepsOk s x) :
    StepsOk s { x with red := v0, evt := v1 } := by
  exact StepsOk.upd h StepsOk.rfl

theorem StepsOk.saf_cfg {s x : State} {v0 : Saf} {v1 : Cfg} (h : StepsOk s x) :
    StepsOk s { x with saf := v0, cfg := v1 } := by
  exact StepsOk.upd h StepsOk.rfl

theorem StepsOk.saf_host_cfg {s x : State} {v0 : Saf} {v1 : Hst} {v2 : Cfg} (h : StepsOk s x) :
    StepsOk s { x with saf := v0, host := v1, cfg := v2 } := by
  exact StepsOk.upd h StepsOk.rfl

theorem StepsOk.saf_pwr {s x : State} {v0 : Saf} {v1 : Pwr} (h : StepsOk s x) :
    StepsOk s { x with saf := v0, pwr := v1 } := by
  exact StepsOk.upd h StepsOk.rfl

theorem StepsOk.saf_pwr_lgr {s x : State} {v0 : Saf} {v1 : Pwr} {v2 : Lgr} (h : StepsOk s x) :
    StepsOk s { x with saf := v0, pwr := v1, lgr := v2 } := by
  exact StepsOk.upd h StepsOk.rfl

theorem State.setStep_stepsOk (s : State) (c : Nat) (a : StepCh) : StepsOk s (State.setStep s c a) := by
  unfold State.setStep
  repeat (first
    | with_reducible exact StepsOk.refl _
    | with_reducible assumption
    | fail_if_no_progress with_reducible refine StepsOk.steps (by first | exact id | exact twf_tset _ _ _ | exact wf_mwrite _ _ _ _ | exact wf_merase _ _ _ _ | exact fun w => wf_mwrite _ _ _ _ (wf_mwrite _ _ _ _ w) | exact fun _ => twf_nil _) ?_)

theorem State.stallStep_stepsOk (s : State) (i : Nat) : StepsOk s (State.stallStep s i) := by
  unfold State.stallStep
  repeat (first
    | with_reducible exact StepsOk.refl _
    | with_reducible assumption
    | with_reducible apply StepsOk.step (State.setStep_stepsOk ..)
    | ((with_reducible apply StepsOk.only (State.setAxis_only ..)); decide)
    | split
    | (dsimp -proj -beta only []; split))

theorem execStall_stepsOk (i : Fin 256) (s : State) : AnswersStepsOk s (execStall i s) := by
  unfold execStall
  repeat (first
    | with_reducible refine AnswersStepsOk.next ?_
    | with_reducible exact StepsOk.refl _
    | with_reducible assumption
    | with_reducible apply StepsOk.step (State.stallStep_stepsOk ..)
    | ((with_reducible apply StepsOk.only (State.setAxis_only ..)); decide)
    | with_reducible refine StepsOk.ite ?_ ?_)

theorem execHomeFlagExpiry_stepsOk (i : Fin 256) (s : State) : AnswersStepsOk s (execHomeFlagExpiry i s) := by
  unfold execHomeFlagExpiry
  repeat (first
    | with_reducible refine AnswersStepsOk.next ?_
    | with_reducible exact StepsOk.refl _
    | with_reducible assumption
    | with_reducible apply StepsOk.step (State.stallStep_stepsOk ..)
    | ((with_reducible apply StepsOk.only (State.goto_only ..)); decide)
    | with_reducible refine StepsOk.ite ?_ ?_
    | split
    | (dsimp -proj -beta only []; split))

theorem State.stepKernel_stepsOk (s : State) (i f : Nat) : StepsOk s (State.stepKernel s i f) := by
  unfold State.stepKernel
  repeat (first
    | with_reducible exact StepsOk.refl _
    | with_reducible assumption
    | with_reducible apply StepsOk.step (State.setStep_stepsOk ..)
    | ((with_reducible apply StepsOk.only (State.setAxis_only ..)); decide)
    | split
    | (dsimp -proj -beta only []; split))

theorem execCriticalKernelComplete_stepsOk (i : Fin 256) (t opnd comp : Nat) (s : State) : AnswersStepsOk s (execCriticalKernelComplete i t opnd comp s) := by
  unfold execCriticalKernelComplete
  repeat (first
    | with_reducible refine AnswersStepsOk.next ?_
    | with_reducible exact StepsOk.refl _
    | with_reducible assumption
    | ((with_reducible apply StepsOk.only (State.servoKernel_only ..)); decide)
    | with_reducible apply StepsOk.step (State.stepKernel_stepsOk ..)
    | ((with_reducible apply StepsOk.only (State.gateCheck_only ..)); decide)
    | ((with_reducible apply StepsOk.only (State.completeKernel_only ..)); decide)
    | ((with_reducible apply StepsOk.only (State.tagComplete_only ..)); decide)
    | ((with_reducible apply StepsOk.only (State.goto_only ..)); decide)
    | ((with_reducible apply StepsOk.only (State.setBranch_only ..)); decide)
    | ((with_reducible apply StepsOk.only (State.setAxis_only ..)); decide)
    | with_reducible refine StepsOk.ite ?_ ?_
    | fail_if_no_progress with_reducible refine StepsOk.frm ?_)

theorem State.devBase_stepsOk (s : State) (i : Nat) : StepsOk s (State.devBase s i) := by
  unfold State.devBase
  repeat (first
    | with_reducible exact StepsOk.refl _
    | with_reducible assumption
    | with_reducible apply StepsOk.step (State.setStep_stepsOk ..)
    | with_reducible refine StepsOk.ite ?_ ?_
    | split
    | (dsimp -proj -beta only []; split))

theorem State.trailAxis_stepsOk (s : State) (i : Nat) : StepsOk s (State.trailAxis s i) := by
  unfold State.trailAxis
  repeat (first
    | with_reducible exact StepsOk.refl _
    | with_reducible assumption
    | with_reducible apply StepsOk.step (State.devBase_stepsOk ..)
    | ((with_reducible apply StepsOk.only (State.raiseAx_only ..)); decide)
    | ((with_reducible apply StepsOk.only (State.setAxis_only ..)); decide)
    | with_reducible refine StepsOk.ite ?_ ?_)

theorem execTrailingKernelComplete_stepsOk (i : Fin 256) (t opnd comp : Nat) (s : State) : AnswersStepsOk s (execTrailingKernelComplete i t opnd comp s) := by
  unfold execTrailingKernelComplete
  repeat (first
    | with_reducible refine AnswersStepsOk.next ?_
    | with_reducible exact StepsOk.refl _
    | with_reducible assumption
    | with_reducible apply StepsOk.step (State.trailAxis_stepsOk ..)
    | ((with_reducible apply StepsOk.only (State.completeKernel_only ..)); decide)
    | ((with_reducible apply StepsOk.only (State.tagComplete_only ..)); decide)
    | ((with_reducible apply StepsOk.only (State.goto_only ..)); decide)
    | with_reducible refine StepsOk.ite ?_ ?_
    | fail_if_no_progress with_reducible refine StepsOk.frm ?_)

theorem State.rebase_stepsOk (s : State) (i c : Nat) : StepsOk s (State.rebase s i c) := by
  unfold State.rebase
  repeat (first
    | with_reducible exact StepsOk.refl _
    | with_reducible assumption
    | with_reducible apply StepsOk.step (State.setStep_stepsOk ..)
    | ((with_reducible apply StepsOk.only (State.setAxis_only ..)); decide))

theorem State.nodeStep_stepsOk (s : State) (down : Option (List Byte)) (k c : Nat) : StepsOk s (State.nodeStep s down k c) := by
  unfold State.nodeStep
  repeat (first
    | with_reducible exact StepsOk.refl _
    | with_reducible assumption
    | with_reducible apply StepsOk.step (State.setStep_stepsOk ..)
    | with_reducible refine StepsOk.ite ?_ ?_
    | fail_if_no_progress with_reducible refine StepsOk.net ?_
    | split
    | (dsimp -proj -beta only []; split))

theorem State.stepWithdraw_stepsOk (s : State) (c : Nat) : StepsOk s (State.stepWithdraw s c) := by
  unfold State.stepWithdraw
  repeat (first
    | with_reducible exact StepsOk.refl _
    | with_reducible assumption
    | with_reducible apply StepsOk.step (State.setStep_stepsOk ..)
    | with_reducible refine StepsOk.ite ?_ ?_)

theorem State.stepApply_stepsOk (s : State) (c : Nat) : StepsOk s (State.stepApply s c) := by
  unfold State.stepApply
  repeat (first
    | with_reducible exact StepsOk.refl _
    | with_reducible assumption
    | with_reducible apply StepsOk.step (State.stepWithdraw_stepsOk ..)
    | with_reducible apply StepsOk.step (State.rebase_stepsOk ..)
    | ((with_reducible apply StepsOk.only (State.raiseAx_only ..)); decide)
    | with_reducible apply StepsOk.step (State.setStep_stepsOk ..)
    | ((with_reducible apply StepsOk.only (State.setAxis_only ..)); decide)
    | with_reducible refine StepsOk.ite ?_ ?_
    | split
    | (dsimp -proj -beta only []; split))

theorem execStepPulse_stepsOk (c : Fin 16) (s : State) : AnswersStepsOk s (execStepPulse c s) := by
  unfold execStepPulse
  repeat (first
    | with_reducible refine AnswersStepsOk.next ?_
    | with_reducible exact StepsOk.refl _
    | with_reducible assumption
    | ((with_reducible apply StepsOk.only (State.goto_only ..)); decide)
    | ((with_reducible apply StepsOk.only (State.pulseX_only ..)); decide)
    | with_reducible apply StepsOk.step (State.setStep_stepsOk ..)
    | with_reducible refine StepsOk.ite ?_ ?_)

theorem execDirChange_stepsOk (c : Fin 16) (s : State) : AnswersStepsOk s (execDirChange c s) := by
  unfold execDirChange
  repeat (first
    | with_reducible refine AnswersStepsOk.next ?_
    | with_reducible exact StepsOk.refl _
    | with_reducible assumption
    | ((with_reducible apply StepsOk.only (State.goto_only ..)); decide)
    | with_reducible apply StepsOk.step (State.setStep_stepsOk ..)
    | with_reducible refine StepsOk.ite ?_ ?_)

theorem execCrefIdleExpiry_stepsOk (c : Fin 16) (s : State) : AnswersStepsOk s (execCrefIdleExpiry c s) := by
  unfold execCrefIdleExpiry
  repeat (first
    | with_reducible refine AnswersStepsOk.next ?_
    | with_reducible exact StepsOk.refl _
    | with_reducible assumption
    | ((with_reducible apply StepsOk.only (State.goto_only ..)); decide)
    | with_reducible apply StepsOk.step (State.setStep_stepsOk ..)
    | with_reducible refine StepsOk.ite ?_ ?_
    | fail_if_no_progress with_reducible refine StepsOk.red ?_)

theorem execCrefRampComplete_stepsOk (c : Fin 16) (s : State) : AnswersStepsOk s (execCrefRampComplete c s) := by
  unfold execCrefRampComplete
  repeat (first
    | with_reducible refine AnswersStepsOk.next ?_
    | with_reducible exact StepsOk.refl _
    | with_reducible assumption
    | ((with_reducible apply StepsOk.only (State.goto_only ..)); decide)
    | with_reducible apply StepsOk.step (State.setStep_stepsOk ..)
    | with_reducible refine StepsOk.ite ?_ ?_
    | fail_if_no_progress with_reducible refine StepsOk.red ?_)

theorem State.serve_stepsOk (s : State) (op : Nat) (f : State → Nat → Nat → State) (hf : ∀ y m j, StepsOk y (f y m j)) : StepsOk s (State.serve s op f) := by
  unfold State.serve
  repeat (first
    | with_reducible exact StepsOk.refl _
    | with_reducible assumption
    | with_reducible apply StepsOk.step (hf ..)
    | ((with_reducible apply StepsOk.only (State.take_only ..)); decide)
    | with_reducible refine StepsOk.ite ?_ ?_
    | split
    | (dsimp -proj -beta only []; split))

theorem State.serveSlot_stepsOk (s : State) (p : Nat → Bool) (f : State → Nat → Nat → State) (hf : ∀ y m j, StepsOk y (f y m j)) : StepsOk s (State.serveSlot s p f) := by
  unfold State.serveSlot
  repeat (first
    | with_reducible exact StepsOk.refl _
    | with_reducible assumption
    | with_reducible apply StepsOk.step (hf ..)
    | ((with_reducible apply StepsOk.only (State.take_only ..)); decide)
    | with_reducible refine StepsOk.ite ?_ ?_
    | split
    | (dsimp -proj -beta only []; split))

theorem State.ioStart_stepsOk (s : State) : StepsOk s (State.ioStart s) := by
  unfold State.ioStart
  repeat (first
    | with_reducible exact StepsOk.refl _
    | with_reducible assumption
    | ((with_reducible apply StepsOk.only (State.setDie_only ..)); decide)
    | ((with_reducible apply StepsOk.only (State.setFch_only ..)); decide)
    | ((with_reducible apply StepsOk.only (State.setEnc_only ..)); decide)
    | with_reducible apply StepsOk.step (State.setStep_stepsOk ..)
    | with_reducible refine StepsOk.foldl ?_ ?_
    | (intro _ _ _; try beta_reduce)
    | fail_if_no_progress with_reducible refine StepsOk.fio_cap ?_
    | fail_if_no_progress with_reducible refine StepsOk.fio ?_
    | fail_if_no_progress with_reducible refine StepsOk.cap ?_)

theorem State.startConfig_stepsOk (s : State) (k : Nat) : StepsOk s (State.startConfig s k) := by
  unfold State.startConfig
  repeat (first
    | with_reducible exact StepsOk.refl _
    | with_reducible assumption
    | with_reducible apply StepsOk.step (State.ioStart_stepsOk ..)
    | ((with_reducible apply StepsOk.only (State.hostStart_only ..)); decide)
    | ((with_reducible apply StepsOk.only (State.netStart_only ..)); decide)
    | ((with_reducible apply StepsOk.only (State.enablePorts_only ..)); decide)
    | ((with_reducible apply StepsOk.only (State.takeImage_only ..)); decide)
    | ((with_reducible apply StepsOk.only (State.writeTasks_only ..)); decide)
    | ((with_reducible apply StepsOk.only (State.initAxes_only ..)); decide)
    | ((with_reducible apply StepsOk.only (State.ovlShow_only ..)); decide)
    | ((with_reducible apply StepsOk.only (State.openLedger_only ..)); decide)
    | ((with_reducible apply StepsOk.only (State.setRole_only ..)); decide)
    | with_reducible refine StepsOk.ite ?_ ?_
    | with_reducible refine StepsOk.foldl ?_ ?_
    | (intro _ _ _; try beta_reduce)
    | fail_if_no_progress with_reducible refine StepsOk.red_cfg ?_
    | fail_if_no_progress with_reducible refine StepsOk.frm ?_
    | fail_if_no_progress with_reducible refine StepsOk.red ?_
    | fail_if_no_progress with_reducible refine StepsOk.cfg ?_)

theorem execBaseConfigStart_stepsOk (s : State) : AnswersStepsOk s (execBaseConfigStart s) := by
  unfold execBaseConfigStart
  repeat (first
    | with_reducible refine AnswersStepsOk.next ?_
    | with_reducible exact StepsOk.refl _
    | with_reducible assumption
    | ((with_reducible apply StepsOk.only (State.refuseConfig_only ..)); decide)
    | with_reducible apply StepsOk.step (State.startConfig_stepsOk ..)
    | with_reducible refine StepsOk.ite ?_ ?_
    | split
    | (dsimp -proj -beta only []; split))

theorem execSampleInstant_stepsOk (s : State) : AnswersStepsOk s (execSampleInstant s) := by
  unfold execSampleInstant
  repeat (first
    | with_reducible refine AnswersStepsOk.next ?_
    | with_reducible exact StepsOk.refl _
    | with_reducible assumption
    | ((with_reducible apply StepsOk.only (State.fioLatch_only ..)); decide)
    | ((with_reducible apply StepsOk.only (State.encSample_only ..)); decide)
    | ((with_reducible apply StepsOk.only (State.goto_only ..)); decide)
    | with_reducible apply StepsOk.step (State.setStep_stepsOk ..)
    | with_reducible refine StepsOk.ite ?_ ?_
    | with_reducible refine StepsOk.foldl ?_ ?_
    | (intro _ _ _; try beta_reduce))

theorem State.nodeApply_stepsOk (s : State) : StepsOk s (State.nodeApply s) := by
  unfold State.nodeApply
  repeat (first
    | with_reducible exact StepsOk.refl _
    | with_reducible assumption
    | ((with_reducible apply StepsOk.only (State.fioApply_only ..)); decide)
    | with_reducible apply StepsOk.step (State.nodeStep_stepsOk ..)
    | with_reducible refine StepsOk.ite ?_ ?_
    | with_reducible refine StepsOk.foldl ?_ ?_
    | (intro _ _ _; try beta_reduce)
    | fail_if_no_progress with_reducible refine StepsOk.net ?_
    | split
    | (dsimp -proj -beta only []; split))

theorem State.quitSteps_stepsOk (s : State) : StepsOk s (State.quitSteps s) := by
  unfold State.quitSteps
  repeat (first
    | with_reducible exact StepsOk.refl _
    | with_reducible assumption
    | with_reducible apply StepsOk.step (State.stepWithdraw_stepsOk ..)
    | ((with_reducible apply StepsOk.only (State.goto_only ..)); decide)
    | with_reducible refine StepsOk.foldl ?_ ?_
    | (intro _ _ _; try beta_reduce)
    | fail_if_no_progress with_reducible refine StepsOk.red ?_
    | split
    | (dsimp -proj -beta only []; split))

theorem execApplyInstant_stepsOk (s : State) : AnswersStepsOk s (execApplyInstant s) := by
  unfold execApplyInstant
  repeat (first
    | with_reducible refine AnswersStepsOk.next ?_
    | with_reducible exact StepsOk.refl _
    | with_reducible assumption
    | with_reducible apply StepsOk.step (State.quitSteps_stepsOk ..)
    | with_reducible apply StepsOk.step (State.nodeApply_stepsOk ..)
    | ((with_reducible apply StepsOk.only (State.fioApply_only ..)); decide)
    | with_reducible apply StepsOk.step (State.stepApply_stepsOk ..)
    | ((with_reducible apply StepsOk.only (State.goto_only ..)); decide)
    | with_reducible refine StepsOk.ite ?_ ?_
    | with_reducible refine StepsOk.foldl ?_ ?_
    | (intro _ _ _; try beta_reduce)
    | split
    | (dsimp -proj -beta only []; split))

end Sys2Proof.Machine
end

