-- ==== Sys2Proof/Laws/TblZones.lean ====
section
/-! SUPPORT. Every operation keeps the table of zones canonical -/

set_option linter.unusedTactic false
set_option linter.unreachableTactic false

namespace Sys2Proof.Machine

/-- If the memory is canonical in s, it is in t. -/
structure ZonesOk (s t : State) : Prop where
  out : twf ({} : Zone) s.zones = true → twf ({} : Zone) t.zones = true

/-- A meaning answers a next state so related to s. -/
structure AnswersZonesOk (s : State) (o : Out) : Prop where
  out : ∃ t, o = .next t ∧ ZonesOk s t

theorem ZonesOk.refl (s : State) : ZonesOk s s := ⟨fun x => x⟩

theorem ZonesOk.trans {s t u : State} (h : ZonesOk s t) (g : ZonesOk t u) : ZonesOk s u := ⟨fun x => g.out (h.out x)⟩

theorem ZonesOk.step {s t u : State} (g : ZonesOk t u) (h : ZonesOk s t) : ZonesOk s u := h.trans g

theorem ZonesOk.only {v : List Part} {s t u : State} (g : Only v t u) (hv : v.contains Part.zones = false) (h : ZonesOk s t) : ZonesOk s u :=
  ⟨fun x => by rw [(g.out .zones hv : u.zones = t.zones)]; exact h.out x⟩

theorem ZonesOk.ite {s a b : State} {c : Prop} [Decidable c] (ha : ZonesOk s a) (hb : ZonesOk s b) : ZonesOk s (if c then a else b) := by
  split <;> assumption

theorem ZonesOk.foldl {α : Type} {s : State} {f : State → α → State} {l : List α} {x : State}
    (hf : ∀ y a, ZonesOk s y → ZonesOk s (f y a)) (hx : ZonesOk s x) : ZonesOk s (l.foldl f x) := by
  induction l generalizing x with
  | nil => exact hx
  | cons a l ih => exact ih (hf x a hx)

theorem ZonesOk.eq_fst {α : Type} {t a : State} {p : State × α} {b : α} (h : ZonesOk t p.1) (e : p = (a, b)) : ZonesOk t a := by
  subst e; exact h

theorem ZonesOk.eq_snd {α : Type} {t a : State} {p : α × State} {b : α} (h : ZonesOk t p.2) (e : p = (b, a)) : ZonesOk t a := by
  subst e; exact h

theorem AnswersZonesOk.next {s t : State} (h : ZonesOk s t) : AnswersZonesOk s (.next t) := ⟨t, rfl, h⟩

theorem ZonesOk.rfl {a : Tbl Zone} : twf ({} : Zone) a = true → twf ({} : Zone) a = true := id

theorem ZonesOk.upd {s x y : State} (h : ZonesOk s x) (g : twf ({} : Zone) x.zones = true → twf ({} : Zone) y.zones = true) :
    ZonesOk s y := ⟨fun w => g (h.out w)⟩


theorem ZonesOk.frm {s x : State} {v0 : Frm} (h : ZonesOk s x) :
    ZonesOk s { x with frm := v0 } := by
  exact ZonesOk.upd h ZonesOk.rfl

theorem ZonesOk.axes {s x : State} {v0 : Tbl Axis} (h : ZonesOk s x) :
    ZonesOk s { x with axes := v0 } := by
  exact ZonesOk.upd h ZonesOk.rfl

theorem ZonesOk.lines {s x : State} {v0 : Tbl Line} (h : ZonesOk s x) :
    ZonesOk s { x with lines := v0 } := by
  exact ZonesOk.upd h ZonesOk.rfl

theorem ZonesOk.cams {s x : State} {v0 : Tbl CamTable} (h : ZonesOk s x) :
    ZonesOk s { x with cams := v0 } := by
  exact ZonesOk.upd h ZonesOk.rfl

theorem ZonesOk.camStg {s x : State} {v0 : Tbl (List Host.Cell)} (h : ZonesOk s x) :
    ZonesOk s { x with camStg := v0 } := by
  exact ZonesOk.upd h ZonesOk.rfl

theorem ZonesOk.zones {s x : State} {v0 : Tbl Zone} (g : twf ({} : Zone) x.zones = true → twf ({} : Zone) v0 = true) (h : ZonesOk s x) :
    ZonesOk s { x with zones := v0 } := by
  exact ZonesOk.upd h g

theorem ZonesOk.steps {s x : State} {v0 : Tbl StepCh} (h : ZonesOk s x) :
    ZonesOk s { x with steps := v0 } := by
  exact ZonesOk.upd h ZonesOk.rfl

theorem ZonesOk.encs {s x : State} {v0 : Tbl Enc} (h : ZonesOk s x) :
    ZonesOk s { x with encs := v0 } := by
  exact ZonesOk.upd h ZonesOk.rfl

theorem ZonesOk.net {s x : State} {v0 : Net} (h : ZonesOk s x) :
    ZonesOk s { x with net := v0 } := by
  exact ZonesOk.upd h ZonesOk.rfl

theorem ZonesOk.dsp {s x : State} {v0 : Dsp} (h : ZonesOk s x) :
    ZonesOk s { x with dsp := v0 } := by
  exact ZonesOk.upd h ZonesOk.rfl

theorem ZonesOk.red {s x : State} {v0 : Red} (h : ZonesOk s x) :
    ZonesOk s { x with red := v0 } := by
  exact ZonesOk.upd h ZonesOk.rfl

theorem ZonesOk.saf {s x : State} {v0 : Saf} (h : ZonesOk s x) :
    ZonesOk s { x with saf := v0 } := by
  exact ZonesOk.upd h ZonesOk.rfl

theorem ZonesOk.fio {s x : State} {v0 : Fio} (h : ZonesOk s x) :
    ZonesOk s { x with fio := v0 } := by
  exact ZonesOk.upd h ZonesOk.rfl

theorem ZonesOk.cap {s x : State} {v0 : Cap} (h : ZonesOk s x) :
    ZonesOk s { x with cap := v0 } := by
  exact ZonesOk.upd h ZonesOk.rfl

theorem ZonesOk.prf {s x : State} {v0 : Prf} (h : ZonesOk s x) :
    ZonesOk s { x with prf := v0 } := by
  exact ZonesOk.upd h ZonesOk.rfl

theorem ZonesOk.host {s x : State} {v0 : Hst} (h : ZonesOk s x) :
    ZonesOk s { x with host := v0 } := by
  exact ZonesOk.upd h ZonesOk.rfl

theorem ZonesOk.evt {s x : State} {v0 : Evt} (h : ZonesOk s x) :
    ZonesOk s { x with evt := v0 } := by
  exact ZonesOk.upd h ZonesOk.rfl

theorem ZonesOk.params {s x : State} {v0 : Tbl W64} (h : ZonesOk s x) :
    ZonesOk s { x with params := v0 } := by
  exact ZonesOk.upd h ZonesOk.rfl

theorem ZonesOk.cfg {s x : State} {v0 : Cfg} (h : ZonesOk s x) :
    ZonesOk s { x with cfg := v0 } := by
  exact ZonesOk.upd h ZonesOk.rfl

theorem ZonesOk.pwr {s x : State} {v0 : Pwr} (h : ZonesOk s x) :
    ZonesOk s { x with pwr := v0 } := by
  exact ZonesOk.upd h ZonesOk.rfl

theorem ZonesOk.lgr {s x : State} {v0 : Lgr} (h : ZonesOk s x) :
    ZonesOk s { x with lgr := v0 } := by
  exact ZonesOk.upd h ZonesOk.rfl

theorem ZonesOk.pending {s x : State} {v0 : List Instr} (h : ZonesOk s x) :
    ZonesOk s { x with pending := v0 } := by
  exact ZonesOk.upd h ZonesOk.rfl

theorem ZonesOk.axes_lines_cams_zones_params {s x : State} {v0 : Tbl Axis} {v1 : Tbl Line} {v2 : Tbl CamTable} {v3 : Tbl Zone} {v4 : Tbl W64} (g : twf ({} : Zone) x.zones = true → twf ({} : Zone) v3 = true) (h : ZonesOk s x) :
    ZonesOk s { x with axes := v0, lines := v1, cams := v2, zones := v3, params := v4 } := by
  exact ZonesOk.upd h g

theorem ZonesOk.axes_lines_zones {s x : State} {v0 : Tbl Axis} {v1 : Tbl Line} {v2 : Tbl Zone} (g : twf ({} : Zone) x.zones = true → twf ({} : Zone) v2 = true) (h : ZonesOk s x) :
    ZonesOk s { x with axes := v0, lines := v1, zones := v2 } := by
  exact ZonesOk.upd h g

theorem ZonesOk.cams_camStg_evt_params {s x : State} {v0 : Tbl CamTable} {v1 : Tbl (List Host.Cell)} {v2 : Evt} {v3 : Tbl W64} (h : ZonesOk s x) :
    ZonesOk s { x with cams := v0, camStg := v1, evt := v2, params := v3 } := by
  exact ZonesOk.upd h ZonesOk.rfl

theorem ZonesOk.dsp_prf {s x : State} {v0 : Dsp} {v1 : Prf} (h : ZonesOk s x) :
    ZonesOk s { x with dsp := v0, prf := v1 } := by
  exact ZonesOk.upd h ZonesOk.rfl

theorem ZonesOk.fio_cap {s x : State} {v0 : Fio} {v1 : Cap} (h : ZonesOk s x) :
    ZonesOk s { x with fio := v0, cap := v1 } := by
  exact ZonesOk.upd h ZonesOk.rfl

theorem ZonesOk.frm_cams {s x : State} {v0 : Frm} {v1 : Tbl CamTable} (h : ZonesOk s x) :
    ZonesOk s { x with frm := v0, cams := v1 } := by
  exact ZonesOk.upd h ZonesOk.rfl

theorem ZonesOk.frm_dsp {s x : State} {v0 : Frm} {v1 : Dsp} (h : ZonesOk s x) :
    ZonesOk s { x with frm := v0, dsp := v1 } := by
  exact ZonesOk.upd h ZonesOk.rfl

theorem ZonesOk.frm_evt_pwr {s x : State} {v0 : Frm} {v1 : Evt} {v2 : Pwr} (h : ZonesOk s x) :
    ZonesOk s { x with frm := v0, evt := v1, pwr := v2 } := by
  exact ZonesOk.upd h ZonesOk.rfl

theorem ZonesOk.frm_fio {s x : State} {v0 : Frm} {v1 : Fio} (h : ZonesOk s x) :
    ZonesOk s { x with frm := v0, fio := v1 } := by
  exact ZonesOk.upd h ZonesOk.rfl

theorem ZonesOk.frm_host_cfg_pwr {s x : State} {v0 : Frm} {v1 : Hst} {v2 : Cfg} {v3 : Pwr} (h : ZonesOk s x) :
    ZonesOk s { x with frm := v0, host := v1, cfg := v2, pwr := v3 } := by
  exact ZonesOk.upd h ZonesOk.rfl

theorem ZonesOk.frm_net {s x : State} {v0 : Frm} {v1 : Net} (h : ZonesOk s x) :
    ZonesOk s { x with frm := v0, net := v1 } := by
  exact ZonesOk.upd h ZonesOk.rfl

theorem ZonesOk.frm_net_evt_cfg {s x : State} {v0 : Frm} {v1 : Net} {v2 : Evt} {v3 : Cfg} (h : ZonesOk s x) :
    ZonesOk s { x with frm := v0, net := v1, evt := v2, cfg := v3 } := by
  exact ZonesOk.upd h ZonesOk.rfl

theorem ZonesOk.frm_net_red {s x : State} {v0 : Frm} {v1 : Net} {v2 : Red} (h : ZonesOk s x) :
    ZonesOk s { x with frm := v0, net := v1, red := v2 } := by
  exact ZonesOk.upd h ZonesOk.rfl

theorem ZonesOk.host_pwr {s x : State} {v0 : Hst} {v1 : Pwr} (h : ZonesOk s x) :
    ZonesOk s { x with host := v0, pwr := v1 } := by
  exact ZonesOk.upd h ZonesOk.rfl

theorem ZonesOk.lines_red_evt {s x : State} {v0 : Tbl Line} {v1 : Red} {v2 : Evt} (h : ZonesOk s x) :
    ZonesOk s { x with lines := v0, red := v1, evt := v2 } := by
  exact ZonesOk.upd h ZonesOk.rfl

theorem ZonesOk.net_fio {s x : State} {v0 : Net} {v1 : Fio} (h : ZonesOk s x) :
    ZonesOk s { x with net := v0, fio := v1 } := by
  exact ZonesOk.upd h ZonesOk.rfl

theorem ZonesOk.net_red {s x : State} {v0 : Net} {v1 : Red} (h : ZonesOk s x) :
    ZonesOk s { x with net := v0, red := v1 } := by
  exact ZonesOk.upd h ZonesOk.rfl

theorem ZonesOk.net_red_evt {s x : State} {v0 : Net} {v1 : Red} {v2 : Evt} (h : ZonesOk s x) :
    ZonesOk s { x with net := v0, red := v1, evt := v2 } := by
  exact ZonesOk.upd h ZonesOk.rfl

theorem ZonesOk.prf_pwr {s x : State} {v0 : Prf} {v1 : Pwr} (h : ZonesOk s x) :
    ZonesOk s { x with prf := v0, pwr := v1 } := by
  exact ZonesOk.upd h ZonesOk.rfl

theorem ZonesOk.pwr_lgr {s x : State} {v0 : Pwr} {v1 : Lgr} (h : ZonesOk s x) :
    ZonesOk s { x with pwr := v0, lgr := v1 } := by
  exact ZonesOk.upd h ZonesOk.rfl

theorem ZonesOk.red_cfg {s x : State} {v0 : Red} {v1 : Cfg} (h : ZonesOk s x) :
    ZonesOk s { x with red := v0, cfg := v1 } := by
  exact ZonesOk.upd h ZonesOk.rfl

theorem ZonesOk.red_evt {s x : State} {v0 : Red} {v1 : Evt} (h : ZonesOk s x) :
    ZonesOk s { x with red := v0, evt := v1 } := by
  exact ZonesOk.upd h ZonesOk.rfl

theorem ZonesOk.saf_cfg {s x : State} {v0 : Saf} {v1 : Cfg} (h : ZonesOk s x) :
    ZonesOk s { x with saf := v0, cfg := v1 } := by
  exact ZonesOk.upd h ZonesOk.rfl

theorem ZonesOk.saf_host_cfg {s x : State} {v0 : Saf} {v1 : Hst} {v2 : Cfg} (h : ZonesOk s x) :
    ZonesOk s { x with saf := v0, host := v1, cfg := v2 } := by
  exact ZonesOk.upd h ZonesOk.rfl

theorem ZonesOk.saf_pwr {s x : State} {v0 : Saf} {v1 : Pwr} (h : ZonesOk s x) :
    ZonesOk s { x with saf := v0, pwr := v1 } := by
  exact ZonesOk.upd h ZonesOk.rfl

theorem ZonesOk.saf_pwr_lgr {s x : State} {v0 : Saf} {v1 : Pwr} {v2 : Lgr} (h : ZonesOk s x) :
    ZonesOk s { x with saf := v0, pwr := v1, lgr := v2 } := by
  exact ZonesOk.upd h ZonesOk.rfl

theorem State.setZone_zonesOk (s : State) (z : Nat) (a : Zone) : ZonesOk s (State.setZone s z a) := by
  unfold State.setZone
  repeat (first
    | with_reducible exact ZonesOk.refl _
    | with_reducible assumption
    | fail_if_no_progress with_reducible refine ZonesOk.zones (by first | exact id | exact twf_tset _ _ _ | exact wf_mwrite _ _ _ _ | exact wf_merase _ _ _ _ | exact fun w => wf_mwrite _ _ _ _ (wf_mwrite _ _ _ _ w) | exact fun _ => twf_nil _) ?_)

theorem State.abandonZones_zonesOk (s : State) : ZonesOk s (State.abandonZones s) := by
  unfold State.abandonZones
  repeat (first
    | with_reducible exact ZonesOk.refl _
    | with_reducible assumption
    | ((with_reducible apply ZonesOk.only (State.abandon_only ..)); decide)
    | with_reducible apply ZonesOk.step (State.setZone_zonesOk ..)
    | with_reducible refine ZonesOk.foldl ?_ ?_
    | (intro _ _ _; try beta_reduce))

theorem execLnKernelDeadline_zonesOk (s : State) : AnswersZonesOk s (execLnKernelDeadline s) := by
  unfold execLnKernelDeadline
  repeat (first
    | with_reducible refine AnswersZonesOk.next ?_
    | with_reducible exact ZonesOk.refl _
    | with_reducible assumption
    | ((with_reducible apply ZonesOk.only (State.missDeadline_only ..)); decide)
    | with_reducible apply ZonesOk.step (State.abandonZones_zonesOk ..)
    | ((with_reducible apply ZonesOk.only (State.goto_only ..)); decide)
    | with_reducible refine ZonesOk.ite ?_ ?_)

theorem State.skipOne_zonesOk (s : State) (d : Nat) : ZonesOk s (State.skipOne s d) := by
  unfold State.skipOne
  repeat (first
    | with_reducible exact ZonesOk.refl _
    | with_reducible assumption
    | ((with_reducible apply ZonesOk.only (State.unlist_only ..)); decide)
    | ((with_reducible apply ZonesOk.only (State.kickReady_only ..)); decide)
    | ((with_reducible apply ZonesOk.only (State.startInstance_only ..)); decide)
    | ((with_reducible apply ZonesOk.only (State.trace_only ..)); decide)
    | ((with_reducible apply ZonesOk.only (State.raise_only ..)); decide)
    | ((with_reducible apply ZonesOk.only (State.pulse_only ..)); decide)
    | ((with_reducible apply ZonesOk.only (State.setTask_only ..)); decide)
    | with_reducible apply ZonesOk.step (State.setZone_zonesOk ..)
    | ((with_reducible apply ZonesOk.only (State.setAxis_only ..)); decide)
    | with_reducible refine ZonesOk.ite ?_ ?_
    | fail_if_no_progress with_reducible refine ZonesOk.dsp ?_)

theorem execU0TrailingSkip_zonesOk (s : State) : AnswersZonesOk s (execU0TrailingSkip s) := by
  unfold execU0TrailingSkip
  repeat (first
    | with_reducible refine AnswersZonesOk.next ?_
    | with_reducible exact ZonesOk.refl _
    | with_reducible assumption
    | with_reducible apply ZonesOk.step (State.skipOne_zonesOk ..)
    | ((with_reducible apply ZonesOk.only (State.gateCheck_only ..)); decide)
    | ((with_reducible apply ZonesOk.only (State.goto_only ..)); decide)
    | with_reducible refine ZonesOk.ite ?_ ?_
    | with_reducible refine ZonesOk.foldl ?_ ?_
    | (intro _ _ _; try beta_reduce)
    | fail_if_no_progress with_reducible refine ZonesOk.frm ?_
    | fail_if_no_progress with_reducible refine ZonesOk.dsp ?_)

theorem execCommandBlockDeadline_zonesOk (b : Fin 8) (s : State) : AnswersZonesOk s (execCommandBlockDeadline b s) := by
  unfold execCommandBlockDeadline
  repeat (first
    | with_reducible refine AnswersZonesOk.next ?_
    | with_reducible exact ZonesOk.refl _
    | with_reducible assumption
    | ((with_reducible apply ZonesOk.only (State.startBlock_only ..)); decide)
    | ((with_reducible apply ZonesOk.only (State.missDeadline_only ..)); decide)
    | with_reducible apply ZonesOk.step (State.abandonZones_zonesOk ..)
    | ((with_reducible apply ZonesOk.only (State.goto_only ..)); decide)
    | ((with_reducible apply ZonesOk.only (State.setBranch_only ..)); decide)
    | with_reducible refine ZonesOk.ite ?_ ?_)

theorem State.zoneKernel_zonesOk (s : State) (z f : Nat) : ZonesOk s (State.zoneKernel s z f) := by
  unfold State.zoneKernel
  repeat (first
    | with_reducible exact ZonesOk.refl _
    | with_reducible assumption
    | ((with_reducible apply ZonesOk.only (State.raiseOnce_only ..)); decide)
    | with_reducible apply ZonesOk.step (State.setZone_zonesOk ..)
    | with_reducible refine ZonesOk.ite ?_ ?_
    | split
    | (dsimp -proj -beta only []; split))

theorem execZoneKernelComplete_zonesOk (z : Fin 64) (t opnd comp : Nat) (s : State) : AnswersZonesOk s (execZoneKernelComplete z t opnd comp s) := by
  unfold execZoneKernelComplete
  repeat (first
    | with_reducible refine AnswersZonesOk.next ?_
    | with_reducible exact ZonesOk.refl _
    | with_reducible assumption
    | with_reducible apply ZonesOk.step (State.zoneKernel_zonesOk ..)
    | ((with_reducible apply ZonesOk.only (State.gateCheck_only ..)); decide)
    | ((with_reducible apply ZonesOk.only (State.completeKernel_only ..)); decide)
    | ((with_reducible apply ZonesOk.only (State.tagComplete_only ..)); decide)
    | ((with_reducible apply ZonesOk.only (State.goto_only ..)); decide)
    | with_reducible apply ZonesOk.step (State.setZone_zonesOk ..)
    | with_reducible refine ZonesOk.ite ?_ ?_
    | fail_if_no_progress with_reducible refine ZonesOk.frm ?_)

theorem State.zoneTrail_zonesOk (s : State) (z : Nat) : ZonesOk s (State.zoneTrail s z) := by
  unfold State.zoneTrail
  repeat (first
    | with_reducible exact ZonesOk.refl _
    | with_reducible assumption
    | ((with_reducible apply ZonesOk.only (State.diaOf_only ..)); decide)
    | ((with_reducible apply ZonesOk.only (State.raiseOnce_only ..)); decide)
    | with_reducible apply ZonesOk.step (State.setZone_zonesOk ..)
    | with_reducible refine ZonesOk.ite ?_ ?_
    | split
    | (dsimp -proj -beta only []; split))

theorem execZoneTrailingKernelComplete_zonesOk (z : Fin 64) (t opnd comp : Nat) (s : State) : AnswersZonesOk s (execZoneTrailingKernelComplete z t opnd comp s) := by
  unfold execZoneTrailingKernelComplete
  repeat (first
    | with_reducible refine AnswersZonesOk.next ?_
    | with_reducible exact ZonesOk.refl _
    | with_reducible assumption
    | with_reducible apply ZonesOk.step (State.zoneTrail_zonesOk ..)
    | ((with_reducible apply ZonesOk.only (State.completeKernel_only ..)); decide)
    | ((with_reducible apply ZonesOk.only (State.tagComplete_only ..)); decide)
    | ((with_reducible apply ZonesOk.only (State.goto_only ..)); decide)
    | with_reducible refine ZonesOk.ite ?_ ?_
    | fail_if_no_progress with_reducible refine ZonesOk.frm ?_)

theorem execWebBreak_zonesOk (z : Fin 64) (s : State) : AnswersZonesOk s (execWebBreak z s) := by
  unfold execWebBreak
  repeat (first
    | with_reducible refine AnswersZonesOk.next ?_
    | with_reducible exact ZonesOk.refl _
    | with_reducible assumption
    | ((with_reducible apply ZonesOk.only (State.raiseOnce_only ..)); decide)
    | with_reducible apply ZonesOk.step (State.setZone_zonesOk ..)
    | with_reducible refine ZonesOk.ite ?_ ?_)

theorem execLcInvalid_zonesOk (z : Fin 64) (s : State) : AnswersZonesOk s (execLcInvalid z s) := by
  unfold execLcInvalid
  repeat (first
    | with_reducible refine AnswersZonesOk.next ?_
    | with_reducible exact ZonesOk.refl _
    | with_reducible assumption
    | ((with_reducible apply ZonesOk.only (State.raiseOnce_only ..)); decide)
    | with_reducible apply ZonesOk.step (State.setZone_zonesOk ..)
    | with_reducible refine ZonesOk.ite ?_ ?_)

theorem State.serve_zonesOk (s : State) (op : Nat) (f : State → Nat → Nat → State) (hf : ∀ y m j, ZonesOk y (f y m j)) : ZonesOk s (State.serve s op f) := by
  unfold State.serve
  repeat (first
    | with_reducible exact ZonesOk.refl _
    | with_reducible assumption
    | with_reducible apply ZonesOk.step (hf ..)
    | ((with_reducible apply ZonesOk.only (State.take_only ..)); decide)
    | with_reducible refine ZonesOk.ite ?_ ?_
    | split
    | (dsimp -proj -beta only []; split))

theorem State.initAxes_zonesOk (s : State) : ZonesOk s (State.initAxes s) := by
  unfold State.initAxes
  repeat (first
    | with_reducible exact ZonesOk.refl _
    | with_reducible assumption
    | with_reducible apply ZonesOk.step (State.setZone_zonesOk ..)
    | ((with_reducible apply ZonesOk.only (State.setAxis_only ..)); decide)
    | with_reducible refine ZonesOk.foldl ?_ ?_
    | (intro _ _ _; try beta_reduce)
    | fail_if_no_progress with_reducible refine ZonesOk.axes_lines_zones (by first | exact id | exact twf_tset _ _ _ | exact wf_mwrite _ _ _ _ | exact wf_merase _ _ _ _ | exact fun w => wf_mwrite _ _ _ _ (wf_mwrite _ _ _ _ w) | exact fun _ => twf_nil _) ?_
    | fail_if_no_progress with_reducible refine ZonesOk.axes ?_
    | fail_if_no_progress with_reducible refine ZonesOk.lines ?_
    | fail_if_no_progress with_reducible refine ZonesOk.zones (by first | exact id | exact twf_tset _ _ _ | exact wf_mwrite _ _ _ _ | exact wf_merase _ _ _ _ | exact fun w => wf_mwrite _ _ _ _ (wf_mwrite _ _ _ _ w) | exact fun _ => twf_nil _) ?_)

theorem State.discardHead_zonesOk (s : State) : ZonesOk s (State.discardHead s) := by
  unfold State.discardHead
  repeat (first
    | with_reducible exact ZonesOk.refl _
    | with_reducible assumption
    | with_reducible apply ZonesOk.step (State.initAxes_zonesOk ..)
    | ((with_reducible apply ZonesOk.only (State.credit_only ..)); decide)
    | with_reducible refine ZonesOk.ite ?_ ?_
    | fail_if_no_progress with_reducible refine ZonesOk.net_red_evt ?_
    | fail_if_no_progress with_reducible refine ZonesOk.net ?_
    | fail_if_no_progress with_reducible refine ZonesOk.red ?_
    | fail_if_no_progress with_reducible refine ZonesOk.evt ?_)

theorem State.leaveHead_zonesOk (s : State) : ZonesOk s (State.leaveHead s) := by
  unfold State.leaveHead
  repeat (first
    | with_reducible exact ZonesOk.refl _
    | with_reducible assumption
    | with_reducible apply ZonesOk.step (State.discardHead_zonesOk ..)
    | ((with_reducible apply ZonesOk.only (State.stopKernels_only ..)); decide)
    | ((with_reducible apply ZonesOk.only (State.capRoleEnd_only ..)); decide)
    | ((with_reducible apply ZonesOk.only (State.roleChange_only ..)); decide)
    | ((with_reducible apply ZonesOk.only (State.closeLedgers_only ..)); decide)
    | ((with_reducible apply ZonesOk.only (State.openLedger_only ..)); decide)
    | ((with_reducible apply ZonesOk.only (State.standbyRole_only ..)); decide)
    | fail_if_no_progress with_reducible refine ZonesOk.net_fio ?_
    | fail_if_no_progress with_reducible refine ZonesOk.net ?_
    | fail_if_no_progress with_reducible refine ZonesOk.fio ?_)

theorem State.earlyYield_zonesOk (s : State) : ZonesOk s (State.earlyYield s) := by
  unfold State.earlyYield
  repeat (first
    | with_reducible exact ZonesOk.refl _
    | with_reducible assumption
    | with_reducible apply ZonesOk.step (State.discardHead_zonesOk ..)
    | ((with_reducible apply ZonesOk.only (State.stopKernels_only ..)); decide)
    | ((with_reducible apply ZonesOk.only (State.capRoleEnd_only ..)); decide)
    | ((with_reducible apply ZonesOk.only (State.closeLedgers_only ..)); decide)
    | ((with_reducible apply ZonesOk.only (State.yieldStart_only ..)); decide)
    | ((with_reducible apply ZonesOk.only (State.raiseDev_only ..)); decide)
    | fail_if_no_progress with_reducible refine ZonesOk.frm ?_)

theorem execForeignCsm_zonesOk (b : Fin 8) (bytes : List Byte) (x : Arrival) (s : State) : AnswersZonesOk s (execForeignCsm b bytes x s) := by
  unfold execForeignCsm
  repeat (first
    | with_reducible refine AnswersZonesOk.next ?_
    | with_reducible exact ZonesOk.refl _
    | with_reducible assumption
    | ((with_reducible apply ZonesOk.only (State.seeCsm_only ..)); decide)
    | with_reducible apply ZonesOk.step (State.earlyYield_zonesOk ..)
    | with_reducible apply ZonesOk.step (State.leaveHead_zonesOk ..)
    | ((with_reducible apply ZonesOk.only (State.rxFrame_only ..)); decide)
    | ((with_reducible apply ZonesOk.only (State.raiseDev_only ..)); decide)
    | ((with_reducible apply ZonesOk.only (State.raiseOnce_only ..)); decide)
    | with_reducible refine ZonesOk.ite ?_ ?_
    | fail_if_no_progress with_reducible refine ZonesOk.net ?_
    | split
    | (dsimp -proj -beta only []; split))

theorem execRestartFrame_zonesOk (s : State) : AnswersZonesOk s (execRestartFrame s) := by
  unfold execRestartFrame
  repeat (first
    | with_reducible refine AnswersZonesOk.next ?_
    | with_reducible exact ZonesOk.refl _
    | with_reducible assumption
    | ((with_reducible apply ZonesOk.only (State.restartOne_only ..)); decide)
    | with_reducible apply ZonesOk.step (State.setZone_zonesOk ..)
    | with_reducible refine ZonesOk.ite ?_ ?_
    | with_reducible refine ZonesOk.foldl ?_ ?_
    | (intro _ _ _; try beta_reduce)
    | fail_if_no_progress with_reducible refine ZonesOk.lines_red_evt ?_
    | fail_if_no_progress with_reducible refine ZonesOk.lines ?_
    | fail_if_no_progress with_reducible refine ZonesOk.red ?_
    | fail_if_no_progress with_reducible refine ZonesOk.evt ?_
    | split
    | (dsimp -proj -beta only []; split))

theorem State.applyEntry_zonesOk (s : State) (e : Nat × W64) : ZonesOk s (State.applyEntry s e) := by
  unfold State.applyEntry
  repeat (first
    | with_reducible exact ZonesOk.refl _
    | with_reducible assumption
    | ((with_reducible apply ZonesOk.only (State.setFch_only ..)); decide)
    | with_reducible apply ZonesOk.step (State.setZone_zonesOk ..)
    | ((with_reducible apply ZonesOk.only (State.setPar_only ..)); decide)
    | with_reducible refine ZonesOk.ite ?_ ?_
    | fail_if_no_progress with_reducible refine ZonesOk.frm ?_)

theorem applyEntries_zonesOk (l : List (Nat × Nat)) (s : State) : ZonesOk s (applyEntries l s) := by
  induction l, s using applyEntries.induct with
  | case1 s => exact ZonesOk.refl _
  | case2 k v s => exact State.applyEntry_zonesOk ..
  | case3 k lo k' hi r s h ih =>
    unfold applyEntries; rw [if_pos h]
    exact ZonesOk.step ih (State.applyEntry_zonesOk ..)
  | case4 k lo k' hi r s h ih =>
    unfold applyEntries; rw [if_neg h]
    exact ZonesOk.step ih (State.applyEntry_zonesOk ..)

theorem execParameterRecordReceived_zonesOk (bytes : List Byte) (t : Nat) (s : State) : AnswersZonesOk s (execParameterRecordReceived bytes t s) := by
  unfold execParameterRecordReceived
  repeat (first
    | with_reducible refine AnswersZonesOk.next ?_
    | with_reducible exact ZonesOk.refl _
    | with_reducible assumption
    | with_reducible apply ZonesOk.step (applyEntries_zonesOk ..)
    | ((with_reducible apply ZonesOk.only (State.goto_only ..)); decide)
    | with_reducible refine ZonesOk.ite ?_ ?_)

theorem execYieldSilence_zonesOk (s : State) : AnswersZonesOk s (execYieldSilence s) := by
  unfold execYieldSilence
  repeat (first
    | with_reducible refine AnswersZonesOk.next ?_
    | with_reducible exact ZonesOk.refl _
    | with_reducible assumption
    | with_reducible apply ZonesOk.step (State.leaveHead_zonesOk ..)
    | with_reducible refine ZonesOk.ite ?_ ?_)

theorem State.clearRun_zonesOk (s : State) : ZonesOk s (State.clearRun s) := by
  unfold State.clearRun
  repeat (first
    | with_reducible exact ZonesOk.refl _
    | with_reducible assumption
    | with_reducible apply ZonesOk.step (State.discardHead_zonesOk ..)
    | ((with_reducible apply ZonesOk.only (State.setRole_only ..)); decide)
    | fail_if_no_progress with_reducible refine ZonesOk.frm_net_evt_cfg ?_
    | fail_if_no_progress with_reducible refine ZonesOk.axes_lines_cams_zones_params (by first | exact id | exact twf_tset _ _ _ | exact wf_mwrite _ _ _ _ | exact wf_merase _ _ _ _ | exact fun w => wf_mwrite _ _ _ _ (wf_mwrite _ _ _ _ w) | exact fun _ => twf_nil _) ?_
    | fail_if_no_progress with_reducible refine ZonesOk.frm ?_
    | fail_if_no_progress with_reducible refine ZonesOk.axes ?_
    | fail_if_no_progress with_reducible refine ZonesOk.lines ?_
    | fail_if_no_progress with_reducible refine ZonesOk.cams ?_
    | fail_if_no_progress with_reducible refine ZonesOk.zones (by first | exact id | exact twf_tset _ _ _ | exact wf_mwrite _ _ _ _ | exact wf_merase _ _ _ _ | exact fun w => wf_mwrite _ _ _ _ (wf_mwrite _ _ _ _ w) | exact fun _ => twf_nil _) ?_
    | fail_if_no_progress with_reducible refine ZonesOk.net ?_
    | fail_if_no_progress with_reducible refine ZonesOk.evt ?_
    | fail_if_no_progress with_reducible refine ZonesOk.params ?_
    | fail_if_no_progress with_reducible refine ZonesOk.cfg ?_)

theorem State.endConfig_zonesOk (s : State) : ZonesOk s (State.endConfig s) := by
  unfold State.endConfig
  repeat (first
    | with_reducible exact ZonesOk.refl _
    | with_reducible assumption
    | with_reducible apply ZonesOk.step (State.clearRun_zonesOk ..)
    | ((with_reducible apply ZonesOk.only (State.stopKernels_only ..)); decide)
    | ((with_reducible apply ZonesOk.only (State.capHalt_only ..)); decide)
    | ((with_reducible apply ZonesOk.only (State.dropSseq_only ..)); decide)
    | ((with_reducible apply ZonesOk.only (State.closeLedgers_only ..)); decide)
    | with_reducible refine ZonesOk.ite ?_ ?_
    | fail_if_no_progress with_reducible refine ZonesOk.fio ?_)

theorem State.switchTo_zonesOk (s : State) (k : Nat) : ZonesOk s (State.switchTo s k) := by
  unfold State.switchTo
  repeat (first
    | with_reducible exact ZonesOk.refl _
    | with_reducible assumption
    | with_reducible apply ZonesOk.step (State.endConfig_zonesOk ..)
    | with_reducible refine ZonesOk.ite ?_ ?_
    | fail_if_no_progress with_reducible refine ZonesOk.cfg ?_)

theorem State.serveSlot_zonesOk (s : State) (p : Nat → Bool) (f : State → Nat → Nat → State) (hf : ∀ y m j, ZonesOk y (f y m j)) : ZonesOk s (State.serveSlot s p f) := by
  unfold State.serveSlot
  repeat (first
    | with_reducible exact ZonesOk.refl _
    | with_reducible assumption
    | with_reducible apply ZonesOk.step (hf ..)
    | ((with_reducible apply ZonesOk.only (State.take_only ..)); decide)
    | with_reducible refine ZonesOk.ite ?_ ?_
    | split
    | (dsimp -proj -beta only []; split))

theorem execCfgActivate_zonesOk (s : State) : AnswersZonesOk s (execCfgActivate s) := by
  unfold execCfgActivate
  repeat (first
    | with_reducible refine AnswersZonesOk.next ?_
    | with_reducible exact ZonesOk.refl _
    | with_reducible assumption
    | with_reducible refine State.serveSlot_zonesOk _ _ _ ?_
    | (intro _ _ _; try beta_reduce)
    | with_reducible apply ZonesOk.step (State.switchTo_zonesOk ..)
    | ((with_reducible apply ZonesOk.only (State.activate_only ..)); decide)
    | ((with_reducible apply ZonesOk.only (State.answer_only ..)); decide)
    | ((with_reducible apply ZonesOk.only (State.raiseDev_only ..)); decide)
    | with_reducible refine ZonesOk.ite ?_ ?_
    | fail_if_no_progress with_reducible refine ZonesOk.cfg ?_)

theorem State.startConfig_zonesOk (s : State) (k : Nat) : ZonesOk s (State.startConfig s k) := by
  unfold State.startConfig
  repeat (first
    | with_reducible exact ZonesOk.refl _
    | with_reducible assumption
    | ((with_reducible apply ZonesOk.only (State.ioStart_only ..)); decide)
    | ((with_reducible apply ZonesOk.only (State.hostStart_only ..)); decide)
    | ((with_reducible apply ZonesOk.only (State.netStart_only ..)); decide)
    | ((with_reducible apply ZonesOk.only (State.enablePorts_only ..)); decide)
    | ((with_reducible apply ZonesOk.only (State.takeImage_only ..)); decide)
    | ((with_reducible apply ZonesOk.only (State.writeTasks_only ..)); decide)
    | with_reducible apply ZonesOk.step (State.initAxes_zonesOk ..)
    | ((with_reducible apply ZonesOk.only (State.ovlShow_only ..)); decide)
    | ((with_reducible apply ZonesOk.only (State.openLedger_only ..)); decide)
    | ((with_reducible apply ZonesOk.only (State.setRole_only ..)); decide)
    | with_reducible refine ZonesOk.ite ?_ ?_
    | with_reducible refine ZonesOk.foldl ?_ ?_
    | (intro _ _ _; try beta_reduce)
    | fail_if_no_progress with_reducible refine ZonesOk.red_cfg ?_
    | fail_if_no_progress with_reducible refine ZonesOk.frm ?_
    | fail_if_no_progress with_reducible refine ZonesOk.red ?_
    | fail_if_no_progress with_reducible refine ZonesOk.cfg ?_)

theorem execBaseConfigStart_zonesOk (s : State) : AnswersZonesOk s (execBaseConfigStart s) := by
  unfold execBaseConfigStart
  repeat (first
    | with_reducible refine AnswersZonesOk.next ?_
    | with_reducible exact ZonesOk.refl _
    | with_reducible assumption
    | ((with_reducible apply ZonesOk.only (State.refuseConfig_only ..)); decide)
    | with_reducible apply ZonesOk.step (State.startConfig_zonesOk ..)
    | with_reducible refine ZonesOk.ite ?_ ?_
    | split
    | (dsimp -proj -beta only []; split))

theorem State.setEntry_zonesOk (s : State) (e : Nat × W64) : ZonesOk s (State.setEntry s e) := by
  unfold State.setEntry
  repeat (first
    | with_reducible exact ZonesOk.refl _
    | with_reducible assumption
    | with_reducible apply ZonesOk.step (State.applyEntry_zonesOk ..)
    | fail_if_no_progress with_reducible refine ZonesOk.red ?_)

theorem State.decideWrite_zonesOk (s : State) (t : Taken) : ZonesOk s (State.decideWrite s t) := by
  unfold State.decideWrite
  repeat (first
    | with_reducible exact ZonesOk.refl _
    | with_reducible assumption
    | with_reducible apply ZonesOk.step (State.setEntry_zonesOk ..)
    | ((with_reducible apply ZonesOk.only (State.answer_only ..)); decide)
    | ((with_reducible apply ZonesOk.only (State.pulse_only ..)); decide)
    | with_reducible refine ZonesOk.foldl ?_ ?_
    | (intro _ _ _; try beta_reduce)
    | split
    | (dsimp -proj -beta only []; split))

theorem State.autoFreeze_zonesOk (s : State) (es : List (Nat × W64)) : ZonesOk s (State.autoFreeze s es) := by
  unfold State.autoFreeze
  repeat (first
    | with_reducible exact ZonesOk.refl _
    | with_reducible assumption
    | with_reducible apply ZonesOk.step (State.setZone_zonesOk ..)
    | ((with_reducible apply ZonesOk.only (State.setAxis_only ..)); decide)
    | with_reducible refine ZonesOk.foldl ?_ ?_
    | (intro _ _ _; try beta_reduce)
    | split
    | (dsimp -proj -beta only []; split))

theorem State.decideOvl_zonesOk (s : State) (t : Taken) : ZonesOk s (State.decideOvl s t) := by
  unfold State.decideOvl
  repeat (first
    | with_reducible exact ZonesOk.refl _
    | with_reducible assumption
    | with_reducible apply ZonesOk.step (State.autoFreeze_zonesOk ..)
    | with_reducible apply ZonesOk.step (State.setEntry_zonesOk ..)
    | ((with_reducible apply ZonesOk.only (State.answer_only ..)); decide)
    | ((with_reducible apply ZonesOk.only (State.raiseDev_only ..)); decide)
    | ((with_reducible apply ZonesOk.only (State.pulse_only ..)); decide)
    | with_reducible refine ZonesOk.ite ?_ ?_
    | with_reducible refine ZonesOk.foldl ?_ ?_
    | (intro _ _ _; try beta_reduce)
    | split
    | (dsimp -proj -beta only []; split))

theorem State.decideCfg_zonesOk (s : State) (t : Taken) : ZonesOk s (State.decideCfg s t) := by
  unfold State.decideCfg
  repeat (first
    | with_reducible exact ZonesOk.refl _
    | with_reducible assumption
    | with_reducible apply ZonesOk.step (State.switchTo_zonesOk ..)
    | ((with_reducible apply ZonesOk.only (State.activate_only ..)); decide)
    | ((with_reducible apply ZonesOk.only (State.answer_only ..)); decide)
    | with_reducible refine ZonesOk.ite ?_ ?_)

theorem State.decideOne_zonesOk (s : State) (t : Taken) : ZonesOk s (State.decideOne s t) := by
  unfold State.decideOne
  repeat (first
    | with_reducible exact ZonesOk.refl _
    | with_reducible assumption
    | with_reducible apply ZonesOk.step (State.decideCfg_zonesOk ..)
    | with_reducible apply ZonesOk.step (State.decideOvl_zonesOk ..)
    | with_reducible apply ZonesOk.step (State.decideWrite_zonesOk ..)
    | ((with_reducible apply ZonesOk.only (State.answer_only ..)); decide)
    | with_reducible refine ZonesOk.ite ?_ ?_)

theorem State.decideTaken_zonesOk (s : State) : ZonesOk s (State.decideTaken s) := by
  unfold State.decideTaken
  repeat (first
    | with_reducible exact ZonesOk.refl _
    | with_reducible assumption
    | with_reducible apply ZonesOk.step (State.decideOne_zonesOk ..)
    | with_reducible refine ZonesOk.foldl ?_ ?_
    | (intro _ _ _; try beta_reduce))

theorem State.imageUsed_zonesOk (s : State) : ZonesOk s (State.imageUsed s) := by
  unfold State.imageUsed
  repeat (first
    | with_reducible exact ZonesOk.refl _
    | with_reducible assumption
    | ((with_reducible apply ZonesOk.only (State.setLine_only ..)); decide)
    | with_reducible apply ZonesOk.step (State.setZone_zonesOk ..)
    | ((with_reducible apply ZonesOk.only (State.setAxis_only ..)); decide)
    | with_reducible refine ZonesOk.foldl ?_ ?_
    | (intro _ _ _; try beta_reduce))

theorem State.shiftFrame_zonesOk (s : State) : ZonesOk s (State.shiftFrame s) := by
  unfold State.shiftFrame
  repeat (first
    | with_reducible exact ZonesOk.refl _
    | with_reducible assumption
    | ((with_reducible apply ZonesOk.only (State.mapAxes_only ..)); decide)
    | ((with_reducible apply ZonesOk.only (State.setLine_only ..)); decide)
    | with_reducible apply ZonesOk.step (State.setZone_zonesOk ..)
    | with_reducible refine ZonesOk.foldl ?_ ?_
    | (intro _ _ _; try beta_reduce))

theorem State.axisBoundary_zonesOk (s : State) : ZonesOk s (State.axisBoundary s) := by
  unfold State.axisBoundary
  repeat (first
    | with_reducible exact ZonesOk.refl _
    | with_reducible assumption
    | with_reducible apply ZonesOk.step (State.shiftFrame_zonesOk ..)
    | ((with_reducible apply ZonesOk.only (State.derateGroups_only ..)); decide)
    | ((with_reducible apply ZonesOk.only (State.stopGroups_only ..)); decide)
    | ((with_reducible apply ZonesOk.only (State.applyFaults_only ..)); decide)
    | ((with_reducible apply ZonesOk.only (State.axAnswers_only ..)); decide)
    | ((with_reducible apply ZonesOk.only (Only.eq_fst (State.axRun_only ..) (by assumption))); decide)
    | ((with_reducible apply ZonesOk.only (State.axRun_only ..)); decide)
    | ((with_reducible apply ZonesOk.only (State.mapAxes_only ..)); decide)
    | split
    | (dsimp -proj -beta only []; split))

theorem State.headBoundary_zonesOk (s : State) : ZonesOk s (State.headBoundary s) := by
  unfold State.headBoundary
  repeat (first
    | with_reducible exact ZonesOk.refl _
    | with_reducible assumption
    | with_reducible apply ZonesOk.step (State.axisBoundary_zonesOk ..)
    | ((with_reducible apply ZonesOk.only (State.startYield_only ..)); decide)
    | ((with_reducible apply ZonesOk.only (State.endStops_only ..)); decide)
    | with_reducible apply ZonesOk.step (State.decideTaken_zonesOk ..)
    | ((with_reducible apply ZonesOk.only (State.axAnswers_only ..)); decide)
    | ((with_reducible apply ZonesOk.only (Only.eq_fst (State.axRun_only ..) (by assumption))); decide)
    | ((with_reducible apply ZonesOk.only (State.axRun_only ..)); decide)
    | with_reducible refine ZonesOk.ite ?_ ?_
    | fail_if_no_progress with_reducible refine ZonesOk.evt ?_
    | split
    | (dsimp -proj -beta only []; split))

theorem State.otherBoundary_zonesOk (s : State) : ZonesOk s (State.otherBoundary s) := by
  unfold State.otherBoundary
  repeat (first
    | with_reducible exact ZonesOk.refl _
    | with_reducible assumption
    | with_reducible apply ZonesOk.step (State.decideTaken_zonesOk ..)
    | fail_if_no_progress with_reducible refine ZonesOk.red_evt ?_
    | fail_if_no_progress with_reducible refine ZonesOk.red ?_
    | fail_if_no_progress with_reducible refine ZonesOk.evt ?_)

theorem State.ioBoundary_zonesOk (s : State) : ZonesOk s (State.ioBoundary s) := by
  unfold State.ioBoundary
  repeat (first
    | with_reducible exact ZonesOk.refl _
    | with_reducible assumption
    | ((with_reducible apply ZonesOk.only (State.takeOutput_only ..)); decide)
    | with_reducible apply ZonesOk.step (State.imageUsed_zonesOk ..)
    | ((with_reducible apply ZonesOk.only (State.capBoundary_only ..)); decide)
    | ((with_reducible apply ZonesOk.only (State.fioBoundary_only ..)); decide)
    | ((with_reducible apply ZonesOk.only (State.imgCheck_only ..)); decide)
    | with_reducible refine ZonesOk.ite ?_ ?_)

theorem execTickTakesEffect_zonesOk (s : State) : AnswersZonesOk s (execTickTakesEffect s) := by
  unfold execTickTakesEffect
  repeat (first
    | with_reducible refine AnswersZonesOk.next ?_
    | with_reducible exact ZonesOk.refl _
    | with_reducible assumption
    | ((with_reducible apply ZonesOk.only (State.boundaryEnd_only ..)); decide)
    | with_reducible apply ZonesOk.step (State.ioBoundary_zonesOk ..)
    | ((with_reducible apply ZonesOk.only (State.fullClock_only ..)); decide)
    | with_reducible apply ZonesOk.step (State.otherBoundary_zonesOk ..)
    | with_reducible apply ZonesOk.step (State.headBoundary_zonesOk ..)
    | ((with_reducible apply ZonesOk.only (State.takeDecim_only ..)); decide)
    | with_reducible apply ZonesOk.step (State.switchTo_zonesOk ..)
    | ((with_reducible apply ZonesOk.only (State.gotoLatency_only ..)); decide)
    | with_reducible refine ZonesOk.ite ?_ ?_
    | fail_if_no_progress with_reducible refine ZonesOk.frm ?_
    | split
    | (dsimp -proj -beta only []; split))

end Sys2Proof.Machine
end

