-- ==== Sys2Proof/Laws/Time.lean ====
section
/-! SUPPORT. Device time never decreases but where a part takes its time from its head and where the core die is reset (R25, R27) -/

set_option linter.unusedTactic false
set_option linter.unreachableTactic false

namespace Sys2Proof.Machine

/-- Device time at t is not before that at s. -/
structure Later (s t : State) : Prop where
  out : s.frm.now ≤ t.frm.now

/-- A meaning answers a next state so related to s. -/
structure AnswersLater (s : State) (o : Out) : Prop where
  out : ∃ t, o = .next t ∧ Later s t

theorem Later.refl (s : State) : Later s s := ⟨Nat.le_refl _⟩

theorem Later.trans {s t u : State} (h : Later s t) (g : Later t u) : Later s u := ⟨Nat.le_trans h.out g.out⟩

theorem Later.step {s t u : State} (g : Later t u) (h : Later s t) : Later s u := h.trans g

theorem Later.only {v : List Part} {s t u : State} (g : Only v t u) (hv : v.contains Part.frm = false) (h : Later s t) : Later s u :=
  ⟨(g.out .frm hv : u.frm = t.frm) ▸ h.out⟩

theorem Later.ite {s a b : State} {c : Prop} [Decidable c] (ha : Later s a) (hb : Later s b) : Later s (if c then a else b) := by
  split <;> assumption

theorem Later.foldl {α : Type} {s : State} {f : State → α → State} {l : List α} {x : State}
    (hf : ∀ y a, Later s y → Later s (f y a)) (hx : Later s x) : Later s (l.foldl f x) := by
  induction l generalizing x with
  | nil => exact hx
  | cons a l ih => exact ih (hf x a hx)

theorem Later.eq_fst {α : Type} {t a : State} {p : State × α} {b : α} (h : Later t p.1) (e : p = (a, b)) : Later t a := by
  subst e; exact h

theorem Later.eq_snd {α : Type} {t a : State} {p : α × State} {b : α} (h : Later t p.2) (e : p = (b, a)) : Later t a := by
  subst e; exact h

theorem AnswersLater.next {s t : State} (h : Later s t) : AnswersLater s (.next t) := ⟨t, rfl, h⟩

theorem Later.rfl {a : Frm} : a.now ≤ a.now := Nat.le_refl _

theorem Later.upd {s x y : State} (h : Later s x) (g : x.frm.now ≤ y.frm.now) : Later s y := ⟨Nat.le_trans h.out g⟩


theorem Later.frm {s x : State} {v0 : Frm} (g : x.frm.now ≤ v0.now) (h : Later s x) :
    Later s { x with frm := v0 } := by
  exact Later.upd h g

theorem Later.axes {s x : State} {v0 : Tbl Axis} (h : Later s x) :
    Later s { x with axes := v0 } := by
  exact Later.upd h Later.rfl

theorem Later.lines {s x : State} {v0 : Tbl Line} (h : Later s x) :
    Later s { x with lines := v0 } := by
  exact Later.upd h Later.rfl

theorem Later.cams {s x : State} {v0 : Tbl CamTable} (h : Later s x) :
    Later s { x with cams := v0 } := by
  exact Later.upd h Later.rfl

theorem Later.camStg {s x : State} {v0 : Tbl (List Host.Cell)} (h : Later s x) :
    Later s { x with camStg := v0 } := by
  exact Later.upd h Later.rfl

theorem Later.zones {s x : State} {v0 : Tbl Zone} (h : Later s x) :
    Later s { x with zones := v0 } := by
  exact Later.upd h Later.rfl

theorem Later.steps {s x : State} {v0 : Tbl StepCh} (h : Later s x) :
    Later s { x with steps := v0 } := by
  exact Later.upd h Later.rfl

theorem Later.encs {s x : State} {v0 : Tbl Enc} (h : Later s x) :
    Later s { x with encs := v0 } := by
  exact Later.upd h Later.rfl

theorem Later.net {s x : State} {v0 : Net} (h : Later s x) :
    Later s { x with net := v0 } := by
  exact Later.upd h Later.rfl

theorem Later.dsp {s x : State} {v0 : Dsp} (h : Later s x) :
    Later s { x with dsp := v0 } := by
  exact Later.upd h Later.rfl

theorem Later.red {s x : State} {v0 : Red} (h : Later s x) :
    Later s { x with red := v0 } := by
  exact Later.upd h Later.rfl

theorem Later.saf {s x : State} {v0 : Saf} (h : Later s x) :
    Later s { x with saf := v0 } := by
  exact Later.upd h Later.rfl

theorem Later.fio {s x : State} {v0 : Fio} (h : Later s x) :
    Later s { x with fio := v0 } := by
  exact Later.upd h Later.rfl

theorem Later.cap {s x : State} {v0 : Cap} (h : Later s x) :
    Later s { x with cap := v0 } := by
  exact Later.upd h Later.rfl

theorem Later.prf {s x : State} {v0 : Prf} (h : Later s x) :
    Later s { x with prf := v0 } := by
  exact Later.upd h Later.rfl

theorem Later.host {s x : State} {v0 : Hst} (h : Later s x) :
    Later s { x with host := v0 } := by
  exact Later.upd h Later.rfl

theorem Later.evt {s x : State} {v0 : Evt} (h : Later s x) :
    Later s { x with evt := v0 } := by
  exact Later.upd h Later.rfl

theorem Later.params {s x : State} {v0 : Tbl W64} (h : Later s x) :
    Later s { x with params := v0 } := by
  exact Later.upd h Later.rfl

theorem Later.cfg {s x : State} {v0 : Cfg} (h : Later s x) :
    Later s { x with cfg := v0 } := by
  exact Later.upd h Later.rfl

theorem Later.pwr {s x : State} {v0 : Pwr} (h : Later s x) :
    Later s { x with pwr := v0 } := by
  exact Later.upd h Later.rfl

theorem Later.lgr {s x : State} {v0 : Lgr} (h : Later s x) :
    Later s { x with lgr := v0 } := by
  exact Later.upd h Later.rfl

theorem Later.pending {s x : State} {v0 : List Instr} (h : Later s x) :
    Later s { x with pending := v0 } := by
  exact Later.upd h Later.rfl

theorem Later.axes_lines_cams_zones_params {s x : State} {v0 : Tbl Axis} {v1 : Tbl Line} {v2 : Tbl CamTable} {v3 : Tbl Zone} {v4 : Tbl W64} (h : Later s x) :
    Later s { x with axes := v0, lines := v1, cams := v2, zones := v3, params := v4 } := by
  exact Later.upd h Later.rfl

theorem Later.axes_lines_zones {s x : State} {v0 : Tbl Axis} {v1 : Tbl Line} {v2 : Tbl Zone} (h : Later s x) :
    Later s { x with axes := v0, lines := v1, zones := v2 } := by
  exact Later.upd h Later.rfl

theorem Later.cams_camStg_evt_params {s x : State} {v0 : Tbl CamTable} {v1 : Tbl (List Host.Cell)} {v2 : Evt} {v3 : Tbl W64} (h : Later s x) :
    Later s { x with cams := v0, camStg := v1, evt := v2, params := v3 } := by
  exact Later.upd h Later.rfl

theorem Later.dsp_prf {s x : State} {v0 : Dsp} {v1 : Prf} (h : Later s x) :
    Later s { x with dsp := v0, prf := v1 } := by
  exact Later.upd h Later.rfl

theorem Later.fio_cap {s x : State} {v0 : Fio} {v1 : Cap} (h : Later s x) :
    Later s { x with fio := v0, cap := v1 } := by
  exact Later.upd h Later.rfl

theorem Later.frm_cams {s x : State} {v0 : Frm} {v1 : Tbl CamTable} (g : x.frm.now ≤ v0.now) (h : Later s x) :
    Later s { x with frm := v0, cams := v1 } := by
  exact Later.upd h g

theorem Later.frm_dsp {s x : State} {v0 : Frm} {v1 : Dsp} (g : x.frm.now ≤ v0.now) (h : Later s x) :
    Later s { x with frm := v0, dsp := v1 } := by
  exact Later.upd h g

theorem Later.frm_evt_pwr {s x : State} {v0 : Frm} {v1 : Evt} {v2 : Pwr} (g : x.frm.now ≤ v0.now) (h : Later s x) :
    Later s { x with frm := v0, evt := v1, pwr := v2 } := by
  exact Later.upd h g

theorem Later.frm_fio {s x : State} {v0 : Frm} {v1 : Fio} (g : x.frm.now ≤ v0.now) (h : Later s x) :
    Later s { x with frm := v0, fio := v1 } := by
  exact Later.upd h g

theorem Later.frm_host_cfg_pwr {s x : State} {v0 : Frm} {v1 : Hst} {v2 : Cfg} {v3 : Pwr} (g : x.frm.now ≤ v0.now) (h : Later s x) :
    Later s { x with frm := v0, host := v1, cfg := v2, pwr := v3 } := by
  exact Later.upd h g

theorem Later.frm_net {s x : State} {v0 : Frm} {v1 : Net} (g : x.frm.now ≤ v0.now) (h : Later s x) :
    Later s { x with frm := v0, net := v1 } := by
  exact Later.upd h g

theorem Later.frm_net_evt_cfg {s x : State} {v0 : Frm} {v1 : Net} {v2 : Evt} {v3 : Cfg} (g : x.frm.now ≤ v0.now) (h : Later s x) :
    Later s { x with frm := v0, net := v1, evt := v2, cfg := v3 } := by
  exact Later.upd h g

theorem Later.frm_net_red {s x : State} {v0 : Frm} {v1 : Net} {v2 : Red} (g : x.frm.now ≤ v0.now) (h : Later s x) :
    Later s { x with frm := v0, net := v1, red := v2 } := by
  exact Later.upd h g

theorem Later.host_pwr {s x : State} {v0 : Hst} {v1 : Pwr} (h : Later s x) :
    Later s { x with host := v0, pwr := v1 } := by
  exact Later.upd h Later.rfl

theorem Later.lines_red_evt {s x : State} {v0 : Tbl Line} {v1 : Red} {v2 : Evt} (h : Later s x) :
    Later s { x with lines := v0, red := v1, evt := v2 } := by
  exact Later.upd h Later.rfl

theorem Later.net_fio {s x : State} {v0 : Net} {v1 : Fio} (h : Later s x) :
    Later s { x with net := v0, fio := v1 } := by
  exact Later.upd h Later.rfl

theorem Later.net_red {s x : State} {v0 : Net} {v1 : Red} (h : Later s x) :
    Later s { x with net := v0, red := v1 } := by
  exact Later.upd h Later.rfl

theorem Later.net_red_evt {s x : State} {v0 : Net} {v1 : Red} {v2 : Evt} (h : Later s x) :
    Later s { x with net := v0, red := v1, evt := v2 } := by
  exact Later.upd h Later.rfl

theorem Later.prf_pwr {s x : State} {v0 : Prf} {v1 : Pwr} (h : Later s x) :
    Later s { x with prf := v0, pwr := v1 } := by
  exact Later.upd h Later.rfl

theorem Later.pwr_lgr {s x : State} {v0 : Pwr} {v1 : Lgr} (h : Later s x) :
    Later s { x with pwr := v0, lgr := v1 } := by
  exact Later.upd h Later.rfl

theorem Later.red_cfg {s x : State} {v0 : Red} {v1 : Cfg} (h : Later s x) :
    Later s { x with red := v0, cfg := v1 } := by
  exact Later.upd h Later.rfl

theorem Later.red_evt {s x : State} {v0 : Red} {v1 : Evt} (h : Later s x) :
    Later s { x with red := v0, evt := v1 } := by
  exact Later.upd h Later.rfl

theorem Later.saf_cfg {s x : State} {v0 : Saf} {v1 : Cfg} (h : Later s x) :
    Later s { x with saf := v0, cfg := v1 } := by
  exact Later.upd h Later.rfl

theorem Later.saf_host_cfg {s x : State} {v0 : Saf} {v1 : Hst} {v2 : Cfg} (h : Later s x) :
    Later s { x with saf := v0, host := v1, cfg := v2 } := by
  exact Later.upd h Later.rfl

theorem Later.saf_pwr {s x : State} {v0 : Saf} {v1 : Pwr} (h : Later s x) :
    Later s { x with saf := v0, pwr := v1 } := by
  exact Later.upd h Later.rfl

theorem Later.saf_pwr_lgr {s x : State} {v0 : Saf} {v1 : Pwr} {v2 : Lgr} (h : Later s x) :
    Later s { x with saf := v0, pwr := v1, lgr := v2 } := by
  exact Later.upd h Later.rfl

theorem State.setRole_later (s : State) (r : Role) : Later s (State.setRole s r) := by
  unfold State.setRole
  repeat (first
    | with_reducible exact Later.refl _
    | with_reducible assumption
    | ((with_reducible apply Later.only (State.irq_only ..)); decide)
    | with_reducible refine Later.ite ?_ ?_
    | fail_if_no_progress with_reducible refine Later.frm (by first | exact Nat.le_refl _ | exact Nat.le_add_right _ _) ?_)

theorem State.advance_later (s : State) (t : Nat) : Later s (State.advance s t) := by
  unfold State.advance
  repeat (first
    | with_reducible exact Later.refl _
    | with_reducible assumption
    | ((with_reducible apply Later.only (State.coreTime_only ..)); decide)
    | fail_if_no_progress with_reducible refine Later.frm (by first | exact Nat.le_refl _ | exact Nat.le_add_right _ _) ?_)

theorem State.goto_later (s : State) (t : Nat) : Later s (State.goto s t) := by
  unfold State.goto
  repeat (first
    | with_reducible exact Later.refl _
    | with_reducible assumption
    | ((with_reducible apply Later.only (State.raiseDev_only ..)); decide)
    | ((with_reducible apply Later.only (State.markEv_only ..)); decide)
    | with_reducible apply Later.step (State.advance_later ..)
    | with_reducible refine Later.ite ?_ ?_
    | fail_if_no_progress with_reducible refine Later.pwr ?_)

theorem State.gotoPhase_later (s : State) (p : Nat) : Later s (State.gotoPhase s p) := by
  unfold State.gotoPhase
  repeat (first
    | with_reducible exact Later.refl _
    | with_reducible assumption
    | with_reducible apply Later.step (State.goto_later ..))

theorem State.gotoLatency_later (s : State) (e : Nat) : Later s (State.gotoLatency s e) := by
  unfold State.gotoLatency
  repeat (first
    | with_reducible exact Later.refl _
    | with_reducible assumption
    | with_reducible apply Later.step (State.gotoPhase_later ..)
    | with_reducible apply Later.step (State.goto_later ..))

theorem State.place_later (s : State) (l k : Nat) : Later s (State.place s l k) := by
  unfold State.place
  repeat (first
    | with_reducible exact Later.refl _
    | with_reducible assumption
    | ((with_reducible apply Later.only (State.tagDispatch_only ..)); decide)
    | ((with_reducible apply Later.only (State.trace_only ..)); decide)
    | ((with_reducible apply Later.only (State.setReady_only ..)); decide)
    | with_reducible apply Later.step (State.goto_later ..)
    | ((with_reducible apply Later.only (State.pulse_only ..)); decide)
    | ((with_reducible apply Later.only (State.setTask_only ..)); decide)
    | with_reducible refine Later.ite ?_ ?_
    | fail_if_no_progress with_reducible refine Later.dsp ?_
    | split
    | (dsimp -proj -beta only []; split))

theorem execKernelDispatch_later (s : State) : AnswersLater s (execKernelDispatch s) := by
  unfold execKernelDispatch
  repeat (first
    | with_reducible refine AnswersLater.next ?_
    | with_reducible exact Later.refl _
    | with_reducible assumption
    | with_reducible apply Later.step (State.place_later ..)
    | ((with_reducible apply Later.only (State.gateCheck_only ..)); decide)
    | with_reducible refine Later.ite ?_ ?_
    | split
    | (dsimp -proj -beta only []; split))

theorem execSlotEvent_later (b : Fin 8) (p : Fin 32) (s : State) : AnswersLater s (execSlotEvent b p s) := by
  unfold execSlotEvent
  repeat (first
    | with_reducible refine AnswersLater.next ?_
    | with_reducible exact Later.refl _
    | with_reducible assumption
    | ((with_reducible apply Later.only (State.decrements_only ..)); decide)
    | with_reducible apply Later.step (State.gotoPhase_later ..)
    | ((with_reducible apply Later.only (State.setNode_only ..)); decide)
    | with_reducible refine Later.ite ?_ ?_
    | split
    | (dsimp -proj -beta only []; split))

theorem execLnFeedbackValid_later (s : State) : AnswersLater s (execLnFeedbackValid s) := by
  unfold execLnFeedbackValid
  repeat (first
    | with_reducible refine AnswersLater.next ?_
    | with_reducible exact Later.refl _
    | with_reducible assumption
    | ((with_reducible apply Later.only (State.decrements_only ..)); decide)
    | with_reducible apply Later.step (State.goto_later ..)
    | with_reducible refine Later.ite ?_ ?_)

theorem State.gotoExpiry_later (s : State) (d : Nat) : Later s (State.gotoExpiry s d) := by
  unfold State.gotoExpiry
  repeat (first
    | with_reducible exact Later.refl _
    | with_reducible assumption
    | with_reducible apply Later.step (State.gotoLatency_later ..)
    | with_reducible refine Later.ite ?_ ?_)

theorem execDelayExpiry_later (d : Fin 1024) (s : State) : AnswersLater s (execDelayExpiry d s) := by
  unfold execDelayExpiry
  repeat (first
    | with_reducible refine AnswersLater.next ?_
    | with_reducible exact Later.refl _
    | with_reducible assumption
    | with_reducible apply Later.step (State.gotoExpiry_later ..)
    | ((with_reducible apply Later.only (State.kick_only ..)); decide)
    | ((with_reducible apply Later.only (State.enterReady_only ..)); decide)
    | ((with_reducible apply Later.only (State.trace_only ..)); decide)
    | with_reducible refine Later.ite ?_ ?_)

theorem execTimeoutExpiry_later (d : Fin 1024) (s : State) : AnswersLater s (execTimeoutExpiry d s) := by
  unfold execTimeoutExpiry
  repeat (first
    | with_reducible refine AnswersLater.next ?_
    | with_reducible exact Later.refl _
    | with_reducible assumption
    | with_reducible apply Later.step (State.gotoExpiry_later ..)
    | ((with_reducible apply Later.only (State.kick_only ..)); decide)
    | ((with_reducible apply Later.only (State.enterReady_only ..)); decide)
    | ((with_reducible apply Later.only (State.trace_only ..)); decide)
    | ((with_reducible apply Later.only (State.pulse_only ..)); decide)
    | ((with_reducible apply Later.only (State.setTask_only ..)); decide)
    | with_reducible refine Later.ite ?_ ?_
    | fail_if_no_progress with_reducible refine Later.dsp ?_)

theorem execThreadBlock_later (fp : Fin 4) (base : Fin 3) (delay t : Nat) (s : State) : AnswersLater s (execThreadBlock fp base delay t s) := by
  unfold execThreadBlock
  repeat (first
    | with_reducible refine AnswersLater.next ?_
    | with_reducible exact Later.refl _
    | with_reducible assumption
    | ((with_reducible apply Later.only (State.idleFp_only ..)); decide)
    | ((with_reducible apply Later.only (State.beginWait_only ..)); decide)
    | ((with_reducible apply Later.only (State.startThread_only ..)); decide)
    | with_reducible apply Later.step (State.goto_later ..)
    | split
    | (dsimp -proj -beta only []; split))

theorem execSubTick_later (s : State) : AnswersLater s (execSubTick s) := by
  unfold execSubTick
  repeat (first
    | with_reducible refine AnswersLater.next ?_
    | with_reducible exact Later.refl _
    | with_reducible assumption
    | with_reducible apply Later.step (State.goto_later ..)
    | ((with_reducible apply Later.only (State.pulseX_only ..)); decide)
    | fail_if_no_progress with_reducible refine Later.dsp ?_)

theorem State.frameOverrun_later (s : State) (i : Nat) : Later s (State.frameOverrun s i) := by
  unfold State.frameOverrun
  repeat (first
    | with_reducible exact Later.refl _
    | with_reducible assumption
    | ((with_reducible apply Later.only (State.raiseAx_only ..)); decide)
    | with_reducible refine Later.ite ?_ ?_
    | fail_if_no_progress with_reducible refine Later.frm (by first | exact Nat.le_refl _ | exact Nat.le_add_right _ _) ?_)

theorem State.missDeadline_later (s : State) (ids : List Nat) : Later s (State.missDeadline s ids) := by
  unfold State.missDeadline
  repeat (first
    | with_reducible exact Later.refl _
    | with_reducible assumption
    | with_reducible apply Later.step (State.frameOverrun_later ..)
    | ((with_reducible apply Later.only (State.abandon_only ..)); decide)
    | ((with_reducible apply Later.only (State.mapAxes_only ..)); decide)
    | with_reducible refine Later.foldl ?_ ?_
    | (intro _ _ _; try beta_reduce))

theorem execLnKernelDeadline_later (s : State) : AnswersLater s (execLnKernelDeadline s) := by
  unfold execLnKernelDeadline
  repeat (first
    | with_reducible refine AnswersLater.next ?_
    | with_reducible exact Later.refl _
    | with_reducible assumption
    | with_reducible apply Later.step (State.missDeadline_later ..)
    | ((with_reducible apply Later.only (State.abandonZones_only ..)); decide)
    | with_reducible apply Later.step (State.goto_later ..)
    | with_reducible refine Later.ite ?_ ?_)

theorem execOverrunSeries_later (s : State) : AnswersLater s (execOverrunSeries s) := by
  unfold execOverrunSeries
  repeat (first
    | with_reducible refine AnswersLater.next ?_
    | with_reducible exact Later.refl _
    | with_reducible assumption
    | ((with_reducible apply Later.only (State.raiseDev_only ..)); decide)
    | with_reducible refine Later.ite ?_ ?_
    | fail_if_no_progress with_reducible refine Later.frm (by first | exact Nat.le_refl _ | exact Nat.le_add_right _ _) ?_)

theorem execU0TrailingSkip_later (s : State) : AnswersLater s (execU0TrailingSkip s) := by
  unfold execU0TrailingSkip
  repeat (first
    | with_reducible refine AnswersLater.next ?_
    | with_reducible exact Later.refl _
    | with_reducible assumption
    | ((with_reducible apply Later.only (State.skipOne_only ..)); decide)
    | ((with_reducible apply Later.only (State.gateCheck_only ..)); decide)
    | with_reducible apply Later.step (State.goto_later ..)
    | with_reducible refine Later.ite ?_ ?_
    | with_reducible refine Later.foldl ?_ ?_
    | (intro _ _ _; try beta_reduce)
    | fail_if_no_progress with_reducible refine Later.frm (by first | exact Nat.le_refl _ | exact Nat.le_add_right _ _) ?_
    | fail_if_no_progress with_reducible refine Later.dsp ?_)

theorem execFwDeadline_later (fp : Fin 4) (s : State) : AnswersLater s (execFwDeadline fp s) := by
  unfold execFwDeadline
  repeat (first
    | with_reducible refine AnswersLater.next ?_
    | with_reducible exact Later.refl _
    | with_reducible assumption
    | ((with_reducible apply Later.only (State.raiseDev_only ..)); decide)
    | with_reducible refine Later.ite ?_ ?_
    | fail_if_no_progress with_reducible refine Later.frm_dsp (by first | exact Nat.le_refl _ | exact Nat.le_add_right _ _) ?_
    | fail_if_no_progress with_reducible refine Later.frm (by first | exact Nat.le_refl _ | exact Nat.le_add_right _ _) ?_
    | fail_if_no_progress with_reducible refine Later.dsp ?_)

theorem State.rxFrame_later (s : State) (b t : Nat) (f : List Byte) (err : Bool) : Later s (State.rxFrame s b t f err) := by
  unfold State.rxFrame
  repeat (first
    | with_reducible exact Later.refl _
    | with_reducible assumption
    | ((with_reducible apply Later.only (State.relay_only ..)); decide)
    | ((with_reducible apply Later.only (State.bwFrame_only ..)); decide)
    | with_reducible apply Later.step (State.goto_later ..)
    | ((with_reducible apply Later.only (State.setPort_only ..)); decide)
    | with_reducible refine Later.ite ?_ ?_)

theorem execStaticFrameReceived_later (b : Fin 8) (bytes : List Byte) (t : Nat) (err : Bool) (s : State) : AnswersLater s (execStaticFrameReceived b bytes t err s) := by
  unfold execStaticFrameReceived
  repeat (first
    | with_reducible refine AnswersLater.next ?_
    | with_reducible exact Later.refl _
    | with_reducible assumption
    | ((with_reducible apply Later.only (State.judgeStatic_only ..)); decide)
    | ((with_reducible apply Later.only (State.stray_only ..)); decide)
    | with_reducible apply Later.step (State.rxFrame_later ..)
    | with_reducible refine Later.ite ?_ ?_)

theorem execSlotDeadline_later (b : Fin 8) (p : Fin 32) (s : State) : AnswersLater s (execSlotDeadline b p s) := by
  unfold execSlotDeadline
  repeat (first
    | with_reducible refine AnswersLater.next ?_
    | with_reducible exact Later.refl _
    | with_reducible assumption
    | ((with_reducible apply Later.only (State.slotHappens_only ..)); decide)
    | with_reducible apply Later.step (State.goto_later ..)
    | with_reducible refine Later.ite ?_ ?_)

theorem execDynamicUplinkReceived_later (b : Fin 8) (bytes : List Byte) (t : Nat) (err : Bool) (s : State) : AnswersLater s (execDynamicUplinkReceived b bytes t err s) := by
  unfold execDynamicUplinkReceived
  repeat (first
    | with_reducible refine AnswersLater.next ?_
    | with_reducible exact Later.refl _
    | with_reducible assumption
    | ((with_reducible apply Later.only (State.credit_only ..)); decide)
    | ((with_reducible apply Later.only (State.dynTake_only ..)); decide)
    | ((with_reducible apply Later.only (State.stray_only ..)); decide)
    | with_reducible apply Later.step (State.rxFrame_later ..)
    | with_reducible refine Later.ite ?_ ?_
    | split
    | (dsimp -proj -beta only []; split))

theorem execSlotOutcomeFinal_later (b : Fin 8) (s : State) : AnswersLater s (execSlotOutcomeFinal b s) := by
  unfold execSlotOutcomeFinal
  repeat (first
    | with_reducible refine AnswersLater.next ?_
    | with_reducible exact Later.refl _
    | with_reducible assumption
    | ((with_reducible apply Later.only (State.finalSlot_only ..)); decide)
    | with_reducible apply Later.step (State.goto_later ..)
    | ((with_reducible apply Later.only (State.setBranch_only ..)); decide)
    | with_reducible refine Later.ite ?_ ?_
    | with_reducible refine Later.foldl ?_ ?_
    | (intro _ _ _; try beta_reduce)
    | fail_if_no_progress with_reducible refine Later.net ?_)

theorem State.startBlock_later (s : State) (b : Nat) : Later s (State.startBlock s b) := by
  unfold State.startBlock
  repeat (first
    | with_reducible exact Later.refl _
    | with_reducible assumption
    | ((with_reducible apply Later.only (State.turn_only ..)); decide)
    | ((with_reducible apply Later.only (State.tagPack_only ..)); decide)
    | ((with_reducible apply Later.only (State.bwFrame_only ..)); decide)
    | ((with_reducible apply Later.only (State.pulseX_only ..)); decide)
    | ((with_reducible apply Later.only (State.setBranch_only ..)); decide)
    | with_reducible refine Later.ite ?_ ?_
    | fail_if_no_progress with_reducible refine Later.frm (by first | exact Nat.le_refl _ | exact Nat.le_add_right _ _) ?_)

theorem execCommandBlockStart_later (b : Fin 8) (s : State) : AnswersLater s (execCommandBlockStart b s) := by
  unfold execCommandBlockStart
  repeat (first
    | with_reducible refine AnswersLater.next ?_
    | with_reducible exact Later.refl _
    | with_reducible assumption
    | with_reducible apply Later.step (State.startBlock_later ..)
    | with_reducible apply Later.step (State.goto_later ..)
    | with_reducible refine Later.ite ?_ ?_)

theorem execCommandBlockDeadline_later (b : Fin 8) (s : State) : AnswersLater s (execCommandBlockDeadline b s) := by
  unfold execCommandBlockDeadline
  repeat (first
    | with_reducible refine AnswersLater.next ?_
    | with_reducible exact Later.refl _
    | with_reducible assumption
    | with_reducible apply Later.step (State.startBlock_later ..)
    | with_reducible apply Later.step (State.missDeadline_later ..)
    | ((with_reducible apply Later.only (State.abandonZones_only ..)); decide)
    | with_reducible apply Later.step (State.goto_later ..)
    | ((with_reducible apply Later.only (State.setBranch_only ..)); decide)
    | with_reducible refine Later.ite ?_ ?_)

theorem State.sendDyn_later (s : State) (b t : Nat) (f : List Byte) : Later s (State.sendDyn s b t f) := by
  unfold State.sendDyn
  repeat (first
    | with_reducible exact Later.refl _
    | with_reducible assumption
    | ((with_reducible apply Later.only (State.bwFrame_only ..)); decide)
    | with_reducible apply Later.step (State.goto_later ..)
    | ((with_reducible apply Later.only (State.setBranch_only ..)); decide))

theorem execDynamicDownlinkFrame_later (b : Fin 8) (s : State) : AnswersLater s (execDynamicDownlinkFrame b s) := by
  unfold execDynamicDownlinkFrame
  repeat (first
    | with_reducible refine AnswersLater.next ?_
    | with_reducible exact Later.refl _
    | with_reducible assumption
    | with_reducible apply Later.step (State.sendDyn_later ..)
    | ((with_reducible apply Later.only (State.setNode_only ..)); decide)
    | ((with_reducible apply Later.only (State.setBranch_only ..)); decide)
    | with_reducible refine Later.ite ?_ ?_
    | split
    | (dsimp -proj -beta only []; split))

theorem execLinkUp_later (port : Fin 9) (sync : Bool) (t : Nat) (s : State) : AnswersLater s (execLinkUp port sync t s) := by
  unfold execLinkUp
  repeat (first
    | with_reducible refine AnswersLater.next ?_
    | with_reducible exact Later.refl _
    | with_reducible assumption
    | ((with_reducible apply Later.only (State.setPortOf_only ..)); decide)
    | with_reducible apply Later.step (State.goto_later ..)
    | with_reducible refine Later.ite ?_ ?_)

theorem execLinkDown_later (port : Fin 9) (x : SyncLoss) (s : State) : AnswersLater s (execLinkDown port x s) := by
  unfold execLinkDown
  repeat (first
    | with_reducible refine AnswersLater.next ?_
    | with_reducible exact Later.refl _
    | with_reducible assumption
    | ((with_reducible apply Later.only (State.setPortOf_only ..)); decide)
    | with_reducible apply Later.step (State.goto_later ..)
    | ((with_reducible apply Later.only (State.raiseOnce_only ..)); decide)
    | with_reducible refine Later.ite ?_ ?_)

theorem State.standbyRole_later (s : State) : Later s (State.standbyRole s) := by
  unfold State.standbyRole
  repeat (first
    | with_reducible exact Later.refl _
    | with_reducible assumption
    | with_reducible apply Later.step (State.setRole_later ..)
    | fail_if_no_progress with_reducible refine Later.frm_net (by first | exact Nat.le_refl _ | exact Nat.le_add_right _ _) ?_
    | fail_if_no_progress with_reducible refine Later.frm (by first | exact Nat.le_refl _ | exact Nat.le_add_right _ _) ?_
    | fail_if_no_progress with_reducible refine Later.net ?_)

theorem State.yieldStart_later (s : State) (cs : CsState) (since : Nat) : Later s (State.yieldStart s cs since) := by
  unfold State.yieldStart
  repeat (first
    | with_reducible exact Later.refl _
    | with_reducible assumption
    | with_reducible apply Later.step (State.standbyRole_later ..)
    | ((with_reducible apply Later.only (State.listen_only ..)); decide)
    | ((with_reducible apply Later.only (State.raiseDev_only ..)); decide)
    | with_reducible refine Later.ite ?_ ?_
    | fail_if_no_progress with_reducible refine Later.net ?_)

theorem State.headStart_later (s : State) (t : Nat) : Later s (State.headStart s t) := by
  unfold State.headStart
  repeat (first
    | with_reducible exact Later.refl _
    | with_reducible assumption
    | ((with_reducible apply Later.only (State.cycleOn_only ..)); decide)
    | fail_if_no_progress with_reducible refine Later.frm_net (by first | exact Nat.le_refl _ | exact Nat.le_add_right _ _) ?_
    | fail_if_no_progress with_reducible refine Later.frm (by first | exact Nat.le_refl _ | exact Nat.le_add_right _ _) ?_
    | fail_if_no_progress with_reducible refine Later.net ?_)

theorem execListenWindowExpiry_later (s : State) : AnswersLater s (execListenWindowExpiry s) := by
  unfold execListenWindowExpiry
  repeat (first
    | with_reducible refine AnswersLater.next ?_
    | with_reducible exact Later.refl _
    | with_reducible assumption
    | with_reducible apply Later.step (State.headStart_later ..)
    | with_reducible apply Later.step (State.yieldStart_later ..)
    | with_reducible apply Later.step (State.goto_later ..)
    | with_reducible refine Later.ite ?_ ?_)

theorem State.correct_later (s : State) (k : Nat) (e : Int) : Later s (State.correct s k e) := by
  unfold State.correct
  repeat (first
    | with_reducible exact Later.refl _
    | with_reducible assumption
    | with_reducible refine Later.ite ?_ ?_
    | fail_if_no_progress with_reducible refine Later.frm (by first | exact Nat.le_refl _ | exact Nat.le_add_right _ _) ?_
    | fail_if_no_progress with_reducible refine Later.net ?_)

theorem State.takeCsm_later (s : State) (k : Nat) (c : Csm) : Later s (State.takeCsm s k c) := by
  unfold State.takeCsm
  repeat (first
    | with_reducible exact Later.refl _
    | with_reducible assumption
    | with_reducible apply Later.step (State.correct_later ..)
    | ((with_reducible apply Later.only (State.setJoin_only ..)); decide)
    | with_reducible refine Later.ite ?_ ?_
    | fail_if_no_progress with_reducible refine Later.net_red ?_
    | fail_if_no_progress with_reducible refine Later.net ?_
    | fail_if_no_progress with_reducible refine Later.red ?_)

theorem State.decideCsm_later (s : State) (k : Nat) : Later s (State.decideCsm s k) := by
  unfold State.decideCsm
  repeat (first
    | with_reducible exact Later.refl _
    | with_reducible assumption
    | with_reducible apply Later.step (State.takeCsm_later ..)
    | ((with_reducible apply Later.only (State.loseSync_only ..)); decide)
    | ((with_reducible apply Later.only (State.listen_only ..)); decide)
    | ((with_reducible apply Later.only (State.setJoin_only ..)); decide)
    | with_reducible refine Later.ite ?_ ?_
    | split
    | (dsimp -proj -beta only []; split))

theorem execCommandBlockReceived_later (b : Fin 8) (bytes : List Byte) (t : Nat) (s : State) : AnswersLater s (execCommandBlockReceived b bytes t s) := by
  unfold execCommandBlockReceived
  repeat (first
    | with_reducible refine AnswersLater.next ?_
    | with_reducible exact Later.refl _
    | with_reducible assumption
    | ((with_reducible apply Later.only (State.observeBlock_only ..)); decide)
    | with_reducible apply Later.step (State.rxFrame_later ..)
    | ((with_reducible apply Later.only (State.setJoin_only ..)); decide)
    | with_reducible refine Later.ite ?_ ?_)

theorem execKeeperFrameReceived_later (b : Fin 8) (bytes : List Byte) (t : Nat) (s : State) : AnswersLater s (execKeeperFrameReceived b bytes t s) := by
  unfold execKeeperFrameReceived
  repeat (first
    | with_reducible refine AnswersLater.next ?_
    | with_reducible exact Later.refl _
    | with_reducible assumption
    | with_reducible apply Later.step (State.rxFrame_later ..)
    | with_reducible refine Later.ite ?_ ?_
    | with_reducible refine Later.foldl ?_ ?_
    | (intro _ _ _; try beta_reduce)
    | fail_if_no_progress with_reducible refine Later.net ?_
    | split
    | (dsimp -proj -beta only []; split))

theorem execDlyTrimReceived_later (b : Fin 8) (bytes : List Byte) (t : Nat) (s : State) : AnswersLater s (execDlyTrimReceived b bytes t s) := by
  unfold execDlyTrimReceived
  repeat (first
    | with_reducible refine AnswersLater.next ?_
    | with_reducible exact Later.refl _
    | with_reducible assumption
    | with_reducible apply Later.step (State.rxFrame_later ..)
    | ((with_reducible apply Later.only (State.setJoin_only ..)); decide)
    | with_reducible refine Later.ite ?_ ?_)

theorem execOrientationDecision_later (s : State) : AnswersLater s (execOrientationDecision s) := by
  unfold execOrientationDecision
  repeat (first
    | with_reducible refine AnswersLater.next ?_
    | with_reducible exact Later.refl _
    | with_reducible assumption
    | ((with_reducible apply Later.only (State.turn_only ..)); decide)
    | with_reducible apply Later.step (State.decideCsm_later ..)
    | with_reducible apply Later.step (State.goto_later ..)
    | with_reducible refine Later.ite ?_ ?_)

theorem execNodeStaticTransmit_later (s : State) : AnswersLater s (execNodeStaticTransmit s) := by
  unfold execNodeStaticTransmit
  repeat (first
    | with_reducible refine AnswersLater.next ?_
    | with_reducible exact Later.refl _
    | with_reducible assumption
    | ((with_reducible apply Later.only (State.bwFrame_only ..)); decide)
    | with_reducible apply Later.step (State.goto_later ..)
    | with_reducible refine Later.ite ?_ ?_
    | fail_if_no_progress with_reducible refine Later.net ?_)

theorem execNodeDynamicTransmit_later (slot : Fin 32) (s : State) : AnswersLater s (execNodeDynamicTransmit slot s) := by
  unfold execNodeDynamicTransmit
  repeat (first
    | with_reducible refine AnswersLater.next ?_
    | with_reducible exact Later.refl _
    | with_reducible assumption
    | ((with_reducible apply Later.only (State.bwFrame_only ..)); decide)
    | with_reducible apply Later.step (State.goto_later ..)
    | with_reducible refine Later.ite ?_ ?_
    | fail_if_no_progress with_reducible refine Later.net ?_
    | split
    | (dsimp -proj -beta only []; split))

theorem execFence_later (_b : Fin 8) (s : State) : AnswersLater s (execFence _b s) := by
  unfold execFence
  repeat (first
    | with_reducible refine AnswersLater.next ?_
    | with_reducible exact Later.refl _
    | with_reducible assumption
    | with_reducible apply Later.step (State.goto_later ..)
    | with_reducible refine Later.ite ?_ ?_
    | with_reducible refine Later.foldl ?_ ?_
    | (intro _ _ _; try beta_reduce)
    | fail_if_no_progress with_reducible refine Later.net ?_
    | split
    | (dsimp -proj -beta only []; split))

theorem execProcessDataReceived_later (b : Fin 8) (bytes : List Byte) (t : Nat) (s : State) : AnswersLater s (execProcessDataReceived b bytes t s) := by
  unfold execProcessDataReceived
  repeat (first
    | with_reducible refine AnswersLater.next ?_
    | with_reducible exact Later.refl _
    | with_reducible assumption
    | with_reducible apply Later.step (State.rxFrame_later ..)
    | with_reducible refine Later.ite ?_ ?_
    | fail_if_no_progress with_reducible refine Later.net ?_)

theorem State.frameStats_later (s : State) : Later s (State.frameStats s) := by
  unfold State.frameStats
  repeat (first
    | with_reducible exact Later.refl _
    | with_reducible assumption
    | with_reducible refine Later.ite ?_ ?_
    | fail_if_no_progress with_reducible refine Later.frm_evt_pwr (by first | exact Nat.le_refl _ | exact Nat.le_add_right _ _) ?_
    | fail_if_no_progress with_reducible refine Later.frm (by first | exact Nat.le_refl _ | exact Nat.le_add_right _ _) ?_
    | fail_if_no_progress with_reducible refine Later.evt ?_
    | fail_if_no_progress with_reducible refine Later.pwr ?_)

theorem State.followerTick_later (s : State) : Later s (State.followerTick s) := by
  unfold State.followerTick
  repeat (first
    | with_reducible exact Later.refl _
    | with_reducible assumption
    | with_reducible refine Later.ite ?_ ?_
    | with_reducible refine Later.foldl ?_ ?_
    | (intro _ _ _; try beta_reduce)
    | fail_if_no_progress with_reducible refine Later.frm_net_red (by first | exact Nat.le_refl _ | exact Nat.le_add_right _ _) ?_
    | fail_if_no_progress with_reducible refine Later.frm (by first | exact Nat.le_refl _ | exact Nat.le_add_right _ _) ?_
    | fail_if_no_progress with_reducible refine Later.net ?_
    | fail_if_no_progress with_reducible refine Later.red ?_)

theorem State.lsyncRise_later (s : State) : Later s (State.lsyncRise s) := by
  unfold State.lsyncRise
  repeat (first
    | with_reducible exact Later.refl _
    | with_reducible assumption
    | with_reducible refine Later.ite ?_ ?_
    | fail_if_no_progress with_reducible refine Later.frm (by first | exact Nat.le_refl _ | exact Nat.le_add_right _ _) ?_)

theorem State.lockSlew_later (s : State) : Later s (State.lockSlew s) := by
  unfold State.lockSlew
  repeat (first
    | with_reducible exact Later.refl _
    | with_reducible assumption
    | with_reducible refine Later.ite ?_ ?_
    | fail_if_no_progress with_reducible refine Later.frm (by first | exact Nat.le_refl _ | exact Nat.le_add_right _ _) ?_)

theorem State.frameEnd_later (s : State) (t : Nat) : Later s (State.frameEnd s t) := by
  unfold State.frameEnd
  repeat (first
    | with_reducible exact Later.refl _
    | with_reducible assumption
    | ((with_reducible apply Later.only (State.redFrameEnd_only ..)); decide)
    | with_reducible apply Later.step (State.frameStats_later ..)
    | ((with_reducible apply Later.only (State.feedTake_only ..)); decide)
    | with_reducible apply Later.step (State.goto_later ..)
    | with_reducible refine Later.ite ?_ ?_)

theorem State.frameBegin_later (s : State) (t : Nat) : Later s (State.frameBegin s t) := by
  unfold State.frameBegin
  repeat (first
    | with_reducible exact Later.refl _
    | with_reducible assumption
    | with_reducible refine Later.ite ?_ ?_
    | fail_if_no_progress with_reducible refine Later.frm_fio (by first | exact Nat.le_refl _ | exact Nat.le_add_right _ _) ?_
    | fail_if_no_progress with_reducible refine Later.frm (by first | exact Nat.le_refl _ | exact Nat.le_add_right _ _) ?_
    | fail_if_no_progress with_reducible refine Later.fio ?_)

theorem State.tickSends_later (s : State) : Later s (State.tickSends s) := by
  unfold State.tickSends
  repeat (first
    | with_reducible exact Later.refl _
    | with_reducible assumption
    | with_reducible apply Later.step (State.followerTick_later ..)
    | ((with_reducible apply Later.only (State.headSends_only ..)); decide)
    | with_reducible refine Later.ite ?_ ?_
    | fail_if_no_progress with_reducible refine Later.net ?_
    | fail_if_no_progress with_reducible refine Later.red ?_)

theorem execFrameTick_later (s : State) : AnswersLater s (execFrameTick s) := by
  unfold execFrameTick
  repeat (first
    | with_reducible refine AnswersLater.next ?_
    | with_reducible exact Later.refl _
    | with_reducible assumption
    | with_reducible apply Later.step (State.tickSends_later ..)
    | with_reducible apply Later.step (State.frameBegin_later ..)
    | with_reducible apply Later.step (State.frameEnd_later ..)
    | with_reducible apply Later.step (State.lockSlew_later ..)
    | with_reducible apply Later.step (State.lsyncRise_later ..)
    | ((with_reducible apply Later.only (State.redTick_only ..)); decide)
    | ((with_reducible apply Later.only (State.pulseX_only ..)); decide)
    | with_reducible refine Later.ite ?_ ?_)

theorem execLsyncFall_later (s : State) : AnswersLater s (execLsyncFall s) := by
  unfold execLsyncFall
  repeat (first
    | with_reducible refine AnswersLater.next ?_
    | with_reducible exact Later.refl _
    | with_reducible assumption
    | with_reducible apply Later.step (State.goto_later ..)
    | with_reducible refine Later.ite ?_ ?_
    | fail_if_no_progress with_reducible refine Later.frm (by first | exact Nat.le_refl _ | exact Nat.le_add_right _ _) ?_)

theorem execLsyncInEdge_later (x : PinEdge) (s : State) : AnswersLater s (execLsyncInEdge x s) := by
  unfold execLsyncInEdge
  repeat (first
    | with_reducible refine AnswersLater.next ?_
    | with_reducible exact Later.refl _
    | with_reducible assumption
    | with_reducible apply Later.step (State.goto_later ..)
    | ((with_reducible apply Later.only (State.capTrigger_only ..)); decide)
    | ((with_reducible apply Later.only (State.pulseX_only ..)); decide)
    | with_reducible refine Later.ite ?_ ?_
    | fail_if_no_progress with_reducible refine Later.frm (by first | exact Nat.le_refl _ | exact Nat.le_add_right _ _) ?_)

theorem execLsyncInLoss_later (s : State) : AnswersLater s (execLsyncInLoss s) := by
  unfold execLsyncInLoss
  repeat (first
    | with_reducible refine AnswersLater.next ?_
    | with_reducible exact Later.refl _
    | with_reducible assumption
    | with_reducible apply Later.step (State.goto_later ..)
    | ((with_reducible apply Later.only (State.raiseDev_only ..)); decide)
    | with_reducible refine Later.ite ?_ ?_
    | fail_if_no_progress with_reducible refine Later.frm (by first | exact Nat.le_refl _ | exact Nat.le_add_right _ _) ?_
    | split
    | (dsimp -proj -beta only []; split))

theorem execFrmTimeLo_later (s : State) : AnswersLater s (execFrmTimeLo s) := by
  unfold execFrmTimeLo
  repeat (first
    | with_reducible refine AnswersLater.next ?_
    | with_reducible exact Later.refl _
    | with_reducible assumption
    | ((with_reducible apply Later.only (State.hostWord_only ..)); decide)
    | fail_if_no_progress with_reducible refine Later.frm (by first | exact Nat.le_refl _ | exact Nat.le_add_right _ _) ?_)

theorem execFrmFcntLo_later (s : State) : AnswersLater s (execFrmFcntLo s) := by
  unfold execFrmFcntLo
  repeat (first
    | with_reducible refine AnswersLater.next ?_
    | with_reducible exact Later.refl _
    | with_reducible assumption
    | ((with_reducible apply Later.only (State.hostWord_only ..)); decide)
    | fail_if_no_progress with_reducible refine Later.frm (by first | exact Nat.le_refl _ | exact Nat.le_add_right _ _) ?_)

theorem execFrmT0Lo_later (s : State) : AnswersLater s (execFrmT0Lo s) := by
  unfold execFrmT0Lo
  repeat (first
    | with_reducible refine AnswersLater.next ?_
    | with_reducible exact Later.refl _
    | with_reducible assumption
    | ((with_reducible apply Later.only (State.hostWord_only ..)); decide)
    | fail_if_no_progress with_reducible refine Later.frm (by first | exact Nat.le_refl _ | exact Nat.le_add_right _ _) ?_)

theorem execFrmLsinLo_later (s : State) : AnswersLater s (execFrmLsinLo s) := by
  unfold execFrmLsinLo
  repeat (first
    | with_reducible refine AnswersLater.next ?_
    | with_reducible exact Later.refl _
    | with_reducible assumption
    | ((with_reducible apply Later.only (State.hostWord_only ..)); decide)
    | fail_if_no_progress with_reducible refine Later.frm (by first | exact Nat.le_refl _ | exact Nat.le_add_right _ _) ?_)

theorem execFrmTurnmax_later (s : State) : AnswersLater s (execFrmTurnmax s) := by
  unfold execFrmTurnmax
  repeat (first
    | with_reducible refine AnswersLater.next ?_
    | with_reducible exact Later.refl _
    | with_reducible assumption
    | ((with_reducible apply Later.only (State.turn_only ..)); decide)
    | ((with_reducible apply Later.only (State.hostWord_only ..)); decide)
    | fail_if_no_progress with_reducible refine Later.frm (by first | exact Nat.le_refl _ | exact Nat.le_add_right _ _) ?_)

theorem State.idleCycle_later (s : State) : Later s (State.idleCycle s) := by
  unfold State.idleCycle
  repeat (first
    | with_reducible exact Later.refl _
    | with_reducible assumption
    | with_reducible apply Later.step (State.goto_later ..)
    | with_reducible refine Later.ite ?_ ?_
    | fail_if_no_progress with_reducible refine Later.frm (by first | exact Nat.le_refl _ | exact Nat.le_add_right _ _) ?_)

theorem execThreadComplete_later (fp : Fin 4) (t : Nat) (s : State) : AnswersLater s (execThreadComplete fp t s) := by
  unfold execThreadComplete
  repeat (first
    | with_reducible refine AnswersLater.next ?_
    | with_reducible exact Later.refl _
    | with_reducible assumption
    | ((with_reducible apply Later.only (State.fp1Work_only ..)); decide)
    | ((with_reducible apply Later.only (State.finishThread_only ..)); decide)
    | with_reducible apply Later.step (State.goto_later ..)
    | with_reducible refine Later.ite ?_ ?_
    | fail_if_no_progress with_reducible refine Later.fio ?_
    | split
    | (dsimp -proj -beta only []; split))

theorem execHomeFlagExpiry_later (i : Fin 256) (s : State) : AnswersLater s (execHomeFlagExpiry i s) := by
  unfold execHomeFlagExpiry
  repeat (first
    | with_reducible refine AnswersLater.next ?_
    | with_reducible exact Later.refl _
    | with_reducible assumption
    | ((with_reducible apply Later.only (State.stallStep_only ..)); decide)
    | with_reducible apply Later.step (State.goto_later ..)
    | with_reducible refine Later.ite ?_ ?_
    | split
    | (dsimp -proj -beta only []; split))

theorem execCriticalKernelComplete_later (i : Fin 256) (t opnd comp : Nat) (s : State) : AnswersLater s (execCriticalKernelComplete i t opnd comp s) := by
  unfold execCriticalKernelComplete
  repeat (first
    | with_reducible refine AnswersLater.next ?_
    | with_reducible exact Later.refl _
    | with_reducible assumption
    | ((with_reducible apply Later.only (State.servoKernel_only ..)); decide)
    | ((with_reducible apply Later.only (State.stepKernel_only ..)); decide)
    | ((with_reducible apply Later.only (State.gateCheck_only ..)); decide)
    | ((with_reducible apply Later.only (State.completeKernel_only ..)); decide)
    | ((with_reducible apply Later.only (State.tagComplete_only ..)); decide)
    | with_reducible apply Later.step (State.goto_later ..)
    | ((with_reducible apply Later.only (State.setBranch_only ..)); decide)
    | ((with_reducible apply Later.only (State.setAxis_only ..)); decide)
    | with_reducible refine Later.ite ?_ ?_
    | fail_if_no_progress with_reducible refine Later.frm (by first | exact Nat.le_refl _ | exact Nat.le_add_right _ _) ?_)

theorem execTrailingKernelComplete_later (i : Fin 256) (t opnd comp : Nat) (s : State) : AnswersLater s (execTrailingKernelComplete i t opnd comp s) := by
  unfold execTrailingKernelComplete
  repeat (first
    | with_reducible refine AnswersLater.next ?_
    | with_reducible exact Later.refl _
    | with_reducible assumption
    | ((with_reducible apply Later.only (State.trailAxis_only ..)); decide)
    | ((with_reducible apply Later.only (State.completeKernel_only ..)); decide)
    | ((with_reducible apply Later.only (State.tagComplete_only ..)); decide)
    | with_reducible apply Later.step (State.goto_later ..)
    | with_reducible refine Later.ite ?_ ?_
    | fail_if_no_progress with_reducible refine Later.frm (by first | exact Nat.le_refl _ | exact Nat.le_add_right _ _) ?_)

theorem execZoneKernelComplete_later (z : Fin 64) (t opnd comp : Nat) (s : State) : AnswersLater s (execZoneKernelComplete z t opnd comp s) := by
  unfold execZoneKernelComplete
  repeat (first
    | with_reducible refine AnswersLater.next ?_
    | with_reducible exact Later.refl _
    | with_reducible assumption
    | ((with_reducible apply Later.only (State.zoneKernel_only ..)); decide)
    | ((with_reducible apply Later.only (State.gateCheck_only ..)); decide)
    | ((with_reducible apply Later.only (State.completeKernel_only ..)); decide)
    | ((with_reducible apply Later.only (State.tagComplete_only ..)); decide)
    | with_reducible apply Later.step (State.goto_later ..)
    | ((with_reducible apply Later.only (State.setZone_only ..)); decide)
    | with_reducible refine Later.ite ?_ ?_
    | fail_if_no_progress with_reducible refine Later.frm (by first | exact Nat.le_refl _ | exact Nat.le_add_right _ _) ?_)

theorem execZoneTrailingKernelComplete_later (z : Fin 64) (t opnd comp : Nat) (s : State) : AnswersLater s (execZoneTrailingKernelComplete z t opnd comp s) := by
  unfold execZoneTrailingKernelComplete
  repeat (first
    | with_reducible refine AnswersLater.next ?_
    | with_reducible exact Later.refl _
    | with_reducible assumption
    | ((with_reducible apply Later.only (State.zoneTrail_only ..)); decide)
    | ((with_reducible apply Later.only (State.completeKernel_only ..)); decide)
    | ((with_reducible apply Later.only (State.tagComplete_only ..)); decide)
    | with_reducible apply Later.step (State.goto_later ..)
    | with_reducible refine Later.ite ?_ ?_
    | fail_if_no_progress with_reducible refine Later.frm (by first | exact Nat.le_refl _ | exact Nat.le_add_right _ _) ?_)

theorem execStepPulse_later (c : Fin 16) (s : State) : AnswersLater s (execStepPulse c s) := by
  unfold execStepPulse
  repeat (first
    | with_reducible refine AnswersLater.next ?_
    | with_reducible exact Later.refl _
    | with_reducible assumption
    | with_reducible apply Later.step (State.goto_later ..)
    | ((with_reducible apply Later.only (State.pulseX_only ..)); decide)
    | ((with_reducible apply Later.only (State.setStep_only ..)); decide)
    | with_reducible refine Later.ite ?_ ?_)

theorem execDirChange_later (c : Fin 16) (s : State) : AnswersLater s (execDirChange c s) := by
  unfold execDirChange
  repeat (first
    | with_reducible refine AnswersLater.next ?_
    | with_reducible exact Later.refl _
    | with_reducible assumption
    | with_reducible apply Later.step (State.goto_later ..)
    | ((with_reducible apply Later.only (State.setStep_only ..)); decide)
    | with_reducible refine Later.ite ?_ ?_)

theorem execCrefIdleExpiry_later (c : Fin 16) (s : State) : AnswersLater s (execCrefIdleExpiry c s) := by
  unfold execCrefIdleExpiry
  repeat (first
    | with_reducible refine AnswersLater.next ?_
    | with_reducible exact Later.refl _
    | with_reducible assumption
    | with_reducible apply Later.step (State.goto_later ..)
    | ((with_reducible apply Later.only (State.setStep_only ..)); decide)
    | with_reducible refine Later.ite ?_ ?_
    | fail_if_no_progress with_reducible refine Later.red ?_)

theorem execCrefRampComplete_later (c : Fin 16) (s : State) : AnswersLater s (execCrefRampComplete c s) := by
  unfold execCrefRampComplete
  repeat (first
    | with_reducible refine AnswersLater.next ?_
    | with_reducible exact Later.refl _
    | with_reducible assumption
    | with_reducible apply Later.step (State.goto_later ..)
    | ((with_reducible apply Later.only (State.setStep_only ..)); decide)
    | with_reducible refine Later.ite ?_ ?_
    | fail_if_no_progress with_reducible refine Later.red ?_)

theorem execEncEdge_later (e : Fin 8) (a b : Bool) (l : HeldLevel) (s : State) : AnswersLater s (execEncEdge e a b l s) := by
  unfold execEncEdge
  repeat (first
    | with_reducible refine AnswersLater.next ?_
    | with_reducible exact Later.refl _
    | with_reducible assumption
    | ((with_reducible apply Later.only (State.encError_only ..)); decide)
    | with_reducible apply Later.step (State.goto_later ..)
    | ((with_reducible apply Later.only (State.setEnc_only ..)); decide)
    | with_reducible refine Later.ite ?_ ?_)

theorem execEnczEdge_later (e : Fin 8) (z : Bool) (l : HeldLevel) (s : State) : AnswersLater s (execEnczEdge e z l s) := by
  unfold execEnczEdge
  repeat (first
    | with_reducible refine AnswersLater.next ?_
    | with_reducible exact Later.refl _
    | with_reducible assumption
    | with_reducible apply Later.step (State.goto_later ..)
    | ((with_reducible apply Later.only (State.setEnc_only ..)); decide)
    | with_reducible refine Later.ite ?_ ?_)

theorem execSsiDelivery_later (e : Fin 8) (bits : Nat) (low : Bool) (s : State) : AnswersLater s (execSsiDelivery e bits low s) := by
  unfold execSsiDelivery
  repeat (first
    | with_reducible refine AnswersLater.next ?_
    | with_reducible exact Later.refl _
    | with_reducible assumption
    | ((with_reducible apply Later.only (State.ssiFree_only ..)); decide)
    | ((with_reducible apply Later.only (State.encError_only ..)); decide)
    | with_reducible apply Later.step (State.goto_later ..)
    | ((with_reducible apply Later.only (State.setEnc_only ..)); decide)
    | with_reducible refine Later.ite ?_ ?_)

theorem State.serve_later (s : State) (op : Nat) (f : State → Nat → Nat → State) (hf : ∀ y m j, Later y (f y m j)) : Later s (State.serve s op f) := by
  unfold State.serve
  repeat (first
    | with_reducible exact Later.refl _
    | with_reducible assumption
    | with_reducible apply Later.step (hf ..)
    | ((with_reducible apply Later.only (State.take_only ..)); decide)
    | with_reducible refine Later.ite ?_ ?_
    | split
    | (dsimp -proj -beta only []; split))

theorem execMailboxTimeout_later (j : Fin 512) (s : State) : AnswersLater s (execMailboxTimeout j s) := by
  unfold execMailboxTimeout
  repeat (first
    | with_reducible refine AnswersLater.next ?_
    | with_reducible exact Later.refl _
    | with_reducible assumption
    | ((with_reducible apply Later.only (State.dropReq_only ..)); decide)
    | ((with_reducible apply Later.only (State.answer_only ..)); decide)
    | with_reducible apply Later.step (State.goto_later ..)
    | ((with_reducible apply Later.only (State.raiseDev_only ..)); decide)
    | with_reducible refine Later.ite ?_ ?_
    | split
    | (dsimp -proj -beta only []; split))

theorem execHostWatchdogExpiry_later (s : State) : AnswersLater s (execHostWatchdogExpiry s) := by
  unfold execHostWatchdogExpiry
  repeat (first
    | with_reducible refine AnswersLater.next ?_
    | with_reducible exact Later.refl _
    | with_reducible assumption
    | with_reducible apply Later.step (State.goto_later ..)
    | ((with_reducible apply Later.only (State.raiseDev_only ..)); decide)
    | ((with_reducible apply Later.only (State.irq_only ..)); decide)
    | with_reducible refine Later.ite ?_ ?_
    | fail_if_no_progress with_reducible refine Later.host ?_)

theorem execSafetyInputSample_later (a b : Byte) (s : State) : AnswersLater s (execSafetyInputSample a b s) := by
  unfold execSafetyInputSample
  repeat (first
    | with_reducible refine AnswersLater.next ?_
    | with_reducible exact Later.refl _
    | with_reducible assumption
    | ((with_reducible apply Later.only (State.samplePair_only ..)); decide)
    | with_reducible apply Later.step (State.goto_later ..)
    | with_reducible refine Later.foldl ?_ ?_
    | (intro _ _ _; try beta_reduce)
    | fail_if_no_progress with_reducible refine Later.saf ?_)

theorem execTestPulseStart_later (k : Fin 4) (s : State) : AnswersLater s (execTestPulseStart k s) := by
  unfold execTestPulseStart
  repeat (first
    | with_reducible refine AnswersLater.next ?_
    | with_reducible exact Later.refl _
    | with_reducible assumption
    | with_reducible apply Later.step (State.goto_later ..)
    | ((with_reducible apply Later.only (State.setSpair_only ..)); decide)
    | with_reducible refine Later.ite ?_ ?_
    | with_reducible refine Later.foldl ?_ ?_
    | (intro _ _ _; try beta_reduce)
    | fail_if_no_progress with_reducible refine Later.saf ?_)

theorem execTestPulseWindowEnd_later (k : Fin 4) (s : State) : AnswersLater s (execTestPulseWindowEnd k s) := by
  unfold execTestPulseWindowEnd
  repeat (first
    | with_reducible refine AnswersLater.next ?_
    | with_reducible exact Later.refl _
    | with_reducible assumption
    | with_reducible apply Later.step (State.goto_later ..)
    | ((with_reducible apply Later.only (State.raise_only ..)); decide)
    | ((with_reducible apply Later.only (State.setSpair_only ..)); decide)
    | with_reducible refine Later.ite ?_ ?_
    | with_reducible refine Later.foldl ?_ ?_
    | (intro _ _ _; try beta_reduce)
    | fail_if_no_progress with_reducible refine Later.saf ?_)

theorem execSafetyTick_later (rb : List Nat) (s : State) : AnswersLater s (execSafetyTick rb s) := by
  unfold execSafetyTick
  repeat (first
    | with_reducible refine AnswersLater.next ?_
    | with_reducible exact Later.refl _
    | with_reducible assumption
    | ((with_reducible apply Later.only (State.readBack_only ..)); decide)
    | ((with_reducible apply Later.only (State.drive_only ..)); decide)
    | with_reducible apply Later.step (State.goto_later ..)
    | with_reducible refine Later.ite ?_ ?_
    | with_reducible refine Later.foldl ?_ ?_
    | (intro _ _ _; try beta_reduce)
    | fail_if_no_progress with_reducible refine Later.saf ?_)

theorem execOutputOffTest_later (o : Fin 4) (low : Bool) (s : State) : AnswersLater s (execOutputOffTest o low s) := by
  unfold execOutputOffTest
  repeat (first
    | with_reducible refine AnswersLater.next ?_
    | with_reducible exact Later.refl _
    | with_reducible assumption
    | with_reducible apply Later.step (State.goto_later ..)
    | ((with_reducible apply Later.only (State.setSout_only ..)); decide)
    | with_reducible refine Later.ite ?_ ?_)

theorem execOffTestWindowEnd_later (o : Fin 4) (low : Bool) (r : PinReading) (s : State) : AnswersLater s (execOffTestWindowEnd o low r s) := by
  unfold execOffTestWindowEnd
  repeat (first
    | with_reducible refine AnswersLater.next ?_
    | with_reducible exact Later.refl _
    | with_reducible assumption
    | ((with_reducible apply Later.only (State.outFault_only ..)); decide)
    | ((with_reducible apply Later.only (State.drive_only ..)); decide)
    | with_reducible apply Later.step (State.goto_later ..)
    | ((with_reducible apply Later.only (State.setSout_only ..)); decide)
    | with_reducible refine Later.ite ?_ ?_)

theorem execThermalShutdown_later (c : Fin 32) (t : Nat) (s : State) : AnswersLater s (execThermalShutdown c t s) := by
  unfold execThermalShutdown
  repeat (first
    | with_reducible refine AnswersLater.next ?_
    | with_reducible exact Later.refl _
    | with_reducible assumption
    | with_reducible apply Later.step (State.goto_later ..)
    | ((with_reducible apply Later.only (State.setFch_only ..)); decide)
    | with_reducible refine Later.ite ?_ ?_)

theorem execThermalRetry_later (c : Fin 32) (tj t : Nat) (s : State) : AnswersLater s (execThermalRetry c tj t s) := by
  unfold execThermalRetry
  repeat (first
    | with_reducible refine AnswersLater.next ?_
    | with_reducible exact Later.refl _
    | with_reducible assumption
    | with_reducible apply Later.step (State.goto_later ..)
    | ((with_reducible apply Later.only (State.setFch_only ..)); decide)
    | with_reducible refine Later.ite ?_ ?_)

theorem execLogicSilenceExpiry_later (d : Fin 4) (s : State) : AnswersLater s (execLogicSilenceExpiry d s) := by
  unfold execLogicSilenceExpiry
  repeat (first
    | with_reducible refine AnswersLater.next ?_
    | with_reducible exact Later.refl _
    | with_reducible assumption
    | ((with_reducible apply Later.only (State.mapDie_only ..)); decide)
    | with_reducible apply Later.step (State.goto_later ..)
    | ((with_reducible apply Later.only (State.setDie_only ..)); decide)
    | with_reducible refine Later.ite ?_ ?_)

theorem execCaptureSample_later (w : W16) (t : Nat) (s : State) : AnswersLater s (execCaptureSample w t s) := by
  unfold execCaptureSample
  repeat (first
    | with_reducible refine AnswersLater.next ?_
    | with_reducible exact Later.refl _
    | with_reducible assumption
    | ((with_reducible apply Later.only (State.capInstant_only ..)); decide)
    | with_reducible apply Later.step (State.goto_later ..)
    | with_reducible refine Later.ite ?_ ?_
    | fail_if_no_progress with_reducible refine Later.cap ?_)

theorem execAutoTriggerExpiry_later (s : State) : AnswersLater s (execAutoTriggerExpiry s) := by
  unfold execAutoTriggerExpiry
  repeat (first
    | with_reducible refine AnswersLater.next ?_
    | with_reducible exact Later.refl _
    | with_reducible assumption
    | with_reducible apply Later.step (State.goto_later ..)
    | with_reducible refine Later.ite ?_ ?_
    | fail_if_no_progress with_reducible refine Later.cap ?_
    | split
    | (dsimp -proj -beta only []; split))

theorem execRearmComplete_later (t : Nat) (s : State) : AnswersLater s (execRearmComplete t s) := by
  unfold execRearmComplete
  repeat (first
    | with_reducible refine AnswersLater.next ?_
    | with_reducible exact Later.refl _
    | with_reducible assumption
    | ((with_reducible apply Later.only (State.capArm_only ..)); decide)
    | with_reducible apply Later.step (State.goto_later ..)
    | with_reducible refine Later.ite ?_ ?_)

theorem execDegradedWindowExpiry_later (s : State) : AnswersLater s (execDegradedWindowExpiry s) := by
  unfold execDegradedWindowExpiry
  repeat (first
    | with_reducible refine AnswersLater.next ?_
    | with_reducible exact Later.refl _
    | with_reducible assumption
    | with_reducible apply Later.step (State.goto_later ..)
    | with_reducible refine Later.ite ?_ ?_
    | fail_if_no_progress with_reducible refine Later.saf ?_)

theorem execSafetyPduReceived_later (c : Fin 64) (bytes : List Byte) (t : Nat) (s : State) : AnswersLater s (execSafetyPduReceived c bytes t s) := by
  unfold execSafetyPduReceived
  repeat (first
    | with_reducible refine AnswersLater.next ?_
    | with_reducible exact Later.refl _
    | with_reducible assumption
    | ((with_reducible apply Later.only (State.connObserve_only ..)); decide)
    | ((with_reducible apply Later.only (State.connTake_only ..)); decide)
    | ((with_reducible apply Later.only (State.connReject_only ..)); decide)
    | with_reducible apply Later.step (State.goto_later ..)
    | with_reducible refine Later.ite ?_ ?_)

theorem execSafetyWatchdogExpiry_later (c : Fin 64) (chB : Bool) (s : State) : AnswersLater s (execSafetyWatchdogExpiry c chB s) := by
  unfold execSafetyWatchdogExpiry
  repeat (first
    | with_reducible refine AnswersLater.next ?_
    | with_reducible exact Later.refl _
    | with_reducible assumption
    | ((with_reducible apply Later.only (State.connSettle_only ..)); decide)
    | with_reducible apply Later.step (State.goto_later ..)
    | ((with_reducible apply Later.only (State.setConn_only ..)); decide)
    | with_reducible refine Later.ite ?_ ?_)

theorem execSafetyCycleEnd_later (s : State) : AnswersLater s (execSafetyCycleEnd s) := by
  unfold execSafetyCycleEnd
  repeat (first
    | with_reducible refine AnswersLater.next ?_
    | with_reducible exact Later.refl _
    | with_reducible assumption
    | ((with_reducible apply Later.only (State.compare_only ..)); decide)
    | ((with_reducible apply Later.only (State.clocks_only ..)); decide)
    | ((with_reducible apply Later.only (State.copyMirrors_only ..)); decide)
    | ((with_reducible apply Later.only (State.withhold_only ..)); decide)
    | ((with_reducible apply Later.only (State.issue_only ..)); decide)
    | ((with_reducible apply Later.only (State.groupNext_only ..)); decide)
    | ((with_reducible apply Later.only (State.groupDecide_only ..)); decide)
    | ((with_reducible apply Later.only (State.outsOpen_only ..)); decide)
    | ((with_reducible apply Later.only (State.degLeave_only ..)); decide)
    | ((with_reducible apply Later.only (State.checkSseq_only ..)); decide)
    | with_reducible apply Later.step (State.goto_later ..)
    | ((with_reducible apply Later.only (State.raiseDev_only ..)); decide)
    | ((with_reducible apply Later.only (State.setConn_only ..)); decide)
    | with_reducible refine Later.ite ?_ ?_
    | with_reducible refine Later.foldl ?_ ?_
    | (intro _ _ _; try beta_reduce)
    | fail_if_no_progress with_reducible refine Later.saf ?_)

theorem execSafeConfirmTimeout_later (s : State) : AnswersLater s (execSafeConfirmTimeout s) := by
  unfold execSafeConfirmTimeout
  repeat (first
    | with_reducible refine AnswersLater.next ?_
    | with_reducible exact Later.refl _
    | with_reducible assumption
    | with_reducible apply Later.step (State.goto_later ..)
    | with_reducible refine Later.ite ?_ ?_
    | fail_if_no_progress with_reducible refine Later.saf ?_)

theorem State.leaveHead_later (s : State) : Later s (State.leaveHead s) := by
  unfold State.leaveHead
  repeat (first
    | with_reducible exact Later.refl _
    | with_reducible assumption
    | ((with_reducible apply Later.only (State.discardHead_only ..)); decide)
    | ((with_reducible apply Later.only (State.stopKernels_only ..)); decide)
    | ((with_reducible apply Later.only (State.capRoleEnd_only ..)); decide)
    | ((with_reducible apply Later.only (State.roleChange_only ..)); decide)
    | ((with_reducible apply Later.only (State.closeLedgers_only ..)); decide)
    | ((with_reducible apply Later.only (State.openLedger_only ..)); decide)
    | with_reducible apply Later.step (State.standbyRole_later ..)
    | fail_if_no_progress with_reducible refine Later.net_fio ?_
    | fail_if_no_progress with_reducible refine Later.net ?_
    | fail_if_no_progress with_reducible refine Later.fio ?_)

theorem State.earlyYield_later (s : State) : Later s (State.earlyYield s) := by
  unfold State.earlyYield
  repeat (first
    | with_reducible exact Later.refl _
    | with_reducible assumption
    | ((with_reducible apply Later.only (State.discardHead_only ..)); decide)
    | ((with_reducible apply Later.only (State.stopKernels_only ..)); decide)
    | ((with_reducible apply Later.only (State.capRoleEnd_only ..)); decide)
    | ((with_reducible apply Later.only (State.closeLedgers_only ..)); decide)
    | with_reducible apply Later.step (State.yieldStart_later ..)
    | ((with_reducible apply Later.only (State.raiseDev_only ..)); decide)
    | fail_if_no_progress with_reducible refine Later.frm (by first | exact Nat.le_refl _ | exact Nat.le_add_right _ _) ?_)

theorem execForeignCsm_later (b : Fin 8) (bytes : List Byte) (x : Arrival) (s : State) : AnswersLater s (execForeignCsm b bytes x s) := by
  unfold execForeignCsm
  repeat (first
    | with_reducible refine AnswersLater.next ?_
    | with_reducible exact Later.refl _
    | with_reducible assumption
    | ((with_reducible apply Later.only (State.seeCsm_only ..)); decide)
    | with_reducible apply Later.step (State.earlyYield_later ..)
    | with_reducible apply Later.step (State.leaveHead_later ..)
    | with_reducible apply Later.step (State.rxFrame_later ..)
    | ((with_reducible apply Later.only (State.raiseDev_only ..)); decide)
    | ((with_reducible apply Later.only (State.raiseOnce_only ..)); decide)
    | with_reducible refine Later.ite ?_ ?_
    | fail_if_no_progress with_reducible refine Later.net ?_
    | split
    | (dsimp -proj -beta only []; split))

theorem execHeartbeatReceived_later (bytes : List Byte) (t : Nat) (s : State) : AnswersLater s (execHeartbeatReceived bytes t s) := by
  unfold execHeartbeatReceived
  repeat (first
    | with_reducible refine AnswersLater.next ?_
    | with_reducible exact Later.refl _
    | with_reducible assumption
    | with_reducible apply Later.step (State.goto_later ..)
    | with_reducible refine Later.ite ?_ ?_
    | fail_if_no_progress with_reducible refine Later.red ?_)

theorem execHeartbeatWindowClose_later (s : State) : AnswersLater s (execHeartbeatWindowClose s) := by
  unfold execHeartbeatWindowClose
  repeat (first
    | with_reducible refine AnswersLater.next ?_
    | with_reducible exact Later.refl _
    | with_reducible assumption
    | ((with_reducible apply Later.only (State.silentCheck_only ..)); decide)
    | with_reducible apply Later.step (State.goto_later ..)
    | ((with_reducible apply Later.only (State.raiseDev_only ..)); decide)
    | ((with_reducible apply Later.only (State.pulseX_only ..)); decide)
    | with_reducible refine Later.ite ?_ ?_
    | fail_if_no_progress with_reducible refine Later.red ?_)

theorem execCsmWindowClose_later (b : Fin 8) (s : State) : AnswersLater s (execCsmWindowClose b s) := by
  unfold execCsmWindowClose
  repeat (first
    | with_reducible refine AnswersLater.next ?_
    | with_reducible exact Later.refl _
    | with_reducible assumption
    | ((with_reducible apply Later.only (State.silentCheck_only ..)); decide)
    | with_reducible apply Later.step (State.decideCsm_later ..)
    | with_reducible apply Later.step (State.goto_later ..)
    | with_reducible refine Later.ite ?_ ?_
    | fail_if_no_progress with_reducible refine Later.red ?_)

theorem State.becomeHead_later (s : State) (restart : W48) : Later s (State.becomeHead s restart) := by
  unfold State.becomeHead
  repeat (first
    | with_reducible exact Later.refl _
    | with_reducible assumption
    | ((with_reducible apply Later.only (State.connRxStart_only ..)); decide)
    | ((with_reducible apply Later.only (State.present_only ..)); decide)
    | ((with_reducible apply Later.only (State.openLedger_only ..)); decide)
    | ((with_reducible apply Later.only (State.setTk_only ..)); decide)
    | ((with_reducible apply Later.only (State.headSends_only ..)); decide)
    | ((with_reducible apply Later.only (State.cycleOn_only ..)); decide)
    | with_reducible apply Later.step (State.setRole_later ..)
    | fail_if_no_progress with_reducible refine Later.frm_net_red (by first | exact Nat.le_refl _ | exact Nat.le_add_right _ _) ?_
    | fail_if_no_progress with_reducible refine Later.frm (by first | exact Nat.le_refl _ | exact Nat.le_add_right _ _) ?_
    | fail_if_no_progress with_reducible refine Later.net ?_
    | fail_if_no_progress with_reducible refine Later.red ?_)

theorem execTakeoverStart_later (s : State) : AnswersLater s (execTakeoverStart s) := by
  unfold execTakeoverStart
  repeat (first
    | with_reducible refine AnswersLater.next ?_
    | with_reducible exact Later.refl _
    | with_reducible assumption
    | with_reducible apply Later.step (State.becomeHead_later ..)
    | ((with_reducible apply Later.only (State.raiseDev_only ..)); decide)
    | with_reducible refine Later.ite ?_ ?_)

theorem execHandoverStart_later (s : State) : AnswersLater s (execHandoverStart s) := by
  unfold execHandoverStart
  repeat (first
    | with_reducible refine AnswersLater.next ?_
    | with_reducible exact Later.refl _
    | with_reducible assumption
    | with_reducible apply Later.step (State.becomeHead_later ..)
    | ((with_reducible apply Later.only (State.connTxStart_only ..)); decide)
    | ((with_reducible apply Later.only (State.raiseDev_only ..)); decide)
    | with_reducible refine Later.ite ?_ ?_
    | fail_if_no_progress with_reducible refine Later.red ?_)

theorem execImageLoadComplete_later (t : Nat) (s : State) : AnswersLater s (execImageLoadComplete t s) := by
  unfold execImageLoadComplete
  repeat (first
    | with_reducible refine AnswersLater.next ?_
    | with_reducible exact Later.refl _
    | with_reducible assumption
    | with_reducible apply Later.step (State.goto_later ..)
    | with_reducible refine Later.ite ?_ ?_
    | fail_if_no_progress with_reducible refine Later.red ?_
    | split
    | (dsimp -proj -beta only []; split))

theorem execFirnSegmentSend_later (s : State) : AnswersLater s (execFirnSegmentSend s) := by
  unfold execFirnSegmentSend
  repeat (first
    | with_reducible refine AnswersLater.next ?_
    | with_reducible exact Later.refl _
    | with_reducible assumption
    | with_reducible apply Later.step (State.goto_later ..)
    | ((with_reducible apply Later.only (State.pulseX_only ..)); decide)
    | with_reducible refine Later.ite ?_ ?_
    | fail_if_no_progress with_reducible refine Later.red ?_
    | split
    | (dsimp -proj -beta only []; split))

theorem execFirnSegmentReceived_later (seg : Segment) (t : Nat) (s : State) : AnswersLater s (execFirnSegmentReceived seg t s) := by
  unfold execFirnSegmentReceived
  repeat (first
    | with_reducible refine AnswersLater.next ?_
    | with_reducible exact Later.refl _
    | with_reducible assumption
    | ((with_reducible apply Later.only (State.healthBit_only ..)); decide)
    | with_reducible apply Later.step (State.goto_later ..)
    | ((with_reducible apply Later.only (State.pulseX_only ..)); decide)
    | with_reducible refine Later.ite ?_ ?_
    | fail_if_no_progress with_reducible refine Later.red ?_
    | split
    | (dsimp -proj -beta only []; split))

theorem State.applyEntry_later (s : State) (e : Nat × W64) : Later s (State.applyEntry s e) := by
  unfold State.applyEntry
  repeat (first
    | with_reducible exact Later.refl _
    | with_reducible assumption
    | ((with_reducible apply Later.only (State.setFch_only ..)); decide)
    | ((with_reducible apply Later.only (State.setZone_only ..)); decide)
    | ((with_reducible apply Later.only (State.setPar_only ..)); decide)
    | with_reducible refine Later.ite ?_ ?_
    | fail_if_no_progress with_reducible refine Later.frm (by first | exact Nat.le_refl _ | exact Nat.le_add_right _ _) ?_)

theorem applyEntries_later (l : List (Nat × Nat)) (s : State) : Later s (applyEntries l s) := by
  induction l, s using applyEntries.induct with
  | case1 s => exact Later.refl _
  | case2 k v s => exact State.applyEntry_later ..
  | case3 k lo k' hi r s h ih =>
    unfold applyEntries; rw [if_pos h]
    exact Later.step ih (State.applyEntry_later ..)
  | case4 k lo k' hi r s h ih =>
    unfold applyEntries; rw [if_neg h]
    exact Later.step ih (State.applyEntry_later ..)

theorem execParameterRecordReceived_later (bytes : List Byte) (t : Nat) (s : State) : AnswersLater s (execParameterRecordReceived bytes t s) := by
  unfold execParameterRecordReceived
  repeat (first
    | with_reducible refine AnswersLater.next ?_
    | with_reducible exact Later.refl _
    | with_reducible assumption
    | with_reducible apply Later.step (applyEntries_later ..)
    | with_reducible apply Later.step (State.goto_later ..)
    | with_reducible refine Later.ite ?_ ?_)

theorem execReturnReceived_later (bytes : List Byte) (t : Nat) (s : State) : AnswersLater s (execReturnReceived bytes t s) := by
  unfold execReturnReceived
  repeat (first
    | with_reducible refine AnswersLater.next ?_
    | with_reducible exact Later.refl _
    | with_reducible assumption
    | ((with_reducible apply Later.only (State.yieldAnswer_only ..)); decide)
    | with_reducible apply Later.step (State.goto_later ..)
    | ((with_reducible apply Later.only (State.raiseDev_only ..)); decide)
    | with_reducible refine Later.ite ?_ ?_
    | fail_if_no_progress with_reducible refine Later.red ?_)

theorem execYieldSilence_later (s : State) : AnswersLater s (execYieldSilence s) := by
  unfold execYieldSilence
  repeat (first
    | with_reducible refine AnswersLater.next ?_
    | with_reducible exact Later.refl _
    | with_reducible assumption
    | with_reducible apply Later.step (State.leaveHead_later ..)
    | with_reducible refine Later.ite ?_ ?_)

theorem State.clearRun_later (s : State) : Later s (State.clearRun s) := by
  unfold State.clearRun
  repeat (first
    | with_reducible exact Later.refl _
    | with_reducible assumption
    | ((with_reducible apply Later.only (State.discardHead_only ..)); decide)
    | with_reducible apply Later.step (State.setRole_later ..)
    | fail_if_no_progress with_reducible refine Later.frm_net_evt_cfg (by first | exact Nat.le_refl _ | exact Nat.le_add_right _ _) ?_
    | fail_if_no_progress with_reducible refine Later.axes_lines_cams_zones_params ?_
    | fail_if_no_progress with_reducible refine Later.frm (by first | exact Nat.le_refl _ | exact Nat.le_add_right _ _) ?_
    | fail_if_no_progress with_reducible refine Later.axes ?_
    | fail_if_no_progress with_reducible refine Later.lines ?_
    | fail_if_no_progress with_reducible refine Later.cams ?_
    | fail_if_no_progress with_reducible refine Later.zones ?_
    | fail_if_no_progress with_reducible refine Later.net ?_
    | fail_if_no_progress with_reducible refine Later.evt ?_
    | fail_if_no_progress with_reducible refine Later.params ?_
    | fail_if_no_progress with_reducible refine Later.cfg ?_)

theorem State.endConfig_later (s : State) : Later s (State.endConfig s) := by
  unfold State.endConfig
  repeat (first
    | with_reducible exact Later.refl _
    | with_reducible assumption
    | with_reducible apply Later.step (State.clearRun_later ..)
    | ((with_reducible apply Later.only (State.stopKernels_only ..)); decide)
    | ((with_reducible apply Later.only (State.capHalt_only ..)); decide)
    | ((with_reducible apply Later.only (State.dropSseq_only ..)); decide)
    | ((with_reducible apply Later.only (State.closeLedgers_only ..)); decide)
    | with_reducible refine Later.ite ?_ ?_
    | fail_if_no_progress with_reducible refine Later.fio ?_)

theorem State.switchTo_later (s : State) (k : Nat) : Later s (State.switchTo s k) := by
  unfold State.switchTo
  repeat (first
    | with_reducible exact Later.refl _
    | with_reducible assumption
    | with_reducible apply Later.step (State.endConfig_later ..)
    | with_reducible refine Later.ite ?_ ?_
    | fail_if_no_progress with_reducible refine Later.cfg ?_)

theorem State.serveSlot_later (s : State) (p : Nat → Bool) (f : State → Nat → Nat → State) (hf : ∀ y m j, Later y (f y m j)) : Later s (State.serveSlot s p f) := by
  unfold State.serveSlot
  repeat (first
    | with_reducible exact Later.refl _
    | with_reducible assumption
    | with_reducible apply Later.step (hf ..)
    | ((with_reducible apply Later.only (State.take_only ..)); decide)
    | with_reducible refine Later.ite ?_ ?_
    | split
    | (dsimp -proj -beta only []; split))

theorem execCfgActivate_later (s : State) : AnswersLater s (execCfgActivate s) := by
  unfold execCfgActivate
  repeat (first
    | with_reducible refine AnswersLater.next ?_
    | with_reducible exact Later.refl _
    | with_reducible assumption
    | with_reducible refine State.serveSlot_later _ _ _ ?_
    | (intro _ _ _; try beta_reduce)
    | with_reducible apply Later.step (State.switchTo_later ..)
    | ((with_reducible apply Later.only (State.activate_only ..)); decide)
    | ((with_reducible apply Later.only (State.answer_only ..)); decide)
    | ((with_reducible apply Later.only (State.raiseDev_only ..)); decide)
    | with_reducible refine Later.ite ?_ ?_
    | fail_if_no_progress with_reducible refine Later.cfg ?_)

theorem State.takeImage_later (s : State) (img : List Byte) : Later s (State.takeImage s img) := by
  unfold State.takeImage
  repeat (first
    | with_reducible exact Later.refl _
    | with_reducible assumption
    | with_reducible refine Later.foldl ?_ ?_
    | (intro _ _ _; try beta_reduce)
    | fail_if_no_progress with_reducible refine Later.cams_camStg_evt_params ?_
    | fail_if_no_progress with_reducible refine Later.frm_cams (by first | exact Nat.le_refl _ | exact Nat.le_add_right _ _) ?_
    | fail_if_no_progress with_reducible refine Later.frm (by first | exact Nat.le_refl _ | exact Nat.le_add_right _ _) ?_
    | fail_if_no_progress with_reducible refine Later.cams ?_
    | fail_if_no_progress with_reducible refine Later.camStg ?_
    | fail_if_no_progress with_reducible refine Later.evt ?_
    | fail_if_no_progress with_reducible refine Later.params ?_)

theorem State.startConfig_later (s : State) (k : Nat) : Later s (State.startConfig s k) := by
  unfold State.startConfig
  repeat (first
    | with_reducible exact Later.refl _
    | with_reducible assumption
    | ((with_reducible apply Later.only (State.ioStart_only ..)); decide)
    | ((with_reducible apply Later.only (State.hostStart_only ..)); decide)
    | ((with_reducible apply Later.only (State.netStart_only ..)); decide)
    | ((with_reducible apply Later.only (State.enablePorts_only ..)); decide)
    | with_reducible apply Later.step (State.takeImage_later ..)
    | ((with_reducible apply Later.only (State.writeTasks_only ..)); decide)
    | ((with_reducible apply Later.only (State.initAxes_only ..)); decide)
    | ((with_reducible apply Later.only (State.ovlShow_only ..)); decide)
    | ((with_reducible apply Later.only (State.openLedger_only ..)); decide)
    | with_reducible apply Later.step (State.setRole_later ..)
    | with_reducible refine Later.ite ?_ ?_
    | with_reducible refine Later.foldl ?_ ?_
    | (intro _ _ _; try beta_reduce)
    | fail_if_no_progress with_reducible refine Later.red_cfg ?_
    | fail_if_no_progress with_reducible refine Later.frm (by first | exact Nat.le_refl _ | exact Nat.le_add_right _ _) ?_
    | fail_if_no_progress with_reducible refine Later.red ?_
    | fail_if_no_progress with_reducible refine Later.cfg ?_)

theorem execBaseConfigStart_later (s : State) : AnswersLater s (execBaseConfigStart s) := by
  unfold execBaseConfigStart
  repeat (first
    | with_reducible refine AnswersLater.next ?_
    | with_reducible exact Later.refl _
    | with_reducible assumption
    | ((with_reducible apply Later.only (State.refuseConfig_only ..)); decide)
    | with_reducible apply Later.step (State.startConfig_later ..)
    | with_reducible refine Later.ite ?_ ?_
    | split
    | (dsimp -proj -beta only []; split))

theorem execBwWindowEnd_later (m : Fin 10) (s : State) : AnswersLater s (execBwWindowEnd m s) := by
  unfold execBwWindowEnd
  repeat (first
    | with_reducible refine AnswersLater.next ?_
    | with_reducible exact Later.refl _
    | with_reducible assumption
    | with_reducible apply Later.step (State.goto_later ..)
    | with_reducible refine Later.ite ?_ ?_
    | fail_if_no_progress with_reducible refine Later.prf ?_)

theorem execDramSelfRefresh_later (s : State) : AnswersLater s (execDramSelfRefresh s) := by
  unfold execDramSelfRefresh
  repeat (first
    | with_reducible refine AnswersLater.next ?_
    | with_reducible exact Later.refl _
    | with_reducible assumption
    | with_reducible apply Later.step (State.goto_later ..)
    | with_reducible refine Later.ite ?_ ?_
    | fail_if_no_progress with_reducible refine Later.pwr ?_)

theorem State.writeHost_later (s : State) (o : Nat) (v : W32) : Later s (State.writeHost s o v) := by
  unfold State.writeHost
  repeat (first
    | with_reducible exact Later.refl _
    | with_reducible assumption
    | ((with_reducible apply Later.only (State.setEvt_only ..)); decide)
    | with_reducible refine Later.ite ?_ ?_
    | fail_if_no_progress with_reducible refine Later.frm (by first | exact Nat.le_refl _ | exact Nat.le_add_right _ _) ?_
    | fail_if_no_progress with_reducible refine Later.host ?_
    | fail_if_no_progress with_reducible refine Later.lgr ?_)

theorem execRegisterWrite_later (off : Nat) (v : W32) (s : State) : AnswersLater s (execRegisterWrite off v s) := by
  unfold execRegisterWrite
  repeat (first
    | with_reducible refine AnswersLater.next ?_
    | with_reducible exact Later.refl _
    | with_reducible assumption
    | ((with_reducible apply Later.only (State.writeIo_only ..)); decide)
    | ((with_reducible apply Later.only (State.writeCore_only ..)); decide)
    | with_reducible apply Later.step (State.writeHost_later ..)
    | ((with_reducible apply Later.only (State.hostWrite_only ..)); decide)
    | with_reducible refine Later.ite ?_ ?_)

theorem State.setEntry_later (s : State) (e : Nat × W64) : Later s (State.setEntry s e) := by
  unfold State.setEntry
  repeat (first
    | with_reducible exact Later.refl _
    | with_reducible assumption
    | with_reducible apply Later.step (State.applyEntry_later ..)
    | fail_if_no_progress with_reducible refine Later.red ?_)

theorem State.decideWrite_later (s : State) (t : Taken) : Later s (State.decideWrite s t) := by
  unfold State.decideWrite
  repeat (first
    | with_reducible exact Later.refl _
    | with_reducible assumption
    | with_reducible apply Later.step (State.setEntry_later ..)
    | ((with_reducible apply Later.only (State.answer_only ..)); decide)
    | ((with_reducible apply Later.only (State.pulse_only ..)); decide)
    | with_reducible refine Later.foldl ?_ ?_
    | (intro _ _ _; try beta_reduce)
    | split
    | (dsimp -proj -beta only []; split))

theorem State.decideOvl_later (s : State) (t : Taken) : Later s (State.decideOvl s t) := by
  unfold State.decideOvl
  repeat (first
    | with_reducible exact Later.refl _
    | with_reducible assumption
    | ((with_reducible apply Later.only (State.autoFreeze_only ..)); decide)
    | with_reducible apply Later.step (State.setEntry_later ..)
    | ((with_reducible apply Later.only (State.answer_only ..)); decide)
    | ((with_reducible apply Later.only (State.raiseDev_only ..)); decide)
    | ((with_reducible apply Later.only (State.pulse_only ..)); decide)
    | with_reducible refine Later.ite ?_ ?_
    | with_reducible refine Later.foldl ?_ ?_
    | (intro _ _ _; try beta_reduce)
    | split
    | (dsimp -proj -beta only []; split))

theorem State.decideCfg_later (s : State) (t : Taken) : Later s (State.decideCfg s t) := by
  unfold State.decideCfg
  repeat (first
    | with_reducible exact Later.refl _
    | with_reducible assumption
    | with_reducible apply Later.step (State.switchTo_later ..)
    | ((with_reducible apply Later.only (State.activate_only ..)); decide)
    | ((with_reducible apply Later.only (State.answer_only ..)); decide)
    | with_reducible refine Later.ite ?_ ?_)

theorem State.decideOne_later (s : State) (t : Taken) : Later s (State.decideOne s t) := by
  unfold State.decideOne
  repeat (first
    | with_reducible exact Later.refl _
    | with_reducible assumption
    | with_reducible apply Later.step (State.decideCfg_later ..)
    | with_reducible apply Later.step (State.decideOvl_later ..)
    | with_reducible apply Later.step (State.decideWrite_later ..)
    | ((with_reducible apply Later.only (State.answer_only ..)); decide)
    | with_reducible refine Later.ite ?_ ?_)

theorem State.decideTaken_later (s : State) : Later s (State.decideTaken s) := by
  unfold State.decideTaken
  repeat (first
    | with_reducible exact Later.refl _
    | with_reducible assumption
    | with_reducible apply Later.step (State.decideOne_later ..)
    | with_reducible refine Later.foldl ?_ ?_
    | (intro _ _ _; try beta_reduce))

theorem State.headBoundary_later (s : State) : Later s (State.headBoundary s) := by
  unfold State.headBoundary
  repeat (first
    | with_reducible exact Later.refl _
    | with_reducible assumption
    | ((with_reducible apply Later.only (State.axisBoundary_only ..)); decide)
    | ((with_reducible apply Later.only (State.startYield_only ..)); decide)
    | ((with_reducible apply Later.only (State.endStops_only ..)); decide)
    | with_reducible apply Later.step (State.decideTaken_later ..)
    | ((with_reducible apply Later.only (State.axAnswers_only ..)); decide)
    | ((with_reducible apply Later.only (Only.eq_fst (State.axRun_only ..) (by assumption))); decide)
    | ((with_reducible apply Later.only (State.axRun_only ..)); decide)
    | with_reducible refine Later.ite ?_ ?_
    | fail_if_no_progress with_reducible refine Later.evt ?_
    | split
    | (dsimp -proj -beta only []; split))

theorem State.otherBoundary_later (s : State) : Later s (State.otherBoundary s) := by
  unfold State.otherBoundary
  repeat (first
    | with_reducible exact Later.refl _
    | with_reducible assumption
    | with_reducible apply Later.step (State.decideTaken_later ..)
    | fail_if_no_progress with_reducible refine Later.red_evt ?_
    | fail_if_no_progress with_reducible refine Later.red ?_
    | fail_if_no_progress with_reducible refine Later.evt ?_)

theorem State.boundaryEnd_later (late : Bool) (s : State) : Later s (State.boundaryEnd late s) := by
  unfold State.boundaryEnd
  repeat (first
    | with_reducible exact Later.refl _
    | with_reducible assumption
    | ((with_reducible apply Later.only (State.procSends_only ..)); decide)
    | ((with_reducible apply Later.only (State.inputStart_only ..)); decide)
    | ((with_reducible apply Later.only (State.ledRequest_only ..)); decide)
    | ((with_reducible apply Later.only (State.paramSends_only ..)); decide)
    | ((with_reducible apply Later.only (State.headSends_only ..)); decide)
    | ((with_reducible apply Later.only (State.releaseFrame_only ..)); decide)
    | with_reducible refine Later.ite ?_ ?_
    | fail_if_no_progress with_reducible refine Later.frm (by first | exact Nat.le_refl _ | exact Nat.le_add_right _ _) ?_)

theorem execTickTakesEffect_later (s : State) : AnswersLater s (execTickTakesEffect s) := by
  unfold execTickTakesEffect
  repeat (first
    | with_reducible refine AnswersLater.next ?_
    | with_reducible exact Later.refl _
    | with_reducible assumption
    | with_reducible apply Later.step (State.boundaryEnd_later ..)
    | ((with_reducible apply Later.only (State.ioBoundary_only ..)); decide)
    | ((with_reducible apply Later.only (State.fullClock_only ..)); decide)
    | with_reducible apply Later.step (State.otherBoundary_later ..)
    | with_reducible apply Later.step (State.headBoundary_later ..)
    | ((with_reducible apply Later.only (State.takeDecim_only ..)); decide)
    | with_reducible apply Later.step (State.switchTo_later ..)
    | with_reducible apply Later.step (State.gotoLatency_later ..)
    | with_reducible refine Later.ite ?_ ?_
    | fail_if_no_progress with_reducible refine Later.frm (by first | exact Nat.le_refl _ | exact Nat.le_add_right _ _) ?_
    | split
    | (dsimp -proj -beta only []; split))

theorem execSampleInstant_later (s : State) : AnswersLater s (execSampleInstant s) := by
  unfold execSampleInstant
  repeat (first
    | with_reducible refine AnswersLater.next ?_
    | with_reducible exact Later.refl _
    | with_reducible assumption
    | ((with_reducible apply Later.only (State.fioLatch_only ..)); decide)
    | ((with_reducible apply Later.only (State.encSample_only ..)); decide)
    | with_reducible apply Later.step (State.goto_later ..)
    | ((with_reducible apply Later.only (State.setStep_only ..)); decide)
    | with_reducible refine Later.ite ?_ ?_
    | with_reducible refine Later.foldl ?_ ?_
    | (intro _ _ _; try beta_reduce))

theorem State.quitSteps_later (s : State) : Later s (State.quitSteps s) := by
  unfold State.quitSteps
  repeat (first
    | with_reducible exact Later.refl _
    | with_reducible assumption
    | ((with_reducible apply Later.only (State.stepWithdraw_only ..)); decide)
    | with_reducible apply Later.step (State.goto_later ..)
    | with_reducible refine Later.foldl ?_ ?_
    | (intro _ _ _; try beta_reduce)
    | fail_if_no_progress with_reducible refine Later.red ?_
    | split
    | (dsimp -proj -beta only []; split))

theorem execApplyInstant_later (s : State) : AnswersLater s (execApplyInstant s) := by
  unfold execApplyInstant
  repeat (first
    | with_reducible refine AnswersLater.next ?_
    | with_reducible exact Later.refl _
    | with_reducible assumption
    | with_reducible apply Later.step (State.quitSteps_later ..)
    | ((with_reducible apply Later.only (State.nodeApply_only ..)); decide)
    | ((with_reducible apply Later.only (State.fioApply_only ..)); decide)
    | ((with_reducible apply Later.only (State.stepApply_only ..)); decide)
    | with_reducible apply Later.step (State.goto_later ..)
    | with_reducible refine Later.ite ?_ ?_
    | with_reducible refine Later.foldl ?_ ?_
    | (intro _ _ _; try beta_reduce)
    | split
    | (dsimp -proj -beta only []; split))

end Sys2Proof.Machine
end

