-- ==== Sys2Proof/WellFormed.lean ====
section
/-! DEFINITION. The static checks of a command: operand values that the interface the command comes from can carry. The
meanings do not rest on them; they say which terms stand for something that can happen at the part's pins and buses. -/

namespace Sys2Proof

/-- A frame from the destination address to the FCS: Ethernet allows no frame above 2,000 bytes (R157). -/
def wfFrame (bytes : List Byte) : Bool := bytes.length ≤ 2000
/-- A register offset of BAR0 that one 32-bit access can name (R374). -/
def wfOff (off lim : Nat) : Bool := off < lim && off % 4 = 0
/-- A voltage in mV that a measurement word can hold (R445). -/
def wfMv (mv : Nat) : Bool := mv < 65536

/-- The static checks. -/
def Instr.wf : Instr → Bool
  | .staticFrameReceived _ bytes _ _ => wfFrame bytes
  | .dynamicUplinkReceived _ bytes _ _ => wfFrame bytes
  | .dlyTrimReceived _ bytes _ => wfFrame bytes
  | .foreignCsm _ bytes _ => wfFrame bytes
  | .csmReceived _ bytes _ => wfFrame bytes
  | .commandBlockReceived _ bytes _ => wfFrame bytes
  | .keeperFrameReceived _ bytes _ => wfFrame bytes
  | .processDataReceived _ bytes _ => wfFrame bytes
  | .heartbeatReceived bytes _ => wfFrame bytes
  | .returnReceived bytes _ => wfFrame bytes
  | .parameterRecordReceived bytes _ => wfFrame bytes
  | .safetyPduReceived _ bytes _ => wfFrame bytes
  | .criticalKernelComplete _ t opnd comp => opnd ≤ comp && comp ≤ t
  | .trailingKernelComplete _ t opnd comp => opnd ≤ comp && comp ≤ t
  | .zoneKernelComplete _ t opnd comp => opnd ≤ comp && comp ≤ t
  | .zoneTrailingKernelComplete _ t opnd comp => opnd ≤ comp && comp ≤ t
  | .threadBlock _ _ delay _ => delay < 2 ^ 24
  | .ssiDelivery _ frame _ => frame < 2 ^ 32
  | .firnSegmentReceived seg _ => seg.bytes.length == 1504
  | .safetyTick rb => rb.length = 7 && (rb.take 6).all wfMv
  | .tickExchange _ rb => rb.length = 6 && (rb.take 5).all wfMv
  | .offTestWindowEnd _ _ r => wfMv r.mv
  | .housekeepingCycle _ ret => ret.length = 4
  | .fieldInputChange _ _ run => 1 ≤ run
  | .diagClassify _ mv => wfMv mv
  | .captureApertureWrite off _ => wfOff off (2 ^ 25)
  | .resetRelease _ _ vio => wfMv vio
  | .droopDetect mv => mv < 770
  | .droopClear mv => 770 ≤ mv && wfMv mv
  | .calvingStageEntry _ mv => wfMv mv
  | .calvingStage4 mv => wfMv mv
  | .calvingStageExit _ mv => wfMv mv
  | .vcoreFault mv => wfMv mv
  | .bar0UnsupportedAccess off bytes => bytes ≠ 4 || off % 4 ≠ 0
  | .mailboxBufferWrite off _ => wfOff off 0x40000
  | .outputWindowWrite off _ => wfOff off 0x8000
  | .registerWrite off _ => wfOff off 0x10000
  | .pcieLinkUp speed width => 1 ≤ speed && speed ≤ 3 && 1 ≤ width && width ≤ 2
  | _ => true

end Sys2Proof
end

