-- ==== Sys2Proof/Tests/Slice0.lean ====
section
/-! SUPPORT. Small tests and witnesses. Each witness shows a small state and operands that meet every hypothesis of a clause of a
statement, and that the clause's conclusion then holds; the values come from the spec's numbers or are counted by hand. -/

namespace Sys2Proof.Machine.Tests

set_option Elab.async false

/-- Every test of a list passes. -/
def all (l : List Bool) : Bool := l.all id

/-- The command completes, and its next state passes a test. -/
def after (o : Out) (f : State → Bool) : Bool :=
  match o with
  | .next t => f t
  | _ => false

/-- The command leaves the state as it was. -/
def keeps (i : Instr) (s : State) : Bool := after (exec i s) fun u => u == s

/-- An event of a code and an object stands in the queue. -/
def ev (u : State) (code obj : Nat) : Bool :=
  u.evt.queue.any fun e => e.code == BitVec.ofNat 16 code && e.obj == BitVec.ofNat 16 obj

/-- The state with parameters c.i.n at values. -/
def prm (l : List (Nat × Nat × Nat × Nat)) (s : State) : State :=
  l.foldl (fun s x => s.setPar x.1 x.2.1 x.2.2.1 (BitVec.ofNat 64 x.2.2.2)) s

/-- A head in frame 7 of its cycle, P = 250 µs, with T0 at 10 ms, served by firmware, at service level 2. -/
def hd : State :=
  { frm := { role := .head, run := true, period := 250000, now := 50000000, t0 := 50000000, frame := 7, first := false },
    cfg := { fwOn := true, fwSlot := 0, running := true }, pwr := { sl := 2, good := true },
    net := { cs := .head, epoch := 1 } }

/-- The head with branch 0 of two nodes in its cycle. -/
def hb : State :=
  (prm [(3, 0, 0, 1), (3, 0, 1, 2), (2, 0, 3, 128), (2, 0, 4, 10000), (3, 0, 32, 1)] hd).setBranch 0 { inCycle := true }

/-- The n nibbles of a number, most significant first. -/
def nibs (n v : Nat) : List Nibble := (List.range n).map fun k => BitVec.ofNat 4 (v / 16 ^ (n - 1 - k))

/-- A part in a role. -/
def inRole (r : Role) (s : State) : State := { s with frm := { s.frm with role := r } }

/-- A frame from the destination address to the FCS: addresses of zeros, a header, a payload. -/
def fr (h : Hdr) (payload : List Byte) : List Byte := withFcs (List.replicate 14 0 ++ h.bytes ++ payload)

/-! ## The block as a whole -/

theorem test_step_runs_front :
    step { hd with pending := [.frameTick, .perstN] } = exec .frameTick { hd with pending := [.perstN] } := rfl

theorem test_idle_cycle :
    all [State.reset.pending == [] && State.reset.frm.lsTrim == 0 && State.reset.frm.fixTrim == 0 && State.reset.net.rate == [] &&
        State.reset.frm.slewRem == 0 && State.reset.frm.trimAcc == 0,
      after (step State.reset) fun t => t.pending == [] && t.frm.now == 16] = true := by decide +kernel

theorem test_table_words : decodeTableWord 8 0 = none ∧ State.reset.withFetchWord 8 0 = State.reset := by decide +kernel

/-- The premises of the two invariants hold after reset and in the states the witnesses start from. -/
def canon (s : State) : Bool :=
  Memory.wf ramByte s.host.mem && Memory.wf flashByte s.cfg.flash && twf ({} : Axis) s.axes && twf ({} : Zone) s.zones &&
  twf ({} : StepCh) s.steps && twf ({} : Enc) s.encs

theorem test_premises_hold : all [canon State.reset, canon hb, State.reset.cfg.lcy ≤ 3, State.reset.cfg.lcyNext == none,
    after (step { State.reset with cfg := { State.reset.cfg with lcyNext := some 2 } }) fun t => t.cfg.lcy == 1] = true := by decide +kernel

/-! ## The frame -/

theorem test_frame_tick :
    all [after (exec .frameTick (prm [(1, 0, 8, 1)] hd)) fun t => t.frm.t0 == 51250000 && t.frm.frame == 8 && t.frm.tickPend &&
        t.frm.lsync && t.frm.lsyncFall == 51250000 + 5 * hd.pn 1 0 9,
      after (exec .frameTick { hd with frm := { hd.frm with first := true } }) fun t => t.frm.t0 == 50000000 && t.frm.frame == 7 &&
        !t.frm.first,
      after (exec .lsyncFall { hd with frm := { hd.frm with lsync := true, lsyncFall := 50000500 } }) fun t =>
        !t.frm.lsync && t.frm.now == 50000500] = true := by decide +kernel

theorem test_lsync_in :
    all [after (exec (.lsyncInEdge ⟨true, 50000007⟩) (prm [(1, 0, 10, 1)] hd)) fun u => u.frm.lsin == 10000001 && u.frm.lsEdge == some 50000007 &&
        u.frm.lsTarget == 0,
      after (exec (.lsyncInEdge ⟨false, 50000007⟩) (prm [(1, 0, 10, 2), (1, 0, 11, 1)] hd)) fun u => u.frm.lsin == 10000001,
      keeps (.lsyncInEdge ⟨false, 50000007⟩) (prm [(1, 0, 10, 1)] hd), keeps (.lsyncInEdge ⟨true, 50000007⟩) (prm [(1, 0, 10, 1), (1, 0, 11, 1)] hd),
      keeps (.lsyncInEdge ⟨true, 50000007⟩) hd, keeps (.lsyncInEdge ⟨true, 50000007⟩) (inRole .node (prm [(1, 0, 10, 1)] hd)),
      after (exec .lsyncInLoss (prm [(1, 0, 10, 2)] { hd with frm := { hd.frm with lsEdge := some 1, lslock := true, lsTrim := 5 } }))
        fun u => !u.frm.lslock && u.frm.lsTarget == 5 && u.frm.ovr == 16 && ev u evLsyncLost devObj] = true := by decide +kernel

/-! ## The network cycle in the head -/

/-- A static frame of position 1 of branch 0 with a frame counter, 88 bytes: L_s = 128 less G and the preamble. -/
def statF (n : Nat) : List Byte := fr { ty := 3, pos := 1, fcnt := n, epoch := 1, dir := true } (List.replicate 62 0)

/-- Position 1 awaits its frame in slot 1, whose nominal start is U0 + 1 · L_s · t_B. -/
def slot1 : Nat := hb.instU0 + 128 * hb.tB

theorem test_static_frames :
    all [hb.headBranch 0, !hb.net.slotFin.getLsbD 0, hb.slotClaim 0 slot1 2 == some 1, hb.slotClaim 0 (slot1 - 16 * hb.tB) 2 == some 1,
      hb.slotClaim 0 (slot1 + 16 * hb.tB + 1) 2 == none, hb.staticOk 0 1 (statF 7) false, !hb.staticOk 0 1 (statF 8) false,
      after (exec (.staticFrameReceived 0 (statF 7) slot1 false) hb) fun u => (u.node 0 1).prov == .valid && (u.node 0 1).present &&
        (u.node 0 1).fresh,
      after (exec (.staticFrameReceived 0 (statF 8) slot1 false) hb) fun u => (u.node 0 1).prov == .corrupt,
      after (exec (.staticFrameReceived 0 (statF 8) slot1 false) (hb.setNode 0 1 { prov := .late })) fun u => (u.node 0 1).prov == .late,
      after (exec (.staticFrameReceived 0 (statF 7) (slot1 + 16 * hb.tB + 1) false) hb) fun u => (u.node 0 1).prov == .late]
      = true := by decide +kernel

theorem test_slot_outcomes :
    all [after (exec (.slotDeadline 0 1) hb) fun u => (u.node 0 1).evPend == some (4 * (hb.slotEnd 0 1 - 50000000) + 25 * 24) && u.frm.now == hb.slotEnd 0 1,
      after (exec (.slotOutcomeFinal 0) (hb.setNode 0 1 { prov := .corrupt })) fun u => u.net.slotFin.getLsbD 0 &&
        (u.node 0 0).lSched == 1 && (u.node 0 0).lEmpty == 1 && (u.node 0 1).lCorrupt == 1 && (u.node 0 1).lEmpty == 0,
      after (exec (.nodeLost 0 1) (hb.setNode 0 1 { present := true, emptyRun := 8 })) fun u => !(u.node 0 1).present &&
        ev u evNodeLost (nodeKey 0 1),
      after (exec (.dlyTrimAverage 0 1) (hb.setNode 0 1 { present := true, avgN := 256, avgSum := 256 * 16 - 1, trim := 3 })) fun u =>
        (u.node 0 1).avgN == 0 && (u.node 0 1).trim == 3 && (u.node 0 1).avgOk,
      after (exec (.dlyTrimAverage 0 1) (hb.setNode 0 1 { present := true, avgN := 256, avgSum := 256 * 40 })) fun u =>
        (u.node 0 1).avgN == 0 && (u.node 0 1).avgSum == 0 && (u.node 0 1).trim == 20] = true := by decide +kernel

/-- Mini-slot 1 of branch 0, owned by position 1, is granted. -/
def hg : State := (prm [(3, 0, 33, 1)] hb).setBranch 0 { inCycle := true, grant := 2 }
def dynF (n : Nat) : List Byte := fr { ty := 4, pos := 1, fcnt := n, epoch := 1, dir := true } (List.replicate 38 0)

theorem test_dynamic_uplink :
    all [hg.headBranch 0, hg.dynClaim 0 2 (hg.msStart 0 2 1) (hg.mB 0) == some 1, hg.dynOk 0 1 (dynF 7) false,
      after (exec (.dynamicUplinkReceived 0 (dynF 7) (hg.msStart 0 2 1) false) hg) fun u => tget 0 (u.branch 0).credit 1 == 1,
      after (exec (.dynamicUplinkReceived 0 (dynF 8) (hg.msStart 0 2 1) false) hg) fun u => tget 0 (u.branch 0).credit 1 == 3] = true := by
  decide +kernel

/-- The last slot's event has laid the packing 9,600 CK_CORE cycles after T0, past U0 at T0 + 11 µs: the block starts at T0 + 12 µs. -/
def hpk : State := hb.setBranch 0 { inCycle := true, packAt := some 240000 }

theorem test_command_blocks :
    all [hpk.headBranch 0, !hpk.red.silentTx, !hpk.bridging, !(hpk.branch 0).blkSent, hpk.branchDone 0, (hpk.packPhase 0).isSome,
      after (exec (.commandBlockStart 0) hpk) fun u => u.frm.now == 50060000 && (u.branch 0).blkSent &&
        (u.branch 0).block == ((hpk.goto (min hpk.instU0 (hpk.cMax 0))).goto 50060000).blockFrame 0,
      after (exec (.commandBlockDeadline 0) hb) fun u => u.frm.now == max hb.frm.now (hb.cMax 0) && (u.branch 0).ddl &&
        (u.branch 0).blkSent] = true := by decide +kernel

/-- The block has been sent; one service frame waits. -/
def hq (kf : Bool) : State :=
  hb.setBranch 0 { inCycle := true, blkSent := true, kfSent := kf, dynFrom := hb.dynStart 0, dynAt := hb.dynStart 0,
                   dynQ := [{ cls := 2, pos := 1, payload := [0, 5] }] }

theorem test_dynamic_downlink :
    all [(hq false).sendsKeeper, (hq false).dynFits (((hq false).branch 0).gridStart hb.tB (hq false).frm.now) ((hq false).keeperFrame 0),
      after (exec (.dynamicDownlinkFrame 0) (hq false)) fun u => (u.branch 0).kfSent && (u.branch 0).keeperF == (hq false).keeperFrame 0 &&
        (u.branch 0).dynQ.length == 1,
      after (exec (.dynamicDownlinkFrame 0) (hq true)) fun u => (u.branch 0).dynQ == [] &&
        (u.branch 0).dynF == (hq true).dynFrame 0 { cls := 2, pos := 1, payload := [0, 5] }] = true := by decide +kernel

theorem test_links :
    all [after (exec (.linkUp 0 true 50000100) (hb.setPort 0 { phyOn := true })) fun u => (u.portOf 0).link && (u.portOf 0).sync,
      after (exec (.linkUp 8 false 50000100) { hb with net := { hb.net with firn := { phyOn := true } } }) fun u => (u.portOf 8).link &&
        !(u.portOf 8).sync,
      after (exec (.linkDown 0 ⟨true, 50000100⟩) (hb.setPort 0 { phyOn := true, link := true, sync := true })) fun u => (u.portOf 0).link &&
        !(u.portOf 0).sync,
      after (exec (.linkDown 0 ⟨false, 50000100⟩) (hb.setPort 0 { phyOn := true, link := true, sync := true })) fun u => !(u.portOf 0).link &&
        !(u.portOf 0).sync && ev u evLinkDown 0] = true := by decide +kernel
/-! ## Starting and joining -/

def cs (c : CsState) (seen : Bool) : State :=
  { hd with frm := { hd.frm with run := false }, net := { cs := c, csEnd := 52500000, csSeen := seen } }

theorem test_coldstart :
    all [after (exec .coldstartStart (cs .idle false)) fun t => t.net.cs == .listening && t.net.csEnd == 50000000 + 2500000 && !t.net.csSeen,
      after (exec .listenWindowExpiry (cs .listening false)) fun t => t.frm.run && t.frm.first && t.frm.frame == 0 &&
        t.frm.t0 == 52500000 && t.net.epoch == 1 && t.net.cs == .early,
      !(cs .silent true).paired,
      after (exec .listenWindowExpiry (cs .silent true)) fun t => t.net.cs == .silent && !t.frm.run && ev t evHeadSeen devObj] = true := by
  decide +kernel

/-- A pair member that heard its peer: 14.0.1 and 14.0.2 are both 9 here, so that the peer is 9 whatever the part's own HEAD_ID. -/
theorem test_coldstart_peer :
    let s := prm [(14, 0, 0, 1), (14, 0, 1, 9), (14, 0, 2, 9)] { (cs .listening true) with net := { (cs .listening true).net with peerId := 9 } }
    s.paired = true ∧ s.net.csSeen = true ∧ s.frm.role = .head ∧ s.net.peerId = s.peer := by
  refine ⟨by decide +kernel, by decide +kernel, by decide +kernel, ?_⟩
  unfold State.peer; split <;> decide +kernel

/-- A standby toward branch 0, obeying head 9 in epoch 1. -/
def sb (j : Join) : State :=
  (prm [(3, 0, 0, 1), (3, 0, 1, 1)] { hd with
    frm := { hd.frm with role := .standby, now := 50000000 }, net := { obeyId := 9, obeyEpoch := 1, hash := 0x55 } }).setJoin 0 j

/-- Its head's CSM of frame n, with T0 in ns. -/
def csmF (n t0 : Nat) : List Byte :=
  fr { ty := 1, fcnt := n, epoch := 1 } (beBytes 6 n ++ beBytes 8 t0 ++ beBytes 8 9 ++ beBytes 4 0x55 ++ beBytes 4 2 ++ [1] ++
    List.replicate 7 0)

/-- When that CSM's frame starts at the port: T0 and the branch's delay. -/
def csmT : Nat := (((sb {}).expectCsm 0 0) - (8 * (sb {}).tB : Nat)).toNat

theorem test_csm_received :
    let f := csmF 7 10000000
    let c := { csmOf f (csmT + 8 * (sb {}).tB) with port := 0 }
    let h := sb { st := .hold, misses := 2 }
    let two := (sb {}).setJoin 1 { st := .settle }
    all [(sb {}).follows, (sb {}).csmWellFormed 0 (csmF 30 77000), (sb {}).csmWellFormed 0 f, !(sb {}).timeSet, two.timeSet,
      after (exec (.csmReceived 0 (csmF 30 77000) ⟨60000000, false⟩) (sb {})) fun u => (u.join 0).st == .settle && u.frm.frame == 30 && u.frm.run &&
        u.frm.tsync && u.frm.t0 == 385000 && u.net.obeyId == 9 && u.net.obeyEpoch == 1,
      after (exec (.csmReceived 0 (csmF 30 77000) ⟨60000000, false⟩) two) fun u => (u.join 0).st == .settle && u.frm.t0 == hd.frm.t0 &&
        u.frm.frame == 7,
      after (exec (.csmReceived 0 (csmF 30 77000) ⟨60000000, true⟩) (sb {})) fun u => (u.join 0).st == .listen && u.frm.frame == 7,
      (h.rxFrame 0 csmT f false).csmInFrame 0 c,
      after (exec (.csmReceived 0 f ⟨csmT, false⟩) h) fun u => (u.join 0).cands == [c] && (u.join 0).st == .hold] = true := by
  decide +kernel

/-- At the window's end the one valid CSM is obeyed; two heads of one epoch leave none valid; the fourth miss loses SYNC. -/
theorem test_csm_window :
    let c := { csmOf (csmF 7 10000000) (csmT + 8 * (sb {}).tB) with port := 0 }
    let h := sb { st := .hold, misses := 2, cands := [c] }
    all [h.follows, pickCsm [c] == some c, h.csmValid 0 c, pickCsm [c, { c with headId := 8 }] == none,
      after (exec (.csmWindowClose 0) h) fun u => (u.join 0).st == .sync && (u.join 0).misses == 0 && (u.join 0).kept == some c &&
        u.net.obeyId == 9 && u.net.obeyEpoch == 1,
      after (exec (.csmWindowClose 0) (sb { st := .sync, cands := [c, { c with headId := 8 }] })) fun u => (u.join 0).st == .hold &&
        (u.join 0).misses == 1,
      after (exec (.csmWindowClose 0) (sb { st := .hold, misses := 2 })) fun u => (u.join 0).st == .hold && (u.join 0).misses == 3,
      after (exec (.csmWindowClose 0) (sb { st := .hold, misses := 3 })) fun u => (u.join 0).st == .listen && ev u evSyncLoss 0] = true := by
  decide +kernel

/-- A CSM kept in frame 7, with KREF_VALID and a grant of mini-slot 1. -/
def kept : Csm := { fcnt := 7, t0 := 10000000, headId := 9, epoch := 1, hash := 0x55, grant := 2, cflags := 1, stamp := 50000000, port := 0 }

def blockF : List Byte := fr { ty := 2, fcnt := 7, epoch := 1 } (List.replicate 42 0)
def keepF : List Byte := fr { ty := 6, fcnt := 7, epoch := 1 } ([1, 0, 1, 0] ++ beBytes 4 0x3F800000 ++ beBytes 4 0 ++ List.replicate 30 0)

/-- A part in the node role at position 1 of branch 0 of two nodes. -/
def nd (j : Join) : State :=
  (prm [(3, 0, 0, 1), (3, 0, 1, 2), (3, 0, 33, 1), (2, 0, 3, 128), (2, 0, 4, 10000), (2, 0, 16, 0), (2, 0, 17, 1)]
    { hd with frm := { hd.frm with role := .node, now := 49000000 },
              net := { obeyId := 9, obeyEpoch := 1, hash := 0x55, orient := some true } }).setJoin 0 j
def trimF : List Byte := fr { ty := 5, pos := 1, fcnt := 7, epoch := 1 } ([2, 0, 0, 2] ++ beBytes 2 0xFFF0 ++ List.replicate 36 0)
def downF : List Byte := fr { ty := 5, pos := 1, fcnt := 7, epoch := 1 } ([3, 0, 0, 4] ++ beBytes 4 5 ++ List.replicate 34 0)

theorem test_followers :
    all [hchkOk blockF, fcsOk blockF,
      after (exec (.commandBlockReceived 0 blockF 50000000) (sb { st := .settle, settleN := 7 })) fun u => (u.join 0).block,
      intact keepF false,
      after (exec (.keeperFrameReceived 0 keepF 50000000) (sb { st := .sync, kept := some kept })) fun u =>
        tget none u.net.krefNext 8 == some (⟨0x3F800000⟩, ⟨0⟩) && u.net.kref == [] && u.net.krefNext.length == 1,
      intact trimF false, dynClass trimF == 2,
      after (exec (.dlyTrimReceived 0 trimF 50000000) (nd { st := .sync, dTrimNew := 4 })) fun u => (u.join 0).dTrimNew == -12] = true := by
  decide +kernel

theorem test_node_role :
    let s := nd { st := .sync, syncFrom := 3, kept := some kept, decided := true }
    all [s.nodeSpeaks, !s.net.noDyn, !s.net.calve, kept.grant.getLsbD 1, s.msOwner 0 1 == 1, s.upUnsent == [],
      after (exec (.nodeDynamicTransmit 1) s) fun u => dynClass u.net.nrole.upFrame == 3 &&
        (frameHdr u.net.nrole.upFrame).ty == 4 && (frameHdr u.net.nrole.upFrame).pos == 1 && beAt u.net.nrole.upFrame 24 2 == 200,
      after (exec (.nodeDynamicTransmit 1) { s with net := { s.net with calve := true } }) fun u => u.net.nrole.upFrame == [],
      intact downF false, 49000000 + wireB downF * s.tB ≤ s.eDyn,
      after (exec (.processDataReceived 0 downF 49000000) s) fun u => u.net.nrole.down == [(7, beBytes 4 5)],
      s.passes.contains (s.txAt s.eDyn), s.frm.now ≤ s.txAt s.eDyn - 13 * s.tB,
      after (exec (.fence 0) s) fun u => (s.passes.any fun q => u.frm.now == q - 13 * s.tB) &&
        u.net.rep == tmod {} s.headPort (fun r => r.fence s.tB u.frm.now) s.net.rep,
      after (exec .orientationDecision { s with net := { s.net with orient := some false } }) fun u => u.net.orientNext == some true &&
        u.net.orient == some false && u.net.noDyn] = true := by decide +kernel

/-- The static frame's words are free values: only its instant is tested. -/
theorem test_node_static :
    let s := nd { st := .hold }
    all [s.nodeSpeaks, after (exec .nodeStaticTransmit s) fun u => u.frm.now == max s.frm.now (s.txAt (s.slotStart 0 1))] = true := by
  decide +kernel

/-! ## The dispatcher -/

def tk (l : List (Nat × Task)) (s : State) : State := l.foldl (fun s x => s.setTask x.1 x.2) s

theorem test_kernel_dispatch :
    let s := (tk [(3, { cls := .critical, st := .ready, frame := 7 }), (4, { cls := .critical, st := .ready })] hd).setReady 0 [3, 4]
    all [s.freeLane == some 0,
      after (exec .kernelDispatch s) fun u => (u.task 3).st == .run && (u.task 3).lane == 0 && tget 0 u.dsp.lanes 0 == 4 &&
        u.readyList 0 == [4],
      after (exec .kernelDispatch hd) fun u => u == hd.gateCheck] = true := by decide +kernel

theorem test_dependences :
    let k : Task := { cls := .critical, dep := 1, st := .wait }
    let s := (tk [(3, k)] hb)
    let s := { s with dsp := { s.dsp with bind := [(1, [3]), (256, [3])] } }
    all [s.bound 1 == [3],
      after (exec (.slotEvent 0 1) (s.setNode 0 1 { evPend := some 50000400 })) fun u => (u.node 0 1).evDone && (u.node 0 1).evPend == none &&
        (u.task 3).dep == 0 && (u.task 3).st == .ready,
      after (exec .lnFeedbackValid s) fun u => u.frm.now == s.instS + 2500 && (u.task 3).dep == 0,
      after (exec (.firmwareSignal 3) (tk [(3, { k with dep := 9 })] hd)) fun u => (u.task 3).dep == 8 && (u.task 3).st == .wait,
      after (exec (.firmwareSignal 3) (tk [(3, { k with dep := 0, st := .idle })] hd)) fun u => u.dsp.fault == 1 && ev u evDepFault devObj &&
        (u.task 3).dep == 0,
      after (exec (.firmwareSignal 3) (tk [(3, { k with dep := 0, st := .ready, tmo := true })] hd)) fun u => u.dsp.fault == 0 && u.evt == hd.evt &&
        (u.task 3).st == .ready] = true := by decide +kernel

theorem test_tasks_become_ready :
    let x : ThreadDesc := { level := 5, fp := 2, depInit := 0, obj := 3, entry := 0x40, period := 0, tbase := 0, delay := 0, succ := [] }
    let t := tk [(640, { cls := .thread, level := 2 })] hd
    all [after (exec (.firmwareRelease ⟨640, .release⟩) t) fun u => u.dsp.tRel == 1 && (u.task 640).relcnt == 1,
      hd.admits 700 x, !hd.admits 700 { x with level := 1 }, !hd.admits 700 { x with succ := [701] },
      after (exec (.firmwareRelease ⟨700, .create x⟩) hd) fun u => (u.task 700).cls == .thread && (u.task 700).level == 5 &&
        (u.task 700).relcnt == 1 && u.dsp.tRel == 1,
      keeps (.firmwareRelease ⟨700, .create { x with level := 1 }⟩) hd,
      after (exec (.firmwareRelease ⟨640, .remove⟩) t) fun u => u.task 640 == {},
      after (exec (.delayExpiry 3) (let s := tk [(3, { cls := .critical, st := .delay, due := some 0 })] hd
          { s with dsp := { s.dsp with delays := [3] } })) fun u => (u.task 3).st == .ready && u.readyList 0 == [3],
      after (exec (.timeoutExpiry 3) (let s := tk [(3, { cls := .critical, st := .wait, dep := 2, due := some 0 })] hd
          { s with dsp := { s.dsp with delays := [3] } })) fun u => (u.task 3).st == .ready && (u.task 3).tmo && u.dsp.fault == 4 &&
        u.dsp.tmoCnt == 1] = true := by decide +kernel

/-- FP1 runs thread 641 at level 4. -/
def th (t : Task) (l : Nat) (r : List Nat) : State :=
  let s := (tk [(641, t), (700, { cls := .thread, level := l, affin := 1, st := .ready })] hd).setReady (8 + 8 * 1 + l) r
  { s with dsp := { s.dsp with running := [(1, 642)] } }

theorem test_threads :
    let t : Task := { cls := .thread, level := 4, affin := 1, st := .run }
    all [(th t 3 [700]).runningOn 1 == some 641, (th t 3 [700]).topLevel 1 == some 3, (th t 4 [700]).readyList (readyKey t) != [],
      after (exec (.threadPreempt 1) (th t 3 [700])) fun u => (u.task 641).st == .preempted && tget 0 u.dsp.preempt 1 == 1,
      after (exec (.threadBlock 1 0 5 50000100) (th { t with dep := 1 } 3 [])) fun u => (u.task 641).st == .wait && (u.task 641).dep == 1 &&
        u.dsp.delays == [],
      after (exec (.threadBlock 1 1 5 50000100) (th t 3 [])) fun u => (u.task 641).st == .delay && u.dsp.delays == [641] && (u.task 641).delay == 0,
      after (exec (.threadYield 1) { (th t 4 [700]) with prf := { core := 5 } }) fun u => (u.task 641).st == .ready && (u.task 700).st == .run,
      after (exec (.threadComplete 1 50000300) (th { t with period := 1 } 3 [])) fun u => u.frm.now == 50000300 && (u.task 641).st == .idle &&
        u.dsp.tDone == 1 && u.lines == ((th { t with period := 1 } 3 []).goto 50000300).fp1Work.lines && u.fio == hd.fio,
      after (exec (.threadComplete 0 50000300) (let s := tk [(640, { t with affin := 0, period := 1 })] hd
          { s with dsp := { s.dsp with running := [(0, 641)] } })) fun u => u.fio.acked && u.fio.ack == 7 && u.axes == []] = true := by
  decide +kernel

theorem test_overruns :
    all [after (exec .lnKernelDeadline (prm [(5, 9, 0, 4), (5, 9, 1, 256)] hd)) fun u => (u.axis 9).aband && u.frm.now == hd.instA - 5000,
      after (exec .u0TrailingSkip (tk [(256, { cls := .trailing, st := .ready, frame := 6 })] hd)) fun u => u.dsp.tSkip == 1 &&
        u.frm.now == hd.instU0,
      after (exec (.fwDeadline 1) { hd with dsp := { fwOvr := 2 } }) fun u => u.frm.ovr == 0x208 && ev u evFwOverrun devObj,
      after (exec .overrunSeries { hd with frm := { hd.frm with critOvr := true, series := 2 } }) fun u => u.frm.seriesDone && u.frm.ovr == 2 &&
        ev u evOverrunSeries devObj,
      after (exec .subTick hd) fun u => u.dsp.subTick == 1 && u.frm.now == 50005000] = true := by decide +kernel
/-! ## Kernels and supervision -/

/-- Axis 9 of a type, closed, with its critical kernel (9), trailing kernel (265) and zone kernels (514, 578) running in frame 7. -/
def kr (ty : Nat) (a : Axis) : State :=
  (tk [(9, { cls := .critical, st := .run, frame := 7 }), (265, { cls := .trailing, st := .run, frame := 7 }),
       (514, { cls := .critical, st := .run, frame := 7 }), (578, { cls := .trailing, st := .run, frame := 7 })]
    (prm [(5, 9, 0, ty), (9, 3, 0, 9), (6, 2, 1, 9), (6, 2, 2, 10)] hd)).setAxis 9 a

def inf : F64 := ⟨0x7FF0000000000000⟩

def critOf (s : State) : Axis × List F64 := servoCrit (s.P 5 9) (s.axType 9) (s.critIn 9 7) (s.axis 9)

theorem test_critical_kernel :
    let a : Axis := { st := .closed, fb := { udc := ⟨0x4081800000000000⟩ } }
    let s := prm [(5, 9, 1, 1)] (kr 1 a)
    all [canon s, !s.isLn 9, s.running (dAxCrit 9), (critNumbers (critOf (s.goto 50001000)).1.fb (critOf (s.goto 50001000)).1.lp ++
        (critOf (s.goto 50001000)).2).all fFinite,
      after (exec (.criticalKernelComplete 9 50001000 50000500 50000900) s) fun u => (u.axis 9).critDone && u.frm.now == 50001000 &&
        u.frm.critLast == 1000 && (u.branch (s.axBranch 9)).packAt == some (4000 + 25 * 128) && (u.axis 9).lp == (critOf (s.goto 50001000)).1.lp && (u.axis 9).fb == (critOf (s.goto 50001000)).1.fb] = true := by
  decide +kernel

theorem test_nonfinite_kernel :
    let a : Axis := { st := .closed, fb := { udc := ⟨0x4081800000000000⟩ }, rf := { a := inf } }
    let s := prm [(5, 9, 300, 0x3FF0000000000000)] (kr 1 a)
    all [!(critNumbers (critOf (s.goto 50001000)).1.fb (critOf (s.goto 50001000)).1.lp ++ (critOf (s.goto 50001000)).2).all fFinite,
      after (exec (.criticalKernelComplete 9 50001000 50000500 50000900) s) fun u => (u.axis 9).critDone && ev u evNonfinite 9 &&
        (u.axis 9).nonfin && (u.axis 9).fb == (nonfiniteAxis a).fb] = true := by decide +kernel

theorem test_step_kernel :
    let s := (kr 4 { st := .closed }).setStep 3 { stopped := false }
    all [s.axType 9 == 4, s.chanOf 9 == some 3, canon s,
      after (exec (.criticalKernelComplete 9 50001000 50000500 50000900) s) fun u => (u.axis 9).critDone &&
        u.step_ 3 == (stepCrit ((s.goto 50001000).P 5 9) ((s.goto 50001000).critIn 9 7) (s.axis 9) (s.step_ 3)).2] = true := by decide +kernel

theorem test_trailing_kernels :
    let s := (kr 1 { st := .closed, rf := { rad := .one } }).setAxis 10 { rf := { rad := .one } }
    let x := s.goto 50001000
    all [(trailNumbers (trailKernel (x.P 5 9) x.cam (x.trailIn 9) (x.axis 9))).all fFinite,
      after (exec (.trailingKernelComplete 9 50001000 50000500 50000900) s) fun u => u.frm.trailLast == 1000 &&
        (u.axis 9).rf == (trailKernel (x.P 5 9) x.cam (x.trailIn 9) (x.axis 9)).rf,
      (zoneNumbers (zoneCrit (x.P 6 2) (x.zoneIn 2 7) (x.zone 2)).1 (zoneCrit (x.P 6 2) (x.zoneIn 2 7) (x.zone 2)).2).all fFinite,
      after (exec (.zoneKernelComplete 2 50001000 50000500 50000900) s) fun u => (u.zone 2).critDone,
      after (exec (.zoneTrailingKernelComplete 2 50001000 50000500 50000900) s) fun u => (u.zone 2).trailDone && !(u.zone 2).skip &&
        u.frm.trailLast == 1000] = true := by decide +kernel

theorem test_axis_supervision :
    let ax (a : Axis) := kr 1 a
    all [bitOf (satDue ((kr 1 {}).P 5 9) { satV := 100000 }) 1,
      after (exec (.satTime 9 1) (ax { lp := { satV := 100000 } })) fun u => (u.axis 9).lp.satRep == 2 && ev u evSatTime 9,
      after (exec (.fbLost 9) (ax { st := .opn, fb := { predRun := 100000 } })) fun u => (u.axis 9).fb.predRep && (u.axis 9).fb.estNext &&
        ev u evFbLost 9,
      after (exec (.fbFrozen 9) (ax { st := .opn, fb := { frz := some 100000 } })) fun u => (u.axis 9).fb.frzRep && (u.axis 9).fb.estNext &&
        ev u evFbFrozen 9,
      estFrames (((prm [(5, 9, 804, 0x3A800000)] (kr 1 {})).par 5 9 804).setWidth 32) 250000 == 4,
      after (exec (.estExpired 9) (prm [(5, 9, 804, 0x3A800000)] (ax { st := .opn, fb := { est := true, estFrom := 3 } }))) fun u => (u.axis 9).fb.estDone &&
        ev u evEstExpired 9,
      after (exec (.encDev 9) (kr 4 { mo := { encDevN := 100000 } })) fun u => (u.axis 9).mo.encDevRep && ev u evEncDev 9] = true := by
  decide +kernel

theorem test_zone_supervision :
    all [(kr 1 {}).zoneDef 2,
      after (exec (.webBreak 2) ((kr 1 {}).setZone 2 { brk := 100000 })) fun u => (u.zone 2).brkRep && ev u evWebBreak 2,
      after (exec (.lcInvalid 2) ((kr 1 {}).setZone 2 { lcMiss := 100000 })) fun u => (u.zone 2).lcRep && ev u evLcInvalid 2] = true := by
  decide +kernel

theorem test_homing :
    let a : Axis := { st := .closed, fb := { pos := 500 }, mo := { homing := true, homePhase := 1, homeStall := 1000000, inposN := 100000 } }
    let h := prm [(5, 9, 969, 2), (5, 9, 970, 5), (5, 9, 965, 3), (9, 5, 72, 2)] (kr 4 a)
    all [after (exec (.inpos 9) (kr 1 a)) fun u => (u.axis 9).mo.inpos,
      after (exec (.stall 9) (prm [(5, 9, 966, 40)] (kr 1 a))) fun u => (u.axis 9).fb.pos == 40 && (u.axis 9).mo.homePhase == 2 &&
        u.steps == [],
      after (exec (.stall 9) (prm [(5, 9, 969, 1)] (kr 4 a))) fun u => (u.axis 9).mo.homePhase == 2 && (u.step_ 3).hold0 && u.steps.length == 1,
      after (exec (.homeFlagExpiry 9) (h.setEnc 5 { z := true, zFrom := some 49000000 })) fun u => u.frm.now == 64000000 &&
        (u.axis 9).mo.homePhase == 2 && (u.step_ 3).hold0] = true := by decide +kernel

/-! ## Step channels and encoders -/

def ch (c : StepCh) : State := (prm [(9, 3, 1, 100000), (9, 3, 2, 100), (9, 3, 4, 300), (9, 3, 10, 2)] (kr 4 { st := .closed })).setStep 3 c

theorem test_step_pulses :
    let c : StepCh := { stopped := false, lastPulse := some 50000000, dirFwd := true }
    all [(ch { c with queue := [2] }).stepRuns 3, (ch c).stepSpacing 3 == 50000,
      after (exec (.stepPulse 3) (ch { c with queue := [2, -1] })) fun u => (u.step_ 3).fwd == 1 && (u.step_ 3).bwd == 0 && (u.step_ 3).queue == [1, -1] &&
        (u.step_ 3).lastPulse == some u.frm.now && u.frm.now == 50050000,
      after (exec (.stepPulse 3) (ch { c with queue := [-2], dirFwd := false })) fun u => (u.step_ 3).bwd == 1 && (u.step_ 3).queue == [-1] &&
        u.frm.now == 50050000,
      after (exec (.dirChange 3) (ch { c with queue := [-2, 3] })) fun u => !(u.step_ 3).dirFwd && (u.step_ 3).dirAt == some u.frm.now &&
        u.frm.now == 50006500] = true := by decide +kernel

theorem test_current_reference :
    all [(ch { idleFrom := 49000000 }).crefRuns 3 && ((ch { idleFrom := 49000000 }).step_ 3).quiet,
      after (exec (.crefIdleExpiry 3) (ch { idleFrom := 49000000 })) fun u => (u.step_ 3).red == 1 && u.frm.now == 59000000 &&
        (u.step_ 3).rampFrom == 59000000,
      after (exec (.crefRampComplete 3) (ch { red := 1, rampFrom := 49000000 })) fun u => (u.step_ 3).red == 2 &&
        u.frm.now == 299000000] = true := by decide +kernel

def en (m z : Nat) (e : Enc) : State := (prm [(9, 5, 64, m), (9, 5, 65, 3), (9, 5, 72, z), (9, 5, 68, 12), (9, 5, 69, 0)] hd).setEnc 5 e

theorem test_encoders :
    all [(en 1 1 {}).pn 9 5 65 == 3, keeps (.encEdge 5 true false ⟨3, 50000000⟩) (en 1 1 { c := 7 }), keeps (.enczEdge 5 true ⟨3, 50000010⟩) (en 1 1 {}),
      after (exec (.encEdge 5 true false ⟨4, 50000000⟩) (en 1 1 { c := 7 })) fun u => (u.enc 5).a && (u.enc 5).c == 8,
      after (exec (.encEdge 5 false true ⟨4, 50000000⟩) (en 1 1 { c := 7 })) fun u => (u.enc 5).b && (u.enc 5).c == 6,
      after (exec (.encEdge 5 true true ⟨4, 50000000⟩) (en 1 1 { c := 7 })) fun u => (u.enc 5).c == 7 && (u.enc 5).errs == 1 && ev u evEncErr 5,
      after (exec (.enczEdge 5 true ⟨4, 50000010⟩) (en 1 1 { c := 7, ext := 100, lastLatch := 5 })) fun u => (u.enc 5).z && (u.enc 5).zt == 10000002 &&
        (u.enc 5).zc == 102,
      after (exec (.ssiDelivery 5 0x1234 false) (en 2 0 { ssiBusy := true, ssiDue := 50000100 })) fun u => !(u.enc 5).ssiBusy &&
        (u.enc 5).ssiVal == 0x234 && (u.enc 5).ssiHas && u.frm.now == 50000100,
      after (exec (.ssiDelivery 5 0x123 true) (en 2 0 { ssiBusy := true, ssiVal := 4 })) fun u => (u.enc 5).errs == 1 &&
        (u.enc 5).ssiVal == 4] = true := by decide +kernel
/-! ## Host reads and writes -/

/-- A word read, with the other half as its register then shows it. -/
def pair (o : Out) (hi : Nat) (v : Nat) : Bool := after o fun u => (u.regRead hi ++ u.host.rdata).toNat == v

theorem test_low_reads :
    let s := { hd with
      frm := { hd.frm with now := 5 * 0x123456789, t0 := 5 * 0x223456789, frame := 0x323456789, lsin := 0x423456789 }
      net := { hd.net with peerId := 0x523456789 }, red := { tkFc := 0x623456789 }
      cap := { crev := 0x723456789, lastRecno := 5, lastRepoch := 6 }, prf := { cyc := 0x823456789, pcs := [(2, { cnt := 0x923456789, ovfn := 3 })] } }
    all [pair (exec .frmTimeLo s) 0x40C 0x123456789, pair (exec .frmFcntLo s) 0x414 0x323456789, pair (exec .frmT0Lo s) 0x41C 0x223456789,
      pair (exec .frmLsinLo s) 0x438 0x423456789, pair (exec .netPeeridLo s) 0x5080 0x523456789, pair (exec .redTkfcLo s) 0x7028 0x623456789,
      pair (exec .capCrevsmpLo s) 0x201C 0x723456789, pair (exec .prfCycLo s) 0x180C 0x823456789,
      after (exec .capRecno s) fun u => u.host.rdata == 5 && u.regRead 0x2008 == 6,
      after (exec (.prfCntLo 2) s) fun u => u.host.rdata == 0x23456789 && (u.pc 2).hiL == 9 && (u.pc 2).ovfnL == 3] = true := by
  decide +kernel

theorem test_clearing_reads :
    let s := { hd with
      frm := { hd.frm with turn := 77, turnBranch := 3 }, red := { hbRunMax := 2, hbTotal := 9 }, cap := { deadMax := 8, fill := 5, fillMax := 6 }
      dsp := { preempt := [(1, 4)], maxDep := [(2, 7)] }, pwr := { hd.pwr with vmain := 5000, vmainMin := 4900, vcore := 800, vcoreMin := 790 }
      prf := { bw := [(4, { min := 3, max := 9 })] }, net := { hd.net with sel := 33, nodes := [(33, { ofsMax := 5, ofsMin := 3 })] } }
    all [after (exec .frmTurnmax s) fun u => u.host.rdata == s.regRead 0x424 && u.host.rdata != 0 && u.regRead 0x424 == 0,
      after (exec .redHbmiss s) fun u => u.red.hbRunMax == 0 && u.red.hbTotal == 9 && u.host.rdata == s.regRead 0x701C,
      after (exec .capDeadmax s) fun u => u.host.rdata == 8 && u.regRead 0x2028 == 0,
      after (exec .capStage s) fun u => u.host.rdata == s.regRead 0x2034 && u.cap.fillMax == 0 && u.cap.fill == 5,
      after (exec .dspPreempt s) fun u => u.host.rdata == 0x400 && u.regRead 0x3030 == 0,
      after (exec (.dspRdydep 2) s) fun u => u.host.rdata == 0x70000 && tget 0 u.dsp.maxDep 2 == 0,
      after (exec .netOfsrange s) fun u => u.host.rdata == 0x50003 && (u.node 1 1).ofsMax == 0x8000 && (u.node 1 1).ofsMin == 0x7FFF,
      after (exec .pwrVmain s) fun u => u.host.rdata == s.regRead 0x6004 && u.pwr.vmainMin == 0xFFFF && u.pwr.vmain == 5000,
      after (exec .pwrVcore s) fun u => u.host.rdata == s.regRead 0x6008 && u.pwr.vcoreMin == 0xFFFF,
      after (exec (.prfBwMinmax 4 false) s) fun u => u.host.rdata == 3 && (tget {} u.prf.bw 4).min == 0xFFFFFFFF,
      after (exec (.prfBwMinmax 4 true) s) fun u => u.host.rdata == 9 && (tget {} u.prf.bw 4).max == 0] = true := by decide +kernel

theorem test_entry_reads :
    let s := { hd with dsp := { idx := 4095, trc := [(4095, [1, 2, 3, 4])] }, prf := { tagIdx := 255, tags := [(255, [1, 2, 3, 4, 5, 6, 7, 8])] } }
    all [after (exec .dspTrcd0 s) fun u => u.host.rdata == 1 && u.dsp.idx == 0 && u.dsp.trcD == [2, 3, 4],
      after (exec .dspTrcd0 { s with dsp := { s.dsp with idx := 4 } }) fun u => u.dsp.idx == 5,
      after (exec .prfTagd0 s) fun u => u.host.rdata == 1 && u.prf.tagIdx == 0 && u.prf.tagD == [2, 3, 4, 5, 6, 7, 8],
      after (exec (.dspDescidx 0x403) (tk [(3, { cls := .critical, dep := 5 })] hd)) fun u => u.dsp.descIdx == 3 &&
        (List.range 8).all fun k => tget 0 u.dsp.desc k == ((u.task 3).words[k]?).getD 0] = true := by decide +kernel

theorem test_observation_writes :
    let s := { hd with dsp := { wrptr := 9, wraps := 2, lost := 1 }, prf := { setLo := 5, setHi := 1, tagPtr := 4, pcs := [(2, { cnt := 8, ovfn := 1 })] } }
    all [after (exec (.dspTrcctl 1) s) fun u => u.dsp.en && !u.dsp.frz && u.dsp.wrptr == 0 && u.dsp.wraps == 0 && u.dsp.lost == 0,
      after (exec (.dspTrcctl 2) s) fun u => !u.dsp.en && u.dsp.frz && u.dsp.wrptr == 9,
      after (exec (.prfCtrl 0x1FF) s) fun u => u.prf.en == 0xFF && u.prf.frz,
      after (exec (.prfCfg 2 5) s) fun u => (u.pc 2).fresh && (u.pc 2).cnt == 8,
      after (exec (.prfSetcmd 4) s) fun u => (u.pc 2).cnt == 0x100000005 && (u.pc 2).ovfn == 0,
      after (exec (.prfTagctl 1) s) fun u => u.prf.tagEn && !u.prf.tagFrz && u.prf.tagPtr == 0,
      after (exec (.lgrSel 0x105) { hd with lgr := { snapFc := 9 } }) fun u => u.lgr.selInst == 5 && u.lgr.latchFc == 9] = true := by
  decide +kernel

theorem test_register_writes :
    all [after (exec (.registerWrite 0x8000 5) hd) fun u => u == hd.hostWrite,
      after (exec (.registerWrite 0x0810 5) { hd with host := { err := 0xF } }) fun u => u.host.err == 0xA,
      after (exec (.registerWrite 0x0428 0x102) { hd with frm := { hd.frm with ovr := 0x103 } }) fun u => u.frm.ovr == 1,
      after (exec (.registerWrite 0x6018 0x101) { hd with pwr := { hd.pwr with cause := 0x103 } }) fun u => u.pwr.cause == 2,
      after (exec (.registerWrite 0x1004 0x1FF) hd) fun u => u.evt.imask == 0xFF,
      after (exec (.evtIstat 3) { hd with evt := { istat := 7 } }) fun u => u.evt.istat == 4,
      after (exec (.registerWrite 0x5030 0x25) hd) fun u => u.net.sel == 0x25] = true := by decide +kernel

theorem test_host_link :
    all [hd.host.hostsel,
      after (exec (.pcieLinkUp 3 2) hd) fun u => u.host.linkup && u.host.speed == 3 && u.host.width == 2,
      after (exec .pcieRefclkLoss { hd with host := { linkup := true } }) fun u => !u.host.linkup && u.frm == hd.frm && u.axes == hd.axes,
      after (exec .perstN { hd with host := { linkup := true } }) fun u => !u.host.linkup && u.pwr.cause == 0x101 && u.frm == hd.frm,
      after (exec (.bar0UnsupportedAccess 2 8) hd) fun u => u == { hd with host := { hd.host with ur := true } }] = true := by
  decide +kernel

/-! ## The Quad SPI host link -/

/-- FAST_READ and WRITE of MBX_FREE (0x0804): write 3 to it; a second word cut short; a read of two words from FRM_TIME_LO (0x0408). -/
theorem test_spi :
    let w : List Nibble := [0, 2, 0, 0, 0, 0, 0, 8, 0, 4, 0, 3, 0, 0, 0, 0, 0, 0, 1, 2]
    let r : List Nibble := [0, 0xB, 0, 0, 0, 0, 0, 4, 0, 8] ++ List.replicate 8 0 ++ List.replicate 9 0
    let s := { hd with host := { hd.host with hostsel := false } }
    all [w == nibs 2 2 ++ nibs 8 0x0804 ++ (leBytes 4 3).flatMap (fun b => nibs 2 b.toNat) ++ [1, 2], r.take 10 == nibs 2 0x0B ++ nibs 8 0x0408,
      spiAccesses w == [{ bar2 := false, write := true, off := 0x0804, word := 3 }],
      spiAccesses r == [{ bar2 := false, write := false, off := 0x0408 }, { bar2 := false, write := false, off := 0x040C }],
      spiAccesses (nibs 2 2 ++ nibs 8 0x80100004 ++ List.replicate 8 0) == [{ bar2 := true, write := true, off := 0x100004 }],
      spiAccesses (nibs 2 3 ++ nibs 8 0x0804 ++ List.replicate 8 0) == [], spiAccesses (nibs 2 2 ++ nibs 8 0x0806 ++ List.replicate 8 0) == [],
      (s.spiTransaction (w ++ [])).pending == [.mbxFree 3], (s.spiTransaction r).pending == [.frmTimeLo], hd.spiTransaction w == hd] = true := by
  decide +kernel

/-! ## Mailboxes -/

/-- Buffer 3 in a state. -/
def bf (x : BufSt) : State := { hd with host := { bufs := [(3, x)] } }

theorem test_buffers :
    all [after (exec .mbxAlloc hd) fun u => u.host.rdata == 0x80000000 && u.bufSt 0 == .host && u.host.allocs == 1,
      after (exec .mbxAlloc { hd with host := { presented := none } }) fun u => u.host.rdata == 0 && u.host.bufs == [],
      after (exec (.mbxDb 2 3) (bf .host)) fun u => u.bufSt 3 == .inflight && tget [] u.host.q 2 == [3],
      after (exec (.mbxAns 2) { hd with host := { bufs := [(3, .inflight)], ans := [(2, [3])] } }) fun u => u.host.rdata == 0x80000003 &&
        u.bufSt 3 == .host,
      after (exec (.mbxAns 2) hd) fun u => u.host.rdata == 0,
      after (exec (.mbxFree 3) (bf .host)) fun u => u.bufSt 3 == .free && u.host.frees == 1 && u.host.presented == some 0,
      after (exec .mbxPoola (bf .host)) fun u => u.host.rdata == 0x101FF && u.host.poolB == 0] = true := by decide +kernel

theorem test_buffer_errors :
    all [after (exec (.mbxDb 2 3) hd) fun u => u.host.err == 2 && u.host.q == [] && ev u evHostProto devObj,
      after (exec (.mbxDb 2 3) { (bf .host) with host := { (bf .host).host with q := [(2, List.range 16)] } }) fun u => u.host.err == 8 &&
        u.bufSt 3 == .host && ev u evHostProto devObj,
      after (exec (.mbxFree 3) hd) fun u => u.host.err == 4 && ev u evHostProto devObj,
      after (exec (.mailboxBufferWrite 1536 7) hd) fun u => u.host.err == 1 && u.host.mem == [],
      after (exec (.mailboxBufferWrite 1540 0x01020304) (bf .host)) fun u => mread ramByte u.host.mem 1540 4 == [4, 3, 2, 1] &&
        mread ramByte u.host.mem 1539 1 == [0]] = true := by decide +kernel

theorem test_watchdog :
    let s := prm [(0, 0, 16, 1), (0, 0, 17, 20)] hd
    all [after (exec (.devAlive 0x0A110000) s) fun u => u.host.wdArmed && u.host.wdRun && u.host.wdDue == 50000000 + 100000000,
      after (exec (.devAlive 0x0A100000) s) fun u => u.host.wdKey && !u.host.wdRun,
      after (exec .hostWatchdogExpiry { s with host := { wdArmed := true, wdRun := true, wdDue := 50000010, wdCnt := 8191 } }) fun u =>
        u.frm.now == 50000010 && !u.host.wdRun && u.host.wdExp && u.host.wdCnt == 8191 && ev u evHostLost devObj] = true := by decide +kernel

theorem test_events_and_images :
    let e : EvEntry := { time := 5, frame := 1, code := 0x0701, obj := 3, react := 2, groups := 1, data := [] }
    all [after (exec .eventRingWrite { hd with evt := { queue := [e], wrptr := 4095 } }) fun u => u.evt.queue == [] && u.evt.wrptr == 0 &&
        u.evt.wraps == 1 && u.evt.istat == 1 && tget [] u.evt.ring 4095 == ringBytes e 4095,
      after (exec (.mbxPicommit 1) hd) fun u => u.host.piPend == some 2 && !u.host.hrdy && u.host.copyFrom == 2 && u.host.piHost == hd.host.piSpare,
      after (exec (.mbxPicommit 1) { hd with host := { piPend := some 1 } }) fun u => u.host.piPend == some 2 && u.host.piHost == 1,
      after (exec (.mbxPicommit 1) { hd with host := { hrdy := false } }) fun u => u.host.cmterr && u.host.piPend == none && u.host.piHost == 2,
      after (exec .commitCopyComplete { hd with host := { hrdy := false, copyFrom := 1, po := [(1, [(4, 9)])] } }) fun u => u.host.hrdy &&
        tget [] u.host.po 2 == [(4, 9)],
      after (exec (.outputWindowWrite 4 9) { hd with host := { hrdy := false } }) fun u => u.host.wrign && u.host.po == [],
      poDefined 64,
      after (exec (.outputWindowWrite 64 0x01020304) hd) fun u => mread ramByte (tget [] u.host.po 2) 64 4 == [4, 3, 2, 1],
      after (exec .inputImageComplete { hd with host := { piWr := [(1, 6), (2, 7)] } }) fun u => u.host.piWr == [(2, 7)] && u.host.piLast == 1 &&
        u.host.piFcnt == 6 && u.evt.istat == 4] = true := by decide +kernel

/-! ## Requests -/

/-- A request in buffer 3 of mailbox 2. -/
def rq (op : Nat) (pay : List Byte) (s : State) : State :=
  { s with host := { s.host with
      bufs := [(3, .inflight)], q := [(2, [3])]
      mem := mwrite ramByte [] 1536 (leBytes 4 op ++ leBytes 4 pay.length ++ leBytes 8 1000 ++ pay) } }

/-- FP2 takes it next, and serves it. -/
def isReq (s : State) (op n : Nat) : Bool := s.nextReq == some (2, 3) && s.reqOp 3 == op && s.serves op && s.reqLen 3 == n && canon s

/-- It has been answered. -/
def ans (o : Out) (status eff : Nat) (pay : List Byte) (f : State → Bool := fun _ => true) : Bool :=
  after o fun u => (tget [] u.host.ans 2).getLast? == some 3 && u.bufSt 3 == .inflight &&
    u.bufBytes 3 4 (12 + pay.length) == leBytes 2 pay.length ++ leBytes 2 status ++ leBytes 6 eff ++ [0, 0] ++ pay && f u

theorem test_questions :
    all [isReq (rq 1 [7, 8] hd) 1 2, ans (exec .echo (rq 1 [7, 8] hd)) stOk 0 [7, 8],
      isReq (rq 1 (List.replicate 496 0) hd) 1 496,
      isReq (rq 2 [] hd) 2 0,
      isReq (rq 0x10 (leBytes 4 1 ++ leBytes 4 (pkey 1 0 8)) (prm [(1, 0, 8, 1)] hd)) 0x10 8,
      ans (exec .paramRead (rq 0x10 (leBytes 4 1 ++ leBytes 4 (pkey 1 0 8)) (prm [(1, 0, 8, 1)] hd))) stOk 0 (leBytes 4 1 ++ leBytes 8 1),
      isReq (rq 0x12 (leBytes 4 (pkey 1 0 8)) hd) 0x12 4 && (paramRow 1 0 8).isSome,
      isReq (rq 0x80 (leBytes 2 0x0101 ++ leBytes 2 1) hd) 0x80 4,
      ans (exec .matrixRead (rq 0x80 (leBytes 2 0x0110 ++ leBytes 2 1) hd)) stOk 0 (leBytes 4 1 ++ leBytes 2 0x0110 ++ List.replicate 32 2),
      isReq (rq 0x81 (leBytes 2 510 ++ leBytes 2 2) hd) 0x81 4,
      ans (exec .badOpcode (rq 0x99 [] hd)) stBadOpcode 0 []] = true := by decide +kernel

/-- An AX_CMD of one entry: axis 9, a sub-command. -/
def ax1 (sub : Nat) (s : State) : State := rq 0x20 (leBytes 4 1 ++ leBytes 2 9 ++ leBytes 2 sub) s

theorem test_axis_commands_taken :
    all [isReq (ax1 1 hd) 0x20 8, (ax1 1 hd).countOk 3 4 64, (ax1 11 hd).axSub 3 0 == 11,
      after (exec .enable (ax1 1 hd)) fun u => u.bufSt 3 == .fw && u.host.taken == [{ mbx := 2, buf := 3, subs := [1], ready := true }],
      after (exec .close (ax1 2 hd)) fun u => u.bufSt 3 == .fw, after (exec .openLoop (ax1 3 hd)) fun u => u.bufSt 3 == .fw,
      after (exec .freeze (ax1 4 hd)) fun u => u.bufSt 3 == .fw, after (exec .disable (ax1 5 hd)) fun u => u.bufSt 3 == .fw,
      after (exec .ack (ax1 6 hd)) fun u => u.bufSt 3 == .fw, after (exec .stop (ax1 7 hd)) fun u => u.bufSt 3 == .fw,
      after (exec .home (ax1 8 hd)) fun u => u.bufSt 3 == .fw, after (exec .diaSet (ax1 9 hd)) fun u => u.bufSt 3 == .fw,
      after (exec .camStart (ax1 10 hd)) fun u => u.bufSt 3 == .fw,
      after (exec .camSelect (ax1 11 hd)) fun u => u.bufSt 3 == .fw && u.host.taken == [{ mbx := 2, buf := 3, subs := [11], ready := true }]]
      = true := by decide +kernel

/-- Axis 9, a servo axis, in a state. -/
def ax (x : AxState) : State := (prm [(5, 9, 0, 1)] hd).setAxis 9 { st := x, fb := { accN := 1 } }
def judge (x : AxState) (sub : Nat) : Nat × AxState := (((ax x).axJudge ⟨9, sub, 0⟩).1, (((ax x).axJudge ⟨9, sub, 0⟩).2.axis 9).st)

theorem test_axis_commands_judged :
    all [judge .disabled 1 == (stOk, .opn), judge .opn 1 == (stBadState, .opn), judge .opn 2 == (stOk, .closed), judge .freeze 2 == (stOk, .closed),
      judge .closed 2 == (stBadState, .closed), judge .closed 3 == (stOk, .opn), judge .freeze 3 == (stOk, .opn), judge .closed 4 == (stOk, .freeze),
      judge .opn 4 == (stBadState, .opn), (judge .stopping 5).1 == stOk, judge .fault 5 == (stBadState, .fault),
      judge .closed 6 == (stBadState, .closed), judge .closed 7 == (stOk, .stopping),
      !((ax .opn).setAxis 9 { st := .opn }).mayClose 9, (((ax .opn).setAxis 9 { st := .opn }).axJudge ⟨9, 2, 0⟩).1 == stBadState] = true := by decide +kernel

theorem test_ack_of_a_standing_cause :
    let s := (prm [(5, 9, 0, 1)] hd).setAxis 9 { st := .fault, fb := { est := true, estDone := true } }
    all [(s.axis 9).st == .fault, !s.red.restartOn, s.causeActive 9, (s.axJudge ⟨9, 6, 0⟩).1 == stCauseActive] = true := by decide +kernel

theorem test_boundary_requests :
    let w := rq 0x11 (leBytes 4 1 ++ leBytes 4 (pkey 1 0 8) ++ leBytes 8 1) hd
    let c := rq 0x42 [1] hd
    all [isReq w 0x11 16, w.countOk 3 12 41,
      after (exec .paramWrite w) fun u => u.bufSt 3 == .fw && u.params == w.params && u.host.taken.length == 1,
      ans (exec .paramWrite (inRole .standby w)) stBadState 0 [] (fun u => u.params == w.params),
      isReq (rq 0x40 [15, 1] hd) 0x40 2, isReq c 0x42 1] = true := by decide +kernel

theorem test_writes_all_or_nothing :
    let w := rq 0x11 (leBytes 4 2 ++ leBytes 4 (pkey 1 0 8) ++ leBytes 8 1 ++ leBytes 4 (pkey 63 0 8) ++ leBytes 8 1) hd
    let t : Taken := { mbx := 2, buf := 3, subs := [], ready := true }
    all [w.firstRefused false (w.writeEntries 3) == some (1, stBadKey), ans (.next (w.decideWrite t)) stBadKey 0 (leBytes 2 1 ++ leBytes 2 stBadKey)
        (fun u => u.params == w.params && u.axes == w.axes)] = true := by decide +kernel

theorem test_group_requests :
    let cw := rq 0x30 ([5, 0] ++ leBytes 4 64 ++ [9, 8, 7]) hd
    all [ans (exec .grpClrderate (rq 0x21 (leBytes 4 6) hd)) stOk 8 [] (fun u => u.evt.clrDer == 6),
      ans (exec .yield (rq 0x22 [] { hd with red := { fit := true } })) stOk 8 [] (fun u => u.red.yReq),
      ans (exec .yield (rq 0x22 [] hd)) stBadState 0 [] (fun u => !u.red.yReq),
      isReq cw 0x30 9, ans (exec .camWrite cw) stOk 0 [] (fun u => mread ramByte (tget [] u.camStg 5) 64 3 == [9, 8, 7]),
      isReq (rq 0x31 [5] hd) 0x31 1,
      ans (exec (.mailboxTimeout 3) (rq 0x21 (leBytes 4 6) hd)) stTimeout 0 [] (fun u => tget [] u.host.q 2 == [] && ev u evMbxTimeout devObj)]
      = true := by decide +kernel

/-! ## Slots, keys, lifecycle, boot -/

/-- CFG_WRITE of eight bytes at an offset of overlay slot 0 (code 16). -/
def cw (off : Nat) (s : State) : State := rq 0x41 ([16] ++ leBytes 4 off ++ [9, 8, 7, 6, 5, 4, 3, 2]) s

theorem test_slots_are_written :
    let w := { hd with cfg := { hd.cfg with slots := [(16, { next := 8, wrote := true })] } }
    let e := { (rq 0x41 [] hd) with cfg := { hd.cfg with erasing := some (16, [4, 3], 3), flash := [(ovlSlotAt 0 + 1, 77), (ovlSlotAt 1, 5)] } }
    all [isReq (cw 0 hd) 0x41 13, slotSpace 16 == some (ovlSlotAt 0, 0x10000), !hd.slotRuns 16,
      after (exec .cfgWrite (cw 0 hd)) fun u => u.cfg.erasing == some (16, [9, 8, 7, 6, 5, 4, 3, 2], 3) && u.host.ans == [] && u.cfg.flash == [],
      ans (exec .cfgWrite (cw 8 w)) stOk 0 [] (fun u => mread flashByte u.cfg.flash (ovlSlotAt 0 + 8) 8 == [9, 8, 7, 6, 5, 4, 3, 2] &&
        mread flashByte u.cfg.flash (ovlSlotAt 0 + 7) 1 == [0xFF]),
      ans (exec .cfgWrite (cw 12 w)) stBadValue 0 [], ans (exec .cfgWrite (cw 65532 w)) stBadValue 0 [],
      canon e, e.mbxOf 3 == some 2, ans (exec .flashWriteComplete e) stOk 0 [] (fun u => u.cfg.erasing == none &&
        mread flashByte u.cfg.flash (ovlSlotAt 0) 2 == [4, 3] && mread flashByte u.cfg.flash (ovlSlotAt 1) 1 == [5])]
      = true := by decide +kernel

theorem test_firmware_activate (b : Bool) (h : Config.fwSigOk (hd.fwImage 1) = b) :
    isReq (rq 0x42 [3] hd) 0x42 1 = true ∧ (rq 0x42 [3] hd).pay 3 0 1 = 3 ∧ Config.fwSigOk ((rq 0x42 [3] hd).fwImage (3 - 2)) = b :=
  ⟨by decide +kernel, by decide +kernel, h⟩

/-- In a lifecycle state. -/
def lcyIs (n : Nat) (s : State) : State := { s with cfg := { s.cfg with lcy := n } }

theorem test_keys :
    let k (kind : Byte) := rq 0x43 ([kind] ++ List.replicate 64 5) hd
    all [isReq (k 0) 0x43 65, after (exec .keyProvision (lcyIs 1 (k 0))) fun u => u.cfg.cfgKey.isSome && u.cfg.safeKey.isNone,
      after (exec .keyProvision (lcyIs 1 (k 1))) fun u => u.cfg.safeKey.isSome && u.cfg.cfgKey.isNone,
      ans (exec .keyProvision (lcyIs 2 (k 0))) stBadState 0 [] (fun u => u.cfg == (lcyIs 2 (k 0)).cfg),
      ans (exec .keyProvision (lcyIs 1 (k 2))) stBadValue 0 []] = true := by decide +kernel

/-- A LIFECYCLE request to a state, with four bytes of HEAD_ID. -/
def lcr (nx x : Nat) (s : State) : State :=
  let r := rq 0x44 ([BitVec.ofNat 8 nx] ++ List.replicate 4 0) s
  { r with host := { r.host with mem := mwrite ramByte r.host.mem 1553 (leBytes 4 x) } }

theorem leNat_leBytes : ∀ n v : Nat, leNat (leBytes n v) = v % 256 ^ n
  | 0, v => by simp [leBytes, leNat, Nat.mod_one]
  | n + 1, v => by
    rw [leBytes, leNat, leNat_leBytes n, Nat.pow_succ, Nat.mul_comm (256 ^ n), Nat.mod_mul]
    simp

/-- A part may move on, whatever its HEAD_ID, with every axis idle and every group in STO, and may not while an axis is enabled. -/
theorem test_lifecycle :
    let s := lcyIs 0 (lcr 1 (Config.headId.toNat % 2 ^ 32) hd)
    let n := s.setAxis 9 { st := .opn }
    (s.nextReq = some (2, 3) ∧ s.reqOp 3 = 0x44 ∧ s.serves 0x44 = true ∧ s.reqLen 3 = 5 ∧ s.pay 3 0 1 = s.cfg.lcy + 1 ∧
      s.pay 3 1 4 = Config.headId.toNat % 2 ^ 32 ∧ s.axesIdle = true ∧ s.allSto = true) ∧ n.pay 3 1 4 = s.pay 3 1 4 ∧ n.axesIdle = false := by
  intro s n
  have rd : ∀ a k : Nat, a + k ≤ 1553 → mread ramByte s.host.mem a k = mread ramByte (rq 0x44 [1, 0, 0, 0, 0] hd).host.mem a k := by
    intro a k h
    exact mread_mwrite_outside _ _ _ _ _ _ (.inl h)
  have hp : s.pay 3 1 4 = Config.headId.toNat % 2 ^ 32 := by
    have hw : mread ramByte s.host.mem 1553 (leBytes 4 (Config.headId.toNat % 2 ^ 32)).length = _ :=
      mread_mwrite _ _ _ _ (by decide +kernel)
    show leNat (mread ramByte s.host.mem 1553 4) = _
    exact (congrArg leNat hw).trans ((leNat_leBytes 4 _).trans (Nat.mod_mod_of_dvd _ (by decide)))
  refine ⟨⟨by decide +kernel, ?_, by decide +kernel, ?_, ?_, hp, by decide +kernel, by decide +kernel⟩, rfl, by decide +kernel⟩
  · exact (congrArg leNat (rd 1536 2 (by decide))).trans (by decide +kernel)
  · exact (congrArg leNat (rd 1540 2 (by decide))).trans (by decide +kernel)
  · exact (congrArg leNat (rd 1552 1 (by decide))).trans (by decide +kernel)

/-- Whether the boot ROM starts a slot hangs on its signature, which the model leaves uninterpreted. -/
theorem test_boot_slot (h : Config.fwSigOk (State.reset.fwImage 0) = true) : State.reset.bootSlot = some State.reset.cfg.prefFw := by
  unfold State.bootSlot
  rw [if_neg (by decide +kernel)]
  exact if_pos h

theorem test_boot :
    let r := { State.reset with pwr := { State.reset.pwr with up := true, boot := 2 } }
    let b := { hd with pwr := { hd.pwr with up := true }, cfg := { hd.cfg with running := false, startReq := some 1 } }
    all [r.bootSlot == none, after (exec .bootStart r) fun u => u.cfg.fwOn && u.cfg.fwSlot == 255 && !u.cfg.running && u.cfg.startReq == none,
      b.fullService, b.refuse 1 == 7,
      after (exec .baseConfigStart b) fun u => !u.cfg.running && u.cfg.reason == 7 && ev u evCfgRefused devObj] = true := by decide +kernel

/-! ## Head pairs -/

/-- Part of a pair, an image every second frame, Y eight frames after its answer, takeovers allowed. -/
def pr (s : State) : State := prm [(14, 0, 0, 1), (14, 0, 3, 2), (14, 0, 4, 8), (14, 0, 5, 1)] s

/-- The standby of the pair, its red block as given. -/
def st (r : Red) : State := { (pr (sb {})) with red := r }

/-- The head of the pair, in frame 8. -/
def hp (r : Red) : State := { (pr hd) with red := r, frm := { hd.frm with frame := 8 } }

def hbF (fl : Byte) : List Byte := fr { ty := 8, fcnt := 7, epoch := 1 } (beBytes 6 7 ++ List.replicate 12 0 ++ beBytes 6 20 ++ [fl] ++
  List.replicate 13 0)

theorem test_standby_watches :
    let s := st {}
    let last := s.frm.t0 + s.per / 2 - wireB (hbF 1) * s.tB
    all [intact (hbF 1) false, s.paired, s.follows, s.joinKey 0 == 0,
      after (exec (.heartbeatReceived (hbF 1) last) s) fun u => u.red.hbHere && u.red.firnOk && u.red.yldPend && u.red.ystate == 0,
      after (exec (.heartbeatReceived (hbF 2) last) s) fun u => u.red.hbHere && !u.red.yldPend && u.red.ystate == 2 && u.red.yfc == 20,
      after (exec (.heartbeatReceived (hbF 1) (last + 1)) s) fun u => u.red == s.red,
      after (exec .heartbeatWindowClose (st { hbRun := 65535, hbTotal := 9 })) fun u => u.frm.now == 50625000 && u.red.hbClosed &&
        u.red.hbRun == 65535 && u.red.hbTotal == 10,
      after (exec .heartbeatWindowClose (st { hbRun := 4, hbTotal := 9, hbHere := true })) fun u => u.red.hbRun == 0 && u.red.hbTotal == 9,
      after (exec (.csmWindowClose 0) s) fun u => u.red.winDone == 1 && u.frm.now == max s.frm.now (s.windowEnd 0)] = true := by decide +kernel

theorem test_standbys_become_head :
    let d := st { decided := true, restart := 12 }
    all [after (exec .takeoverStart d) fun u => u.frm.role == .head && u.net.cs == .head && u.net.epoch == 2 && u.red.restartOn &&
        u.red.restart == 12 && !u.red.decided && u.red.tkFc == 7 && ev u evTakeover devObj,
      keeps .takeoverStart (st { decided := true, restart := 13 }),
      after (exec .handoverStart (st { ystate := 2, yfc := 7 })) fun u => u.frm.role == .head && u.net.epoch == 2 && u.red.restart == 9 &&
        u.red.ystate == 0 && ev u evHandover devObj,
      keeps .handoverStart (st { ystate := 2, yfc := 8 })] = true := by decide +kernel

def img : Image := { seq := 4, snap := 6, derate := 2, react := [(1, 3)] }

theorem test_images_restart_axes :
    let s := { (st { decided := true, restart := 13, newest1 := true, buf1 := some img }) with axes := [(9, { st := .opn })] }
    let r := hp { restartOn := true, restart := 8, loaded := true, load := some img }
    all [s.red.newest == some img, after (exec (.imageLoadComplete 50000100) s) fun u => u.red.loaded && u.red.load.isSome &&
        u.frm.now == 50000100 && u.axes == s.axes,
      !r.bridging, r.samplesIn, after (exec .restartFrame r) fun u => !u.red.restartOn && u.red.load == none && u.evt.derate == 2 &&
        u.evt.under == [(1, 3)] && u.lines == [],
      keeps .restartFrame (hp { restartOn := true, restart := 9, loaded := true, load := some img })] = true := by decide +kernel

theorem test_images_are_sent :
    let o := hp { out := some img, outN := 3, outNext := 1, seq := 4 }
    let now (r : Red) (n : Nat) : State := { (hp r) with frm := { hd.frm with frame := 8, now := n } }
    let last := o.nextT0 - segWire * o.tB
    all [(hp {}).kernelsDone, (hp {}).frm.frame.toNat % (hp {}).pn 14 0 3 == 0,
      after (exec .snapshot (hp { seq := 4 })) fun u => u.red.seq == 5 && u.red.out.isSome && u.red.outNext == 0 && !u.red.outFinal &&
        u.red.snapAt == some 8,
      after (exec .snapshot o) fun u => u.red.seq == 4 && u.red.skip == 1 && u.red.out == some img, keeps .snapshot (hp { snapAt := some 8 }),
      (o.nextSeg.map fun g => (g.1.segno, g.1.nseg, g.2)) == some (1, 3, false),
      after (exec .firnSegmentSend (now o.red last)) fun u => u.red.segTx.isSome && u.red.outNext == 2 && u.frm.now == last,
      ((hp { o.red with outShSeq := 4, outShN := 1 }).nextSeg.map (·.2)) == some false,
      ((hp { o.red with outNext := 3, outShSeq := 4, outShN := 1 }).nextSeg.map (·.2)) == some true,
      after (exec .firnSegmentSend (now { o.red with outNext := 3, outShSeq := 4, outShN := 1 } last)) fun u => u.red.outShNext == 1 &&
        u.red.outNext == 3,
      after (exec .snapshot (hp { ystate := 1, seq := 4 })) fun u => u.red.seq == 5 && u.red.outFinal && u.red.outBase == 5 && u.red.yTries == 1,
      keeps .firnSegmentSend (now o.red (last + 1))] = true := by decide +kernel

/-- The bytes of a small image 5 of frame 6, its CRC-32 at offset 20. -/
def imgB : List Byte :=
  let h := beBytes 4 5 ++ beBytes 6 6 ++ List.replicate 10 0
  let body := beBytes 8 0x0102030405060708
  h ++ beBytes 4 (crc32 (h ++ [0, 0, 0, 0] ++ body)).toNat ++ body

/-- The last of two segments of an image: the data after the first sixteen bytes. -/
def sg (d : List Byte) : Segment :=
  { bytes := fr { ty := 9, fcnt := 7, epoch := 1 } (beBytes 4 5 ++ beBytes 4 5 ++ beBytes 6 6 ++ beBytes 2 1 ++ beBytes 2 2 ++
      beBytes 2 d.length ++ [0, 0] ++ padTo 1456 d), img := some img, shRec := [] }
def sgOk : Segment := sg (imgB.drop 16)
def sgBad : Segment := sg (imgB.drop 17)

/-- A frame that ends with its own FCS has it correct, whatever it holds: a CRC of 1,500 bytes is not run through here. -/
theorem fcsOk_withFcs (bs : List Byte) : fcsOk (withFcs bs) = true := by
  have h : (leBytes 4 (crc32 bs).toNat).length = 4 := by simp [leBytes]
  have e : (bs ++ leBytes 4 (crc32 bs).toNat).length - 4 = bs.length := by rw [List.length_append, h]; omega
  unfold fcsOk withFcs
  rw [e, List.drop_left, List.take_left, List.length_append, h]
  simp

theorem whole_of (g : Segment) (bs : List Byte) (hb : g.bytes = withFcs bs)
    (h : (hchkOk g.bytes && (frameHdr g.bytes).ty == 9 && !(frameHdr g.bytes).dir && g.bytes.length == segLen &&
      decide (1 ≤ g.len) && decide (g.len ≤ segData)) = true) : g.whole = true := by
  have hf : fcsOk g.bytes = true := hb ▸ fcsOk_withFcs bs
  simpa [Segment.whole, intact, hf] using h

theorem test_segment_whole : sgOk.whole = true := whole_of _ _ rfl (by decide +kernel)
theorem test_bad_segment_whole : sgBad.whole = true := whole_of _ _ rfl (by decide +kernel)

theorem test_segment_fields : all [sgOk.segno + 1 == sgOk.nseg, !sgOk.shadow, sgOk.bytes.length == 1504, sgOk.seq == 5] = true := by
  decide +kernel

/-- A delta of one changed word: offset 1, length 1, the word. -/
theorem test_delta :
    let base : List Byte := List.replicate 24 0
    let im : List Byte := List.replicate 8 0 ++ beBytes 8 7 ++ List.replicate 8 0
    all [deltaOf base im == [0, 0, 0x10, 1] ++ beBytes 8 7, applyRuns 12 (deltaOf base im) base == im, imgCrcOk imgB,
      !imgCrcOk (imgB.take 31)] = true := by decide +kernel

theorem test_images_are_received :
    let a := st { asmSeq := 5, asmHold := true, segNext := 1, asm := imgB.take 16, nseg := 2 }
    all [(a.red.assemble sgOk).asmHold, !(a.red.assemble sgOk).segBad, imgCrcOk ((a.red.assemble sgOk).built sgOk),
      after (execFirnSegmentReceived sgOk 50000000 a) fun u => u.red.retDue == some (5, 0) &&
        u.red.buf1 == some { img with seq := 5, snap := 6, hash := 0, fw := 0, epoch := 0, bytes := imgB } && u.red.newest1 &&
        u.red.crcFail == 0,
      after (execFirnSegmentReceived sgBad 50000000 a) fun u => u.red.retDue == some (5, 1) && u.red.crcFail == 1 &&
        u.red.health.getLsbD 9 && u.red.buf1 == none,
      after (execFirnSegmentReceived sgOk 50000000 (st { a.red with segNext := 0 })) fun u =>
        u.red.retDue == some (5, 1),
      after (execFirnSegmentReceived sgOk 50000000 (st { a.red with asmHold := false })) fun u => u.red.retDue == some (5, 2)] = true := by
  simp only [execFirnSegmentReceived, test_segment_whole, test_bad_segment_whole]
  decide +kernel

/-- A parameter record of one entry: 1.0.8 = 1. -/
def recF : List Byte := fr { ty := 0xA, fcnt := 7, epoch := 1 } (List.replicate 6 0 ++ beBytes 2 1 ++ beBytes 4 (pkey 1 0 8) ++ beBytes 4 1 ++
  List.replicate 22 0)

theorem test_returns_and_records :
    let a := st { asmSeq := 5 }
    all [keeps (.firnSegmentReceived { sgOk with bytes := sgOk.bytes.take 3 } 50000000) a,
      after (exec .returnSend (st { retDue := some (5, 0) })) fun u => u.red.retDue == none && u.red.firnTx.length == 1,
      intact recF false, paramEntries recF == [(pkey 1 0 8, 1)],
      after (exec (.parameterRecordReceived recF 50000000) a) fun u => u.pn 1 0 8 == 1,
      !intact (recF.take 63) false, after (exec (.parameterRecordReceived (recF.take 63) 50000000) a) fun u => u.params == a.params]
      = true := by decide +kernel

/-- A return for image 4: RESULT, the standby's health. -/
def retF (res : Byte) (health : Nat) : List Byte := fr { ty := 0xB, fcnt := 8, epoch := 1, dir := true } (beBytes 4 4 ++ [res, 0] ++
  beBytes 4 4 ++ beBytes 4 health ++ beBytes 6 6 ++ List.replicate 18 0)

theorem test_returns :
    let y := hp { fit := true, ystate := 1, yTries := 1, seq := 4, out := some img }
    all [intact (retF 0 0) false, after (exec (.returnReceived (retF 0 0) 50000000) (hp {})) fun u => u.red.fit && u.red.peerOn &&
        u.red.retFrame == 8 && u.red.ystate == 0,
      after (exec (.returnReceived (retF 1 2) 50000000) (hp { fit := true })) fun u => !u.red.fit && ev u evStandbyUnfit devObj,
      after (exec (.returnReceived (retF 0 0) 50000000) y) fun u => u.red.ystate == 2 && u.red.yfc == 16,
      after (exec (.returnReceived (retF 1 0) 50000000) y) fun u => u.red.ystate == 1 && u.red.yTries == 2,
      after (exec .firnReturnTimeout (hp { fit := true, retFrame := 4 })) fun u => !u.red.fit && u.red.lostRep && ev u evFirnLost devObj,
      keeps .firnReturnTimeout (hp { fit := true, retFrame := 5 })] = true := by decide +kernel

theorem test_self_tests :
    let s := st { health := 0x202, loopFail := 4 }
    all [after (exec (.goldenVectorTest 0xFE) s) fun u => u.health.getLsbD 0 && u.red.health == 0x203,
      after (exec (.goldenVectorTest 0xFF) s) fun u => !u.health.getLsbD 0 && u.red.health == 0x202,
      after (exec (.sramScrubPass true) s) fun u => u.red.health == 0x200, after (exec (.sramScrubPass false) (st {})) fun u => u.red.health == 2,
      after (exec (.loopbackTest 2 true) s) fun u => u.red.loopFail == 0, after (exec (.loopbackTest 7 false) s) fun u => u.red.loopFail == 0x84 &&
        u.health.getLsbD 8,
      after (exec .shadowComputation (st { shImg := some img, shRuns := 3 })) fun u => u.red.shImg == none && u.red.shRuns == 4 &&
        !u.health.getLsbD 3] = true := by decide +kernel

/-- A CSM of another head: its HEAD_ID, its EPOCH. -/
def fcsm (id e : Nat) : List Byte :=
  fr { ty := 1, fcnt := 7, epoch := e } (beBytes 6 7 ++ beBytes 8 10000000 ++ beBytes 8 id ++ beBytes 4 0x55 ++ List.replicate 12 0)

/-- The head that hears it: its own HEAD_ID is a fused value, so what it does hangs on whether that is 9. -/
theorem test_foreign_csm (own : Bool) (h : decide (Config.headId = 9) = own) :
    let s := { hb with net := { hb.net with hash := 0x55 } }
    (s.pn 3 0 0 = 1 ∧ isCsm (fcsm 9 2) = true ∧ isCsm (fcsm 9 1) = true ∧ s.monitors = false ∧ s.net.cs = .head ∧
      epochAbove (csmOf (fcsm 9 2) 0).epoch s.net.epoch = true ∧ epochAbove (csmOf (fcsm 9 1) 0).epoch s.net.epoch = false ∧
      s.csmWellFormed 0 (fcsm 9 2) = true) ∧ decide ((csmOf (fcsm 9 2) 0).headId = Config.headId) = own := by
  refine ⟨by decide +kernel, ?_⟩
  rw [show (csmOf (fcsm 9 2) 0).headId = 9 by decide +kernel, ← h]
  simp [eq_comm]

theorem test_heads_give_way :
    all [after (exec .yieldSilence (hp { ystate := 2, yfc := 8 })) fun u => u.frm.role == .standby && !u.frm.run && u.fio.order && u.fio.hold,
      keeps .yieldSilence (hp { ystate := 2, yfc := 9 }),
      after (exec .yieldTimeout (hp { ystate := 1, yieldJ := 0, yldPend := true })) fun u => u.red.ystate == 3 && !u.red.yldPend &&
        ev u evYieldFail devObj,
      keeps .yieldTimeout (hp { ystate := 1, yieldJ := 1 })] = true := by decide +kernel

/-! ## Safety functions and the safety layer -/

/-- Parameters of the running safety set: class 11. -/
def sp (l : List (Nat × Nat × Nat)) (s : State) : State :=
  { s with saf := { s.saf with params := l.foldl (fun t x => paramSetIn t 11 x.1 x.2.1 (BitVec.ofNat 64 x.2.2)) s.saf.params } }

/-- The head with a safety set, pair 7 filtered over four samples with T_DISC of 3 ms and fed by TPA1 and TPB1; pair 0 is not fed. -/
def sf (f : Saf) : State := sp [(15, 1, 4), (15, 2, 3), (15, 3, 1), (8, 1, 4), (0, 2, 300)] { hd with saf := { f with setOk := true } }

theorem test_safety_inputs :
    let p (x : SinPair) : State := sf { pairs := [(7, x)] }
    all [after (exec (.safetyInputSample 1 0) (sf { smpK := 200000, pairs := [(0, { onRun := 3, discRun := 2, demand := true })] })) fun u =>
        u.frm.now == usT 50 * 200001 && u.saf.smpK == 200001 && u.spair 0 == { a := true, demand := true, onRun := 4, discRun := 3 },
      after (exec (.safetyInputSample 1 1) (sf { pairs := [(0, { onRun := 3, discRun := 2 })] })) fun u => (u.spair 0).onRun == 0 &&
        (u.spair 0).offRun == 1 && (u.spair 0).discRun == 0,
      (sf {}).sinP 7 1 == 4, after (exec (.filteredDemandChange 7) (p { onRun := 4 })) fun u => (u.spair 7).demand,
      keeps (.filteredDemandChange 7) (p { onRun := 3 }),
      after (exec (.filteredDemandChange 7) (p { offRun := 4, demand := true })) fun u => !(u.spair 7).demand && (u.spair 7).onFrom == some 0,
      after (exec (.discrepancyFault 7) (p { discRun := 60 })) fun u => (u.spair 7).latch && ev u evSafeDisc 7,
      keeps (.discrepancyFault 7) (p { discRun := 59 })] = true := by decide +kernel

theorem test_test_pulses :
    let per := sp [(0, 1, 100)] (sf {})
    all [after (exec (.testPulseStart 3) per) fun u => tget false u.saf.tpLow 3 && u.frm.now == msT 75 && tget 0 u.saf.tpStart 3 == msT 75 + 1,
      after (exec (.testPulseStart 0) per) fun u => u.frm.now == msT 100,
      keeps (.testPulseStart 0) (sf { tpLow := [(2, true)] }), (sf {}).judgesA && (sf {}).judgesB,
      (sf {}).sinP 7 3 == 1, (sf {}).tpSource 7 true == 3, (sf {}).tpSource 7 false == 1,
      after (exec (.testPulseWindowEnd 3) (sf { tpLow := [(3, true)], tpStart := [(3, 50000001)] })) fun u => (u.spair 7).latch &&
        ev u evSafeTp 7 && (u.spair 0) == {} && u.frm.now == 50000000 + usT 300,
      after (exec (.testPulseWindowEnd 1) (sf { tpLow := [(1, true)], pairs := [(7, { tpLowA := true })] })) fun u =>
        u.spair 7 == { tpLowA := true }] = true := by decide +kernel

theorem test_safety_outputs :
    let o (x : SOut) : State := sp [(0, 3, 800)] (sf { outs := [(3, x)] })
    let on : SOut := { soh := true, sol := true }
    all [after (exec (.safetyTick [0, 0, 0, 0, 24000, 0, 100001]) (sf { tick := 199, cycle := 19 })) fun u => u.saf.tick == 200 && u.saf.perA == [100001] && u.frm.now == 100000000,
      keeps (.safetyTick [0, 0, 0, 0, 24000, 0, 100000]) (sf { tick := 200, cycle := 19 }),
      after (exec (.tickExchange false [0, 0, 0, 0, 0, 99999]) (sf {})) fun u => u.saf.tickB == 1 && u.saf.exBad && u.saf.perB == [99999],
      after (exec (.tickExchange true [0, 0, 0, 0, 0, 100000]) (sf {})) fun u => !u.saf.exBad,
      after (exec (.outputFault 3) (o { soh := true, sol := true, disB := 2 })) fun u => (u.sout 3).fault && !(u.sout 3).soh &&
        !(u.sout 3).sol && ev u evSafeOut 3,
      after (exec (.outputFault 3) (o { soh := true, sol := true, disA := 2, frzA := true })) fun u => (u.sout 3).soh && !(u.sout 3).sol,
      keeps (.outputFault 3) (o { soh := true, disB := 1 }),
      after (exec (.outputOffTest 3 false) (o on)) fun u => (u.sout 3).testH && !(u.sout 3).soh && (u.sout 3).sol &&
        u.frm.now == msT 100,
      after (exec (.outputOffTest 3 true) (o on)) fun u => (u.sout 3).testL && !(u.sout 3).sol && (u.sout 3).soh &&
        u.frm.now == msT 50,
      after (exec (.offTestWindowEnd 3 false ⟨5001, 50000500⟩) (o { testH := true, atH := 50000001 })) fun u => (u.sout 3).fault && ev u evSafeOut 3 &&
        u.frm.now == 54000000,
      after (exec (.offTestWindowEnd 3 false ⟨5000, 54000001⟩) (o { testH := true, atH := 50000001 })) fun u => (u.sout 3).fault,
      after (exec (.offTestWindowEnd 3 false ⟨5000, 54000000⟩) (o { testH := true, atH := 50000001 })) fun u => !(u.sout 3).fault &&
        !(u.sout 3).testH && u.frm.now == 54000000,
      after (exec (.offTestWindowEnd 3 true ⟨9999, 50000500⟩) (o { testL := true, atL := 50000001 })) fun u => (u.sout 3).fault && ev u evSafeOut 3,
      after (exec (.offTestWindowEnd 3 true ⟨10000, 50000500⟩) (o { testL := true, atL := 50000001 })) fun u => !(u.sout 3).fault &&
        !(u.sout 3).testL && u.frm.now == 50000500,
      after (exec (.switchLimitExpiry 3 true) (o on)) fun u => (u.sout 3).fault && !(u.sout 3).sol && ev u evSafeOut 3,
      after (exec (.switchLimitExpiry 3 false) (o on)) fun u => (u.sout 3).fault && !(u.sout 3).soh] = true := by decide +kernel

/-- Ten ticks of a period in ns. -/
def ticks (p : Nat) : List Nat := List.replicate 10 p

/-- Group 31, stopped by pair 7, SLS always in force with a limit of 0, over three cycles; SS1-t of 50 ms and SS1-r of at most 80 ms; output 2 its brake. -/
def sg31 (x : SGroup) : State :=
  sp [(63, 0, 128), (63, 4, 4), (63, 6, 50), (63, 11, 80), (63, 12, 254), (63, 14, 3), (63, 18, 20)]
    (sf { cycle := 100, tick := 1010, tickB := 1010, perA := ticks 100000, perB := ticks 100000, groups := [(31, x)], pairs := [(7, { demand := true })], outs := [(2, { soh := true, sol := true })] })

theorem test_safety_cycle :
    let c (x : Saf) : State := sf { x with tick := 10, tickB := 10 }
    let g := ticks 100000
    all [(sg31 {}).groupDemand 31, (sg31 {}).sgP 31 1 == 0,
      after (exec .safetyCycleEnd (sg31 { st := .run, rst := true, slsReq := true })) fun u => u.saf.cycle == 101 && u.frm.now == 505000000 && (u.sgrp 31).st == .sto &&
        !(u.sgrp 31).rst && !(u.sgrp 31).slsReq && ev u evSafeSto 31,
      after (exec .safetyCycleEnd (c { perA := g, perB := g, groups := [(31, { st := .run })] })) fun u => (u.sgrp 31).st == .run && (u.sgrp 0).st == .sto,
      after (exec .safetyCycleEnd (c { perA := g, perB := g, groups := [(31, { st := .sto, rst := true })] })) fun u => (u.sgrp 31).st == .run,
      after (exec .safetyCycleEnd (sf { tick := 9, tickB := 10, perA := g.tail, perB := g })) fun u => u.saf.cycle == 1 && u.saf.tick == 10 && u.saf.a.fault == .persistent &&
        u.saf.b.fault == .healthy,
      after (exec .safetyCycleEnd (c { perA := ticks 102000, perB := g.tail ++ [120001] })) fun u => u.saf.b.fault == .persistent &&
        u.saf.a.fault == .healthy && u.saf.perA == [],
      after (exec .safetyCycleEnd (c { perA := ticks 97999, perB := 0 :: g.tail })) fun u => u.saf.b.fault == .persistent &&
        u.saf.a.fault == .persistent] = true := by
  decide +kernel

theorem test_safety_timers :
    let v : State := sp [(66, 0, 1), (66, 5, 1), (66, 16, 0x3F800000), (63, 2, 4)] (sg31 { st := .run, slsRun := 2 })
    let v := { v with saf := { v.saf with conns := [(2, { v0 := true, s0 := ⟨0x40000000⟩ })] } }
    all [v.slsOver 31, after (exec (.slsViolation 31) v) fun u => (u.sgrp 31).slsReq && (u.sgrp 31).st == .run && ev u evSafeSls 31,
      !(sg31 { st := .run, slsRun := 2 }).slsOver 31,
      after (exec (.ss1TimeExpiry 31) (sg31 { st := .ss1, ss1At := 51 })) fun u => (u.sgrp 31).tmax && (u.sgrp 31).st == .ss1,
      keeps (.ss1TimeExpiry 31) (sg31 { st := .ss1, ss1At := 52 }),
      after (exec (.ss1TmaxExpiry 31) (sg31 { st := .ss1, ss1At := 21, ss1r := true })) fun u => (u.sgrp 31).tmax && (u.sgrp 31).st == .ss1,
      keeps (.ss1TmaxExpiry 31) (sg31 { st := .ss1, ss1At := 22, ss1r := true }),
      after (exec (.sbcDelayExpiry 31) (sg31 { sbcAt := some 100 })) fun u => (u.sgrp 31).sbcAt == none && !(u.sout 2).soh,
      keeps (.sbcDelayExpiry 31) (sg31 { sbcAt := some 101 }), twf {} (sg31 { sbcAt := some 100 }).saf.groups, twf {} (sg31 {}).saf.outs,
      after (exec .degradedWindowExpiry (sf { deg := true, degEnd := 60000000 })) fun u => u.saf.degExp && u.saf.deg &&
        u.frm.now == 60000000] = true := by decide +kernel

theorem test_channel_faults :
    let l := [40000000, 30000000, 20000000]
    all [after (exec (.safetyChannelFault false .persistent) (sf {})) fun u => u.saf.a.fault == .persistent && u.saf.deg &&
        u.saf.degEnd == 50000000 + msT (1000 * (sf {}).pn 11 0 0) && ev u evSafeChfault devObj && ev u evSafeDegraded devObj,
      after (exec (.safetyChannelFault true .persistent) (sf { a := { fault := .persistent }, deg := true })) fun u =>
        u.saf.b.fault == .persistent && !u.saf.deg,
      after (exec (.safetyChannelFault false .transient) (sf { a := { trans := l.take 2 } })) fun u => u.saf.a.fault == .healthy &&
        !u.saf.deg && u.saf.a.trans == 50000000 :: l.take 2,
      after (exec (.safetyChannelFault false .transient) (sf { a := { trans := l } })) fun u => u.saf.a.fault == .persistent && u.saf.deg,
      after (exec (.diagnosisEnd .healthy .healthy) (sf { diag := 1, cmpBad := true })) fun u => u.saf.diag == 0 &&
        u.saf.a.fault == .persistent && u.saf.b.fault == .persistent && !u.saf.deg,
      after (exec (.diagnosisEnd .healthy .healthy) (sf { diag := 1 })) fun u => u.saf.a.fault == .healthy && u.saf.b.fault == .transient,
      after (exec (.diagnosisEnd .persistent .healthy) (sf { diag := 1 })) fun u => u.saf.diag == 0 && u.saf.a.fault == .persistent &&
        u.saf.b.fault == .healthy && u.saf.deg,
      after (exec (.diagnosisEnd .healthy .persistent) (sf { diag := 1 })) fun u => u.saf.b.fault == .persistent &&
        u.saf.a.fault == .healthy && u.saf.deg,
      after (exec (.diagnosisEnd .healthy .healthy) (sf { diag := 2 })) fun u => u.saf.diag == 2 && u.saf.a.fault == .healthy &&
        u.saf.b.fault == .healthy && u.saf.a.stOk && u.saf.b.stOk,
      keeps (.diagnosisEnd .healthy .healthy) (sf {})] = true := by decide +kernel

/-- Connection 63 of the head: SAFE_ID 77, watchdog 20 ms, four payload bytes. -/
def cn (x : Conn) (f : Saf := {}) : State := sp [(127, 0, 1), (127, 1, 77), (127, 3, 20), (127, 4, 4)] (sf { f with conns := [(63, x)] })

/-- A PDU of its producer, its SEQ. -/
def up (q : Nat) : Pdu := pduBytes 77 (BitVec.ofNat 16 q) 20 0x80 [0, 0, 0, 0]

/-- A connection that has accepted SEQ 65534. -/
def ok (wd : Nat) : Conn := { a := { has := true, seq := 65534, pdu := up 65534, wd := wd, wdOn := true }, b := { has := true, seq := 65534, pdu := up 65534, wd := wd, wdOn := true } }

theorem test_safety_pdus :
    let t := 50000100
    let own := ((cn {}).pduFor 63 5)
    all [(cn {}).ownConns.contains 63, rxPasses ((cn {}).rxPar 63 false) (up 65535), pduTexp (up 65535) == 20,
      after (exec (.pduRelease 63) (cn { tx := 5, formed := true, form := own })) fun u => (u.conn 63).rel == own && (u.conn 63).txRel == 5 &&
        !(u.conn 63).formed,
      after (exec (.pduRelease 63) (cn { tx := 5, formed := true, form := 0 :: own, rel := [7], withheld := 255 })) fun u =>
        (u.conn 63).rel == [7] && (u.conn 63).withheld == 255 && u.saf.mismatch && ev u evSafeWithheld 63,
      after (exec (.pduRelease 63) (cn { tx := 5, formed := true, form := 0 :: own } { b := { fault := .persistent } })) fun u =>
        (u.conn 63).rel == 0 :: own,
      after (exec (.safetyPduReceived 63 ((up 65535).drop 1) t) (cn (ok 9))) fun u => (u.conn 63).rej == 1 && (u.conn 63).a == (ok 9).a,
      after (exec (.safetyPduReceived 63 (up 65534) t) (cn (ok 9))) fun u => (u.conn 63).a == (ok 9).a && !(u.conn 63).fail,
      after (exec (.safetyPduReceived 63 (up 32766) t) (cn (ok 9))) fun u => (u.conn 63).a == (ok 9).a && !(u.conn 63).fail,
      after (exec (.safetyPduReceived 63 (up 65535) t) (cn (ok 9))) fun u => (u.conn 63).a.seq == 65535 && (u.conn 63).rxSeq == 65535 &&
        (u.conn 63).a.wd == t + msT 20 && (u.conn 63).la.miss == 0,
      after (exec (.safetyPduReceived 63 (up 2) t) (cn (ok 9))) fun u => (u.conn 63).a.seq == 2 && (u.conn 63).la.miss == 3 &&
        !(u.conn 63).fail,
      after (exec (.safetyPduReceived 63 (up 3) t) (cn (ok 9))) fun u => (u.conn 63).fail && (u.conn 63).reason == 2 &&
        (u.conn 63).a.seq == 65534 && ev u evSafeConn 63,
      after (exec (.safetyPduReceived 63 (up 32765) t) (cn (ok 9))) fun u => (u.conn 63).fail && (u.conn 63).reason == 2,
      after (exec (.safetyWatchdogExpiry 63 false) (cn (ok 60000000))) fun u => u.frm.now == 60000000 && (u.conn 63).fail &&
        (u.conn 63).reason == 1 && ev u evSafeConn 63] = true := by decide +kernel

/-- SAFE_LOAD of eight bytes at an offset, of 16 in all. -/
def sl (off : Nat) (s : State) : State := rq 0x52 (leBytes 4 off ++ leBytes 4 16 ++ [1, 2, 3, 4, 5, 6, 7, 8]) s

/-- Whether a set passes its checks, and its CRC, hang on the free readings of its bytes: a part without a key holds none. -/
theorem test_safety_sets :
    let n := { hd with saf := { setOk := false } }
    let l (f : SafeLoad) : State := { hd with saf := { load := f }, cfg := { hd.cfg with flash := [(n.safeBase, 9)] } }
    all [!n.safeSlotOk 0, after (exec .safetySetCheck n) fun u => !u.saf.setOk && ev u evSafeSet devObj,
      n.allSto, isReq (sl 0 n) 0x52 16,
      after (exec .safeLoad (sl 0 n)) fun u => u.saf.load.on && u.saf.load.erase && u.saf.load.first == [1, 2, 3, 4, 5, 6, 7, 8] &&
        u.cfg == n.cfg,
      ans (exec .safeLoad (sl 0 (sf { groups := [(3, { st := .run })] }))) stBadState 0 [] (fun u => !u.saf.load.on),
      canon (l { erase := true, first := [1, 2] }),
      after (exec .safeLoadEraseComplete (l { on := true, erase := true, first := [1, 2] })) fun u => !u.saf.load.erase &&
        mread flashByte u.cfg.flash (n.safeBase + 0x40000) 2 == [1, 2] && u.cfg.safeSlot == 0,
      after (exec .safeConfirmTimeout (l { on := true, done := true, due := 60000000 })) fun u => u.saf.load == {} && u.frm.now == 60000000 &&
        u.cfg.safeSlot == 0, keeps .safeConfirmTimeout n,
      isReq (rq 0x53 [1, 0, 0, 0] (l { done := true, due := 50000000 })) 0x53 4] = true := by decide +kernel

theorem test_safety_set_runs (d : BitVec 256) (s : State) (h : s.cfg.safeKey = some d) (ha : Config.safeSetOk (s.safeCopy 0 false) d = true)
    (hb : Config.safeSetOk (s.safeCopy 0 true) d = true) : s.safeSlotOk 0 = true := by
  simp [State.safeSlotOk, h, ha, hb]

/-- A confirm with the right CRC, whatever that is. -/
theorem test_safe_confirm (crc : W32) :
    let s := rq 0x53 (List.replicate 4 0) hd
    let c := { s with host := { s.host with mem := mwrite ramByte s.host.mem 1552 (leBytes 4 crc.toNat) } }
    BitVec.ofNat 32 (c.pay 3 0 4) = crc := by
  intro s c
  have hw : mread ramByte c.host.mem 1552 (leBytes 4 crc.toNat).length = _ := mread_mwrite _ _ _ _ (by decide +kernel)
  have h : c.pay 3 0 4 = crc.toNat % 256 ^ 4 := (congrArg leNat hw).trans (leNat_leBytes 4 _)
  rw [h]
  apply BitVec.eq_of_toNat_eq
  simpa using crc.isLt

theorem test_safety_requests :
    all [isReq (rq 0x50 [31] (sf {})) 0x50 1,
      ans (exec .safeReset (rq 0x50 [31] (sf { groups := [(31, { st := .ss1 })] }))) stOk 0 [] (fun u => (u.sgrp 31).rst && (u.sgrp 31).st == .ss1),
      ans (exec .safeReset (rq 0x50 [32] (sf {}))) stBadValue 0 [],
      ans (exec .safeClear (rq 0x51 [1] (sf { b := { fault := .transient } }))) stOk 0 [] (fun u => u.saf.clr == some (50000000 + msT 100)),
      ans (exec .safeClear (rq 0x51 [0] (sf { a := { fault := .persistent } }))) stSafePersist 0 [] (fun u => u.saf.clr == none),
      ans (exec .safeClear (rq 0x51 [0] (sf {}))) stBadState 0 []] = true := by decide +kernel

/-! ## The field IO -/

/-- Channel 31, of die 3, and its die. -/
def fc (x : FioCh) (d : FioDie := {}) : State :=
  { hd with pwr := { hd.pwr with up := true }, fio := { ch := [(31, x)], dies := [(3, d)], order := true } }

def f31 (i : Instr) (s : State) (p : FioCh → Bool) : Bool := after (exec i s) fun u => p (u.fch 31)
def d3 (i : Instr) (s : State) (p : FioDie → Bool) : Bool := after (exec i s) fun u => p (u.die 3)

theorem test_housekeeping :
    let s := fc { die := 2, sticky := 1, sw := true, st := .output } { hkErr := 255, hkRun := 2 }
    let lost := fc { st := .input, inv := false, level := true } { hkRun := 3, hkLost := false }
    all [twf {} s.fio.dies, twf {} s.fio.ch,
      f31 (.housekeepingCycle 0xF [none, none, none, some (60, 99)]) s fun x => x.live == 2 && x.sticky == 3 && x.swon,
      after (exec (.housekeepingCycle 0xF [none, none, none, some (60, 99)]) s) fun u => !u.fio.order && (u.die 3).tj == 60 &&
        (u.die 3).vfld == 99 && (u.die 3).hkRun == 0 && (u.die 3).present && (u.die 0).hkErr == 1 && (u.die 0).hkRun == 1,
      d3 (.housekeepingCycle 0 []) s fun x => x.hkErr == 255 && x.hkRun == 3,
      f31 (.housekeepingLost 3) lost fun x => x.inv && x.level,
      after (exec (.housekeepingLost 3) lost) fun u => (u.die 3).hkLost && ev u evFioHklost 4, !lost.seenEv evFioHklost 4] = true := by
  decide +kernel

theorem test_inputs_and_couplers :
    let s := prm [(10, 31, 1, 4)] (fc { st := .input } { hkLost := false })
    all [s.filters 31, s.fioP 31 1 == 4, f31 (.fieldInputChange 31 true 4) s fun x => x.level && !x.inv && x.st == .input,
      keeps (.fieldInputChange 31 true 3) s,
      f31 (.quiesceComplete 31) (fc { st := .quiescing, drv := true, sw := true }) fun x => x.st == .quiesced && !x.sw && !x.drv,
      f31 (.couplerReversalComplete 31) (fc { revBusy := true, revN := 1 }) fun x => !x.revBusy && x.coupOut,
      keeps (.couplerReversalComplete 31) (fc { revBusy := true })] = true := by decide +kernel

theorem test_field_requests :
    let m := rq 0x61 (leBytes 4 0x80000000)
    let c (op : Nat) (x : CapSt) : State := rq op [] { hd with cap := { st := x } }
    all [isReq (rq 0x60 (leBytes 4 0x80000000) hd) 0x60 4,
      ans (exec .fioQuiesce (rq 0x60 (leBytes 4 0x80000000) hd)) stOk 8 [] (fun u => u.fio.qReq == 0x80000000 && u.fio.ch == []),
      !(m (fc {})).anyCh 0x80000000 (fun x => x.st == .quiescing || x.revBusy),
      ans (exec .fioResume (m (fc {}))) stOk 8 [] (fun u => u.fio.rReq == 0x80000000),
      ans (exec .fioResume (m (fc { revBusy := true }))) stBadState 0 [] (fun u => u.fio.rReq == 0),
      ans (exec .fioRearm (rq 0x62 [] hd)) stOk 8 [] (fun u => u.fio.aReq),
      (c 0x70 .idle).capStartOk, ans (exec .captStart (c 0x70 .idle)) stOk 8 [] (fun u => u.cap.startAt && u.cap.st == .idle),
      ans (exec .captStart (c 0x70 .post)) stBadState 0 [] (fun u => u.cap.st == .post),
      ans (exec .captStop (c 0x71 .armed)) stOk 8 [] (fun u => u.cap.stopAt), ans (exec .captStop (c 0x71 .idle)) stBadState 0 [],
      ans (exec .captForce (c 0x72 .holdoff)) stOk 8 [] (fun u => u.cap.forceAt),
      ans (exec .captForce (c 0x72 .armed)) stOk 8 [] (fun u => u.cap.forceAt)] = true := by decide +kernel

theorem test_switches :
    let t := 50000000
    let sh (x : FioCh) : State := fc { x with die := 2, cmd := true, drv := true, thAt := t }
    all [f31 (.overcur 31 true) (fc { sw := true }) fun x => x.die == 1 && x.sw,
      f31 (.thermalShutdown 31 t) (fc { sw := true, die := 1, thcnt := 255 }) fun x => !x.sw && x.die == 2 && x.thcnt == 255 && x.thAt == t,
      f31 (.reverseShutdown 31) (fc { sw := true }) fun x => !x.sw && x.die == 16,
      f31 (.thermalRetry 31 145 (t + msT 100)) (sh {}) fun x => x.sw && x.die == 0,
      keeps (.thermalRetry 31 145 (t + msT 100 - 1)) (sh {}), keeps (.thermalRetry 31 146 (t + msT 100)) (sh {}),
      f31 (.thermalRetry 31 145 t) (sh { dRetry := true, offSeen := true }) fun x => x.sw && x.die == 0,
      keeps (.thermalRetry 31 145 (t + msT 100)) (sh { dRetry := true }),
      f31 (.reverseReclose 31) (fc { die := 16, cmd := true, drv := true }) fun x => x.sw && x.die == 0,
      f31 (.diagClassify 31 7000) (fc { st := .output, extIn := 7 }) fun x => x.die == 8 && !x.sw,
      f31 (.diagClassify 31 7000) (fc { st := .output, extIn := 6 }) fun x => x.die == 0,
      f31 (.diagClassify 31 2499) (fc { st := .output, openOut := 7, die := 4 }) fun x => x.die == 0,
      f31 (.diagClassify 31 2500) (fc { st := .output, openIn := 7, dOl := true }) fun x => x.die == 4,
      f31 (.diagClassify 31 6999) (fc { st := .output, openIn := 7, dOl := true }) fun x => x.die == 4] = true := by decide +kernel

theorem test_field_dies :
    let o (n : Nat) : State := fc { st := .output, sw := n == 0, drv := n == 0, dSafe := n } { refreshed := true, held := false, silFrom := 49000000 }
    all [f31 (.logicSilenceExpiry 3) (o 0) fun x => !x.sw, f31 (.logicSilenceExpiry 3) (o 1) fun x => x.sw,
      after (exec (.logicSilenceExpiry 3) (o 0)) fun u => (u.die 3).silent && u.frm.now == max 50000000 (49000000 + msT ((o 0).pn 10 0 64)),
      after (exec (.vfldThresholdCross 3 0) (fc {})) fun u => (u.die 3).low && ev u evFldLow 4,
      after (exec (.vfldThresholdCross 3 1) (fc { st := .input, inv := false })) fun u => (u.die 3).uv && (u.fch 31).inv && ev u evFldUv 4,
      after (exec (.vfldThresholdCross 3 2) (fc { st := .output, sw := true } { latch := false })) fun u => (u.die 3).latch &&
        (u.die 3).held && !(u.fch 31).sw && ev u evFldOff 4,
      d3 (.vfldThresholdClear 3 0) (fc {} { low := true, uv := true }) fun x => !x.low && x.uv,
      d3 (.vfldThresholdClear 3 1) (fc {} { low := true, uv := true }) fun x => !x.uv && x.low,
      d3 (.offLatchRelease 3) (fc {} { first := true }) fun x => !x.latch && x.held && x.reAt,
      d3 (.offLatchRelease 3) (prm [(10, 0, 65, 1)] (fc {} { first := false })) fun x => !x.latch && x.held && !x.reAt,
      after (exec (.fieldDiePowerUp 3) (fc { st := .output, sw := true, cmd := true } { refreshed := true })) fun u =>
        !(u.die 3).refreshed && (u.fch 31).st == .powerUp && !(u.fch 31).sw && !(u.fch 31).cmd] = true := by decide +kernel

/-! ## Capture -/

def cp (c : Cap) : State := prm [(12, 0, 0, 2), (12, 0, 3, 16), (12, 0, 4, 50), (12, 0, 5, 4), (12, 0, 1, 3)]
  { hd with cap := c, net := { ports := [(0, { sync := true })] } }

def smp : StgSmp := { recno := 5, repoch := 0, inst := 0, time := 1, addr := 64, bytes := [1, 2] }

theorem test_capture_memory :
    let w (b : Nat) (c : CapSt) : State := { hd with cap := { apBase := b, st := c } }
    all [after (exec .autoTriggerExpiry (cp { st := .armed, auto := some 50000100 })) fun u => u.cap.autoTrig && u.frm.now == 50000100,
      after (exec (.rearmComplete 50000100) (cp { st := .rearm, recno := 6 })) fun u => u.cap.st == .holdoff && u.cap.cur.recno == 6 &&
        u.cap.cur.n == 0 && u.frm.now == 50000100,
      after (exec (.rearmComplete 50000100) (prm [(12, 0, 4, 0)] (cp { st := .rearm }))) fun u => u.cap.st == .armed,
      after (exec .stagingDrain (cp { stg := [smp, { smp with addr := 66 }], fill := 4 })) fun u => u.cap.stg.length == 1 && u.cap.fill == 2 &&
        mread ramByte u.cap.mem 64 2 == [1, 2],
      after (exec .recordComplete (cp { fin := [{ recno := 5, trig := some 9 }] })) fun u => u.cap.fin == [] && u.cap.lastRecno == 5 &&
        mread ramByte u.cap.mem 0 4 == [5, 0, 0, 0],
      keeps .recordComplete (cp { fin := [{ recno := 5 }], stg := [smp] }),
      after (exec (.captureApertureWrite 0 0x01020304) (w 8 .idle)) fun u => mread ramByte u.cap.mem maskBase 4 == [4, 3, 2, 1] && !u.cap.wrign,
      after (exec (.captureApertureWrite 0x1FFFFC 0x01020304) (w 8 .idle)) fun u =>
        mread ramByte u.cap.mem (maskBase + 64 * 32768 - 4) 4 == [4, 3, 2, 1],
      after (exec (.captureApertureWrite 0xFFFFC 1) (w 7 .idle)) fun u => u.cap.wrign && u.cap.mem == []] = true := by decide +kernel

theorem test_capture_instants :
    let h (n d : Nat) : State := cp { st := .holdoff, src := 2, decim := d, cur := { n := n } }
    all [after (exec (.captureSample 0x1FF 50000100) (h 3 2)) fun u => u.frm.now == 50000100 && u.cap.stg == [] && u.cap.cur.n == 3 && u.cap.decim == 0,
      (h 7 0).capPre == 8, ((h 7 0).portOf ((h 7 0).cp 19)).sync, (h 7 0).capCause false false 2 == 0, (h 7 0).cp 9 == 0,
      after (exec (.captureSample 0x1FF 50000100) (h 7 0)) fun u => u.cap.cur.n == 8 && u.cap.fill == 2 && u.cap.stg.length == 1 &&
        u.cap.st == .armed] = true := by decide +kernel

/-! ## Supplies, clocks, resets -/

/-- A part out of reset, its head as above. -/
def pw (p : Pwr) : State := { hd with pwr := { p with sl := 2, good := true } }

theorem test_supplies :
    all [(pw {}).pwr.up, after (exec (.droopDetect 769) (pw { droopCnt := 0xFFFFFFFF, vcoreMin := 780 })) fun u => u.pwr.droop &&
        u.pwr.droopCnt == 0xFFFFFFFF && u.pwr.vcore == 769 && u.pwr.vcoreMin == 769,
      after (exec (.droopDetect 770) (pw { droop := true })) fun u => u.pwr.droop && u.pwr.droopCnt == 0,
      after (exec (.droopClear 770) (pw { droop := true })) fun u => !u.pwr.droop,
      after (exec (.droopClear 769) (pw { droop := true })) fun u => u.pwr.droop,
      after (exec .vioLow (pw {})) fun u => u.pwr.viol && ev u evVioLow devObj, after (exec .vioRestored (pw { viol := true })) fun u => !u.pwr.viol,
      after (exec .dramSelfRefresh (pw { stage := 2, dramLast := 50000000 })) fun u => u.pwr.selfRef && u.frm.now == 50000000 + usT 2,
      keeps .dramSelfRefresh (pw { stage := 1 })] = true := by decide +kernel

theorem test_calving :
    all [after (exec (.calvingStageEntry 0 4499) (pw {})) fun u => u.pwr.stage == 1 && u.pwr.vmain == 4499 && ev u evCalve1 devObj,
      after (exec (.calvingStageEntry 0 4500) (pw {})) fun u => u.pwr.stage == 0 && u.evt == hd.evt,
      after (exec (.calvingStageEntry 1 4399) (pw { stage := 1 })) fun u => u.pwr.stage == 2 && u.pwr.hold75 && ev u (evCalve1 + 1) devObj,
      after (exec (.calvingStageEntry 2 4299) (pw { stage := 2 })) fun u => u.pwr.stage == 3 && u.pwr.s3From == some 50000000 &&
        ev u (evCalve1 + 2) devObj,
      after (exec (.calvingStageExit 0 4600) (pw { stage := 3, s3From := some 5 })) fun u => u.pwr.stage == 0 && u.pwr.s3From == none,
      after (exec (.calvingStageExit 2 4399) (pw { stage := 3 })) fun u => u.pwr.stage == 3,
      after (exec (.calvingStageExit 2 4400) (pw { stage := 3 })) fun u => u.pwr.stage == 2,
      after (exec (.calvingStage4 4199) (pw { stage := 3 })) fun u => u.pwr.stage == 4 && u.pwr.rst == some .stage4 && u.pwr.commit &&
        u.saf.stage4 && u.fio.order && u.lgr.opn == 0 && ev u evCalve4 devObj,
      after (exec (.calvingStage4 4200) (pw { stage := 3 })) fun u => u.pwr.stage == 3] = true := by decide +kernel

theorem test_power_up :
    let off : Pwr := { rails := false, up := false, good := false }
    let d (p : Pwr) : State := { State.reset with pwr := p, cfg := { State.reset.cfg with flash := [(7, 7)], lcyNext := some 1 } }
    let f (w : Fin 5) := exec (.startupChecksComplete w) { hd with pwr := { up := true } }
    all [after (exec .standbyRailsUp (d { off with stby := false })) fun u => u.pwr.stby && !u.lgr.retUse && !u.saf.setOk && u.allSto &&
        u.cfg.flash == [(7, 7)],
      after (exec .railSequenceStart (d off)) fun u => u.pwr.rails,
      after (exec (.resetRelease true 3 2500) (d { off with rails := true, below3 := false })) fun u => u.pwr.up && u.host.hostsel &&
        u.pwr.boot == 3 && u.frm.now == 0 && u.cfg.lcy == 1 && u.pwr.vio33,
      after (exec (.resetRelease false 0 2499) (d { off with rails := true, below3 := false })) fun u => !u.pwr.vio33 && !u.host.hostsel,
      after (f 0) fun u => u.pwr.good && u.pwr.sl == 2 && u.pwr.sl1why == 0,
      after (f 4) fun u => u.pwr.good && u.pwr.sl == 1 && u.pwr.sl1why == 4] = true := by decide +kernel

theorem test_resets :
    let s := pw {}
    let r (i : Instr) (c : RstCause) (p : State → Bool := fun _ => true) : Bool := after (exec i s) fun u => u.pwr.rst == some c && p u
    all [r .resetPin .pin (fun u => u.pwr.commit == s.cfg.fwOn && u.lgr.opn == 0 && u.fio.order),
      r (.pwrRstreq 0x2A57FFFF) .host (fun u => u.lgr.opn == 0 && u.fio.order),
      after (exec (.pwrRstreq 0x2A560000) s) fun u => u.pwr.rst == none && u.lgr.opn == s.lgr.opn,
      r .brownout .brownout (fun u => !u.pwr.commit), r .fwWatchdogExpiry .fwdog (fun u => !u.pwr.commit && u.lgr.retUse),
      r (.vcoreFault 759) .vcore (fun u => u.lgr.retUse), r (.vcoreFault 841) .vcore,
      after (exec (.vcoreFault 760) s) fun u => u.pwr.rst == none, after (exec (.vcoreFault 840) s) fun u => u.pwr.rst == none,
      r (.clockLoss 0) .clock (fun u => u.lgr.retUse), r (.clockLoss 4) .clock,
      after (exec .powerOnReset (pw { below3 := true })) fun u => u.pwr.rst == some .por && !u.pwr.below3,
      keeps .powerOnReset (pw { below3 := false })] = true := by decide +kernel

theorem test_core_die_reset :
    let s (c : RstCause) : State :=
      { (fc { sw := true, st := .output }) with
        pwr := { rst := some c, cause := 2 }, cfg := { hd.cfg with flash := [(7, 7)], lcy := 2 }, pending := [.perstN] }
    all [after (exec .coreDieReset (s .pin)) fun u => !u.pwr.up && u.frm == {} && u.axes == [] && u.params == [] && !u.cfg.running &&
        u.cfg.flash == [(7, 7)] && u.cfg.lcy == 2 && u.pending == [.perstN] && u.allSto && (u.fch 31).sw && (u.fch 31).st == .output &&
        u.pwr.cause == 0xA,
      after (exec .coreDieReset (s .por)) fun u => u.pwr.cause == 1,
      keeps .coreDieReset (pw { rst := some .pin, commit := true }), keeps .coreDieReset (pw {})] = true := by decide +kernel

/-! ## The frame boundary, ledgers and counters -/

theorem test_tick_takes_effect :
    let s := { (prm [(5, 9, 0, 1)] (hd.setAxis 9 { st := .closed, nonfin := true })) with
      frm := { hd.frm with tickPend := true }, host := { piPend := some 1 } }
    all [s.pwr.up, s.axisIds == [9], after (exec .tickTakesEffect s) fun u => !u.frm.tickPend && u.frm.now == 50000032 && u.host.piActive == 1 &&
        u.host.piPend == none && u.host.committed && (u.axis 9).st == .fault,
      keeps .tickTakesEffect hd] = true := by decide +kernel

theorem test_instants :
    let s := { (hd.setFch 31 { st := .input, level := true, inv := false }) with steps := [(15, { fwd := 7, bwd := 9 })] }
    let o := { (hd.setFch 31 { st := .output }) with host := { committed := true, po := [(hd.host.piActive, [(0x43, 0x80)])] } }
    let q := { (st { quitA := some 50625000 }) with frm := { (st {}).frm with run := false },
                                                     steps := [(15, { stopped := false, queue := [3, -2], backlog := 7 })] }
    let n (d : List (Nat × List Byte)) : State := inRole .node { hd with net := { nrole := { keep := 3, out := 5, safe := true, down := d } } }
    all [twf {} s.fio.ch, twf {} s.steps,
      after (exec .sampleInstant s) fun u => (u.fch 31).latched && !(u.fch 31).invLat && (u.step_ 15).latch == -2 && u.frm.now == max 50000000 s.instS,
      o.imgOut == 0x80000000, after (exec .applyInstant o) fun u => (u.fch 31).cmd && u.frm.now == o.instA,
      after (exec .applyInstant q) fun u => u.frm.now == 50625000 && u.red.quitA == none && (u.step_ 15).stopped && (u.step_ 15).queue == [] &&
        (u.step_ 15).backlog == 0,
      after (exec .applyInstant (n [(6, [1, 2, 3, 4]), (7, [9])])) fun u => u.net.nrole.keep == 0 && !u.net.nrole.safe &&
        u.net.nrole.out == 0x01020304 && u.net.nrole.down == [(7, [9])],
      after (exec .applyInstant (n [(7, [9])])) fun u => u.net.nrole.keep == 4 && u.net.nrole.out == 5,
      after (exec .nroleKeeperExpiry (inRole .node (prm [(2, 0, 18, 5)] { hd with net := { nrole := { keep := 6 } } }))) fun u =>
        u.net.nrole.safe && u.net.nrole.out == 0,
      keeps .nroleKeeperExpiry (inRole .node (prm [(2, 0, 18, 5)] { hd with net := { nrole := { keep := 5 } } }))] = true := by decide +kernel

theorem test_ledgers :
    let e : List Byte := List.replicate 128 1
    all [after (exec .ledgerCheck { hd with lgr := { takeDue := true, takeFc := 9, opn := 3 } }) fun u => !u.lgr.takeDue && u.lgr.chkCnt == 1 &&
        u.lgr.snapFc == 9 && u.lgr.retFc == 9 && u.lgr.retOpen == 3 && u.lgr.ret == u.lgr.snap,
      keeps .ledgerCheck hd,
      after (exec .faultLogCommit { hd with lgr := { logPend := [e, e] }, pwr := { commit := true } }) fun u => u.lgr.logPend == [] &&
        !u.pwr.commit && u.lgr.logUsed == 384 && u.lgr.logRing.length == 2,
      keeps .faultLogCommit hd,
      after (exec .faultLogCompact { hd with lgr := { logUsed := 0x70001, logRing := [e] } }) fun u => u.lgr.logHalf != hd.lgr.logHalf &&
        u.lgr.logRing == [e] && u.lgr.logUsed == 256,
      keeps .faultLogCompact { hd with lgr := { logUsed := 0x70000 } }] = true := by decide +kernel

theorem test_counters :
    let b : Bw := { now := 9, endAt := 50000000, last := 5, cnt := 6 }
    all [after (exec (.counterOverflow 7) { hd with prf := { pcs := [(7, { cnt := 2 ^ 48, ovfn := 255 })] } }) fun u => (u.pc 7).cnt == 0 &&
        (u.pc 7).ovf && (u.pc 7).ovfn == 255,
      keeps (.counterOverflow 7) { hd with prf := { pcs := [(7, { cnt := 2 ^ 48 - 1 })] } },
      after (exec (.bwWindowEnd 8) { hd with prf := { bw := [(8, b)] } }) fun u => u.frm.now == 55000000 && (tget {} u.prf.bw 8).now == 0,
      after (exec (.bwWindowEnd 9) { hd with prf := { bw := [(9, b)] }, pwr := { stage := 1 } }) fun u => (tget {} u.prf.bw 9).last == 5 &&
        (tget {} u.prf.bw 9).cnt == 6] = true := by decide +kernel

theorem test_reset_registers :
    all [State.reset.regRead 0x404 == 0x6403, State.reset.regRead 0x800 == 0x80000000, State.reset.regRead 0x6004 == 0xFFFF0000,
      keyClass (pkey 63 255 1023) == 63, pkey 63 255 1023 == 2 ^ 24 - 1] = true := by decide +kernel

/-! ## The static checks -/

def long : List Byte := List.replicate 2001 0

theorem test_frames_wellformed :
    all [!Instr.wf (.staticFrameReceived 0 long 0 false), !Instr.wf (.dynamicUplinkReceived 0 long 0 false), !Instr.wf (.dlyTrimReceived 0 long 0),
      !Instr.wf (.foreignCsm 0 long ⟨0, false⟩), !Instr.wf (.csmReceived 0 long ⟨0, false⟩), !Instr.wf (.commandBlockReceived 0 long 0),
      !Instr.wf (.keeperFrameReceived 0 long 0), !Instr.wf (.processDataReceived 0 long 0), !Instr.wf (.heartbeatReceived long 0),
      !Instr.wf (.returnReceived long 0), !Instr.wf (.parameterRecordReceived long 0), !Instr.wf (.safetyPduReceived 0 long 0),
      Instr.wf (.heartbeatReceived (long.drop 1) 0), !Instr.wf (.firnSegmentReceived { sgOk with bytes := long } 0),
      Instr.wf (.firnSegmentReceived sgOk 0)] = true := by decide +kernel

theorem test_kernels_wellformed :
    all [!Instr.wf (.criticalKernelComplete 0 9 8 7), !Instr.wf (.trailingKernelComplete 0 9 5 10), !Instr.wf (.zoneKernelComplete 0 9 8 7),
      !Instr.wf (.zoneTrailingKernelComplete 0 9 8 7), Instr.wf (.criticalKernelComplete 0 9 8 9), !Instr.wf (.threadBlock 0 1 (2 ^ 24) 0),
      Instr.wf (.threadBlock 0 1 (2 ^ 24 - 1) 0), !Instr.wf (.ssiDelivery 0 (2 ^ 32) false)] = true := by decide +kernel

theorem test_measurements_wellformed :
    all [!Instr.wf (.safetyTick [0, 0, 0, 0, 0, 0]), !Instr.wf (.tickExchange true [0, 0, 0, 0, 65536, 100000]), !Instr.wf (.offTestWindowEnd 0 false ⟨65536, 0⟩),
      !Instr.wf (.housekeepingCycle 0 [none]), !Instr.wf (.fieldInputChange 0 true 0), !Instr.wf (.diagClassify 0 65536),
      !Instr.wf (.resetRelease true 0 65536), !Instr.wf (.droopDetect 770), !Instr.wf (.droopClear 769), !Instr.wf (.calvingStageEntry 0 65536),
      !Instr.wf (.calvingStage4 65536), !Instr.wf (.calvingStageExit 0 65536), !Instr.wf (.vcoreFault 65536), Instr.wf (.vcoreFault 65535)]
      = true := by decide +kernel

theorem test_accesses_wellformed :
    all [!Instr.wf (.captureApertureWrite (2 ^ 25) 0), !Instr.wf (.captureApertureWrite 2 0), !Instr.wf (.bar0UnsupportedAccess 8 4),
      !Instr.wf (.mailboxBufferWrite 0x40000 0), !Instr.wf (.outputWindowWrite 0x8000 0), !Instr.wf (.registerWrite 0x10000 0),
      !Instr.wf (.registerWrite 1 0), Instr.wf (.registerWrite 0xFFFC 0), !Instr.wf (.pcieLinkUp 0 1),
      !Instr.wf (.pcieLinkUp 1 3), Instr.wf (.pcieLinkUp 3 2)] = true := by decide +kernel

end Sys2Proof.Machine.Tests
end

section
/-! The parameter key of R403: its fields as arithmetic and as bit slices of its word. -/

namespace Sys2Proof.Machine

section Fields
variable {c i n : Nat}

theorem pkey_lt (hc : c < 2 ^ 6) (hi : i < 2 ^ 8) (hn : n < 2 ^ 10) : pkey c i n < 2 ^ 24 := by
  unfold pkey
  omega

theorem keyClass_pkey (hi : i < 2 ^ 8) (hn : n < 2 ^ 10) : keyClass (pkey c i n) = c := by
  unfold keyClass pkey
  omega

theorem keyInst_pkey (hi : i < 2 ^ 8) (hn : n < 2 ^ 10) : keyInst (pkey c i n) = i := by
  unfold keyInst pkey
  omega

theorem keyItem_pkey (hn : n < 2 ^ 10) : keyItem (pkey c i n) = n := by
  unfold keyItem pkey
  omega

end Fields

section Slices
variable {k : Nat}

/-- A slice of the word of a 24-bit number is the number shifted down, cut to the slice's width. -/
theorem extractLsb_word_of_lt (hk : k < 2 ^ 24) (hi lo : Nat) :
    (BitVec.ofNat 32 k).extractLsb hi lo = BitVec.ofNat (hi - lo + 1) (k / 2 ^ lo) := by
  have hword : k % 2 ^ 32 = k := Nat.mod_eq_of_lt (by omega)
  rw [BitVec.extractLsb_ofNat, hword, Nat.shiftRight_eq_div_pow]

theorem extractLsb_31_24_word_of_lt (hk : k < 2 ^ 24) : (BitVec.ofNat 32 k).extractLsb 31 24 = 0 := by
  rw [extractLsb_word_of_lt hk, Nat.div_eq_of_lt hk]
  rfl

theorem extractLsb_23_18_word_eq_keyClass (hk : k < 2 ^ 24) :
    (BitVec.ofNat 32 k).extractLsb 23 18 = BitVec.ofNat 6 (keyClass k) :=
  extractLsb_word_of_lt hk 23 18

theorem extractLsb_17_10_word_eq_keyInst (hk : k < 2 ^ 24) :
    (BitVec.ofNat 32 k).extractLsb 17 10 = BitVec.ofNat 8 (keyInst k) := by
  rw [extractLsb_word_of_lt hk]
  exact BitVec.eq_of_toNat_eq (by simp [keyInst])

theorem extractLsb_9_0_word_eq_keyItem (hk : k < 2 ^ 24) :
    (BitVec.ofNat 32 k).extractLsb 9 0 = BitVec.ofNat 10 (keyItem k) := by
  rw [extractLsb_word_of_lt hk]
  exact BitVec.eq_of_toNat_eq (by simp [keyItem])

end Slices

/-- Settles O57: a key of fields within their widths is below 2 ^ 24, so each bit slice of its word is the model's own accessor
of the key, and each accessor gives back its field. -/
theorem parameterKeysHoldTheirFields : Obligations.ParameterKeysHoldTheirFields := by
  unfold Obligations.ParameterKeysHoldTheirFields
  refine ⟨fun c i n hc hi hn => ?_, rfl, rfl⟩
  have hk := pkey_lt hc hi hn
  have hclass : keyClass (pkey c i n) = c := keyClass_pkey hi hn
  have hinst : keyInst (pkey c i n) = i := keyInst_pkey hi hn
  have hitem : keyItem (pkey c i n) = n := keyItem_pkey hn
  refine ⟨hclass, hinst, hitem, hk, extractLsb_31_24_word_of_lt hk, ?_, ?_, ?_⟩
  · rw [extractLsb_23_18_word_eq_keyClass hk, hclass]
  · rw [extractLsb_17_10_word_eq_keyInst hk, hinst]
  · rw [extractLsb_9_0_word_eq_keyItem hk, hitem]

end Sys2Proof.Machine
end

section
/-! Every command at once: what it leaves unchanged, and what of the state every step keeps. Each statement over all commands is put
together from the laws of the single commands. -/

namespace Sys2Proof.Machine

/-! ## What a command changes, and what a step does to the queue -/

/-- A command answers a next state that differs in its write set only. -/
theorem exec_only (i : Instr) (s : State) : Answers (writes i) s (exec i s) := by
  cases i with
  | frameTick => exact execFrameTick_only ..
  | lsyncFall => exact execLsyncFall_only ..
  | tickTakesEffect => exact execTickTakesEffect_only ..
  | sampleInstant => exact execSampleInstant_only ..
  | applyInstant => exact execApplyInstant_only ..
  | lnFeedbackValid => exact execLnFeedbackValid_only ..
  | slotDeadline b p => exact execSlotDeadline_only ..
  | staticFrameReceived b bytes t err => exact execStaticFrameReceived_only ..
  | slotEvent b p => exact execSlotEvent_only ..
  | kernelDispatch => exact execKernelDispatch_only ..
  | criticalKernelComplete ii t opnd comp => exact execCriticalKernelComplete_only ..
  | trailingKernelComplete ii t opnd comp => exact execTrailingKernelComplete_only ..
  | zoneKernelComplete z t opnd comp => exact execZoneKernelComplete_only ..
  | zoneTrailingKernelComplete z t opnd comp => exact execZoneTrailingKernelComplete_only ..
  | commandBlockDeadline b => exact execCommandBlockDeadline_only ..
  | overrunSeries => exact execOverrunSeries_only ..
  | lnKernelDeadline => exact execLnKernelDeadline_only ..
  | commandBlockStart b => exact execCommandBlockStart_only ..
  | u0TrailingSkip => exact execU0TrailingSkip_only ..
  | fwDeadline fp => exact execFwDeadline_only ..
  | lsyncInEdge x => exact execLsyncInEdge_only ..
  | lsyncInLoss => exact execLsyncInLoss_only ..
  | slotOutcomeFinal b => exact execSlotOutcomeFinal_only ..
  | dynamicUplinkReceived b bytes t err => exact execDynamicUplinkReceived_only ..
  | dynamicDownlinkFrame b => exact execDynamicDownlinkFrame_only ..
  | linkDown port x => exact execLinkDown_only ..
  | nodeLost b p => exact execNodeLost_only ..
  | dlyTrimAverage b p => exact execDlyTrimAverage_only ..
  | dlyTrimReceived b bytes t => exact execDlyTrimReceived_only ..
  | coldstartStart => exact execColdstartStart_only ..
  | listenWindowExpiry => exact execListenWindowExpiry_only ..
  | foreignCsm b bytes x => exact execForeignCsm_only ..
  | csmReceived b bytes x => exact execCsmReceived_only ..
  | csmWindowClose b => exact execCsmWindowClose_only ..
  | orientationDecision => exact execOrientationDecision_only ..
  | commandBlockReceived b bytes t => exact execCommandBlockReceived_only ..
  | keeperFrameReceived b bytes t => exact execKeeperFrameReceived_only ..
  | nodeStaticTransmit => exact execNodeStaticTransmit_only ..
  | nodeDynamicTransmit slot => exact execNodeDynamicTransmit_only ..
  | fence b => exact execFence_only b s
  | processDataReceived b bytes t => exact execProcessDataReceived_only ..
  | nroleKeeperExpiry => exact execNroleKeeperExpiry_only ..
  | firmwareRelease x => exact execFirmwareRelease_only ..
  | firmwareSignal d => exact execFirmwareSignal_only ..
  | delayExpiry d => exact execDelayExpiry_only ..
  | timeoutExpiry d => exact execTimeoutExpiry_only ..
  | threadPreempt fp => exact execThreadPreempt_only ..
  | threadComplete fp t => exact execThreadComplete_only ..
  | threadBlock fp base delay t => exact execThreadBlock_only ..
  | threadYield fp => exact execThreadYield_only ..
  | inpos ii => exact execInpos_only ..
  | satTime ii c => exact execSatTime_only ..
  | fbLost ii => exact execFbLost_only ..
  | fbFrozen ii => exact execFbFrozen_only ..
  | estExpired ii => exact execEstExpired_only ..
  | webBreak z => exact execWebBreak_only ..
  | lcInvalid z => exact execLcInvalid_only ..
  | stepPulse c => exact execStepPulse_only ..
  | dirChange c => exact execDirChange_only ..
  | crefIdleExpiry c => exact execCrefIdleExpiry_only ..
  | crefRampComplete c => exact execCrefRampComplete_only ..
  | stall ii => exact execStall_only ..
  | homeFlagExpiry ii => exact execHomeFlagExpiry_only ..
  | encEdge e a b l => exact execEncEdge_only ..
  | enczEdge e z l => exact execEnczEdge_only ..
  | ssiDelivery e frame late => exact execSsiDelivery_only ..
  | encDev ii => exact execEncDev_only ..
  | heartbeatReceived bytes t => exact execHeartbeatReceived_only ..
  | heartbeatWindowClose => exact execHeartbeatWindowClose_only ..
  | takeoverStart => exact execTakeoverStart_only ..
  | imageLoadComplete t => exact execImageLoadComplete_only ..
  | restartFrame => exact execRestartFrame_only ..
  | snapshot => exact execSnapshot_only ..
  | firnSegmentSend => exact execFirnSegmentSend_only ..
  | firnSegmentReceived seg t => exact execFirnSegmentReceived_only ..
  | returnSend => exact execReturnSend_only ..
  | returnReceived bytes t => exact execReturnReceived_only ..
  | parameterRecordReceived bytes t => exact execParameterRecordReceived_only ..
  | firnReturnTimeout => exact execFirnReturnTimeout_only ..
  | goldenVectorTest pass => exact execGoldenVectorTest_only ..
  | sramScrubPass ok => exact execSramScrubPass_only ..
  | loopbackTest b ok => exact execLoopbackTest_only ..
  | shadowComputation => exact execShadowComputation_only ..
  | yieldSilence => exact execYieldSilence_only ..
  | handoverStart => exact execHandoverStart_only ..
  | yieldTimeout => exact execYieldTimeout_only ..
  | safetyTick rb => exact execSafetyTick_only ..
  | tickExchange ok rb => exact execTickExchange_only ..
  | safetyInputSample a b => exact execSafetyInputSample_only ..
  | filteredDemandChange p => exact execFilteredDemandChange_only ..
  | discrepancyFault p => exact execDiscrepancyFault_only ..
  | testPulseStart k => exact execTestPulseStart_only ..
  | testPulseWindowEnd k => exact execTestPulseWindowEnd_only ..
  | safetyCycleEnd => exact execSafetyCycleEnd_only ..
  | diagnosisEnd a b => exact execDiagnosisEnd_only ..
  | outputFault o => exact execOutputFault_only ..
  | outputOffTest o low => exact execOutputOffTest_only ..
  | offTestWindowEnd o low r => exact execOffTestWindowEnd_only ..
  | switchLimitExpiry o low => exact execSwitchLimitExpiry_only ..
  | ss1TimeExpiry g => exact execSs1TimeExpiry_only ..
  | ss1TmaxExpiry g => exact execSs1TmaxExpiry_only ..
  | slsViolation g => exact execSlsViolation_only ..
  | sbcDelayExpiry g => exact execSbcDelayExpiry_only ..
  | degradedWindowExpiry => exact execDegradedWindowExpiry_only ..
  | pduRelease c => exact execPduRelease_only ..
  | safetyPduReceived c bytes t => exact execSafetyPduReceived_only ..
  | safetyWatchdogExpiry c chB => exact execSafetyWatchdogExpiry_only ..
  | safetySetCheck => exact execSafetySetCheck_only ..
  | safeConfirmTimeout => exact execSafeConfirmTimeout_only ..
  | safeLoadEraseComplete => exact execSafeLoadEraseComplete_only ..
  | housekeepingCycle down ret => exact execHousekeepingCycle_only ..
  | housekeepingLost d => exact execHousekeepingLost_only ..
  | fieldInputChange c level run => exact execFieldInputChange_only ..
  | quiesceComplete c => exact execQuiesceComplete_only ..
  | couplerReversalComplete c => exact execCouplerReversalComplete_only ..
  | overcur c acts => exact execOvercur_only ..
  | thermalShutdown c t => exact execThermalShutdown_only ..
  | thermalRetry c tj t => exact execThermalRetry_only ..
  | reverseShutdown c => exact execReverseShutdown_only ..
  | reverseReclose c => exact execReverseReclose_only ..
  | diagClassify c mv => exact execDiagClassify_only ..
  | logicSilenceExpiry d => exact execLogicSilenceExpiry_only ..
  | vfldThresholdCross d k => exact execVfldThresholdCross_only ..
  | vfldThresholdClear d k => exact execVfldThresholdClear_only ..
  | offLatchRelease d => exact execOffLatchRelease_only ..
  | fieldDiePowerUp d => exact execFieldDiePowerUp_only ..
  | subTick => exact execSubTick_only ..
  | captureSample w t => exact execCaptureSample_only ..
  | autoTriggerExpiry => exact execAutoTriggerExpiry_only ..
  | rearmComplete t => exact execRearmComplete_only ..
  | stagingDrain => exact execStagingDrain_only ..
  | recordComplete => exact execRecordComplete_only ..
  | captureApertureWrite off v => exact execCaptureApertureWrite_only ..
  | bwWindowEnd m => exact execBwWindowEnd_only ..
  | inputImageComplete => exact execInputImageComplete_only ..
  | commitCopyComplete => exact execCommitCopyComplete_only ..
  | mailboxTimeout j => exact execMailboxTimeout_only ..
  | hostWatchdogExpiry => exact execHostWatchdogExpiry_only ..
  | eventRingWrite => exact execEventRingWrite_only ..
  | ledgerCheck => exact execLedgerCheck_only ..
  | faultLogCommit => exact execFaultLogCommit_only ..
  | faultLogCompact => exact execFaultLogCompact_only ..
  | flashWriteComplete => exact execFlashWriteComplete_only ..
  | bootStart => exact execBootStart_only ..
  | baseConfigStart => exact execBaseConfigStart_only ..
  | standbyRailsUp => exact execStandbyRailsUp_only ..
  | railSequenceStart => exact execRailSequenceStart_only ..
  | resetRelease hostsel boot vio => exact execResetRelease_only ..
  | startupChecksComplete why => exact execStartupChecksComplete_only ..
  | droopDetect mv => exact execDroopDetect_only ..
  | droopClear mv => exact execDroopClear_only ..
  | calvingStageEntry stage mv => exact execCalvingStageEntry_only ..
  | calvingStage4 mv => exact execCalvingStage4_only ..
  | calvingStageExit stage mv => exact execCalvingStageExit_only ..
  | dramSelfRefresh => exact execDramSelfRefresh_only ..
  | vioLow => exact execVioLow_only ..
  | powerOnReset => exact execPowerOnReset_only ..
  | brownout => exact execBrownout_only ..
  | resetPin => exact execResetPin_only ..
  | fwWatchdogExpiry => exact execFwWatchdogExpiry_only ..
  | vcoreFault mv => exact execVcoreFault_only ..
  | clockLoss clk => exact execClockLoss_only ..
  | coreDieReset => exact execCoreDieReset_only ..
  | pcieRefclkLoss => exact execPcieRefclkLoss_only ..
  | perstN => exact execPerstN_only ..
  | bar0UnsupportedAccess off bytes => exact execBar0UnsupportedAccess_only off bytes s
  | mailboxBufferWrite off v => exact execMailboxBufferWrite_only ..
  | outputWindowWrite off v => exact execOutputWindowWrite_only ..
  | mbxAlloc => exact execMbxAlloc_only ..
  | mbxDb m v => exact execMbxDb_only ..
  | mbxAns m => exact execMbxAns_only ..
  | mbxFree v => exact execMbxFree_only ..
  | mbxPicommit v => exact execMbxPicommit_only ..
  | mbxPoola => exact execMbxPoola_only ..
  | devAlive v => exact execDevAlive_only ..
  | evtIstat v => exact execEvtIstat_only ..
  | pwrRstreq v => exact execPwrRstreq_only ..
  | pwrVmain => exact execPwrVmain_only ..
  | pwrVcore => exact execPwrVcore_only ..
  | frmTimeLo => exact execFrmTimeLo_only ..
  | frmFcntLo => exact execFrmFcntLo_only ..
  | frmT0Lo => exact execFrmT0Lo_only ..
  | frmLsinLo => exact execFrmLsinLo_only ..
  | frmTurnmax => exact execFrmTurnmax_only ..
  | netOfsrange => exact execNetOfsrange_only ..
  | netHeadidLo => exact execNetHeadidLo_only ..
  | netPeeridLo => exact execNetPeeridLo_only ..
  | dspDescidx v => exact execDspDescidx_only ..
  | dspTrcctl v => exact execDspTrcctl_only ..
  | dspTrcd0 => exact execDspTrcd0_only ..
  | dspRdydep l => exact execDspRdydep_only ..
  | dspPreempt => exact execDspPreempt_only ..
  | redImgfcLo => exact execRedImgfcLo_only ..
  | redTkfcLo => exact execRedTkfcLo_only ..
  | redHbmiss => exact execRedHbmiss_only ..
  | capRecno => exact execCapRecno_only ..
  | capCrevsmpLo => exact execCapCrevsmpLo_only ..
  | capDeadmax => exact execCapDeadmax_only ..
  | capStage => exact execCapStage_only ..
  | prfCycLo => exact execPrfCycLo_only ..
  | prfCntLo k => exact execPrfCntLo_only ..
  | prfSetcmd v => exact execPrfSetcmd_only ..
  | prfCtrl v => exact execPrfCtrl_only ..
  | prfCfg k v => exact execPrfCfg_only ..
  | prfBwMinmax m hi => exact execPrfBwMinmax_only ..
  | prfTagctl v => exact execPrfTagctl_only ..
  | prfTagd0 => exact execPrfTagd0_only ..
  | lgrSel v => exact execLgrSel_only ..
  | registerWrite off v => exact execRegisterWrite_only ..
  | echo => exact execEcho_only ..
  | devInfo => exact execDevInfo_only ..
  | paramRead => exact execParamRead_only ..
  | paramWrite => exact execParamWrite_only ..
  | paramInfo => exact execParamInfo_only ..
  | badOpcode => exact execBadOpcode_only ..
  | enable => exact execEnable_only ..
  | close => exact execClose_only ..
  | openLoop => exact execOpenLoop_only ..
  | freeze => exact execFreeze_only ..
  | disable => exact execDisable_only ..
  | ack => exact execAck_only ..
  | stop => exact execStop_only ..
  | home => exact execHome_only ..
  | diaSet => exact execDiaSet_only ..
  | camStart => exact execCamStart_only ..
  | camSelect => exact execCamSelect_only ..
  | grpClrderate => exact execGrpClrderate_only ..
  | yield => exact execYield_only ..
  | camWrite => exact execCamWrite_only ..
  | camLoad => exact execCamLoad_only ..
  | ovlApply => exact execOvlApply_only ..
  | cfgWrite => exact execCfgWrite_only ..
  | cfgActivate => exact execCfgActivate_only ..
  | firmwareActivate => exact execFirmwareActivate_only ..
  | keyProvision => exact execKeyProvision_only ..
  | lifecycle => exact execLifecycle_only ..
  | safeReset => exact execSafeReset_only ..
  | safeClear => exact execSafeClear_only ..
  | safeLoad => exact execSafeLoad_only ..
  | safeConfirm => exact execSafeConfirm_only ..
  | fioQuiesce => exact execFioQuiesce_only ..
  | fioResume => exact execFioResume_only ..
  | fioRearm => exact execFioRearm_only ..
  | captStart => exact execCaptStart_only ..
  | captStop => exact execCaptStop_only ..
  | captForce => exact execCaptForce_only ..
  | matrixRead => exact execMatrixRead_only ..
  | flogRead => exact execFlogRead_only ..
  | linkUp port sync t => exact execLinkUp_only ..
  | pcieLinkUp speed width => exact execPcieLinkUp_only ..
  | safetyChannelFault chB f => exact execSafetyChannelFault_only ..
  | counterOverflow k => exact execCounterOverflow_only ..
  | vioRestored => exact execVioRestored_only ..

/-- No command writes the queue. -/
theorem writes_not_pending (i : Instr) : (writes i).contains Part.pending = false := by
  cases i <;> rfl

/-- A part outside a command's write set is as it was. -/
theorem exec_keeps_part {i : Instr} {s t : State} (h : exec i s = .next t) {p : Part} (hp : (writes i).contains p = false) :
    p.same s t := by
  obtain ⟨u, hu, ho⟩ := (exec_only i s).out
  obtain rfl : u = t := by simpa using hu.symm.trans h
  exact ho.out p hp

theorem step_of_pending_nil {s : State} (h : s.pending = []) : step s = .next s.idleCycle := by
  simp only [step, h]

theorem step_of_pending_cons {s : State} {i : Instr} {rest : List Instr} (h : s.pending = i :: rest) :
    step s = exec i { s with pending := rest } := by
  simp only [step, h]

/-- Settles O3: each command by its own law, each step by the command it runs or by the idle cycle's. -/
theorem stepsKeepToTheirWriteSets : Obligations.StepsKeepToTheirWriteSets := by
  unfold Obligations.StepsKeepToTheirWriteSets
  have hexec : CommandsKeepToTheirWriteSets := fun i s => by
    obtain ⟨t, ht, ho⟩ := (exec_only i s).out
    exact ⟨t, ht, ho, ho.out .pending (writes_not_pending i)⟩
  refine ⟨hexec, fun s => ?_⟩
  cases hp : s.pending with
  | nil =>
    rw [step_of_pending_nil hp]
    exact ⟨_, rfl, by rw [(State.idleCycle_only s).out .pending rfl, hp]; rfl⟩
  | cons i rest =>
    obtain ⟨t, ht, -, hq⟩ := hexec i { s with pending := rest }
    rw [step_of_pending_cons hp]
    exact ⟨t, ht, hq⟩

/-- What the idle cycle and every command keep, every step keeps; the queue has no part in it. -/
theorem step_keeps {R : State → State → Prop} (hidle : ∀ s : State, R s s.idleCycle)
    (hexec : ∀ (i : Instr) (s t : State), exec i s = .next t → R s t)
    (hqueue : ∀ (s t : State) (q : List Instr), R { s with pending := q } t → R s t) {s t : State} (h : step s = .next t) : R s t := by
  cases hp : s.pending with
  | nil =>
    rw [step_of_pending_nil hp] at h
    cases h
    exact hidle s
  | cons i rest =>
    rw [step_of_pending_cons hp] at h
    exact hqueue s t rest (hexec i _ t h)

/-! ## The lifecycle (R421) -/

/-! ### The three commands that need a word of their own -/

theorem execCoreDieReset_lcy (s : State) : AnswersLcy s (execCoreDieReset s) := by
  unfold execCoreDieReset
  refine .next ?_
  split
  · exact .refl s
  · exact .ite (.refl s) ⟨rfl, rfl⟩

/-- The request FP2 takes next is served by its operation on the state that has taken it, or nothing happens. -/
theorem State.serve_cases (s : State) (op : Nat) (f : State → Nat → Nat → State) :
    s.serve op f = s ∨ ∃ m j, s.serve op f = f (s.take m j true) m j := by
  unfold State.serve
  split
  · split
    · exact .inr ⟨_, _, rfl⟩
    · exact .inl rfl
  · exact .inl rfl

/-- LIFECYCLE asks for the next state at most, and for none above 3; the state itself waits for the reset. -/
theorem execLifecycle_forward (s : State) : ∃ t, execLifecycle s = .next t ∧ t.cfg.lcy = s.cfg.lcy ∧
    (t.cfg.lcyNext = s.cfg.lcyNext ∨ ∃ n, t.cfg.lcyNext = some n ∧ n = s.cfg.lcy + 1 ∧ n ≤ 3) := by
  refine ⟨_, rfl, ?_⟩
  rcases s.serve_cases 0x0044 _ with h | ⟨m, j, h⟩ <;> rw [h]
  · exact ⟨rfl, .inl rfl⟩
  · dsimp only
    split
    · simp
    · split
      · simp
      · rename_i hval
        obtain ⟨hnext, hle, -⟩ : _ ∧ _ ∧ _ := by simpa only [not_or, not_not] using hval
        split
        · simp
        · have hcfg : (s.take m j true).cfg = s.cfg := by simp
          rw [hcfg] at hnext
          refine ⟨?_, .inr ⟨_, rfl, hnext, Nat.le_of_not_lt hle⟩⟩
          simp [(State.wipe_lcy _).out.1, apply_ite State.cfg, apply_ite Cfg.lcy]

/-- The release from reset puts a requested lifecycle state in force, or leaves the lifecycle as it was. -/
theorem execResetRelease_lcy (h : Bool) (b : Fin 4) (v : Nat) (s : State) : ∃ t, execResetRelease h b v s = .next t ∧
    (LcySame s t ∨ t.cfg.lcy = s.cfg.lcyNext.getD s.cfg.lcy ∧ t.cfg.lcyNext = none) := by
  refine ⟨_, rfl, ?_⟩
  split
  · exact .inl (.refl s)
  · exact .inr ⟨rfl, rfl⟩


/-- The commands whose write set holds the configuration part leave the lifecycle as it was, but LIFECYCLE and the release from
reset. -/
theorem exec_lcy (i : Instr) (s : State) (hl : i ≠ .lifecycle) (hr : ∀ h b v, i ≠ .resetRelease h b v) :
    AnswersLcy s (exec i s) := by
  cases hw : (writes i).contains Part.cfg with
  | false =>
    obtain ⟨t, ht, ho⟩ := (exec_only i s).out
    exact ⟨t, ht, LcySame.only ho hw (LcySame.refl s)⟩
  | true =>
    cases i with
    | tickTakesEffect => exact execTickTakesEffect_lcy ..
    | foreignCsm b bytes x => exact execForeignCsm_lcy ..
    | yieldSilence => exact execYieldSilence_lcy ..
    | safeLoadEraseComplete => exact execSafeLoadEraseComplete_lcy ..
    | mailboxTimeout j => exact execMailboxTimeout_lcy ..
    | flashWriteComplete => exact execFlashWriteComplete_lcy ..
    | bootStart => exact execBootStart_lcy ..
    | baseConfigStart => exact execBaseConfigStart_lcy ..
    | cfgWrite => exact execCfgWrite_lcy ..
    | cfgActivate => exact execCfgActivate_lcy ..
    | firmwareActivate => exact execFirmwareActivate_lcy ..
    | keyProvision => exact execKeyProvision_lcy ..
    | safeLoad => exact execSafeLoad_lcy ..
    | safeConfirm => exact execSafeConfirm_lcy ..
    | coreDieReset => exact execCoreDieReset_lcy s
    | lifecycle => exact absurd rfl hl
    | resetRelease h b v => exact absurd rfl (hr h b v)
    | _ => exact absurd hw Bool.false_ne_true

/-! ### The invariant of R421 -/

theorem lifecycleForward_of_lcySame {s t : State} (h : LifecycleForward s) (g : LcySame s t) :
    LifecycleForward t ∧ (t.cfg.lcy = s.cfg.lcy ∨ t.cfg.lcy = s.cfg.lcy + 1) := by
  obtain ⟨hlcy, hnext⟩ := g.out
  unfold LifecycleForward at *
  rw [hlcy, hnext]
  exact ⟨h, .inl rfl⟩

theorem execLifecycle_lifecycleForward {s t : State} (h : LifecycleForward s) (ht : execLifecycle s = .next t) :
    LifecycleForward t ∧ (t.cfg.lcy = s.cfg.lcy ∨ t.cfg.lcy = s.cfg.lcy + 1) := by
  obtain ⟨u, hu, hlcy, hnext⟩ := execLifecycle_forward s
  obtain rfl : u = t := by simpa using hu.symm.trans ht
  refine ⟨⟨hlcy ▸ h.1, fun n hn => ?_⟩, .inl hlcy⟩
  rw [hlcy]
  rcases hnext with hsame | ⟨k, hk, hstep, hle⟩
  · exact h.2 n (hsame ▸ hn)
  · obtain rfl : k = n := by simpa using hk.symm.trans hn
    exact ⟨hstep, hle⟩

theorem execResetRelease_lifecycleForward {s t : State} {b : Bool} {k : Fin 4} {v : Nat} (h : LifecycleForward s)
    (ht : execResetRelease b k v s = .next t) : LifecycleForward t ∧ (t.cfg.lcy = s.cfg.lcy ∨ t.cfg.lcy = s.cfg.lcy + 1) := by
  obtain ⟨u, hu, hcase⟩ := execResetRelease_lcy b k v s
  obtain rfl : u = t := by simpa using hu.symm.trans ht
  rcases hcase with hsame | ⟨hlcy, hnone⟩
  · exact lifecycleForward_of_lcySame h hsame
  · unfold LifecycleForward
    rw [hlcy, hnone]
    cases hn : s.cfg.lcyNext with
    | none => exact ⟨⟨h.1, by simp⟩, .inl rfl⟩
    | some n =>
      obtain ⟨hstep, hle⟩ := h.2 n hn
      exact ⟨⟨hle, by simp⟩, .inr hstep⟩

/-- Settles O5: only LIFECYCLE and the release from reset touch the lifecycle, the one asking for the state after the present one,
the other putting it in force. -/
theorem lifecycleMovesForwardOnly : Obligations.LifecycleMovesForwardOnly := by
  unfold Obligations.LifecycleMovesForwardOnly
  intro s t h hstep
  refine step_keeps (R := fun s t => LifecycleForward s →
    LifecycleForward t ∧ (t.cfg.lcy = s.cfg.lcy ∨ t.cfg.lcy = s.cfg.lcy + 1)) ?_ ?_ (fun _ _ _ => id) hstep h
  · exact fun s h => lifecycleForward_of_lcySame h (.only (State.idleCycle_only s) rfl (.refl s))
  · intro i s t ht h
    by_cases hl : i = .lifecycle
    · subst hl
      exact execLifecycle_lifecycleForward h ht
    by_cases hr : ∃ b k v, i = .resetRelease b k v
    · obtain ⟨b, k, v, rfl⟩ := hr
      exact execResetRelease_lifecycleForward h ht
    · obtain ⟨u, hu, hsame⟩ := (exec_lcy i s hl fun b k v e => hr ⟨b, k, v, e⟩).out
      obtain rfl : u = t := by simpa using hu.symm.trans ht
      exact lifecycleForward_of_lcySame h hsame

/-! ## The canonical form of memories and tables -/

theorem execCoreDieReset_flashOk (s : State) : AnswersFlashOk s (execCoreDieReset s) := by
  unfold execCoreDieReset
  refine .next ?_
  split
  · exact .refl s
  · exact .ite (.refl s) ⟨fun x => x⟩

theorem exec_flashOk (i : Instr) (s : State) : AnswersFlashOk s (exec i s) := by
  cases hw : (writes i).contains Part.cfg with
  | false =>
    obtain ⟨t, ht, ho⟩ := (exec_only i s).out
    exact ⟨t, ht, FlashOk.only ho hw (FlashOk.refl s)⟩
  | true =>
    cases i with
    | tickTakesEffect => exact execTickTakesEffect_flashOk ..
    | foreignCsm b bytes x => exact execForeignCsm_flashOk ..
    | yieldSilence => exact execYieldSilence_flashOk ..
    | safeLoadEraseComplete => exact execSafeLoadEraseComplete_flashOk ..
    | mailboxTimeout j => exact execMailboxTimeout_flashOk ..
    | flashWriteComplete => exact execFlashWriteComplete_flashOk ..
    | bootStart => exact execBootStart_flashOk ..
    | baseConfigStart => exact execBaseConfigStart_flashOk ..
    | resetRelease hostsel boot vio => exact execResetRelease_flashOk ..
    | cfgWrite => exact execCfgWrite_flashOk ..
    | cfgActivate => exact execCfgActivate_flashOk ..
    | firmwareActivate => exact execFirmwareActivate_flashOk ..
    | keyProvision => exact execKeyProvision_flashOk ..
    | lifecycle => exact execLifecycle_flashOk ..
    | safeLoad => exact execSafeLoad_flashOk ..
    | safeConfirm => exact execSafeConfirm_flashOk ..
    | coreDieReset => exact execCoreDieReset_flashOk s
    | _ => exact absurd hw Bool.false_ne_true

theorem execCoreDieReset_mbxOk (s : State) : AnswersMbxMemOk s (execCoreDieReset s) := by
  unfold execCoreDieReset
  refine .next ?_
  split
  · exact .refl s
  · exact .ite (.refl s) ⟨fun _ => rfl⟩

theorem exec_mbxOk (i : Instr) (s : State) : AnswersMbxMemOk s (exec i s) := by
  cases hw : (writes i).contains Part.host with
  | false =>
    obtain ⟨t, ht, ho⟩ := (exec_only i s).out
    exact ⟨t, ht, MbxMemOk.only ho hw (MbxMemOk.refl s)⟩
  | true =>
    cases i with
    | frameTick => exact execFrameTick_mbxOk ..
    | tickTakesEffect => exact execTickTakesEffect_mbxOk ..
    | foreignCsm b bytes x => exact execForeignCsm_mbxOk ..
    | takeoverStart => exact execTakeoverStart_mbxOk ..
    | yieldSilence => exact execYieldSilence_mbxOk ..
    | handoverStart => exact execHandoverStart_mbxOk ..
    | safeLoadEraseComplete => exact execSafeLoadEraseComplete_mbxOk ..
    | housekeepingCycle down ret => exact execHousekeepingCycle_mbxOk ..
    | captureApertureWrite off v => exact execCaptureApertureWrite_mbxOk ..
    | inputImageComplete => exact execInputImageComplete_mbxOk ..
    | commitCopyComplete => exact execCommitCopyComplete_mbxOk ..
    | mailboxTimeout j => exact execMailboxTimeout_mbxOk ..
    | hostWatchdogExpiry => exact execHostWatchdogExpiry_mbxOk ..
    | flashWriteComplete => exact execFlashWriteComplete_mbxOk ..
    | baseConfigStart => exact execBaseConfigStart_mbxOk ..
    | resetRelease hostsel boot vio => exact execResetRelease_mbxOk ..
    | pcieRefclkLoss => exact execPcieRefclkLoss_mbxOk ..
    | perstN => exact execPerstN_mbxOk ..
    | bar0UnsupportedAccess off bytes => exact execBar0UnsupportedAccess_mbxOk off bytes s
    | mailboxBufferWrite off v => exact execMailboxBufferWrite_mbxOk ..
    | outputWindowWrite off v => exact execOutputWindowWrite_mbxOk ..
    | mbxAlloc => exact execMbxAlloc_mbxOk ..
    | mbxDb m v => exact execMbxDb_mbxOk ..
    | mbxAns m => exact execMbxAns_mbxOk ..
    | mbxFree v => exact execMbxFree_mbxOk ..
    | mbxPicommit v => exact execMbxPicommit_mbxOk ..
    | mbxPoola => exact execMbxPoola_mbxOk ..
    | devAlive v => exact execDevAlive_mbxOk ..
    | evtIstat v => exact execEvtIstat_mbxOk ..
    | pwrRstreq v => exact execPwrRstreq_mbxOk ..
    | pwrVmain => exact execPwrVmain_mbxOk ..
    | pwrVcore => exact execPwrVcore_mbxOk ..
    | frmTimeLo => exact execFrmTimeLo_mbxOk ..
    | frmFcntLo => exact execFrmFcntLo_mbxOk ..
    | frmT0Lo => exact execFrmT0Lo_mbxOk ..
    | frmLsinLo => exact execFrmLsinLo_mbxOk ..
    | frmTurnmax => exact execFrmTurnmax_mbxOk ..
    | netOfsrange => exact execNetOfsrange_mbxOk ..
    | netHeadidLo => exact execNetHeadidLo_mbxOk ..
    | netPeeridLo => exact execNetPeeridLo_mbxOk ..
    | dspDescidx v => exact execDspDescidx_mbxOk ..
    | dspTrcctl v => exact execDspTrcctl_mbxOk ..
    | dspTrcd0 => exact execDspTrcd0_mbxOk ..
    | dspRdydep l => exact execDspRdydep_mbxOk ..
    | dspPreempt => exact execDspPreempt_mbxOk ..
    | redImgfcLo => exact execRedImgfcLo_mbxOk ..
    | redTkfcLo => exact execRedTkfcLo_mbxOk ..
    | redHbmiss => exact execRedHbmiss_mbxOk ..
    | capRecno => exact execCapRecno_mbxOk ..
    | capCrevsmpLo => exact execCapCrevsmpLo_mbxOk ..
    | capDeadmax => exact execCapDeadmax_mbxOk ..
    | capStage => exact execCapStage_mbxOk ..
    | prfCycLo => exact execPrfCycLo_mbxOk ..
    | prfCntLo k => exact execPrfCntLo_mbxOk ..
    | prfSetcmd v => exact execPrfSetcmd_mbxOk ..
    | prfCtrl v => exact execPrfCtrl_mbxOk ..
    | prfCfg k v => exact execPrfCfg_mbxOk ..
    | prfBwMinmax m hi => exact execPrfBwMinmax_mbxOk ..
    | prfTagctl v => exact execPrfTagctl_mbxOk ..
    | prfTagd0 => exact execPrfTagd0_mbxOk ..
    | lgrSel v => exact execLgrSel_mbxOk ..
    | registerWrite off v => exact execRegisterWrite_mbxOk ..
    | echo => exact execEcho_mbxOk ..
    | devInfo => exact execDevInfo_mbxOk ..
    | paramRead => exact execParamRead_mbxOk ..
    | paramWrite => exact execParamWrite_mbxOk ..
    | paramInfo => exact execParamInfo_mbxOk ..
    | badOpcode => exact execBadOpcode_mbxOk ..
    | enable => exact execEnable_mbxOk ..
    | close => exact execClose_mbxOk ..
    | openLoop => exact execOpenLoop_mbxOk ..
    | freeze => exact execFreeze_mbxOk ..
    | disable => exact execDisable_mbxOk ..
    | ack => exact execAck_mbxOk ..
    | stop => exact execStop_mbxOk ..
    | home => exact execHome_mbxOk ..
    | diaSet => exact execDiaSet_mbxOk ..
    | camStart => exact execCamStart_mbxOk ..
    | camSelect => exact execCamSelect_mbxOk ..
    | grpClrderate => exact execGrpClrderate_mbxOk ..
    | yield => exact execYield_mbxOk ..
    | camWrite => exact execCamWrite_mbxOk ..
    | camLoad => exact execCamLoad_mbxOk ..
    | ovlApply => exact execOvlApply_mbxOk ..
    | cfgWrite => exact execCfgWrite_mbxOk ..
    | cfgActivate => exact execCfgActivate_mbxOk ..
    | firmwareActivate => exact execFirmwareActivate_mbxOk ..
    | keyProvision => exact execKeyProvision_mbxOk ..
    | lifecycle => exact execLifecycle_mbxOk ..
    | safeReset => exact execSafeReset_mbxOk ..
    | safeClear => exact execSafeClear_mbxOk ..
    | safeLoad => exact execSafeLoad_mbxOk ..
    | safeConfirm => exact execSafeConfirm_mbxOk ..
    | fioQuiesce => exact execFioQuiesce_mbxOk ..
    | fioResume => exact execFioResume_mbxOk ..
    | fioRearm => exact execFioRearm_mbxOk ..
    | captStart => exact execCaptStart_mbxOk ..
    | captStop => exact execCaptStop_mbxOk ..
    | captForce => exact execCaptForce_mbxOk ..
    | matrixRead => exact execMatrixRead_mbxOk ..
    | flogRead => exact execFlogRead_mbxOk ..
    | pcieLinkUp speed width => exact execPcieLinkUp_mbxOk ..
    | coreDieReset => exact execCoreDieReset_mbxOk s
    | _ => exact absurd hw Bool.false_ne_true

theorem execCoreDieReset_axesOk (s : State) : AnswersAxesOk s (execCoreDieReset s) := by
  unfold execCoreDieReset
  refine .next ?_
  split
  · exact .refl s
  · exact .ite (.refl s) ⟨fun _ => rfl⟩

theorem exec_axesOk (i : Instr) (s : State) : AnswersAxesOk s (exec i s) := by
  cases hw : (writes i).contains Part.axes with
  | false =>
    obtain ⟨t, ht, ho⟩ := (exec_only i s).out
    exact ⟨t, ht, AxesOk.only ho hw (AxesOk.refl s)⟩
  | true =>
    cases i with
    | tickTakesEffect => exact execTickTakesEffect_axesOk ..
    | applyInstant => exact execApplyInstant_axesOk ..
    | criticalKernelComplete ii t opnd comp => exact execCriticalKernelComplete_axesOk ..
    | trailingKernelComplete ii t opnd comp => exact execTrailingKernelComplete_axesOk ..
    | zoneTrailingKernelComplete z t opnd comp => exact execZoneTrailingKernelComplete_axesOk ..
    | commandBlockDeadline b => exact execCommandBlockDeadline_axesOk ..
    | lnKernelDeadline => exact execLnKernelDeadline_axesOk ..
    | u0TrailingSkip => exact execU0TrailingSkip_axesOk ..
    | foreignCsm b bytes x => exact execForeignCsm_axesOk ..
    | threadComplete fp t => exact execThreadComplete_axesOk ..
    | inpos ii => exact execInpos_axesOk ..
    | satTime ii c => exact execSatTime_axesOk ..
    | fbLost ii => exact execFbLost_axesOk ..
    | fbFrozen ii => exact execFbFrozen_axesOk ..
    | estExpired ii => exact execEstExpired_axesOk ..
    | stall ii => exact execStall_axesOk ..
    | homeFlagExpiry ii => exact execHomeFlagExpiry_axesOk ..
    | encDev ii => exact execEncDev_axesOk ..
    | restartFrame => exact execRestartFrame_axesOk ..
    | yieldSilence => exact execYieldSilence_axesOk ..
    | baseConfigStart => exact execBaseConfigStart_axesOk ..
    | cfgActivate => exact execCfgActivate_axesOk ..
    | coreDieReset => exact execCoreDieReset_axesOk s
    | _ => exact absurd hw Bool.false_ne_true

theorem execCoreDieReset_zonesOk (s : State) : AnswersZonesOk s (execCoreDieReset s) := by
  unfold execCoreDieReset
  refine .next ?_
  split
  · exact .refl s
  · exact .ite (.refl s) ⟨fun _ => rfl⟩

theorem exec_zonesOk (i : Instr) (s : State) : AnswersZonesOk s (exec i s) := by
  cases hw : (writes i).contains Part.zones with
  | false =>
    obtain ⟨t, ht, ho⟩ := (exec_only i s).out
    exact ⟨t, ht, ZonesOk.only ho hw (ZonesOk.refl s)⟩
  | true =>
    cases i with
    | tickTakesEffect => exact execTickTakesEffect_zonesOk ..
    | zoneKernelComplete z t opnd comp => exact execZoneKernelComplete_zonesOk ..
    | zoneTrailingKernelComplete z t opnd comp => exact execZoneTrailingKernelComplete_zonesOk ..
    | commandBlockDeadline b => exact execCommandBlockDeadline_zonesOk ..
    | lnKernelDeadline => exact execLnKernelDeadline_zonesOk ..
    | u0TrailingSkip => exact execU0TrailingSkip_zonesOk ..
    | foreignCsm b bytes x => exact execForeignCsm_zonesOk ..
    | webBreak z => exact execWebBreak_zonesOk ..
    | lcInvalid z => exact execLcInvalid_zonesOk ..
    | restartFrame => exact execRestartFrame_zonesOk ..
    | parameterRecordReceived bytes t => exact execParameterRecordReceived_zonesOk ..
    | yieldSilence => exact execYieldSilence_zonesOk ..
    | baseConfigStart => exact execBaseConfigStart_zonesOk ..
    | cfgActivate => exact execCfgActivate_zonesOk ..
    | coreDieReset => exact execCoreDieReset_zonesOk s
    | _ => exact absurd hw Bool.false_ne_true

theorem execCoreDieReset_stepsOk (s : State) : AnswersStepsOk s (execCoreDieReset s) := by
  unfold execCoreDieReset
  refine .next ?_
  split
  · exact .refl s
  · exact .ite (.refl s) ⟨fun _ => rfl⟩

theorem exec_stepsOk (i : Instr) (s : State) : AnswersStepsOk s (exec i s) := by
  cases hw : (writes i).contains Part.steps with
  | false =>
    obtain ⟨t, ht, ho⟩ := (exec_only i s).out
    exact ⟨t, ht, StepsOk.only ho hw (StepsOk.refl s)⟩
  | true =>
    cases i with
    | sampleInstant => exact execSampleInstant_stepsOk ..
    | applyInstant => exact execApplyInstant_stepsOk ..
    | criticalKernelComplete ii t opnd comp => exact execCriticalKernelComplete_stepsOk ..
    | trailingKernelComplete ii t opnd comp => exact execTrailingKernelComplete_stepsOk ..
    | stepPulse c => exact execStepPulse_stepsOk ..
    | dirChange c => exact execDirChange_stepsOk ..
    | crefIdleExpiry c => exact execCrefIdleExpiry_stepsOk ..
    | crefRampComplete c => exact execCrefRampComplete_stepsOk ..
    | stall ii => exact execStall_stepsOk ..
    | homeFlagExpiry ii => exact execHomeFlagExpiry_stepsOk ..
    | baseConfigStart => exact execBaseConfigStart_stepsOk ..
    | coreDieReset => exact execCoreDieReset_stepsOk s
    | _ => exact absurd hw Bool.false_ne_true

theorem execCoreDieReset_encsOk (s : State) : AnswersEncsOk s (execCoreDieReset s) := by
  unfold execCoreDieReset
  refine .next ?_
  split
  · exact .refl s
  · exact .ite (.refl s) ⟨fun _ => rfl⟩

theorem exec_encsOk (i : Instr) (s : State) : AnswersEncsOk s (exec i s) := by
  cases hw : (writes i).contains Part.encs with
  | false =>
    obtain ⟨t, ht, ho⟩ := (exec_only i s).out
    exact ⟨t, ht, EncsOk.only ho hw (EncsOk.refl s)⟩
  | true =>
    cases i with
    | sampleInstant => exact execSampleInstant_encsOk ..
    | encEdge e a b l => exact execEncEdge_encsOk ..
    | enczEdge e z l => exact execEnczEdge_encsOk ..
    | ssiDelivery e frame late => exact execSsiDelivery_encsOk ..
    | baseConfigStart => exact execBaseConfigStart_encsOk ..
    | coreDieReset => exact execCoreDieReset_encsOk s
    | _ => exact absurd hw Bool.false_ne_true

/-- Settles O6: a command that does not write the part a memory or table stands in leaves it; each of the others keeps it in
canonical form by its own law. -/
theorem canonicalFormIsKept : Obligations.CanonicalFormIsKept := by
  unfold Obligations.CanonicalFormIsKept
  intro s t h hstep
  refine step_keeps (R := fun s t => Canonical s → Canonical t) ?_ ?_ (fun _ _ _ g h => g ⟨h.1, h.2, h.3, h.4, h.5, h.6⟩) hstep h
  · intro s h
    have ho := State.idleCycle_only s
    exact ⟨(MbxMemOk.only ho rfl (.refl s)).out h.mbx, (FlashOk.only ho rfl (.refl s)).out h.flash,
      (AxesOk.only ho rfl (.refl s)).out h.axes, (ZonesOk.only ho rfl (.refl s)).out h.zones,
      (StepsOk.only ho rfl (.refl s)).out h.steps, (EncsOk.only ho rfl (.refl s)).out h.encs⟩
  · intro i s t ht h
    have hout {P : State → Prop} (g : ∃ u, exec i s = .next u ∧ P u) : P t := by
      obtain ⟨u, hu, hP⟩ := g
      obtain rfl : u = t := by simpa using hu.symm.trans ht
      exact hP
    exact ⟨(hout (exec_mbxOk i s).out).out h.mbx, (hout (exec_flashOk i s).out).out h.flash,
      (hout (exec_axesOk i s).out).out h.axes, (hout (exec_zonesOk i s).out).out h.zones,
      (hout (exec_stepsOk i s).out).out h.steps, (hout (exec_encsOk i s).out).out h.encs⟩

end Sys2Proof.Machine
end

section
/-! Reading an entry of the state, or a parameter, after an operation that does not write the part it stands in: time that passes,
an event raised, an access of the host. -/

namespace Sys2Proof.Machine

/-- The parts that entries and parameters are read from. -/
def entryParts : List Part := [.axes, .zones, .steps, .encs, .cams, .net, .dsp, .saf, .fio, .params]

/-- An operation that writes no such part leaves every entry and parameter as it reads. -/
theorem Only.reads {w : List Part} {s t : State} (h : Only w s t) (hw : entryParts.all (fun p => !w.contains p) = true) :
    (∀ i, (t).axis i = s.axis i) ∧ (∀ i, (t).zone i = s.zone i) ∧ (∀ i, (t).step_ i = s.step_ i) ∧
    (∀ i, (t).enc i = s.enc i) ∧ (∀ i, (t).fch i = s.fch i) ∧ (∀ i, (t).die i = s.die i) ∧ (∀ i, (t).sout i = s.sout i) ∧
    (∀ i, (t).spair i = s.spair i) ∧ (∀ i, (t).sgrp i = s.sgrp i) ∧ (∀ i, (t).conn i = s.conn i) ∧
    (∀ i, (t).task i = s.task i) ∧ (∀ i, (t).branch i = s.branch i) ∧ (∀ i, (t).join i = s.join i) ∧
    (∀ i, (t).port i = s.port i) ∧ (∀ i, (t).portOf i = s.portOf i) ∧ (∀ b p, (t).node b p = s.node b p) ∧
    (∀ c i n, (t).par c i n = s.par c i n) ∧ (∀ c i n, (t).pn c i n = s.pn c i n) ∧ (∀ c i, (t).P c i = s.P c i) := by
  have hout : ∀ p ∈ entryParts, p.same s t := fun p hp => h.out p (by simpa using List.all_eq_true.mp hw p hp)
  have haxes : t.axes = s.axes := hout .axes (by decide)
  have hzones : t.zones = s.zones := hout .zones (by decide)
  have hsteps : t.steps = s.steps := hout .steps (by decide)
  have hencs : t.encs = s.encs := hout .encs (by decide)
  have hcams : t.cams = s.cams := hout .cams (by decide)
  have hnet : t.net = s.net := hout .net (by decide)
  have hdsp : t.dsp = s.dsp := hout .dsp (by decide)
  have hsaf : t.saf = s.saf := hout .saf (by decide)
  have hfio : t.fio = s.fio := hout .fio (by decide)
  have hparams : t.params = s.params := hout .params (by decide)
  have hpar : ∀ c i n, t.par c i n = s.par c i n := fun c i n => by simp only [State.par, hcams, hsaf, hparams]
  refine ⟨?_, ?_, ?_, ?_, ?_, ?_, ?_, ?_, ?_, ?_, ?_, ?_, ?_, ?_, ?_, ?_, hpar, ?_, ?_⟩ <;>
    simp [State.axis, State.zone, State.step_, State.enc, State.fch, State.die, State.sout, State.spair, State.sgrp, State.conn,
      State.task, State.branch, State.join, State.port, State.portOf, State.node, State.pn, State.P, funext_iff, haxes, hzones,
      hsteps, hencs, hnet, hdsp, hsaf, hfio, hpar]

@[simp] theorem State.goto_reads (s : State) (t : Nat) :
    (∀ i, (s.goto t).axis i = s.axis i) ∧ (∀ i, (s.goto t).zone i = s.zone i) ∧ (∀ i, (s.goto t).step_ i = s.step_ i) ∧
    (∀ i, (s.goto t).enc i = s.enc i) ∧ (∀ i, (s.goto t).fch i = s.fch i) ∧ (∀ i, (s.goto t).die i = s.die i) ∧
    (∀ i, (s.goto t).sout i = s.sout i) ∧ (∀ i, (s.goto t).spair i = s.spair i) ∧ (∀ i, (s.goto t).sgrp i = s.sgrp i) ∧
    (∀ i, (s.goto t).conn i = s.conn i) ∧ (∀ i, (s.goto t).task i = s.task i) ∧ (∀ i, (s.goto t).branch i = s.branch i) ∧
    (∀ i, (s.goto t).join i = s.join i) ∧ (∀ i, (s.goto t).port i = s.port i) ∧ (∀ i, (s.goto t).portOf i = s.portOf i) ∧
    (∀ b p, (s.goto t).node b p = s.node b p) ∧ (∀ c i n, (s.goto t).par c i n = s.par c i n) ∧
    (∀ c i n, (s.goto t).pn c i n = s.pn c i n) ∧ (∀ c i, (s.goto t).P c i = s.P c i) :=
  (State.goto_only s t).reads rfl

@[simp] theorem State.raise_reads (s : State) (code obj groups : Nat) (data : List Byte) :
    (∀ i, (s.raise code obj groups data).axis i = s.axis i) ∧ (∀ i, (s.raise code obj groups data).zone i = s.zone i) ∧
    (∀ i, (s.raise code obj groups data).step_ i = s.step_ i) ∧ (∀ i, (s.raise code obj groups data).enc i = s.enc i) ∧
    (∀ i, (s.raise code obj groups data).fch i = s.fch i) ∧ (∀ i, (s.raise code obj groups data).die i = s.die i) ∧
    (∀ i, (s.raise code obj groups data).sout i = s.sout i) ∧ (∀ i, (s.raise code obj groups data).spair i = s.spair i) ∧
    (∀ i, (s.raise code obj groups data).sgrp i = s.sgrp i) ∧ (∀ i, (s.raise code obj groups data).conn i = s.conn i) ∧
    (∀ i, (s.raise code obj groups data).task i = s.task i) ∧ (∀ i, (s.raise code obj groups data).branch i = s.branch i) ∧
    (∀ i, (s.raise code obj groups data).join i = s.join i) ∧ (∀ i, (s.raise code obj groups data).port i = s.port i) ∧
    (∀ i, (s.raise code obj groups data).portOf i = s.portOf i) ∧
    (∀ b p, (s.raise code obj groups data).node b p = s.node b p) ∧
    (∀ c i n, (s.raise code obj groups data).par c i n = s.par c i n) ∧
    (∀ c i n, (s.raise code obj groups data).pn c i n = s.pn c i n) ∧
    (∀ c i, (s.raise code obj groups data).P c i = s.P c i) :=
  (State.raise_only s code obj groups data).reads rfl

@[simp] theorem State.raiseOnce_reads (s : State) (code obj groups : Nat) (data : List Byte) :
    (∀ i, (s.raiseOnce code obj groups data).axis i = s.axis i) ∧
    (∀ i, (s.raiseOnce code obj groups data).zone i = s.zone i) ∧
    (∀ i, (s.raiseOnce code obj groups data).step_ i = s.step_ i) ∧
    (∀ i, (s.raiseOnce code obj groups data).enc i = s.enc i) ∧ (∀ i, (s.raiseOnce code obj groups data).fch i = s.fch i) ∧
    (∀ i, (s.raiseOnce code obj groups data).die i = s.die i) ∧
    (∀ i, (s.raiseOnce code obj groups data).sout i = s.sout i) ∧
    (∀ i, (s.raiseOnce code obj groups data).spair i = s.spair i) ∧
    (∀ i, (s.raiseOnce code obj groups data).sgrp i = s.sgrp i) ∧
    (∀ i, (s.raiseOnce code obj groups data).conn i = s.conn i) ∧
    (∀ i, (s.raiseOnce code obj groups data).task i = s.task i) ∧
    (∀ i, (s.raiseOnce code obj groups data).branch i = s.branch i) ∧
    (∀ i, (s.raiseOnce code obj groups data).join i = s.join i) ∧
    (∀ i, (s.raiseOnce code obj groups data).port i = s.port i) ∧
    (∀ i, (s.raiseOnce code obj groups data).portOf i = s.portOf i) ∧
    (∀ b p, (s.raiseOnce code obj groups data).node b p = s.node b p) ∧
    (∀ c i n, (s.raiseOnce code obj groups data).par c i n = s.par c i n) ∧
    (∀ c i n, (s.raiseOnce code obj groups data).pn c i n = s.pn c i n) ∧
    (∀ c i, (s.raiseOnce code obj groups data).P c i = s.P c i) :=
  (State.raiseOnce_only s code obj groups data).reads rfl

@[simp] theorem State.raiseDev_reads (s : State) (code : Nat) (data : List Byte) :
    (∀ i, (s.raiseDev code data).axis i = s.axis i) ∧ (∀ i, (s.raiseDev code data).zone i = s.zone i) ∧
    (∀ i, (s.raiseDev code data).step_ i = s.step_ i) ∧ (∀ i, (s.raiseDev code data).enc i = s.enc i) ∧
    (∀ i, (s.raiseDev code data).fch i = s.fch i) ∧ (∀ i, (s.raiseDev code data).die i = s.die i) ∧
    (∀ i, (s.raiseDev code data).sout i = s.sout i) ∧ (∀ i, (s.raiseDev code data).spair i = s.spair i) ∧
    (∀ i, (s.raiseDev code data).sgrp i = s.sgrp i) ∧ (∀ i, (s.raiseDev code data).conn i = s.conn i) ∧
    (∀ i, (s.raiseDev code data).task i = s.task i) ∧ (∀ i, (s.raiseDev code data).branch i = s.branch i) ∧
    (∀ i, (s.raiseDev code data).join i = s.join i) ∧ (∀ i, (s.raiseDev code data).port i = s.port i) ∧
    (∀ i, (s.raiseDev code data).portOf i = s.portOf i) ∧ (∀ b p, (s.raiseDev code data).node b p = s.node b p) ∧
    (∀ c i n, (s.raiseDev code data).par c i n = s.par c i n) ∧ (∀ c i n, (s.raiseDev code data).pn c i n = s.pn c i n) ∧
    (∀ c i, (s.raiseDev code data).P c i = s.P c i) :=
  (State.raiseDev_only s code data).reads rfl

@[simp] theorem State.raiseDevOnce_reads (s : State) (code : Nat) (data : List Byte) :
    (∀ i, (s.raiseDevOnce code data).axis i = s.axis i) ∧ (∀ i, (s.raiseDevOnce code data).zone i = s.zone i) ∧
    (∀ i, (s.raiseDevOnce code data).step_ i = s.step_ i) ∧ (∀ i, (s.raiseDevOnce code data).enc i = s.enc i) ∧
    (∀ i, (s.raiseDevOnce code data).fch i = s.fch i) ∧ (∀ i, (s.raiseDevOnce code data).die i = s.die i) ∧
    (∀ i, (s.raiseDevOnce code data).sout i = s.sout i) ∧ (∀ i, (s.raiseDevOnce code data).spair i = s.spair i) ∧
    (∀ i, (s.raiseDevOnce code data).sgrp i = s.sgrp i) ∧ (∀ i, (s.raiseDevOnce code data).conn i = s.conn i) ∧
    (∀ i, (s.raiseDevOnce code data).task i = s.task i) ∧ (∀ i, (s.raiseDevOnce code data).branch i = s.branch i) ∧
    (∀ i, (s.raiseDevOnce code data).join i = s.join i) ∧ (∀ i, (s.raiseDevOnce code data).port i = s.port i) ∧
    (∀ i, (s.raiseDevOnce code data).portOf i = s.portOf i) ∧ (∀ b p, (s.raiseDevOnce code data).node b p = s.node b p) ∧
    (∀ c i n, (s.raiseDevOnce code data).par c i n = s.par c i n) ∧
    (∀ c i n, (s.raiseDevOnce code data).pn c i n = s.pn c i n) ∧ (∀ c i, (s.raiseDevOnce code data).P c i = s.P c i) :=
  (State.raiseDevOnce_only s code data).reads rfl

@[simp] theorem State.raiseAx_reads (s : State) (code a : Nat) (data : List Byte) :
    (∀ i, (s.raiseAx code a data).axis i = s.axis i) ∧ (∀ i, (s.raiseAx code a data).zone i = s.zone i) ∧
    (∀ i, (s.raiseAx code a data).step_ i = s.step_ i) ∧ (∀ i, (s.raiseAx code a data).enc i = s.enc i) ∧
    (∀ i, (s.raiseAx code a data).fch i = s.fch i) ∧ (∀ i, (s.raiseAx code a data).die i = s.die i) ∧
    (∀ i, (s.raiseAx code a data).sout i = s.sout i) ∧ (∀ i, (s.raiseAx code a data).spair i = s.spair i) ∧
    (∀ i, (s.raiseAx code a data).sgrp i = s.sgrp i) ∧ (∀ i, (s.raiseAx code a data).conn i = s.conn i) ∧
    (∀ i, (s.raiseAx code a data).task i = s.task i) ∧ (∀ i, (s.raiseAx code a data).branch i = s.branch i) ∧
    (∀ i, (s.raiseAx code a data).join i = s.join i) ∧ (∀ i, (s.raiseAx code a data).port i = s.port i) ∧
    (∀ i, (s.raiseAx code a data).portOf i = s.portOf i) ∧ (∀ b p, (s.raiseAx code a data).node b p = s.node b p) ∧
    (∀ c i n, (s.raiseAx code a data).par c i n = s.par c i n) ∧ (∀ c i n, (s.raiseAx code a data).pn c i n = s.pn c i n) ∧
    (∀ c i, (s.raiseAx code a data).P c i = s.P c i) :=
  (State.raiseAx_only s code a data).reads rfl

@[simp] theorem State.raiseNode_reads (s : State) (code br pos : Nat) (data : List Byte) :
    (∀ i, (s.raiseNode code br pos data).axis i = s.axis i) ∧ (∀ i, (s.raiseNode code br pos data).zone i = s.zone i) ∧
    (∀ i, (s.raiseNode code br pos data).step_ i = s.step_ i) ∧ (∀ i, (s.raiseNode code br pos data).enc i = s.enc i) ∧
    (∀ i, (s.raiseNode code br pos data).fch i = s.fch i) ∧ (∀ i, (s.raiseNode code br pos data).die i = s.die i) ∧
    (∀ i, (s.raiseNode code br pos data).sout i = s.sout i) ∧ (∀ i, (s.raiseNode code br pos data).spair i = s.spair i) ∧
    (∀ i, (s.raiseNode code br pos data).sgrp i = s.sgrp i) ∧ (∀ i, (s.raiseNode code br pos data).conn i = s.conn i) ∧
    (∀ i, (s.raiseNode code br pos data).task i = s.task i) ∧ (∀ i, (s.raiseNode code br pos data).branch i = s.branch i) ∧
    (∀ i, (s.raiseNode code br pos data).join i = s.join i) ∧ (∀ i, (s.raiseNode code br pos data).port i = s.port i) ∧
    (∀ i, (s.raiseNode code br pos data).portOf i = s.portOf i) ∧
    (∀ b p, (s.raiseNode code br pos data).node b p = s.node b p) ∧
    (∀ c i n, (s.raiseNode code br pos data).par c i n = s.par c i n) ∧
    (∀ c i n, (s.raiseNode code br pos data).pn c i n = s.pn c i n) ∧
    (∀ c i, (s.raiseNode code br pos data).P c i = s.P c i) :=
  (State.raiseNode_only s code br pos data).reads rfl

@[simp] theorem State.raiseCh_reads (s : State) (code ch : Nat) :
    (∀ i, (s.raiseCh code ch).axis i = s.axis i) ∧ (∀ i, (s.raiseCh code ch).zone i = s.zone i) ∧
    (∀ i, (s.raiseCh code ch).step_ i = s.step_ i) ∧ (∀ i, (s.raiseCh code ch).enc i = s.enc i) ∧
    (∀ i, (s.raiseCh code ch).fch i = s.fch i) ∧ (∀ i, (s.raiseCh code ch).die i = s.die i) ∧
    (∀ i, (s.raiseCh code ch).sout i = s.sout i) ∧ (∀ i, (s.raiseCh code ch).spair i = s.spair i) ∧
    (∀ i, (s.raiseCh code ch).sgrp i = s.sgrp i) ∧ (∀ i, (s.raiseCh code ch).conn i = s.conn i) ∧
    (∀ i, (s.raiseCh code ch).task i = s.task i) ∧ (∀ i, (s.raiseCh code ch).branch i = s.branch i) ∧
    (∀ i, (s.raiseCh code ch).join i = s.join i) ∧ (∀ i, (s.raiseCh code ch).port i = s.port i) ∧
    (∀ i, (s.raiseCh code ch).portOf i = s.portOf i) ∧ (∀ b p, (s.raiseCh code ch).node b p = s.node b p) ∧
    (∀ c i n, (s.raiseCh code ch).par c i n = s.par c i n) ∧ (∀ c i n, (s.raiseCh code ch).pn c i n = s.pn c i n) ∧
    (∀ c i, (s.raiseCh code ch).P c i = s.P c i) :=
  (State.raiseCh_only s code ch).reads rfl

@[simp] theorem State.raiseDie_reads (s : State) (code d : Nat) :
    (∀ i, (s.raiseDie code d).axis i = s.axis i) ∧ (∀ i, (s.raiseDie code d).zone i = s.zone i) ∧
    (∀ i, (s.raiseDie code d).step_ i = s.step_ i) ∧ (∀ i, (s.raiseDie code d).enc i = s.enc i) ∧
    (∀ i, (s.raiseDie code d).fch i = s.fch i) ∧ (∀ i, (s.raiseDie code d).die i = s.die i) ∧
    (∀ i, (s.raiseDie code d).sout i = s.sout i) ∧ (∀ i, (s.raiseDie code d).spair i = s.spair i) ∧
    (∀ i, (s.raiseDie code d).sgrp i = s.sgrp i) ∧ (∀ i, (s.raiseDie code d).conn i = s.conn i) ∧
    (∀ i, (s.raiseDie code d).task i = s.task i) ∧ (∀ i, (s.raiseDie code d).branch i = s.branch i) ∧
    (∀ i, (s.raiseDie code d).join i = s.join i) ∧ (∀ i, (s.raiseDie code d).port i = s.port i) ∧
    (∀ i, (s.raiseDie code d).portOf i = s.portOf i) ∧ (∀ b p, (s.raiseDie code d).node b p = s.node b p) ∧
    (∀ c i n, (s.raiseDie code d).par c i n = s.par c i n) ∧ (∀ c i n, (s.raiseDie code d).pn c i n = s.pn c i n) ∧
    (∀ c i, (s.raiseDie code d).P c i = s.P c i) :=
  (State.raiseDie_only s code d).reads rfl

@[simp] theorem State.pulseX_reads (s : State) (ev : Nat) :
    (∀ i, (s.pulseX ev).axis i = s.axis i) ∧ (∀ i, (s.pulseX ev).zone i = s.zone i) ∧
    (∀ i, (s.pulseX ev).step_ i = s.step_ i) ∧ (∀ i, (s.pulseX ev).enc i = s.enc i) ∧
    (∀ i, (s.pulseX ev).fch i = s.fch i) ∧ (∀ i, (s.pulseX ev).die i = s.die i) ∧ (∀ i, (s.pulseX ev).sout i = s.sout i) ∧
    (∀ i, (s.pulseX ev).spair i = s.spair i) ∧ (∀ i, (s.pulseX ev).sgrp i = s.sgrp i) ∧
    (∀ i, (s.pulseX ev).conn i = s.conn i) ∧ (∀ i, (s.pulseX ev).task i = s.task i) ∧
    (∀ i, (s.pulseX ev).branch i = s.branch i) ∧ (∀ i, (s.pulseX ev).join i = s.join i) ∧
    (∀ i, (s.pulseX ev).port i = s.port i) ∧ (∀ i, (s.pulseX ev).portOf i = s.portOf i) ∧
    (∀ b p, (s.pulseX ev).node b p = s.node b p) ∧ (∀ c i n, (s.pulseX ev).par c i n = s.par c i n) ∧
    (∀ c i n, (s.pulseX ev).pn c i n = s.pn c i n) ∧ (∀ c i, (s.pulseX ev).P c i = s.P c i) :=
  (State.pulseX_only s ev).reads rfl

@[simp] theorem State.hostWrite_reads (s : State) :
    (∀ i, (s.hostWrite).axis i = s.axis i) ∧ (∀ i, (s.hostWrite).zone i = s.zone i) ∧
    (∀ i, (s.hostWrite).step_ i = s.step_ i) ∧ (∀ i, (s.hostWrite).enc i = s.enc i) ∧
    (∀ i, (s.hostWrite).fch i = s.fch i) ∧ (∀ i, (s.hostWrite).die i = s.die i) ∧ (∀ i, (s.hostWrite).sout i = s.sout i) ∧
    (∀ i, (s.hostWrite).spair i = s.spair i) ∧ (∀ i, (s.hostWrite).sgrp i = s.sgrp i) ∧
    (∀ i, (s.hostWrite).conn i = s.conn i) ∧ (∀ i, (s.hostWrite).task i = s.task i) ∧
    (∀ i, (s.hostWrite).branch i = s.branch i) ∧ (∀ i, (s.hostWrite).join i = s.join i) ∧
    (∀ i, (s.hostWrite).port i = s.port i) ∧ (∀ i, (s.hostWrite).portOf i = s.portOf i) ∧
    (∀ b p, (s.hostWrite).node b p = s.node b p) ∧ (∀ c i n, (s.hostWrite).par c i n = s.par c i n) ∧
    (∀ c i n, (s.hostWrite).pn c i n = s.pn c i n) ∧ (∀ c i, (s.hostWrite).P c i = s.P c i) :=
  (State.hostWrite_only s).reads rfl

@[simp] theorem State.hostWord_reads (s : State) (w : W32) :
    (∀ i, (s.hostWord w).axis i = s.axis i) ∧ (∀ i, (s.hostWord w).zone i = s.zone i) ∧
    (∀ i, (s.hostWord w).step_ i = s.step_ i) ∧ (∀ i, (s.hostWord w).enc i = s.enc i) ∧
    (∀ i, (s.hostWord w).fch i = s.fch i) ∧ (∀ i, (s.hostWord w).die i = s.die i) ∧
    (∀ i, (s.hostWord w).sout i = s.sout i) ∧ (∀ i, (s.hostWord w).spair i = s.spair i) ∧
    (∀ i, (s.hostWord w).sgrp i = s.sgrp i) ∧ (∀ i, (s.hostWord w).conn i = s.conn i) ∧
    (∀ i, (s.hostWord w).task i = s.task i) ∧ (∀ i, (s.hostWord w).branch i = s.branch i) ∧
    (∀ i, (s.hostWord w).join i = s.join i) ∧ (∀ i, (s.hostWord w).port i = s.port i) ∧
    (∀ i, (s.hostWord w).portOf i = s.portOf i) ∧ (∀ b p, (s.hostWord w).node b p = s.node b p) ∧
    (∀ c i n, (s.hostWord w).par c i n = s.par c i n) ∧ (∀ c i n, (s.hostWord w).pn c i n = s.pn c i n) ∧
    (∀ c i, (s.hostWord w).P c i = s.P c i) :=
  (State.hostWord_only s w).reads rfl

/-- What the reads of an event's group leave to its raising: the axis event is an event of its axis, once a frame. -/
theorem State.raiseAx_hasEvent (s : State) (code i : Nat) (data : List Byte) (h : s.seenEv code i = false) :
    (s.raiseAx code i data).hasEvent code i := State.raiseOnce_hasEvent _ _ _ _ _ h

theorem State.raiseNode_hasEvent (s : State) (code b p : Nat) (data : List Byte) (h : s.seenEv code (nodeKey b p) = false) :
    (s.raiseNode code b p data).hasEvent code (nodeKey b p) := State.raiseOnce_hasEvent _ _ _ _ _ h

theorem State.raiseDevOnce_hasEvent (s : State) (code : Nat) (data : List Byte) (h : s.seenEv code devObj = false) :
    (s.raiseDevOnce code data).hasEvent code devObj := State.raiseOnce_hasEvent _ _ _ _ _ h

theorem State.raiseDie_hasEvent (s : State) (code d : Nat) (h : s.seenEv code (d + 1) = false) :
    (s.raiseDie code d).hasEvent code (d + 1) := State.raiseOnce_hasEvent _ _ _ _ _ h

/-- Which events a frame has seen is told by the event block alone. -/
theorem State.seenEv_congr {s t : State} (h : t.evt = s.evt) (code obj : Nat) : t.seenEv code obj = s.seenEv code obj := by
  simp only [State.seenEv, h]

/-- Device time after going to t: t, or the present where t has passed. -/
@[simp] theorem now_add_sub (a t : Nat) : a + (t - a) = max a t := by omega

end Sys2Proof.Machine
end

section
/-! A command on one of many leaves every other as it was. -/

namespace Sys2Proof.Machine

/-- What a reading of the state gives at either end of a choice, it gives of the choice. -/
theorem State.read_ite {α : Type} (f : State → α) {c : Prop} [Decidable c] {a b : State} {v : α} (ha : f a = v) (hb : f b = v) :
    f (if c then a else b) = v := by
  split <;> assumption

section Axes
variable {s u : State} {i : Fin 256} {k : Nat} (hk : k ≠ i)
include hk

theorem execSatTime_axis_other (c : Fin 4) (h : exec (.satTime i c) s = .next u) : u.axis k = s.axis k := by
  obtain rfl := Host.Outcome.next.inj h
  exact State.read_ite (State.axis · k) (by simp [State.setAxis_other _ _ _ _ hk]) rfl

theorem execFbLost_axis_other (h : exec (.fbLost i) s = .next u) : u.axis k = s.axis k := by
  obtain rfl := Host.Outcome.next.inj h
  exact State.read_ite (State.axis · k) (by simp [State.setAxis_other _ _ _ _ hk]) rfl

theorem execFbFrozen_axis_other (h : exec (.fbFrozen i) s = .next u) : u.axis k = s.axis k := by
  obtain rfl := Host.Outcome.next.inj h
  exact State.read_ite (State.axis · k) (by simp [State.setAxis_other _ _ _ _ hk]) rfl

theorem execEstExpired_axis_other (h : exec (.estExpired i) s = .next u) : u.axis k = s.axis k := by
  obtain rfl := Host.Outcome.next.inj h
  exact State.read_ite (State.axis · k) (by simp [State.setAxis_other _ _ _ _ hk]) rfl

theorem execEncDev_axis_other (h : exec (.encDev i) s = .next u) : u.axis k = s.axis k := by
  obtain rfl := Host.Outcome.next.inj h
  split
  · rfl
  · exact State.read_ite (State.axis · k) (by simp [State.setAxis_other _ _ _ _ hk]) rfl

theorem execInpos_axis_other (h : exec (.inpos i) s = .next u) : u.axis k = s.axis k := by
  obtain rfl := Host.Outcome.next.inj h
  exact State.read_ite (State.axis · k) (State.setAxis_other _ _ _ _ hk) rfl

end Axes

section Zones
variable {s u : State} {z : Fin 64} {k : Nat} (hk : k ≠ z)
include hk

theorem execWebBreak_zone_other (h : exec (.webBreak z) s = .next u) : u.zone k = s.zone k := by
  obtain rfl := Host.Outcome.next.inj h
  exact State.read_ite (State.zone · k) (by simp [State.setZone_other _ _ _ _ hk]) rfl

theorem execLcInvalid_zone_other (h : exec (.lcInvalid z) s = .next u) : u.zone k = s.zone k := by
  obtain rfl := Host.Outcome.next.inj h
  exact State.read_ite (State.zone · k) (by simp [State.setZone_other _ _ _ _ hk]) rfl

end Zones

section Steps
variable {s u : State} {c : Fin 16} {k : Nat} (hk : k ≠ c)
include hk

theorem execStepPulse_step_other (h : exec (.stepPulse c) s = .next u) : u.step_ k = s.step_ k := by
  obtain rfl := Host.Outcome.next.inj h
  refine State.read_ite (State.step_ · k) rfl (State.read_ite (State.step_ · k) (State.setStep_other _ _ _ _ hk) ?_)
  rw [State.setStep_other _ _ _ _ hk]
  simp [State.setStep_other _ _ _ _ hk]

theorem execDirChange_step_other (h : exec (.dirChange c) s = .next u) : u.step_ k = s.step_ k := by
  obtain rfl := Host.Outcome.next.inj h
  refine State.read_ite (State.step_ · k) rfl (State.read_ite (State.step_ · k) rfl ?_)
  simp [State.setStep_other _ _ _ _ hk]

theorem execCrefIdleExpiry_step_other (h : exec (.crefIdleExpiry c) s = .next u) : u.step_ k = s.step_ k := by
  obtain rfl := Host.Outcome.next.inj h
  exact State.read_ite (State.step_ · k) rfl (by simp [State.setStep_other _ _ _ _ hk])

theorem execCrefRampComplete_step_other (h : exec (.crefRampComplete c) s = .next u) : u.step_ k = s.step_ k := by
  obtain rfl := Host.Outcome.next.inj h
  exact State.read_ite (State.step_ · k) rfl (by simp [State.setStep_other _ _ _ _ hk])

end Steps

section Encs
variable {s u : State} {e : Fin 8} {k : Nat} (hk : k ≠ e)
include hk

theorem State.encError_enc_other (s : State) : (s.encError e).enc k = s.enc k := by
  simp [State.encError, State.setEnc_other _ _ _ _ hk]

theorem execEncEdge_enc_other (a b : Bool) (l : HeldLevel) (h : exec (.encEdge e a b l) s = .next u) : u.enc k = s.enc k := by
  obtain rfl := Host.Outcome.next.inj h
  refine State.read_ite (State.enc · k) rfl (State.read_ite (State.enc · k) ?_ (State.read_ite (State.enc · k) ?_ ?_))
  · simp [State.encError_enc_other hk, State.setEnc_other _ _ _ _ hk]
  · simp
  · simp [State.setEnc_other _ _ _ _ hk]

theorem execEnczEdge_enc_other (a : Bool) (l : HeldLevel) (h : exec (.enczEdge e a l) s = .next u) : u.enc k = s.enc k := by
  obtain rfl := Host.Outcome.next.inj h
  refine State.read_ite (State.enc · k) rfl (State.read_ite (State.enc · k) ?_ (State.read_ite (State.enc · k) ?_ ?_)) <;>
    simp [State.setEnc_other _ _ _ _ hk]

theorem execSsiDelivery_enc_other (t : Nat) (a : Bool) (h : exec (.ssiDelivery e t a) s = .next u) : u.enc k = s.enc k := by
  obtain rfl := Host.Outcome.next.inj h
  refine State.read_ite (State.enc · k) rfl ?_
  have hfree : ∀ x : State, (x.ssiFree e).enc k = x.enc k := fun x =>
    congrArg (tget ({} : Enc) · k) ((State.ssiFree_only x e).out .encs rfl)
  rw [hfree]
  refine State.read_ite (State.enc · k) ?_ ?_
  · simp [State.encError_enc_other hk, State.setEnc_other _ _ _ _ hk]
  · simp [State.setEnc_other _ _ _ _ hk]

end Encs

theorem commandsOnAnAxisKeepTheOthers : CommandsOnAnAxisKeepTheOthers := by
  refine ⟨fun s u i c k hk h => ?_, fun s u z k hk h => ?_, fun s u c k hk h => ?_, fun s u e a b run t k hk h => ?_⟩
  · rcases h with h | h | h | h | h | h
    · exact execSatTime_axis_other hk c h
    · exact execFbLost_axis_other hk h
    · exact execFbFrozen_axis_other hk h
    · exact execEstExpired_axis_other hk h
    · exact execEncDev_axis_other hk h
    · exact execInpos_axis_other hk h
  · rcases h with h | h
    · exact execWebBreak_zone_other hk h
    · exact execLcInvalid_zone_other hk h
  · rcases h with h | h | h | h
    · exact execStepPulse_step_other hk h
    · exact execDirChange_step_other hk h
    · exact execCrefIdleExpiry_step_other hk h
    · exact execCrefRampComplete_step_other hk h
  · rcases h with h | h | h
    · exact execEncEdge_enc_other hk a b _ h
    · exact execEnczEdge_enc_other hk a _ h
    · exact execSsiDelivery_enc_other hk t a h

section Channels
variable {s u : State} {c : Fin 32} {k : Nat} (hk : k ≠ c)
include hk

theorem execOvercur_fch_other (a : Bool) (h : exec (.overcur c a) s = .next u) : u.fch k = s.fch k := by
  obtain rfl := Host.Outcome.next.inj h
  exact State.setFch_other _ _ _ _ hk

theorem execThermalShutdown_fch_other (t : Nat) (h : exec (.thermalShutdown c t) s = .next u) : u.fch k = s.fch k := by
  obtain rfl := Host.Outcome.next.inj h
  exact State.read_ite (State.fch · k) (by simp [State.setFch_other _ _ _ _ hk]) rfl

theorem execThermalRetry_fch_other (tj t : Nat) (h : exec (.thermalRetry c tj t) s = .next u) : u.fch k = s.fch k := by
  obtain rfl := Host.Outcome.next.inj h
  exact State.read_ite (State.fch · k) (by simp [State.setFch_other _ _ _ _ hk]) rfl

theorem execReverseShutdown_fch_other (h : exec (.reverseShutdown c) s = .next u) : u.fch k = s.fch k := by
  obtain rfl := Host.Outcome.next.inj h
  exact State.read_ite (State.fch · k) (State.setFch_other _ _ _ _ hk) rfl

theorem execReverseReclose_fch_other (h : exec (.reverseReclose c) s = .next u) : u.fch k = s.fch k := by
  obtain rfl := Host.Outcome.next.inj h
  exact State.read_ite (State.fch · k) (State.setFch_other _ _ _ _ hk) rfl

theorem execDiagClassify_fch_other (mv : Nat) (h : exec (.diagClassify c mv) s = .next u) : u.fch k = s.fch k := by
  obtain rfl := Host.Outcome.next.inj h
  exact State.read_ite (State.fch · k) rfl (State.setFch_other _ _ _ _ hk)

theorem execFieldInputChange_fch_other (a : Bool) (t : Nat) (h : exec (.fieldInputChange c a t) s = .next u) :
    u.fch k = s.fch k := by
  obtain rfl := Host.Outcome.next.inj h
  refine State.read_ite (State.fch · k) (State.read_ite (State.fch · k) ?_ (State.setFch_other _ _ _ _ hk)) rfl
  rw [((State.capTrigger_only _ _ _).reads rfl).2.2.2.2.1]
  exact State.setFch_other _ _ _ _ hk

theorem execQuiesceComplete_fch_other (h : exec (.quiesceComplete c) s = .next u) : u.fch k = s.fch k := by
  obtain rfl := Host.Outcome.next.inj h
  exact State.read_ite (State.fch · k) (State.setFch_other _ _ _ _ hk) rfl

theorem execCouplerReversalComplete_fch_other (h : exec (.couplerReversalComplete c) s = .next u) : u.fch k = s.fch k := by
  obtain rfl := Host.Outcome.next.inj h
  exact State.read_ite (State.fch · k) (State.setFch_other _ _ _ _ hk) rfl

end Channels

section Outputs
variable {s u : State} {o : Fin 4} {k : Nat} (hk : k ≠ o)
include hk

theorem State.outFault_sout_other (s : State) : (s.outFault o).sout k = s.sout k := by
  unfold State.outFault
  exact State.read_ite (State.sout · k) (State.setSout_other _ _ _ _ hk) (by simp [State.setSout_other _ _ _ _ hk])

theorem State.drive_sout_other (s : State) (chB close : Bool) : (s.drive o chB close).sout k = s.sout k := by
  have hset : ∀ y, (s.setSout o y).sout k = s.sout k := fun y => State.setSout_other _ _ _ _ hk
  unfold State.drive
  dsimp only
  split
  · exact State.read_ite (State.sout · k) (State.read_ite (State.sout · k) rfl (hset _)) (hset _)
  · exact State.read_ite (State.sout · k) (State.read_ite (State.sout · k) rfl (hset _)) (hset _)

theorem execOutputFault_sout_other (h : exec (.outputFault o) s = .next u) : u.sout k = s.sout k := by
  obtain rfl := Host.Outcome.next.inj h
  exact State.read_ite (State.sout · k) (State.outFault_sout_other hk _) rfl

theorem execOutputOffTest_sout_other (low : Bool) (h : exec (.outputOffTest o low) s = .next u) : u.sout k = s.sout k := by
  obtain rfl := Host.Outcome.next.inj h
  exact State.read_ite (State.sout · k) (by simp [State.setSout_other _ _ _ _ hk]) rfl

theorem execOffTestWindowEnd_sout_other (low : Bool) (r : PinReading) (h : exec (.offTestWindowEnd o low r) s = .next u) :
    u.sout k = s.sout k := by
  obtain rfl := Host.Outcome.next.inj h
  refine State.read_ite (State.sout · k) rfl (State.read_ite (State.sout · k) ?_ ?_)
  · rw [State.drive_sout_other hk, State.setSout_other _ _ _ _ hk]
    simp
  · rw [State.outFault_sout_other hk]
    simp

theorem execSwitchLimitExpiry_sout_other (low : Bool) (h : exec (.switchLimitExpiry o low) s = .next u) :
    u.sout k = s.sout k := by
  obtain rfl := Host.Outcome.next.inj h
  rw [State.outFault_sout_other hk, State.setSout_other _ _ _ _ hk]

end Outputs

section Pairs
variable {s u : State} {p : Fin 8} {k : Nat} (hk : k ≠ p)

/-- A reset pulse is received by groups; it changes no pair. -/
theorem State.resetPulse_pairs (s : State) (n : Nat) : (s.resetPulse n).saf.pairs = s.saf.pairs := by
  unfold State.resetPulse
  split
  · rfl
  · refine State.read_ite (·.saf.pairs) ?_ rfl
    refine List.foldlRecOn (motive := fun x : State => x.saf.pairs = s.saf.pairs) _ _ rfl fun x hx g _ => ?_
    exact State.read_ite (·.saf.pairs) hx hx

theorem State.resetPulse_spair (s : State) (n q : Nat) : (s.resetPulse n).spair q = s.spair q := by
  simp only [State.spair, State.resetPulse_pairs]

include hk

theorem execFilteredDemandChange_spair_other (h : exec (.filteredDemandChange p) s = .next u) : u.spair k = s.spair k := by
  obtain rfl := Host.Outcome.next.inj h
  refine State.read_ite (State.spair · k) ?_ (State.read_ite (State.spair · k) (State.setSpair_other _ _ _ _ hk) rfl)
  rw [State.setSpair_other _ _ _ _ hk, State.resetPulse_spair]

theorem execDiscrepancyFault_spair_other (h : exec (.discrepancyFault p) s = .next u) : u.spair k = s.spair k := by
  obtain rfl := Host.Outcome.next.inj h
  exact State.read_ite (State.spair · k) (by simp [State.setSpair_other _ _ _ _ hk]) rfl

end Pairs

/-- A protocol error is noted in MBX_ERR and raised; buffers and queues stand. -/
theorem State.protoErr_host (s : State) (bit : Nat) :
    (s.protoErr bit).host = { s.host with err := s.host.err ||| BitVec.ofNat 4 (2 ^ bit) } := by
  simp [State.protoErr]

@[simp] theorem State.hostWrite_host (s : State) : s.hostWrite.host = { s.host with ur := false } := rfl

/-- What a doorbell does to buffers and queues: nothing, or the buffer it names goes INFLIGHT at the end of the mailbox's queue. -/
theorem execMbxDb_host (m : Fin 32) (v : W32) (s u : State) (h : exec (.mbxDb m v) s = .next u) :
    (u.host.bufs = s.host.bufs ∧ u.host.q = s.host.q) ∨
    (u.host.bufs = tset .free (v.toNat % 512) .inflight s.host.bufs ∧
      u.host.q = tmod [] m.val (· ++ [v.toNat % 512]) s.host.q) := by
  obtain rfl := Host.Outcome.next.inj h
  dsimp only
  split
  · simp [State.protoErr_host]
  · split
    · simp [State.protoErr_host]
    · right
      simp [State.setBuf]

theorem commandsOnAChannelKeepTheOthers : CommandsOnAChannelKeepTheOthers := by
  refine ⟨fun s u c a mv t k hk h => ?_, fun s u o low mv t k hk h => ?_, fun s u p k hk h => ?_, fun s u m v k h => ?_⟩
  · rcases h with h | h | h | h | h | h | h | h | h
    · exact execOvercur_fch_other hk a h
    · exact execThermalShutdown_fch_other hk t h
    · exact execThermalRetry_fch_other hk mv t h
    · exact execReverseShutdown_fch_other hk h
    · exact execReverseReclose_fch_other hk h
    · exact execDiagClassify_fch_other hk mv h
    · exact execFieldInputChange_fch_other hk a t h
    · exact execQuiesceComplete_fch_other hk h
    · exact execCouplerReversalComplete_fch_other hk h
  · rcases h with h | h | h | h
    · exact execOutputFault_sout_other hk h
    · exact execOutputOffTest_sout_other hk low h
    · exact execOffTestWindowEnd_sout_other hk low _ h
    · exact execSwitchLimitExpiry_sout_other hk low h
  · rcases h with h | h
    · exact execFilteredDemandChange_spair_other hk h
    · exact execDiscrepancyFault_spair_other hk h
  · rcases execMbxDb_host m v s u h with ⟨hbufs, hq⟩ | ⟨hbufs, hq⟩
    · exact ⟨fun _ => by simp only [State.bufSt, hbufs], fun _ => by rw [hq]⟩
    · exact ⟨fun hj => by simp only [State.bufSt, hbufs]; exact tget_tset_other _ _ _ _ _ hj,
        fun hm => by rw [hq]; exact tget_tset_other _ _ _ _ _ hm⟩

/-- Settles O8: each command writes the one entry it names. -/
theorem indexedCommandsKeepTheOthers : Obligations.IndexedCommandsKeepTheOthers :=
  ⟨commandsOnAnAxisKeepTheOthers, commandsOnAChannelKeepTheOthers⟩

end Sys2Proof.Machine
end

section
/-! The mailboxes: taking a request, reading it, posting its answer (R381 to R384). -/

namespace Sys2Proof.Machine

/-! ## Byte strings of numbers -/

@[simp] theorem length_leBytes (n v : Nat) : (leBytes n v).length = n := by
  induction n generalizing v with
  | zero => rfl
  | succ n ih => simp [leBytes, ih]

/-! ## Reading memories -/

/-- One byte read is the entry at its address. -/
theorem mread_one (d : Byte) (mem : List Host.Cell) (a : Nat) : mread d mem a 1 = [tget d mem a] := rfl

/-- Dropping keys leaves the entries of the others. -/
theorem tget_filter_of_keep {α : Type} (d : α) (p : Nat × α → Bool) (k : Nat) {t : Tbl α} (h : ∀ v, p (k, v) = true) :
    tget d (t.filter p) k = tget d t k := by
  induction t with
  | nil => rfl
  | cons e r ih =>
    obtain ⟨a, v⟩ := e
    rw [List.filter_cons]
    by_cases hka : k = a
    · subst hka
      simp [h, tget]
    · split <;> simp [tget, hka, ih]

/-- An erasure leaves every byte outside it as it was. -/
theorem tget_merase_outside (d : Byte) (mem : List Host.Cell) {a n x : Nat} (h : x < a ∨ a + n ≤ x) :
    tget d (merase mem a n) x = tget d mem x :=
  tget_filter_of_keep d _ x fun _ => by simpa using h

theorem mread_merase_outside (d : Byte) (mem : List Host.Cell) {a n x : Nat} (h : x < a ∨ a + n ≤ x) :
    mread d (merase mem a n) x 1 = mread d mem x 1 := by
  rw [mread_one, mread_one, tget_merase_outside d mem h]

/-! ## Taking a request -/

theorem State.serve_request {s : State} {m j op n : Nat} (h : Request s m j op n) (f : State → Nat → Nat → State) :
    s.serve op f = f (s.take m j true) m j := by
  unfold State.serve
  rw [h.next]
  exact if_pos ⟨h.opcode, h.served⟩

@[simp] theorem State.take_mem (s : State) (m j : Nat) (r : Bool) : (s.take m j r).host.mem = s.host.mem := rfl

@[simp] theorem State.take_bufBytes (s : State) (m j : Nat) (r : Bool) (k o n : Nat) :
    (s.take m j r).bufBytes k o n = s.bufBytes k o n := rfl

@[simp] theorem State.take_pay (s : State) (m j : Nat) (r : Bool) (k o n : Nat) : (s.take m j r).pay k o n = s.pay k o n := rfl

@[simp] theorem State.take_reqLen (s : State) (m j : Nat) (r : Bool) (k : Nat) : (s.take m j r).reqLen k = s.reqLen k := rfl

@[simp] theorem State.take_ans (s : State) (m j : Nat) (r : Bool) : (s.take m j r).host.ans = s.host.ans := rfl

@[simp] theorem State.take_bufSt (s : State) (m j : Nat) (r : Bool) : (s.take m j r).bufSt j = .fw :=
  tget_tset_of_ne _ _ _ _ (by decide)

@[simp] theorem State.take_taken (s : State) (m j : Nat) (r : Bool) :
    (s.take m j r).host.taken = s.host.taken ++ [{ mbx := m, buf := j, subs := [], ready := r }] := rfl

/-! ## Setting an interrupt source -/

/-- The interrupt status becomes the one given; besides it only the messages sent are counted. -/
theorem Evt.withStat_fst (e : Evt) (pcie : Bool) (ist re : Byte) :
    ∃ ms, (e.withStat pcie ist re).1 = { e with istat := ist, msgs := ms } := by
  unfold Evt.withStat
  dsimp only
  split
  · refine List.foldlRecOn (motive := fun x : Evt × Nat => ∃ ms, x.1 = { e with istat := ist, msgs := ms }) _ _ ⟨_, rfl⟩ ?_
    rintro x ⟨ms, hx⟩ v -
    split
    · exact ⟨_, by rw [hx]⟩
    · exact ⟨ms, hx⟩
  · exact ⟨_, rfl⟩

/-- Setting an interrupt source changes of the event block its status and the counts of messages only. -/
theorem State.irq_evt (s : State) (k : Nat) :
    ∃ ms, (s.irq k).evt = { s.evt with istat := s.evt.istat ||| BitVec.ofNat 8 (2 ^ k), msgs := ms } :=
  Evt.withStat_fst s.evt s.host.hostsel (s.evt.istat ||| BitVec.ofNat 8 (2 ^ k)) 0

/-! ## Posting an answer -/

/-- What an answer does to the host's part: its buffer, its bytes, its mailbox's answers, and the requests in FW. -/
theorem State.answer_host (s : State) (m j status eff : Nat) (pay : List Byte) : (s.answer m j status eff pay).host =
    { s.host with
      bufs := tset .free j .inflight s.host.bufs
      mem := mwrite ramByte s.host.mem (512 * j + 4)
        (leBytes 2 pay.length ++ leBytes 2 status ++ leBytes 6 eff ++ [0, 0] ++ pay)
      ans := tmod [] m (· ++ [j]) s.host.ans
      taken := s.host.taken.filter fun t => t.buf != j } := by
  unfold State.answer
  simp [State.setBuf]

/-- An answer changes of the event block the interrupt status and the counts of messages only. -/
theorem State.answer_evt (s : State) (m j status eff : Nat) (pay : List Byte) :
    ∃ ms, (s.answer m j status eff pay).evt = { s.evt with istat := s.evt.istat ||| 2, msgs := ms } := by
  obtain ⟨ms, h⟩ := (State.irq_evt _ 1 : _)
  exact ⟨ms, h⟩

/-- The answer posted is the youngest of its mailbox, INFLIGHT, with its bytes in the buffer. -/
theorem State.answered_answer {s : State} (hmem : Memory.wf ramByte s.host.mem = true) (m j status eff : Nat) (pay : List Byte) :
    Answered (s.answer m j status eff pay) m j status eff pay := by
  refine ⟨?_, ?_, ?_⟩
  · have hget : tget [] (tmod [] m (· ++ [j]) s.host.ans) m = tget [] s.host.ans m ++ [j] :=
      tget_tset_of_ne _ _ _ _ (by simp)
    rw [State.answer_host, hget]
    simp
  · rw [State.bufSt, State.answer_host]
    exact tget_tset_of_ne _ _ _ _ (by decide)
  · have hlen : 12 + pay.length =
        (leBytes 2 pay.length ++ leBytes 2 status ++ leBytes 6 eff ++ [0, 0] ++ pay).length := by
      simp
      omega
    rw [State.bufBytes, State.answer_host, hlen]
    exact mread_mwrite _ _ _ _ hmem

/-- A request answered at once: where its operation answers, on the state that has taken it with more beside it, the answer
stands. -/
theorem answered_of_take {s x : State} {m j status eff : Nat} {pay : List Byte} (hx : x.host.mem = s.host.mem)
    (h : Canonical s) : Answered (x.answer m j status eff pay) m j status eff pay :=
  State.answered_answer (by rw [hx]; exact h.mbx) m j status eff pay

end Sys2Proof.Machine
end

section
/-! A mask failure of an earlier record stops the record in POST, and its open crevasse run is written to the crevasse ring: a
sample that leaves staging can store bytes outside its own place (R347, R348, R351). -/

namespace Sys2Proof.Machine

/-- Record 0 waits for its trigger sample, which violates its mask (CAPT.MASK_FREEZE is 1); record 1 is in POST, with a run of one
missing instant open. -/
def maskFreezeState : State :=
  { params := [(pkey 12 0 3, 4), (pkey 12 0 24, 1), (pkey 12 0 192, 1), (pkey 12 0 256, 1)]
    cap := { st := .post, nch := 1
             stg := [{ recno := 0, repoch := 0, inst := 5, time := 0, addr := 0, bytes := [1, 0, 0, 0, 0, 0, 0, 0] }]
             fin := [{ recno := 0, n := 6, trig := some 5 }]
             cur := { recno := 1, n := 4, trig := some 2, open_ := some { cause := 1, first := 3, len := 1 } } } }

/-- The byte of the crevasse ring that holds the record number of entry 0. -/
def crevRecnoByte : Nat := crevBase + 4

theorem stagingDrain_maskFreezeState_writes_crevasse :
    ∃ u, exec .stagingDrain maskFreezeState = .next u ∧ mread ramByte u.cap.mem crevRecnoByte 1 = [1] :=
  ⟨_, rfl, by decide +kernel⟩

/-- Refutes O9: the sample stored goes to bytes 0 to 7, and the crevasse ring's byte 0x600004 changes with it. -/
theorem not_memoriesKeepTheirOtherBytes : ¬ Obligations.MemoriesKeepTheirOtherBytes := by
  unfold Obligations.MemoriesKeepTheirOtherBytes
  rintro ⟨-, -, -, hstaging, -⟩
  obtain ⟨u, hu, hbyte⟩ := stagingDrain_maskFreezeState_writes_crevasse
  have hsame := hstaging maskFreezeState u _ _ crevRecnoByte rfl hu (by decide)
  rw [hbyte] at hsame
  exact absurd hsame (by decide +kernel)

end Sys2Proof.Machine
end

section
/-! The static part of a head's cycle: frames judged, slot events, final outcomes (R167 to R170, R223). -/

namespace Sys2Proof.Machine

/-! ## Entries of the network part after an update of another -/

@[simp] theorem State.setBranch_node (s : State) (b : Nat) (x : Branch) (c p : Nat) : (s.setBranch b x).node c p = s.node c p := rfl

@[simp] theorem State.setNode_branch (s : State) (b p : Nat) (n : Node) (c : Nat) : (s.setNode b p n).branch c = s.branch c := rfl

@[simp] theorem State.setNode_slotFin (s : State) (b p : Nat) (n : Node) :
    (s.setNode b p n).net.slotFin = s.net.slotFin := rfl

@[simp] theorem State.setBranch_slotFin (s : State) (b : Nat) (x : Branch) : (s.setBranch b x).net.slotFin = s.net.slotFin := rfl

theorem nodeKey_ne {b p q : Nat} (h : q ≠ p) : nodeKey b q ≠ nodeKey b p := by
  unfold nodeKey
  omega

/-! ## What the passing of time leaves -/

@[simp] theorem State.goto_par (s : State) (t c i n : Nat) : (s.goto t).par c i n = s.par c i n := by simp [State.par]

@[simp] theorem State.goto_pn (s : State) (t c i n : Nat) : (s.goto t).pn c i n = s.pn c i n := by simp [State.pn]

/-- The instants of the present frame and the link's byte time stand when time passes. -/
@[simp] theorem State.goto_instants (s : State) (t : Nat) : (s.goto t).tB = s.tB ∧ (s.goto t).rev = s.rev ∧
    (s.goto t).instS = s.instS ∧ (s.goto t).instA = s.instA ∧ (s.goto t).instU0 = s.instU0 := by
  simp [State.tB, State.rev, State.instS, State.instA, State.instU0, State.per]

theorem State.headBranch_role {s : State} {b : Nat} (h : s.headBranch b = true) : s.frm.role = .head := by
  simp only [State.headBranch, State.isHead, Bool.and_eq_true, beq_iff_eq] at h
  exact h.1.1

theorem State.headBranch_run {s : State} {b : Nat} (h : s.headBranch b = true) : s.frm.run = true := by
  simp only [State.headBranch, State.isHead, Bool.and_eq_true] at h
  exact h.1.2

/-! ## Slot events -/

/-- The event of a slot leaves of its node all but the event itself. -/
theorem State.slotHappens_node (s : State) (b p t : Nat) :
    ∃ e, (s.slotHappens b p t).node b p = { s.node b p with evPend := e } := by
  unfold State.slotHappens
  dsimp only
  split
  · exact ⟨_, rfl⟩
  · have hset : ∀ e, (s.setNode b p { s.node b p with evPend := some e }).node b p = { s.node b p with evPend := some e } :=
      fun e => State.setNode_ne _ _ _ _ fun h => nomatch congrArg Node.evPend h
    split
    · exact ⟨_, hset _⟩
    · split
      · exact ⟨_, hset _⟩
      · exact ⟨_, hset _⟩

/-- A slot without an event has it under way from the instant it happens. -/
theorem State.slotHappens_evPend {s : State} {b p : Nat} (t : Nat) (hd : (s.node b p).evDone = false)
    (he : (s.node b p).evPend = none) :
    ((s.slotHappens b p t).node b p).evPend = some (s.phaseAt t + 25 * pathCycles) ∧ (s.slotHappens b p t).frm = s.frm := by
  refine ⟨?_, (State.slotHappens_only s b p t).out .frm rfl⟩
  have hset : ∀ e, (s.setNode b p { s.node b p with evPend := some e }).node b p = { s.node b p with evPend := some e } :=
    fun e => State.setNode_ne _ _ _ _ fun h => nomatch congrArg Node.evPend h
  have hno : ¬((s.node b p).evDone = true ∨ (s.node b p).evPend.isSome = true) := by simp [hd, he]
  unfold State.slotHappens
  simp only [if_neg hno]
  split
  · rw [State.setBranch_node, hset]
  · split
    · rw [State.setBranch_node, hset]
    · rw [hset]

theorem slotDeadlineMakesTheSlotEvent : SlotDeadlineMakesTheSlotEvent := by
  intro s b p hb hp hd he
  have hrun : ¬((!s.headBranch b) = true ∨ s.nS b ≤ p.val) := by simp [hb, hp]
  obtain ⟨hev, hfrm⟩ := State.slotHappens_evPend (s := s.goto (s.slotEnd b p)) (b := b) (p := p) (s.slotEnd b p)
    (by simpa using hd) (by simpa using he)
  refine ⟨_, congrArg Host.Outcome.next (if_neg hrun), ?_⟩
  have hend : (s.goto (s.slotEnd b p)).slotEnd b p = s.slotEnd b p := by
    simp [State.slotEnd, State.slotIdx, State.lS, State.nS]
  dsimp only
  rw [hend, hfrm]
  refine ⟨?_, hev⟩
  simp

/-! ## Static frames -/

/-- What a head's part does with a static frame before the outcomes are final: it judges it. -/
theorem execStaticFrameReceived_judge {s : State} {b : Fin 8} {f : List Byte} {t : Nat} {err : Bool}
    (hb : s.headBranch b = true) (hfin : (s.rxFrame b t f err).net.slotFin.getLsbD b = false) :
    exec (.staticFrameReceived b f t err) s = .next ((s.rxFrame b t f err).judgeStatic b t f err) := by
  have hrole : s.frm.role ≠ .node := by rw [State.headBranch_role hb]; decide
  have hhead : ¬(!s.headBranch b) = true := by simp [hb]
  show execStaticFrameReceived b f t err s = _
  unfold execStaticFrameReceived
  rw [if_neg hrole, if_neg hhead]
  dsimp only
  rw [hfin, if_neg Bool.false_ne_true]

/-- A VALID frame's slot is VALID, its node present, its samples fresh. -/
theorem State.slotValid_node (s : State) (b p t : Nat) (f : List Byte) : ((s.slotValid b p t f).node b p).prov = .valid ∧
    ((s.slotValid b p t f).node b p).present = true ∧ ((s.slotValid b p t f).node b p).fresh = true := by
  unfold State.slotValid
  dsimp only
  obtain ⟨e, he⟩ := State.slotHappens_node _ b p _
  rw [he]
  have hne : ∀ n : Node, n.present = true → (s.setNode b p n).node b p = n := fun n hn =>
    State.setNode_ne _ _ _ _ fun h => by rw [h] at hn; exact nomatch hn
  simp only [apply_ite (fun x : State => x.node b p), State.raiseNode_reads, State.pulseX_reads, ite_self, hne]
  exact ⟨rfl, trivial, rfl⟩

section Judge
variable {s : State} {b t : Nat} {f : List Byte} {err : Bool}

theorem State.judgeStatic_valid {p : Nat} (hcl : s.slotClaim b t (s.nS b) = some p) (hnv : (s.node b p).prov ≠ .valid)
    (hok : s.staticOk b p f err = true) : s.judgeStatic b t f err = s.slotValid b p t f := by
  unfold State.judgeStatic
  simp only [hcl, if_neg hnv, if_pos hok]

theorem State.judgeStatic_corrupt {p : Nat} (hcl : s.slotClaim b t (s.nS b) = some p) (hnv : (s.node b p).prov ≠ .valid)
    (hbad : s.staticOk b p f err = false) :
    ((s.judgeStatic b t f err).node b p).prov = if (s.node b p).prov = .late then .late else .corrupt := by
  have hnot : ¬s.staticOk b p f err = true := by rw [hbad]; exact Bool.false_ne_true
  unfold State.judgeStatic
  simp only [hcl, if_neg hnv, if_neg hnot]
  rw [State.setNode_ne]
  intro h
  have hprov := congrArg Node.prov h
  dsimp only at hprov
  split at hprov <;> exact nomatch hprov

theorem State.judgeStatic_late (hcl : s.slotClaim b t (s.nS b) = none) (hh : hchkOk f = true) (hty : (frameHdr f).ty = 3)
    (hbr : (frameHdr f).branch = b) (hpos : (frameHdr f).pos < s.nS b)
    (hfc : (frameHdr f).fcnt = s.frm.frame.toNat % 65536) (hnv : (s.node b (frameHdr f).pos).prov ≠ .valid) :
    ((s.judgeStatic b t f err).node b (frameHdr f).pos).prov = .late := by
  unfold State.judgeStatic
  simp only [hcl, if_neg hnv]
  rw [if_pos ⟨hh, hty, hbr, hpos, hfc⟩, State.setNode_ne]
  exact fun h => nomatch congrArg Node.prov h

end Judge

theorem staticFramesAreJudged : StaticFramesAreJudged := by
  intro s b f t err hb x hfin
  rw [execStaticFrameReceived_judge hb hfin]
  refine ⟨fun p hcl hnv hok => ⟨_, rfl, ?_⟩, fun p hcl hnv hbad => ⟨_, rfl, ?_⟩, fun hcl hh hty hbr hpos hfc hnv => ⟨_, rfl, ?_⟩⟩
  · rw [State.judgeStatic_valid hcl hnv hok]
    exact State.slotValid_node x b p t f
  · rw [State.judgeStatic_corrupt hcl hnv hbad]
  · rw [State.judgeStatic_late hcl hh hty hbr hpos hfc hnv]

/-- Settles O11. -/
theorem staticFramesTakeTheirSlots : Obligations.StaticFramesTakeTheirSlots :=
  ⟨staticFramesAreJudged, slotDeadlineMakesTheSlotEvent⟩

/-! ## Final outcomes -/

/-- One outcome more is scheduled, and one more counted. -/
theorem Node.final_counts (n : Node) : n.final.lSched = n.lSched + 1 ∧
    n.final.lValid + n.final.lEmpty + n.final.lCorrupt + n.final.lLate = n.lValid + n.lEmpty + n.lCorrupt + n.lLate + 1 := by
  unfold Node.final
  cases hp : n.prov <;> exact ⟨rfl, by dsimp only; omega⟩

theorem Node.final_ne (n : Node) : n.final ≠ {} := by
  intro h
  have hs := congrArg Node.lSched h
  rw [n.final_counts.1] at hs
  exact Nat.succ_ne_zero _ hs

/-- The end of one slot's frame makes its node's outcome final and leaves every other node. -/
theorem State.finalSlot_node (s : State) (b p : Nat) : (s.finalSlot b p).node b p = (s.node b p).final ∧
    (∀ q, q ≠ p → (s.finalSlot b p).node b q = s.node b q) ∧ (s.finalSlot b p).net.slotFin = s.net.slotFin := by
  have hnet : (s.finalSlot b p).net = (s.setNode b p (s.node b p).final).net := by
    unfold State.finalSlot
    refine State.read_ite State.net ?_ (State.read_ite State.net ?_ ?_) <;>
      simp [apply_ite State.net]
  have hnode : ∀ q, (s.finalSlot b p).node b q = (s.setNode b p (s.node b p).final).node b q := fun q => by
    simp only [State.node, hnet]
  refine ⟨?_, fun q hq => ?_, by rw [hnet]; rfl⟩
  · rw [hnode, State.setNode_ne _ _ _ _ (Node.final_ne _)]
  · rw [hnode, State.setNode_other _ _ _ _ _ _ (nodeKey_ne hq)]

/-- The slots below n made final, in ascending order. -/
theorem State.finalSlots_node (s : State) (b n : Nat) :
    let t := (List.range n).foldl (fun s p => s.finalSlot b p) s
    (∀ q, t.node b q = if q < n then (s.node b q).final else s.node b q) ∧ t.net.slotFin = s.net.slotFin := by
  induction n with
  | zero => simp
  | succ n ih =>
    obtain ⟨hnodes, hfin⟩ := ih
    rw [List.range_succ, List.foldl_append]
    obtain ⟨hsame, hother, hkeep⟩ := State.finalSlot_node ((List.range n).foldl (fun s p => s.finalSlot b p) s) b n
    refine ⟨fun q => ?_, by rw [List.foldl_cons, List.foldl_nil, hkeep, hfin]⟩
    rw [List.foldl_cons, List.foldl_nil]
    rcases Nat.lt_trichotomy q n with hlt | rfl | hgt
    · rw [hother q (by omega), hnodes, if_pos hlt, if_pos (by omega)]
    · rw [hsame, hnodes, if_neg (Nat.lt_irrefl _), if_pos (Nat.lt_succ_self _)]
    · rw [hother q (by omega), hnodes, if_neg (by omega), if_neg (by omega)]

/-- The bit of a branch stands in every byte it is put into. -/
theorem getLsbD_or_bit (x : Byte) (b : Fin 8) : (x ||| BitVec.ofNat 8 (2 ^ b.val)).getLsbD b = true := by
  have hbit : (BitVec.ofNat 8 (2 ^ b.val)).getLsbD b = true := by revert b; decide
  rw [BitVec.getLsbD_or, hbit, Bool.or_true]

/-- The branch noted as final, at E_dyn. -/
def State.markFinal (s : State) (b : Nat) : State :=
  let s := s.goto s.eDyn
  { s with net := { s.net with slotFin := s.net.slotFin ||| BitVec.ofNat 8 (2 ^ b) } }

/-- Every slot of the branch made final, then its credits. -/
def State.closeOutcomes (s : State) (b : Nat) : State :=
  let s := (List.range (s.nS b)).foldl (fun s p => s.finalSlot b p) s
  s.setBranch b (s.branch b).finalCredits

/-- Settles O12: each slot of the branch is made final once, and the bit set says that they are. -/
theorem everySlotCountsOneOutcome : Obligations.EverySlotCountsOneOutcome := by
  unfold Obligations.EverySlotCountsOneOutcome
  intro s b hb hfin
  have hrun : ¬((!s.headBranch b) = true ∨ s.net.slotFin.getLsbD b = true) := by rw [hb, hfin]; decide
  have hex : exec (.slotOutcomeFinal b) s = .next ((s.markFinal b).closeOutcomes b) :=
    congrArg Host.Outcome.next (if_neg hrun)
  refine ⟨_, hex, ?_⟩
  have hnode : ∀ q, (s.markFinal b).node b q = s.node b q := fun q => by simp [State.markFinal, State.node]
  have hnS : (s.markFinal b).nS b = s.nS b := by simp [State.markFinal, State.nS, State.pn, State.par]
  obtain ⟨hnodes, hset⟩ := State.finalSlots_node (s.markFinal b) b ((s.markFinal b).nS b)
  refine ⟨?_, fun p hp _ => ?_⟩
  · rw [State.closeOutcomes, State.setBranch_slotFin, hset]
    exact getLsbD_or_bit _ b
  · rw [State.closeOutcomes, State.setBranch_node, hnodes, hnode, if_pos (hnS ▸ hp)]
    exact Node.final_counts _

end Sys2Proof.Machine
end

section
/-! The dynamic parts of a head's cycle: uplink frames judged, command blocks, downlink frames (R171, R179 to R181). -/

namespace Sys2Proof.Machine

/-- What holds of both states of a branch holds of the one taken. -/
theorem State.of_ite {P : State → Prop} {c : Prop} [Decidable c] {a b : State} (ha : P a) (hb : P b) : P (if c then a else b) := by
  split <;> assumption

theorem State.branch_congr {s t : State} (h : t.net = s.net) (b : Nat) : t.branch b = s.branch b := by
  rw [State.branch, h, State.branch]

theorem State.setBranch_of_sent {s : State} {b : Nat} {x : Branch} (hx : x.blkSent = true) : (s.setBranch b x).branch b = x :=
  State.setBranch_ne _ _ _ fun h => by rw [h] at hx; exact nomatch hx

theorem State.setBranch_of_ddl {s : State} {b : Nat} {x : Branch} (hx : x.ddl = true) : (s.setBranch b x).branch b = x :=
  State.setBranch_ne _ _ _ fun h => by rw [h] at hx; exact nomatch hx

/-! ## Dynamic uplink frames -/

/-- What the head takes from a used credit's frame is of no branch. -/
@[simp] theorem State.dynTake_branch (s : State) (b p : Nat) (f : List Byte) (c : Nat) : (s.dynTake b p f).branch c = s.branch c := by
  unfold State.dynTake
  split
  · exact State.branch_congr ((State.keeperReport_only _ _ _ _).out .net rfl) c
  · split <;> rfl

/-- A mini-slot's outcome is the one counted, or a better one that stood before. -/
theorem State.credit_branch (s : State) (b m : Nat) {c : Nat} (hc : c ≠ 0) : tget 0 ((s.credit b m c).branch b).credit m =
    if tget 0 (s.branch b).credit m = 0 then c else min (tget 0 (s.branch b).credit m) c := by
  have hv : (if tget 0 (s.branch b).credit m = 0 then c else min (tget 0 (s.branch b).credit m) c) ≠ 0 := by
    split <;> omega
  have hset : tget 0 (tmod 0 m (fun o => if o = 0 then c else min o c) (s.branch b).credit) m = _ :=
    tget_tset_of_ne 0 _ m _ hv
  unfold State.credit
  dsimp only
  rw [State.setBranch_ne]
  · exact hset
  · intro h
    have hnil := congrArg Branch.credit h
    dsimp only at hnil
    rw [hnil] at hset
    exact hv hset.symm

/-- What a head's part does with a frame that starts in the window of a granted mini-slot not yet used. -/
theorem execDynamicUplinkReceived_judge {s : State} {b : Fin 8} {f : List Byte} {t m : Nat} {err : Bool} (hb : s.headBranch b = true)
    (hfin : (s.rxFrame b t f err).net.slotFin.getLsbD b = false)
    (hcl : (s.rxFrame b t f err).dynClaim b ((s.rxFrame b t f err).branch b).grant.toNat t ((s.rxFrame b t f err).mB b) = some m)
    (hnu : tget 0 ((s.rxFrame b t f err).branch b).credit m ≠ 1) :
    exec (.dynamicUplinkReceived b f t err) s = .next (if (s.rxFrame b t f err).dynOk b m f err
      then ((s.rxFrame b t f err).credit b m 1).dynTake b (frameHdr f).pos f else (s.rxFrame b t f err).credit b m 3) := by
  have hrole : s.frm.role ≠ .node := by rw [State.headBranch_role hb]; decide
  have hhead : ¬(!s.headBranch b) = true := by simp [hb]
  show execDynamicUplinkReceived b f t err s = _
  unfold execDynamicUplinkReceived
  rw [if_neg hrole, if_neg hhead]
  dsimp only
  rw [hfin, if_neg Bool.false_ne_true, hcl]
  dsimp only
  rw [if_neg hnu]

theorem dynamicFramesAreJudged : DynamicFramesAreJudged := by
  intro s b f t err hb x hfin m hcl hnu
  rw [execDynamicUplinkReceived_judge hb hfin hcl hnu]
  refine ⟨_, rfl, fun hok => ?_, fun hbad => ?_⟩
  · rw [if_pos hok, State.dynTake_branch, State.credit_branch _ _ _ Nat.one_ne_zero]
    split <;> omega
  · rw [if_neg (by rw [hbad]; exact Bool.false_ne_true), State.credit_branch _ _ _ (by decide)]
    change tget 0 (x.branch b).credit m ≠ 1 at hnu
    generalize tget 0 (x.branch b).credit m = o at hnu
    split <;> omega

/-! ## Command blocks -/

/-- A block that starts has been sent, and its bytes are those of the state it starts in. -/
theorem State.startBlock_branch (s : State) (b : Nat) : ((s.startBlock b).branch b).blkSent = true ∧
    ((s.startBlock b).branch b).block = s.blockFrame b ∧ ((s.startBlock b).branch b).ddl = (s.branch b).ddl := by
  unfold State.startBlock
  dsimp only
  rw [State.branch_congr ((State.tagPack_only _ _).out .net rfl), State.branch_congr ((State.bwFrame_only _ _ _ _).out .net rfl),
    State.branch_congr ((State.pulseX_only _ _).out .net rfl)]
  have hlaid : ∀ x : Branch, x.blkSent = true → ∀ frm, State.branch { s.setBranch b x with frm := frm } b = x :=
    fun x hx _ => State.setBranch_of_sent (s := s) hx
  refine State.of_ite (P := fun u => (u.branch b).blkSent = true ∧ (u.branch b).block = _ ∧ (u.branch b).ddl = _) ?_ ?_
  · rw [hlaid]
    exacts [⟨rfl, rfl, rfl⟩, rfl]
  · rw [State.setBranch_of_sent (by rw [hlaid]; rfl), hlaid]
    exacts [⟨rfl, rfl, rfl⟩, rfl]

theorem State.startBlock_now (s : State) (b : Nat) : (s.startBlock b).frm.now = s.frm.now := by
  unfold State.startBlock
  dsimp only
  rw [(State.tagPack_only _ _).out .frm rfl, (State.bwFrame_only _ _ _ _).out .frm rfl, (State.pulseX_only _ _).out .frm rfl]
  exact State.read_ite (fun s => s.frm.now) rfl rfl

theorem State.frameOverrun_now (s : State) (i : Nat) : (s.frameOverrun i).frm.now = s.frm.now := by
  unfold State.frameOverrun
  dsimp only
  rw [(State.raiseAx_only _ _ _ _).out .frm rfl]

theorem State.missDeadline_now (s : State) (l : List Nat) : (s.missDeadline l).frm.now = s.frm.now := by
  have hfold : ∀ (l : List Nat) (s : State), (l.foldl (fun s i => s.frameOverrun i) s).frm.now = s.frm.now := by
    intro l
    induction l with
    | nil => exact fun _ => rfl
    | cons i l ih => exact fun s => (ih _).trans (State.frameOverrun_now s i)
  unfold State.missDeadline
  dsimp only
  rw [(State.abandon_only _ _).out .frm rfl, hfold, (State.mapAxes_only _ _ _).out .frm rfl]

/-- C_max has passed on a branch: its deadline is noted and its unfinished kernels are abandoned. -/
def State.deadlinePassed (s : State) (b : Nat) : State :=
  let s := s.goto (s.cMax b)
  let s := s.setBranch b { s.branch b with ddl := true }
  if s.bridging then s else (s.missDeadline (s.branchAxes b)).abandonZones

theorem State.deadlinePassed_now (s : State) (b : Nat) : (s.deadlinePassed b).frm.now = max s.frm.now (s.cMax b) := by
  unfold State.deadlinePassed
  dsimp only
  split
  · simp
  · rw [(State.abandonZones_only _).out .frm rfl, State.missDeadline_now]
    simp

theorem State.deadlinePassed_ddl (s : State) (b : Nat) : ((s.deadlinePassed b).branch b).ddl = true := by
  have hset : ∀ s : State, ((s.setBranch b { s.branch b with ddl := true }).branch b).ddl = true := fun s => by
    rw [State.setBranch_of_ddl rfl]
  unfold State.deadlinePassed
  dsimp only
  split
  · exact hset _
  · rw [State.branch, (State.abandonZones_only _).out .net rfl, (State.missDeadline_only _ _).out .net rfl]
    exact hset _

theorem commandBlocksStart : CommandBlocksStart := by
  refine ⟨fun s b hb hsil hbr hsent hdone hpack => ?_, fun s b hb hsil => ?_⟩
  · have hrun : ¬(!s.headBranch b ∨ s.red.silentTx ∨ s.bridging ∨ (s.branch b).blkSent ∨ !s.branchDone b ∨ (s.packPhase b).isNone) := by
      simp [hb, hsil, hbr, hsent, hdone, Option.isSome_iff_ne_none.mp hpack]
    intro w
    refine ⟨_, congrArg Host.Outcome.next (if_neg hrun), ?_, ?_, ?_⟩
    · rw [State.startBlock_now]
      simp [w]
    · exact (State.startBlock_branch _ _).1
    · exact (State.startBlock_branch _ _).2.1
  · have hrun : ¬(!s.headBranch b) = true := by simp [hb]
    have hex : exec (.commandBlockDeadline b) s = .next (
      let s := s.deadlinePassed b
      if s.red.silentTx ∨ (s.branch b).blkSent then s
      else if s.bridging then
        let sf := s.downPdus b 0 ++ s.downPdus b 1
        let x := s.branch b
        s.setBranch b { x with blkSent := true, dynFrom := s.frm.now, dynAt := s.frm.now,
                               dynQ := if sf.isEmpty then x.dynQ else dynEnter { cls := 0, pos := 0, payload := sf } x.dynQ }
      else s.startBlock b) := congrArg Host.Outcome.next (if_neg hrun)
    have hsil' : (s.deadlinePassed b).red.silentTx = false := by
      rw [← hsil]
      unfold State.deadlinePassed
      refine congrArg Red.silentTx (State.read_ite State.red ?_ ?_)
      · simp
      · rw [(State.abandonZones_only _).out .red rfl, (State.missDeadline_only _ _).out .red rfl]
        simp
    have hnow := s.deadlinePassed_now b
    have hddl := s.deadlinePassed_ddl b
    refine ⟨_, hex, ?_⟩
    dsimp only
    split
    · next h => exact ⟨hnow, hddl, by simpa [hsil'] using h⟩
    · split
      · rw [State.setBranch_of_sent rfl]
        exact ⟨hnow, hddl, rfl⟩
      · obtain ⟨h1, _, h3⟩ := State.startBlock_branch (s.deadlinePassed b) b
        exact ⟨(State.startBlock_now _ _).trans hnow, h3.trans hddl, h1⟩

/-! ## Dynamic downlink frames -/

/-- A frame that is sent moves the segment's next start; the queue and the rest of the branch stand. -/
theorem State.sendDyn_branch {s : State} {b : Nat} (t : Nat) (f : List Byte) (hsent : (s.branch b).blkSent = true) :
    (s.sendDyn b t f).branch b = { s.branch b with dynAt := t + (wireB f + 12) * (s.goto t).tB } := by
  unfold State.sendDyn
  dsimp only
  rw [State.branch, (State.bwFrame_only _ _ _ _).out .net rfl, ← State.branch, State.setBranch_ne]
  · simp
  · intro h
    have hb := congrArg Branch.blkSent h
    simp [hsent] at hb

theorem dynamicDownlinkFramesGoInOrder : DynamicDownlinkFramesGoInOrder := by
  refine ⟨fun s b hb hsil hsent hkeep hkf hfit => ?_, fun s b d hb hsil hsent hkf hfind => ?_⟩
  · have hrun : ¬(!s.headBranch b ∨ s.red.silentTx ∨ !(s.branch b).blkSent) := by simp [hb, hsil, hsent]
    refine ⟨_, congrArg Host.Outcome.next ((if_neg hrun).trans (if_pos ⟨hkeep, by simp [hkf], hfit⟩)), ?_⟩
    dsimp only
    rw [State.setBranch_of_sent (by rw [State.sendDyn_branch _ _ hsent]; exact hsent)]
    exact ⟨rfl, rfl, by rw [State.sendDyn_branch _ _ hsent]⟩
  · have hrun : ¬(!s.headBranch b ∨ s.red.silentTx ∨ !(s.branch b).blkSent) := by simp [hb, hsil, hsent]
    have hnk : ¬(s.sendsKeeper ∧ !(s.branch b).kfSent ∧ s.dynFits ((s.branch b).gridStart s.tB s.frm.now) (s.keeperFrame b)) := by
      simp [hkf]
    refine ⟨_, congrArg Host.Outcome.next ((if_neg hrun).trans (if_neg hnk)), ?_⟩
    dsimp only
    rw [hfind]
    dsimp only
    rw [State.sendDyn_branch _ _ hsent]
    split <;> simp [State.setBranch_of_sent, hsent]

/-- Settles O14. -/
theorem dynamicTrafficIsJudgedAndSent : Obligations.DynamicTrafficIsJudgedAndSent :=
  ⟨dynamicFramesAreJudged, commandBlocksStart, dynamicDownlinkFramesGoInOrder⟩

end Sys2Proof.Machine
end

section
/-! The coldstart of a head and the join machine of a follower (R191, R192, R196 to R199). -/

namespace Sys2Proof.Machine

/-! ## The join state of a branch -/

theorem State.join_congr {s t : State} (h : t.net.joins = s.net.joins) (k : Nat) : t.join k = s.join k := by
  rw [State.join, h, State.join]

@[simp] theorem State.goto_join (s : State) (t k : Nat) : (s.goto t).join k = s.join k := State.join_congr (by simp) k

@[simp] theorem State.setJoin_obeyed (s : State) (k : Nat) (j : Join) :
    (s.setJoin k j).net.obeyId = s.net.obeyId ∧ (s.setJoin k j).net.obeyEpoch = s.net.obeyEpoch := ⟨rfl, rfl⟩

@[simp] theorem State.setHashMm_join (s : State) (k : Nat) (on : Bool) (b : Nat) : (s.setHashMm k on).join b = s.join b := rfl

@[simp] theorem State.setHashMm_frm (s : State) (k : Nat) (on : Bool) : (s.setHashMm k on).frm = s.frm := rfl

@[simp] theorem State.setHashMm_csmInFrame (s : State) (k : Nat) (on : Bool) (b : Nat) (c : Csm) :
    (s.setHashMm k on).csmInFrame b c = s.csmInFrame b c := rfl

@[simp] theorem State.setHashMm_timeSet (s : State) (k : Nat) (on : Bool) : (s.setHashMm k on).timeSet = s.timeSet := rfl

theorem State.setJoin_of_decided {s : State} {k : Nat} {j : Join} (h : j.decided = true) : (s.setJoin k j).join k = j :=
  State.setJoin_ne _ _ _ fun he => by rw [he] at h; exact nomatch h

theorem State.setJoin_of_st {s : State} {k : Nat} {j : Join} (h : j.st ≠ .listen) : (s.setJoin k j).join k = j :=
  State.setJoin_ne _ _ _ fun he => h (by rw [he])

/-- Of the network part a reception changes the error flag of its port and the frame repeated. -/
theorem State.rxFrame_net (s : State) (b t : Nat) (f : List Byte) (err : Bool) :
    ∃ ports rep, (s.rxFrame b t f err).net = { s.net with ports := ports, rep := rep } := by
  have hrelay : ∀ (s : State), ∃ rep, (s.relay b t f).net = { s.net with rep := rep } := by
    intro s
    unfold State.relay
    dsimp only
    split
    · exact ⟨_, rfl⟩
    · exact ⟨_, by rw [(State.bwFrame_only _ _ _ _).out .net rfl]⟩
  have herr : ∀ (s : State), ∃ ports, (if err then s.setPort b { s.port b with pcsErr := true } else s).net = { s.net with ports := ports } := by
    intro s
    split
    · exact ⟨_, rfl⟩
    · exact ⟨_, rfl⟩
  unfold State.rxFrame
  dsimp only
  obtain ⟨ports, hports⟩ := herr ((s.goto (t + wireB f * s.tB)).bwFrame b 0 f.length)
  obtain ⟨rep, hrep⟩ := hrelay (if err then ((s.goto (t + wireB f * s.tB)).bwFrame b 0 f.length).setPort b
    { ((s.goto (t + wireB f * s.tB)).bwFrame b 0 f.length).port b with pcsErr := true }
    else (s.goto (t + wireB f * s.tB)).bwFrame b 0 f.length)
  refine ⟨ports, rep, ?_⟩
  rw [hrep, hports]
  simp

/-! ## Coldstart -/

theorem State.headStart_begins (s : State) (t : Nat) : (s.headStart t).frm.run = true ∧ (s.headStart t).frm.first = true ∧
    (s.headStart t).frm.frame = 0 ∧ (s.headStart t).frm.t0 = t ∧ (s.headStart t).net.epoch = 1 ∧ (s.headStart t).net.cs = .early :=
  ⟨rfl, rfl, rfl, rfl, rfl, rfl⟩

/-- A part that heard its pair's head takes the standby role. -/
theorem State.standbyRole_frm {s : State} (h : s.frm.role = .head) : s.standbyRole.frm.role = .standby ∧
    s.standbyRole.frm.run = false ∧ s.standbyRole.frm.tsync = false := by
  refine ⟨?_, rfl, rfl⟩
  have hne : ¬s.frm.role = .standby := by rw [h]; decide
  show (s.setRole .standby).frm.role = .standby
  rw [State.setRole, if_neg hne, (State.irq_only _ _).out .frm rfl]

theorem coldstartListensFirst : ColdstartListensFirst := by
  have hexp : ∀ s : State, s.net.cs = .listening ∨ s.net.cs = .silent → exec .listenWindowExpiry s = .next
      (if (s.goto s.net.csEnd).net.csSeen then (s.goto s.net.csEnd).yieldStart .silent (s.goto s.net.csEnd).net.csEnd
        else (s.goto s.net.csEnd).headStart (s.goto s.net.csEnd).net.csEnd) :=
    fun s hcs => congrArg Host.Outcome.next (if_pos hcs)
  have hkeep : ∀ s : State, (s.goto s.net.csEnd).net = s.net := fun s => by simp
  refine ⟨fun s hrun hrole hcs => ⟨_, congrArg Host.Outcome.next (if_pos ⟨hrun, hrole, hcs⟩), rfl, rfl, rfl⟩, fun s hcs hseen => ?_,
    fun s hcs hseen hsolo => ?_, fun s hcs hseen hpair hpeer hhead => ?_⟩ <;> rw [hexp s hcs, hkeep, hseen]
  · rw [if_neg Bool.false_ne_true]
    exact ⟨_, rfl, State.headStart_begins _ _⟩
  · have hyield : ¬((s.goto s.net.csEnd).paired = true ∧ (s.goto s.net.csEnd).net.peerId = (s.goto s.net.csEnd).peer) := by
      simp [State.paired] at hsolo ⊢
      exact fun h => absurd h hsolo
    rw [if_pos rfl, State.yieldStart, if_neg hyield]
    refine ⟨_, rfl, ?_, ?_, State.raiseDev_hasEvent _ _ _⟩
    · rw [(State.raiseDev_only _ _ _).out .net rfl]
      rfl
    · rw [(State.raiseDev_only _ _ _).out .frm rfl]
      simp [State.listen]
  · have hyield : (s.goto s.net.csEnd).paired = true ∧ (s.goto s.net.csEnd).net.peerId = (s.goto s.net.csEnd).peer := by
      simp only [State.paired, State.peer, State.goto_par, State.goto_pn, hkeep] at hpair hpeer ⊢
      exact ⟨hpair, hpeer⟩
    rw [if_pos rfl, State.yieldStart, if_pos hyield]
    refine ⟨_, rfl, State.standbyRole_frm ?_⟩
    simpa using hhead

/-! ## The CSM in LISTEN, SYNC and HOLD -/

/-- A part in LISTEN takes its head from a well-formed CSM, and its time where no branch has set it. -/
theorem State.joinListen_takes (s : State) (k : Nat) (c : Csm) : ((s.joinListen k c).join k).st = .settle ∧
    ((s.joinListen k c).join k).settleN = c.fcnt ∧ (s.joinListen k c).net.obeyId = c.headId ∧
    (s.joinListen k c).net.obeyEpoch = c.epoch ∧
    (s.timeSet = false → (s.joinListen k c).frm.frame = c.fcnt ∧ (s.joinListen k c).frm.run = true ∧
      (s.joinListen k c).frm.tsync = true ∧ (s.joinListen k c).frm.t0 = 5 * c.t0.toNat) ∧
    (s.timeSet = true → (s.joinListen k c).frm = s.frm) := by
  unfold State.joinListen
  dsimp only
  rw [State.setJoin_of_decided rfl]
  cases hset : s.timeSet
  · simp [nsT]
  · simp

/-- In SYNC or HOLD a CSM inside the window of its frame is one of the candidates. -/
theorem State.hearCsm_keeps {s : State} {k : Nat} {c : Csm} (hst : (s.join k).st = .sync ∨ (s.join k).st = .hold)
    (hin : s.csmInFrame k c = true) (hdec : (s.join k).decided = false) :
    (s.hearCsm k c).join k = { s.join k with cands := (s.join k).cands ++ [c] } ∧ (s.hearCsm k c).frm = s.frm := by
  have hbreak : ¬s.breaksSettle k c = true := by
    rcases hst with h | h <;> simp [State.breaksSettle, h]
  have hkeep : (s.csmInFrame k c && !(s.join k).decided) = true := by rw [hin, hdec]; rfl
  unfold State.hearCsm
  dsimp only
  rw [if_neg hbreak, if_pos hkeep, State.setJoin_of_st]
  · exact ⟨rfl, rfl⟩
  · rcases hst with h | h <;> simp [h]

/-- The valid CSM taken is obeyed: SYNC, and no miss stands. -/
theorem State.takeCsm_obeys (s : State) (k : Nat) (c : Csm) : ((s.takeCsm k c).join k).st = .sync ∧
    ((s.takeCsm k c).join k).misses = 0 ∧ ((s.takeCsm k c).join k).kept = some c ∧
    (s.takeCsm k c).net.obeyId = c.headId ∧ (s.takeCsm k c).net.obeyEpoch = c.epoch := by
  have hcor : ∀ (s : State) (e : Int), (s.correct k e).net.joins = s.net.joins ∧ (s.correct k e).net.obeyId = s.net.obeyId ∧
      (s.correct k e).net.obeyEpoch = s.net.obeyEpoch := by
    intro s e
    unfold State.correct
    dsimp only
    split <;> exact ⟨rfl, rfl, rfl⟩
  unfold State.takeCsm
  dsimp only
  rw [State.join_congr (hcor _ _).1, (hcor _ _).2.1, (hcor _ _).2.2]
  have hset : ∀ (j : Join) n r, j.st = .sync → State.join { s.setJoin k j with net := { (s.setJoin k j).net with
      obeyId := c.headId, obeyEpoch := c.epoch, epoch := c.epoch, calve := c.calve, noDyn := n }, red := r } k = j := fun j n r hj =>
    State.setJoin_of_st (s := s) (by rw [hj]; decide)
  rw [hset]
  exacts [⟨rfl, rfl, rfl, rfl, rfl⟩, rfl]

/-- Judging the frame leaves the network part, and every event that stands. -/
theorem State.silentCheck_keeps (s : State) : s.silentCheck.net = s.net ∧ s.silentCheck.frm = s.frm ∧
    ∀ code obj, s.hasEvent code obj → s.silentCheck.hasEvent code obj := by
  have hirq : ∀ (s : State) (n : Nat), (s.setTk n).evt.queue = s.evt.queue := by
    intro s n
    unfold State.setTk
    split
    · rfl
    · obtain ⟨ms, hms⟩ := State.irq_evt { s with red := { s.red with tkStep := n } } 7
      rw [hms]
  have hdec : ∀ (s : State) code obj, s.hasEvent code obj → s.takeoverDecision.hasEvent code obj := by
    intro s code obj h
    unfold State.takeoverDecision
    split
    · exact State.hasEvent_raise _ _ _ _ _ _ _ (State.hasEvent_of_evt (s := s) rfl h)
    · refine State.hasEvent_of_evt ?_ h
      rw [(State.connTxStart_only _).out .evt rfl]
  refine ⟨(State.silentCheck_only s).out .net rfl, (State.silentCheck_only s).out .frm rfl, fun code obj h => ?_⟩
  unfold State.silentCheck
  dsimp only
  split
  · exact h
  · split
    · exact State.hasEvent_of_evt (hirq _ _) h
    · split
      · split
        · exact hdec _ _ _ (State.hasEvent_of_evt (hirq _ _) h)
        · exact State.hasEvent_of_evt (hirq _ _) (hdec _ _ _ (State.hasEvent_of_evt (hirq _ _) h))
      · exact State.hasEvent_of_evt (hirq _ _) h

/-- What a follower does with a well-formed CSM whose bytes arrived intact, no longer mute. -/
theorem execCsmReceived_wellFormed {s : State} {b : Fin 8} {f : List Byte} {t : Nat} (hfol : s.follows = true) (hmute : s.net.muteTo ≤ t)
    (hwf : (s.rxFrame b t f false).csmWellFormed (s.joinKey b) f = true) :
    let y := (s.rxFrame b t f false).setHashMm (s.joinKey b) false
    let c := { csmOf f (t + 8 * (s.rxFrame b t f false).tB) with port := b }
    exec (.csmReceived b f ⟨t, false⟩) s =
      .next (if (y.join (s.joinKey b)).st = .listen then y.joinListen (s.joinKey b) c else y.hearCsm (s.joinKey b) c) := by
  have hrun : ¬(!s.follows) = true := by simp [hfol]
  have hloud : ¬(false = true ∨ t < (s.rxFrame b t f false).net.muteTo) := by
    obtain ⟨ports, rep, hnet⟩ := State.rxFrame_net s b t f false
    simp [hnet, hmute]
  exact congrArg Host.Outcome.next ((if_neg hrun).trans ((if_neg hloud).trans (if_pos hwf)))

/-- A CSM inside the window of its frame is heard in SYNC and HOLD, and gives its head to a part in LISTEN. -/
theorem csmReceivedMovesTheJoinMachine {s : State} {b : Fin 8} {f : List Byte} {t : Nat} (hfol : s.follows = true)
    (hmute : s.net.muteTo ≤ t) (hwf : (s.rxFrame b t f false).csmWellFormed (s.joinKey b) f = true) :
    let k := s.joinKey b
    let x := s.rxFrame b t f false
    let c := { csmOf f (t + 8 * x.tB) with port := b }
    ((x.join k).st = .listen →
      ∃ u, exec (.csmReceived b f ⟨t, false⟩) s = .next u ∧ (u.join k).st = .settle ∧ (u.join k).settleN = c.fcnt ∧
        u.net.obeyId = c.headId ∧ u.net.obeyEpoch = c.epoch ∧
        (x.timeSet = false → u.frm.frame = c.fcnt ∧ u.frm.run = true ∧ u.frm.tsync = true ∧ u.frm.t0 = 5 * c.t0.toNat) ∧
        (x.timeSet = true → u.frm = x.frm)) ∧
    ((x.join k).st = .sync ∨ (x.join k).st = .hold → x.csmInFrame k c = true → (x.join k).decided = false →
      ∃ u, exec (.csmReceived b f ⟨t, false⟩) s = .next u ∧
        u.join k = { x.join k with cands := (x.join k).cands ++ [c] } ∧ u.frm = x.frm) := by
  intro k x c
  rw [execCsmReceived_wellFormed hfol hmute hwf]
  refine ⟨fun hst => ?_, fun hst hin hdec => ?_⟩
  · have htakes := State.joinListen_takes (x.setHashMm k false) k c
    rw [State.setHashMm_timeSet, State.setHashMm_frm] at htakes
    rw [State.setHashMm_join, if_pos hst]
    exact ⟨_, rfl, htakes⟩
  · have hkeeps := State.hearCsm_keeps (s := x.setHashMm k false) (k := k) (c := c) (by rwa [State.setHashMm_join])
      (by rwa [State.setHashMm_csmInFrame]) (by rwa [State.setHashMm_join])
    rw [State.setHashMm_join, State.setHashMm_frm] at hkeeps
    have hnot : ¬(x.join k).st = .listen := by rcases hst with h | h <;> rw [h] <;> decide
    rw [State.setHashMm_join, if_neg hnot]
    exact ⟨_, rfl, hkeeps⟩

/-- The present frame's choice, where it has not been made: its candidates are dropped, and the choice is noted. -/
def State.choiceMade (s : State) (k : Nat) : State := s.setJoin k { s.join k with cands := [], decided := true }

theorem State.choiceMade_join (s : State) (k : Nat) : (s.choiceMade k).join k = { s.join k with cands := [], decided := true } :=
  State.setJoin_of_decided rfl

/-- The valid CSM found at the window's close is taken in SYNC and HOLD. -/
theorem State.decideCsm_takes {s : State} {k : Nat} {c : Csm} (hst : (s.join k).st = .sync ∨ (s.join k).st = .hold)
    (hdec : (s.join k).decided = false) (hpick : (pickCsm (s.join k).cands).filter ((s.choiceMade k).csmValid k) = some c) :
    s.decideCsm k = (s.choiceMade k).takeCsm k c := by
  unfold State.choiceMade at hpick ⊢
  unfold State.decideCsm
  rcases hst with h | h <;> simp only [h] at hpick ⊢ <;> simp only [hdec, hpick, Bool.false_eq_true, if_false]

/-- The fourth miss leads a part back into LISTEN, with its event. -/
theorem State.loseSync_listens {s : State} {k : Nat} (h : (s.join k).decided = true) :
    ((s.loseSync k).join k).st = .listen ∧ (s.loseSync k).hasEvent evSyncLoss k := by
  unfold State.loseSync
  refine ⟨?_, State.raise_hasEvent _ _ _ _ _⟩
  rw [State.join, (State.raise_only _ _ _ _ _).out .net rfl]
  change ((s.setJoin k { s.join k with st := .listen, misses := 0, block := false, kept := none, cands := [], syncRun := 0 }).join k).st = _
  rw [State.setJoin_of_decided (by exact h)]

/-- Without a valid CSM a miss is counted, and the fourth in a row loses SYNC. -/
theorem State.decideCsm_misses {s : State} {k : Nat} (hdec : (s.join k).decided = false)
    (hpick : (pickCsm (s.join k).cands).filter ((s.choiceMade k).csmValid k) = none) :
    ((s.join k).st = .sync → ((s.decideCsm k).join k).st = .hold ∧ ((s.decideCsm k).join k).misses = 1) ∧
    ((s.join k).st = .hold → (s.join k).misses < 3 →
      ((s.decideCsm k).join k).st = .hold ∧ ((s.decideCsm k).join k).misses = (s.join k).misses + 1) ∧
    ((s.join k).st = .hold → 3 ≤ (s.join k).misses →
      ((s.decideCsm k).join k).st = .listen ∧ (s.decideCsm k).hasEvent evSyncLoss k) := by
  unfold State.choiceMade at hpick
  unfold State.decideCsm
  refine ⟨fun h => ?_, fun h hm => ?_, fun h hm => ?_⟩ <;> simp only [h] at hpick ⊢ <;>
    simp only [hdec, hpick, Bool.false_eq_true, if_false]
  · simp [State.setJoin_of_decided]
  · simp [State.setJoin_of_decided, hm]
  · rw [if_neg (by omega)]
    exact State.loseSync_listens (by rw [State.setJoin_of_decided rfl])

/-- What makes a CSM valid for the part does not change with the time, nor with the choice itself. -/
theorem State.choiceMade_csmValid (s : State) (t k : Nat) : ((s.goto t).choiceMade k).csmValid k = s.csmValid k := by
  have hjoin : ((s.goto t).choiceMade k).join k = { s.join k with cands := [], decided := true } := by
    rw [State.choiceMade_join, State.goto_join]
  have hdelay : ∀ port, ((s.goto t).choiceMade k).ownDelay k port = s.ownDelay k port := by
    intro port
    simp only [State.ownDelay, hjoin]
    simp [State.choiceMade, State.pathDelay, State.endDelay, State.nodePar, State.nodeInst, State.nS, State.pn, State.par]
  funext c
  simp only [State.csmValid, State.csmInFrame, State.expectCsm, hdelay]
  simp [State.choiceMade, State.tB, State.pn, State.par]

/-- What a follower does at the close of a window: the choice is made, the frame judged. -/
theorem execCsmWindowClose_decide {s : State} {b : Fin 8} (hfol : s.follows = true) (hrun : s.frm.run = true)
    (hwin : s.red.winDone.getLsbD (s.joinKey b) = false) :
    ∃ r, exec (.csmWindowClose b) s =
      .next { (s.goto (s.windowEnd (s.joinKey b))).decideCsm (s.joinKey b) with red := r }.silentCheck := by
  have hnot : ¬(!s.follows ∨ !s.frm.run ∨ s.red.winDone.getLsbD (s.joinKey b)) := by simp [hfol, hrun, hwin]
  exact ⟨_, congrArg Host.Outcome.next (if_neg hnot)⟩

theorem csmsMoveTheJoinMachine : CsmsMoveTheJoinMachine := by
  refine ⟨?_, ?_⟩
  · intro s b f t hfol hmute k x c hwf
    exact csmReceivedMovesTheJoinMachine hfol hmute hwf
  intro s b hfol hrun k j hwin hdec
  obtain ⟨r, hex⟩ := execCsmWindowClose_decide hfol hrun hwin
  set w := s.goto (s.windowEnd k) with hw
  have hjoin : w.join k = j := State.goto_join _ _ _
  obtain ⟨hnet, -, hev⟩ := State.silentCheck_keeps { w.decideCsm k with red := r }
  have hdecw : (w.join k).decided = false := by rw [hjoin]; exact hdec
  refine ⟨fun c hst hpick hval => ⟨_, hex, ?_⟩, fun hnone => ⟨_, hex, ?_⟩⟩ <;>
    rw [State.join_congr (congrArg Net.joins hnet)]
  · have hchoice : (pickCsm (w.join k).cands).filter ((w.choiceMade k).csmValid k) = some c := by
      rw [hw, State.choiceMade_csmValid, ← hw, hjoin, hpick]
      simp [hval]
    have htakes := State.takeCsm_obeys (w.choiceMade k) k c
    rw [← State.decideCsm_takes (by rw [hjoin]; exact hst) hdecw hchoice] at htakes
    rw [hnet]
    exact htakes
  · have hchoice : (pickCsm (w.join k).cands).filter ((w.choiceMade k).csmValid k) = none := by
      rw [hw, State.choiceMade_csmValid, ← hw, hjoin, hnone]
    obtain ⟨hsync, hhold, hlost⟩ := State.decideCsm_misses hdecw hchoice
    rw [hjoin] at hsync hhold hlost
    exact ⟨hsync, hhold, fun hst hm => (hlost hst hm).imp_right (hev _ _ ·)⟩

/-- Settles O15. -/
theorem cyclesStartAndAreJoined : Obligations.CyclesStartAndAreJoined := ⟨coldstartListensFirst, csmsMoveTheJoinMachine⟩

end Sys2Proof.Machine
end

section
/-! A path trim received where the table of join states is not in canonical form (R203). -/

namespace Sys2Proof.Machine

/-- A class-2 frame to position 0 of branch 0 with a path trim of 1. -/
def trimOneFrame : List Byte :=
  withFcs (List.replicate 14 0 ++ { ty := 5, pos := 0, fcnt := 0, epoch := 0 : Hdr }.bytes ++
    [2, 0, 0, 2] ++ beBytes 2 1 ++ List.replicate 36 0)

/-- A part in the node role whose table of join states lists branch 0 twice: the first entry waits for a trim of −1, the second,
which no read reaches as long as the first stands, for one of 5. -/
def doubleJoinState : State :=
  { frm := { role := .node }, net := { joins := [(0, { dTrimNew := -1 }), (0, { dTrimNew := 5 })] } }

/-- The trim takes the first entry to its default value, which leaves the table: the second is read. -/
theorem dlyTrimReceived_doubleJoinState :
    ∃ u, exec (.dlyTrimReceived 0 trimOneFrame 0) doubleJoinState = .next u ∧ (u.join (doubleJoinState.joinKey 0)).dTrimNew = 5 :=
  ⟨_, rfl, by decide +kernel⟩

/-- Refutes O16: the trim of 1 added to −1 is read back as 5. -/
theorem not_followersKeepTheirCycle : ¬ Obligations.FollowersKeepTheirCycle := by
  rintro ⟨⟨-, -, htrim⟩, -⟩
  obtain ⟨u, hu, hread⟩ := dlyTrimReceived_doubleJoinState
  obtain ⟨u', hu', hread'⟩ := htrim doubleJoinState 0 trimOneFrame 0 rfl (by decide +kernel) (by decide +kernel) (by decide +kernel)
    (by decide +kernel) (by decide +kernel)
  obtain rfl := Host.Outcome.next.inj (hu.symm.trans hu')
  exact absurd (hread.symm.trans hread') (by decide +kernel)

end Sys2Proof.Machine
end

section
/-! Task descriptors listed twice: a descriptor that returns to its unlisted value uncovers the next entry of its index
(R217, R219, R221). -/

namespace Sys2Proof.Machine

/-! ## A descriptor removed -/

/-- Descriptor 0 stands twice in the table: an idle thread, and behind it a critical kernel no read reaches. -/
def doubleThreadState : State :=
  { dsp := { tasks := [(0, { cls := .thread }), (0, { cls := .critical })] } }

theorem firmwareRemove_doubleThreadState :
    ∃ u, exec (.firmwareRelease ⟨0, .remove⟩) doubleThreadState = .next u ∧ (u.task 0).cls = .critical :=
  ⟨_, rfl, by decide +kernel⟩

/-- Refutes O17: the descriptor removed is read back as the critical kernel behind it. -/
theorem not_tasksAreReleasedAndDispatched : ¬ Obligations.TasksAreReleasedAndDispatched := by
  rintro ⟨-, -, -, -, hremove, -⟩
  obtain ⟨u, hu, hread⟩ := firmwareRemove_doubleThreadState
  obtain ⟨u', hu', hread'⟩ := hremove doubleThreadState 0 rfl rfl
  obtain rfl := Host.Outcome.next.inj (hu.symm.trans hu')
  rw [show u.task 0 = {} from hread'] at hread
  exact nomatch hread

/-! ## A counter that falls to zero -/

/-- Descriptor 0, bound to the local node, stands twice in the table: a counter of 1, and behind it one of 5. -/
def doubleCounterState : State :=
  { frm := { run := true }, dsp := { tasks := [(0, { dep := 1 }), (0, { dep := 5 })], bind := [(256, [0])] } }

theorem lnFeedbackValid_doubleCounterState :
    ∃ u, exec .lnFeedbackValid doubleCounterState = .next u ∧ (u.task 0).dep = 5 :=
  ⟨_, rfl, by decide +kernel⟩

/-- Refutes O18: the counter of 1 that falls by one is read back as 5. -/
theorem not_dependencesAndOverrunsAreCounted : ¬ Obligations.DependencesAndOverrunsAreCounted := by
  rintro ⟨⟨-, hlocal, -⟩, -⟩
  obtain ⟨u, hu, hread⟩ := lnFeedbackValid_doubleCounterState
  obtain ⟨u', hu', -, hread'⟩ := hlocal doubleCounterState 0 rfl rfl (by decide) rfl
  obtain rfl := Host.Outcome.next.inj (hu.symm.trans hu')
  exact absurd (hread.symm.trans hread') (by decide)

end Sys2Proof.Machine
end

section
/-! Threads on their firmware processors: pre-emption, blocking, yield and completion (R226, R227). -/

namespace Sys2Proof.Machine

/-! ## What the passing of time leaves of FP3's clock gating -/

theorem State.droopCycle_fp3Gated (s : State) : s.droopCycle.pwr.fp3Gated = s.pwr.fp3Gated := by
  unfold State.droopCycle
  dsimp only
  split
  · rw [(State.cycles_only _ _).out .pwr rfl, (State.pulse_only _ _).out .pwr rfl]
  · rw [(State.cycles_only _ _).out .pwr rfl]

theorem State.droopRun_fp3Gated (n : Nat) : ∀ (s : State) (acc : Nat), (s.droopRun n acc).1.pwr.fp3Gated = s.pwr.fp3Gated := by
  induction n with
  | zero => exact fun _ _ => rfl
  | succ n ih =>
    intro s acc
    rw [State.droopRun]
    generalize (if (recentStretch s.pwr.hist s.pwr.periods).length < 200 then 50 else 25) = len
    split
    · rfl
    · rw [ih, State.droopCycle_fp3Gated]

theorem State.holdRun_fp3Gated (s : State) (acc : Nat) : (s.holdRun acc).1.pwr.fp3Gated = s.pwr.fp3Gated := by
  unfold State.holdRun
  dsimp only
  split
  · rfl
  · rw [(State.cycles_only _ _).out .pwr rfl]
    rfl

theorem State.coreTime_fp3Gated (s : State) (dt : Nat) : (s.coreTime dt).pwr.fp3Gated = s.pwr.fp3Gated := by
  unfold State.coreTime
  split
  · rfl
  · dsimp only
    split
    · exact State.holdRun_fp3Gated _ _
    · split
      · exact State.droopRun_fp3Gated _ _ _
      · rw [(State.cycles_only _ _).out .pwr rfl]

@[simp] theorem State.goto_fp3Gated (s : State) (t : Nat) : (s.goto t).pwr.fp3Gated = s.pwr.fp3Gated := by
  have hadv : (s.advance t).pwr.fp3Gated = s.pwr.fp3Gated := State.coreTime_fp3Gated _ _
  unfold State.goto
  dsimp only
  split
  · rw [(State.markEv_only _ _ _).out .pwr rfl]
    split
    · rw [(State.raiseDev_only _ _ _).out .pwr rfl]
      exact hadv
    · exact hadv
  · exact hadv

/-! ## Decisions and processors -/

/-- A decision recorded changes the trace of the dispatcher and nothing else of it. -/
@[simp] theorem State.traceIn_dsp (s : State) (n kind d server : Nat) : (s.traceIn n kind d server).dsp.tasks = s.dsp.tasks ∧
    (s.traceIn n kind d server).dsp.ready = s.dsp.ready ∧ (s.traceIn n kind d server).dsp.delays = s.dsp.delays ∧
    (s.traceIn n kind d server).dsp.running = s.dsp.running ∧ (s.traceIn n kind d server).dsp.preempt = s.dsp.preempt ∧
    (s.traceIn n kind d server).dsp.tDone = s.dsp.tDone := by
  have hlose : ∀ s : State, s.trcLose.dsp = { s.dsp with lost := satInc s.dsp.lost } := fun s => by
    rw [State.trcLose, (State.pulse_only _ _).out .dsp rfl]
  unfold State.traceIn
  split
  · simp
  · split
    · simp [hlose]
    · refine State.of_ite (P := fun u => u.dsp.tasks = s.dsp.tasks ∧ u.dsp.ready = s.dsp.ready ∧ u.dsp.delays = s.dsp.delays ∧
        u.dsp.running = s.dsp.running ∧ u.dsp.preempt = s.dsp.preempt ∧ u.dsp.tDone = s.dsp.tDone) ?_ ?_
      · rw [(State.pulse_only _ _).out .dsp rfl]
        exact ⟨rfl, rfl, rfl, rfl, rfl, rfl⟩
      · rw [hlose]
        exact ⟨rfl, rfl, rfl, rfl, rfl, rfl⟩

theorem State.task_congr {s t : State} (h : t.dsp.tasks = s.dsp.tasks) (d : Nat) : t.task d = s.task d := by
  rw [State.task, h, State.task]

theorem Task.ne_default_of_thread {x : Task} (h : x.cls = .thread) : x ≠ {} := fun he => by rw [he] at h; exact nomatch h

theorem State.setTask_of_thread {s : State} {d : Nat} {x : Task} (h : x.cls = .thread) : (s.setTask d x).task d = x :=
  State.setTask_ne _ _ _ (Task.ne_default_of_thread h)

/-- A processor that takes a thread leaves every task that is not at the head of the list it takes it from, the delays, the
pre-emptions and the completions counted. -/
theorem State.startThread_dsp (s : State) (n fp d : Nat) : (s.startThread n fp).dsp.delays = s.dsp.delays ∧
    (s.startThread n fp).dsp.preempt = s.dsp.preempt ∧ (s.startThread n fp).dsp.tDone = s.dsp.tDone ∧
    ((∀ l r, s.topLevel fp = some l → s.readyList (8 + 8 * fp + l) ≠ d :: r) → (s.startThread n fp).task d = s.task d) := by
  unfold State.startThread
  split
  · exact ⟨rfl, rfl, rfl, fun _ => rfl⟩
  · split
    · exact ⟨rfl, rfl, rfl, fun _ => rfl⟩
    · next l hl =>
      split
      · exact ⟨rfl, rfl, rfl, fun _ => rfl⟩
      · next x r hx =>
        dsimp only
        refine ⟨?_, ?_, ?_, fun hd => ?_⟩
        · rw [(State.pulse_only _ _).out .dsp rfl]; simp [State.setTask, State.setReady]
        · rw [(State.pulse_only _ _).out .dsp rfl]; simp [State.setTask, State.setReady]
        · rw [(State.pulse_only _ _).out .dsp rfl]; simp [State.setTask, State.setReady]
        · have hne : d ≠ x := by rintro rfl; exact hd l r hl hx
          rw [State.task_congr (s := (s.setReady (8 + 8 * fp + l) r).setTask x
              { (s.setReady (8 + 8 * fp + l) r).task x with st := .run }), State.setTask_other _ _ _ _ hne]
          · rfl
          · rw [(State.pulse_only _ _).out .dsp rfl]; simp

/-! ## Pre-emption -/

theorem State.runningOn_congr {s t : State} (hrun : t.dsp.running = s.dsp.running) (hpwr : t.pwr.fp3Gated = s.pwr.fp3Gated)
    (fp : Nat) : t.runningOn fp = s.runningOn fp := by
  rw [State.runningOn, hrun, hpwr, State.runningOn]

theorem readyKey_thread {t : Task} (h : t.cls = .thread) : readyKey t = 8 + 8 * t.affin + t.level := if_pos h

/-- The thread taken off its processor stands in its list, and the pre-emption is counted. -/
def State.preempted (s : State) (fp : Fin 4) (d : Nat) : State :=
  let t := s.task d
  let s := s.setTask d { t with st := .preempted }
  let s := (s.setReady (readyKey t) (d :: s.readyList (readyKey t))).noteDepth t.level
  let s := { s with dsp := { s.dsp with preempt := tmod 0 fp (fun n => satAdd 8 n 1) s.dsp.preempt } }
  ((s.idleFp fp).trace 6 d (8 + fp)).pulse (0x12 + 4 * fp)

theorem State.preempted_dsp (s : State) (fp : Fin 4) (d : Nat) :
    (s.preempted fp d).dsp.tasks = tset {} d { s.task d with st := .preempted } s.dsp.tasks ∧
    (s.preempted fp d).dsp.ready = tset [] (readyKey (s.task d)) (d :: s.readyList (readyKey (s.task d))) s.dsp.ready ∧
    (s.preempted fp d).dsp.preempt = tmod 0 fp (fun n => satAdd 8 n 1) s.dsp.preempt := by
  unfold State.preempted State.trace
  dsimp only
  rw [(State.pulse_only _ _).out .dsp rfl]
  simp only [State.traceIn_dsp]
  exact ⟨rfl, rfl, rfl⟩

/-- A list other than the pre-empted thread's stands. -/
theorem State.preempted_readyList {s : State} {fp : Fin 4} {d k : Nat} (h : k ≠ readyKey (s.task d)) :
    (s.preempted fp d).readyList k = s.readyList k := by
  rw [State.readyList, (s.preempted_dsp fp d).2.1, tget_tset_other _ _ _ _ _ h, State.readyList]

theorem State.topLevel_eq_some {s : State} {fp l : Nat} : s.topLevel fp = some l ↔
    2 ≤ l ∧ l < 8 ∧ s.readyList (8 + 8 * fp + l) ≠ [] ∧ ∀ j < l, 2 ≤ j → s.readyList (8 + 8 * fp + j) = [] := by
  simp only [State.topLevel, List.find?_range_eq_some]
  simp [or_iff_not_imp_left, Nat.succ_le_iff]
  tauto

/-- The level that goes first is the same after a thread of a lower level has been pre-empted. -/
theorem State.preempted_topLevel {s : State} {fp : Fin 4} {d l l' : Nat} (hcls : (s.task d).cls = .thread)
    (haff : (s.task d).affin = fp) (hl : s.topLevel fp = some l) (hlow : l < (s.task d).level)
    (hl' : (s.preempted fp d).topLevel fp = some l') : l' = l := by
  have hsame : ∀ j, j < (s.task d).level → (s.preempted fp d).readyList (8 + 8 * fp + j) = s.readyList (8 + 8 * fp + j) :=
    fun j hj => State.preempted_readyList (by rw [readyKey_thread hcls, haff]; omega)
  obtain ⟨h2, -, hne, hfirst⟩ := State.topLevel_eq_some.mp hl
  obtain ⟨h2', -, hne', hfirst'⟩ := State.topLevel_eq_some.mp hl'
  rcases Nat.lt_trichotomy l' l with hlt | heq | hgt
  · rw [hsame l' (by omega)] at hne'
    exact absurd (hfirst l' hlt h2') hne'
  · exact heq
  · have hempty := hfirst' l hgt h2
    rw [hsame l hlow] at hempty
    exact absurd hempty hne

theorem threadPreempts {s : State} {fp : Fin 4} {d l d' : Nat} {r : List Nat} (hrun : s.runningOn fp = some d)
    (htop : s.topLevel fp = some l) (hlow : l < (s.task d).level) (hcls : (s.task d).cls = .thread) (haff : (s.task d).affin = fp)
    (hlist : s.readyList (8 + 8 * fp + l) = d' :: r) (hne : d' ≠ d) :
    ∃ u, exec (.threadPreempt fp) s = .next u ∧ (u.task d).st = .preempted ∧
      tget 0 u.dsp.preempt fp = satAdd 8 (tget 0 s.dsp.preempt fp) 1 := by
  have hex : exec (.threadPreempt fp) s = .next ((s.preempted fp d).startThread 0 fp) := by
    change execThreadPreempt fp s = _
    unfold execThreadPreempt
    rw [hrun, htop]
    exact congrArg Host.Outcome.next (if_pos hlow)
  obtain ⟨-, hpre, -, htask⟩ := State.startThread_dsp (s.preempted fp d) 0 fp d
  refine ⟨_, hex, ?_, ?_⟩
  · rw [htask, State.task, (s.preempted_dsp fp d).1, tget_tset_of_ne]
    · exact fun h => nomatch congrArg Task.st h
    · intro l' r' hl' hd
      rw [State.preempted_topLevel hcls haff htop hlow hl', State.preempted_readyList, hlist] at hd
      · exact hne (List.cons.inj hd).1
      · rw [readyKey_thread hcls, haff]; omega
  · rw [hpre, (s.preempted_dsp fp d).2.2]
    exact tget_tset_of_ne _ _ _ _ (by dsimp only [satAdd]; omega)

/-! ## Blocking -/

theorem State.readyList_congr {s t : State} (h : t.dsp.ready = s.dsp.ready) (k : Nat) : t.readyList k = s.readyList k := by
  rw [State.readyList, h, State.readyList]

/-- A processor leaves a task that stands in no ready list. -/
theorem State.startThread_unlisted {s : State} {n fp d : Nat} (h : ∀ k, d ∉ s.readyList k) :
    (s.startThread n fp).task d = s.task d :=
  (State.startThread_dsp s n fp d).2.2.2 fun _ _ _ hl => h _ (hl ▸ List.mem_cons_self)

theorem State.enterDelay_task (s : State) (d x : Nat) : (s.enterDelay d).task x = s.task x := rfl

/-- A thread that waits, on its DEP or on a timebase, keeps its counter, its timeout flag and its own delay. -/
theorem State.beginWait_waits {s : State} {d base delay : Nat} (hcls : (s.task d).cls = .thread) (hbase : base < 3)
    (h : (s.task d).dep ≠ 0 ∨ base ≠ 0) :
    let x := (s.beginWait d base delay).task d
    (x.st = (if (s.task d).dep = 0 then .delay else .wait) ∧ x.dep = (s.task d).dep ∧ x.tmo = (s.task d).tmo ∧
      x.tbase = (s.task d).tbase ∧ x.delay = (s.task d).delay) ∧
    (s.beginWait d base delay).dsp.ready = s.dsp.ready ∧
    (base = 0 → (s.beginWait d base delay).dsp.delays = s.dsp.delays) ∧
    (base ≠ 0 → d ∈ (s.beginWait d base delay).dsp.delays) := by
  unfold State.beginWait
  dsimp only
  cases hdue : s.dueOf base delay with
  | none =>
    have hzero : base = 0 := by
      have h12 : ¬(base = 1 ∨ base = 2) := by rintro (rfl | rfl) <;> exact nomatch hdue
      omega
    have hdep : (s.task d).dep ≠ 0 := h.resolve_right (not_not.mpr hzero)
    simp only [if_neg hdep]
    rw [State.setTask_of_thread (by exact hcls)]
    exact ⟨⟨rfl, rfl, rfl, rfl, rfl⟩, rfl, fun _ => rfl, fun hb => absurd hzero hb⟩
  | some at_ =>
    have hne : base ≠ 0 := by rintro rfl; exact nomatch hdue
    dsimp only
    rw [State.enterDelay_task, State.setTask_of_thread (by exact hcls)]
    exact ⟨⟨rfl, rfl, rfl, rfl, rfl⟩, rfl, fun hb => absurd hb hne, fun _ => by simp [State.enterDelay]⟩

theorem threadBlocks {s : State} {fp : Fin 4} {base : Fin 3} {delay t d : Nat} (hrun : s.runningOn fp = some d)
    (hcls : (s.task d).cls = .thread) (hlist : ∀ k, d ∉ s.readyList k) (h : (s.task d).dep ≠ 0 ∨ base ≠ 0) :
    ∃ u, exec (.threadBlock fp base delay t) s = .next u ∧ (u.task d).st = (if (s.task d).dep = 0 then .delay else .wait) ∧
      (u.task d).dep = (s.task d).dep ∧ (u.task d).tmo = (s.task d).tmo ∧ (u.task d).tbase = (s.task d).tbase ∧
      (u.task d).delay = (s.task d).delay ∧ s.frm.now ≤ u.frm.now ∧
      (base = 0 → u.dsp.delays = s.dsp.delays) ∧ (base ≠ 0 → d ∈ u.dsp.delays) := by
  have hex : exec (.threadBlock fp base delay t) s =
      .next ((((s.goto t).idleFp fp).beginWait d base (delay % 2 ^ 24)).startThread 0 fp) := by
    change execThreadBlock fp base delay t s = _
    unfold execThreadBlock
    rw [hrun]
  set w := (s.goto t).idleFp fp with hw
  have htask : w.task d = s.task d := State.task_congr (by simp [hw, State.idleFp]) d
  have hready : w.dsp.ready = s.dsp.ready := by simp [hw, State.idleFp]
  have hdelays : w.dsp.delays = s.dsp.delays := by simp [hw, State.idleFp]
  have hnow : (w.beginWait d base (delay % 2 ^ 24)).frm = (s.goto t).frm := (State.beginWait_only _ _ _ _).out .frm rfl
  have hb : (w.task d).dep ≠ 0 ∨ base.val ≠ 0 := by rw [htask]; exact h.imp_right (Fin.val_ne_of_ne ·)
  obtain ⟨⟨hst, hdep, htmo, htb, hdl⟩, hrd, h0, h1⟩ := State.beginWait_waits (delay := delay % 2 ^ 24) (by rw [htask]; exact hcls) base.isLt hb
  obtain ⟨hd, -, -, -⟩ := State.startThread_dsp (w.beginWait d base (delay % 2 ^ 24)) 0 fp d
  refine ⟨_, hex, ?_⟩
  rw [State.startThread_unlisted fun k => by rw [State.readyList_congr (hrd.trans hready)]; exact hlist k, hd, hst, hdep, htmo, htb, hdl,
    htask, (State.startThread_only _ _ _).out .frm rfl, hnow]
  refine ⟨rfl, rfl, rfl, rfl, rfl, by simp, fun hz => ?_, fun hz => h1 (Fin.val_ne_of_ne hz)⟩
  rw [h0 (by rw [hz]; rfl), hdelays]

/-! ## Yield -/

/-- A list whose first task became ready in an earlier cycle keeps it first when another enters. -/
theorem State.placeReady_head {s : State} {c d x : Nat} {r : List Nat} (h : (s.task x).readyCyc ≠ c) :
    ∃ r', s.placeReady c d (x :: r) = x :: r' := by
  have hb : (s.task x).behind c d x = false := by simp [Task.behind, h]
  have hdrop : ∀ l : List Nat, ∃ l', (l ++ [x]).dropWhile (fun x => (s.task x).behind c d x) = l' ++ [x] := by
    intro l
    induction l with
    | nil => exact ⟨[], by simp [hb]⟩
    | cons y l ih =>
      rw [List.cons_append, List.dropWhile_cons]
      split
      · exact ih
      · exact ⟨y :: l, rfl⟩
  obtain ⟨l', hl'⟩ := hdrop r.reverse
  unfold State.placeReady
  dsimp only
  rw [List.reverse_cons, hl', List.reverse_append]
  exact ⟨_, rfl⟩

/-- The descriptor of a thread that enters its list now. -/
def State.readied (s : State) (n d : Nat) : State :=
  s.setTask d { s.task d with st := .ready, readyAt := s.cycleTime n, due := none, readyCyc := s.prf.core + n, byExpiry := false }

theorem State.enterReady_dsp (s : State) (n d : Nat) : (s.enterReady n false d).dsp.tasks = (s.readied n d).dsp.tasks ∧
    (s.enterReady n false d).dsp.ready = tset [] (readyKey (s.task d))
      ((s.readied n d).placeReady (s.prf.core + n) d (s.readyList (readyKey (s.task d)))) s.dsp.ready := ⟨rfl, rfl⟩

/-- A thread that yields behind an earlier one of its level does not run at once: the processor takes another. -/
theorem State.startThread_enterReady {s : State} {fp d x : Nat} {r : List Nat} (hcls : (s.task d).cls = .thread)
    (hunl : ∀ k, d ∉ s.readyList k) (hlist : s.readyList (readyKey (s.task d)) = x :: r) (hcyc : (s.task x).readyCyc ≠ s.prf.core) :
    (((s.enterReady 0 false d).startThread 0 fp).task d).st = .ready := by
  obtain ⟨htasks, hready⟩ := State.enterReady_dsp s 0 d
  have hxd : x ≠ d := fun h => hunl _ (by rw [hlist, h]; exact List.mem_cons_self)
  have hx : (s.readied 0 d).task x = s.task x := State.setTask_other _ _ _ _ hxd
  obtain ⟨r', hplace⟩ := State.placeReady_head (s := s.readied 0 d) (c := s.prf.core + 0) (d := d) (r := r) (by rw [hx]; exact hcyc)
  rw [hlist, hplace] at hready
  obtain ⟨-, -, -, htask⟩ := State.startThread_dsp (s.enterReady 0 false d) 0 fp d
  rw [htask, State.task_congr htasks, State.readied, State.setTask_of_thread (by exact hcls)]
  intro l r'' _ hl
  rw [State.readyList, hready] at hl
  by_cases hk : 8 + 8 * fp + l = readyKey (s.task d)
  · rw [hk, tget_tset_of_ne _ _ _ _ (by simp)] at hl
    exact hxd (List.cons.inj hl).1
  · rw [tget_tset_other _ _ _ _ _ hk] at hl
    exact hunl (8 + 8 * fp + l) (by rw [State.readyList, hl]; exact List.mem_cons_self)

theorem threadYields {s : State} {fp : Fin 4} {d x : Nat} {r : List Nat} (hrun : s.runningOn fp = some d)
    (hcls : (s.task d).cls = .thread) (hunl : ∀ k, d ∉ s.readyList k) (hlist : s.readyList (readyKey (s.task d)) = x :: r)
    (hcyc : (s.task x).readyCyc ≠ s.prf.core) : ∃ u, exec (.threadYield fp) s = .next u ∧ (u.task d).st = .ready := by
  have hex : exec (.threadYield fp) s = .next (((s.idleFp fp).enterReady 0 false d).startThread 0 fp) := by
    change execThreadYield fp s = _
    unfold execThreadYield
    rw [hrun]
  exact ⟨_, hex, State.startThread_enterReady (s := s.idleFp fp) hcls hunl hlist hcyc⟩

theorem threadsGiveWay : ThreadsGiveWay :=
  ⟨fun _ _ _ _ _ _ hrun htop hlow hcls haff _ hlist hne => threadPreempts hrun htop hlow hcls haff hlist hne,
    fun _ _ _ _ _ _ hrun hcls hlist h => threadBlocks hrun hcls hlist h,
    fun _ _ _ _ _ hrun hcls hunl hlist hcyc => threadYields hrun hcls hunl hlist hcyc⟩

/-! ## Sub-ticks and completion -/

theorem subTicksCountMicroseconds : SubTicksCountMicroseconds := by
  intro s
  refine ⟨_, rfl, ?_, ?_⟩
  · show (State.pulseX _ 0x23).dsp.subTick + 1 = _
    rw [(State.pulseX_only _ _).out .dsp rfl]
    simp
  · show (State.pulseX _ 0x23).frm.now = _
    rw [(State.pulseX_only _ _).out .frm rfl]
    simp [usT]
    omega

/-- A thread without successors, none of whose instances waits, is idle when it completes, and counted. -/
theorem State.complete_thread {s : State} {d : Nat} (server : Nat) (hsucc : (s.task d).succ = []) (hagain : (s.task d).again = false) :
    (s.complete d server).dsp.tasks = tset {} d { s.task d with st := .idle } s.dsp.tasks ∧
    (s.complete d server).dsp.ready = s.dsp.ready ∧ (s.complete d server).dsp.tDone = s.dsp.tDone + 1 := by
  have htask : (s.trace 5 d server).task d = s.task d := State.task_congr (by simp [State.trace]) d
  have hnot : ¬(s.task d).again = true := by simp [hagain]
  unfold State.complete
  dsimp only
  rw [htask, hsucc, if_neg hnot]
  simp [State.decrements, State.setTask, State.trace]

theorem State.finishThread_idle {s : State} {fp d : Nat} (hrun : s.runningOn fp = some d) (hcls : (s.task d).cls = .thread)
    (hsucc : (s.task d).succ = []) (hagain : (s.task d).again = false) (hunl : ∀ k, d ∉ s.readyList k) :
    ((s.finishThread fp).task d).st = .idle ∧ (s.finishThread fp).dsp.tDone = s.dsp.tDone + 1 := by
  obtain ⟨htasks, hready, hdone⟩ := State.complete_thread (s := s.idleFp fp) (8 + fp) hsucc hagain
  have hfin : s.finishThread fp = ((s.idleFp fp).complete d (8 + fp)).startThread 0 fp := by rw [State.finishThread, hrun]
  rw [hfin, (State.startThread_dsp _ 0 fp d).2.2.1, hdone, State.startThread_unlisted fun k => by
    rw [State.readyList_congr hready]; exact hunl k]
  refine ⟨?_, rfl⟩
  rw [State.task, htasks, tget_tset_of_ne]
  exact Task.ne_default_of_thread hcls

/-- The work a frame-bound thread has done when it completes at t: the head's lines and profiles on FP1, the field scan on FP0. -/
def State.threadWork (s : State) (fp : Fin 4) (d t : Nat) : State :=
  let s := s.goto t
  let s := if fp = 1 ∧ (s.task d).period = 1 ∧ s.isHead then s.fp1Work else s
  if fp = 0 ∧ (s.task d).period = 1 then { s with fio := { s.fio with acked := true, ack := s.frm.frame } } else s

theorem State.threadWork_keeps (s : State) (fp : Fin 4) (d t : Nat) : (s.threadWork fp d t).dsp = s.dsp ∧
    (s.threadWork fp d t).pwr.fp3Gated = s.pwr.fp3Gated ∧ (s.threadWork fp d t).frm = (s.goto t).frm := by
  unfold State.threadWork
  dsimp only
  have hfp1 : ∀ (c : Prop) [Decidable c], (if c then (s.goto t).fp1Work else s.goto t).dsp = s.dsp ∧
      (if c then (s.goto t).fp1Work else s.goto t).pwr.fp3Gated = s.pwr.fp3Gated ∧
      (if c then (s.goto t).fp1Work else s.goto t).frm = (s.goto t).frm := by
    intro c _
    split
    · rw [(State.fp1Work_only _).out .dsp rfl, (State.fp1Work_only _).out .pwr rfl, (State.fp1Work_only _).out .frm rfl]
      exact ⟨by simp, by simp, rfl⟩
    · exact ⟨by simp, by simp, rfl⟩
  exact State.of_ite (P := fun u => u.dsp = _ ∧ u.pwr.fp3Gated = _ ∧ u.frm = _) (hfp1 _) (hfp1 _)

@[simp] theorem State.goto_task (s : State) (t d : Nat) : (s.goto t).task d = s.task d := State.task_congr (by simp) d

@[simp] theorem State.goto_isHead (s : State) (t : Nat) : (s.goto t).isHead = s.isHead := by simp [State.isHead]

theorem State.threadWork_lines (s : State) (fp : Fin 4) (d t : Nat) :
    (fp = 1 → (s.task d).period = 1 → s.isHead = true → (s.threadWork fp d t).axes = (s.goto t).fp1Work.axes ∧
      (s.threadWork fp d t).lines = (s.goto t).fp1Work.lines) ∧
    (fp ≠ 1 → (s.threadWork fp d t).axes = s.axes ∧ (s.threadWork fp d t).lines = s.lines) := by
  refine ⟨?_, fun h => ?_⟩
  · rintro rfl hper hhead
    simp [State.threadWork, hper, hhead]
  · simp only [State.threadWork, h, false_and, if_false]
    split <;> simp

theorem State.threadWork_fio (s : State) (fp : Fin 4) (d t : Nat) :
    (fp = 0 → (s.task d).period = 1 → (s.threadWork fp d t).fio.acked = true ∧ (s.threadWork fp d t).fio.ack = s.frm.frame) ∧
    (fp ≠ 0 → (s.threadWork fp d t).fio = s.fio) := by
  refine ⟨?_, fun h => ?_⟩
  · rintro rfl hper
    simp [State.threadWork, hper]
  · simp only [State.threadWork, h, false_and, if_false]
    split
    · rw [(State.fp1Work_only _).out .fio rfl]; simp
    · simp

theorem threadsComplete : ThreadsComplete := by
  intro s fp t d hrun hcls hsucc hagain hunl
  obtain ⟨hdsp, hgated, hfrm⟩ := s.threadWork_keeps fp d t
  obtain ⟨hl1, hl⟩ := s.threadWork_lines fp d t
  obtain ⟨hf0, hf⟩ := s.threadWork_fio fp d t
  have hex : exec (.threadComplete fp t) s = .next ((s.threadWork fp d t).finishThread fp) := by
    change execThreadComplete fp t s = _
    unfold execThreadComplete
    rw [hrun]
    rfl
  have htask : (s.threadWork fp d t).task d = s.task d := State.task_congr (congrArg Dsp.tasks hdsp) d
  have honly := State.finishThread_only (s.threadWork fp d t) fp
  obtain ⟨hidle, hdone⟩ := State.finishThread_idle (s := s.threadWork fp d t) (fp := fp) (d := d)
    ((State.runningOn_congr (congrArg Dsp.running hdsp) hgated fp).trans hrun) (htask ▸ hcls) (htask ▸ hsucc) (htask ▸ hagain)
    fun k => by rw [State.readyList_congr (congrArg Dsp.ready hdsp)]; exact hunl k
  refine ⟨_, hex, ?_, hidle, by rw [hdone, hdsp], ?_⟩
  · rw [honly.out .frm rfl, hfrm]
    simp
  · rw [honly.out .axes rfl, honly.out .lines rfl, honly.out .fio rfl]
    exact ⟨hl1, hl, hf0, hf⟩

/-- Settles O19. -/
theorem threadsRunAndComplete : Obligations.ThreadsRunAndComplete :=
  ⟨threadsGiveWay, subTicksCountMicroseconds, threadsComplete⟩

end Sys2Proof.Machine
end

section
/-! What completing kernels write to their axes and zones (R38, R44, R57, R110). -/

namespace Sys2Proof.Machine

/-! ## The phase of CK_CORE, and events that stand -/

theorem State.phase_congr {s t : State} (h : t.prf = s.prf) : t.phase = s.phase := by rw [State.phase, h, State.phase]

@[simp] theorem State.pulse_phase (s : State) (c : Nat) : (s.pulse c).phase = s.phase := rfl

theorem State.raiseCore_phase (s : State) (code obj groups : Nat) (data : List Byte) :
    (s.raiseCore code obj groups data).phase = s.phase := by
  unfold State.raiseCore
  dsimp only
  have hcap : ∀ (c : Prop) [Decidable c] (s : State) t, (if c then s.capTrigger 2 t else s).phase = s.phase := by
    intro c _ s t
    exact State.read_ite State.phase (State.phase_congr ((State.capTrigger_only _ _ _).out .prf rfl)) rfl
  have hlog : ∀ (c : Prop) [Decidable c] (s : State) k l m n d, (if c then s.log k l m n d else s).phase = s.phase := by
    intro c _ s k l m n d
    exact State.read_ite State.phase (State.phase_congr ((State.log_only _ _ _ _ _ _).out .prf rfl)) rfl
  rw [hcap, hlog]
  exact State.read_ite State.phase rfl rfl

@[simp] theorem State.raise_phase (s : State) (code obj groups : Nat) (data : List Byte) : (s.raise code obj groups data).phase = s.phase := by
  unfold State.raise
  dsimp only
  split
  · rw [State.phase_congr ((State.markEv_only _ _ _).out .prf rfl), State.raiseCore_phase, State.raiseCore_phase]
  · exact State.raiseCore_phase _ _ _ _ _

@[simp] theorem State.raiseOnce_phase (s : State) (code obj groups : Nat) (data : List Byte) :
    (s.raiseOnce code obj groups data).phase = s.phase :=
  State.read_ite State.phase rfl ((State.phase_congr ((State.markEv_only _ _ _).out .prf rfl)).trans (State.raise_phase _ _ _ _ _))

@[simp] theorem State.raiseAx_phase (s : State) (code i : Nat) (data : List Byte) : (s.raiseAx code i data).phase = s.phase :=
  State.raiseOnce_phase _ _ _ _ _

theorem State.hasEvent_ite {c : Prop} [Decidable c] {a b : State} {code obj : Nat} (ha : a.hasEvent code obj) (hb : b.hasEvent code obj) :
    (if c then a else b).hasEvent code obj := State.of_ite (P := fun u => u.hasEvent code obj) ha hb

theorem State.hasEvent_raiseOnce {s : State} {code obj : Nat} (c o g : Nat) (data : List Byte) (h : s.hasEvent code obj) :
    (s.raiseOnce c o g data).hasEvent code obj := by
  refine State.hasEvent_ite h ?_
  exact State.hasEvent_of_evt (s := s.raise c o g data) rfl (State.hasEvent_raise _ _ _ _ _ _ _ h)

theorem State.hasEvent_raiseDevOnce {s : State} {code obj : Nat} (c : Nat) (data : List Byte) (h : s.hasEvent code obj) :
    (s.raiseDevOnce c data).hasEvent code obj := State.hasEvent_raiseOnce _ _ _ _ h

/-- Two states with the same events hold the same. -/
theorem State.hasEvent_congr {s t : State} (h : t.evt = s.evt) (code obj : Nat) : t.hasEvent code obj ↔ s.hasEvent code obj := by
  rw [State.hasEvent, h, State.hasEvent]

theorem State.hasEvent_decrement {s : State} {code obj : Nat} (n d : Nat) (h : s.hasEvent code obj) :
    (s.decrement n d).hasEvent code obj := by
  have hpulse : ∀ c, (s.pulse c).hasEvent code obj := fun c => (State.hasEvent_congr ((State.pulse_only _ _).out .evt rfl) _ _).mpr h
  unfold State.decrement
  dsimp only
  refine State.hasEvent_ite (hpulse _) (State.hasEvent_ite ?_ (State.hasEvent_ite ?_ ?_))
  · exact State.hasEvent_raiseDevOnce _ _ ((State.hasEvent_congr ((State.traceIn_only _ _ _ _ _).out .evt rfl) _ _).mpr (hpulse 0xD))
  · refine (State.hasEvent_congr ?_ _ _).mpr (hpulse 0xD)
    rw [(State.kick_only _ _ _).out .evt rfl, (State.traceIn_only _ _ _ _ _).out .evt rfl, (State.enterReady_only _ _ _ _).out .evt rfl,
      (State.setTask_only _ _ _).out .evt rfl]
  · exact hpulse 0xD

theorem State.hasEvent_decrements {code obj : Nat} (n : Nat) (l : List Nat) :
    ∀ {s : State}, s.hasEvent code obj → (s.decrements n l).hasEvent code obj := by
  induction l with
  | nil => exact fun h => h
  | cons x l ih => exact fun h => ih (State.hasEvent_decrement _ _ h)

theorem State.hasEvent_complete {s : State} {code obj : Nat} (d server : Nat) (h : s.hasEvent code obj) :
    (s.complete d server).hasEvent code obj := by
  have htrace : (s.trace 5 d server).hasEvent code obj := (State.hasEvent_congr ((State.traceIn_only _ _ _ _ _).out .evt rfl) _ _).mpr h
  unfold State.complete
  dsimp only
  refine State.hasEvent_ite ?_ (State.hasEvent_decrements _ _ htrace)
  rw [State.hasEvent_congr (((State.kickReady_only _ _).out .evt rfl).trans ((State.startInstance_only _ _).out .evt rfl))]
  exact State.hasEvent_decrements _ _ htrace

theorem State.hasEvent_completeKernel {s : State} {code obj : Nat} (d : Nat) (h : s.hasEvent code obj) :
    (s.completeKernel d).hasEvent code obj :=
  State.hasEvent_complete (s := State.pulse { s with dsp := { s.dsp with lanes := tset 0 (s.task d).lane 0 s.dsp.lanes } } 7) _ _ h

/-! ## Critical kernels -/

/-- A kernel's completion, its results written: the tag's record, the successors' counters, the gate. -/
def State.kernelDone (s : State) (d opnd comp : Nat) (sent : Option Nat) (ln : Bool) : State :=
  (s.tagComplete d opnd comp s.frm.now sent ln).completeKernel d

/-- The completion of a kernel leaves every part that holds results, and every event that stands. -/
theorem State.kernelDone_keeps (s : State) (d opnd comp : Nat) (sent : Option Nat) (ln : Bool) :
    let u := s.kernelDone d opnd comp sent ln
    u.axes = s.axes ∧ u.zones = s.zones ∧ u.steps = s.steps ∧ u.frm = s.frm ∧ u.net = s.net ∧
    ∀ code obj, s.hasEvent code obj → u.hasEvent code obj := by
  have htag := State.tagComplete_only s d opnd comp s.frm.now sent ln
  have hdone := State.completeKernel_only (s.tagComplete d opnd comp s.frm.now sent ln) d
  refine ⟨(hdone.out .axes rfl).trans (htag.out .axes rfl), (hdone.out .zones rfl).trans (htag.out .zones rfl),
    (hdone.out .steps rfl).trans (htag.out .steps rfl), (hdone.out .frm rfl).trans (htag.out .frm rfl),
    (hdone.out .net rfl).trans (htag.out .net rfl), fun code obj h => ?_⟩
  exact State.hasEvent_completeKernel _ ((State.hasEvent_congr (htag.out .evt rfl) _ _).mpr h)

/-- An axis whose critical kernel completes: done in its own frame, its command valid there only; a profile that follows OPEN. -/
def Axis.written (a : Axis) (now : Recd) (n : Nat) (closing here : Bool) : Axis :=
  let a := if closing && !a.nonfin then a.profileAtClose now n else a
  { a with critDone := here, lp := { a.lp with valid := a.lp.valid && here } }

theorem Axis.written_here (a : Axis) (now : Recd) (n : Nat) (closing : Bool) : (a.written now n closing true).critDone = true ∧
    (a.written now n closing true).fb = a.fb ∧ (a.written now n closing true).lp = a.lp := by
  unfold Axis.written
  dsimp only
  split <;> simp [Axis.profileAtClose]

/-- What a critical kernel's completion writes beside its results: its axis, the time of completion, the packing on its branch. -/
def State.critWritten (s : State) (i : Nat) (now : Recd) (closing here : Bool) : State :=
  let s := s.setAxis i ((s.axis i).written now s.frm.frame.toNat closing here)
  let b := s.axBranch i
  let s := if here then { s with frm := { s.frm with critLast := s.frm.now - s.frm.t0 } } else s
  if here && !s.isLn i then s.setBranch b { s.branch b with packAt := some (s.phase + 25 * packCycles) } else s

theorem State.setBranch_of_pack {s : State} {b p : Nat} {x : Branch} (h : x.packAt = some p) : (s.setBranch b x).branch b = x :=
  State.setBranch_ne _ _ _ fun he => by rw [he] at h; exact nomatch h

section Written
variable (s : State) (i : Nat) (now : Recd) (closing : Bool)

/-- In the kernel's own frame the axis is done, its feedback and its loops as the kernel left them. -/
theorem State.critWritten_axis : ((s.critWritten i now closing true).axis i).critDone = true ∧
    ((s.critWritten i now closing true).axis i).fb = (s.axis i).fb ∧
    ((s.critWritten i now closing true).axis i).lp = (s.axis i).lp := by
  have hwritten := (s.axis i).written_here now s.frm.frame.toNat closing
  have haxis : (s.critWritten i now closing true).axis i =
      (s.setAxis i ((s.axis i).written now s.frm.frame.toNat closing true)).axis i := State.read_ite (fun u => u.axis i) rfl rfl
  rw [haxis, State.setAxis_ne]
  · exact hwritten
  · intro h
    rw [h] at hwritten
    exact nomatch hwritten.1

theorem State.critWritten_frm : (s.critWritten i now closing true).frm = { s.frm with critLast := s.frm.now - s.frm.t0 } ∧
    (s.critWritten i now closing true).steps = s.steps ∧ (s.critWritten i now closing true).evt = s.evt :=
  ⟨State.read_ite State.frm rfl rfl, State.read_ite State.steps rfl rfl, State.read_ite State.evt rfl rfl⟩

theorem State.critWritten_pack (h : s.isLn i = false) :
    ((s.critWritten i now closing true).branch (s.axBranch i)).packAt = some (s.phase + 25 * packCycles) := by
  unfold State.critWritten
  dsimp only
  rw [if_pos rfl]
  refine (congrArg (fun u : State => (u.branch (s.axBranch i)).packAt) (if_pos (show (true && !s.isLn i) = true by rw [h]; rfl))).trans ?_
  show ((State.setBranch _ (s.axBranch i) _).branch (s.axBranch i)).packAt = _
  rw [State.setBranch_of_pack rfl]
  rfl

end Written

/-- What a running critical kernel's completion does, the instance being of frame f. -/
theorem execCriticalKernelComplete_running {s : State} {i : Fin 256} (t op cp : Nat) (hrun : s.running (dAxCrit i) = true) :
    let x := s.goto t
    let f := (x.task (dAxCrit i)).frame
    let w := (if x.axType i = 4 then x.stepKernel i f else x.servoKernel i f).critWritten i (x.readNow i)
      ((x.axis i).fromOpen && (x.axis i).st.isClosed) (f == x.frm.frame.toNat)
    ∃ sent, exec (.criticalKernelComplete i t op cp) s = .next (w.kernelDone (dAxCrit i) op cp sent (w.isLn i)).gateCheck := by
  have hnot : ¬(!s.running (dAxCrit i)) = true := by simp [hrun]
  exact ⟨_, congrArg Host.Outcome.next (if_neg hnot)⟩

/-- The same in the kernel's own frame, with what a completion leaves. -/
theorem criticalKernelComplete_here {s : State} {i : Fin 256} (t op cp : Nat) (hrun : s.running (dAxCrit i) = true)
    (hframe : (s.task (dAxCrit i)).frame = s.frm.frame.toNat) :
    let x := s.goto t
    let k := if x.axType i = 4 then x.stepKernel i s.frm.frame.toNat else x.servoKernel i s.frm.frame.toNat
    let w := k.critWritten i (x.readNow i) ((x.axis i).fromOpen && (x.axis i).st.isClosed) true
    ∃ u, exec (.criticalKernelComplete i t op cp) s = .next u ∧ u.axes = w.axes ∧ u.steps = w.steps ∧ u.frm = w.frm ∧ u.net = w.net ∧
      ∀ code obj, w.hasEvent code obj → u.hasEvent code obj := by
  intro x k w
  obtain ⟨sent, hex⟩ := execCriticalKernelComplete_running t op cp hrun
  have hf : ((s.goto t).task (dAxCrit i)).frame = s.frm.frame.toNat := by simp [hframe]
  have hhere : (s.frm.frame.toNat == (s.goto t).frm.frame.toNat) = true := by simp
  rw [hf, hhere] at hex
  obtain ⟨haxes, -, hsteps, hfrm, hnet, hev⟩ := State.kernelDone_keeps w (dAxCrit i) op cp sent (w.isLn i)
  have hgate := State.gateCheck_only (w.kernelDone (dAxCrit i) op cp sent (w.isLn i))
  exact ⟨_, hex, (hgate.out .axes rfl).trans haxes, (hgate.out .steps rfl).trans hsteps, (hgate.out .frm rfl).trans hfrm,
    (hgate.out .net rfl).trans hnet, fun code obj h => (State.hasEvent_congr (hgate.out .evt rfl) _ _).mpr (hev _ _ h)⟩

theorem State.par_congr {s t : State} (hcams : t.cams = s.cams) (hsaf : t.saf = s.saf) (hparams : t.params = s.params) : t.par = s.par := by
  funext c i n
  simp only [State.par, hcams, hsaf, hparams]

theorem State.axis_congr {s t : State} (h : t.axes = s.axes) (i : Nat) : t.axis i = s.axis i := by rw [State.axis, h, State.axis]

theorem State.setAxis_of_done {s : State} {i : Nat} {a : Axis} (h : a.critDone = true) : (s.setAxis i a).axis i = a :=
  State.setAxis_ne _ _ _ fun he => by rw [he] at h; exact nomatch h

/-- What a reading finds after an event that may be raised is what it finds before, where raising one leaves it. -/
theorem State.read_raised {α : Type} (f : State → α) (hf : ∀ (s : State) code i data, f (s.raiseAx code i data) = f s) (c : Prop)
    [Decidable c] (s : State) (code i : Nat) (data : List Byte) : f (if c then s.raiseAx code i data else s) = f s :=
  State.read_ite f (hf _ _ _ _) rfl

section Servo
variable {s : State} {i f : Nat}

/-- Every number finite: the axis takes what its loop chain gives. -/
theorem State.servoKernel_finite (hax : twf ({} : Axis) s.axes = true)
    (hfin : (critNumbers (servoCrit (s.P 5 i) (s.axType i) (s.critIn i f) (s.axis i)).1.fb
      (servoCrit (s.P 5 i) (s.axType i) (s.critIn i f) (s.axis i)).1.lp ++
      (servoCrit (s.P 5 i) (s.axType i) (s.critIn i f) (s.axis i)).2).all fFinite = true) :
    ((s.servoKernel i f).axis i).fb = (servoCrit (s.P 5 i) (s.axType i) (s.critIn i f) (s.axis i)).1.fb ∧
    ((s.servoKernel i f).axis i).lp = (servoCrit (s.P 5 i) (s.axType i) (s.critIn i f) (s.axis i)).1.lp ∧
    (s.servoKernel i f).phase = s.phase := by
  unfold State.servoKernel
  dsimp only
  rw [if_pos hfin]
  have haxis : ∀ (s : State) code k data, (s.raiseAx code k data).axis i = s.axis i := fun s code k data =>
    State.axis_congr ((State.raiseAx_only s code k data).out .axes rfl) i
  have hread : ∀ {α : Type} (g : State → α) (c d e : Prop) [Decidable c] [Decidable d] [Decidable e] (w : State) x y,
      (∀ (s : State) code k data, g (s.raiseAx code k data) = g s) → (∀ s : State, g (s.pulse 0x5B) = g s) →
      g (let s := if c then w.raiseAx evLimitStep i x else w
         let s := if d then s.raiseAx evUdcLow i y else s
         if e then s.pulse 0x5B else s) = g w := by
    intro α g c d e _ _ _ w x y hraise hpulse
    have h1 := State.read_raised g hraise c w evLimitStep i x
    have h2 := (State.read_raised g hraise d _ evUdcLow i y).trans h1
    exact State.read_ite g ((hpulse _).trans h2) h2
  refine ⟨?_, ?_, ?_⟩
  · refine (congrArg Axis.fb (hread (fun u => u.axis i) _ _ _ _ _ _ haxis fun _ => rfl)).trans ?_
    rw [State.setAxis_same _ _ _ hax]
  · refine (congrArg Axis.lp (hread (fun u => u.axis i) _ _ _ _ _ _ haxis fun _ => rfl)).trans ?_
    rw [State.setAxis_same _ _ _ hax]
  · exact hread State.phase _ _ _ _ _ _ State.raiseAx_phase fun _ => rfl

/-- A number that is not finite: the axis keeps what it had, and the event is raised once a frame. -/
theorem State.servoKernel_nonfinite
    (hfin : (critNumbers (servoCrit (s.P 5 i) (s.axType i) (s.critIn i f) (s.axis i)).1.fb
      (servoCrit (s.P 5 i) (s.axType i) (s.critIn i f) (s.axis i)).1.lp ++
      (servoCrit (s.P 5 i) (s.axType i) (s.critIn i f) (s.axis i)).2).all fFinite = false) :
    ((s.servoKernel i f).axis i).fb = (nonfiniteAxis (s.axis i)).fb ∧
    (s.seenEv evNonfinite i = false → (s.servoKernel i f).hasEvent evNonfinite i) := by
  unfold State.servoKernel
  dsimp only
  rw [if_neg (by rw [hfin]; exact Bool.false_ne_true)]
  refine ⟨?_, fun h => State.raiseAx_hasEvent _ _ _ _ h⟩
  rw [State.axis_congr ((State.raiseAx_only _ _ _ _).out .axes rfl), State.setAxis_of_done rfl]

end Servo

/-- A STEP axis hands its channel what its kernel gives. -/
theorem State.stepKernel_step {s : State} {i f c : Nat} (hc : s.chanOf i = some c) (hst : twf ({} : StepCh) s.steps = true) :
    (s.stepKernel i f).step_ c = (stepCrit (s.P 5 i) (s.critIn i f) (s.axis i) (s.step_ c)).2 := by
  unfold State.stepKernel
  rw [hc]
  exact State.setStep_same _ _ _ hst

theorem criticalKernelsUpdateTheirAxis : CriticalKernelsUpdateTheirAxis := by
  refine ⟨?_, ?_, ?_⟩
  · intro s i t op cp hcan hrun x hframe hty hopen r hfin
    obtain ⟨u, hex, haxes, -, hfrm, hnet, -⟩ := criticalKernelComplete_here t op cp hrun hframe
    have hty' : ¬x.axType i = 4 := by simpa [x, State.axType] using hty
    rw [if_neg hty'] at haxes hfrm hnet
    have hax : twf ({} : Axis) x.axes = true := by simpa [x] using hcan.axes
    obtain ⟨hfb, hlp, hphase⟩ := State.servoKernel_finite hax hfin
    obtain ⟨hdone, hwfb, hwlp⟩ := State.critWritten_axis (x.servoKernel i s.frm.frame.toNat) i (x.readNow i) ((x.axis i).fromOpen && (x.axis i).st.isClosed)
    obtain ⟨hwfrm, -, -⟩ := State.critWritten_frm (x.servoKernel i s.frm.frame.toNat) i (x.readNow i) ((x.axis i).fromOpen && (x.axis i).st.isClosed)
    have hkfrm : (x.servoKernel i s.frm.frame.toNat).frm = x.frm := (State.servoKernel_only _ _ _).out .frm rfl
    have hnow : u.frm.now = max s.frm.now t := by rw [hfrm, hwfrm, hkfrm]; simp [x]
    refine ⟨u, hex, ?_, ?_, ?_, hnow, ?_, fun hln => ?_⟩
    · rw [State.axis_congr haxes, hdone]
    · rw [State.axis_congr haxes, hwfb, hfb]
    · rw [State.axis_congr haxes, hwlp, hlp]
    · rw [hnow, hfrm, hwfrm, hkfrm]
      simp [x]
    · have hpar : (x.servoKernel i s.frm.frame.toNat).par = s.par := by
        have honly := State.servoKernel_only x i s.frm.frame.toNat
        rw [State.par_congr (honly.out .cams rfl) (honly.out .saf rfl) (honly.out .params rfl)]
        exact State.par_congr (by simp [x]) (by simp [x]) (by simp [x])
      have hbranch : (x.servoKernel i s.frm.frame.toNat).axBranch i = s.axBranch i := by
        simp only [State.axBranch, State.axNode, State.pn, hpar]
      have hlocal : (x.servoKernel i s.frm.frame.toNat).isLn i = false := by
        rw [← hln]; simp only [State.isLn, State.axNode, State.pn, hpar]
      rw [State.branch_congr hnet, ← hbranch, State.critWritten_pack _ _ _ _ hlocal, hphase]
      rfl
  · intro s i t op cp hcan hrun x hframe hty hopen r hfin
    obtain ⟨u, hex, haxes, -, -, -, hev⟩ := criticalKernelComplete_here t op cp hrun hframe
    have hty' : ¬x.axType i = 4 := by simpa [x, State.axType] using hty
    rw [if_neg hty'] at haxes hev
    obtain ⟨hfb, hraised⟩ := State.servoKernel_nonfinite hfin
    obtain ⟨hdone, hwfb, -⟩ := State.critWritten_axis (x.servoKernel i s.frm.frame.toNat) i (x.readNow i) ((x.axis i).fromOpen && (x.axis i).st.isClosed)
    obtain ⟨-, -, hwev⟩ := State.critWritten_frm (x.servoKernel i s.frm.frame.toNat) i (x.readNow i) ((x.axis i).fromOpen && (x.axis i).st.isClosed)
    refine ⟨u, hex, ?_, ?_, fun hseen => hev _ _ ((State.hasEvent_congr hwev _ _).mpr (hraised hseen))⟩
    · rw [State.axis_congr haxes, hdone]
    · rw [State.axis_congr haxes, hwfb, hfb]
      simp [x, State.axis, nonfiniteAxis]
  · intro s i t op cp c hcan hrun x hframe hty hchan
    obtain ⟨u, hex, haxes, hsteps, -⟩ := criticalKernelComplete_here t op cp hrun hframe
    have hty' : x.axType i = 4 := by simpa [x, State.axType] using hty
    rw [if_pos hty'] at haxes hsteps
    obtain ⟨hdone, -, -⟩ := State.critWritten_axis (x.stepKernel i s.frm.frame.toNat) i (x.readNow i) ((x.axis i).fromOpen && (x.axis i).st.isClosed)
    obtain ⟨-, hwsteps, -⟩ := State.critWritten_frm (x.stepKernel i s.frm.frame.toNat) i (x.readNow i) ((x.axis i).fromOpen && (x.axis i).st.isClosed)
    have hst : twf ({} : StepCh) x.steps = true := by simpa [x] using hcan.steps
    have hchan' : x.chanOf i = some c := by simpa [x, State.chanOf] using hchan
    refine ⟨u, hex, ?_, ?_⟩
    · rw [State.axis_congr haxes, hdone]
    · rw [← State.stepKernel_step hchan' hst, State.step_, hsteps, hwsteps, State.step_]

/-! ## Trailing and zone kernels -/

/-- The deviation of an axis is of its motion, not of its references or feedback. -/
theorem State.deviation_refs (s : State) (i : Nat) (a : Axis) : (s.deviation i a).rf = a.rf ∧ (s.deviation i a).fb = a.fb := by
  unfold State.deviation
  split
  · exact ⟨rfl, rfl⟩
  · split
    · exact ⟨rfl, rfl⟩
    · dsimp only
      split <;> exact ⟨rfl, rfl⟩

/-- A trailing kernel whose numbers are finite gives the axis its references and its feedback. -/
theorem State.trailAxis_finite {s : State} {i : Nat} (hax : twf ({} : Axis) s.axes = true)
    (hfin : (trailNumbers (trailKernel (s.P 5 i) s.cam (s.trailIn i) (s.axis i))).all fFinite = true) :
    ((s.trailAxis i).axis i).rf = (trailKernel (s.P 5 i) s.cam (s.trailIn i) (s.axis i)).rf ∧
    ((s.trailAxis i).axis i).fb = (trailKernel (s.P 5 i) s.cam (s.trailIn i) (s.axis i)).fb := by
  set a := trailKernel (s.P 5 i) s.cam (s.trailIn i) (s.axis i) with ha
  have hbase : twf ({} : Axis) (s.devBase i).axes = true := by
    rw [(State.devBase_only s i).out .axes rfl]; exact hax
  have haxis : ∀ (s : State) code k data, (s.raiseAx code k data).axis i = s.axis i := fun s code k data =>
    State.axis_congr ((State.raiseAx_only s code k data).out .axes rfl) i
  have hread := State.read_raised (fun u => u.axis i) haxis
  unfold State.trailAxis
  dsimp only
  rw [← ha, if_pos hfin]
  obtain ⟨hrf, hfb⟩ := State.deviation_refs (s.devBase i) i a
  rw [hread, hread, hread, State.setAxis_same _ _ _ hbase]
  split <;> exact ⟨hrf, hfb⟩

theorem State.zone_congr {s t : State} (h : t.zones = s.zones) (z : Nat) : t.zone z = s.zone z := by rw [State.zone, h, State.zone]

/-- A zone kernel whose numbers are finite gives the zone the values of its frame. -/
theorem State.zoneKernel_finite {s : State} {z f : Nat} (hzn : twf ({} : Zone) s.zones = true)
    (hfin : (zoneNumbers (zoneCrit (s.P 6 z) (s.zoneIn z f) (s.zone z)).1 (zoneCrit (s.P 6 z) (s.zoneIn z f) (s.zone z)).2).all fFinite = true) :
    (s.zoneKernel z f).zone z = (zoneCrit (s.P 6 z) (s.zoneIn z f) (s.zone z)).1 := by
  unfold State.zoneKernel
  dsimp only
  rw [if_pos hfin, State.setZone_same _ _ _ hzn]

/-- A zone's trailing kernel is done, whatever its numbers. -/
theorem State.zoneTrail_done (s : State) (z : Nat) : ((s.zoneTrail z).zone z).trailDone = true ∧ ((s.zoneTrail z).zone z).skip = false := by
  have hset : ∀ x : Zone, x.trailDone = true → (s.setZone z x).zone z = x := fun x hx =>
    State.setZone_ne _ _ _ fun h => by rw [h] at hx; exact nomatch hx
  unfold State.zoneTrail
  dsimp only
  rw [State.zone_congr ((State.diaOf_only _ _ _ _).out .zones rfl), State.zone_congr ((State.diaOf_only _ _ _ _).out .zones rfl)]
  refine State.of_ite (P := fun u => (u.zone z).trailDone = true ∧ (u.zone z).skip = false) ?_
    (State.of_ite (P := fun u => (u.zone z).trailDone = true ∧ (u.zone z).skip = false) ?_ ?_)
  · rw [hset _ rfl]
    exact ⟨rfl, rfl⟩
  · rw [hset _ rfl]
    exact ⟨rfl, rfl⟩
  · rw [State.zone_congr ((State.raiseOnce_only _ _ _ _ _).out .zones rfl), hset _ rfl]
    exact ⟨rfl, rfl⟩

/-- The time of completion of a trailing kernel, noted. -/
def State.trailNoted (s : State) : State := { s with frm := { s.frm with trailLast := s.frm.now - s.frm.t0 } }

theorem State.trailNoted_kernelDone (s : State) (d op cp : Nat) :
    let u := s.trailNoted.kernelDone d op cp none false
    u.axes = s.axes ∧ u.zones = s.zones ∧ u.frm.now = s.frm.now ∧ u.frm.trailLast = s.frm.now - s.frm.t0 := by
  obtain ⟨haxes, hzones, -, hfrm, -⟩ := State.kernelDone_keeps s.trailNoted d op cp none false
  exact ⟨haxes, hzones, by rw [hfrm]; rfl, by rw [hfrm]; rfl⟩

/-- A zone's critical kernel's completion, its results written: done in its own frame, the time of completion noted. -/
def State.zoneWritten (s : State) (z : Nat) (here : Bool) : State :=
  let s := s.setZone z { s.zone z with critDone := here }
  if here then { s with frm := { s.frm with critLast := s.frm.now - s.frm.t0 } } else s

theorem trailingAndZoneKernelsUpdate : TrailingAndZoneKernelsUpdate := by
  refine ⟨?_, ?_, ?_⟩
  · intro s i t op cp hcan hrun x a hfin
    have hnot : ¬(!s.running (dAxTrail i)) = true := by simp [hrun]
    have hex : exec (.trailingKernelComplete i t op cp) s = .next ((x.trailAxis i).trailNoted.kernelDone (dAxTrail i) op cp none false) :=
      congrArg Host.Outcome.next (if_neg hnot)
    obtain ⟨haxes, -, hnow, hlast⟩ := State.trailNoted_kernelDone (x.trailAxis i) (dAxTrail i) op cp
    have hkfrm : (x.trailAxis i).frm = x.frm := (State.trailAxis_only _ _).out .frm rfl
    have hax : twf ({} : Axis) x.axes = true := by simpa [x] using hcan.axes
    obtain ⟨hrf, hfb⟩ := State.trailAxis_finite hax hfin
    refine ⟨_, hex, ?_, ?_, ?_, ?_⟩
    · rw [State.axis_congr haxes, hrf]
    · rw [State.axis_congr haxes, hfb]
    · rw [hnow, hkfrm]
      simp [x]
    · rw [hlast, hnow, hkfrm]
      simp [x]
  · intro s z t op cp hcan hrun x hframe r hfin
    have hnot : ¬(!s.running (dZnCrit z)) = true := by simp [hrun]
    have hex : exec (.zoneKernelComplete z t op cp) s = .next ((((x.zoneKernel z (x.task (dZnCrit z)).frame).zoneWritten z
        ((x.task (dZnCrit z)).frame == x.frm.frame.toNat)).kernelDone (dZnCrit z) op cp none false).gateCheck) :=
      congrArg Host.Outcome.next (if_neg hnot)
    have hf : (x.task (dZnCrit z)).frame = s.frm.frame.toNat := by simp [x, hframe]
    have hhere : (s.frm.frame.toNat == x.frm.frame.toNat) = true := by simp [x]
    have hzn : twf ({} : Zone) x.zones = true := by simpa [x] using hcan.zones
    rw [hf, hhere] at hex
    refine ⟨_, hex, ?_⟩
    obtain ⟨-, hzones, -⟩ := State.kernelDone_keeps ((x.zoneKernel z s.frm.frame.toNat).zoneWritten z true) (dZnCrit z) op cp none false
    rw [State.zone_congr ((State.gateCheck_only _).out .zones rfl), State.zone_congr hzones]
    have hw : ((x.zoneKernel z s.frm.frame.toNat).zoneWritten z true).zone z = { (x.zoneKernel z s.frm.frame.toNat).zone z with critDone := true } :=
      State.setZone_ne _ _ _ fun h => nomatch congrArg Zone.critDone h
    rw [hw, State.zoneKernel_finite hzn hfin]
  · intro s z t op cp hcan hrun
    have hnot : ¬(!s.running (dZnTrail z)) = true := by simp [hrun]
    have hex : exec (.zoneTrailingKernelComplete z t op cp) s =
        .next (((s.goto t).zoneTrail z).trailNoted.kernelDone (dZnTrail z) op cp none false) := congrArg Host.Outcome.next (if_neg hnot)
    obtain ⟨-, hzones, hnow, hlast⟩ := State.trailNoted_kernelDone ((s.goto t).zoneTrail z) (dZnTrail z) op cp
    obtain ⟨hdone, hskip⟩ := State.zoneTrail_done (s.goto t) z
    refine ⟨_, hex, ?_, ?_, ?_⟩
    · rw [State.zone_congr hzones, hdone]
    · rw [State.zone_congr hzones, hskip]
    · rw [hlast, hnow, (State.zoneTrail_only _ _).out .frm rfl]
      simp

/-- Settles O20. -/
theorem kernelsUpdateTheirLoops : Obligations.KernelsUpdateTheirLoops :=
  ⟨criticalKernelsUpdateTheirAxis, trailingAndZoneKernelsUpdate⟩

end Sys2Proof.Machine
end

section
/-! An SSI transfer that fails where the table of encoder inputs is not in canonical form (R146). -/

namespace Sys2Proof.Machine

/-- Encoder input 0, an SSI input, stands twice in the table: a transfer under way, and behind it a value of 5 no read reaches. -/
def doubleEncState : State :=
  { params := [(pkey 9 0 64, 2)], encs := [(0, { ssiBusy := true }), (0, { ssiVal := 5 })] }

/-- The transfer's end takes the first entry to its default value, which leaves the table: the error is counted on the second. -/
theorem ssiDelivery_doubleEncState :
    ∃ u, exec (.ssiDelivery 0 0 true) doubleEncState = .next u ∧ (u.enc 0).ssiVal = 5 :=
  ⟨_, rfl, by decide +kernel⟩

/-- Refutes O23: the input without a value reads 5 after a transfer that gave none. -/
theorem not_pulsesReferencesAndEncodersAct : ¬ Obligations.PulsesReferencesAndEncodersAct := by
  rintro ⟨-, -, -, -, -, -, -, hinvalid⟩
  obtain ⟨u, hu, hread⟩ := ssiDelivery_doubleEncState
  obtain ⟨u', hu', -, hread'⟩ := hinvalid doubleEncState 0 0 (by decide +kernel) (by decide +kernel)
  obtain rfl := Host.Outcome.next.inj (hu.symm.trans hu')
  exact absurd (hread.symm.trans hread') (by decide +kernel)

end Sys2Proof.Machine
end

section
/-! Reads with an effect (R10, R28, R230, R233, R369, R372). -/

namespace Sys2Proof.Machine

/-! ## Two halves of one value -/

theorem setWidth_append_halves (v : W64) : ((v >>> 32).setWidth 32 : W32) ++ (v.setWidth 32 : W32) = v := by
  apply BitVec.eq_of_getLsbD_eq
  intro i hi
  rw [BitVec.getLsbD_append]
  split
  · next h => simp [h]
  · next h =>
    have hlow : i - 32 < 32 := by omega
    simp [hlow, show 32 + (i - 32) = i by omega]

theorem hi32_append_lo32 (v : W64) : hi32 v ++ lo32 v = v := setWidth_append_halves v

/-- The 16 bits above a 48-bit value's low word, and that word. -/
theorem setWidth_append_halves48 (v : W48) : (((v >>> 32).setWidth 16 : W16).setWidth 32 : W32) ++ (v.setWidth 32 : W32) = v.setWidth 64 := by
  apply BitVec.eq_of_getLsbD_eq
  intro i hi
  rw [BitVec.getLsbD_append]
  split
  · next h => simp [h]; omega
  · next h =>
    have hlow : i - 32 < 32 := by omega
    by_cases h48 : i - 32 < 16
    · simp [hlow, hi, h48, show 32 + (i - 32) = i by omega]
    · simp [hlow, hi, h48, BitVec.getLsbD_of_ge v i (by omega)]

/-! ## A word returned to the host -/

@[simp] theorem State.hostWord_host (s : State) (w : W32) : (s.hostWord w).host = { s.host with rdata := w, ur := false } := rfl

theorem lowReadsLatchTheHighHalf : LowReadsLatchTheHighHalf := by
  intro s
  refine ⟨⟨_, rfl, ?_⟩, ⟨_, rfl, ?_⟩, ⟨_, rfl, ?_⟩, ⟨_, rfl, ?_⟩, ⟨_, rfl, ?_⟩, ⟨_, rfl, ?_⟩, ⟨_, rfl, ?_⟩, ⟨_, rfl, ?_⟩, ⟨_, rfl, ?_⟩,
    ⟨_, rfl, ?_⟩, ⟨_, rfl, ?_, ?_⟩, fun k hwf => ⟨_, rfl, ?_, ?_⟩⟩
  · exact setWidth_append_halves _
  · exact setWidth_append_halves48 _
  · exact setWidth_append_halves _
  · exact setWidth_append_halves _
  · exact setWidth_append_halves _
  · exact setWidth_append_halves _
  · exact setWidth_append_halves48 _
  · exact setWidth_append_halves48 _
  · exact hi32_append_lo32 _
  · exact hi32_append_lo32 _
  · rfl
  · rfl
  · rfl
  · have hset : ∀ x : Pc, tget {} (tset {} k.val x (s.hostWord (BitVec.ofNat 32 (s.pc k).cnt)).prf.pcs) k.val = x :=
      fun x => tget_tset_same _ _ _ 0 hwf
    exact ⟨congrArg Pc.hiL (hset _), congrArg Pc.ovfnL (hset _)⟩

/-! ## Fields that reading clears -/

/-- A word returned to the host counts its four bytes at the host's bandwidth monitor; the table stays in canonical form. -/
theorem State.hostWord_bw (s : State) (w : W32) (h : twf {} s.prf.bw = true) : twf {} (s.hostWord w).prf.bw = true :=
  twf_tset _ _ _ h

/-- The registers of the minimum and the maximum of bandwidth monitor m. -/
theorem State.regAt_bwMin (s : State) (m : Fin 10) : s.regAt (0x1904 + 16 * m) = some (tget {} s.prf.bw m.val).min := by
  fin_cases m <;> rfl

theorem State.regAt_bwMax (s : State) (m : Fin 10) : s.regAt (0x1908 + 16 * m) = some (tget {} s.prf.bw m.val).max := by
  fin_cases m <;> rfl

theorem readsClearTheirField : ReadsClearTheirField := by
  intro s
  have hzero2 : wordOf [(0, 0), (0, 12)] = 0 := by decide
  have hzero4 : wordOf [(0, 0), (0, 8), (0, 16), (0, 24)] = 0 := by decide
  refine ⟨⟨_, rfl, ?_, hzero2⟩, ⟨_, rfl, ?_, rfl, rfl⟩, ⟨_, rfl, rfl, rfl⟩, ⟨_, rfl, rfl, rfl, rfl⟩, ⟨_, rfl, rfl, hzero4⟩,
    fun l hwf => ⟨_, rfl, rfl, tget_tset_same _ _ _ 0 hwf⟩, fun hwf => ?_, ⟨_, rfl, rfl, rfl, rfl⟩, ⟨_, rfl, rfl, rfl, rfl⟩,
    fun m hwf => ⟨_, rfl, ?_, ?_⟩, fun m hwf => ⟨_, rfl, ?_, ?_⟩⟩
  · show BitVec.ofNat 32 (s.frm.turn + s.frm.turnBranch * 4096) = wordOf [(s.frm.turn, 0), (s.frm.turnBranch, 12)]
    simp [wordOf]
  · show BitVec.ofNat 32 (s.red.hbTotal + s.red.hbRunMax * 65536) = wordOf [(s.red.hbTotal, 0), (s.red.hbRunMax, 16)]
    simp [wordOf]
  · have hset : ∀ (w : W32) (n : Node), ((s.hostWord w).setNode s.selBranch s.selPos n).node s.selBranch s.selPos = n :=
      fun _ _ => tget_tset_same _ _ _ 0 hwf
    exact ⟨_, rfl, rfl, congrArg Node.ofsMax (hset _ _), congrArg Node.ofsMin (hset _ _)⟩
  · exact congrArg (Option.getD · 0) (State.regAt_bwMin s m).symm
  · exact congrArg Bw.min (tget_tset_same _ _ _ 0 (State.hostWord_bw s _ hwf))
  · exact congrArg (Option.getD · 0) (State.regAt_bwMax s m).symm
  · exact congrArg Bw.max (tget_tset_same _ _ _ 0 (State.hostWord_bw s _ hwf))

/-! ## Entries -/

/-- A table filled from key 0 upward holds at each key below n the value given for it. -/
theorem tget_foldl_tset {α : Type} [DecidableEq α] (d : α) (f : Nat → α) (n : Nat) :
    twf d ((List.range n).foldl (fun t k => tset d k (f k) t) []) = true ∧
    ∀ k < n, tget d ((List.range n).foldl (fun t k => tset d k (f k) t) []) k = f k := by
  induction n with
  | zero => exact ⟨rfl, fun _ h => absurd h (Nat.not_lt_zero _)⟩
  | succ n ih =>
    obtain ⟨hwf, hget⟩ := ih
    rw [List.range_succ, List.foldl_append, List.foldl_cons, List.foldl_nil]
    refine ⟨twf_tset _ _ _ hwf, fun k hk => ?_⟩
    by_cases hkn : k = n
    · rw [hkn]; exact tget_tset_same _ _ _ 0 hwf
    · rw [tget_tset_other _ _ _ _ _ hkn, hget k (by omega)]

theorem entryReadsAdvance : EntryReadsAdvance := by
  refine ⟨fun s h => ⟨_, rfl, rfl, ?_, ?_⟩, fun s h => ⟨_, rfl, rfl, ?_, ?_⟩, fun s v => ⟨_, rfl, rfl, ?_⟩⟩
  · show (s.dsp.idx + 1) % 4096 = _
    split <;> omega
  · intro k hk
    interval_cases k <;> rfl
  · show (s.prf.tagIdx + 1) % 256 = _
    split <;> omega
  · intro k hk
    interval_cases k <;> rfl
  · exact (tget_foldl_tset 0 (fun k => ((s.task (v.toNat % 1024)).words[k]?).getD 0) 8).2

/-- Settles O24. -/
theorem readsLatchAndClear : Obligations.ReadsLatchAndClear :=
  ⟨lowReadsLatchTheHighHalf, readsClearTheirField, entryReadsAdvance⟩

end Sys2Proof.Machine
end

section
/-! Mailbox buffers go round; a misuse changes none (R378, R379, R402). -/

namespace Sys2Proof.Machine

/-! ## The state of a buffer -/

theorem State.bufSt_congr {s t : State} (h : t.host.bufs = s.host.bufs) (j : Nat) : t.bufSt j = s.bufSt j := by
  rw [State.bufSt, h, State.bufSt]

theorem State.setBuf_bufSt {s : State} {j : Nat} {x : BufSt} (h : x ≠ .free) : (s.setBuf j x).bufSt j = x := tget_tset_of_ne _ _ _ _ h

/-- A misuse sets its bit of MBX_ERR, with its event, and leaves buffers and queues. -/
theorem State.protoErr_leaves (s : State) (bit : Nat) : (s.protoErr bit).host.err = s.host.err ||| BitVec.ofNat 4 (2 ^ bit) ∧
    (s.protoErr bit).host.bufs = s.host.bufs ∧ (s.protoErr bit).host.q = s.host.q ∧ (s.protoErr bit).hasEvent evHostProto devObj := by
  rw [State.protoErr_host]
  exact ⟨rfl, rfl, rfl, State.raiseDev_hasEvent _ _ _⟩

/-- Presenting a buffer takes none. -/
theorem State.present_leaves (s : State) : s.present.host.rdata = s.host.rdata ∧ s.present.host.bufs = s.host.bufs ∧
    s.present.host.allocs = s.host.allocs := by
  unfold State.present
  generalize (List.range 512).filter _ = l
  exact ⟨rfl, rfl, rfl⟩

theorem buffersGoRound : BuffersGoRound := by
  refine ⟨fun s j hp => ?_, fun s hp => ?_, fun s m v hst hload => ?_, fun s m j r hans => ?_, fun s m hans => ?_, fun s v hst hp => ?_,
    fun s => ⟨_, rfl, rfl, rfl⟩⟩
  · have hex : exec .mbxAlloc s = .next (State.present { ((s.hostWord (BitVec.ofNat 32 (2 ^ 31 + j))).setBuf j .host) with
        host := { ((s.hostWord (BitVec.ofNat 32 (2 ^ 31 + j))).setBuf j .host).host with allocs := s.host.allocs + 1 } }) := by
      change execMbxAlloc s = _
      unfold execMbxAlloc
      rw [hp]
      rfl
    obtain ⟨hrdata, hbufs, hallocs⟩ := State.present_leaves { ((s.hostWord (BitVec.ofNat 32 (2 ^ 31 + j))).setBuf j .host) with
        host := { ((s.hostWord (BitVec.ofNat 32 (2 ^ 31 + j))).setBuf j .host).host with allocs := s.host.allocs + 1 } }
    refine ⟨_, hex, ?_, ?_, ?_⟩
    · rw [hrdata]; rfl
    · rw [State.bufSt_congr hbufs]
      exact State.setBuf_bufSt (s := s.hostWord _) (by decide)
    · rw [hallocs]
  · have hex : exec .mbxAlloc s = .next (s.hostWord 0) := by
      change execMbxAlloc s = _
      unfold execMbxAlloc
      rw [hp]
    exact ⟨_, hex, rfl, rfl⟩
  · have hheld : ¬s.hostWrite.bufSt (v.toNat % 512) ≠ .host := not_not.mpr hst
    have hroom : ¬16 ≤ s.hostWrite.mbxLoad m := Nat.not_le.mpr hload
    refine ⟨_, congrArg Host.Outcome.next ((if_neg hheld).trans (if_neg hroom)), ?_, ?_⟩
    · exact State.setBuf_bufSt (s := s.hostWrite) (by decide)
    · exact tget_tset_of_ne _ _ _ _ (by simp)
  · have hex : exec (.mbxAns m) s = .next { ((s.hostWord (BitVec.ofNat 32 (2 ^ 31 + j))).setBuf j .host) with
        host := { ((s.hostWord (BitVec.ofNat 32 (2 ^ 31 + j))).setBuf j .host).host with ans := tset [] m.val r s.host.ans } } := by
      change execMbxAns m s = _
      unfold execMbxAns
      rw [hans]
      rfl
    exact ⟨_, hex, rfl, State.setBuf_bufSt (s := s.hostWord _) (by decide)⟩
  · have hex : exec (.mbxAns m) s = .next (s.hostWord 0) := by
      change execMbxAns m s = _
      unfold execMbxAns
      rw [hans]
    exact ⟨_, hex, rfl⟩
  · have hheld : s.hostWrite.bufSt (v.toNat % 512) = .host := hst
    have hpres : ¬s.host.presented.isNone = true := by rw [Option.isNone_iff_eq_none]; rintro h; rw [h] at hp; exact nomatch hp
    refine ⟨_, congrArg Host.Outcome.next ((if_pos hheld).trans (if_neg hpres)), rfl, rfl, fun hwf => ?_⟩
    exact tget_tset_same _ _ _ 0 hwf

theorem bufferErrorsAreRefused : BufferErrorsAreRefused := by
  refine ⟨fun s m v hst => ?_, fun s m v hst hfull => ?_, fun s v hst => ?_, fun s off v hst => ?_, fun s off v hst hcan => ?_⟩
  · have hheld : s.hostWrite.bufSt (v.toNat % 512) ≠ .host := hst
    exact ⟨_, congrArg Host.Outcome.next (if_pos hheld), State.protoErr_leaves s.hostWrite 1⟩
  · have hheld : ¬s.hostWrite.bufSt (v.toNat % 512) ≠ .host := not_not.mpr hst
    have hroom : 16 ≤ s.hostWrite.mbxLoad m := hfull
    exact ⟨_, congrArg Host.Outcome.next ((if_neg hheld).trans (if_pos hroom)), State.protoErr_leaves s.hostWrite 3⟩
  · have hheld : ¬s.hostWrite.bufSt (v.toNat % 512) = .host := hst
    obtain ⟨herr, hbufs, -, hev⟩ := State.protoErr_leaves s.hostWrite 2
    exact ⟨_, congrArg Host.Outcome.next (if_neg hheld), herr, hbufs, hev⟩
  · have hheld : ¬s.hostWrite.bufSt (off / 512) = .host := hst
    exact ⟨_, congrArg Host.Outcome.next (if_neg hheld), rfl, rfl⟩
  · have hheld : s.hostWrite.bufSt (off / 512) = .host := hst
    have hlen : (leBytes 4 v.toNat).length = 4 := length_leBytes 4 _
    refine ⟨_, congrArg Host.Outcome.next (if_pos hheld), ?_, fun a ha => ?_⟩
    · have hread := mread_mwrite ramByte s.host.mem (off / 4 * 4) (leBytes 4 v.toNat) hcan.mbx
      rw [hlen] at hread
      exact hread
    · exact mread_mwrite_outside ramByte s.host.mem (off / 4 * 4) a 1 _ (by omega)

/-- Settles O27. -/
theorem buffersAreKeptByTheirOwner : Obligations.BuffersAreKeptByTheirOwner := ⟨buffersGoRound, bufferErrorsAreRefused⟩

end Sys2Proof.Machine
end

section
/-! Requests that only ask (R382, R384, R385, R422, R456). -/

namespace Sys2Proof.Machine

@[simp] theorem State.take_countOk (s : State) (m j : Nat) (r : Bool) (k n lim : Nat) :
    (s.take m j r).countOk k n lim = s.countOk k n lim := rfl

@[simp] theorem State.take_slotOf (s : State) (m j : Nat) (r : Bool) : (s.take m j r).slotOf = s.slotOf := rfl

@[simp] theorem State.take_reaction (s : State) (m j : Nat) (r : Bool) : (s.take m j r).reaction = s.reaction := rfl

@[simp] theorem State.take_logEntryAt (s : State) (m j : Nat) (r : Bool) : (s.take m j r).logEntryAt = s.logEntryAt := rfl

/-- An operation that answers at once: its request has the answer. -/
theorem answered_of_serve {i : Instr} {op : Nat} {f : State → Nat → Nat → State} {s : State} {m j n status eff : Nat} {pay : List Byte}
    (hex : exec i s = .next (s.serve op f)) (h : Request s m j op n) (hcan : Canonical s)
    (hf : f (s.take m j true) m j = (s.take m j true).answer m j status eff pay) :
    ∃ u, exec i s = .next u ∧ Answered u m j status eff pay :=
  ⟨_, hex, by rw [State.serve_request h, hf]; exact answered_of_take (s := s) rfl hcan⟩

/-- An opcode no table holds is answered BAD_OPCODE. -/
theorem badOpcodeIsAnswered {s : State} {m j : Nat} (hcan : Canonical s) (hnext : s.nextReq = some (m, j)) (hop : s.reqOp j ∉ opcodes)
    (hserves : s.serves (s.reqOp j) = true) : ∃ u, exec .badOpcode s = .next u ∧ Answered u m j stBadOpcode 0 [] := by
  have hbad : (!opcodes.contains (s.reqOp j) && s.serves (s.reqOp j)) = true := by simp [hop, hserves]
  have hex : exec .badOpcode s = .next ((s.take m j true).answer m j stBadOpcode 0 []) := by
    change execBadOpcode s = _
    unfold execBadOpcode
    rw [hnext]
    exact congrArg Host.Outcome.next (if_pos hbad)
  exact ⟨_, hex, answered_of_take (s := s) rfl hcan⟩

/-- Settles O29. -/
theorem questionsAreAnswered : Obligations.QuestionsAreAnswered := by
  intro s m j n hcan
  refine ⟨fun h hn => ?_, fun h hn => ?_, fun h => ?_, ?_, ?_, ?_, fun h hlo hhi hsum => ?_, badOpcodeIsAnswered hcan⟩
  · refine answered_of_serve rfl h hcan ?_
    simp only [State.take_reqLen, State.take_bufBytes, h.len]
    exact if_neg (by omega)
  · refine answered_of_serve rfl h hcan ?_
    simp only [State.take_reqLen, h.len]
    exact if_pos hn
  · exact answered_of_serve rfl h hcan (if_neg (by simp [h.len]))
  · intro h hc ks hks
    refine answered_of_serve rfl h hcan ?_
    simp only [State.take_countOk, State.take_pay, State.take_slotOf, hc, Bool.not_true, Bool.false_eq_true, if_false]
    exact if_pos hks
  · intro h hdiv hlo hhi ks hks
    refine answered_of_serve rfl h hcan ?_
    simp only [State.take_reqLen, State.take_pay, h.len]
    rw [if_neg (by omega)]
    exact if_pos hks
  · intro h hlo hhi evs
    refine answered_of_serve rfl h hcan ?_
    simp only [State.take_reqLen, State.take_pay, State.take_reaction, h.len]
    rw [if_neg (by omega)]
    rfl
  · refine answered_of_serve rfl h hcan ?_
    simp only [State.take_reqLen, State.take_pay, State.take_logEntryAt, h.len]
    rw [if_neg (by omega)]
    exact if_neg (by omega)

end Sys2Proof.Machine
end

section
/-! Requests that FP2 takes and answers at the frame boundary (R237, R382, R386, R387, R412, R416). -/

namespace Sys2Proof.Machine

/-- A request in FW that is not another's: the change replaces it and leaves every other. -/
theorem map_taken_last {l : List Taken} {t t' : Taken} (hbuf : t'.buf = t.buf) (h : ∀ x ∈ l, x.buf ≠ t.buf) :
    (l ++ [t]).map (fun x => if x.buf = t'.buf then t' else x) = l ++ [t'] := by
  have hid : l.map (fun x => if x.buf = t'.buf then t' else x) = l := by
    conv_rhs => rw [← List.map_id l]
    exact List.map_congr_left fun x hx => if_neg (hbuf ▸ h x hx)
  rw [List.map_append, hid]
  simp [hbuf]

/-! ## AX_CMD -/

/-- No AX_CMD is in hand while FP2 takes another request. -/
theorem State.curAx_of_nextReq {s : State} {x : Nat × Nat} (h : s.nextReq = some x) : s.curAx = none := by
  unfold State.nextReq at h
  split at h
  · exact nomatch h
  · simpa using ‹¬s.curAx.isSome = true›

/-- One entry that names a command: none passes by itself. -/
theorem State.axPass_one {s : State} {t : Taken} {sub : Nat} (hcount : s.pay t.buf 0 2 = 1) (hsub : s.axSub t.buf 0 = sub)
    (hknown : 1 ≤ sub ∧ sub ≤ 11) (hsubs : t.subs = []) : s.axPass t = { t with ready := false } := by
  have hskip : s.axSkip t.buf 0 1 = 0 := by
    rw [State.axSkip, hsub]
    exact if_neg (by omega)
  simp [State.axPass, hsubs, hcount, hskip]

/-- Every entry is handled: the request waits for the boundary. -/
theorem State.axPass_done {s : State} {t : Taken} (hcount : s.pay t.buf 0 2 = 1) (hsubs : t.subs.length = 1) :
    s.axPass t = { t with ready := true } := by
  simp [State.axPass, hsubs, hcount, State.axSkip]

/-- The entry of the AX_CMD in hand is handled, and the request waits for the boundary. -/
theorem State.axEntry_one {s : State} {m j sub : Nat} (hcount : s.pay j 0 2 = 1) (hsub : s.axSub j 0 = sub)
    (hknown : 1 ≤ sub ∧ sub ≤ 11) : s.axEntry sub { mbx := m, buf := j, subs := [], ready := false } =
      s.setTaken { mbx := m, buf := j, subs := [BitVec.ofNat 8 sub], ready := true } := by
  unfold State.axEntry
  rw [State.axPass_one hcount hsub hknown rfl]
  dsimp only
  rw [if_neg Bool.false_ne_true, State.axPass_done hcount rfl]
  exact if_pos hsub

/-- The row of the sub-command the one entry names takes the request. -/
theorem State.axRow_one {s : State} {m j n sub : Nat} (h : Request s m j 0x0020 n) (hc : s.countOk j 4 64 = true)
    (hrole : s.frm.role = .head) (hrun : s.frm.run = true) (hcount : s.pay j 0 2 = 1) (hsub : s.axSub j 0 = sub)
    (hknown : 1 ≤ sub ∧ sub ≤ 11) :
    s.axRow sub = (s.take m j false).setTaken { mbx := m, buf := j, subs := [BitVec.ofNat 8 sub], ready := true } := by
  have hserves : ¬(s.reqOp j ≠ 0x0020 ∨ !s.serves 0x0020) := by simp [h.opcode, h.served]
  have hcount' : ¬(!s.countOk j 4 64) = true := by simp [hc]
  have hhead : ¬(s.frm.role ≠ .head ∨ !s.frm.run) := by simp [hrole, hrun]
  unfold State.axRow
  rw [State.curAx_of_nextReq h.next, h.next]
  dsimp only
  rw [if_neg hserves, if_neg hcount', if_neg hhead, State.axPass_one hcount hsub hknown rfl, if_pos (.inr hsub)]
  exact State.axEntry_one hcount hsub hknown

/-- The request taken, replaced by what is known of it now, waits in FW. -/
theorem State.take_setTaken {s : State} {m j : Nat} {r : Bool} {t' : Taken} (hbuf : t'.buf = j) (hfree : ∀ t ∈ s.host.taken, t.buf ≠ j) :
    ((s.take m j r).setTaken t').bufSt j = .fw ∧ ((s.take m j r).setTaken t').host.taken = s.host.taken ++ [t'] :=
  ⟨State.take_bufSt s m j r, map_taken_last (t := { mbx := m, buf := j, subs := [], ready := r }) hbuf hfree⟩

/-- Settles O30. -/
theorem axisCommandsAreTaken : Obligations.AxisCommandsAreTaken := by
  intro x hx s m j n h hc hrole hrun hcount hsub hfree
  have hrow : exec x.1 s = .next (s.axRow x.2) ∧ 1 ≤ x.2 ∧ x.2 ≤ 11 := by
    fin_cases hx <;> exact ⟨rfl, by decide, by decide⟩
  refine ⟨_, hrow.1, ?_⟩
  rw [State.axRow_one h hc hrole hrun hcount hsub hrow.2]
  exact State.take_setTaken rfl hfree

/-! ## PARAM_WRITE, OVL_APPLY, CFG_ACTIVATE -/

@[simp] theorem State.take_refuse (s : State) (m j : Nat) (r : Bool) : (s.take m j r).refuse = s.refuse := rfl

@[simp] theorem State.take_ovl (s : State) (m j : Nat) (r : Bool) (k : Nat) :
    (s.take m j r).ovlSt k = s.ovlSt k ∧ (s.take m j r).ovlImage k = s.ovlImage k := ⟨rfl, rfl⟩

@[simp] theorem State.take_parts (s : State) (m j : Nat) (r : Bool) : (s.take m j r).frm = s.frm ∧ (s.take m j r).cfg = s.cfg ∧
    (s.take m j r).pwr = s.pwr ∧ (s.take m j r).params = s.params := ⟨rfl, rfl, rfl, rfl⟩

theorem State.serveSlot_request {s : State} {m j n : Nat} (h : Request s m j 0x0042 n) {p : Nat → Bool} (hp : p (s.pay j 0 1) = true)
    (f : State → Nat → Nat → State) : s.serveSlot p f = f (s.take m j true) m j := by
  unfold State.serveSlot
  rw [h.next]
  exact if_pos ⟨h.opcode, hp⟩

/-- A slot that is activated is the preferred one, and, no configuration running, starts next. -/
theorem State.activate_switchTo {s : State} (k : Nat) (h : s.cfg.running = false) :
    (s.activate k).switchTo k = { s with cfg := { s.cfg with prefBase := k, cfgSlot := k, startReq := some k } } := by
  have hidle : ¬(s.activate k).cfg.running = true := by simp [State.activate, h]
  unfold State.switchTo
  rw [if_neg hidle]
  rfl

/-- Settles O32. -/
theorem boundaryRequestsWait : Obligations.BoundaryRequestsWait := by
  intro s m j n
  refine ⟨fun h hc hrole hrun => ⟨_, rfl, ?_⟩, fun h hc hrole hcan => ?_, fun h hk hr hrun hrole hstage hvalid hfree => ⟨_, rfl, ?_⟩,
    fun h hk hpass hrun hhead => ⟨_, rfl, ?_⟩, fun h hk hpass hidle hstop hcan => ⟨_, rfl, ?_⟩⟩
  · rw [State.serve_request h]
    simp only [State.take_countOk, State.take_parts, hc, hrole, hrun]
    exact ⟨State.take_bufSt s m j true, rfl, State.take_taken s m j true⟩
  · refine ⟨_, rfl, ?_⟩
    rw [State.serve_request h]
    simp only [State.take_countOk, State.take_parts, hc, hrole]
    exact ⟨answered_of_take (s := s) rfl hcan, (State.answer_only _ _ _ _ _ _).out .params rfl⟩
  · have hlen : ¬(s.take m j true).reqLen j ≠ 2 := by simp [h.len]
    rw [State.serve_request h]
    simp only [if_neg hlen, State.take_pay, State.take_parts, State.take_ovl, hvalid]
    rw [if_neg (by omega), if_neg (by simp [hrun, hrole, hstage])]
    exact State.take_setTaken rfl hfree
  · have hbase : ((s.pay j 0 1) != 2 && (s.pay j 0 1) != 3) = true := by simp; omega
    have hlen : ¬(s.take m j true).reqLen j ≠ 1 := by simp [h.len]
    rw [State.serveSlot_request h hbase]
    simp only [if_neg hlen, State.take_pay, State.take_parts, State.take_refuse, hpass]
    rw [if_neg (by omega), if_neg (by omega), if_pos ⟨hrun, hhead⟩]
    exact ⟨State.take_bufSt s m j true, rfl, State.take_taken s m j true⟩
  · have hbase : ((s.pay j 0 1) != 2 && (s.pay j 0 1) != 3) = true := by simp; omega
    have hlen : ¬(s.take m j true).reqLen j ≠ 1 := by simp [h.len]
    rw [State.serveSlot_request h hbase]
    simp only [if_neg hlen, State.take_pay, State.take_parts, State.take_refuse, hpass]
    rw [if_neg (by omega), if_neg (by omega), if_neg (by simp [hstop]), if_neg (by simp [hstop]),
      State.activate_switchTo (s := s.take m j true) _ hidle]
    refine ⟨?_, ?_, answered_of_take (s := s) rfl hcan⟩ <;> rw [(State.answer_only _ _ _ _ _ _).out .cfg rfl]

end Sys2Proof.Machine
end

section
/-! Flash slots written by request, keys provisioned, the lifecycle moved (R411, R413, R420, R421). -/

namespace Sys2Proof.Machine

/-! ## The flash under a slot's operations -/

theorem State.ovlShow_cfg (s : State) (k : Nat) : (s.ovlShow k).cfg = s.cfg := (State.ovlShow_only s k).out .cfg rfl

theorem State.slotErase_cfg {s : State} {c a size : Nat} (h : slotSpace c = some (a, size)) :
    (s.slotErase c).cfg = { s.cfg with flash := merase s.cfg.flash a size } := by
  unfold State.slotErase
  rw [h]
  exact State.read_ite State.cfg (State.ovlShow_cfg _ _) rfl

/-- The check of a slot changes neither the flash nor what is being erased. -/
theorem State.slotVerify_flash (s : State) (c : Nat) :
    (s.slotVerify c).cfg.flash = s.cfg.flash ∧ (s.slotVerify c).cfg.erasing = s.cfg.erasing := by
  unfold State.slotVerify
  refine State.of_ite (P := fun u => u.cfg.flash = _ ∧ u.cfg.erasing = _) ?_
    (State.of_ite (P := fun u => u.cfg.flash = _ ∧ u.cfg.erasing = _) ⟨rfl, rfl⟩ ?_)
  · exact State.of_ite (P := fun u => u.cfg.flash = _ ∧ u.cfg.erasing = _) ⟨rfl, rfl⟩ ⟨rfl, rfl⟩
  · rw [State.ovlShow_cfg]
    exact ⟨rfl, rfl⟩

theorem State.slotStored_flash {s : State} {c a size : Nat} (h : slotSpace c = some (a, size)) (off : Nat) (d : List Byte) :
    (s.slotStored c off d).cfg.flash = mwrite flashByte s.cfg.flash (a + off) d ∧
    (s.slotStored c off d).cfg.erasing = s.cfg.erasing := by
  unfold State.slotStored
  rw [h]
  dsimp only
  split
  · exact State.of_ite (P := fun u => u.cfg.flash = _ ∧ u.cfg.erasing = _) (State.slotVerify_flash _ _) ⟨rfl, rfl⟩
  · exact ⟨rfl, rfl⟩

@[simp] theorem length_bufBytes (s : State) (j o n : Nat) : (s.bufBytes j o n).length = n := length_mread _ _ _ _

/-! ## CFG_WRITE -/

section Write
variable {s : State} {m j n a size : Nat}

/-- What CFG_WRITE does with a segment it may store. -/
theorem execCfgWrite_segment (h : Request s m j 0x0041 n) (h9 : 9 ≤ n) (h493 : n ≤ 493) (h4 : (n - 5) % 4 = 0)
    (hsp : slotSpace (s.pay j 0 1) = some (a, size)) (hfit : s.pay j 1 4 + (n - 5) ≤ size) (hruns : s.slotRuns (s.pay j 0 1) = false)
    (her : s.cfg.erasing = none) :
    exec .cfgWrite s = .next (if s.pay j 1 4 = 0 then
        { s.take m j true with cfg := { s.cfg with erasing := some (s.pay j 0 1, s.bufBytes j 21 (n - 5), j), slots := tset {} (s.pay j 0 1) {} s.cfg.slots } }
      else if !(tget {} s.cfg.slots (s.pay j 0 1)).wrote ∨ s.pay j 1 4 ≠ (tget {} s.cfg.slots (s.pay j 0 1)).next then
        (s.take m j true).answer m j stBadValue 0 []
      else ((s.take m j true).slotStored (s.pay j 0 1) (s.pay j 1 4) (s.bufBytes j 21 (n - 5))).answer m j stOk 0 []) := by
  have hser : exec .cfgWrite s = .next (s.serve 0x0041 _) := rfl
  rw [hser, State.serve_request h]
  have hlen : ¬(n < 9 ∨ 493 < n ∨ (n - 5) % 4 ≠ 0) := by omega
  have hidle : ¬((s.take m j true).slotRuns (s.pay j 0 1) ∨ (s.take m j true).cfg.erasing.isSome) := by
    change ¬(s.slotRuns (s.pay j 0 1) = true ∨ s.cfg.erasing.isSome = true)
    simp [hruns, her]
  simp only [State.take_reqLen, State.take_pay, h.len, if_neg hlen, hsp]
  rw [if_neg (by omega)]
  exact congrArg Host.Outcome.next (if_neg hidle)

end Write

theorem slotsAreWritten : SlotsAreWritten := by
  refine ⟨?_, ?_, ?_⟩
  · intro s m j n a size h h9 h493 h4 hsp hfit hruns her
    have hex := execCfgWrite_segment h h9 h493 h4 hsp hfit hruns her
    refine ⟨fun h0 => ?_, fun hcan h0 hw hnext => ?_⟩
    · rw [if_pos h0] at hex
      exact ⟨_, hex, rfl, rfl, rfl⟩
    · have hgo : ¬(!(tget {} s.cfg.slots (s.pay j 0 1)).wrote ∨ s.pay j 1 4 ≠ (tget {} s.cfg.slots (s.pay j 0 1)).next) := by
        simp [hw, hnext]
      rw [if_neg h0, if_neg hgo] at hex
      refine ⟨_, hex, answered_of_take (s := s) ?_ hcan, ?_⟩
      · rw [(State.slotStored_only _ _ _ _).out .host rfl]
        rfl
      · have hread := mread_mwrite flashByte s.cfg.flash (a + s.pay j 1 4) (s.bufBytes j 21 (n - 5)) hcan.flash
        rw [length_bufBytes] at hread
        rw [(State.answer_only _ _ _ _ _ _).out .cfg rfl, (State.slotStored_flash hsp _ _).1]
        exact hread
  · intro s c j m a size d hcan her hm hsp
    have hex : exec .flashWriteComplete s = .next (((State.slotErase { s with cfg := { s.cfg with erasing := none } } c).slotStored c 0 d).answer m j
        stOk 0 []) := by
      change execFlashWriteComplete s = _
      unfold execFlashWriteComplete
      rw [her]
      simp only [hm, Option.getD_some]
    obtain ⟨hflash, herasing⟩ := State.slotStored_flash (s := State.slotErase { s with cfg := { s.cfg with erasing := none } } c) hsp 0 d
    rw [State.slotErase_cfg hsp] at hflash herasing
    have hwf := wf_merase flashByte s.cfg.flash a size hcan.flash
    refine ⟨_, hex, ?_, answered_of_take (s := s) ?_ hcan, ?_⟩
    · rw [(State.answer_only _ _ _ _ _ _).out .cfg rfl, herasing]
    · rw [(State.slotStored_only _ _ _ _).out .host rfl, (State.slotErase_only _ _).out .host rfl]
    · rw [(State.answer_only _ _ _ _ _ _).out .cfg rfl, hflash]
      exact mread_mwrite flashByte _ _ _ hwf
  · intro s m j hcan h hk
    have hslot : ((s.pay j 0 1) == 2 || (s.pay j 0 1) == 3) = true := by simpa using hk
    have hlen : ¬(s.take m j true).reqLen j ≠ 1 := by simp [h.len]
    have himg : (s.take m j true).fwImage = s.fwImage := rfl
    refine ⟨fun hsig => ⟨_, rfl, ?_⟩, fun hsig => ⟨_, rfl, ?_⟩⟩ <;> rw [State.serveSlot_request h hslot] <;>
      simp only [if_neg hlen, State.take_pay, himg, hsig]
    · refine ⟨?_, answered_of_take (s := s) rfl hcan⟩
      exact congrArg Cfg.prefFw ((State.answer_only _ _ _ _ _ _).out .cfg rfl)
    · exact ⟨(State.answer_only _ _ _ _ _ _).out .cfg rfl, answered_of_take (s := s) rfl hcan⟩

theorem keysAndLifecycle : KeysAndLifecycle := by
  intro s m j hcan
  have hidle : (s.take m j true).axesIdle = s.axesIdle := rfl
  have hsto : (s.take m j true).allSto = s.allSto := rfl
  have hcfg (t : State) : (t.answer m j stOk 0 []).cfg = t.cfg := (State.answer_only t m j stOk 0 []).out .cfg rfl
  have hlen {v n : Nat} (h : Request s m j v n) : ¬(s.take m j true).reqLen j ≠ n := by simp [h.len]
  have hpay (a b : Nat) : (s.take m j true).pay j a b = s.pay j a b := State.take_pay ..
  refine ⟨fun h hk hl hkey => ?_, fun h hk hl hkey => ?_, fun h hk hl => ?_, fun h hk hle hid hax hst hkeys => ?_,
    fun h hk hle hid hax => ?_⟩
  · refine ⟨_, congrArg Host.Outcome.next ((State.serve_request h _).trans <| (if_neg (hlen h)).trans <|
      (if_neg (by rw [hpay]; omega)).trans <| (if_neg (not_not_intro hl)).trans <| (if_pos ((hpay _ _).trans hk)).trans <|
      if_neg (by simp [hkey])), ?_⟩
    exact ⟨(congrArg Cfg.cfgKey (hcfg _)).trans (by rw [State.take_bufBytes]), (congrArg Cfg.safeKey (hcfg _)).trans rfl,
      answered_of_take (s := s) rfl hcan⟩
  · refine ⟨_, congrArg Host.Outcome.next ((State.serve_request h _).trans <| (if_neg (hlen h)).trans <|
      (if_neg (by rw [hpay]; omega)).trans <| (if_neg (not_not_intro hl)).trans <| (if_neg (by rw [hpay]; omega)).trans <|
      if_neg (by simp [hkey])), ?_⟩
    exact ⟨(congrArg Cfg.safeKey (hcfg _)).trans (by rw [State.take_bufBytes]), (congrArg Cfg.cfgKey (hcfg _)).trans rfl,
      answered_of_take (s := s) rfl hcan⟩
  · refine ⟨_, congrArg Host.Outcome.next ((State.serve_request h _).trans <| (if_neg (hlen h)).trans <|
      (if_neg (by rw [hpay]; omega)).trans <| if_pos hl), ?_⟩
    exact ⟨(State.answer_only _ _ _ _ _ _).out .cfg rfl, answered_of_take (s := s) rfl hcan⟩
  · have hwipe : (if (s.take m j true).pay j 0 1 = 3 then (s.take m j true).wipe else s.take m j true) = s.take m j true :=
      if_neg (by rw [hpay]; omega)
    refine ⟨_, congrArg Host.Outcome.next ((State.serve_request h _).trans <| (if_neg (hlen h)).trans <|
      (if_neg (by simp only [hpay, State.take_parts]; omega)).trans <| (if_neg ?_)), ?_⟩
    · simp only [hpay, hidle, hsto, hax, hst, State.take_parts]
      simpa using hkeys
    · rw [hwipe, hpay]
      exact ⟨(congrArg Cfg.lcyNext (hcfg _)).trans rfl, (congrArg Cfg.lcy (hcfg _)).trans rfl, (congrArg Cfg.flash (hcfg _)).trans rfl,
        answered_of_take (s := s) rfl hcan⟩
  · refine ⟨_, congrArg Host.Outcome.next ((State.serve_request h _).trans <| (if_neg (hlen h)).trans <|
      (if_neg (by simp only [hpay, State.take_parts]; omega)).trans <| if_pos (Or.inl (by rw [hidle, hax]; rfl))), ?_⟩
    exact ⟨(State.answer_only _ _ _ _ _ _).out .cfg rfl, answered_of_take (s := s) rfl hcan⟩

/-- Settles O35. -/
theorem slotsKeysAndLifecycle : Obligations.SlotsKeysAndLifecycle := ⟨slotsAreWritten, keysAndLifecycle⟩

end Sys2Proof.Machine
end

section
namespace Sys2Proof.Machine
open Host

/-- What a start does after it has set the role and the frame: none of it touches either again, nor the configuration. -/
theorem State.startConfig_starts (s : State) (k : Nat) : (s.startConfig k).cfg.running = true ∧ (s.startConfig k).cfg.cfgSlot = k ∧
    (s.startConfig k).cfg.startReq = none ∧ (s.startConfig k).cfg.hash = crc32 (imgSched (s.baseImage k)) ∧
    (s.startConfig k).cfg.digest = imgDigest (s.baseImage k) ∧ (s.startConfig k).frm.frame = 0 ∧ (s.startConfig k).frm.run = false := by
  have htail : ∃ x : State, Only [.axes, .lines, .zones, .steps, .encs, .net, .dsp, .fio, .cap, .host, .params, .lgr] x (s.startConfig k) ∧
      x.cfg.running = true ∧ x.cfg.cfgSlot = k ∧ x.cfg.startReq = none ∧ x.cfg.hash = crc32 (imgSched (s.baseImage k)) ∧
      x.cfg.digest = imgDigest (s.baseImage k) ∧ x.frm.frame = 0 ∧ x.frm.run = false := by
    unfold State.startConfig
    refine ⟨_, Only.foldl (fun t o ht => Only.step (State.ovlShow_only ..) (by decide) ht) <|
      Only.foldl (fun t o ht => Only.step (State.openLedger_only ..) (by decide) ht) <|
      Only.step (State.ioStart_only ..) (by decide) <| Only.step (State.hostStart_only ..) (by decide) <|
      Only.step (State.enablePorts_only ..) (by decide) <| Only.step (State.netStart_only ..) (by decide) <|
      Only.step (State.writeTasks_only ..) (by decide) <| Only.step (State.initAxes_only ..) (by decide) <| Only.refl _ _, ?_⟩
    have hcfg (t : State) (r : Role) : (t.setRole r).cfg = t.cfg := (State.setRole_only t r).out .cfg rfl
    refine ⟨?_, ?_, ?_, ?_, ?_, rfl, rfl⟩ <;> dsimp only <;> rw [hcfg]
  obtain ⟨x, hx, hrest⟩ := htail
  rw [hx.out .cfg rfl, hx.out .frm rfl]
  exact hrest

/-- Settles O36. -/
theorem partsBoot : Obligations.PartsBoot := by
  refine ⟨fun s hup hoff => ?_, fun s k hreq hup hfull hrun => ?_⟩
  · have hcold : ¬((!s.pwr.up) = true ∨ s.cfg.fwOn = true) := by simp [hup, hoff]
    have hex : exec .bootStart s = _ := congrArg Host.Outcome.next (if_neg hcold)
    refine ⟨fun hnone => ?_, fun hsome => ?_⟩
    · rw [hnone] at hex
      exact ⟨_, hex, rfl, rfl, rfl⟩
    · rw [hsome] at hex
      refine ⟨_, hex.trans (congrArg Host.Outcome.next (if_neg Bool.false_ne_true)), ?_⟩
      rw [if_neg (by simp [State.runFw])]
      have hcfg (t : State) (x : Nat) : (t.retentionClosures.log 3 0 0 x []).cfg = t.cfg :=
        ((State.log_only ..).out .cfg rfl).trans ((State.retentionClosures_only t).out .cfg rfl)
      have hpwr (t : State) (x : Nat) : (t.retentionClosures.log 3 0 0 x []).pwr = t.pwr :=
        ((State.log_only ..).out .pwr rfl).trans ((State.retentionClosures_only t).out .pwr rfl)
      dsimp only
      rw [hcfg, hpwr]
      exact ⟨rfl, rfl, rfl⟩
  · have hgo : ¬((!s.pwr.up) = true ∨ (!s.fullService) = true ∨ s.cfg.running = true) := by simp [hup, hfull, hrun]
    have hex : exec .baseConfigStart s = .next (if s.refuse k = 0 then s.startConfig k else s.refuseConfig k (s.refuse k)) := by
      change execBaseConfigStart s = _
      unfold execBaseConfigStart
      rw [hreq]
      exact congrArg Host.Outcome.next (if_neg hgo)
    refine ⟨fun hok => ⟨_, hex.trans (congrArg Host.Outcome.next (if_pos hok)), s.startConfig_starts k⟩,
      fun hbad => ⟨_, hex.trans (congrArg Host.Outcome.next (if_neg hbad)), ?_⟩⟩
    have hcfg (t : State) (c : Nat) : (t.raiseDev c []).cfg = t.cfg := (State.raiseDev_only t c []).out .cfg rfl
    exact ⟨(congrArg Cfg.running (hcfg _ _)).trans hrun, congrArg Cfg.reason (hcfg _ _), State.raiseDev_hasEvent ..⟩

/-- Settles O1. -/
theorem stepRunsFrontCommand : Obligations.StepRunsFrontCommand := fun _ _ _ => rfl

/-- Settles O2. -/
theorem emptyQueuePassesOneCycle : Obligations.EmptyQueuePassesOneCycle := by
  intro s hq hls hfix hrate hslew hacc
  have htrim : (if s.frm.role = .head then s.frm.fixTrim + s.frm.lsTrim else tget 0 s.net.rate s.syncBranch) = 0 := by
    rw [hls, hfix, hrate]
    split <;> rfl
  have hover : s.slewOver (s.frm.now + 16) = 0 := by simp [State.slewOver, slewPart, hslew]
  have hstep : step s = .next s.idleCycle := by
    unfold step
    rw [hq]
  refine ⟨_, hstep, ((State.idleCycle_only s).out .pending rfl).trans hq, ?_⟩
  unfold State.idleCycle
  dsimp only
  rw [htrim, hover, hacc, State.goto_frm]
  change s.frm.now + (s.frm.now + 16 - s.frm.now) = s.frm.now + 16
  omega

end Sys2Proof.Machine
end

section
namespace Sys2Proof.Machine
open Host

theorem length_beBytes (n v : Nat) : (beBytes n v).length = n := (List.length_reverse ..).trans (length_leBytes n v)

theorem length_padTo (n : Nat) (bs : List Byte) : (padTo n bs).length = max n bs.length := by
  simp only [padTo, List.length_append, List.length_replicate]
  omega

theorem length_withFcs (bs : List Byte) : (withFcs bs).length = bs.length + 4 := by
  simp [withFcs, length_leBytes]

theorem State.length_macs (s : State) (p a b : Nat) : (s.macs p a b).length = 14 := by
  simp [State.macs, length_beBytes]

theorem Hdr.length_bytes (h : Hdr) : h.bytes.length = 8 := by
  simp [Hdr.bytes, length_beBytes]

theorem length_segPayload (seq base : W32) (snap : W48) (no nseg : Nat) (final shadow : Bool) (data : List Byte) :
    (segPayload seq base snap no nseg final shadow data).length = 22 + segData := by
  have htake : ((data.drop (segData * no)).take segData).length ≤ segData := List.length_take_le ..
  simp only [segPayload, List.length_append, length_beBytes, length_padTo]
  omega

/-- R240: a segment's frame has 1,504 bytes. -/
theorem State.length_firnFrame_segPayload (s : State) (fc : Nat) (dir : Bool) (seq base : W32) (snap : W48) (no nseg : Nat)
    (final shadow : Bool) (data : List Byte) :
    (s.firnFrame 9 fc dir (segPayload seq base snap no nseg final shadow data)).length = 1504 := by
  simp only [State.firnFrame, length_withFcs, length_padTo, List.length_append, State.length_macs, Hdr.length_bytes,
    length_segPayload, segData]
  decide

/-- The next segment is the shadow record's or one of an image. -/
theorem State.nextSeg_of {s : State} {x : Segment × Bool} (h : s.nextSeg = some x) : x.1 = s.shadowSeg ∨ ∃ im, x.1 = s.imageSeg im := by
  have hshadow (o : Option (Segment × Bool)) (ho : o = if s.red.outShNext < s.red.outShN then some (s.shadowSeg, true) else none)
      (hx : o = some x) : x.1 = s.shadowSeg := by
    rw [ho] at hx
    split at hx
    · exact (congrArg Prod.fst (Option.some.inj hx)).symm
    · cases hx
  unfold State.nextSeg at h
  dsimp only at h
  cases hout : s.red.out with
  | none =>
    rw [hout] at h
    exact .inl (hshadow _ rfl h)
  | some im =>
    rw [hout] at h
    dsimp only at h
    generalize hsh : (if s.red.outShNext < s.red.outShN then some (s.shadowSeg, true) else none) = sh at h
    split_ifs at h
    · exact .inr ⟨im, (congrArg Prod.fst (Option.some.inj h)).symm⟩
    · exact .inl (hshadow _ hsh.symm h)
    · exact .inr ⟨im, (congrArg Prod.fst (Option.some.inj h)).symm⟩

theorem State.length_nextSeg {s : State} {g : Segment} {sh : Bool} (h : s.nextSeg = some (g, sh)) : g.bytes.length = 1504 := by
  have hseg : g = s.shadowSeg ∨ ∃ im, g = s.imageSeg im := State.nextSeg_of h
  obtain rfl | ⟨im, rfl⟩ := hseg
  · exact State.length_firnFrame_segPayload ..
  · exact State.length_firnFrame_segPayload ..

theorem imagesAreSent : ImagesAreSent := by
  refine ⟨fun s hh hp hr ht hsn hk => ?_, fun s g shadow hh hp hseg => ?_⟩
  · have hgo : ¬((!s.isHead) = true ∨ (!s.paired) = true ∨ s.red.restartOn = true ∨ s.frm.tickPend = true ∨
        s.red.snapAt = some s.frm.frame ∨ (!s.kernelsDone) = true) := by simp [hh, hp, hr, ht, hsn, hk]
    have hex : exec .snapshot s = _ := congrArg Host.Outcome.next (if_neg hgo)
    refine ⟨fun hy h0 => ⟨_, hex.trans (congrArg Host.Outcome.next (if_pos (by simp [hy, h0]))), rfl, rfl, rfl, rfl⟩,
      fun hy hf ho => ?_, fun hy hf ho hn => ?_⟩
    · have hnofinal : ¬(s.red.ystate == 1 && s.red.yTries == 0) = true := by
        rcases hy with hy | hy <;> simp [hy]
      have hidle : ¬((s.red.out.isSome && decide (s.red.outNext < s.red.outN)) || s.red.ystate == 1 || s.red.ystate == 2) = true := by
        rcases hy with hy | hy <;> simp [hy, ho]
      exact ⟨_, hex.trans (congrArg Host.Outcome.next ((if_neg hnofinal).trans ((if_neg (not_not_intro hf)).trans (if_neg hidle)))),
        rfl, rfl, rfl, rfl, rfl⟩
    · have hnofinal : ¬(s.red.ystate == 1 && s.red.yTries == 0) = true := by simp [hy]
      have hbusy : ((s.red.out.isSome && decide (s.red.outNext < s.red.outN)) || s.red.ystate == 1 || s.red.ystate == 2) = true := by
        simp [Option.isSome_iff_ne_none.mpr ho, hn]
      exact ⟨_, hex.trans (congrArg Host.Outcome.next ((if_neg hnofinal).trans ((if_neg (not_not_intro hf)).trans (if_pos hbusy)))),
        rfl, rfl, rfl⟩
  · have hgo : ¬((!s.isHead) = true ∨ (!s.paired) = true) := by simp [hh, hp]
    have hex : exec .firnSegmentSend s = _ := congrArg Host.Outcome.next (if_neg hgo)
    rw [hseg] at hex
    refine ⟨fun hfit => ⟨_, hex.trans (congrArg Host.Outcome.next (if_neg (by omega))), ?_⟩,
      fun hlate => hex.trans (congrArg Host.Outcome.next (if_pos hlate))⟩
    have hred (t : Nat) : ((s.goto t).pulseX 0x26).red = s.red :=
      ((State.pulseX_only ..).out .red rfl).trans ((State.goto_only s t).out .red rfl)
    have hnow (t : Nat) : ((s.goto t).pulseX 0x26).frm.now = s.frm.now + (t - s.frm.now) := by
      rw [(State.pulseX_only ..).out .frm rfl, State.goto_frm]
    have hlater : s.frm.now + (max s.frm.now s.red.firnFree - s.frm.now) = max s.frm.now s.red.firnFree := by omega
    cases shadow with
    | false => exact ⟨rfl, (hnow _).trans hlater, State.length_nextSeg hseg, fun _ => (congrArg (fun r : Red => r.outNext + 1) (hred _)).trans rfl,
        fun h => absurd h Bool.false_ne_true⟩
    | true => exact ⟨rfl, (hnow _).trans hlater, State.length_nextSeg hseg, fun h => absurd h.symm Bool.false_ne_true,
        fun _ => (congrArg (fun r : Red => r.outShNext + 1) (hred _)).trans rfl⟩

/-- What the goto and the link pulse of a received frame leave of the redundancy. -/
theorem State.received_red (s : State) (t k : Nat) : ((s.goto t).pulseX k).red = s.red :=
  ((State.pulseX_only ..).out .red rfl).trans ((State.goto_only s t).out .red rfl)

theorem Red.assemble_crcFail (r : Red) (g : Segment) : (r.assemble g).crcFail = r.crcFail := by
  unfold Red.assemble Red.openBuf
  grind

/-- The image that is built meanwhile is never the newest one. -/
theorem Red.assemble_newest (r : Red) (g : Segment) : (r.assemble g).newest = r.newest := by
  unfold Red.assemble Red.openBuf Red.newest
  grind

theorem Red.store_newest (r : Red) (i : Image) (h : ∀ n, r.newest = some n → seqAbove i.seq n.seq = true) :
    (r.store i).newest = some i := by
  unfold Red.store
  cases hn : r.newest with
  | none => cases h1 : r.newest1 <;> simp [Red.newest]
  | some n => cases h1 : r.newest1 <;> simp [Red.newest, h n hn]

/-- The redundancy after the last segment of an image, with the result of R244. -/
def Red.afterLast (r : Red) (g : Segment) : Red :=
  let q := { r with
    health := if r.result g != 0 then r.health ||| BitVec.ofNat 32 (2 ^ 9) else r.health &&& ~~~(BitVec.ofNat 32 (2 ^ 9))
    retDue := some (g.seq, r.result g), crcFail := satAdd 8 r.crcFail (b2n (r.result g != 0)), segBad := true, asm := [] }
  match g.img with
  | some i => if r.result g = 0 then q.store (Image.received g.seq g.snap (r.built g) i) else q
  | none => q

/-- The last segment of an image. -/
theorem execFirnSegmentReceived_last {s : State} {g : Segment} (t : Nat) (hrole : s.frm.role = .standby) (hrun : s.frm.run = true)
    (hw : g.whole = true) (hsh : g.shadow = false) (hlast : g.segno + 1 = g.nseg) :
    ∃ u, exec (.firnSegmentReceived g t) s = .next u ∧ u.red = (s.red.assemble g).afterLast g := by
  have hgo : ¬(s.frm.role ≠ .standby ∨ (!s.frm.run) = true ∨ (!g.whole) = true) := by simp [hrole, hrun, hw]
  refine ⟨_, congrArg Host.Outcome.next ((if_neg hgo).trans ((if_neg (by simp [hsh])).trans (if_neg (not_not_intro hlast)))), ?_⟩
  cases hi : g.img with
  | none =>
    dsimp only
    rw [State.received_red]
    simp only [Red.afterLast, hi]
    rfl
  | some i =>
    dsimp only
    rw [State.received_red]
    simp only [Red.afterLast, hi]
    rfl

theorem Red.afterLast_refused {r : Red} {g : Segment} {k : Nat} (hk : r.result g = k + 1) : (r.afterLast g).retDue = some (g.seq, k + 1) ∧
    (r.afterLast g).crcFail = min (r.crcFail + 1) 255 ∧ (r.afterLast g).health.getLsbD 9 = true ∧ (r.afterLast g).newest = r.newest := by
  have hq : (r.afterLast g) = { r with
      health := r.health ||| BitVec.ofNat 32 (2 ^ 9), retDue := some (g.seq, k + 1), crcFail := satAdd 8 r.crcFail 1, segBad := true, asm := [] } := by
    unfold Red.afterLast
    rw [hk]
    cases g.img <;> rfl
  rw [hq]
  refine ⟨rfl, rfl, ?_, rfl⟩
  simp

theorem Red.afterLast_stored {r : Red} {g : Segment} {i : Image} (hk : r.result g = 0) (hi : g.img = some i) :
    (r.afterLast g).retDue = some (g.seq, 0) ∧ (r.afterLast g).crcFail = min r.crcFail 255 ∧ (r.afterLast g).health.getLsbD 9 = false ∧
    ((∀ n, r.newest = some n → seqAbove g.seq n.seq = true) → (r.afterLast g).newest = some (Image.received g.seq g.snap (r.built g) i)) := by
  have hq : r.afterLast g = { r with
      health := r.health &&& ~~~(BitVec.ofNat 32 (2 ^ 9)), retDue := some (g.seq, 0), crcFail := satAdd 8 r.crcFail 0, segBad := true
      asm := [] }.store (Image.received g.seq g.snap (r.built g) i) := by
    unfold Red.afterLast
    rw [hk, hi]
    rfl
  have hstore (q : Red) (im : Image) : (q.store im).retDue = q.retDue ∧ (q.store im).crcFail = q.crcFail ∧ (q.store im).health = q.health := by
    unfold Red.store
    cases q.newest1 <;> exact ⟨rfl, rfl, rfl⟩
  obtain ⟨hret, hcrc, hhealth⟩ := hstore { r with
      health := r.health &&& ~~~(BitVec.ofNat 32 (2 ^ 9)), retDue := some (g.seq, 0), crcFail := satAdd 8 r.crcFail 0, segBad := true
      asm := [] } (Image.received g.seq g.snap (r.built g) i)
  rw [hq, hret, hcrc, hhealth]
  refine ⟨rfl, rfl, ?_, fun hup => Red.store_newest _ _ hup⟩
  simp

theorem imagesAreReceived : ImagesAreReceived := by
  refine ⟨fun s g t hw => congrArg Host.Outcome.next (if_pos (by simp [hw])), fun s g t hrole hrun hw hsh hlast => ?_,
    fun s q res hrole hrun hdue => ?_, fun s f t hrole hrun hty hdir => ?_⟩
  · obtain ⟨u, hex, hred⟩ := execFirnSegmentReceived_last t hrole hrun hw hsh hlast
    intro r
    refine ⟨fun i hi hhold hbad hcrc => ⟨u, hex, ?_⟩, fun hhold hbad => ⟨u, hex, ?_⟩, fun hhold => ⟨u, hex, ?_⟩⟩ <;> rw [hred]
    · have hres : r.result g = 0 := by simp [Red.result, hhold, hbad, hcrc, hi]
      rw [← Red.assemble_crcFail s.red g, ← Red.assemble_newest s.red g]
      exact Red.afterLast_stored hres hi
    · have hres : r.result g = 1 := by
        rcases hbad with hbad | hcrc
        · simp [Red.result, hhold, hbad]
        · simp [Red.result, hhold, hcrc]
      rw [← Red.assemble_crcFail s.red g, ← Red.assemble_newest s.red g]
      exact Red.afterLast_refused hres
    · have hres : r.result g = 2 := by simp [Red.result, hhold]
      obtain ⟨hret, -, -, hnew⟩ := Red.afterLast_refused hres
      exact ⟨hret, hnew.trans (Red.assemble_newest s.red g)⟩
  · have hgo : ¬(s.frm.role ≠ .standby ∨ (!s.frm.run) = true) := by simp [hrole, hrun]
    have hex : exec .returnSend s = _ := congrArg Host.Outcome.next (if_neg hgo)
    rw [hdue] at hex
    exact ⟨_, hex, rfl, List.length_append⟩
  · have hgo : ¬(s.frm.role ≠ .standby ∨ (!s.frm.run) = true) := by simp [hrole, hrun]
    have hex : exec (.parameterRecordReceived f t) s = _ := congrArg Host.Outcome.next (if_neg hgo)
    refine ⟨fun hin => ⟨_, hex.trans (congrArg Host.Outcome.next (if_pos (by simp [hin, hty, hdir]))), rfl⟩,
      fun hin => ⟨_, hex.trans (congrArg Host.Outcome.next (if_neg (by simp [hin]))), (State.goto_only ..).out .params rfl⟩⟩

/-- Settles O39. -/
theorem imagesCrossTheFirnLink : Obligations.ImagesCrossTheFirnLink := ⟨imagesAreSent, imagesAreReceived⟩

end Sys2Proof.Machine
end

section
namespace Sys2Proof.Machine
open Host

/-- A fold over indices, seen at one of them: it acts there once, on a state the earlier indices led to, and the later ones keep what
every index keeps. -/
theorem foldl_range_at {σ α : Type} {f : σ → Nat → σ} {get : σ → Nat → α} {Q : σ → Prop} (hQ : ∀ t k, Q t → Q (f t k))
    (hother : ∀ t k j, Q t → j ≠ k → get (f t k) j = get t j) {s : σ} (hs : Q s) {N n : Nat} (hn : n < N) :
    ∃ t, Q t ∧ get t n = get s n ∧ get ((List.range N).foldl f s) n = get (f t n) n ∧
      ∀ R : σ → Prop, (∀ t k, R t → R (f t k)) → R (f t n) → R ((List.range N).foldl f s) := by
  have hprefix : ∀ k, Q ((List.range k).foldl f s) ∧ (k ≤ n → get ((List.range k).foldl f s) n = get s n) := by
    intro k
    induction k with
    | zero => exact ⟨hs, fun _ => rfl⟩
    | succ k ih =>
      obtain ⟨hq, hget⟩ := ih
      rw [List.range_succ, List.foldl_append]
      exact ⟨hQ _ _ hq, fun hk => (hother _ _ _ hq (by omega)).trans (hget (by omega))⟩
  refine ⟨(List.range n).foldl f s, (hprefix n).1, (hprefix n).2 (le_refl n), ?_⟩
  induction N with
  | zero => omega
  | succ N ih =>
    rw [List.range_succ, List.foldl_append]
    by_cases hN : n = N
    · subst hN
      exact ⟨rfl, fun _ _ h => h⟩
    · obtain ⟨hget, hstable⟩ := ih (by omega)
      exact ⟨(hother _ _ _ (hprefix N).1 hN).trans hget, fun R hR h => hR _ _ (hstable R hR h)⟩

/-- The safety functions of two states differ in their input pairs only, and their frame is the same. -/
structure PairsOnly (s t : State) : Prop where
  saf : t.saf = { s.saf with pairs := t.saf.pairs }
  frm : t.frm = s.frm

theorem PairsOnly.refl (s : State) : PairsOnly s s := ⟨rfl, rfl⟩

theorem PairsOnly.setSpair {s t : State} (h : PairsOnly s t) (n : Nat) (x : SinPair) : PairsOnly s (t.setSpair n x) where
  saf := congrArg (fun f : Saf => { f with pairs := tset {} n x t.saf.pairs }) h.saf
  frm := h.frm

theorem PairsOnly.raise {s t : State} (h : PairsOnly s t) (code obj groups : Nat) (data : List Byte) :
    PairsOnly s (t.raise code obj groups data) where
  saf := by
    rw [(State.raise_only ..).out .saf rfl]
    exact h.saf
  frm := ((State.raise_only ..).out .frm rfl).trans h.frm

theorem State.sinP_congr {s t : State} (h : t.saf.params = s.saf.params) (n k : Nat) : t.sinP n k = s.sinP n k := by
  have hpar (c i m : Nat) (hc : c = 11) : t.par c i m = s.par c i m := by
    subst hc
    exact congrArg (fun q => paramIn q 11 i m) h
  exact congrArg BitVec.toNat (hpar 11 (8 + n) k rfl)

theorem PairsOnly.sinP {s t : State} (h : PairsOnly s t) (n k : Nat) : t.sinP n k = s.sinP n k :=
  State.sinP_congr (by rw [h.saf]) n k

theorem PairsOnly.judges {s t : State} (h : PairsOnly s t) : t.judgesA = s.judgesA ∧ t.judgesB = s.judgesB := by
  unfold State.judgesA State.judgesB
  rw [h.saf]
  exact ⟨rfl, rfl⟩

theorem PairsOnly.tpSource {s t : State} (h : PairsOnly s t) (n : Nat) (c : Bool) : t.tpSource n c = s.tpSource n c := by
  unfold State.tpSource
  rw [h.sinP]

/-- What one sample makes of a pair that no test pulse feeds (R270, R271). -/
theorem State.samplePair_unfed {s : State} (h : twf {} s.saf.pairs = true) {n : Nat} (h3 : s.sinP n 3 ≠ 1) (ra rb : Bool) :
    let x := (s.samplePair ra rb n).spair n
    let dB : Bool := if s.sinP n 0 = 1 then rb else !rb
    x.a = ra ∧ x.b = rb ∧ x.demand = (s.spair n).demand ∧
      (s.judgesA = true → s.judgesB = true → x.onRun = (if !ra || dB then (s.spair n).onRun + 1 else 0) ∧
        x.offRun = (if !ra || dB then 0 else (s.spair n).offRun + 1) ∧ x.discRun = (if (!ra) != dB then (s.spair n).discRun + 1 else 0)) := by
  intro x dB
  have hx : x = _ := State.setSpair_same s n _ h
  rw [hx]
  refine ⟨by simp [h3], by simp [h3], rfl, fun ha hb => ?_⟩
  simp [h3, ha, hb, dB]

theorem State.goto_saf (s : State) (t : Nat) : (s.goto t).saf = s.saf := (State.goto_only s t).out .saf rfl

theorem execSafetyInputSample_unfed (s : State) (a b : Byte) (h : twf {} s.saf.pairs = true) :
    ∃ u, exec (.safetyInputSample a b) s = .next u ∧ u.frm.now = max s.frm.now (usT 50 * (s.saf.smpK + 1)) ∧
      u.saf.smpK = s.saf.smpK + 1 ∧ ∀ n, n < 8 → s.sinP n 3 ≠ 1 →
        let dB : Bool := if s.sinP n 0 = 1 then b.getLsbD n else !b.getLsbD n
        (u.spair n).a = a.getLsbD n ∧ (u.spair n).b = b.getLsbD n ∧ (u.spair n).demand = (s.spair n).demand ∧
        (s.judgesA = true → s.judgesB = true → (u.spair n).onRun = (if !a.getLsbD n || dB then (s.spair n).onRun + 1 else 0) ∧
          (u.spair n).offRun = (if !a.getLsbD n || dB then 0 else (s.spair n).offRun + 1) ∧
          (u.spair n).discRun = (if (!a.getLsbD n) != dB then (s.spair n).discRun + 1 else 0)) := by
  have hsaf := State.goto_saf s (usT 50 * (s.saf.smpK + 1))
  have hnow : (s.goto (usT 50 * (s.saf.smpK + 1))).frm.now = s.frm.now + (usT 50 * (s.saf.smpK + 1) - s.frm.now) := by rw [State.goto_frm]
  generalize hg : s.goto (usT 50 * (s.saf.smpK + 1)) = g at hsaf hnow
  let v : State := { g with saf := { g.saf with smpK := g.saf.smpK + 1 } }
  have hex : exec (.safetyInputSample a b) s =
      .next ((List.range 8).foldl (fun s n => s.samplePair (a.getLsbD n) (b.getLsbD n) n) v) := by
    change Host.Outcome.next _ = _
    dsimp only
    rw [hg]
  have hvsaf : v.saf = { s.saf with smpK := s.saf.smpK + 1 } := by
    change { g.saf with smpK := g.saf.smpK + 1 } = _
    rw [hsaf]
  have hv (n : Nat) : v.spair n = s.spair n := by rw [State.spair, hvsaf]; rfl
  have hsin : ∀ n k, v.sinP n k = s.sinP n k := State.sinP_congr (by rw [hvsaf])
  have hja : v.judgesA = s.judgesA := by rw [State.judgesA, hvsaf]; rfl
  have hjb : v.judgesB = s.judgesB := by rw [State.judgesB, hvsaf]; rfl
  have hwf : twf {} v.saf.pairs = true := by rw [hvsaf]; exact h
  have hat (n : Nat) (hn : n < 8) := foldl_range_at (f := fun s n => State.samplePair s (a.getLsbD n) (b.getLsbD n) n) (get := State.spair)
    (Q := fun t => PairsOnly v t ∧ twf {} t.saf.pairs = true) (fun t k hq => ⟨hq.1.setSpair k _, twf_tset _ _ _ hq.2⟩)
    (fun t k j _ hj => State.setSpair_other t k j _ hj) (s := v) ⟨.refl v, hwf⟩ hn
  have hsame : PairsOnly v ((List.range 8).foldl (fun s n => s.samplePair (a.getLsbD n) (b.getLsbD n) n) v) := by
    obtain ⟨t, ⟨ht, -⟩, -, -, hkeep⟩ := hat 0 (by omega)
    exact hkeep (PairsOnly v) (fun t k hq => hq.setSpair k _) (ht.setSpair 0 _)
  refine ⟨_, hex, ?_, ?_, fun n hn h3 => ?_⟩
  · rw [hsame.frm]
    change g.frm.now = _
    rw [hnow]
    omega
  · rw [hsame.saf]
    exact congrArg Saf.smpK hvsaf
  · obtain ⟨t, ⟨ht, htwf⟩, hget, hfinal, -⟩ := hat n hn
    have hone := State.samplePair_unfed htwf (n := n) (by rw [ht.sinP, hsin]; exact h3) (a.getLsbD n) (b.getLsbD n)
    rw [hfinal, ← hv n, ← hget, ← hja, ← hjb, ← hsin n 0, ← ht.judges.1, ← ht.judges.2, ← ht.sinP n 0]
    exact hone

theorem execFilteredDemandChange_on {s : State} {p : Fin 8} (h : s.sinP p 1 ≤ (s.spair p).onRun) (hd : (s.spair p).demand = false) :
    ∃ u, exec (.filteredDemandChange p) s = .next u ∧ (u.spair p).demand = true ∧ (u.spair p).onFrom = none := by
  refine ⟨_, congrArg Host.Outcome.next (if_pos ⟨h, by simp [hd]⟩), ?_⟩
  rw [State.setSpair_ne _ _ _ (fun hx => absurd (congrArg SinPair.demand hx) (by simp))]
  exact ⟨rfl, rfl⟩

theorem execFilteredDemandChange_off {s : State} {p : Fin 8} (hon : (s.spair p).onRun < s.sinP p 1)
    (h : s.sinP p 1 ≤ (s.spair p).offRun) (hd : (s.spair p).demand = true) :
    ∃ u, exec (.filteredDemandChange p) s = .next u ∧ (u.spair p).demand = false ∧ (u.spair p).onFrom = some s.saf.tick := by
  refine ⟨_, congrArg Host.Outcome.next ((if_neg (by omega)).trans (if_pos ⟨h, hd⟩)), ?_⟩
  rw [State.setSpair_ne _ _ _ (fun hx => absurd (congrArg SinPair.onFrom hx) (by simp))]
  exact ⟨rfl, rfl⟩

theorem safetyInputsAreJudged : SafetyInputsAreJudged := by
  refine ⟨fun s a b h => ?_, fun s p h hd => execFilteredDemandChange_on h hd, fun s p hon h hd => execFilteredDemandChange_off hon h hd,
    fun s p h hl => ?_⟩
  · obtain ⟨u, hex, hnow, hk, hpairs⟩ := execSafetyInputSample_unfed s a b h
    refine ⟨u, hex, hnow, hk, fun n hn h3 => ?_⟩
    obtain ⟨ha, hb, hdem, hruns⟩ := hpairs n hn h3
    refine ⟨ha, hb, hdem, fun hja hjb h0 => ?_⟩
    obtain ⟨hon, hoff, hdisc⟩ := hruns hja hjb
    rw [hon, hoff, hdisc]
    cases a.getLsbD n <;> cases b.getLsbD n <;> simp [h0]
  · refine ⟨_, congrArg Host.Outcome.next (if_pos ⟨h, by simp [hl]⟩), ?_, State.raise_hasEvent ..⟩
    have hpairs (t : State) : (t.raise evSafeDisc p allGroups []).spair p = t.spair p := by
      rw [State.spair, (State.raise_only ..).out .saf rfl]
      rfl
    rw [hpairs, State.setSpair_ne _ _ _ (fun hx => absurd (congrArg SinPair.latch hx) (by simp))]

/-- Settles O59. -/
theorem filteredDemandFollowsItsPairs : Obligations.FilteredDemandFollowsItsPairs := by
  refine ⟨fun s a b h hja hjb => ?_, fun s p hd => ⟨fun h => ?_, fun h => ?_⟩, fun s p hd hon => ⟨fun h => ?_, fun h => ?_⟩⟩
  · obtain ⟨u, hex, -, -, hpairs⟩ := execSafetyInputSample_unfed s a b h
    refine ⟨u, hex, fun n hn h3 => ?_⟩
    obtain ⟨-, -, -, hruns⟩ := hpairs n hn h3
    obtain ⟨hon, hoff, -⟩ := hruns hja hjb
    exact ⟨hon, hoff⟩
  · obtain ⟨u, hex, hdem, -⟩ := execFilteredDemandChange_on h hd
    exact ⟨u, hex, hdem⟩
  · exact congrArg Host.Outcome.next ((if_neg (by omega)).trans (if_neg (by simp [hd])))
  · obtain ⟨u, hex, hdem, -⟩ := execFilteredDemandChange_off hon h hd
    exact ⟨u, hex, hdem⟩
  · exact congrArg Host.Outcome.next ((if_neg (by omega)).trans (if_neg (by omega)))

/-! ### Test pulses -/

theorem le_phaseFrom (per phase lo : Nat) : lo ≤ phaseFrom per phase lo := by
  unfold phaseFrom
  split <;> omega

theorem phaseFrom_mod {per phase : Nat} (h : phase < per) (lo : Nat) : phaseFrom per phase lo % per = phase := by
  have hper : per ≠ 0 := by omega
  have hlo : lo % per ≤ per := (Nat.mod_lt lo (by omega)).le
  rw [phaseFrom, if_neg hper, Nat.add_mod, Nat.mod_mod, ← Nat.add_mod]
  calc (lo + (phase + per - lo % per)) % per = (per * (lo / per) + (phase + per)) % per := by
        have hdiv := Nat.div_add_mod lo per
        congr 1
        omega
    _ = phase := by rw [Nat.mul_add_mod, Nat.add_mod_right, Nat.mod_eq_of_lt h]

/-- What the end of a pulse's test window makes of pair n: a fault where its input never read inactive (R273). -/
def State.windowEnds (k : Nat) (s : State) (n : Nat) : State :=
  let chB : Bool := 2 ≤ k
  let x := s.spair n
  if s.sinP n 3 = 1 ∧ s.tpSource n chB = k ∧ !(if chB then x.tpLowB else x.tpLowA) ∧ !x.latch then
    (s.setSpair n { x with latch := true, clr := 0, bothOn := 0, bothOff := 0 }).raise evSafeTp n allGroups []
  else s

theorem State.raise_spair (s : State) (code obj groups : Nat) (data : List Byte) (n : Nat) :
    (s.raise code obj groups data).spair n = s.spair n := by
  rw [State.spair, (State.raise_only ..).out .saf rfl]
  rfl

theorem PairsOnly.windowEnds {s t : State} (h : PairsOnly s t) (k n : Nat) : PairsOnly s (t.windowEnds k n) := by
  unfold State.windowEnds
  exact State.of_ite (P := PairsOnly s) ((h.setSpair n _).raise _ _ _ _) h

theorem State.windowEnds_other (k : Nat) (s : State) {n j : Nat} (h : j ≠ n) : (s.windowEnds k n).spair j = s.spair j := by
  unfold State.windowEnds
  refine State.of_ite (P := fun t => t.spair j = s.spair j) ?_ rfl
  rw [State.raise_spair, State.setSpair_other _ _ _ _ h]

theorem State.windowEnds_hasEvent (k : Nat) {s : State} {c o : Nat} (h : s.hasEvent c o) (n : Nat) : (s.windowEnds k n).hasEvent c o := by
  unfold State.windowEnds
  exact State.of_ite (P := fun t => t.hasEvent c o) (State.hasEvent_raise _ _ _ _ _ _ _ (State.hasEvent_of_evt (s := s) rfl h)) h

theorem State.windowEnds_faults {k : Nat} {s : State} {n : Nat} (h3 : s.sinP n 3 = 1) (hsrc : s.tpSource n (decide (2 ≤ k)) = k)
    (hhigh : (if decide (2 ≤ k) then (s.spair n).tpLowB else (s.spair n).tpLowA) = false) (hl : (s.spair n).latch = false) :
    ((s.windowEnds k n).spair n).latch = true ∧ (s.windowEnds k n).hasEvent evSafeTp n := by
  unfold State.windowEnds
  rw [if_pos ⟨h3, hsrc, by simpa using hhigh, by simp [hl]⟩]
  refine ⟨?_, State.raise_hasEvent ..⟩
  rw [State.raise_spair, State.setSpair_ne _ _ _ (fun hx => absurd (congrArg SinPair.latch hx) (by simp))]

/-- What the start of a pulse makes of pair n: an input it feeds has not read inactive yet. -/
def State.windowStarts (k : Nat) (s : State) (n : Nat) : State :=
  let x := s.spair n
  if s.tpSource n (2 ≤ k) = k then s.setSpair n (if k < 2 then { x with tpLowA := false } else { x with tpLowB := false }) else s

theorem PairsOnly.windowStarts {s t : State} (h : PairsOnly s t) (k n : Nat) : PairsOnly s (t.windowStarts k n) := by
  unfold State.windowStarts
  exact State.of_ite (P := PairsOnly s) (h.setSpair n _) h

theorem testPulsesCheckInputs : TestPulsesCheckInputs := by
  refine ⟨fun s k hlow => ?_, fun s k j hj hlow => ?_, fun s k hlow => ?_⟩
  · have hgo : ¬((List.range 4).any fun j => tget false s.saf.tpLow j) = true := by
      rw [List.any_eq_true]
      rintro ⟨j, hj, hlo⟩
      exact absurd hlo (by simp [hlow j (List.mem_range.mp hj)])
    let g := s.goto (s.tpNext k)
    let v : State := { g with saf := { g.saf with tpLow := tset false k.val true g.saf.tpLow
                                                  tpStart := tset 0 k.val (g.frm.now + 1) g.saf.tpStart } }
    have hex : exec (.testPulseStart k) s = .next ((List.range 8).foldl (State.windowStarts k) v) :=
      congrArg Host.Outcome.next (if_neg hgo)
    have hsame : PairsOnly v ((List.range 8).foldl (State.windowStarts k) v) :=
      List.foldlRecOn _ _ (PairsOnly.refl v) fun t ht n _ => ht.windowStarts k n
    have hnow : g.frm.now = s.tpNext k := by
      have hle : max s.frm.now (tget 0 s.saf.tpStart k) ≤ s.tpNext k := le_phaseFrom ..
      rw [State.goto_frm]
      dsimp only
      omega
    have hnext : max s.frm.now (tget 0 s.saf.tpStart k) ≤ g.frm.now := by
      rw [hnow]
      exact le_phaseFrom ..
    refine ⟨_, hex, ?_, ?_, ?_, ?_, fun hper => ?_⟩
    · rw [hsame.saf]
      exact tget_tset_of_ne _ _ _ _ (by decide)
    · rw [hsame.saf, hsame.frm]
      exact tget_tset_of_ne _ _ _ _ (Nat.succ_ne_zero _)
    · rw [hsame.frm]
      exact le_trans (le_max_left ..) hnext
    · rw [hsame.frm]
      exact le_trans (le_max_right ..) hnext
    · rw [hsame.frm]
      change g.frm.now % _ = _
      rw [hnow]
      refine phaseFrom_mod ?_ _
      have hk := k.isLt
      unfold msT
      generalize s.pn 11 0 1 = m at hper
      have h4 : k.val * (5000000 * m) ≤ 3 * (5000000 * m) := Nat.mul_le_mul_right _ (by omega)
      omega
  · exact congrArg Host.Outcome.next (if_pos (List.any_eq_true.mpr ⟨j, List.mem_range.mpr hj, hlow⟩))
  · intro chB hjudge
    let t0 := tget 0 s.saf.tpStart k.val - 1 + usT (s.pn 11 0 2)
    let v : State := { (s.goto t0) with saf := { (s.goto t0).saf with tpLow := tset false k.val false (s.goto t0).saf.tpLow } }
    have hvsaf : v.saf = { s.saf with tpLow := tset false k.val false s.saf.tpLow } := by
      change { (s.goto t0).saf with tpLow := tset false k.val false (s.goto t0).saf.tpLow } = _
      rw [State.goto_saf]
    have hj : (if chB then v.judgesB else v.judgesA) = true := by
      unfold State.judgesA State.judgesB at hjudge ⊢
      rw [hvsaf]
      exact hjudge
    have hex : exec (.testPulseWindowEnd k) s = .next ((List.range 8).foldl (State.windowEnds k) v) :=
      congrArg Host.Outcome.next ((if_neg (by simp [hlow])).trans (if_neg (fun h : (!(if chB then v.judgesB else v.judgesA)) = true => by rw [hj] at h; cases h)))
    refine ⟨_, hex, fun n hn => ?_⟩
    obtain ⟨t, ht, hget, hfinal, hstable⟩ := foldl_range_at (f := State.windowEnds k) (get := State.spair) (Q := PairsOnly v)
      (fun t n ht => ht.windowEnds k n) (fun t n j _ h => State.windowEnds_other k t h) (PairsOnly.refl v) hn
    have hpair : t.spair n = s.spair n := hget.trans (by rw [State.spair, hvsaf]; rfl)
    have hsin (m i : Nat) : t.sinP m i = s.sinP m i := (ht.sinP m i).trans (State.sinP_congr (by rw [hvsaf]) m i)
    have hsrc : t.tpSource n chB = s.tpSource n chB := by
      unfold State.tpSource
      rw [hsin]
    refine ⟨fun h3 hs hh hl => ?_, fun hout => ?_⟩
    · rw [← hsin] at h3
      rw [← hsrc] at hs
      rw [← hpair] at hh hl
      obtain ⟨hlatch, hev⟩ := State.windowEnds_faults h3 hs hh hl
      exact ⟨(congrArg SinPair.latch hfinal).trans hlatch, hstable (fun u => u.hasEvent evSafeTp n) (fun t j h => State.windowEnds_hasEvent k h j) hev⟩
    · rw [hfinal, State.windowEnds, if_neg ?_, hpair]
      rw [hsin, hsrc, hpair]
      rintro ⟨h3, hs, hh, -⟩
      rcases hout with hout | hout | hout
      · exact hout h3
      · exact hout hs
      · exact absurd hh (Bool.not_eq_true _ ▸ congrArg not hout)

/-- Settles O41. -/
theorem safetyInputsAreSampled : Obligations.SafetyInputsAreSampled := ⟨safetyInputsAreJudged, testPulsesCheckInputs⟩

end Sys2Proof.Machine
end

section
namespace Sys2Proof.Machine
open Host

/-! ### What the end of a safety cycle keeps -/

/-- What every part of a safety cycle's end keeps: the frame, the cycle, the inputs the decisions rest on, a canonical table of groups
and a persistent fault. -/
structure CycleKeeps (s t : State) : Prop where
  frm : t.frm = s.frm
  cycle : t.saf.cycle = s.saf.cycle
  tick : t.saf.tick = s.saf.tick
  perA : t.saf.perA = s.saf.perA
  perB : t.saf.perB = s.saf.perB
  pairs : t.saf.pairs = s.saf.pairs
  params : t.saf.params = s.saf.params
  setOk : t.saf.setOk = s.saf.setOk
  wf : twf {} s.saf.groups = true → twf {} t.saf.groups = true
  faults : ∀ c, (s.chan c).fault = .persistent → (t.chan c).fault = .persistent

/-- One that also leaves every group in its state, and the resets received as they are. -/
structure Stands (s t : State) : Prop extends CycleKeeps s t where
  grp : twf {} s.saf.groups = true → ∀ g, (t.sgrp g).st = (s.sgrp g).st ∧ (t.sgrp g).rst = (s.sgrp g).rst ∧
    (t.sgrp g).slsReq = (s.sgrp g).slsReq

theorem CycleKeeps.refl (s : State) : CycleKeeps s s := ⟨rfl, rfl, rfl, rfl, rfl, rfl, rfl, rfl, id, fun _ => id⟩

theorem CycleKeeps.trans {s t u : State} (h : CycleKeeps s t) (k : CycleKeeps t u) : CycleKeeps s u :=
  ⟨k.frm.trans h.frm, k.cycle.trans h.cycle, k.tick.trans h.tick, k.perA.trans h.perA, k.perB.trans h.perB, k.pairs.trans h.pairs,
    k.params.trans h.params, k.setOk.trans h.setOk, fun w => k.wf (h.wf w), fun c f => k.faults c (h.faults c f)⟩

theorem Stands.refl (s : State) : Stands s s := ⟨.refl s, fun _ _ => ⟨rfl, rfl, rfl⟩⟩

theorem Stands.trans {s t u : State} (h : Stands s t) (k : Stands t u) : Stands s u where
  toCycleKeeps := h.toCycleKeeps.trans k.toCycleKeeps
  grp w g := by
    obtain ⟨hst, hrst, hreq⟩ := h.grp w g
    obtain ⟨kst, krst, kreq⟩ := k.grp (h.wf w) g
    exact ⟨kst.trans hst, krst.trans hrst, kreq.trans hreq⟩

theorem Stands.foldl {α : Type} {f : State → α → State} (hf : ∀ t a, Stands t (f t a)) (s : State) (l : List α) : Stands s (l.foldl f s) :=
  List.foldlRecOn (motive := Stands s) l f (.refl s) fun t ht a _ => ht.trans (hf t a)

theorem CycleKeeps.foldl {α : Type} {f : State → α → State} (hf : ∀ t a, CycleKeeps t (f t a)) (s : State) (l : List α) :
    CycleKeeps s (l.foldl f s) :=
  List.foldlRecOn (motive := CycleKeeps s) l f (.refl s) fun t ht a _ => ht.trans (hf t a)

theorem Stands.setSaf {s t : State} {f : Saf} (h : Stands s t) (hf : Stands t { t with saf := f }) : Stands s { t with saf := f } := h.trans hf

/-- What keeps the safety functions and the frame as they are. -/
theorem Stands.of_saf {s t : State} (hfrm : t.frm = s.frm) (hsaf : t.saf = s.saf) : Stands s t where
  frm := hfrm
  cycle := by rw [hsaf]
  tick := by rw [hsaf]
  perA := by rw [hsaf]
  perB := by rw [hsaf]
  pairs := by rw [hsaf]
  params := by rw [hsaf]
  setOk := by rw [hsaf]
  wf w := by rw [hsaf]; exact w
  faults c h := by rw [State.chan, hsaf]; exact h
  grp _ g := by rw [State.sgrp, hsaf]; exact ⟨rfl, rfl, rfl⟩

theorem Stands.of_only {s t : State} {w : List Part} (h : Only w s t) (hfrm : w.contains .frm = false) (hsaf : w.contains .saf = false) :
    Stands s t := .of_saf (h.out .frm hfrm) (h.out .saf hsaf)

theorem State.raise_stands (s : State) (code obj groups : Nat) (data : List Byte) : Stands s (s.raise code obj groups data) :=
  .of_only (State.raise_only ..) rfl rfl

theorem State.raiseDev_stands (s : State) (code : Nat) (data : List Byte) : Stands s (s.raiseDev code data) :=
  .of_only (State.raiseDev_only ..) rfl rfl

theorem State.setSout_stands (s : State) (o : Nat) (x : SOut) : Stands s (s.setSout o x) :=
  ⟨⟨rfl, rfl, rfl, rfl, rfl, rfl, rfl, rfl, id, fun c => by cases c <;> exact id⟩, fun _ _ => ⟨rfl, rfl, rfl⟩⟩

theorem State.setConn_stands (s : State) (c : Nat) (x : Conn) : Stands s (s.setConn c x) :=
  ⟨⟨rfl, rfl, rfl, rfl, rfl, rfl, rfl, rfl, id, fun c => by cases c <;> exact id⟩, fun _ _ => ⟨rfl, rfl, rfl⟩⟩

theorem State.setSgrp_keeps_cycle (s : State) (g : Nat) (x : SGroup) : CycleKeeps s (s.setSgrp g x) :=
  ⟨rfl, rfl, rfl, rfl, rfl, rfl, rfl, rfl, fun w => twf_tset _ _ _ w, fun c => by cases c <;> exact id⟩

theorem State.setSgrp_stands (s : State) (g : Nat) (x : SGroup) (hst : x.st = (s.sgrp g).st) (hrst : x.rst = (s.sgrp g).rst)
    (hreq : x.slsReq = (s.sgrp g).slsReq) :
    Stands s (s.setSgrp g x) where
  toCycleKeeps := State.setSgrp_keeps_cycle s g x
  grp w j := by
    by_cases hj : j = g
    · subst hj
      rw [State.setSgrp_same s j x w]
      exact ⟨hst, hrst, hreq⟩
    · rw [State.setSgrp_other s g j x hj]
      exact ⟨rfl, rfl, rfl⟩

theorem State.setChan_stands (s : State) (c : Bool) (x : SChan) (h : (s.chan c).fault = .persistent → x.fault = .persistent) :
    Stands s (s.setChan c x) := by
  cases c with
  | false => exact ⟨⟨rfl, rfl, rfl, rfl, rfl, rfl, rfl, rfl, id, fun c => by cases c <;> [exact h; exact id]⟩, fun _ _ => ⟨rfl, rfl, rfl⟩⟩
  | true => exact ⟨⟨rfl, rfl, rfl, rfl, rfl, rfl, rfl, rfl, id, fun c => by cases c <;> [exact id; exact h]⟩, fun _ _ => ⟨rfl, rfl, rfl⟩⟩

theorem State.degLeave_stands (s : State) (cleared : Bool) : Stands s (s.degLeave cleared) := by
  unfold State.degLeave
  refine Stands.setSaf (Stands.foldl (fun t o => State.setSout_stands t o _) s (List.range 4)) ?_
  exact ⟨⟨rfl, rfl, rfl, rfl, rfl, rfl, rfl, rfl, id, fun c => by cases c <;> exact id⟩, fun _ _ => ⟨rfl, rfl, rfl⟩⟩

/-- The window's own values. -/
theorem State.window_stands (s : State) (on expired : Bool) (at_ ends : Nat) :
    Stands s { s with saf := { s.saf with deg := on, degAt := at_, degExp := expired, degEnd := ends } } :=
  ⟨⟨rfl, rfl, rfl, rfl, rfl, rfl, rfl, rfl, id, fun c => by cases c <;> exact id⟩, fun _ _ => ⟨rfl, rfl, rfl⟩⟩

theorem State.degEnter_stands (s : State) (c : Bool) : Stands s (s.degEnter c) := by
  unfold State.degEnter
  refine Stands.trans ?_ ((State.raiseDev_stands _ _ _).trans (State.raiseDev_stands _ _ _))
  have hgroups := Stands.foldl (fun t g => State.setSgrp_stands t g { t.sgrp g with v0 := t.vMon g } rfl rfl rfl) s (List.range 32)
  refine Stands.setSaf (hgroups.trans (Stands.foldl (fun t o => ?_) _ (List.range 4))) (State.window_stands ..)
  exact State.setSout_stands t o _

/-- What a channel's fault does after the channel shows it. -/
theorem State.chanFault_stands (s : State) (c : Bool) (f : ChFault) : Stands s (s.chanFault c f) := by
  unfold State.chanFault
  refine (State.setChan_stands s c { s.chan c with fault := if (s.chan c).fault = .persistent then .persistent else f }
    (fun h => if_pos h)).trans ?_
  exact State.of_ite (P := Stands _) (State.degLeave_stands _ _) (State.of_ite (P := Stands _) (.refl _) (State.degEnter_stands _ _))

theorem State.chanFault_persistent (s : State) (c : Bool) : ((s.chanFault c .persistent).chan c).fault = .persistent := by
  let v := s.setChan c { s.chan c with fault := if (s.chan c).fault = .persistent then .persistent else .persistent }
  have hset : (v.chan c).fault = .persistent := by cases c <;> exact ite_self _
  have hafter : Stands v (s.chanFault c .persistent) :=
    State.of_ite (P := Stands v) (State.degLeave_stands _ _) (State.of_ite (P := Stands v) (.refl _) (State.degEnter_stands _ _))
  exact hafter.faults c hset

/-! ### Clocks and comparison -/

theorem State.clocks_decide (s : State) : ∃ t, t = { s with saf := { s.saf with perA := [], perB := [] } } ∧ Stands t s.clocks ∧
    (¬(s.saf.perA.length = 10 ∧ ticksGood s.saf.perA = true) → (s.clocks.chan false).fault = .persistent) ∧
    (¬ticksGood s.saf.perB = true → (s.clocks.chan true).fault = .persistent) := by
  refine ⟨_, rfl, ?_⟩
  unfold State.clocks
  dsimp only
  generalize { s with saf := { s.saf with perA := [], perB := [] } } = t
  have hA : Stands t (if s.saf.perA.length = 10 ∧ ticksGood s.saf.perA = true then t else t.chanFault false .persistent) :=
    State.of_ite (P := Stands t) (.refl t) (State.chanFault_stands ..)
  have hfA : ¬(s.saf.perA.length = 10 ∧ ticksGood s.saf.perA = true) →
      ((if s.saf.perA.length = 10 ∧ ticksGood s.saf.perA = true then t else t.chanFault false .persistent).chan false).fault = .persistent := by
    intro h
    rw [if_neg h]
    exact State.chanFault_persistent t false
  generalize (if s.saf.perA.length = 10 ∧ ticksGood s.saf.perA = true then t else t.chanFault false .persistent) = v at hA hfA
  refine ⟨State.of_ite (P := Stands t) hA (hA.trans (State.chanFault_stands ..)), fun h => ?_, fun h => ?_⟩
  · exact State.of_ite (P := fun u => (u.chan false).fault = .persistent) (hfA h) ((State.chanFault_stands v true _).faults _ (hfA h))
  · rw [if_neg h]
    exact State.chanFault_persistent v true

theorem State.diagDecide_stands (s : State) (okA okB : Bool) : Stands s (s.diagDecide okA okB) := by
  have hdiag : Stands s { s with saf := { s.saf with diag := 0 } } :=
    ⟨⟨rfl, rfl, rfl, rfl, rfl, rfl, rfl, rfl, id, fun c => by cases c <;> exact id⟩, fun _ _ => ⟨rfl, rfl, rfl⟩⟩
  unfold State.diagDecide
  refine State.of_ite (P := Stands s) ?_ (State.of_ite (P := Stands s) ?_ ?_)
  · have hA : Stands s (if okA = true then { s with saf := { s.saf with diag := 0 } } else
        State.chanFault { s with saf := { s.saf with diag := 0 } } false .persistent) :=
      State.of_ite (P := Stands s) hdiag (hdiag.trans (State.chanFault_stands ..))
    exact State.of_ite (P := Stands s) hA (hA.trans (State.chanFault_stands ..))
  · exact hdiag.trans ((State.chanFault_stands ..).trans (State.chanFault_stands ..))
  · exact hdiag.trans ((State.setChan_stands { s with saf := { s.saf with diag := 0 } } true { s.saf.b with trans := transAdd s.frm.now s.saf.b.trans } id).trans
      (State.chanFault_stands ..))

theorem State.diagCycle_stands (s : State) : Stands s s.diagCycle := by
  have hdiag (n : Nat) : Stands s { s with saf := { s.saf with diag := n } } :=
    ⟨⟨rfl, rfl, rfl, rfl, rfl, rfl, rfl, rfl, id, fun c => by cases c <;> exact id⟩, fun _ _ => ⟨rfl, rfl, rfl⟩⟩
  unfold State.diagCycle
  exact State.of_ite (P := Stands s) (hdiag 0) <| State.of_ite (P := Stands s) (State.diagDecide_stands ..) <|
    State.of_ite (P := Stands s) (hdiag 1) <| State.of_ite (P := Stands s) (hdiag 2) (.refl s)

/-- Both channels are healthy again: no fault that was not persistent is kept. -/
theorem Stands.heal {s t : State} (h : Stands s t) (ha : s.saf.a.fault ≠ .persistent) (hb : s.saf.b.fault ≠ .persistent) :
    Stands s { t with saf := { t.saf with a := { t.saf.a with fault := .healthy }, b := { t.saf.b with fault := .healthy } } } :=
  ⟨⟨h.frm, h.cycle, h.tick, h.perA, h.perB, h.pairs, h.params, h.setOk, h.wf,
    fun c => by cases c <;> intro hf <;> [exact absurd hf ha; exact absurd hf hb]⟩, h.grp⟩

theorem State.twoAgain_stands {s : State} (ha : s.saf.a.fault ≠ .persistent) (hb : s.saf.b.fault ≠ .persistent) : Stands s s.twoAgain := by
  unfold State.twoAgain
  refine Stands.trans (Stands.heal (Stands.foldl (fun t c => ?_) s (List.range 64)) ha hb) (State.degLeave_stands _ _)
  exact State.setConn_stands t c _

theorem State.clearCycle_stands (s : State) : Stands s s.clearCycle := by
  have hclr : Stands s { s with saf := { s.saf with clr := none } } :=
    ⟨⟨rfl, rfl, rfl, rfl, rfl, rfl, rfl, rfl, id, fun c => by cases c <;> exact id⟩, fun _ _ => ⟨rfl, rfl, rfl⟩⟩
  unfold State.clearCycle
  split
  · exact .refl s
  · split
    next h => exact State.twoAgain_stands h.2.2.1 h.2.2.2
    next => exact State.of_ite (P := Stands s) hclr (.refl s)

theorem State.compare_stands (s : State) : Stands s s.compare := by
  have hdiff (bad : Bool) : Stands s { s with saf := { s.saf with exBad := false, mismatch := false, cmpBad := bad } } :=
    ⟨⟨rfl, rfl, rfl, rfl, rfl, rfl, rfl, rfl, id, fun c => by cases c <;> exact id⟩, fun _ _ => ⟨rfl, rfl, rfl⟩⟩
  unfold State.compare
  exact (hdiff _).trans ((State.diagCycle_stands _).trans (State.clearCycle_stands _))

theorem State.withhold_stands (s : State) (c : Nat) : Stands s (s.withhold c) := by
  unfold State.withhold
  refine Stands.trans ?_ (State.raise_stands ..)
  refine Stands.setSaf (State.setConn_stands s c _) ?_
  exact ⟨⟨rfl, rfl, rfl, rfl, rfl, rfl, rfl, rfl, id, fun c => by cases c <;> exact id⟩, fun _ _ => ⟨rfl, rfl, rfl⟩⟩

/-! ### The groups' decisions -/

/-- A group as it enters STO. -/
def State.stoGroup (s : State) (g reason : Nat) : SGroup :=
  { s.sgrp g with st := .sto, reason := reason, tmax := false, ss1r := false
                  sbcAt := if s.sgP g 4 != 0 then some (s.saf.cycle + s.sgP g 18) else none }

theorem State.enterSto_from (s : State) (g reason : Nat) (fail : Bool) :
    Stands (s.setSgrp g (s.stoGroup g reason)) (s.enterSto g reason fail) := by
  have hraise := State.raise_stands (s.setSgrp g (s.stoGroup g reason)) evSafeSto g ((s.setSgrp g (s.stoGroup g reason)).sgAxes g) []
  exact State.of_ite (P := Stands _) (hraise.trans (State.raise_stands ..)) hraise

theorem State.enterSto_keeps_cycle (s : State) (g reason : Nat) (fail : Bool) : CycleKeeps s (s.enterSto g reason fail) :=
  (State.setSgrp_keeps_cycle s g _).trans (State.enterSto_from s g reason fail).toCycleKeeps

theorem State.enterSto_saf (s : State) (g reason : Nat) (fail : Bool) :
    (s.enterSto g reason fail).saf = (s.setSgrp g (s.stoGroup g reason)).saf := by
  unfold State.enterSto
  refine State.of_ite (P := fun t => t.saf = _) ?_ ?_
  · exact ((State.raise_only ..).out .saf rfl).trans ((State.raise_only ..).out .saf rfl)
  · exact (State.raise_only ..).out .saf rfl

theorem State.sgrp_congr {s t : State} (h : t.saf = s.saf) (g : Nat) : t.sgrp g = s.sgrp g := by
  rw [State.sgrp, h, State.sgrp]

theorem State.enterSto_st {s : State} (w : twf {} s.saf.groups = true) (g reason : Nat) (fail : Bool) :
    ((s.enterSto g reason fail).sgrp g).st = .sto := by
  rw [State.sgrp_congr (State.enterSto_saf s g reason fail), State.setSgrp_same s g _ w]
  rfl

theorem State.enterSto_other (s : State) (g reason : Nat) (fail : Bool) {j : Nat} (h : j ≠ g) :
    (s.enterSto g reason fail).sgrp j = s.sgrp j := by
  rw [State.sgrp_congr (State.enterSto_saf s g reason fail), State.setSgrp_other s g j _ h]

theorem State.enterSs1_keeps_cycle (s : State) (g : Nat) : CycleKeeps s (s.enterSs1 g) := by
  unfold State.enterSs1
  exact (State.setSgrp_keeps_cycle s g _).trans (State.raise_stands ..).toCycleKeeps

theorem State.enterSs1_other (s : State) {g j : Nat} (h : j ≠ g) : (s.enterSs1 g).sgrp j = s.sgrp j := by
  unfold State.enterSs1
  rw [State.sgrp_congr ((State.raise_only ..).out .saf rfl), State.setSgrp_other _ _ _ _ h]

theorem State.outsReturn_stands (s : State) (g : Nat) : Stands s (s.outsReturn g) := by
  unfold State.outsReturn
  exact Stands.foldl (fun t o => State.of_ite (P := Stands t) (State.setSout_stands t o _) (.refl t)) s _

theorem State.groupDecide_keeps_cycle (s : State) (exp : Bool) (g : Nat) : CycleKeeps s (s.groupDecide exp g) := by
  have hsto := State.enterSto_keeps_cycle s g
  have hss1 := State.enterSs1_keeps_cycle s g
  unfold State.groupDecide
  dsimp only
  cases (s.sgrp g).st with
  | run => exact State.of_ite (P := CycleKeeps s) (hsto ..) (State.of_ite (P := CycleKeeps s) hss1 (.refl s))
  | ss1 =>
    refine State.of_ite (P := CycleKeeps s) (hsto ..) (State.of_ite (P := CycleKeeps s) ?_ ?_)
    · exact State.of_ite (P := CycleKeeps s) (hsto ..) (State.of_ite (P := CycleKeeps s) (hsto ..)
        (State.of_ite (P := CycleKeeps s) (hsto ..) (.refl s)))
    · exact State.of_ite (P := CycleKeeps s) (hsto ..) (.refl s)
  | sto =>
    refine State.of_ite (P := CycleKeeps s) (State.of_ite (P := CycleKeeps s) ?_ (.refl s)) (.refl s)
    exact (State.outsReturn_stands s g).toCycleKeeps.trans (State.setSgrp_keeps_cycle ..)

theorem State.outsReturn_groups (s : State) (g : Nat) : (s.outsReturn g).saf.groups = s.saf.groups := by
  unfold State.outsReturn
  exact List.foldlRecOn (motive := fun t : State => t.saf.groups = s.saf.groups) _ _ rfl
    fun t ht o _ => State.of_ite (P := fun u => u.saf.groups = s.saf.groups) ht ht

theorem State.groupDecide_other (s : State) (exp : Bool) {g j : Nat} (h : j ≠ g) : (s.groupDecide exp g).sgrp j = s.sgrp j := by
  have hsto (r : Nat) (f : Bool) := State.enterSto_other s g r f h
  have hss1 := State.enterSs1_other s h
  unfold State.groupDecide
  dsimp only
  cases (s.sgrp g).st with
  | run => exact State.of_ite (P := fun t => t.sgrp j = s.sgrp j) (hsto ..) (State.of_ite (P := fun t => t.sgrp j = s.sgrp j) hss1 rfl)
  | ss1 =>
    refine State.of_ite (P := fun t => t.sgrp j = s.sgrp j) (hsto ..) (State.of_ite (P := fun t => t.sgrp j = s.sgrp j) ?_ ?_)
    · exact State.of_ite (P := fun t => t.sgrp j = s.sgrp j) (hsto ..) (State.of_ite (P := fun t => t.sgrp j = s.sgrp j) (hsto ..)
        (State.of_ite (P := fun t => t.sgrp j = s.sgrp j) (hsto ..) rfl))
    · exact State.of_ite (P := fun t => t.sgrp j = s.sgrp j) (hsto ..) rfl
  | sto =>
    refine State.of_ite (P := fun t => t.sgrp j = s.sgrp j) (State.of_ite (P := fun t => t.sgrp j = s.sgrp j) ?_ rfl) rfl
    rw [State.setSgrp_other _ _ _ _ h, State.sgrp, State.outsReturn_groups, State.sgrp]

/-- R279: a group in STO without a reset stays in it. -/
theorem State.groupDecide_stays {s : State} {g : Nat} (exp : Bool) (hst : (s.sgrp g).st = .sto) (hrst : (s.sgrp g).rst = false) :
    s.groupDecide exp g = s := by
  unfold State.groupDecide
  dsimp only
  rw [hst]
  exact if_neg (by simp [hrst])

/-- R278: a demand stops a group whose SG.STOP is STO. -/
theorem State.groupDecide_stops {s : State} {g : Nat} (exp : Bool) (w : twf {} s.saf.groups = true) (hst : (s.sgrp g).st ≠ .sto)
    (hdem : s.groupDemand g = true) (hstop : s.sgP g 1 = 0) : ((s.groupDecide exp g).sgrp g).st = .sto := by
  have hhard : s.hardStop g = true := by simp [State.hardStop, hdem, hstop]
  have hsto := State.enterSto_st w g 0 false
  unfold State.groupDecide
  dsimp only
  cases h : (s.sgrp g).st with
  | run => exact (congrArg (fun t : State => (t.sgrp g).st) (if_pos hhard)).trans hsto
  | ss1 => exact (congrArg (fun t : State => (t.sgrp g).st) (if_pos hhard)).trans hsto
  | sto => exact absurd h hst

theorem State.groupNext_keeps_cycle (s : State) (g : Nat) : CycleKeeps s (s.groupNext g) := State.setSgrp_keeps_cycle ..

theorem State.groupNext_other (s : State) {g j : Nat} (h : j ≠ g) : (s.groupNext g).sgrp j = s.sgrp j := State.setSgrp_other _ _ _ _ h

theorem State.groupNext_sgrp {s : State} (w : twf {} s.saf.groups = true) (g : Nat) : ((s.groupNext g).sgrp g).st = (s.sgrp g).st ∧
    ((s.groupNext g).sgrp g).rst = false ∧ ((s.groupNext g).sgrp g).slsReq = false := by
  unfold State.groupNext
  rw [State.setSgrp_same _ _ _ w]
  exact ⟨rfl, rfl, rfl⟩

theorem State.sgP_congr {s t : State} (h : t.saf.params = s.saf.params) (g k : Nat) : t.sgP g k = s.sgP g k := by
  have hpar (c i m : Nat) (hc : c = 11) : t.par c i m = s.par c i m := by
    subst hc
    exact congrArg (fun q => paramIn q 11 i m) h
  exact congrArg BitVec.toNat (hpar 11 _ k rfl)

theorem State.groupDemand_congr {s t : State} (hp : t.saf.params = s.saf.params) (hx : t.saf.pairs = s.saf.pairs) (g : Nat) :
    t.groupDemand g = s.groupDemand g := by
  unfold State.groupDemand State.pairDemand State.spair
  rw [State.sgP_congr hp, hx]

/-! ### The cycle's end in its parts -/

/-- The clocks are checked and the channels compared; the cycle's last tick counts. -/
def State.cycleCompared (s : State) : State :=
  let n := 10 * (s.saf.cycle + 1)
  let g := s.goto (usT 100 * n)
  let v := (State.clocks { g with saf := { g.saf with cycle := g.saf.cycle + 1 } }).compare
  { v with saf := { v.saf with tick := n, tickB := n } }

/-- The degraded window has expired. -/
def State.windowOver (s : State) : Bool := s.saf.deg && s.saf.degExp

/-- An expired window ends, and PDUs nobody confirmed are withheld. -/
def State.cycleWithheld (s : State) : State :=
  (List.range 64).foldl (fun s c => if (s.conn c).formed then s.withhold c else s)
    (if s.windowOver then (s.raiseDev evSafeDegExp []).degLeave false else s)

def State.cycleDecided (s : State) (exp : Bool) : State :=
  if s.setRuns then (List.range 32).foldl (fun s g => s.groupDecide exp g) s else s

/-- A rejected PDU may raise its event again. -/
def State.rejHeard (s : State) (c : Nat) : State := s.setConn c { s.conn c with rejEvt := false }

/-- New PDUs, outputs and mirrors follow from the decisions. -/
def State.cycleClosed (s : State) : State :=
  ((List.range 64).foldl State.rejHeard
    (s.checkSseq.ownConns.foldl (fun s c => s.issue c) s.checkSseq)).outsOpen.copyMirrors

theorem exec_safetyCycleEnd (s : State) : exec .safetyCycleEnd s = .next ((List.range 32).foldl State.groupNext
    (s.cycleCompared.cycleWithheld.cycleDecided s.cycleCompared.windowOver)).cycleClosed := rfl

theorem State.cycleWithheld_stands (s : State) : Stands s s.cycleWithheld := by
  unfold State.cycleWithheld
  have hwindow : Stands s (if s.windowOver then (s.raiseDev evSafeDegExp []).degLeave false else s) :=
    State.of_ite (P := Stands s) ((State.raiseDev_stands ..).trans (State.degLeave_stands ..)) (.refl s)
  exact hwindow.trans (Stands.foldl (fun t c => State.of_ite (P := Stands t) (State.withhold_stands t c) (.refl t)) _ _)

theorem State.cycleDecided_keeps (s : State) (exp : Bool) : CycleKeeps s (s.cycleDecided exp) :=
  State.of_ite (P := CycleKeeps s) (CycleKeeps.foldl (fun t g => State.groupDecide_keeps_cycle t exp g) s _) (.refl s)

theorem State.drive_stands (s : State) (o : Nat) (b c : Bool) : Stands s (s.drive o b c) := by
  have hset := State.setSout_stands s o
  unfold State.drive
  refine State.of_ite (P := Stands s) (State.of_ite (P := Stands s) ?_ (hset _)) (State.of_ite (P := Stands s) ?_ (hset _))
  · exact State.of_ite (P := Stands s) (.refl s) (hset _)
  · exact State.of_ite (P := Stands s) (.refl s) (hset _)

theorem State.setMirror_stands (s : State) (m : Tbl W32) : Stands s { s with saf := { s.saf with mirror := m } } :=
  ⟨⟨rfl, rfl, rfl, rfl, rfl, rfl, rfl, rfl, id, fun c => by cases c <;> exact id⟩, fun _ _ => ⟨rfl, rfl, rfl⟩⟩

theorem State.copyMirrors_stands (s : State) : Stands s s.copyMirrors := by
  unfold State.copyMirrors
  exact State.of_ite (P := Stands s) (.refl s) ((State.setMirror_stands s _).trans (.of_only (State.irq_only ..) rfl rfl))

theorem State.issue_stands (s : State) (c : Nat) : Stands s (s.issue c) := State.setConn_stands ..

theorem State.cycleClosed_stands (s : State) : Stands s s.cycleClosed := by
  unfold State.cycleClosed State.outsOpen
  have hissue := (Stands.of_only (State.checkSseq_only s) rfl rfl).trans
    (Stands.foldl State.issue_stands s.checkSseq s.checkSseq.ownConns)
  have hrej := Stands.foldl (f := State.rejHeard) (fun t c => State.setConn_stands t c _)
  exact (hissue.trans (hrej _ _)).trans <| (Stands.foldl (fun t o => (State.drive_stands ..).trans (State.drive_stands ..)) _ _).trans <|
    State.copyMirrors_stands _

/-- What a group is after the decisions and what it carries on: its state as decided, no request left. -/
theorem State.groupsNext_sgrp {s : State} (w : twf {} s.saf.groups = true) {g : Nat} (hg : g < 32) :
    let u := (List.range 32).foldl State.groupNext s
    (u.sgrp g).st = (s.sgrp g).st ∧ (u.sgrp g).rst = false ∧ (u.sgrp g).slsReq = false := by
  obtain ⟨t, ht, hget, hfinal, -⟩ := foldl_range_at (f := State.groupNext) (get := State.sgrp) (Q := fun t => twf {} t.saf.groups = true)
    (fun t k h => (State.groupNext_keeps_cycle t k).wf h) (fun t k j _ h => State.groupNext_other t h) w hg
  obtain ⟨hst, hrst, hreq⟩ := State.groupNext_sgrp ht g
  intro u
  rw [show u.sgrp g = (t.groupNext g).sgrp g from hfinal, hst, hget]
  exact ⟨rfl, hrst, hreq⟩

/-- What the decisions make of one group, seen at the state before all of them. -/
theorem State.cycleDecided_sgrp {s : State} (exp : Bool) (w : twf {} s.saf.groups = true) {g : Nat} (hg : g < 32) :
    ((s.sgrp g).st = .sto → (s.sgrp g).rst = false → ((s.cycleDecided exp).sgrp g).st = .sto) ∧
    (s.saf.setOk = true → (s.sgrp g).st ≠ .sto → s.groupDemand g = true → s.sgP g 1 = 0 → ((s.cycleDecided exp).sgrp g).st = .sto) := by
  obtain ⟨t, ⟨ht, hwf⟩, hget, hfinal, -⟩ := foldl_range_at (f := fun s g => State.groupDecide s exp g) (get := State.sgrp)
    (Q := fun t => CycleKeeps s t ∧ twf {} t.saf.groups = true)
    (fun t k h => ⟨h.1.trans (State.groupDecide_keeps_cycle t exp k), (State.groupDecide_keeps_cycle t exp k).wf h.2⟩)
    (fun t k j _ h => State.groupDecide_other t exp h) ⟨.refl s, w⟩ hg
  unfold State.cycleDecided
  refine ⟨fun hst hrst => ?_, fun hok hst hdem hstop => ?_⟩
  · refine State.of_ite (P := fun u => (u.sgrp g).st = .sto) ?_ hst
    rw [hfinal, State.groupDecide_stays exp (by rw [hget]; exact hst) (by rw [hget]; exact hrst), hget]
    exact hst
  · rw [if_pos (show s.setRuns = true from hok), hfinal]
    exact State.groupDecide_stops exp hwf (by rw [hget]; exact hst) (by rw [State.groupDemand_congr ht.params ht.pairs]; exact hdem)
      (by rw [State.sgP_congr ht.params]; exact hstop)

/-- The clocks' check and the comparison, on the state of a cycle that has ended. -/
theorem State.clocksCompared (s : State) : ∃ t, t = { s with saf := { s.saf with cycle := s.saf.cycle + 1, perA := [], perB := [] } } ∧
    Stands t (State.clocks { s with saf := { s.saf with cycle := s.saf.cycle + 1 } }).compare ∧
    (¬(s.saf.perA.length = 10 ∧ ticksGood s.saf.perA = true) →
      (State.clocks { s with saf := { s.saf with cycle := s.saf.cycle + 1 } }).compare.saf.a.fault = .persistent) ∧
    (¬ticksGood s.saf.perB = true →
      (State.clocks { s with saf := { s.saf with cycle := s.saf.cycle + 1 } }).compare.saf.b.fault = .persistent) := by
  obtain ⟨t, ht, hclocks, hA, hB⟩ := State.clocks_decide { s with saf := { s.saf with cycle := s.saf.cycle + 1 } }
  have hcmp := State.compare_stands (State.clocks { s with saf := { s.saf with cycle := s.saf.cycle + 1 } })
  exact ⟨t, ht, hclocks.trans hcmp, fun h => hcmp.faults false (hA h), fun h => hcmp.faults true (hB h)⟩

/-- The state the decisions are made on: what it keeps of the cycle that ended, and the faults of the clocks (R266). -/
theorem State.cycleCompared_of (s : State) (w : twf {} s.saf.groups = true) :
    (s.cycleCompared.frm.now = max s.frm.now (usT 100 * (10 * (s.saf.cycle + 1))) ∧ s.cycleCompared.saf.cycle = s.saf.cycle + 1 ∧
      s.cycleCompared.saf.tick = 10 * (s.saf.cycle + 1) ∧ s.cycleCompared.saf.perA = [] ∧ s.cycleCompared.saf.perB = []) ∧
    twf {} s.cycleCompared.saf.groups = true ∧
    (s.cycleCompared.saf.setOk = s.saf.setOk ∧ ∀ g, (s.cycleCompared.sgrp g).st = (s.sgrp g).st ∧
      (s.cycleCompared.sgrp g).rst = (s.sgrp g).rst ∧ s.cycleCompared.groupDemand g = s.groupDemand g ∧
      s.cycleCompared.sgP g 1 = s.sgP g 1) ∧
    (¬(s.saf.perA.length = 10 ∧ ticksGood s.saf.perA = true) → s.cycleCompared.saf.a.fault = .persistent) ∧
    (¬ticksGood s.saf.perB = true → s.cycleCompared.saf.b.fault = .persistent) := by
  have hsaf := State.goto_saf s (usT 100 * (10 * (s.saf.cycle + 1)))
  have hnow : (s.goto (usT 100 * (10 * (s.saf.cycle + 1)))).frm.now = max s.frm.now (usT 100 * (10 * (s.saf.cycle + 1))) := by
    rw [State.goto_frm]
    dsimp only
    omega
  unfold State.cycleCompared
  dsimp only
  generalize s.goto (usT 100 * (10 * (s.saf.cycle + 1))) = g at hsaf hnow
  obtain ⟨t, ht, hstands, hA, hB⟩ := State.clocksCompared g
  generalize (State.clocks { g with saf := { g.saf with cycle := g.saf.cycle + 1 } }).compare = v at hstands hA hB
  have htsaf : t.saf = { s.saf with cycle := s.saf.cycle + 1, perA := [], perB := [] } := by rw [ht, ← hsaf]
  have htfrm : t.frm = g.frm := by rw [ht]
  have hwf : twf {} t.saf.groups = true := by rw [htsaf]; exact w
  rw [hsaf] at hA hB
  refine ⟨⟨(congrArg Frm.now (hstands.frm.trans htfrm)).trans hnow, hstands.cycle.trans (by rw [htsaf]), rfl,
    hstands.perA.trans (by rw [htsaf]), hstands.perB.trans (by rw [htsaf])⟩, hstands.wf hwf,
    ⟨hstands.setOk.trans (by rw [htsaf]), fun j => ?_⟩, hA, hB⟩
  have hgrp : t.sgrp j = s.sgrp j := by
    rw [State.sgrp, htsaf]
    rfl
  obtain ⟨hst, hrst, -⟩ := hstands.grp hwf j
  exact ⟨hst.trans (by rw [hgrp]), hrst.trans (by rw [hgrp]),
    State.groupDemand_congr (hstands.params.trans (by rw [htsaf])) (hstands.pairs.trans (by rw [htsaf])) j,
    State.sgP_congr (hstands.params.trans (by rw [htsaf])) j 1⟩

/-- R266: more than 2 % off in the mean, or a tick missing. -/
theorem not_ticksGood {ps : List Nat} (h : 0 ∈ ps ∨ ps.sum < 98000 * ps.length ∨ 102000 * ps.length < ps.sum) : ¬ticksGood ps = true := by
  unfold ticksGood
  simp only [Bool.and_eq_true, Bool.not_eq_true', List.contains_eq_mem, decide_eq_true_eq, decide_eq_false_iff_not]
  rintro ⟨⟨h0, hlo⟩, hhi⟩
  rcases h with h | h | h
  · exact h0 h
  · omega
  · omega

/-- Settles O43. -/
theorem safetyCyclesDecideGroups : Obligations.SafetyCyclesDecideGroups := by
  intro s w
  obtain ⟨⟨hnow, hcycle, htick, hperA, hperB⟩, hwf, ⟨hok, hgroups⟩, hA, hB⟩ := State.cycleCompared_of s w
  have hex := exec_safetyCycleEnd s
  generalize s.cycleCompared = v at hnow hcycle htick hperA hperB hwf hok hgroups hA hB hex
  have hheld := State.cycleWithheld_stands v
  have hdec := State.cycleDecided_keeps v.cycleWithheld v.windowOver
  have hnext := CycleKeeps.foldl State.groupNext_keeps_cycle (v.cycleWithheld.cycleDecided v.windowOver) (List.range 32)
  have hclosed := State.cycleClosed_stands ((List.range 32).foldl State.groupNext (v.cycleWithheld.cycleDecided v.windowOver))
  have hall := ((hheld.toCycleKeeps.trans hdec).trans hnext).trans hclosed.toCycleKeeps
  generalize hu : ((List.range 32).foldl State.groupNext (v.cycleWithheld.cycleDecided v.windowOver)).cycleClosed = u at hex hclosed hall
  refine ⟨u, hex, hall.cycle.trans hcycle, hall.tick.trans htick, (congrArg Frm.now hall.frm).trans hnow, hall.perA.trans hperA,
    hall.perB.trans hperB, fun h => hall.faults false (hA ?_), fun h => hall.faults true (hB (not_ticksGood h)), fun g hg => ?_⟩
  · rintro ⟨hlen, hgood⟩
    rcases h with h | h
    · exact h hlen
    · exact not_ticksGood (by simpa [hlen] using h) hgood
  · have hwf1 := hheld.wf hwf
    have hwf2 := hdec.wf hwf1
    obtain ⟨hst, hrst, -⟩ := hheld.grp hwf g
    obtain ⟨hst0, hrst0, hdem0, hstop0⟩ := hgroups g
    obtain ⟨hstays, hstops⟩ := State.cycleDecided_sgrp v.windowOver hwf1 hg
    obtain ⟨hnst, hnrst, hnreq⟩ := State.groupsNext_sgrp hwf2 hg
    obtain ⟨hcst, hcrst, hcreq⟩ := hclosed.grp (hnext.wf hwf2) g
    rw [hst, hst0, hrst, hrst0] at hstays
    rw [hheld.setOk, hok, hst, hst0, State.groupDemand_congr hheld.params hheld.pairs, hdem0, State.sgP_congr hheld.params, hstop0] at hstops
    refine ⟨fun h1 h2 => (hcst.trans hnst).trans (hstays h1 h2), fun h1 h2 h3 h4 => (hcst.trans hnst).trans (hstops h1 h2 h3 h4),
      hcrst.trans hnrst, hcreq.trans hnreq⟩

end Sys2Proof.Machine
end

section
namespace Sys2Proof.Machine
open Host

/-! ### Safety connections -/

theorem State.conn_congr {s t : State} (h : t.saf = s.saf) (c : Nat) : t.conn c = s.conn c := by
  rw [State.conn, h, State.conn]

theorem State.judges_congr {s t : State} (h : t.saf = s.saf) : t.judgesA = s.judgesA ∧ t.judgesB = s.judgesB := by
  unfold State.judgesA State.judgesB
  rw [h]
  exact ⟨rfl, rfl⟩

/-- A connection that differs from a fresh one is stored. -/
theorem State.setConn_conn (s : State) (c : Nat) (x : Conn) {α : Type} (f : Conn → α) (h : f x ≠ f {}) : (s.setConn c x).conn c = x :=
  State.setConn_ne s c x fun hx => h (congrArg f hx)

/-- A judging channel saw a failure. -/
def State.connFailed (s : State) (x : Conn) : Bool := (s.judgesA && x.a.fail) || (s.judgesB && x.b.fail)

/-- Every judging channel has accepted one PDU. -/
def State.connAccepted (s : State) (x : Conn) : Bool :=
  (!(s.judgesA && s.judgesB) || (x.a.has && x.b.has && x.a.seq == x.b.seq)) && (if s.judgesA then x.a else x.b).has && !s.connFailed x

/-- What an accepted PDU shows of a connection. -/
def State.connShows (s : State) (c : Nat) (x : Conn) : Conn :=
  let m := if s.judgesA then x.a else x.b
  let ns := beAt m.pdu 10 2
  let down : Bool := s.frm.role == .node
  if !s.connAccepted x then x else
    { x with rxSeq := m.seq, stoRx := if down then pduSto m.pdu else bitOf ns 0,
             v0 := !down && bitOf ns 1 && decide (1 ≤ s.scP c 5), v1 := !down && bitOf ns 2 && decide (2 ≤ s.scP c 5),
             s0 := ⟨BitVec.ofNat 32 (beAt m.pdu 14 4)⟩, s1 := ⟨BitVec.ofNat 32 (beAt m.pdu 18 4)⟩ }

/-- A connection as it is settled. -/
def State.connSettled (s : State) (c why : Nat) (x : Conn) : Conn :=
  let fail := s.connFailed x
  let x' := s.connShows c x
  { x' with fail := fail, v0 := x'.v0 && !fail, v1 := x'.v1 && !fail, reason := if fail && !x.fail then why else x.reason
            wdog := if fail && !x.fail && why == 1 then satAdd 8 x.wdog 1 else x.wdog }

theorem State.connSettle_eq (s : State) (c why : Nat) : s.connSettle c why =
    if s.connFailed (s.conn c) ∧ !(s.conn c).fail then
      (s.setConn c (s.connSettled c why (s.conn c))).raise evSafeConn c ((s.setConn c (s.connSettled c why (s.conn c))).connAxes c)
        [BitVec.ofNat 8 why]
    else s.setConn c (s.connSettled c why (s.conn c)) := rfl

theorem State.connSettled_kept (s : State) (c why : Nat) (x : Conn) : (s.connSettled c why x).a = x.a ∧ (s.connSettled c why x).la = x.la ∧
    (s.connSettled c why x).fail = s.connFailed x := by
  have hshows : (s.connShows c x).a = x.a ∧ (s.connShows c x).la = x.la := by
    unfold State.connShows
    dsimp only
    split <;> exact ⟨rfl, rfl⟩
  exact ⟨hshows.1, hshows.2, rfl⟩

/-- R303: a failure a judging channel saw is the connection's. -/
theorem State.connSettle_fails {s : State} {c : Nat} (why : Nat) (hj : s.judgesA = true) (ha : (s.conn c).a.fail = true)
    (hf : (s.conn c).fail = false) : ((s.connSettle c why).conn c).fail = true ∧ ((s.connSettle c why).conn c).reason = why ∧
      ((s.connSettle c why).conn c).a = (s.conn c).a ∧ (s.connSettle c why).hasEvent evSafeConn c := by
  have hfail : s.connFailed (s.conn c) = true := by simp [State.connFailed, hj, ha]
  obtain ⟨hsa, -, hsfail⟩ := State.connSettled_kept s c why (s.conn c)
  rw [hfail] at hsfail
  have hreason : (s.connSettled c why (s.conn c)).reason = why := if_pos (by simp [hfail, hf])
  have hstored : (s.setConn c (s.connSettled c why (s.conn c))).conn c = s.connSettled c why (s.conn c) :=
    State.setConn_conn s c _ Conn.fail (by rw [hsfail]; exact Bool.noConfusion)
  rw [State.connSettle_eq, if_pos ⟨hfail, by simp [hf]⟩, State.conn_congr ((State.raise_only ..).out .saf rfl), hstored]
  exact ⟨hsfail, hreason, hsa, State.raise_hasEvent ..⟩

/-- R302: what every judging channel accepted is the connection's. -/
theorem State.connSettle_accepts {s : State} {c : Nat} (why : Nat) (hja : s.judgesA = true) (hjb : s.judgesB = true)
    (hb : (s.conn c).b = (s.conn c).a) (hhas : (s.conn c).a.has = true) (ha : (s.conn c).a.fail = false) :
    ((s.connSettle c why).conn c).fail = false ∧ ((s.connSettle c why).conn c).a = (s.conn c).a ∧
      ((s.connSettle c why).conn c).la = (s.conn c).la ∧ ((s.connSettle c why).conn c).rxSeq = (s.conn c).a.seq := by
  have hfail : s.connFailed (s.conn c) = false := by simp [State.connFailed, hb, ha]
  have hacc : s.connAccepted (s.conn c) = true := by simp [State.connAccepted, hja, hjb, hb, hhas, hfail]
  obtain ⟨hsa, hsla, hsfail⟩ := State.connSettled_kept s c why (s.conn c)
  have hseq : (s.connSettled c why (s.conn c)).rxSeq = (s.conn c).a.seq := by
    unfold State.connSettled State.connShows
    rw [hacc, hja]
    rfl
  have hstored : (s.setConn c (s.connSettled c why (s.conn c))).conn c = s.connSettled c why (s.conn c) :=
    State.setConn_conn s c _ (fun y => y.a.has) (by rw [hsa, hhas]; exact Bool.noConfusion)
  rw [State.connSettle_eq, if_neg (by simp [hfail]), hstored]
  exact ⟨hsfail.trans hfail, hsa, hsla, hseq⟩

/-- A channel's judgement where the connection is established: it has a PDU, no base is awaited, it has not failed. -/
theorem judge_repeated {p : RxPar} {x : ConnRx} {l : SsLed} {f : Pdu} (hhas : x.has = true) (hfail : x.fail = false)
    (h : 32768 ≤ (pduSeq f - x.seq).toNat ∨ ((pduSeq f - x.seq).toNat = 0 ∧ f = x.pdu)) :
    (judge p false x l f).rx = x := by
  unfold judge
  generalize (pduSeq f - x.seq).toNat = d at h
  rcases h with h | ⟨h0, hf⟩
  · simp [hhas, h]
  · simp [hhas, hfail, h0, hf]

theorem judge_next {p : RxPar} {x : ConnRx} {l : SsLed} {f : Pdu} (hhas : x.has = true) (hfail : x.fail = false)
    (h1 : 1 ≤ (pduSeq f - x.seq).toNat) (h4 : (pduSeq f - x.seq).toNat ≤ 4) :
    (judge p false x l f).rx = x.accept p f ∧ (judge p false x l f).led.miss = l.miss + ((pduSeq f - x.seq).toNat - 1) := by
  unfold judge
  generalize (pduSeq f - x.seq).toNat = d at h1 h4
  have hlow : ¬32768 ≤ d := by omega
  have hne : ¬d = 0 := by omega
  simp [hhas, hfail, hlow, hne, h4]

theorem judge_gap {p : RxPar} {x : ConnRx} {l : SsLed} {f : Pdu} (hhas : x.has = true) (hfail : x.fail = false)
    (h5 : 5 ≤ (pduSeq f - x.seq).toNat) (hmax : (pduSeq f - x.seq).toNat < 32768) :
    (judge p false x l f).rx = x.toFail (some (pduSeq f, f)) ∧ (judge p false x l f).why = 2 := by
  unfold judge
  generalize (pduSeq f - x.seq).toNat = d at h5 hmax
  have hlow : ¬32768 ≤ d := by omega
  have hne : ¬d = 0 := by omega
  have h4 : ¬d ≤ 4 := by omega
  simp [hhas, hfail, hlow, hne, h4]

/-- A connection after both channels judged a PDU, before it is settled. -/
def Conn.judged (x : Conn) (p : RxPar) (f : Pdu) : Conn :=
  let ja := judge p x.base x.a x.la f
  let jb := judge p x.base x.b x.lb f
  { x with a := ja.rx, la := ja.led, b := jb.rx, lb := jb.led, base := x.base && !(ja.rx != x.a)
           stale := if ja.stale then satAdd 8 x.stale 1 else x.stale, missedN := satAdd 16 x.missedN ja.miss }

/-- R301: a PDU that passes goes to the judgement of both channels and is settled. -/
theorem State.connTake_eq {s : State} {c : Nat} {p : RxPar} {f : Pdu} (hexp : pduTexp f = p.twd) (hja : s.judgesA = true)
    (hjb : s.judgesB = true) : ∃ t : State, t.saf = s.saf ∧ t.frm = s.frm ∧ s.connTake c p f =
      (t.setConn c ((s.conn c).judged p f)).connSettle c (judge p (s.conn c).base (s.conn c).a (s.conn c).la f).why := by
  refine ⟨if (judge p (s.conn c).base (s.conn c).a (s.conn c).la f).rx.has then s.ssqOpen else s, State.read_ite State.saf rfl rfl,
    State.read_ite State.frm rfl rfl, ?_⟩
  unfold State.connTake Conn.judged
  dsimp only
  have hA (q : Prop) [Decidable q] : (if q then s.ssqOpen else s).judgesA = true :=
    State.of_ite (P := fun t => t.judgesA = true) hja hja
  have hB (q : Prop) [Decidable q] : (if q then s.ssqOpen else s).judgesB = true :=
    State.of_ite (P := fun t => t.judgesB = true) hjb hjb
  simp only [if_neg (not_not_intro hexp), hja, hA, hB, if_true]

/-- The judged connection of an established one: both channels, which hold the same, come to the same consumer. -/
theorem Conn.judged_b {x : Conn} (p : RxPar) (f : Pdu) (hb : x.b = x.a) : (x.judged p f).b = (x.judged p f).a := by
  have hrx (l m : SsLed) : (judge p x.base x.a l f).rx = (judge p x.base x.a m f).rx := by
    unfold judge
    grind
  change (judge p x.base x.b x.lb f).rx = (judge p x.base x.a x.la f).rx
  rw [hb]
  exact hrx _ _

theorem State.connReject_conn (s : State) (c : Nat) : ((s.connReject c).conn c).a = (s.conn c).a ∧ ((s.connReject c).conn c).b = (s.conn c).b ∧
    ((s.connReject c).conn c).rej = min ((s.conn c).rej + 1) 255 := by
  have hset : (s.setConn c { s.conn c with rej := satAdd 8 (s.conn c).rej 1, rejEvt := true }).conn c = _ :=
    State.setConn_conn s c _ Conn.rejEvt Bool.noConfusion
  unfold State.connReject
  refine State.of_ite (P := fun t => (t.conn c).a = _ ∧ (t.conn c).b = _ ∧ (t.conn c).rej = _) ?_ ?_
  · rw [hset]
    exact ⟨rfl, rfl, rfl⟩
  · rw [State.conn_congr ((State.raise_only ..).out .saf rfl), hset]
    exact ⟨rfl, rfl, rfl⟩

theorem State.ownConns_goto (s : State) (t : Nat) : (s.goto t).ownConns = s.ownConns := by
  unfold State.ownConns State.setRuns State.scP
  rw [State.goto_saf, (State.goto_only s t).out .red rfl]
  simp only [State.goto_pn, State.goto_frm]

theorem execSafetyPduReceived_eq {s : State} (c : Fin 64) (f : Pdu) (t : Nat) (h : s.frm.role ≠ .standby) :
    exec (.safetyPduReceived c f t) s =
      .next (if s.ownConns.contains c.val && rxPasses ((s.goto t).rxPar c (s.frm.role == .node)) f then
        (s.goto t).connTake c ((s.goto t).rxPar c (s.frm.role == .node)) f else (s.goto t).connReject c) := by
  have hrole : (s.goto t).frm.role = s.frm.role := by rw [State.goto_frm]
  change Host.Outcome.next _ = _
  dsimp only
  rw [hrole, if_neg h, State.ownConns_goto]

theorem pduReleaseJudged (s : State) (c : Fin 64) (hf : (s.conn c).formed = true) :
    (s.judgesA = false ∨ s.judgesB = false ∨ (s.conn c).form = s.pduFor c (s.conn c).tx → ∃ u, exec (.pduRelease c) s = .next u ∧
      (u.conn c).rel = (s.conn c).form ∧ (u.conn c).txRel = (s.conn c).tx ∧ (u.conn c).formed = false) ∧
    (s.judgesA = true → s.judgesB = true → (s.conn c).form ≠ s.pduFor c (s.conn c).tx → ∃ u, exec (.pduRelease c) s = .next u ∧
      (u.conn c).rel = (s.conn c).rel ∧ (u.conn c).withheld = min ((s.conn c).withheld + 1) 255 ∧ u.saf.mismatch = true ∧
      u.hasEvent evSafeWithheld c) := by
  have hformed : ¬(!(s.conn c).formed) = true := by simp [hf]
  refine ⟨fun h => ?_, fun hja hjb hne => ?_⟩
  · refine ⟨_, congrArg Host.Outcome.next ((if_neg hformed).trans (if_pos ?_)), ?_⟩
    · rcases h with h | h | h <;> simp [h]
    · rw [State.setConn_conn _ _ _ (fun x => x.la.rel) (Nat.succ_ne_zero _)]
      exact ⟨rfl, rfl, rfl⟩
  · have hstored (x : Conn) (h : x.withheld ≠ 0) : (s.setConn c x).conn c = x := State.setConn_conn s c x Conn.withheld h
    have hcount : min ((s.conn c).withheld + 1) 255 ≠ 0 := by omega
    refine ⟨s.withhold c, congrArg Host.Outcome.next ((if_neg hformed).trans (if_neg (by simp [hja, hjb, hne]))), ?_⟩
    let x : Conn := { s.conn c with
      formed := false, withheld := satAdd 8 (s.conn c).withheld 1, la := { (s.conn c).la with withh := (s.conn c).la.withh + 1 }
      lb := { (s.conn c).lb with withh := (s.conn c).lb.withh + 1 } }
    have hsaf : (s.withhold c).saf = { (s.setConn c x).saf with mismatch := true } := (State.raise_only ..).out .saf rfl
    have hconn : (s.withhold c).conn c = x := by
      rw [State.conn, hsaf]
      exact hstored x hcount
    rw [hconn, hsaf]
    exact ⟨rfl, rfl, rfl, State.raise_hasEvent ..⟩

theorem safetyPduJudged (s : State) (c : Fin 64) (f : Pdu) (t : Nat) (hrole : s.frm.role ≠ .standby) (hown : s.ownConns.contains c.val = true)
    (hpass : rxPasses ((s.goto t).rxPar c (s.frm.role == .node)) f = true) (hexp : pduTexp f = s.scP c 3) (hja : s.judgesA = true)
    (hjb : s.judgesB = true) (hbase : (s.conn c).base = false) (hhas : (s.conn c).a.has = true) (hb : (s.conn c).b = (s.conn c).a)
    (hafail : (s.conn c).a.fail = false) (hfail : (s.conn c).fail = false) :
    let x := s.conn c
    let d := (pduSeq f - x.a.seq).toNat
    (32768 ≤ d ∨ (d = 0 ∧ f = x.a.pdu) → ∃ u, exec (.safetyPduReceived c f t) s = .next u ∧ (u.conn c).a = x.a ∧
      (u.conn c).fail = false) ∧
    (1 ≤ d → d ≤ 4 → ∃ u, exec (.safetyPduReceived c f t) s = .next u ∧ (u.conn c).a.seq = pduSeq f ∧ (u.conn c).rxSeq = pduSeq f ∧
      (u.conn c).fail = false ∧ (u.conn c).a.wd = max s.frm.now t + msT (s.scP c 3) ∧ (u.conn c).la.miss = x.la.miss + (d - 1)) ∧
    (5 ≤ d → d < 32768 → ∃ u, exec (.safetyPduReceived c f t) s = .next u ∧ (u.conn c).fail = true ∧ (u.conn c).reason = 2 ∧
      (u.conn c).a.seq = x.a.seq ∧ u.hasEvent evSafeConn c) := by
  have hsaf := State.goto_saf s t
  have htwd : ((s.goto t).rxPar c (s.frm.role == .node)).twd = s.scP c 3 := State.goto_pn s t 11 (64 + c) 3
  have hnow : ((s.goto t).rxPar c (s.frm.role == .node)).now = max s.frm.now t := by
    change (s.goto t).frm.now = _
    rw [State.goto_frm]
    dsimp only
    omega
  have hex := execSafetyPduReceived_eq c f t hrole
  rw [hown, hpass, Bool.and_self, if_pos rfl] at hex
  generalize (s.goto t).rxPar c (s.frm.role == .node) = p at htwd hnow hex
  obtain ⟨v, hv, -, htake⟩ := State.connTake_eq (c := c) (hexp.trans htwd.symm) ((State.judges_congr hsaf).1.trans hja)
    ((State.judges_congr hsaf).2.trans hjb)
  rw [State.conn_congr hsaf, hbase] at htake
  have hvja : v.judgesA = true := (State.judges_congr (hv.trans hsaf)).1.trans hja
  have hvjb : v.judgesB = true := (State.judges_congr (hv.trans hsaf)).2.trans hjb
  rw [htake] at hex
  have hja' : ((s.conn c).judged p f).a = (judge p false (s.conn c).a (s.conn c).la f).rx := by rw [← hbase]; rfl
  have hla : ((s.conn c).judged p f).la = (judge p false (s.conn c).a (s.conn c).la f).led := by rw [← hbase]; rfl
  have hjb' := Conn.judged_b p f hb
  have hjfail : ((s.conn c).judged p f).fail = false := hfail
  generalize (s.conn c).judged p f = y at hex hja' hla hjb' hjfail
  have hstored (h : y.a.has = true) : (v.setConn c y).conn c = y :=
    State.setConn_conn v c y (fun x => x.a.has) (by rw [h]; exact Bool.noConfusion)
  intro x d
  refine ⟨fun h => ⟨_, hex, ?_⟩, fun h1 h4 => ⟨_, hex, ?_⟩, fun h5 hmax => ⟨_, hex, ?_⟩⟩
  · have hrx := judge_repeated (p := p) (l := x.la) hhas hafail h
    have hya : y.a = x.a := hja'.trans hrx
    have hst := hstored (by rw [hya]; exact hhas)
    obtain ⟨hf, ha, -, -⟩ := State.connSettle_accepts (s := v.setConn c y) (c := c) (judge p false x.a x.la f).why hvja hvjb
      (by rw [hst]; exact hjb') (by rw [hst, hya]; exact hhas) (by rw [hst, hya]; exact hafail)
    exact ⟨by rw [ha, hst, hya], hf⟩
  · obtain ⟨hrx, hmiss⟩ := judge_next (p := p) (l := x.la) hhas hafail h1 h4
    have hya : y.a = x.a.accept p f := hja'.trans hrx
    have hst := hstored (by rw [hya]; rfl)
    obtain ⟨hf, ha, hl, hseq⟩ := State.connSettle_accepts (s := v.setConn c y) (c := c) (judge p false x.a x.la f).why hvja hvjb
      (by rw [hst]; exact hjb') (by rw [hst, hya]; rfl) (by rw [hst, hya]; rfl)
    rw [hst] at ha hl hseq
    refine ⟨by rw [ha, hya]; rfl, by rw [hseq, hya]; rfl, hf, ?_, by rw [hl, hla, hmiss]⟩
    rw [ha, hya, ← htwd, ← hnow]
    rfl
  · obtain ⟨hrx, hwhy⟩ := judge_gap (p := p) (l := x.la) hhas hafail h5 hmax
    have hya : y.a = x.a.toFail (some (pduSeq f, f)) := hja'.trans hrx
    have hst := hstored (by rw [hya]; exact hhas)
    obtain ⟨hf, hreason, ha, hev⟩ := State.connSettle_fails (s := v.setConn c y) (c := c) (judge p false x.a x.la f).why hvja
      (by rw [hst, hya]; rfl) (by rw [hst]; exact hjfail)
    exact ⟨hf, hreason.trans hwhy, by rw [ha, hst, hya]; rfl, hev⟩

/-- Settles O45. -/
theorem safetyPdusAreJudged : Obligations.SafetyPdusAreJudged := by
  refine ⟨pduReleaseJudged, fun s c f t hrole => ⟨fun h => ?_, fun hown hpass hexp hja hjb hbase hhas hb ha hf =>
    safetyPduJudged s c f t hrole hown hpass hexp hja hjb hbase hhas hb ha hf⟩, fun s c hon hafail hfail hja => ?_⟩
  · have hno : ¬(s.ownConns.contains c.val && rxPasses ((s.goto t).rxPar c (s.frm.role == .node)) f) = true := by
      rcases h with h | h <;> rw [h] <;> simp
    refine ⟨_, (execSafetyPduReceived_eq c f t hrole).trans (congrArg Host.Outcome.next (if_neg hno)), ?_⟩
    rw [← State.conn_congr (State.goto_saf s t) c]
    exact State.connReject_conn _ _
  · have hrun : ¬((!(s.conn c).a.wdOn) = true ∨ (s.conn c).a.fail = true) := by simp [hon, hafail]
    have hsaf := State.goto_saf s (s.conn c).a.wd
    let v := (s.goto (s.conn c).a.wd).setConn c { s.conn c with a := (s.conn c).a.toFail none }
    have hst : v.conn c = { s.conn c with a := (s.conn c).a.toFail none } :=
      State.setConn_conn _ _ _ (fun x => x.a.fail) Bool.noConfusion
    obtain ⟨hf, hreason, -, hev⟩ := State.connSettle_fails (s := v) (c := c) 1 ((State.judges_congr hsaf).1.trans hja)
      (by rw [hst]; rfl) (by rw [hst]; exact hfail)
    refine ⟨v.connSettle c 1, congrArg Host.Outcome.next (if_neg hrun), ?_, hf, hreason, hev⟩
    rw [(State.connSettle_only v c 1).out .frm rfl]
    change (s.goto (s.conn c).a.wd).frm.now = _
    rw [State.goto_frm]
    dsimp only
    omega

end Sys2Proof.Machine
end

section
namespace Sys2Proof.Machine
open Host

/-! ### Safety sets -/

theorem State.answer_saf (s : State) (m j st r : Nat) (d : List Byte) : (s.answer m j st r d).saf = s.saf :=
  (State.answer_only s m j st r d).out .saf rfl

theorem State.answer_cfg (s : State) (m j st r : Nat) (d : List Byte) : (s.answer m j st r d).cfg = s.cfg :=
  (State.answer_only s m j st r d).out .cfg rfl

theorem State.runSet_sgrp (s : State) (k g : Nat) : ((s.runSet k).sgrp g).st = .sto := rfl

/-- What the check of a complete load leaves of it. -/
theorem State.safeStored_erase (s : State) (m j : Nat) (h : s.saf.load.erase = false) : (s.safeStored m j).saf.load.erase = false := by
  unfold State.safeStored
  dsimp only
  refine State.of_ite (P := fun t => t.saf.load.erase = false) ?_ (State.of_ite (P := fun t => t.saf.load.erase = false) ?_ ?_) <;>
    rw [State.answer_saf]
  · exact h
  · exact h

/-- The end of a load's erase: the first segment stands in both copies of the slot, and the load is not erasing any more. -/
theorem execSafeLoadEraseComplete_of {s : State} (h : s.saf.load.erase = true) : ∃ u, exec .safeLoadEraseComplete s = .next u ∧
    u.saf.load.erase = false ∧ u.cfg = { s.cfg with
      flash := mwrite flashByte (mwrite flashByte (merase s.cfg.flash s.safeBase 0x80000) (s.safeBase + 0) s.saf.load.first)
        (s.safeBase + 0x40000 + 0) s.saf.load.first } := by
  refine ⟨_, congrArg Host.Outcome.next (if_neg (by simp [h])), ?_⟩
  dsimp only
  cases s.saf.load.ansBuf with
  | none => exact ⟨rfl, rfl⟩
  | some j =>
    dsimp only
    split
    · exact ⟨rfl, rfl⟩
    · exact ⟨State.safeStored_erase _ _ _ rfl, (State.safeStored_only _ _ _).out .cfg rfl⟩

theorem safetySetChecked (s : State) (hoff : s.saf.setOk = false) :
    (s.cfg.lcy = 2 → s.safeSlotOk s.cfg.safeSlot = true → ∃ u, exec .safetySetCheck s = .next u ∧ u.saf.setOk = true ∧
      u.saf.setCrc = Config.safeSetCrc (s.safeCopy s.cfg.safeSlot false) ∧ ∀ g, (u.sgrp g).st = .sto) ∧
    (s.cfg.lcy ≠ 2 ∨ s.safeSlotOk s.cfg.safeSlot = false → ∃ u, exec .safetySetCheck s = .next u ∧ u.saf.setOk = false ∧
      u.hasEvent evSafeSet devObj) := by
  have hrun : ¬s.saf.setOk = true := by simp [hoff]
  refine ⟨fun hl hok => ⟨_, congrArg Host.Outcome.next ((if_neg hrun).trans (if_pos (by simp [hl, hok]))), rfl, rfl, fun _ => rfl⟩,
    fun h => ⟨_, congrArg Host.Outcome.next ((if_neg hrun).trans (if_neg ?_)), ?_, State.raiseDev_hasEvent ..⟩⟩
  · rcases h with h | h <;> simp [h]
  · rw [(State.raiseDev_only ..).out .saf rfl]
    exact hoff

theorem safeLoadTaken (s : State) (m j n : Nat) (h : Request s m j 0x0052 n) (h12 : 12 ≤ n) (h496 : n ≤ 496) (h4 : (n - 8) % 4 = 0) :
    (s.allSto = false → Canonical s → ∃ u, exec .safeLoad s = .next u ∧ Answered u m j stBadState 0 [] ∧ u.saf = s.saf ∧ u.cfg = s.cfg) ∧
    (s.allSto = true → s.pay j 0 4 = 0 → n - 8 ≤ s.pay j 4 4 → s.pay j 4 4 ≤ 262144 → ∃ u, exec .safeLoad s = .next u ∧
      u.saf.load.on = true ∧ u.saf.load.erase = true ∧ u.saf.load.first = s.bufBytes j 24 (n - 8) ∧ u.cfg = s.cfg) := by
  have hlen : (s.take m j true).reqLen j = n := by rw [State.take_reqLen, h.len]
  have hshape : ¬((s.take m j true).reqLen j < 12 ∨ 496 < (s.take m j true).reqLen j ∨ ((s.take m j true).reqLen j - 8) % 4 ≠ 0) := by
    rw [hlen]
    omega
  have hpay (a b : Nat) : (s.take m j true).pay j a b = s.pay j a b := State.take_pay ..
  have hsto : (s.take m j true).allSto = s.allSto := rfl
  refine ⟨fun hno hcan => ?_, fun hyes h0 hfit hmax => ?_⟩
  · refine ⟨_, congrArg Host.Outcome.next ((State.serve_request h _).trans ((if_neg hshape).trans (if_pos (by rw [hsto, hno]; rfl)))), ?_⟩
    exact ⟨answered_of_take (s := s) rfl hcan, State.answer_saf .., State.answer_cfg ..⟩
  · refine ⟨_, congrArg Host.Outcome.next ((State.serve_request h _).trans ((if_neg hshape).trans ((if_neg (by rw [hsto, hyes]; simp)).trans
      ((if_neg ?_).trans (if_pos ((hpay 0 4).trans h0)))))), rfl, rfl, ?_, rfl⟩
    · rw [hpay, hpay, hlen, h0]
      omega
    · change (s.take m j true).bufBytes j 24 _ = _
      rw [hlen, State.take_bufBytes]

theorem safeConfirmed (s : State) (m j : Nat) (h : Request s m j 0x0053 4) (hdone : s.saf.load.done = true)
    (hdue : s.frm.now ≤ s.saf.load.due) :
    let crc := Config.safeSetCrc (s.safeCopy (1 - s.cfg.safeSlot) false)
    (BitVec.ofNat 32 (s.pay j 0 4) = crc → ∃ u, exec .safeConfirm s = .next u ∧ u.cfg.safeSlot = 1 - s.cfg.safeSlot ∧
      u.saf.setOk = true ∧ u.saf.setCrc = crc ∧ ∀ g, (u.sgrp g).st = .sto) ∧
    (BitVec.ofNat 32 (s.pay j 0 4) ≠ crc → ∃ u, exec .safeConfirm s = .next u ∧ u.cfg.safeSlot = s.cfg.safeSlot ∧
      u.saf.setCrc = s.saf.setCrc ∧ u.saf.load = {}) := by
  have hlen : ¬(s.take m j true).reqLen j ≠ 4 := by simp [h.len]
  have hopen : ¬((!(s.take m j true).saf.load.done) = true ∨ (s.take m j true).saf.load.due < (s.take m j true).frm.now) := by
    change ¬((!s.saf.load.done) = true ∨ s.saf.load.due < s.frm.now)
    rw [hdone]
    simpa using hdue
  have hpay : (s.take m j true).pay j 0 4 = s.pay j 0 4 := State.take_pay ..
  intro crc
  refine ⟨fun hcrc => ?_, fun hcrc => ?_⟩
  · refine ⟨_, congrArg Host.Outcome.next ((State.serve_request h _).trans ((if_neg hlen).trans ((if_neg hopen).trans
      (if_neg (not_not_intro (by rw [hpay]; exact hcrc)))))), ?_⟩
    refine ⟨congrArg Cfg.safeSlot (State.answer_cfg ..), congrArg Saf.setOk (State.answer_saf ..), congrArg Saf.setCrc (State.answer_saf ..),
      fun g => ?_⟩
    rw [State.sgrp_congr (State.answer_saf ..)]
    rfl
  · refine ⟨_, congrArg Host.Outcome.next ((State.serve_request h _).trans ((if_neg hlen).trans ((if_neg hopen).trans
      (if_pos (by rw [hpay]; exact hcrc))))), ?_⟩
    exact ⟨congrArg Cfg.safeSlot (State.answer_cfg ..), (congrArg Saf.setCrc (State.answer_saf ..)).trans rfl,
      (congrArg Saf.load (State.answer_saf ..)).trans rfl⟩

theorem safetySetsAreLoaded : SafetySetsAreLoaded := by
  refine ⟨safetySetChecked, safeLoadTaken, fun s hcan her => ?_, fun s hdone => ⟨_, congrArg Host.Outcome.next (if_pos hdone), rfl, ?_, ?_⟩,
    safeConfirmed⟩
  · obtain ⟨u, hex, herase, hcfg⟩ := execSafeLoadEraseComplete_of her
    refine ⟨u, hex, herase, ?_, by rw [hcfg]⟩
    rw [hcfg, ← Nat.add_zero (s.safeBase + 0x40000)]
    exact mread_mwrite flashByte _ _ _ (wf_mwrite flashByte _ _ _ (wf_merase flashByte _ _ _ hcan.flash))
  · exact congrArg Cfg.safeSlot ((State.goto_only ..).out .cfg rfl)
  · exact (congrArg Saf.setCrc (State.goto_saf ..)).trans rfl

theorem safetyRequestsAct : SafetyRequestsAct := by
  intro s m j hcan
  have hlen {v : Nat} (h : Request s m j v 1) : ¬(s.take m j true).reqLen j ≠ 1 := by simp [h.len]
  have hpay : (s.take m j true).pay j 0 1 = s.pay j 0 1 := State.take_pay ..
  refine ⟨fun h hg hsrc => ?_, fun h hk hf => ?_, fun h hk hf => ?_⟩
  · have hsrc' : (s.take m j true).sgP ((s.take m j true).pay j 0 1) 19 = 0 := by
      rw [hpay]
      exact hsrc
    refine ⟨_, congrArg Host.Outcome.next ((State.serve_request h _).trans ((if_neg (hlen h)).trans (if_neg (by rw [hpay]; omega)))), ?_⟩
    dsimp only
    rw [if_pos hsrc', hpay]
    have hstored : ((s.take m j true).setSgrp (s.pay j 0 1) { (s.take m j true).sgrp (s.pay j 0 1) with rst := true }).sgrp (s.pay j 0 1) = _ :=
      State.setSgrp_ne _ _ _ fun hx => absurd (congrArg SGroup.rst hx) Bool.noConfusion
    refine ⟨answered_of_take (s := s) rfl hcan, ?_, ?_⟩ <;> rw [State.sgrp_congr (State.answer_saf ..), hstored]
    rfl
  · have hfault : ((s.take m j true).chan (decide ((s.take m j true).pay j 0 1 = 1))).fault = .transient := by
      rw [hpay]
      exact hf
    refine ⟨_, congrArg Host.Outcome.next ((State.serve_request h _).trans ((if_neg (hlen h)).trans (if_neg (by rw [hpay]; omega)))), ?_⟩
    dsimp only
    rw [hfault]
    exact ⟨answered_of_take (s := s) rfl hcan, (congrArg Saf.clr (State.answer_saf ..)).trans rfl⟩
  · have hfault : ((s.take m j true).chan (decide ((s.take m j true).pay j 0 1 = 1))).fault = .persistent := by
      rw [hpay]
      exact hf
    refine ⟨_, congrArg Host.Outcome.next ((State.serve_request h _).trans ((if_neg (hlen h)).trans (if_neg (by rw [hpay]; omega)))), ?_⟩
    dsimp only
    rw [hfault]
    exact ⟨answered_of_take (s := s) rfl hcan, State.answer_saf ..⟩

/-- Settles O46. -/
theorem safetySetsAndRequests : Obligations.SafetySetsAndRequests := ⟨safetySetsAreLoaded, safetyRequestsAct⟩

end Sys2Proof.Machine
end

section
/-! An input channel that is marked to open (R316, R317): the loss of its die leaves its value valid. -/

namespace Sys2Proof.Machine

/-- A head whose die 0 has missed three housekeeping returns, and a valid input 0 that carries the mark of an output about to open. -/
def openingInputState : State :=
  { frm := { role := .head }
    fio := { dies := [(0, { hkRun := 3, hkLost := false })], ch := [(0, { st := .input, inv := false, opening := true })] } }

/-- The loss of the die passes over a channel that is marked to open. -/
theorem housekeepingLost_openingInputState :
    ∃ u, exec (.housekeepingLost 0) openingInputState = .next u ∧ (u.fch 0).inv = false :=
  ⟨_, rfl, by decide +kernel⟩

/-- Refutes O47: the input of a lost die stays valid. -/
theorem not_fieldScanAndCouplers : ¬ Obligations.FieldScanAndCouplers := by
  rintro ⟨⟨-, hlost⟩, -⟩
  obtain ⟨u, hu, hread⟩ := housekeepingLost_openingInputState
  obtain ⟨u', hu', -, hinputs, -⟩ := hlost openingInputState 0 (by decide +kernel) (by decide +kernel) rfl
  obtain rfl := Host.Outcome.next.inj (hu.symm.trans hu')
  obtain ⟨hread', -⟩ := hinputs 0 (by decide +kernel) (by decide +kernel)
  exact absurd (hread.symm.trans hread') (by decide +kernel)

end Sys2Proof.Machine
end

section
namespace Sys2Proof.Machine
open Host

/-! ### What the passing of time leaves of the capture engine and of the supplies' stage -/

/-- Two states whose capture engines differ in their waiting triggers only. -/
def CapTrigsOnly (s t : State) : Prop := ∃ l, t.cap = { s.cap with trigs := l }

theorem CapTrigsOnly.of_cap {s t : State} (h : t.cap = s.cap) : CapTrigsOnly s t := ⟨s.cap.trigs, h⟩

theorem CapTrigsOnly.trans {s t u : State} (h : CapTrigsOnly s t) (k : CapTrigsOnly t u) : CapTrigsOnly s u := by
  obtain ⟨l, hl⟩ := h
  obtain ⟨m, hm⟩ := k
  exact ⟨m, by rw [hm, hl]⟩

theorem State.capTrigger_trigs (s : State) (src t : Nat) : CapTrigsOnly s (s.capTrigger src t) :=
  State.of_ite (P := CapTrigsOnly s) (.of_cap rfl) ⟨_, rfl⟩

theorem State.raiseCore_trigs (s : State) (code obj groups : Nat) (data : List Byte) : CapTrigsOnly s (s.raiseCore code obj groups data) := by
  have hlog (t : State) (k l m n : Nat) (d : List Byte) : (t.log k l m n d).cap = t.cap := (State.log_only ..).out .cap rfl
  unfold State.raiseCore
  refine State.of_ite (P := CapTrigsOnly s) (CapTrigsOnly.trans ?_ (State.capTrigger_trigs ..)) ?_
  · refine State.of_ite (P := CapTrigsOnly s) (.of_cap ((hlog ..).trans ?_)) (.of_cap ?_) <;> exact State.read_ite State.cap rfl rfl
  · refine State.of_ite (P := CapTrigsOnly s) (.of_cap ((hlog ..).trans ?_)) (.of_cap ?_) <;> exact State.read_ite State.cap rfl rfl

theorem State.raise_trigs (s : State) (code obj groups : Nat) (data : List Byte) : CapTrigsOnly s (s.raise code obj groups data) := by
  unfold State.raise
  refine State.of_ite (P := CapTrigsOnly s) ?_ (State.raiseCore_trigs ..)
  exact (State.raiseCore_trigs ..).trans ((State.raiseCore_trigs ..).trans (.of_cap rfl))

theorem State.goto_trigs (s : State) (t : Nat) : CapTrigsOnly s (s.goto t) := by
  have hadv : (s.advance t).cap = s.cap := (State.advance_only s t).out .cap rfl
  unfold State.goto
  refine State.of_ite (P := CapTrigsOnly s) ?_ (.of_cap hadv)
  have hin : CapTrigsOnly s { s.advance t with pwr := { (s.advance t).pwr with limCnt := satInc (s.advance t).pwr.limCnt } } := .of_cap hadv
  refine CapTrigsOnly.trans ?_ (.of_cap rfl)
  exact State.of_ite (P := CapTrigsOnly s) (hin.trans (State.raise_trigs ..)) hin

theorem State.cycles_stage (s : State) (n : Nat) : (s.cycles n).pwr.stage = s.pwr.stage := by
  rw [(State.cycles_only s n).out .pwr rfl]

theorem State.droopRun_stage (s : State) (n acc : Nat) : (s.droopRun n acc).1.pwr.stage = s.pwr.stage := by
  have hcycle (t : State) : t.droopCycle.pwr.stage = t.pwr.stage := by
    unfold State.droopCycle
    exact State.read_ite (·.pwr.stage) (State.cycles_stage ..) (State.cycles_stage ..)
  induction n generalizing s acc with
  | zero => rfl
  | succ n ih =>
    unfold State.droopRun
    dsimp only
    generalize (if (recentStretch s.pwr.hist s.pwr.periods).length < 200 then 50 else 25) = len
    by_cases h : acc < len
    · rw [if_pos h]
    · rw [if_neg h, ih, hcycle]

theorem State.holdRun_stage (s : State) (acc : Nat) : (s.holdRun acc).1.pwr.stage = s.pwr.stage := by
  unfold State.holdRun
  dsimp only
  split
  · rfl
  · exact State.cycles_stage ..

theorem State.coreTime_stage (s : State) (dt : Nat) : (s.coreTime dt).pwr.stage = s.pwr.stage := by
  unfold State.coreTime
  refine State.of_ite (P := fun t => t.pwr.stage = s.pwr.stage) rfl ?_
  dsimp only
  split_ifs
  · exact State.holdRun_stage ..
  · exact State.droopRun_stage ..
  · exact State.cycles_stage ..

theorem State.goto_stage (s : State) (t : Nat) : (s.goto t).pwr.stage = s.pwr.stage := by
  have hadv : (s.advance t).pwr.stage = s.pwr.stage := State.coreTime_stage ..
  have hraise (u : State) (c : Nat) (d : List Byte) : (u.raiseDev c d).pwr = u.pwr := (State.raiseDev_only ..).out .pwr rfl
  unfold State.goto
  refine State.of_ite (P := fun u => u.pwr.stage = s.pwr.stage) ?_ hadv
  exact State.of_ite (P := fun u => (u.markEv evClkLimit devObj).pwr.stage = s.pwr.stage)
    ((congrArg Pwr.stage (hraise ..)).trans hadv) hadv

/-! ### Samples and records in memory -/

theorem State.goto_now_max (s : State) (t : Nat) : (s.goto t).frm.now = max s.frm.now t := by
  rw [State.goto_frm]
  exact now_add_sub ..

theorem State.recOf_congr {s t : State} (hfin : t.cap.fin = s.cap.fin) (hcur : t.cap.cur = s.cap.cur) (n : W32) (e : W16) :
    t.recOf n e = s.recOf n e := by
  rw [State.recOf, hfin, hcur, State.recOf]

theorem stagingDrained {s : State} {x : StgSmp} {r : List StgSmp} (h : s.cap.stg = x :: r) (hrec : s.recOf x.recno x.repoch = none)
    (w : Memory.wf ramByte s.cap.mem = true) : ∃ u, exec .stagingDrain s = .next u ∧ u.cap.stg = r ∧
      u.cap.fill = s.cap.fill - x.bytes.length ∧ mread ramByte u.cap.mem x.addr x.bytes.length = x.bytes := by
  let v := s.capWrite x.addr x.bytes
  let y := if v.cap.dest = 1 then State.bwBytes { v with pwr := { v.pwr with dramLast := v.frm.now, selfRef := false } } 9 x.bytes.length
    else v
  let z : State := { y with cap := { y.cap with stg := r, fill := y.cap.fill - x.bytes.length } }
  have hy : y.cap = v.cap := State.read_ite State.cap rfl rfl
  have hex : exec .stagingDrain s = .next (z.maskSample x) := by
    change execStagingDrain s = _
    unfold execStagingDrain
    rw [h]
    dsimp only
    rw [hrec]
    rfl
  have hz : z.maskSample x = z := by
    have hzrec : z.recOf x.recno x.repoch = none :=
      (State.recOf_congr (t := z) ((congrArg Cap.fin hy).trans rfl) ((congrArg Cap.cur hy).trans rfl) _ _).trans hrec
    unfold State.maskSample
    rw [hzrec]
  rw [hz] at hex
  refine ⟨z, hex, rfl, (congrArg (fun c : Cap => c.fill - x.bytes.length) hy).trans rfl, ?_⟩
  change mread ramByte y.cap.mem _ _ = _
  rw [hy]
  exact mread_mwrite ramByte _ _ _ w

theorem State.capWrite_mem (s : State) (a : Nat) (bs : List Byte) : (s.capWrite a bs).cap.mem = mwrite ramByte s.cap.mem a bs := rfl

theorem recordCompleted {s : State} {x : CapRec} {r : List CapRec} (h : s.cap.fin = x :: r)
    (hstg : (s.cap.stg.any fun y => y.recno == x.recno && y.repoch == x.repoch) = false) (w : Memory.wf ramByte s.cap.mem = true) :
    ∃ u, exec .recordComplete s = .next u ∧ u.cap.fin = r ∧ u.cap.lastRecno = x.recno ∧ u.cap.lastRepoch = x.repoch ∧
      mread ramByte u.cap.mem (s.slotAddr x.slot) (s.capHeader x).length = s.capHeader x := by
  have hex : exec .recordComplete s = .next { s.capWrite (s.slotAddr x.slot) (s.capHeader x) with
      cap := { (s.capWrite (s.slotAddr x.slot) (s.capHeader x)).cap with fin := r, lastRecno := x.recno, lastRepoch := x.repoch } } := by
    change execRecordComplete s = _
    unfold execRecordComplete
    rw [h]
    exact congrArg Host.Outcome.next (if_neg (by rw [hstg]; exact Bool.false_ne_true))
  generalize s.capHeader x = hd at hex ⊢
  refine ⟨_, hex, rfl, rfl, rfl, ?_⟩
  dsimp only
  rw [State.capWrite_mem]
  exact mread_mwrite ramByte _ _ _ w

theorem captureApertureWritten (s : State) (off : Nat) (v : W32) :
    let a := s.cap.apBase * 2 ^ 20 + off % 2 ^ 25 / 4 * 4
    (maskBase ≤ a → a < maskBase + 64 * 32768 → s.cap.st.runs = false → Memory.wf ramByte s.cap.mem = true →
      ∃ u, exec (.captureApertureWrite off v) s = .next u ∧ mread ramByte u.cap.mem a 4 = leBytes 4 v.toNat ∧
        u.cap.wrign = s.cap.wrign) ∧
    (a < maskBase → ∃ u, exec (.captureApertureWrite off v) s = .next u ∧ u.cap.wrign = true ∧ u.cap.mem = s.cap.mem) := by
  intro a
  refine ⟨fun hlo hhi hrun w => ?_, fun hlo => ?_⟩
  · have hgo : maskBase ≤ a ∧ a < maskBase + 64 * 32768 ∧ (!s.cap.st.runs) = true := ⟨hlo, hhi, by rw [hrun]; rfl⟩
    refine ⟨_, congrArg Host.Outcome.next (if_pos hgo), ?_, rfl⟩
    have hread := mread_mwrite ramByte s.cap.mem a (leBytes 4 v.toNat) w
    rw [length_leBytes] at hread
    exact hread
  · have hno : ¬(maskBase ≤ a ∧ a < maskBase + 64 * 32768 ∧ (!s.cap.st.runs) = true) := by omega
    exact ⟨_, congrArg Host.Outcome.next (if_neg hno), rfl, rfl⟩

theorem captureSamplesGoToMemory : CaptureSamplesGoToMemory := by
  refine ⟨fun s e hauto hst htrig => ?_, fun s t hst => ?_, fun s x r h hrec w => stagingDrained h hrec w,
    fun s x r h hstg w => recordCompleted h hstg w, captureApertureWritten⟩
  · have hex : exec .autoTriggerExpiry s = .next { s.goto e with cap := { (s.goto e).cap with autoTrig := true } } := by
      change execAutoTriggerExpiry s = _
      unfold execAutoTriggerExpiry
      rw [hauto]
      exact congrArg Host.Outcome.next (if_pos ⟨hst, by rw [htrig]; rfl⟩)
    exact ⟨_, hex, rfl, State.goto_now_max ..⟩
  · obtain ⟨l, hl⟩ := State.goto_trigs s t
    have hpre : (s.goto t).capPre = s.capPre := by simp [State.capPre, State.capN, State.cp]
    have hnow : (((s.goto t).capPre == 0) = true) = (s.capPre = 0) := by rw [hpre, beq_iff_eq]
    refine ⟨_, congrArg Host.Outcome.next (if_pos hst), State.goto_now_max .., ?_, (congrArg Cap.recno hl).trans rfl, rfl⟩
    change (if ((s.goto t).capPre == 0) = true then CapSt.armed else .holdoff) = _
    simp only [hnow]

/-! ### An instant before the trigger -/

/-- Two states whose records in progress have gone as far, with the same samples in staging. -/
structure SameRecord (s t : State) : Prop where
  n : t.cap.cur.n = s.cap.cur.n
  trig : t.cap.cur.trig = s.cap.cur.trig
  stg : t.cap.stg = s.cap.stg
  fill : t.cap.fill = s.cap.fill

theorem SameRecord.trans {s t u : State} (h : SameRecord s t) (k : SameRecord t u) : SameRecord s u :=
  ⟨k.n.trans h.n, k.trig.trans h.trig, k.stg.trans h.stg, k.fill.trans h.fill⟩

theorem SameRecord.refl (s : State) : SameRecord s s := ⟨rfl, rfl, rfl, rfl⟩

theorem State.capDead_same (s : State) (t : Nat) : SameRecord s (s.capDead t) :=
  State.of_ite (P := SameRecord s) (.refl s) (State.of_ite (P := SameRecord s) ⟨rfl, rfl, rfl, rfl⟩ ⟨rfl, rfl, rfl, rfl⟩)

theorem State.capDead_cause (s : State) (t : Nat) (k l : Bool) (n : Nat) : (s.capDead t).capCause k l n = s.capCause k l n :=
  State.of_ite (P := fun u => u.capCause k l n = s.capCause k l n) rfl (State.of_ite (P := fun u => u.capCause k l n = s.capCause k l n) rfl rfl)

theorem State.crevClose_same {s : State} (h : s.cap.cur.trig = none) : SameRecord s s.crevClose := by
  unfold State.crevClose
  split
  · exact .refl s
  · dsimp only
    rw [if_neg (by rw [h]; decide)]
    exact ⟨rfl, rfl, rfl, rfl⟩

theorem State.capAdmit_pre {s : State} (h : s.cap.cur.trig = none) (t : Nat) (bs : List Byte) :
    (s.capAdmit t bs).cap.cur.n = s.cap.cur.n ∧ (s.capAdmit t bs).cap.cur.trig = none ∧
    (s.capAdmit t bs).cap.stg.length = s.cap.stg.length + 1 ∧ (s.capAdmit t bs).cap.fill = s.cap.fill + bs.length := by
  have hclose := State.crevClose_same h
  unfold State.capAdmit
  dsimp only
  generalize s.crevClose = v at hclose
  rw [if_neg (by rw [hclose.trig, h]; decide)]
  refine ⟨hclose.n, hclose.trig.trans h, ?_, ?_⟩
  · rw [List.length_append, hclose.stg]
    rfl
  · rw [hclose.fill]

/-- Before the trigger is accepted an instant is judged early. -/
theorem State.capJudge_early {s : State} (h : s.cap.cur.trig = none) (hn : s.cap.cur.n ≤ s.capPre) (t : Nat) (own : Bool) :
    SameRecord s (s.capJudge t own) := by
  have hopen : ¬s.cap.cur.trig.isSome = true := by rw [h]; decide
  have hex : s.capJudge t own = _ := (if_neg hopen).trans (if_pos hn)
  rw [hex]
  exact ⟨rfl, rfl, rfl, rfl⟩

theorem State.capAfter_early {s : State} (h : s.cap.cur.trig = none) (t : Nat) : SameRecord s (s.capAfter t) := by
  unfold State.capAfter
  dsimp only
  rw [h]
  exact State.of_ite (P := SameRecord s) ⟨rfl, rfl, rfl, rfl⟩ (.refl s)

theorem State.cp_congr {s t : State} (h : t.params = s.params) (k : Nat) : t.cp k = s.cp k :=
  congrArg (fun q => (paramIn q 12 0 k).toNat) h

theorem State.capPre_congr {s t : State} (h : t.params = s.params) : t.capPre = s.capPre := by
  simp only [State.capPre, State.capN, State.cp_congr h]

/-- A trigger of source 1, 5 or 6 at the instant itself, and what the instant leaves for the next ones. -/
def State.capOwn (s : State) (src k : Nat) (link skip : Bool) (bytes : List Byte) (w : W16) : Bool × State :=
  if s.cp 9 = 6 then (true, s)
  else if s.cp 9 = 5 ∧ src = 2 ∧ !link then s.tapTrig w
  else if s.cp 9 = 1 ∧ src ≠ 2 ∧ !skip ∧ s.cp 12 < s.cap.nch ∧ s.capPre ≤ k then
    s.levelTrig (sigNumber (s.chSig (s.cp 12)) (BitVec.ofNat 64 (leAt bytes (8 * s.cp 12) 8)))
  else (false, s)

theorem State.capOwn_none {s : State} (h : s.cp 9 = 0) (src k : Nat) (link skip : Bool) (bytes : List Byte) (w : W16) :
    s.capOwn src k link skip bytes w = (false, s) := by
  unfold State.capOwn
  rw [h]
  exact (if_neg (by decide)).trans ((if_neg (fun h => absurd h.1 (by decide))).trans (if_neg (fun h => absurd h.1 (by decide))))

/-- The sample of an instant, admitted or missed. -/
def State.capSampled (s : State) (t cause : Nat) (bytes : List Byte) : State :=
  let v := if cause = 0 then s.capAdmit t bytes else s.capMiss t cause
  { v with cap := { v.cap with cur := { v.cap.cur with n := s.cap.cur.n + 1, lastT := t } } }

theorem State.capInstant_eq (s : State) (t : Nat) (w : W16) : s.capInstant t w =
    let link : Bool := s.cap.src == 2 && !(s.portOf (s.cp 19)).sync
    let skip : Bool := s.cap.src == 0 && s.rowSkipped
    let bytes := if s.cap.src = 2 then leBytes 2 w.toNat else s.capRowBytes
    let p := ((s.capDead t).capSampled t ((s.capDead t).capCause skip link bytes.length) bytes).capOwn s.cap.src (s.capDead t).cap.cur.n
      link skip bytes w
    (p.2.capJudge t p.1).capAfter t := rfl

/-- A tapped word that is kept before the trigger enters staging with its two bytes. -/
theorem State.capInstant_pre {s : State} (hsrc : s.cap.src = 2) (hkind : s.cp 9 = 0) (hsync : (s.portOf (s.cp 19)).sync = true)
    (hcause : s.capCause false false 2 = 0) (htrig : s.cap.cur.trig = none) (hn : s.cap.cur.n + 1 ≤ s.capPre) (t : Nat) (w : W16) :
    (s.capInstant t w).cap.cur.n = s.cap.cur.n + 1 ∧ (s.capInstant t w).cap.fill = s.cap.fill + 2 ∧
      (s.capInstant t w).cap.stg.length = s.cap.stg.length + 1 := by
  have hdead := State.capDead_same s t
  let a := (s.capDead t).capAdmit t (leBytes 2 w.toNat)
  let v : State := { a with cap := { a.cap with cur := { a.cap.cur with n := (s.capDead t).cap.cur.n + 1, lastT := t } } }
  have hvpar : v.params = s.params := ((State.capAdmit_only (s.capDead t) t (leBytes 2 w.toNat)).out .params rfl).trans ((State.capDead_only s t).out .params rfl)
  obtain ⟨han, hatrig, hastg, hafill⟩ := State.capAdmit_pre (s := s.capDead t) (hdead.trig.trans htrig) t (leBytes 2 w.toNat)
  have hvcause : (s.capDead t).capCause false false 2 = 0 := (State.capDead_cause ..).trans hcause
  have hex : s.capInstant t w = (v.capJudge t false).capAfter t := by
    have hlink : (s.cap.src == 2 && !(s.portOf (s.cp 19)).sync) = false := by rw [hsync]; simp
    have hskip : (s.cap.src == 0 && s.rowSkipped) = false := by rw [hsrc]; rfl
    have hv : (s.capDead t).capSampled t 0 (leBytes 2 w.toNat) = v := rfl
    rw [State.capInstant_eq]
    dsimp only
    rw [if_pos hsrc, hlink, hskip, length_leBytes, hvcause, hv, State.capOwn_none ((State.cp_congr hvpar 9).trans hkind)]
  have hvn : v.cap.cur.n = s.cap.cur.n + 1 := congrArg (· + 1) hdead.n
  have hjudge := State.capJudge_early (s := v) hatrig (by rw [State.capPre_congr hvpar, hvn]; exact hn) t false
  have hafter := State.capAfter_early (s := v.capJudge t false) (hjudge.trig.trans hatrig) t
  have hall := hjudge.trans hafter
  rw [hex, hall.n, hall.fill, hall.stg]
  refine ⟨hvn, ?_, ?_⟩
  · exact hafill.trans (by rw [hdead.fill, length_leBytes])
  · exact hastg.trans (by rw [hdead.stg])

theorem captureInstantsAreTaken : CaptureInstantsAreTaken := by
  refine ⟨fun s w t hrun hstart hsrc hdec => ?_, fun s w t hst hstart hsrc hdec hkind hsync hcause htrig hn => ?_⟩
  · have hgo : ¬((!s.cap.st.runs) = true ∨ s.cap.startAt = true ∨ (s.cap.src = 0 ∧ (!s.cap.rowDue) = true)) := by simp [hrun, hstart, hsrc]
    obtain ⟨l, hl⟩ := State.goto_trigs s t
    have hdec' : (s.goto t).cap.decim = s.cap.decim := by rw [hl]
    have hsrc0 : ¬s.cap.src = 0 := by rw [hsrc]; decide
    have hkeep : ¬(((s.goto t).cap.decim == 0) && (s.goto t).cap.st != .rearm) = true := by simp [hdec', hdec]
    have hex : exec (.captureSample w t) s =
        .next { s.goto t with cap := { (s.goto t).cap with decim := ((s.goto t).cap.decim + 1) % (s.goto t).cp 1 } } := by
      refine congrArg Host.Outcome.next ((if_neg hgo).trans ?_)
      dsimp only
      rw [if_neg hsrc0, if_neg hkeep]
    refine ⟨_, hex, State.goto_now_max .., ?_, ?_, ?_⟩ <;> dsimp only
    · rw [hl]
    · rw [hl]
    · rw [hdec', State.cp_congr ((State.goto_only s t).out .params rfl)]
  · have hgo : ¬((!s.cap.st.runs) = true ∨ s.cap.startAt = true ∨ (s.cap.src = 0 ∧ (!s.cap.rowDue) = true)) := by
      simp [hst, hstart, hsrc, CapSt.runs]
    obtain ⟨l, hl⟩ := State.goto_trigs s t
    let v : State := { s.goto t with cap := { (s.goto t).cap with decim := ((s.goto t).cap.decim + 1) % (s.goto t).cp 1 } }
    have hvcap : v.cap = { s.cap with trigs := l, decim := (s.cap.decim + 1) % (s.goto t).cp 1 } := by
      change { (s.goto t).cap with decim := ((s.goto t).cap.decim + 1) % (s.goto t).cp 1 } = _
      rw [hl]
    have hvpar : v.params = s.params := (State.goto_only s t).out .params rfl
    have hsrc0 : ¬s.cap.src = 0 := by rw [hsrc]; decide
    have hkeep : ((s.goto t).cap.decim == 0 && v.cap.st != .rearm) = true := by rw [hvcap, hl]; simp [hdec, hst]
    have hex : exec (.captureSample w t) s = .next (v.capInstant t w) := by
      refine congrArg Host.Outcome.next ((if_neg hgo).trans ?_)
      dsimp only
      rw [if_neg hsrc0, if_neg hsrc0, if_pos hkeep]
    have hport : v.portOf (v.cp 19) = s.portOf (s.cp 19) := by
      have hnet : v.net = s.net := (State.goto_only s t).out .net rfl
      rw [State.cp_congr hvpar]
      unfold State.portOf State.port
      rw [hnet]
    have hcause' : v.capCause false false 2 = 0 := by
      have hstage : v.pwr.stage = s.pwr.stage := State.goto_stage s t
      unfold State.capCause at hcause ⊢
      rw [hvcap, hstage]
      exact hcause
    obtain ⟨hn', hfill, hlen⟩ := State.capInstant_pre (s := v) (by rw [hvcap]; exact hsrc) ((State.cp_congr hvpar 9).trans hkind)
      (by rw [hport]; exact hsync) hcause' (by rw [hvcap]; exact htrig) (by rw [hvcap, State.capPre_congr hvpar]; exact hn) t w
    rw [hvcap] at hn' hfill hlen
    exact ⟨_, hex, hn', hfill, hlen⟩

/-- Settles O51. -/
theorem captureRecordsAreMade : Obligations.CaptureRecordsAreMade := ⟨captureSamplesGoToMemory, captureInstantsAreTaken⟩

end Sys2Proof.Machine
end

section
/-! The A after the head role ended, where the table of step channels is not in canonical form (R257). -/

namespace Sys2Proof.Machine

/-- A part that has left the head role, its last A at 0; step channel 0 stands twice in the table, running. -/
def doubleStepState : State :=
  { red := { quitA := some 0 }, steps := [(0, { stopped := false }), (0, { stopped := false })] }

/-- The withdrawal takes the first entry to its default value, which leaves the table: a read finds the second, still running. -/
theorem applyInstant_doubleStepState :
    ∃ u, exec .applyInstant doubleStepState = .next u ∧ (u.step_ 0).stopped = false :=
  ⟨_, rfl, by decide +kernel⟩

/-- Refutes O55: the channel is not stopped. -/
theorem not_ticksAndInstantsAct : ¬ Obligations.TicksAndInstantsAct := by
  rintro ⟨-, -, -, hquit, -⟩
  obtain ⟨u, hu, hread⟩ := applyInstant_doubleStepState
  obtain ⟨u', hu', -, -, hsteps⟩ := hquit doubleStepState 0 (by decide +kernel) rfl rfl
  obtain rfl := Host.Outcome.next.inj (hu.symm.trans hu')
  obtain ⟨hread', -⟩ := hsteps 0 (by decide)
  exact absurd (hread.symm.trans hread') (by decide +kernel)

end Sys2Proof.Machine
end

section
/-! A link that is lost where the table of ports is not in canonical form (R186, R190). -/

namespace Sys2Proof.Machine

/-- Port 0 stands twice in the table: with its link, and behind it synchronised where no read reaches. -/
def doublePortState : State :=
  { net := { ports := [(0, { link := true }), (0, { sync := true })] } }

/-- The loss takes the first entry to its default value, which leaves the table: a read finds the second. -/
theorem linkDown_doublePortState :
    ∃ u, exec (.linkDown 0 ⟨false, 0⟩) doublePortState = .next u ∧ (u.portOf 0).sync = true :=
  ⟨_, rfl, by decide +kernel⟩

/-- Refutes O13: the port that lost its link reads synchronised. -/
theorem not_nodesAndLinksAreWatched : ¬ Obligations.NodesAndLinksAreWatched := by
  rintro ⟨-, -, hdown⟩
  obtain ⟨u, hu, hread⟩ := linkDown_doublePortState
  obtain ⟨u', hu', -, hread', -⟩ := hdown doublePortState 0 false 0
  obtain rfl := Host.Outcome.next.inj (hu.symm.trans hu')
  exact absurd (hread.symm.trans hread') (by decide)

end Sys2Proof.Machine
end

section
namespace Sys2Proof.Machine
open Host

/-! ### INPOS and stalls -/

theorem State.chanOf_goto (s : State) (t i : Nat) : (s.goto t).chanOf i = s.chanOf i := by
  unfold State.chanOf
  simp only [State.goto_pn]

/-- A stall on a STEP axis withholds increments and ends the search. -/
theorem State.stallStep_of {s : State} {i c : Nat} (h : s.chanOf i = some c) : ((s.stallStep i).axis i).mo.homePhase = 2 ∧
    ((s.stallStep i).step_ c).hold0 = true ∧ (s.stallStep i).frm = s.frm := by
  unfold State.stallStep
  rw [h]
  dsimp only
  refine ⟨?_, ?_, rfl⟩
  · rw [State.setAxis_ne _ _ _ fun hx => absurd (congrArg (fun a : Axis => a.mo.homePhase) hx) (show (2 : Nat) ≠ 0 by decide)]
  · change ((s.setStep c { s.step_ c with hold0 := true }).step_ c).hold0 = true
    rw [State.setStep_ne _ _ _ fun hx => absurd (congrArg StepCh.hold0 hx) Bool.noConfusion]

/-- Settles O22. -/
theorem inposAndStallsComplete : Obligations.InposAndStallsComplete := by
  refine ⟨fun s i hn hin => ?_, fun s i hcan hh hp hst ht => ?_, fun s i c hh hp hst ht hk hc => ?_,
    fun s i c t hh hp ht hk he hz hc => ?_⟩
  · refine ⟨_, congrArg Host.Outcome.next (if_pos ⟨hn, by rw [hin]; rfl⟩), ?_⟩
    rw [State.setAxis_ne _ _ _ fun hx => absurd (congrArg (fun a : Axis => a.mo.inpos) hx) Bool.noConfusion]
  · have hgo : ¬(!((s.axis i).mo.homing && decide ((s.axis i).mo.homePhase = 1) &&
        decide (s.stallFrames i ≤ (s.axis i).mo.homeStall))) = true := by simp [hh, hp, hst]
    refine ⟨_, congrArg Host.Outcome.next ((if_neg hgo).trans (if_neg ht)), ?_⟩
    rw [State.setAxis_same _ _ _ hcan.axes]
    exact ⟨rfl, rfl, rfl⟩
  · have hgo : ¬(!((s.axis i).mo.homing && decide ((s.axis i).mo.homePhase = 1) &&
        decide (s.stallFrames i ≤ (s.axis i).mo.homeStall))) = true := by simp [hh, hp, hst]
    obtain ⟨hphase, hhold, -⟩ := State.stallStep_of hc
    exact ⟨_, congrArg Host.Outcome.next ((if_neg hgo).trans ((if_pos ht).trans (if_pos hk))), hphase, hhold⟩
  · have hgo : ¬(!((s.axis i).mo.homing && decide ((s.axis i).mo.homePhase = 1) && decide (s.axType i = 4) &&
        decide (s.pn 5 i 969 = 2) && decide (s.pn 9 (s.pn 5 i 970) 72 = 2))) = true := by simp [hh, hp, ht, hk, he]
    have hex : exec (.homeFlagExpiry i) s = .next ((s.goto (t + msT (s.pn 5 i 965))).stallStep i) := by
      refine congrArg Host.Outcome.next ((if_neg hgo).trans ?_)
      rw [hz]
    obtain ⟨hphase, hhold, hfrm⟩ := State.stallStep_of ((State.chanOf_goto s (t + msT (s.pn 5 i 965)) i).trans hc)
    refine ⟨_, hex, ?_, hphase, hhold⟩
    rw [hfrm, State.goto_now_max, msT]

/-! ### Power-up -/

/-- Settles O53. -/
theorem partsPowerUp : Obligations.PartsPowerUp := by
  refine ⟨fun s hr => ?_, fun s hr hs => ?_, fun s h b vio hu hr hb hx => ?_, fun s w hu hf hsl hg => ?_⟩
  · exact ⟨_, congrArg Host.Outcome.next (if_neg (by simp [hr])), rfl, rfl, rfl, fun _ => rfl, rfl⟩
  · exact ⟨_, congrArg Host.Outcome.next (if_neg (by simp [hr, hs])), rfl⟩
  · refine ⟨_, congrArg Host.Outcome.next (if_neg (by simp [hu, hr, hb, hx])), rfl, rfl, rfl, rfl, ?_, rfl⟩
    change s.cfg.lcyNext.getD s.cfg.lcy = _
    cases s.cfg.lcyNext with
    | none => rfl
    | some k => rfl
  · refine ⟨_, congrArg Host.Outcome.next (if_neg (by simp [hu, hf, hsl, hg])), ?_⟩
    by_cases hw : w = 0
    · subst hw
      exact ⟨rfl, rfl, rfl⟩
    · simp only [if_neg hw]
      exact ⟨rfl, rfl, rfl⟩

/-! ### The state after reset -/

/-- Settles O7. -/
theorem resetStateHoldsItsValues : Obligations.ResetStateHoldsItsValues := by
  refine ⟨⟨show State.reset.cfg.lcy ≤ 3 by decide, fun n hn => nomatch hn⟩, ⟨rfl, rfl, rfl, rfl, rfl, rfl⟩, ?_, ?_, rfl, rfl, fun _ => rfl⟩
  · decide +kernel
  · decide +kernel

end Sys2Proof.Machine
end

section
namespace Sys2Proof.Machine
open Host

/-! ### The tick and line synchronisation -/

/-- What FRAME_TICK and LSYNC set of the frame block: T0, frame counter, the tick's own bits, and the pulse. -/
def Frm.tickView (f : Frm) : Nat × W48 × Bool × Bool × Bool × Nat :=
  (f.t0, f.frame, f.tickPend, f.first, f.lsync, f.lsyncFall)

/-- The frame that ends leaves T0, counter, tick and pulse as they stand. -/
theorem State.frameEnd_tickView (s : State) (t : Nat) : (s.frameEnd t).frm.tickView = s.frm.tickView := by
  have hred : (s.goto t).redFrameEnd.frm.tickView = s.frm.tickView := by
    rw [(State.redFrameEnd_only _).out .frm rfl, State.goto_frm]
    rfl
  unfold State.frameEnd
  change (if _ then _ else _ : State).frm.tickView = _
  exact State.read_ite (·.frm.tickView) hred hred

/-- What goes out at the tick leaves them as they stand. -/
theorem State.tickSends_tickView (s : State) : s.tickSends.frm.tickView = s.frm.tickView := by
  unfold State.tickSends
  generalize hx : (if s.tickSilent = true then { s with red := { s.red with silentTx := true } } else s) = x
  have hfrm : x.frm = s.frm := by rw [← hx]; exact State.read_ite State.frm rfl rfl
  rw [← hfrm]
  refine State.read_ite (·.frm.tickView) rfl (State.read_ite (·.frm.tickView) rfl (State.read_ite (·.frm.tickView) rfl ?_))
  rw [(State.headSends_only _).out .frm rfl]

/-- The pulse rises at T0 for FRAME.LSYNC_LEN where it is enabled; what else the view holds stays. -/
theorem State.lsyncRise_tickView (s : State) : s.lsyncRise.frm.tickView = (s.frm.t0, s.frm.frame, s.frm.tickPend, s.frm.first,
    (if s.pn 1 0 8 = 1 then true else s.frm.lsync), (if s.pn 1 0 8 = 1 then s.frm.t0 + nsT (s.pn 1 0 9) else s.frm.lsyncFall)) := by
  unfold State.lsyncRise
  by_cases h : s.pn 1 0 8 = 1
  · simp only [if_pos h]
    rfl
  · simp only [if_neg h]
    rfl

theorem State.lockSlew_tickView (s : State) : s.lockSlew.frm.tickView = s.frm.tickView := by
  unfold State.lockSlew
  exact State.read_ite (·.frm.tickView) rfl rfl

theorem State.frameBegin_tickView (s : State) (t : Nat) : (s.frameBegin t).frm.tickView =
    (t, (if s.frm.first then s.frm.frame else s.frm.frame + 1), true, false, s.frm.lsync, s.frm.lsyncFall) := rfl

theorem frameTickBeginsTheFrame : FrameTickBeginsTheFrame := by
  refine ⟨fun s hrun htp hup => ?_, fun s hl => ⟨_, congrArg Host.Outcome.next (if_pos hl), ?_⟩⟩
  · have hex : exec .frameTick s = .next (((((s.frameEnd s.tickAt).frameBegin s.tickAt).lockSlew.lsyncRise).pulseX 0x22).redTick).tickSends :=
      congrArg Host.Outcome.next (if_neg (by simp [hrun, htp, hup]))
    refine ⟨_, hex, ?_⟩
    clear hex
    generalize hb : (s.frameEnd s.tickAt).frameBegin s.tickAt = b
    have hpn : b.lockSlew.pn = s.pn := by
      have hpar : b.lockSlew.par = s.par := by
        rw [← hb]
        have hkeep := (State.frameEnd_only s s.tickAt).out
        exact State.par_congr (((State.lockSlew_only _).out .cams rfl).trans (hkeep .cams rfl))
          (((State.lockSlew_only _).out .saf rfl).trans (hkeep .saf rfl))
          (((State.lockSlew_only _).out .params rfl).trans (hkeep .params rfl))
      funext c i n
      simp only [State.pn, hpar]
    have hview : b.lockSlew.frm.tickView = (s.tickAt, (if s.frm.first then s.frm.frame else s.frm.frame + 1), true, false,
        s.frm.lsync, s.frm.lsyncFall) := by
      have hend := State.frameEnd_tickView s s.tickAt
      simp only [Frm.tickView, Prod.mk.injEq] at hend
      obtain ⟨-, hframe, -, hfirst, hls, hfall⟩ := hend
      rw [State.lockSlew_tickView, ← hb, State.frameBegin_tickView, hframe, hfirst, hls, hfall]
    have hfin := State.tickSends_tickView ((b.lockSlew.lsyncRise).pulseX 0x22).redTick
    rw [(State.redTick_only _).out .frm rfl, (State.pulseX_only _ _).out .frm rfl, State.lsyncRise_tickView, hpn] at hfin
    simp only [Frm.tickView, Prod.mk.injEq] at hview hfin
    obtain ⟨ht0, hframe, htick, hfirst, -, -⟩ := hview
    obtain ⟨hut0, huframe, hutick, hufirst, huls, hufall⟩ := hfin
    refine ⟨?_, ?_, hutick.trans htick, hufirst.trans hfirst, fun h1 => ⟨?_, ?_⟩⟩
    · rw [hut0, ht0]; rfl
    · rw [huframe, hframe]
    · rw [huls, if_pos h1]
    · rw [hufall, if_pos h1, hut0]; rfl
  · change { (s.goto s.frm.lsyncFall).frm with lsync := false } = _
    rw [State.goto_frm, now_add_sub]

theorem lsyncInIsStampedAndWatched : LsyncInIsStampedAndWatched := by
  have hpol : ∀ (s : State) (rise : Bool), s.lsinPol rise = true ↔ (rise = true ↔ s.pn 1 0 11 = 0) := fun s rise => by
    cases rise <;> simp [State.lsinPol]
  refine ⟨fun s rise t hr hm hp => ?_, fun s rise t h => congrArg Host.Outcome.next (if_pos ?_), fun s e he hr hm => ?_⟩
  · have hgo : ¬(s.frm.role ≠ .head ∨ s.pn 1 0 10 = 0 ∨ !s.lsinPol rise) := by simp [hr, hm, (hpol s rise).mpr hp]
    refine ⟨_, congrArg Host.Outcome.next (if_neg hgo), ?_⟩
    have htrig : ∀ x : State, (x.capTrigger 3 t).frm = x.frm := fun x => (State.capTrigger_only x 3 t).out .frm rfl
    have hfrm : ((s.goto t).pulseX 0x5D).frm =
        { s.frm with now := s.frm.now + (t - s.frm.now), slewRem := s.frm.slewRem - s.slewOver t } := by
      rw [(State.pulseX_only _ _).out .frm rfl, State.goto_frm]
    generalize (s.goto t).pulseX 0x5D = x at hfrm
    by_cases h2 : s.pn 1 0 10 = 2 ∧ x.frm.run = true
    · dsimp only
      rw [if_pos h2, htrig]
      exact ⟨rfl, rfl, (congrArg Frm.lsTrim hfrm).trans rfl, fun h1 => absurd (h1.symm.trans h2.1) (by decide)⟩
    · dsimp only
      rw [if_neg h2, htrig]
      exact ⟨rfl, rfl, (congrArg Frm.lsTrim hfrm).trans rfl, fun _ => ⟨(congrArg Frm.lsTarget hfrm).trans rfl, (congrArg Frm.lslock hfrm).trans rfl⟩⟩
  · rcases h with h | h | h
    · exact .inl h
    · exact .inr (.inl h)
    · refine .inr (.inr ?_)
      have : ¬s.lsinPol rise = true := fun hl => by
        have := (hpol s rise).mp hl
        by_cases hz : s.pn 1 0 11 = 0
        · exact (h.mp (this.mpr hz)) hz
        · exact hz (this.mp (h.mpr hz))
      simp [this]
  · have hex : exec .lsyncInLoss s = .next (let x := s.goto (e + 4 * s.per + usT 1)
        { x with frm := { x.frm with lsEdge := none, lslock := false, lsMiss := 4, ovr := x.frm.ovr ||| 16,
                                     lsTarget := x.frm.lsTrim } }.raiseDev evLsyncLost []) := by
      change execLsyncInLoss s = _
      unfold execLsyncInLoss
      rw [he]
      exact congrArg Host.Outcome.next (if_neg (by simp [hr, hm]))
    have hfrm : ∀ x : State, (x.raiseDev evLsyncLost []).frm = x.frm := fun x => (State.raiseDev_only x _ _).out .frm rfl
    refine ⟨_, hex, ?_⟩
    dsimp only
    rw [hfrm, State.goto_frm]
    refine ⟨rfl, rfl, rfl, rfl, rfl, ?_⟩
    exact State.raiseDev_hasEvent _ _ _

/-- Settles O10: the tick's view of the frame block, and the edges of LSYNC_IN. -/
theorem framesBeginAndLsyncIsHeard : Obligations.FramesBeginAndLsyncIsHeard :=
  ⟨frameTickBeginsTheFrame, lsyncInIsStampedAndWatched⟩

end Sys2Proof.Machine
end

section
namespace Sys2Proof.Machine
open Host

/-! ### Events and process images -/

theorem ringBytes_ne_nil (e : EvEntry) (q : Nat) : ringBytes e q ≠ [] := fun h => by
  have := congrArg List.length h
  simp only [ringBytes, List.length_append, length_leBytes, List.length_nil] at this
  omega

/-- The oldest entry in the ring: what the write leaves of the event block before any interrupt. -/
def Evt.ringWritten (e : Evt) (x : EvEntry) (r : List EvEntry) : Evt :=
  { e with queue := r, ring := tset [] e.wrptr (ringBytes x (e.seqAt 0)) e.ring, wrptr := (e.wrptr + 1) % 4096
           wraps := if e.wrptr = 4095 then (e.wraps + 1) % 2 ^ 20 else e.wraps }

theorem eventsGoIntoTheRing : EventsGoIntoTheRing := by
  intro s e r hq
  have hex : exec .eventRingWrite s = .next (if 2 ≤ e.react then { s with evt := s.evt.ringWritten e r }.irq 0
      else { s with evt := s.evt.ringWritten e r }) := by
    change execEventRingWrite s = _
    unfold execEventRingWrite
    rw [hq]
    rfl
  have hring : tget [] (s.evt.ringWritten e r).ring s.evt.wrptr = ringBytes e (s.evt.seqAt 0) :=
    tget_tset_of_ne _ _ _ _ (ringBytes_ne_nil _ _)
  refine ⟨_, hex, ?_⟩
  by_cases h : 2 ≤ e.react
  · rw [if_pos h]
    obtain ⟨ms, hms⟩ := State.irq_evt { s with evt := s.evt.ringWritten e r } 0
    rw [hms]
    exact ⟨rfl, rfl, rfl, hring, fun _ => rfl⟩
  · rw [if_neg h]
    exact ⟨rfl, rfl, rfl, hring, fun hr => absurd hr h⟩

theorem outputImagesAreCommitted : OutputImagesAreCommitted := by
  refine ⟨fun s v hv hr => ?_, fun s v hv hr => ?_, fun s hr => ?_, fun s off v hr => ?_, fun s off v hr hd hwf hmem => ?_⟩
  · exact ⟨_, congrArg Host.Outcome.next ((if_neg (by simp [hv])).trans (if_neg (show ¬(!s.hostWrite.host.hrdy) = true by simpa using hr))),
      rfl, rfl, rfl, rfl⟩
  · exact ⟨_, congrArg Host.Outcome.next ((if_neg (by simp [hv])).trans (if_pos (show (!s.hostWrite.host.hrdy) = true by simpa using hr))),
      rfl, rfl, rfl⟩
  · exact ⟨_, congrArg Host.Outcome.next (if_neg (by simp [hr])), rfl, tget_tset_of_ne _ _ _ _⟩
  · exact ⟨_, congrArg Host.Outcome.next (if_pos (show (!s.hostWrite.host.hrdy) = true by simpa using hr)), rfl, rfl⟩
  · refine ⟨_, congrArg Host.Outcome.next ((if_neg (show ¬(!s.hostWrite.host.hrdy) = true by simpa using hr)).trans
      (if_neg (by simp [hd]))), ?_⟩
    have hread := mread_mwrite ramByte _ (off / 4 * 4) (leBytes 4 v.toNat) hmem
    rw [length_leBytes] at hread
    exact (congrArg (mread ramByte · (off / 4 * 4) 4) (tget_tset_same [] _ s.host.piHost 0 hwf)).trans hread

theorem inputImagesComplete : InputImagesComplete := by
  intro s b m r hp
  have hex : exec .inputImageComplete s = .next ({ s with host := { s.host with
      pin := tset [] b (s.imageCells (if s.frm.frame = m then s.feedNow else s.host.feed)
        (leNat (mread ramByte (tget [] s.host.pin b) 0 4) + 1)) s.host.pin,
      piWr := r, piLast := b, piFcnt := m.setWidth 16 } }.irq 2) := by
    change execInputImageComplete s = _
    unfold execInputImageComplete
    rw [hp]
  refine ⟨_, hex, ?_⟩
  generalize tset [] b (s.imageCells (if s.frm.frame = m then s.feedNow else s.host.feed)
    (leNat (mread ramByte (tget [] s.host.pin b) 0 4) + 1)) s.host.pin = cells
  obtain ⟨ms, hms⟩ := State.irq_evt { s with host := { s.host with
    pin := cells, piWr := r, piLast := b, piFcnt := m.setWidth 16 } } 2
  rw [(State.irq_only _ _).out .host rfl, hms]
  exact ⟨rfl, rfl, rfl, rfl⟩

/-- Settles O28: the ring, the output image and the input image. -/
theorem eventsAndImagesReachTheHost : Obligations.EventsAndImagesReachTheHost :=
  ⟨eventsGoIntoTheRing, outputImagesAreCommitted, inputImagesComplete⟩

end Sys2Proof.Machine
end

section
namespace Sys2Proof.Machine
open Host

/-! ### What a standby watches -/

/-- What the windows of a frame leave noted. -/
def Red.windowView (r : Red) : Bool × Nat × Nat × Byte := (r.hbClosed, r.hbRun, r.hbTotal, r.winDone)

theorem State.setTk_windowView (s : State) (n : Nat) : (s.setTk n).red.windowView = s.red.windowView := by
  unfold State.setTk
  refine State.read_ite (·.red.windowView) rfl ?_
  rw [(State.irq_only _ _).out .red rfl]
  rfl

theorem State.takeoverDecision_windowView (s : State) : s.takeoverDecision.red.windowView = s.red.windowView := by
  unfold State.takeoverDecision
  refine State.read_ite (·.red.windowView) ?_ ?_
  · rw [(State.raiseDev_only _ _ _).out .red rfl]
    rfl
  · rw [(State.connTxStart_only _).out .red rfl]
    rfl

/-- Judging the frame leaves what its windows noted. -/
theorem State.silentCheck_windowView (s : State) : s.silentCheck.red.windowView = s.red.windowView := by
  unfold State.silentCheck
  dsimp only
  refine State.read_ite (·.red.windowView) rfl (State.read_ite (·.red.windowView) ?_ (State.read_ite (·.red.windowView) ?_ ?_))
  · rw [State.setTk_windowView]
    rfl
  · refine State.read_ite (·.red.windowView) ?_ ?_
    · rw [State.takeoverDecision_windowView, State.setTk_windowView]
      rfl
    · rw [State.setTk_windowView, State.takeoverDecision_windowView, State.setTk_windowView]
      rfl
  · rw [State.setTk_windowView]
    rfl

/-- The choice at a window's close takes no time. -/
theorem State.decideCsm_now (s : State) (k : Nat) : (s.decideCsm k).frm.now = s.frm.now := by
  have hcorrect : ∀ (x : State) (e : Int), (x.correct k e).frm.now = x.frm.now := fun x e => by
    unfold State.correct
    exact State.read_ite (·.frm.now) rfl rfl
  have htake : ∀ (x : State) c, (x.takeCsm k c).frm.now = x.frm.now := fun x c => by
    unfold State.takeCsm
    exact hcorrect _ _
  have hlose : ∀ x : State, (x.loseSync k).frm = x.frm := fun x => (State.loseSync_only x k).out .frm rfl
  unfold State.decideCsm
  dsimp only
  refine State.read_ite (·.frm.now) rfl ?_
  split
  · rfl
  · exact State.read_ite (·.frm.now) (htake _ _) rfl
  · exact State.read_ite (·.frm.now) rfl rfl
  · exact htake _ _
  · exact htake _ _
  · rfl
  · exact State.read_ite (·.frm.now) rfl (congrArg Frm.now (hlose _))

theorem getLsbD_ofNat_two_pow (w k j : Nat) : (BitVec.ofNat w (2 ^ k)).getLsbD j = (decide (j < w) && decide (k = j)) := by
  rw [BitVec.getLsbD_ofNat, Nat.testBit_two_pow]

/-- Reporting the loss of the heartbeat and judging the frame leave what the windows noted. -/
theorem State.lossReported_keeps (y : State) (c : Prop) [Decidable c] :
    let x := (if c then { y with red := { y.red with lostRep := true } }.raiseDev evFirnLost [] else y).silentCheck
    x.frm = y.frm ∧ x.red.windowView = y.red.windowView := by
  intro x
  refine ⟨(State.silentCheck_keeps _).2.1.trans (State.read_ite State.frm ?_ rfl),
    (State.silentCheck_windowView _).trans (State.read_ite (·.red.windowView) ?_ rfl)⟩
  · rw [(State.raiseDev_only _ _ _).out .frm rfl]
  · rw [(State.raiseDev_only _ _ _).out .red rfl]
    rfl

theorem Red.of_windowView {r : Red} {c : Bool} {run total : Nat} {w : Byte} (h : r.windowView = (c, run, total, w)) :
    r.hbClosed = c ∧ r.hbRun = run ∧ r.hbTotal = total ∧ r.winDone = w := by
  simpa only [Red.windowView, Prod.mk.injEq] using h

/-- The heartbeat window of the frame has closed: what has come in it is noted. -/
def State.hbNoted (s : State) : State :=
  let x := s.goto (s.frm.t0 + s.per / 2)
  let miss := !x.red.hbHere
  let run := if miss then satAdd 16 x.red.hbRun 1 else 0
  let y := if miss then x.pulseX 0x58 else x
  { y with red := { x.red with
      hbClosed := true, hbRun := run, hbRunMax := max x.red.hbRunMax run, hbTotal := satAdd 16 x.red.hbTotal (b2n miss)
      firnOk := x.red.firnOk && !miss, lostRep := x.red.lostRep && miss } }

theorem State.hbNoted_now (s : State) : s.hbNoted.frm.now = max s.frm.now (s.frm.t0 + s.per / 2) := by
  unfold State.hbNoted
  refine (congrArg Frm.now (State.read_ite State.frm ?_ rfl)).trans (State.goto_now_max ..)
  rw [(State.pulseX_only _ _).out .frm rfl]

theorem State.hbNoted_windowView (s : State) : s.hbNoted.red.windowView = (true, (if s.red.hbHere then 0 else min (s.red.hbRun + 1) 65535),
    min (s.red.hbTotal + (if s.red.hbHere then 0 else 1)) 65535, s.red.winDone) := by
  have hred : (s.goto (s.frm.t0 + s.per / 2)).red = s.red := by simp
  unfold State.hbNoted Red.windowView
  dsimp only
  rw [hred]
  cases s.red.hbHere <;> rfl

theorem standbyWatchesItsHead : StandbyWatchesItsHead := by
  refine ⟨fun s f t hrole hrun hint hty hdir hf he ht => ?_, fun s hrole hrun hpair hcl => ?_, fun s b hfol hrun hk hwin => ?_⟩
  · have hgo : ¬(s.frm.role ≠ .standby ∨ !s.frm.run) := by simp [hrole, hrun]
    have hhere : ∀ x : State, x.frm = (s.goto (t + wireB f * s.tB)).frm → x.net = s.net →
        (intact f false && (frameHdr f).ty == 8 && !(frameHdr f).dir && beAt f 22 6 == x.frm.frame.toNat &&
        (frameHdr f).epoch == x.net.obeyEpoch.toNat && decide (x.frm.t0 ≤ t) && decide (x.frm.now ≤ x.frm.t0 + x.per / 2)) =
        decide (max s.frm.now (t + wireB f * s.tB) ≤ s.frm.t0 + s.per / 2) := by
      intro x hxf hxn
      have hnow : x.frm.now = max s.frm.now (t + wireB f * s.tB) := by rw [hxf, State.goto_now_max]
      have hper : x.per = s.per := by rw [State.per, hxf, State.goto_frm, State.per]
      have ht0 : x.frm.t0 = s.frm.t0 := by rw [hxf, State.goto_frm]
      have hframe : x.frm.frame = s.frm.frame := by rw [hxf, State.goto_frm]
      simp [hnow, hper, ht0, hframe, hxn, hint, hty, hdir, hf, he, ht]
    have hh := hhere (s.goto (t + wireB f * s.tB)) rfl (by simp)
    refine ⟨fun hin => ?_, fun hout => ?_⟩
    · refine ⟨_, congrArg Host.Outcome.next ((if_neg hgo).trans (if_pos ?_)), rfl, rfl, rfl⟩
      rw [hh]
      exact decide_eq_true hin
    · refine ⟨_, congrArg Host.Outcome.next ((if_neg hgo).trans (if_neg ?_)), by simp⟩
      rw [hh, decide_eq_true_eq]
      omega
  · have hgo : ¬(s.frm.role ≠ .standby ∨ !s.frm.run ∨ !s.paired ∨ s.red.hbClosed) := by simp [hrole, hrun, hpair, hcl]
    have hex : exec .heartbeatWindowClose s = .next (if 2 ≤ s.hbNoted.red.hbRun ∧ s.hbNoted.red.winCsm ∧ !s.hbNoted.red.lostRep then
        { s.hbNoted with red := { s.hbNoted.red with lostRep := true } }.raiseDev evFirnLost [] else s.hbNoted).silentCheck :=
      congrArg Host.Outcome.next (if_neg hgo)
    obtain ⟨hfrm, hview⟩ := State.lossReported_keeps s.hbNoted (2 ≤ s.hbNoted.red.hbRun ∧ s.hbNoted.red.winCsm ∧ !s.hbNoted.red.lostRep)
    obtain ⟨hclosed, hrun', htotal, -⟩ := Red.of_windowView (hview.trans s.hbNoted_windowView)
    exact ⟨_, hex, (congrArg Frm.now hfrm).trans s.hbNoted_now, hclosed, hrun', htotal⟩
  · have hgo : ¬(!s.follows ∨ !s.frm.run ∨ s.red.winDone.getLsbD (s.joinKey b)) := by simp [hfol, hrun, hwin]
    refine ⟨_, congrArg Host.Outcome.next (if_neg hgo), ?_, ?_⟩
    · rw [(State.silentCheck_keeps _).2.1]
      exact (State.decideCsm_now _ _).trans (State.goto_now_max ..)
    · rw [(Red.of_windowView (State.silentCheck_windowView _)).2.2.2, BitVec.getLsbD_or, getLsbD_ofNat_two_pow]
      simp [hk]

/-! ### What a standby tests -/

/-- Setting or clearing a bit leaves every other. -/
theorem getLsbD_bitFollows {w : Nat} (x : BitVec w) {k : Nat} (hk : k < w) (bad : Bool) (j : Nat) :
    (if bad = true then x ||| BitVec.ofNat w (2 ^ k) else x &&& ~~~BitVec.ofNat w (2 ^ k)).getLsbD j =
      if j = k then bad else x.getLsbD j := by
  cases bad
  · rw [if_neg Bool.false_ne_true, BitVec.getLsbD_and, BitVec.getLsbD_not, getLsbD_ofNat_two_pow]
    by_cases hj : j < w
    · by_cases hjk : k = j <;> simp [hj, hjk, eq_comm (a := j)]
    · rw [BitVec.getLsbD_of_ge _ _ (by omega), Bool.false_and, if_neg (by omega)]
  · rw [if_pos rfl, BitVec.getLsbD_or, getLsbD_ofNat_two_pow]
    by_cases hjk : k = j
    · subst hjk
      simp [hk]
    · simp [hjk, eq_comm (a := j)]

/-- A test's bit is its result, and every other bit of the tests' word stays. -/
theorem State.healthBit_getLsbD (s : State) {k : Nat} (hk : k < 32) (bad : Bool) (j : Nat) :
    (s.healthBit k bad).red.health.getLsbD j = if j = k then bad else s.red.health.getLsbD j :=
  getLsbD_bitFollows _ hk bad j

/-- The bits of the health word that are not a test's own: none of them stands at bit 0, 1 or 3, and bit 8 is the fifth. -/
theorem healthWord_bits : ∀ a b c d e f g : Bool,
    let w := wordOf [(b2n a, 2), (b2n b, 4), (b2n c, 5), (b2n d, 6), (b2n e, 8), (b2n f, 10), (b2n g, 11)]
    w.getLsbD 0 = false ∧ w.getLsbD 1 = false ∧ w.getLsbD 3 = false ∧ w.getLsbD 8 = e := by
  decide

theorem State.health_getLsbD (s : State) : s.health.getLsbD 0 = s.red.health.getLsbD 0 ∧ s.health.getLsbD 1 = s.red.health.getLsbD 1 ∧
    s.health.getLsbD 3 = s.red.health.getLsbD 3 ∧ (s.red.loopFail ≠ 0 → s.health.getLsbD 8 = true) := by
  unfold State.health
  obtain ⟨h0, h1, h3, h8⟩ := healthWord_bits s.red.newest.isNone s.configDiffers (s.saf.a.bad || s.saf.b.bad) (decide (2 ≤ s.pwr.stage))
    (s.red.loopFail != 0) s.imageOld (s.onBranches.any fun b => (s.join b).st != .sync)
  simp only [BitVec.getLsbD_or, BitVec.getLsbD_and, h0, h1, h3, h8]
  refine ⟨by simp, by simp, by simp, fun h => by simp only [bne_iff_ne.mpr h, Bool.or_true]⟩

/-- A port's bit of the loopback results is its test's, and every other port's stays. -/
theorem State.loopFail_bit (s : State) (b : Fin 8) (ok : Bool) (c : Nat) :
    (if ok then s.red.loopFail &&& ~~~BitVec.ofNat 8 (2 ^ b.val) else s.red.loopFail ||| BitVec.ofNat 8 (2 ^ b.val) : Byte).getLsbD c =
      if c = b.val then !ok else s.red.loopFail.getLsbD c := by
  cases ok
  · exact getLsbD_bitFollows s.red.loopFail b.isLt true c
  · exact getLsbD_bitFollows s.red.loopFail b.isLt false c

theorem standbysTestThemselves : StandbysTestThemselves := by
  intro s hrole
  refine ⟨fun p => ⟨_, congrArg Host.Outcome.next (if_pos hrole), ?_, fun k hk => ?_⟩,
    fun ok => ⟨_, congrArg Host.Outcome.next (if_pos hrole), ?_, fun k hk => ?_⟩,
    fun b ok => ⟨_, congrArg Host.Outcome.next (if_pos hrole), ?_, fun hok => ?_, fun c hc => ?_⟩, fun im him => ?_⟩
  · rw [(State.health_getLsbD _).1, State.healthBit_getLsbD _ (by decide), if_pos rfl, bne_iff_ne]
  · rw [State.healthBit_getLsbD _ (by decide), if_neg hk]
  · rw [(State.health_getLsbD _).2.1, State.healthBit_getLsbD _ (by decide), if_pos rfl]
  · rw [State.healthBit_getLsbD _ (by decide), if_neg hk]
  · exact (State.loopFail_bit s b ok b).trans (if_pos rfl)
  · refine (State.health_getLsbD _).2.2.2 fun hz => ?_
    have hbit := (State.loopFail_bit s b ok b).trans (if_pos rfl)
    have hzero := (congrArg (BitVec.getLsbD · b.val) hz).symm.trans hbit
    simp [hok] at hzero
  · exact (State.loopFail_bit s b ok c).trans (if_neg fun h => hc (Fin.ext h))
  · have hex : exec .shadowComputation s = .next (let ok := s.red.shRec.all fun x => s.shadowAgrees im x.1 x.2
        let y := s.healthBit 3 (!ok)
        { y with red := { y.red with shRuns := satAdd 16 y.red.shRuns 1, shFails := satAdd 16 y.red.shFails (b2n (!ok)),
                                     shRec := [], shImg := none } }) := by
      change execShadowComputation s = _
      unfold execShadowComputation
      rw [him]
      exact congrArg Host.Outcome.next (if_neg (by simp [hrole]))
    refine ⟨_, hex, rfl, rfl, ?_⟩
    rw [(State.health_getLsbD _).2.2.1]
    dsimp only
    rw [State.healthBit_getLsbD _ (by decide), if_pos rfl, Bool.not_eq_true']

/-- Settles O37: what the windows note, and what the tests set. -/
theorem standbysWatchAndTest : Obligations.StandbysWatchAndTest := ⟨standbyWatchesItsHead, standbysTestThemselves⟩

end Sys2Proof.Machine
end

section
namespace Sys2Proof.Machine
open Host

/-! ### A head that gives way -/

theorem State.pn_congr {s t : State} (hcams : t.cams = s.cams) (hsaf : t.saf = s.saf) (hparams : t.params = s.params) : t.pn = s.pn := by
  funext c i n
  simp only [State.pn, State.par_congr hcams hsaf hparams]

/-- A part that leaves the head role is in the standby role, its tick stopped and its field outputs ordered safe. -/
theorem State.leaveHead_yields {s : State} (h : s.frm.role = .head) : s.leaveHead.frm.role = .standby ∧ s.leaveHead.frm.run = false ∧
    s.leaveHead.fio.order = true ∧ s.leaveHead.fio.hold = true ∧ s.leaveHead.net.cs = .yielded ∧
    s.leaveHead.net.muteTo = s.net.muteTo := by
  have hmute : ∀ x : State, x.discardHead.net.muteTo = x.net.muteTo := fun _ => rfl
  unfold State.leaveHead
  generalize hx : (s.stopKernels.capRoleEnd).closeLedgers [1, 2, 4, 5] 4 = x
  have hfrm : x.frm = s.frm := by
    rw [← hx, (State.closeLedgers_only _ _ _).out .frm rfl, (State.capRoleEnd_only _).out .frm rfl, (State.stopKernels_only _).out .frm rfl]
  have hnet : x.net = s.net := by
    rw [← hx, (State.closeLedgers_only _ _ _).out .net rfl, (State.capRoleEnd_only _).out .net rfl, (State.stopKernels_only _).out .net rfl]
  have hy : ((x.discardHead.openLedger 4).openLedger 5).frm = s.frm := by
    rw [(State.openLedger_only _ _).out .frm rfl, (State.openLedger_only _ _).out .frm rfl, (State.discardHead_only _).out .frm rfl, hfrm]
  have hm : ((x.discardHead.openLedger 4).openLedger 5).net.muteTo = s.net.muteTo := by
    rw [(State.openLedger_only _ _).out .net rfl, (State.openLedger_only _ _).out .net rfl, hmute, hnet]
  dsimp only
  generalize hz : State.roleChange _ = z
  have hzf : z.frm = s.frm := by rw [← hz, (State.roleChange_only _).out .frm rfl, ← hy]
  have hzn : z.net.cs = .yielded ∧ z.net.muteTo = s.net.muteTo := by
    rw [← hz, (State.roleChange_only _).out .net rfl]
    exact ⟨rfl, hm⟩
  have hzo : z.fio.order = true ∧ z.fio.hold = true := by
    rw [← hz, (State.roleChange_only _).out .fio rfl]
    exact ⟨rfl, rfl⟩
  have hfio : z.standbyRole.fio = z.fio := (State.standbyRole_only z).out .fio rfl
  have hnetz : (z.setRole .standby).net = z.net := (State.setRole_only z _).out .net rfl
  obtain ⟨hrole, hrun, -⟩ := State.standbyRole_frm (s := z) (by rw [hzf]; exact h)
  refine ⟨hrole, hrun, ?_, ?_, ?_, ?_⟩
  · rw [hfio]; exact hzo.1
  · rw [hfio]; exact hzo.2
  · exact (congrArg Net.cs hnetz).trans hzn.1
  · exact (congrArg Net.muteTo hnetz).trans hzn.2

/-- A reception moves device time on and changes nothing else of the frame block. -/
theorem State.rxFrame_frm (s : State) (b t : Nat) (f : List Byte) (err : Bool) :
    (s.rxFrame b t f err).frm = (s.goto (t + wireB f * s.tB)).frm := by
  have hbw : ∀ (x : State) d n, (x.bwFrame b d n).frm = x.frm := fun x d n => (State.bwFrame_only x b d n).out .frm rfl
  have hbw' : ∀ (x : State) c d n, (x.bwFrame c d n).frm = x.frm := fun x c d n => (State.bwFrame_only x c d n).out .frm rfl
  have hrelay : ∀ x : State, (x.relay b t f).frm = x.frm := fun x => by
    unfold State.relay
    exact State.read_ite State.frm rfl (hbw' _ _ _ _)
  unfold State.rxFrame
  refine (hrelay _).trans (State.read_ite State.frm ?_ (hbw _ _ _))
  exact hbw _ _ _

/-- What a head does that met a higher EPOCH: mute up to the next T0, it leaves the role. -/
def State.epochMet (y : State) : State :=
  ({ y with net := { y.net with muteTo := y.nextT0 } }.raiseDev evEpochSeen []).leaveHead

theorem State.epochMet_yields {y : State} (h : y.frm.role = .head) : y.epochMet.frm.role = .standby ∧ y.epochMet.net.cs = .yielded ∧
    y.epochMet.frm.run = false ∧ y.epochMet.fio.order = true ∧ y.epochMet.net.muteTo = y.nextT0 := by
  unfold State.epochMet
  generalize hz : State.raiseDev _ evEpochSeen [] = z
  have hfrm : z.frm.role = .head := by
    rw [← hz, (State.raiseDev_only _ _ _).out .frm rfl]
    exact h
  have hnet : z.net.muteTo = y.nextT0 := by rw [← hz, (State.raiseDev_only _ _ _).out .net rfl]
  obtain ⟨hrole, hrun, ho, -, hcs, hm⟩ := State.leaveHead_yields hfrm
  exact ⟨hrole, hcs, hrun, ho, hm.trans hnet⟩

theorem headsGiveWay : HeadsGiveWay := by
  refine ⟨fun s b f t err hr hp hc hm => ?_, fun s hh hy hf => ?_, fun s hh hy ht => ?_⟩
  · have h1 : ¬(b.val = 0 ∧ s.monitors ∧ isCsm f) := fun ⟨hb, hmon, _⟩ => hm.elim (fun h => by rw [h] at hmon; exact nomatch hmon)
      (fun h => h (Fin.ext hb))
    have h2 : ¬(s.frm.role ≠ .head ∨ s.pn 3 b 0 ≠ 1 ∨ !isCsm f) := by simp [hr, hp, hc]
    have hfrm := State.rxFrame_frm s b t f err
    rw [State.goto_frm] at hfrm
    obtain ⟨ports, rep, hnet⟩ := State.rxFrame_net s b t f err
    intro c
    have htB : (s.rxFrame b t f err).tB = s.tB := by
      have hpn : (s.rxFrame b t f err).pn = s.pn := State.pn_congr ((State.rxFrame_only s b t f err).out .cams rfl)
        ((State.rxFrame_only s b t f err).out .saf rfl) ((State.rxFrame_only s b t f err).out .params rfl)
      unfold State.tB
      rw [hpn]
    have hown : c.headId = Config.headId → exec (.foreignCsm b f ⟨t, err⟩) s = .next
        ({ s.rxFrame b t f err with net := { (s.rxFrame b t f err).net with ownSeen := true } }.raiseOnce evOwnCsm b allGroups []) :=
      fun hid => congrArg Host.Outcome.next ((if_neg h1).trans ((if_neg h2).trans (if_pos (htB ▸ hid))))
    have hother : c.headId ≠ Config.headId → s.net.cs = .head → exec (.foreignCsm b f ⟨t, err⟩) s = .next
        (let y := (s.rxFrame b t f err).seeCsm b c.headId
        if epochAbove c.epoch y.net.epoch && y.csmWellFormed b f && !err then
          y.epochMet
        else y) := fun hid hcs => by
      have hcs' : ((s.rxFrame b t f err).seeCsm b c.headId).net.cs = .head := by
        change (s.rxFrame b t f err).net.cs = _
        rw [hnet]
        exact hcs
      refine congrArg Host.Outcome.next ((if_neg h1).trans ((if_neg h2).trans ((if_neg (by rw [htB]; exact hid)).trans ?_)))
      dsimp only
      rw [htB]
      change (match (State.seeCsm (s.rxFrame b t f err) b c.headId).net.cs with
        | .listening => _ | .silent => _ | .early => _ | .head => _ | _ => _ : State) = _
      generalize (s.rxFrame b t f err).seeCsm b c.headId = y at hcs' ⊢
      rw [hcs']
      dsimp only [State.epochMet, c]
      rw [hcs']
    clear htB
    generalize s.rxFrame b t f err = x at hfrm hnet hown hother
    obtain ⟨hxcs, hxepoch, hxhash⟩ : x.net.cs = s.net.cs ∧ x.net.epoch = s.net.epoch ∧ x.net.hash = s.net.hash := by
      rw [hnet]
      exact ⟨rfl, rfl, rfl⟩
    have hrole : x.frm.role = .head := by rw [hfrm]; exact hr
    refine ⟨fun hid => ⟨_, hown hid, ?_⟩, fun hid hcs hep hwf he => ?_, fun hid hcs hep => ?_⟩
    · rw [(State.raiseOnce_only _ _ _ _ _).out .net rfl, (State.raiseOnce_only _ _ _ _ _).out .frm rfl]
      exact ⟨rfl, hrole, hxcs⟩
    · have hgo : (epochAbove c.epoch (x.seeCsm b c.headId).net.epoch && (x.seeCsm b c.headId).csmWellFormed b f && !err) = true := by
        have hepoch : (x.seeCsm b c.headId).net.epoch = s.net.epoch := hxepoch
        have hform : (x.seeCsm b c.headId).csmWellFormed b f = s.csmWellFormed b f := by
          have hhash : (x.seeCsm b c.headId).net.hash = s.net.hash := hxhash
          rw [State.csmWellFormed, hhash, State.csmWellFormed]
        rw [hepoch, hform, hep, hwf, he]
        rfl
      have hnext : (x.seeCsm b c.headId).nextT0 = s.nextT0 := by
        change x.frm.t0 + nsT x.frm.period = _
        rw [hfrm]
        rfl
      refine ⟨_, (hother hid hcs).trans (congrArg Host.Outcome.next (if_pos hgo)), ?_⟩
      obtain ⟨hrole', hcs', hrun, ho, hm'⟩ := State.epochMet_yields (y := x.seeCsm b c.headId) hrole
      exact ⟨hrole', hcs', hrun, ho, hm'.trans hnext⟩
    · have hgo : ¬(epochAbove c.epoch (x.seeCsm b c.headId).net.epoch && (x.seeCsm b c.headId).csmWellFormed b f && !err) = true := by
        have hepoch : (x.seeCsm b c.headId).net.epoch = s.net.epoch := hxepoch
        rw [hepoch, hep]
        exact Bool.false_ne_true
      exact ⟨_, (hother hid hcs).trans (congrArg Host.Outcome.next (if_neg hgo)), hrole, hxcs.trans hcs, rfl⟩
  · exact ⟨_, congrArg Host.Outcome.next (if_pos ⟨hh, hy, hf⟩), by
      obtain ⟨hrole, hrun, ho, hhold, -⟩ := State.leaveHead_yields (s := s) (by simp [State.isHead] at hh; exact hh.1)
      exact ⟨hrole, hrun, ho, hhold⟩⟩
  · refine ⟨_, congrArg Host.Outcome.next (if_pos ⟨hh, hy, ht⟩), ?_, ?_, State.raiseDev_hasEvent _ _ _⟩
    · rw [(State.raiseDev_only _ _ _).out .red rfl]
    · rw [(State.raiseDev_only _ _ _).out .red rfl]

/-! ### What a return tells -/

/-- What a head notes of an intact return. -/
def State.returnNoted (s : State) (f : List Byte) (t : Nat) : State :=
  let x := s.goto (t + wireB f * s.tB)
  { x with red := { x.red with
      peerOn := true, peerHealth := BitVec.ofNat 32 (beAt f 32 4), peerSeq := BitVec.ofNat 32 (beAt f 28 4),
      peerFc := BitVec.ofNat 48 (beAt f 36 6), retFrame := x.frm.frame, firnOk := true, lostRep := false,
      fit := BitVec.ofNat 32 (beAt f 32 4) == 0, baseMiss := satAdd 8 x.red.baseMiss (b2n (beAt f 26 1 == 2)) } }

/-- The answer to a final image moves the yield alone. -/
theorem State.yieldAnswer_keeps (s : State) (seq : W32) (res : Nat) : (s.yieldAnswer seq res).red.fit = s.red.fit ∧
    (s.yieldAnswer seq res).red.peerOn = s.red.peerOn ∧ (s.yieldAnswer seq res).red.retFrame = s.red.retFrame ∧
    (s.yieldAnswer seq res).red.lostRep = s.red.lostRep := by
  unfold State.yieldAnswer
  dsimp only
  split
  · exact ⟨rfl, rfl, rfl, rfl⟩
  split
  · exact ⟨rfl, rfl, rfl, rfl⟩
  split
  · exact ⟨rfl, rfl, rfl, rfl⟩
  · exact ⟨rfl, rfl, rfl, rfl⟩

theorem returnsTellFitness : ReturnsTellFitness := by
  refine ⟨fun s f t hh hp hi hty hdir => ?_, fun s hh hp hl hf => ?_⟩
  · have hgo : ¬(!s.isHead ∨ !s.paired) := by simp [hh, hp]
    have hin : ¬(!(intact f false && (frameHdr f).ty == 0xB && (frameHdr f).dir)) = true := by simp [hi, hty, hdir]
    have hex : exec (.returnReceived f t) s = .next ((if s.red.fit = true ∧ (!(BitVec.ofNat 32 (beAt f 32 4) == (0 : W32))) = true then
        (s.returnNoted f t).raiseDev evStandbyUnfit [] else s.returnNoted f t).yieldAnswer (BitVec.ofNat 32 (beAt f 22 4)) (beAt f 26 1)) := by
      have hred : (s.goto (t + wireB f * s.tB)).red.fit = s.red.fit := by simp
      rw [← hred]
      exact congrArg Host.Outcome.next ((if_neg hgo).trans (if_neg hin))
    have hnoted : (s.returnNoted f t).red.ystate = s.red.ystate ∧ (s.returnNoted f t).red.yTries = s.red.yTries ∧
        (s.returnNoted f t).red.seq = s.red.seq ∧ (s.returnNoted f t).frm.frame = s.frm.frame ∧
        (s.returnNoted f t).red.retFrame = s.frm.frame ∧ (s.returnNoted f t).pn = s.pn ∧
        (s.returnNoted f t).red.fit = decide (beAt f 32 4 % 2 ^ 32 = 0) ∧ (s.returnNoted f t).red.peerOn = true ∧
        (s.returnNoted f t).red.lostRep = false := by
      have hred : (s.goto (t + wireB f * s.tB)).red = s.red := by simp
      refine ⟨(congrArg Red.ystate hred).trans rfl, (congrArg Red.yTries hred).trans rfl, (congrArg Red.seq hred).trans rfl, ?_, ?_, ?_, ?_, rfl, rfl⟩
      · exact (congrArg Frm.frame (State.goto_frm s _)).trans rfl
      · exact (congrArg Frm.frame (State.goto_frm s _)).trans rfl
      · funext c i n
        exact State.goto_pn ..
      · change (BitVec.ofNat 32 (beAt f 32 4) == (0 : W32)) = _
        rw [Bool.eq_iff_iff, beq_iff_eq, decide_eq_true_eq, ← BitVec.toNat_inj, BitVec.toNat_ofNat]
        rfl
    generalize s.returnNoted f t = x at hnoted hex
    obtain ⟨hys, htries, hseq, hframe, hret, hpn, hfit, hon, hrep⟩ := hnoted
    generalize hy : (if s.red.fit = true ∧ (!(BitVec.ofNat 32 (beAt f 32 4) == (0 : W32))) = true then
        x.raiseDev evStandbyUnfit [] else x) = y at hex
    have hyred : y.red = x.red := by
      rw [← hy]
      exact State.read_ite State.red ((State.raiseDev_only _ _ _).out .red rfl) rfl
    obtain ⟨hyfrm, hypn⟩ : y.frm = x.frm ∧ y.pn = x.pn := by
      rw [← hy]
      refine ⟨State.read_ite State.frm ((State.raiseDev_only _ _ _).out .frm rfl) rfl, ?_⟩
      exact State.read_ite State.pn (State.pn_congr ((State.raiseDev_only _ _ _).out .cams rfl) ((State.raiseDev_only _ _ _).out .saf rfl)
        ((State.raiseDev_only _ _ _).out .params rfl)) rfl
    obtain ⟨hafit, haon, haret, harep⟩ := State.yieldAnswer_keeps y (BitVec.ofNat 32 (beAt f 22 4)) (beAt f 26 1)
    refine ⟨_, hex, ?_, ?_, ?_, ?_, fun hwas hbad => ?_, fun hst htr hsq hok => ?_⟩
    · rw [hafit, hyred, hfit]
    · rw [haon, hyred, hon]
    · rw [haret, hyred, hret]
    · rw [harep, hyred, hrep]
    · refine (State.hasEvent_congr ((State.yieldAnswer_only _ _ _).out .evt rfl) _ _).mpr ?_
      have hraised : s.red.fit = true ∧ (!(BitVec.ofNat 32 (beAt f 32 4) == (0 : W32))) = true := by
        refine ⟨hwas, ?_⟩
        rw [Bool.not_eq_true', beq_eq_false_iff_ne]
        intro hz
        exact hbad (by have := congrArg BitVec.toNat hz; rwa [BitVec.toNat_ofNat] at this)
      rw [← hy, if_pos hraised]
      exact State.raiseDev_hasEvent _ _ _
    · have hno : ¬(y.red.ystate ≠ 1 ∨ y.red.yTries = 0 ∨ BitVec.ofNat 32 (beAt f 22 4) ≠ y.red.seq) := by
        rw [hyred, hys, htries, hseq]
        simp [hst, htr, hsq]
      unfold State.yieldAnswer
      dsimp only
      rw [if_neg hno, if_pos hok]
      refine ⟨rfl, ?_⟩
      dsimp only
      rw [hyfrm, hframe, hypn, hpn]
  · have hraise : ∀ (x : State) code, (x.raiseDev code []).red = x.red := fun x code => (State.raiseDev_only x code []).out .red rfl
    refine ⟨_, congrArg Host.Outcome.next (if_neg (by simp [hh, hp, hl]; omega)), ?_, ?_, State.raiseDev_hasEvent _ _ _⟩
    · rw [hraise]
      exact congrArg Red.fit (State.read_ite State.red (hraise _ _) rfl)
    · rw [hraise]
      exact congrArg Red.lostRep (State.read_ite State.red (hraise _ _) rfl)

/-- Settles O40: the returns, the foreign CSMs and the yield. -/
theorem headsKnowTheirStandby : Obligations.HeadsKnowTheirStandby := ⟨returnsTellFitness, headsGiveWay⟩

end Sys2Proof.Machine
end

section
namespace Sys2Proof.Machine
open Host

/-! ### A standby that becomes the head -/

/-- The coldstart state and the epoch: what sending leaves of the network part. -/
def Net.headView (n : Net) : CsState × W16 := (n.cs, n.epoch)

theorem State.sendCsm_headView (s : State) (b : Nat) : (s.sendCsm b).net.headView = s.net.headView := by
  have hnodes : ∀ (l : List Nat) (f : State → Nat → Node) (x : State),
      (l.foldl (fun s p => s.setNode b p (f s p)) x).net.headView = x.net.headView := by
    intro l f
    induction l with
    | nil => exact fun _ => rfl
    | cons p l ih => exact fun x => (ih _).trans rfl
  unfold State.sendCsm
  rw [(State.bwFrame_only _ _ _ _).out .net rfl, (State.pulseX_only _ _).out .net rfl]
  exact (hnodes _ _ _).trans rfl

/-- What a new head notes of itself; sending leaves it. -/
def Red.headView (r : Red) : Bool × W48 × Bool × W32 × W48 × Nat := (r.restartOn, r.restart, r.decided, r.seq, r.tkFc, r.ystate)

/-- A part that is the head sends as one from then on. -/
theorem State.headSends_views {s : State} (h : s.net.cs = .head) : s.headSends.net.headView = s.net.headView ∧
    s.headSends.red.headView = s.red.headView := by
  have hsend : ∀ (l : List Nat) (x : State), (l.foldl (fun s b => s.sendCsm b) x).net.headView = x.net.headView ∧
      (l.foldl (fun s b => s.sendCsm b) x).red = x.red := by
    intro l
    induction l with
    | nil => exact fun _ => ⟨rfl, rfl⟩
    | cons b l ih => exact fun x => ⟨(ih _).1.trans (State.sendCsm_headView x b), (ih _).2.trans ((State.sendCsm_only x b).out .red rfl)⟩
  unfold State.headSends
  dsimp only
  generalize hx : List.foldl _ _ _ = x
  have hxv : x.net.headView = s.net.headView ∧ x.red = s.red := by
    rw [← hx]
    exact hsend _ _
  have hcs : x.net.cs = .head := (congrArg Prod.fst hxv.1).trans h
  generalize hk : (if x.net.cs = .early ∧ 4 ≤ x.frm.frame.toNat then CsState.head else x.net.cs) = k
  have hkx : k = x.net.cs := by
    rw [← hk]
    exact if_neg (by rw [hcs]; simp)
  subst hkx
  refine ⟨State.read_ite (·.net.headView) hxv.1 hxv.1, State.read_ite (·.red.headView) ?_ ?_⟩
  · exact (congrArg Red.headView hxv.2).trans rfl
  · exact (congrArg Red.headView hxv.2).trans rfl

/-- What a new head is: in the role, in the cycle's own epoch, its restart to come. -/
theorem State.becomeHead_begins (s : State) (restart : W48) : (s.becomeHead restart).frm.role = .head ∧
    (s.becomeHead restart).net.headView = (.head, s.net.obeyEpoch + 1) ∧
    (s.becomeHead restart).red.headView = (true, restart, false, s.newestSeq, s.frm.frame, 0) := by
  have hrole : (s.setRole .head).frm.role = .head ∧ (s.setRole .head).frm.frame = s.frm.frame := by
    unfold State.setRole
    split
    case isTrue h => exact ⟨h, rfl⟩
    case isFalse => rw [(State.irq_only _ _).out .frm rfl]; exact ⟨rfl, rfl⟩
  have hred : (s.setRole .head).red = s.red := (State.setRole_only _ _).out .red rfl
  have hnet : (s.setRole .head).net = s.net := (State.setRole_only _ _).out .net rfl
  have hcycle : ∀ x : State, x.cycleOn.net.headView = x.net.headView := fun x => by
    have hb : ∀ (l : List Nat) (y : State), (l.foldl (fun s b => s.setBranch b { s.branch b with inCycle := true }) y).net.headView =
        y.net.headView := by
      intro l
      induction l with
      | nil => exact fun _ => rfl
      | cons b l ih => exact fun y => (ih _).trans rfl
    unfold State.cycleOn
    exact hb x.onBranches x
  have hset : ∀ x : State, (x.setTk 3).red.headView = x.red.headView := fun x => by
    unfold State.setTk
    refine State.read_ite (·.red.headView) rfl ?_
    rw [(State.irq_only _ _).out .red rfl]
    rfl
  unfold State.becomeHead
  dsimp only
  generalize hx : State.cycleOn _ = x
  have hxf : x.frm.role = .head := by rw [← hx, (State.cycleOn_only _).out .frm rfl]; exact hrole.1
  have hxn : x.net.headView = (.head, s.net.obeyEpoch + 1) := by rw [← hx, hcycle, ← hnet]; rfl
  have hxr : x.red.headView = (true, restart, false, s.newestSeq, s.frm.frame, 0) := by
    rw [← hx, (State.cycleOn_only _).out .red rfl, ← hrole.2]
    simp only [Red.headView, State.newestSeq, hred]
  generalize hy : ((x.openLedger 1).openLedger 2).connRxStart = y
  have hyf : y.frm = x.frm := by
    rw [← hy, (State.connRxStart_only _).out .frm rfl, (State.openLedger_only _ _).out .frm rfl, (State.openLedger_only _ _).out .frm rfl]
  have hyn : y.net = x.net := by
    rw [← hy, (State.connRxStart_only _).out .net rfl, (State.openLedger_only _ _).out .net rfl, (State.openLedger_only _ _).out .net rfl]
  have hyr : y.red = x.red := by
    rw [← hy, (State.connRxStart_only _).out .red rfl, (State.openLedger_only _ _).out .red rfl, (State.openLedger_only _ _).out .red rfl]
  have hcs : y.net.cs = .head := by rw [hyn]; exact congrArg Prod.fst hxn
  obtain ⟨hsn, hsr⟩ := State.headSends_views hcs
  refine ⟨?_, ?_, ?_⟩
  · rw [(State.setTk_only _ _).out .frm rfl, (State.headSends_only _).out .frm rfl, hyf, hxf]
  · rw [(State.setTk_only _ _).out .net rfl, hsn, hyn, hxn]
  · rw [hset, hsr, hyr, hxr]

theorem standbysBecomeHeadInTime : StandbysBecomeHeadInTime := by
  have hraise : ∀ (x : State) code, (x.raiseDev code []).frm = x.frm ∧ (x.raiseDev code []).net = x.net ∧
      (x.raiseDev code []).red = x.red := fun x code =>
    ⟨(State.raiseDev_only x code []).out .frm rfl, (State.raiseDev_only x code []).out .net rfl, (State.raiseDev_only x code []).out .red rfl⟩
  refine ⟨fun s hr hd hf => ?_, fun s hr hrun hy hf => ?_⟩
  · obtain ⟨hrole, hnet, hred⟩ := State.becomeHead_begins s s.red.restart
    simp only [Net.headView, Red.headView, Prod.mk.injEq] at hnet hred
    obtain ⟨hcs, hep⟩ := hnet
    obtain ⟨hon, hre, hdec, hseq, htk, -⟩ := hred
    refine ⟨_, congrArg Host.Outcome.next (if_pos ⟨hr, hd, hf⟩), ?_⟩
    obtain ⟨h1, h2, h3⟩ := hraise (s.becomeHead s.red.restart) evTakeover
    rw [h1, h2, h3]
    exact ⟨hrole, hcs, hep, hon, hre, hdec, hseq, htk, State.raiseDev_hasEvent _ _ _⟩
  · generalize hx : State.connTxStart { s with red := { s.red with gapFrom := s.frm.frame } } = x
    have hxf : x.frm = s.frm := by rw [← hx, (State.connTxStart_only _).out .frm rfl]
    have hxn : x.net = s.net := by rw [← hx, (State.connTxStart_only _).out .net rfl]
    have hex : exec .handoverStart s = .next ((x.becomeHead (x.frm.frame + 2)).raiseDev evHandover []) := by
      rw [← hx]
      exact congrArg Host.Outcome.next (if_pos ⟨hr, hrun, hy, hf⟩)
    obtain ⟨hrole, hnet, hred⟩ := State.becomeHead_begins x (x.frm.frame + 2)
    rw [hxn] at hnet
    simp only [Net.headView, Red.headView, Prod.mk.injEq] at hnet hred
    obtain ⟨hcs, hep⟩ := hnet
    obtain ⟨hon, hre, -, -, -, hys⟩ := hred
    refine ⟨_, hex, ?_⟩
    obtain ⟨h1, h2, h3⟩ := hraise (x.becomeHead (x.frm.frame + 2)) evHandover
    rw [h1, h2, h3]
    exact ⟨hrole, hcs, hep, hon, by rw [hre, hxf], hys, State.raiseDev_hasEvent _ _ _⟩

theorem imagesRestartTheAxes : ImagesRestartTheAxes := by
  refine ⟨fun s im t hl hd hn => ?_, fun s im hr ho hb ht hl hs hi => ?_⟩
  · have hgo : ¬(s.red.loaded = true ∨ (!(s.red.decided || s.red.restartOn || (s.frm.role == .standby && s.red.ystate == 2))) = true) := by
      rcases hd with hd | hd <;> simp [hl, hd]
    have hex : ∃ r, exec (.imageLoadComplete t) s = .next { s.goto t with red := r } ∧ r.loaded = true ∧ r.load.isSome = true := by
      change ∃ r, execImageLoadComplete t s = _ ∧ _
      unfold execImageLoadComplete
      dsimp only
      rw [hn]
      exact ⟨_, congrArg Host.Outcome.next (if_neg hgo), rfl, rfl⟩
    obtain ⟨r, hex, hloaded, hload⟩ := hex
    exact ⟨_, hex, hloaded, hload, State.goto_now_max .., by simp⟩
  · have hgo : ¬(s.frm.role ≠ .head ∨ !s.red.restartOn ∨ s.bridging ∨ s.frm.tickPend ∨ !s.red.loaded ∨ !s.samplesIn) := by
      simp [hr, ho, hb, ht, hl, hs]
    have hex : ∃ u, exec .restartFrame s = .next u ∧ u.red.restartOn = false ∧ u.red.load = none ∧ u.evt.derate = im.derate ∧
        u.evt.under = im.react ∧ u.lines = tmap {} id im.lines := by
      change ∃ u, execRestartFrame s = .next u ∧ _
      unfold execRestartFrame
      dsimp only
      rw [hi]
      exact ⟨_, congrArg Host.Outcome.next (if_neg hgo), rfl, rfl, rfl, rfl, rfl⟩
    exact hex

/-- Settles O38: the new head, and the restart from its image. -/
theorem standbysBecomeHead : Obligations.StandbysBecomeHead := ⟨standbysBecomeHeadInTime, imagesRestartTheAxes⟩

end Sys2Proof.Machine
end

section
namespace Sys2Proof.Machine
open Host

/-! ### What the safety outputs' checks keep -/

/-- The ticks, their exchange, and what a diagnosis rests on. -/
def Saf.tickView (x : Saf) : Nat × Nat × Bool × List Nat × List Nat × Nat × Bool :=
  (x.tick, x.tickB, x.exBad, x.perA, x.perB, x.diag, x.cmpBad)

/-- The frame block, and the safety cycle's ticks with their exchange, stand as they were. -/
structure TicksStand (s t : State) : Prop where
  frm : t.frm = s.frm
  view : t.saf.tickView = s.saf.tickView

theorem TicksStand.refl (s : State) : TicksStand s s := ⟨rfl, rfl⟩

theorem TicksStand.trans {s t u : State} (h : TicksStand s t) (k : TicksStand t u) : TicksStand s u :=
  ⟨k.frm.trans h.frm, k.view.trans h.view⟩

theorem TicksStand.foldl {α : Type} {f : State → α → State} (hf : ∀ t a, TicksStand t (f t a)) (s : State) (l : List α) :
    TicksStand s (l.foldl f s) :=
  List.foldlRecOn (motive := TicksStand s) l f (.refl s) fun t ht a _ => ht.trans (hf t a)

theorem State.raise_ticks (s : State) (code obj groups : Nat) (data : List Byte) : TicksStand s (s.raise code obj groups data) :=
  ⟨(State.raise_only ..).out .frm rfl, congrArg Saf.tickView ((State.raise_only ..).out .saf rfl)⟩

theorem State.setSout_ticks (s : State) (o : Nat) (x : SOut) : TicksStand s (s.setSout o x) := ⟨rfl, rfl⟩

theorem State.setChan_ticks (s : State) (c : Bool) (x : SChan) : TicksStand s (s.setChan c x) := by
  cases c <;> exact ⟨rfl, rfl⟩

theorem State.window_ticks (s : State) (on expired : Bool) (at_ ends : Nat) :
    TicksStand s { s with saf := { s.saf with deg := on, degAt := at_, degExp := expired, degEnd := ends } } := ⟨rfl, rfl⟩

theorem State.windowOver_ticks (s : State) : TicksStand s { s with saf := { s.saf with deg := false, degExp := false, clr := none } } :=
  ⟨rfl, rfl⟩

theorem State.setSgrp_ticks (s : State) (g : Nat) (x : SGroup) : TicksStand s (s.setSgrp g x) := ⟨rfl, rfl⟩

theorem State.degLeave_ticks (s : State) (cleared : Bool) : TicksStand s (s.degLeave cleared) := by
  unfold State.degLeave
  exact (TicksStand.foldl (fun t o => State.setSout_ticks t o _) s (List.range 4)).trans (State.windowOver_ticks _)

theorem State.degEnter_ticks (s : State) (c : Bool) : TicksStand s (s.degEnter c) := by
  unfold State.degEnter
  refine TicksStand.trans ?_ ((State.raise_ticks _ _ _ _ _).trans (State.raise_ticks _ _ _ _ _))
  have hgroups := TicksStand.foldl (f := fun t g => t.setSgrp g { t.sgrp g with v0 := t.vMon g }) (fun t g => State.setSgrp_ticks t g _) s (List.range 32)
  exact (hgroups.trans (TicksStand.foldl (fun t o => State.setSout_ticks t o _) _ (List.range 4))).trans (State.window_ticks ..)

theorem State.chanFault_ticks (s : State) (c : Bool) (f : ChFault) : TicksStand s (s.chanFault c f) := by
  unfold State.chanFault
  refine (State.setChan_ticks s c { s.chan c with fault := if (s.chan c).fault = .persistent then .persistent else f }).trans ?_
  exact State.of_ite (P := TicksStand _) (State.degLeave_ticks _ _) (State.of_ite (P := TicksStand _) (.refl _) (State.degEnter_ticks _ _))

theorem State.transient_ticks (s : State) (c : Bool) : TicksStand s (s.transient c) := by
  unfold State.transient
  have hset := State.setChan_ticks s c { s.chan c with trans := transAdd s.frm.now (s.chan c).trans }
  exact State.of_ite (P := TicksStand s) (hset.trans (State.chanFault_ticks _ _ _)) hset

theorem State.readBack_ticks (s : State) (o : Nat) (chB agree : Bool) (mv : Nat) : TicksStand s (s.readBack o chB agree mv) := by
  unfold State.readBack
  exact State.of_ite (P := TicksStand s) ((State.setSout_ticks _ _ _).trans (State.transient_ticks _ _)) (State.setSout_ticks _ _ _)

theorem State.drive_ticks (s : State) (o : Nat) (chB close : Bool) : TicksStand s (s.drive o chB close) := by
  unfold State.drive
  have hset := fun x => State.setSout_ticks s o x
  refine State.of_ite (P := TicksStand s) (State.of_ite (P := TicksStand s) ?_ (hset _)) (State.of_ite (P := TicksStand s) ?_ (hset _))
  · exact State.of_ite (P := TicksStand s) (.refl s) (hset _)
  · exact State.of_ite (P := TicksStand s) (.refl s) (hset _)

/-- A tick of channel A: its readbacks of SOH0 to SOH3 are judged, and it drives its switches. -/
def State.tickA (s : State) (mv : Nat → Nat) : State :=
  (List.range 4).foldl (fun s o => s.drive o false true)
    ((List.range 4).foldl (fun s o => s.readBack o false
      (sohAgrees (s.sout o).on (s.sout o).testH (s.sout o).testL (mv o) (mv 4)) (mv o)) s)

/-- A tick of channel B, with SOL0 to SOL3. -/
def State.tickB (s : State) (mv : Nat → Nat) : State :=
  (List.range 4).foldl (fun s o => s.drive o true true)
    ((List.range 4).foldl (fun s o => s.readBack o true
      (solAgrees (s.sout o).on (s.sout o).testH (s.sout o).testL (mv o)) (mv o)) s)

theorem State.tickA_ticks (s : State) (mv : Nat → Nat) : TicksStand s (s.tickA mv) :=
  (TicksStand.foldl (fun t o => State.readBack_ticks t o false _ _) s (List.range 4)).trans
    (TicksStand.foldl (fun t o => State.drive_ticks t o false true) _ (List.range 4))

theorem State.tickB_ticks (s : State) (mv : Nat → Nat) : TicksStand s (s.tickB mv) :=
  (TicksStand.foldl (fun t o => State.readBack_ticks t o true _ _) s (List.range 4)).trans
    (TicksStand.foldl (fun t o => State.drive_ticks t o true true) _ (List.range 4))

/-! ### Faulted outputs -/

theorem State.sout_congr {s t : State} (h : t.saf = s.saf) (o : Nat) : t.sout o = s.sout o := by
  rw [State.sout, h, State.sout]

/-- A faulted output: each switch that is not frozen is open, with the event on its first fault. -/
theorem State.outFault_opens {s : State} {o : Nat} {x : SOut} (hx : s.sout o = x) (hf : x.fault = false) :
    ((s.outFault o).sout o).fault = true ∧ ((s.outFault o).sout o).soh = (x.soh && x.frzA) ∧
    ((s.outFault o).sout o).sol = (x.sol && x.frzB) ∧ (s.outFault o).hasEvent evSafeOut o ∧ (s.outFault o).frm = s.frm := by
  subst hx
  have hraise : ∀ y : State, ((y.raise evSafeOut o allGroups []).sout o) = y.sout o ∧ (y.raise evSafeOut o allGroups []).frm = y.frm :=
    fun y => ⟨State.sout_congr ((State.raise_only ..).out .saf rfl) o, (State.raise_only ..).out .frm rfl⟩
  unfold State.outFault
  dsimp only
  rw [hf, if_neg Bool.false_ne_true, (hraise _).1, (hraise _).2,
    State.setSout_ne _ _ _ fun h => absurd (congrArg SOut.fault h) Bool.noConfusion]
  exact ⟨rfl, rfl, rfl, State.raise_hasEvent _ _ _ _ _, rfl⟩

/-- Driving a switch of an output in service leaves it in service, and no test of a switch begins or ends. -/
theorem State.drive_sout {s : State} {o : Nat} (hwf : twf {} s.saf.outs = true) (chB close : Bool) :
    ((s.drive o chB close).sout o).fault = (s.sout o).fault ∧ ((s.drive o chB close).sout o).testH = (s.sout o).testH ∧
    ((s.drive o chB close).sout o).testL = (s.sout o).testL := by
  have hset : ∀ y : SOut, y.fault = (s.sout o).fault → y.testH = (s.sout o).testH → y.testL = (s.sout o).testL →
      ((s.setSout o y).sout o).fault = (s.sout o).fault ∧ ((s.setSout o y).sout o).testH = (s.sout o).testH ∧
      ((s.setSout o y).sout o).testL = (s.sout o).testL := fun y hf hh hl => by
    rw [State.setSout_same _ _ _ hwf]
    exact ⟨hf, hh, hl⟩
  have hcase := @State.of_ite (fun t => (t.sout o).fault = (s.sout o).fault ∧ (t.sout o).testH = (s.sout o).testH ∧
    (t.sout o).testL = (s.sout o).testL)
  unfold State.drive
  refine hcase (hcase (hcase ⟨rfl, rfl, rfl⟩ (hset _ rfl rfl rfl)) (hset _ rfl rfl rfl)) ?_
  exact hcase (hcase ⟨rfl, rfl, rfl⟩ (hset _ rfl rfl rfl)) (hset _ rfl rfl rfl)

/-- The next off-test of a switch is not before now, at the switch's phase of 100 ms. -/
theorem State.offTestNext_phase (s : State) (x : SOut) (low : Bool) : s.frm.now ≤ s.offTestNext x low ∧
    s.offTestNext x low % msT 100 = if low then msT 50 else 0 := by
  unfold State.offTestNext
  refine ⟨(le_max_left _ _).trans (le_phaseFrom ..), ?_⟩
  cases low
  · exact phaseFrom_mod (by decide) _
  · exact phaseFrom_mod (by decide) _

/-- Settles O42: the ticks, the faults, and the off-tests of each switch. -/
theorem safetyOutputsAreChecked : Obligations.SafetyOutputsAreChecked := by
  refine ⟨fun s rb ht => ?_, fun s rb ht => congrArg Host.Outcome.next (if_pos ht), fun s ok rb => ?_, fun s o hd hf => ?_,
    fun s o hh hl hth htl => ⟨fun hz => ?_, fun hz => ?_⟩, fun s o mv t hth hf => ⟨fun hbad => ?_, fun hm hc hwf => ?_⟩,
    fun s o mv t htl hf => ⟨fun hbad => ?_, fun hm hc hwf => ?_⟩, fun s o low hf => ?_⟩
  · have hsaf : (s.goto (usT 100 * (s.saf.tick + 1))).saf = s.saf := State.goto_saf ..
    generalize hg : s.goto (usT 100 * (s.saf.tick + 1)) = g at hsaf
    have hex : exec (.safetyTick rb) s = .next (State.tickA { g with saf := { g.saf with
        tick := g.saf.tick + 1, perA := g.saf.perA ++ [(rb[6]?).getD 0], supA := (rb[5]?).getD 0 } } (fun k => (rb[k]?).getD 0)) := by
      rw [← hg]
      exact congrArg Host.Outcome.next (if_neg (by omega))
    obtain ⟨hfrm, hview⟩ := State.tickA_ticks { g with saf := { g.saf with
      tick := g.saf.tick + 1, perA := g.saf.perA ++ [(rb[6]?).getD 0], supA := (rb[5]?).getD 0 } } (fun k => (rb[k]?).getD 0)
    refine ⟨_, hex, ?_⟩
    rw [hfrm]
    simp only [Saf.tickView, Prod.mk.injEq] at hview
    obtain ⟨htick, -, -, hper, -⟩ := hview
    rw [htick, hper, hsaf, ← hg]
    exact ⟨rfl, rfl, State.goto_now_max ..⟩
  · have hex : exec (.tickExchange ok rb) s = .next (State.tickB { s with saf := { s.saf with
        tickB := s.saf.tickB + 1, perB := s.saf.perB ++ [(rb[5]?).getD 0], exBad := s.saf.exBad || !ok, supB := (rb[4]?).getD 0 } }
        (fun k => (rb[k]?).getD 0)) := rfl
    obtain ⟨-, hview⟩ := State.tickB_ticks { s with saf := { s.saf with
      tickB := s.saf.tickB + 1, perB := s.saf.perB ++ [(rb[5]?).getD 0], exBad := s.saf.exBad || !ok, supB := (rb[4]?).getD 0 } }
      (fun k => (rb[k]?).getD 0)
    refine ⟨_, hex, ?_⟩
    simp only [Saf.tickView, Prod.mk.injEq] at hview
    obtain ⟨-, htick, hbad, -, hper, -⟩ := hview
    rw [htick, hbad, hper]
    exact ⟨rfl, rfl, rfl⟩
  · obtain ⟨h1, h2, h3, h4, -⟩ := State.outFault_opens (o := o) rfl hf
    exact ⟨_, congrArg Host.Outcome.next (if_pos ⟨hd, by simp [hf]⟩), h1, h2, h3, h4⟩
  · obtain ⟨hle, hmod⟩ := State.offTestNext_phase s (s.sout o) false
    refine ⟨_, congrArg Host.Outcome.next (if_pos ⟨hh, hl, by simp [hth], by simp [htl], by simp [hz]⟩), ?_⟩
    dsimp only
    rw [if_neg Bool.false_ne_true, State.setSout_ne _ _ _ fun h => absurd (congrArg SOut.testH h) Bool.noConfusion]
    have hnow : (s.goto (s.offTestNext (s.sout o) false)).frm.now = s.offTestNext (s.sout o) false := State.goto_now _ _ hle
    exact ⟨rfl, rfl, hl, hle.trans_eq hnow.symm, (congrArg (· % msT 100) hnow).trans hmod⟩
  · obtain ⟨hle, hmod⟩ := State.offTestNext_phase s (s.sout o) true
    refine ⟨_, congrArg Host.Outcome.next (if_pos ⟨hh, hl, by simp [hth], by simp [htl], by simp [hz]⟩), ?_⟩
    dsimp only
    rw [if_pos rfl, State.setSout_ne _ _ _ fun h => absurd (congrArg SOut.testL h) Bool.noConfusion]
    have hnow : (s.goto (s.offTestNext (s.sout o) true)).frm.now = s.offTestNext (s.sout o) true := State.goto_now _ _ hle
    exact ⟨rfl, rfl, hh, hle.trans_eq hnow.symm, (congrArg (· % msT 100) hnow).trans hmod⟩
  · have hsout : ∀ t, (s.goto t).sout o = s.sout o := fun t => State.sout_congr (State.goto_saf ..) o
    obtain ⟨h1, -, -, h4, h5⟩ := State.outFault_opens (hsout ((s.sout o).atH - 1 + usT (s.pn 11 0 3))) hf
    refine ⟨_, congrArg Host.Outcome.next ((if_neg (by simp [hth])).trans (if_neg ?_)), h1, h4, ?_⟩
    · rintro ⟨hlevel, hin⟩
      exact hbad.elim (fun h => absurd hlevel (Nat.not_le.mpr h)) fun h => absurd hin (Nat.not_le.mpr h)
    · exact (congrArg Frm.now h5).trans (State.goto_now_max ..)
  · have hgo : (s.goto t).saf.outs = s.saf.outs := by rw [State.goto_saf]
    obtain ⟨h1, h2, -⟩ := State.drive_sout (s := (s.goto t).setSout o { s.sout o with testH := false }) (o := o)
      (twf_tset _ _ _ (by rw [hgo]; exact hwf)) false true
    rw [State.setSout_same _ _ _ (by rw [hgo]; exact hwf)] at h1 h2
    refine ⟨_, congrArg Host.Outcome.next ((if_neg (by simp [hth])).trans (if_pos ⟨?_, hc⟩)), h1.trans hf, h2, ?_⟩
    · exact (congrArg Frm.now (State.drive_ticks _ _ _ _).frm).trans (State.goto_now_max ..)
    · rw [if_neg Bool.false_ne_true]
      exact hm
  · have hsout : ∀ t, (s.goto t).sout o = s.sout o := fun t => State.sout_congr (State.goto_saf ..) o
    obtain ⟨h1, -, -, h4, h5⟩ := State.outFault_opens (hsout ((s.sout o).atL - 1 + usT (s.pn 11 0 3))) hf
    refine ⟨_, congrArg Host.Outcome.next ((if_neg (by simp [htl])).trans (if_neg ?_)), h1, h4, ?_⟩
    · rintro ⟨hlevel, hin⟩
      exact hbad.elim (fun h => absurd hlevel (Nat.not_le.mpr h)) fun h => absurd hin (Nat.not_le.mpr h)
    · exact (congrArg Frm.now h5).trans (State.goto_now_max ..)
  · have hgo : (s.goto t).saf.outs = s.saf.outs := by rw [State.goto_saf]
    obtain ⟨h1, -, h2⟩ := State.drive_sout (s := (s.goto t).setSout o { s.sout o with testL := false }) (o := o)
      (twf_tset _ _ _ (by rw [hgo]; exact hwf)) true true
    rw [State.setSout_same _ _ _ (by rw [hgo]; exact hwf)] at h1 h2
    refine ⟨_, congrArg Host.Outcome.next ((if_neg (by simp [htl])).trans (if_pos ⟨?_, hc⟩)), h1.trans hf, h2, ?_⟩
    · exact (congrArg Frm.now (State.drive_ticks _ _ _ _).frm).trans (State.goto_now_max ..)
    · rw [if_pos rfl]
      exact hm
  · cases low
    · obtain ⟨h1, h2, h3, h4, -⟩ := State.outFault_opens (s := s.setSout o { s.sout o with limA := true }) (o := o)
        (State.setSout_ne _ _ _ fun h => absurd (congrArg SOut.limA h) Bool.noConfusion) hf
      exact ⟨_, rfl, h1, h2, h3, h4⟩
    · obtain ⟨h1, h2, h3, h4, -⟩ := State.outFault_opens (s := s.setSout o { s.sout o with limB := true }) (o := o)
        (State.setSout_ne _ _ _ fun h => absurd (congrArg SOut.limB h) Bool.noConfusion) hf
      exact ⟨_, rfl, h1, h2, h3, h4⟩

end Sys2Proof.Machine
end

section
namespace Sys2Proof.Machine
open Host

/-! ### Channel faults -/

/-- The channels, the frame block and the set stand as they were. -/
structure ChansStand (s t : State) : Prop where
  frm : t.frm = s.frm
  params : t.saf.params = s.saf.params
  chan : ∀ c, t.chan c = s.chan c

theorem ChansStand.refl (s : State) : ChansStand s s := ⟨rfl, rfl, fun _ => rfl⟩

theorem ChansStand.trans {s t u : State} (h : ChansStand s t) (k : ChansStand t u) : ChansStand s u :=
  ⟨k.frm.trans h.frm, k.params.trans h.params, fun c => (k.chan c).trans (h.chan c)⟩

theorem ChansStand.foldl {α : Type} {f : State → α → State} (hf : ∀ t a, ChansStand t (f t a)) (s : State) (l : List α) :
    ChansStand s (l.foldl f s) :=
  List.foldlRecOn (motive := ChansStand s) l f (.refl s) fun t ht a _ => ht.trans (hf t a)

theorem State.setSout_chans (s : State) (o : Nat) (x : SOut) : ChansStand s (s.setSout o x) := ⟨rfl, rfl, fun c => by cases c <;> rfl⟩

theorem State.setSgrp_chans (s : State) (g : Nat) (x : SGroup) : ChansStand s (s.setSgrp g x) := ⟨rfl, rfl, fun c => by cases c <;> rfl⟩

theorem State.windowOver_chans (s : State) : ChansStand s { s with saf := { s.saf with deg := false, degExp := false, clr := none } } :=
  ⟨rfl, rfl, fun c => by cases c <;> rfl⟩

theorem State.raiseDev_chans (s : State) (code : Nat) (data : List Byte) : ChansStand s (s.raiseDev code data) where
  frm := (State.raiseDev_only ..).out .frm rfl
  params := congrArg Saf.params ((State.raiseDev_only ..).out .saf rfl)
  chan c := by rw [State.chan, (State.raiseDev_only ..).out .saf rfl, State.chan]

theorem State.degLeave_chans (s : State) (cleared : Bool) : ChansStand s (s.degLeave cleared) := by
  unfold State.degLeave
  exact (ChansStand.foldl (fun t o => State.setSout_chans t o _) s (List.range 4)).trans (State.windowOver_chans _)

theorem State.degLeave_deg (s : State) (cleared : Bool) : (s.degLeave cleared).saf.deg = false := rfl

/-- What the opening of the window reads of the part, and what it freezes. -/
def State.degFrozen (s : State) (chB : Bool) : State :=
  (List.range 4).foldl (fun s o => s.setSout o (if chB then { s.sout o with frzB := true } else { s.sout o with frzA := true }))
    ((List.range 32).foldl (fun s g => s.setSgrp g { s.sgrp g with v0 := s.vMon g }) s)

theorem State.degFrozen_chans (s : State) (chB : Bool) : ChansStand s (s.degFrozen chB) :=
  (ChansStand.foldl (f := fun t g => t.setSgrp g { t.sgrp g with v0 := t.vMon g }) (fun t g => State.setSgrp_chans t g _) s
    (List.range 32)).trans (ChansStand.foldl (fun t o => State.setSout_chans t o _) _ (List.range 4))

/-- The window stands open, with both events. -/
def State.degShown (s : State) (chB : Bool) : State :=
  ({ s with saf := { s.saf with deg := true, degAt := s.saf.cycle, degExp := false,
                                degEnd := s.frm.now + msT (1000 * s.pn 11 0 0) } }.raiseDev evSafeChfault
    [BitVec.ofNat 8 (b2n chB)]).raiseDev evSafeDegraded []

theorem State.degEnter_eq (s : State) (chB : Bool) : s.degEnter chB = (s.degFrozen chB).degShown chB := rfl

theorem State.degShown_opens (s : State) (c : Bool) : ChansStand s (s.degShown c) ∧ (s.degShown c).saf.deg = true ∧
    (s.degShown c).saf.degEnd = s.frm.now + msT (1000 * s.pn 11 0 0) ∧ (s.degShown c).hasEvent evSafeChfault devObj ∧
    (s.degShown c).hasEvent evSafeDegraded devObj := by
  unfold State.degShown
  generalize hy : { s with saf := { s.saf with deg := true, degAt := s.saf.cycle, degExp := false,
                                               degEnd := s.frm.now + msT (1000 * s.pn 11 0 0) } } = y
  have hsy : ChansStand s y := by
    rw [← hy]
    exact ⟨rfl, rfl, fun c => by cases c <;> rfl⟩
  have hsaf : ((y.raiseDev evSafeChfault [BitVec.ofNat 8 (b2n c)]).raiseDev evSafeDegraded []).saf = y.saf := by
    rw [(State.raiseDev_only ..).out .saf rfl, (State.raiseDev_only ..).out .saf rfl]
  refine ⟨hsy.trans ((State.raiseDev_chans ..).trans (State.raiseDev_chans ..)), ?_, ?_,
    State.hasEvent_raise _ _ _ _ _ _ _ (State.raiseDev_hasEvent ..), State.raiseDev_hasEvent ..⟩
  · rw [hsaf, ← hy]
  · rw [hsaf, ← hy]

/-- The safety set's own parameters, read from one set. -/
theorem State.pn11_congr {s t : State} (h : t.saf.params = s.saf.params) (i n : Nat) : t.pn 11 i n = s.pn 11 i n :=
  congrArg (fun q => (paramIn q 11 i n).toNat) h

/-- The window opens for its time, with both events. -/
theorem State.degEnter_opens (s : State) (c : Bool) : ChansStand s (s.degEnter c) ∧ (s.degEnter c).saf.deg = true ∧
    (s.degEnter c).saf.degEnd = s.frm.now + msT (1000 * s.pn 11 0 0) ∧ (s.degEnter c).hasEvent evSafeChfault devObj ∧
    (s.degEnter c).hasEvent evSafeDegraded devObj := by
  rw [State.degEnter_eq]
  have hsx := State.degFrozen_chans s c
  generalize s.degFrozen c = x at hsx
  obtain ⟨hch, hdeg, hend, hfault, hwin⟩ := State.degShown_opens x c
  rw [hsx.frm, State.pn11_congr hsx.params] at hend
  exact ⟨hsx.trans hch, hdeg, hend, hfault, hwin⟩

/-- The channel shows the fault, a persistent one standing, and the other channel is as it was. -/
theorem State.chanFault_chan (s : State) (c : Bool) (f : ChFault) (d : Bool) : (s.chanFault c f).chan d =
    if d = c then { s.chan c with fault := if (s.chan c).fault = .persistent then .persistent else f } else s.chan d := by
  have hset : ∀ x, (s.setChan c x).chan d = if d = c then x else s.chan d := fun x => by cases c <;> cases d <;> rfl
  rw [← hset]
  unfold State.chanFault
  exact State.read_ite (State.chan · d) ((State.degLeave_chans _ _).chan d) (State.read_ite (State.chan · d) rfl ((State.degEnter_opens _ _).1.chan d))

/-- A channel in service with the other in service: its fault opens the window. -/
theorem State.chanFault_alone {s : State} {c : Bool} (f : ChFault) (hown : (s.chan c).fault = .healthy) (hother : (s.chan !c).fault = .healthy)
    (hdeg : s.saf.deg = false) : (s.chanFault c f).saf.deg = true ∧
    (s.chanFault c f).saf.degEnd = s.frm.now + msT (1000 * s.pn 11 0 0) ∧ (s.chanFault c f).hasEvent evSafeChfault devObj ∧
    (s.chanFault c f).hasEvent evSafeDegraded devObj := by
  have hx : ∀ x, (s.setChan c x).bothBad = false := fun x => by
    cases c
    · change (x.bad && (s.chan true).bad) = false
      rw [SChan.bad, SChan.bad, show (s.chan true).fault = .healthy from hother]
      exact Bool.and_false _
    · change ((s.chan false).bad && x.bad) = false
      rw [SChan.bad, show (s.chan false).fault = .healthy from hother]
      rfl
  have hkeep : ∀ x, (s.setChan c x).frm = s.frm ∧ (s.setChan c x).saf.params = s.saf.params ∧ (s.setChan c x).saf.deg = s.saf.deg :=
    fun x => by cases c <;> exact ⟨rfl, rfl, rfl⟩
  have hbad : ¬((s.chan c).bad = true ∨ (s.setChan c { s.chan c with
      fault := if (s.chan c).fault = .persistent then .persistent else f }).saf.deg = true) := by
    rw [(hkeep _).2.2, hdeg, SChan.bad, hown]
    simp
  unfold State.chanFault
  dsimp only
  rw [hx, if_neg Bool.false_ne_true, if_neg hbad]
  obtain ⟨-, hopen, hend, hfault, hwin⟩ := State.degEnter_opens (s.setChan c { s.chan c with
      fault := if (s.chan c).fault = .persistent then .persistent else f }) c
  rw [(hkeep _).1, State.pn11_congr (hkeep _).2.1] at hend
  exact ⟨hopen, hend, hfault, hwin⟩

/-- A fault of the second channel ends the window. -/
theorem State.chanFault_both {s : State} {c : Bool} {f : ChFault} (hf : f ≠ .healthy) (hother : (s.chan !c).fault ≠ .healthy) :
    (s.chanFault c f).saf.deg = false := by
  have hb : (s.setChan c { s.chan c with fault := if (s.chan c).fault = .persistent then .persistent else f }).bothBad = true := by
    have hown : (if (s.chan c).fault = .persistent then ChFault.persistent else f) ≠ .healthy := by
      split <;> simp [hf]
    cases c
    · exact Bool.and_eq_true_iff.mpr ⟨bne_iff_ne.mpr hown, bne_iff_ne.mpr hother⟩
    · exact Bool.and_eq_true_iff.mpr ⟨bne_iff_ne.mpr hother, bne_iff_ne.mpr hown⟩
  unfold State.chanFault
  dsimp only
  rw [hb, if_pos rfl]
  exact State.degLeave_deg _ _

/-! ### Switches that open -/

/-- Driving a switch stores at its own output, or nothing. -/
theorem State.drive_elim {P : State → Prop} {s : State} {o : Nat} (hs : P s) (hset : ∀ y, P (s.setSout o y)) (chB close : Bool) :
    P (s.drive o chB close) := by
  have hcase := @State.of_ite P
  unfold State.drive
  exact hcase (hcase (hcase hs (hset _)) (hset _)) (hcase (hcase hs (hset _)) (hset _))

/-- A state that differs in the outputs alone, their table canonical. -/
def OutsDiffer (s t : State) : Prop := ∃ outs, t = { s with saf := { s.saf with outs := outs } } ∧ twf {} outs = true

theorem OutsDiffer.wf {s t : State} (h : OutsDiffer s t) : twf {} t.saf.outs = true := by
  obtain ⟨outs, rfl, hwf⟩ := h
  exact hwf

theorem OutsDiffer.drive {s t : State} (h : OutsDiffer s t) (o : Nat) (chB close : Bool) : OutsDiffer s (t.drive o chB close) := by
  obtain ⟨outs, rfl, hwf⟩ := h
  exact State.drive_elim (P := OutsDiffer s) ⟨outs, rfl, hwf⟩ (fun y => ⟨_, rfl, twf_tset _ _ _ hwf⟩) chB close

/-- The high-side switch of an output that is not wanted opens where it is not frozen. -/
theorem State.drive_opens {s : State} {o : Nat} (hwf : twf {} s.saf.outs = true) (hw : s.outWanted o = false) (hz : (s.sout o).frzA = false) :
    ((s.drive o false false).sout o).soh = false := by
  unfold State.drive
  dsimp only
  rw [hw, if_neg Bool.false_ne_true]
  refine State.of_ite (P := fun t => (t.sout o).soh = false) ?_ ?_
  · rw [Bool.false_and, if_neg Bool.false_ne_true, State.setSout_same _ _ _ hwf]
    exact (congrArg ((s.sout o).soh && ·) hz).trans (Bool.and_false _)
  · rw [State.setSout_same _ _ _ hwf]
    rfl

/-- Driving the low-side switch leaves the high-side one. -/
theorem State.drive_low_soh {s : State} {o : Nat} (hwf : twf {} s.saf.outs = true) (close : Bool) :
    ((s.drive o true close).sout o).soh = (s.sout o).soh := by
  have hset : ∀ y : SOut, y.soh = (s.sout o).soh → ((s.setSout o y).sout o).soh = (s.sout o).soh := fun y hy => by
    rw [State.setSout_same _ _ _ hwf, hy]
  unfold State.drive
  dsimp only
  rw [if_pos rfl]
  exact State.of_ite (P := fun t => (t.sout o).soh = _) (State.of_ite (P := fun t => (t.sout o).soh = _) rfl (hset _ rfl)) (hset _ rfl)

theorem OutsDiffer.outsOpen {s : State} (hwf : twf {} s.saf.outs = true) : OutsDiffer s s.outsOpen :=
  List.foldlRecOn (motive := OutsDiffer s) (List.range 4) _ ⟨_, rfl, hwf⟩ fun _ h k _ => (h.drive k false false).drive k true false

/-- Outputs that no decision holds energised open. -/
theorem State.outsOpen_opens {s : State} {o : Nat} (ho : o < 4) (hwf : twf {} s.saf.outs = true) (hw : ∀ t, OutsDiffer s t → t.outWanted o = false)
    (hz : (s.sout o).frzA = false) : (s.outsOpen.sout o).soh = false := by
  obtain ⟨t, ht, hget, hfinal, -⟩ := foldl_range_at (f := fun s o => (State.drive s o false false).drive o true false) (get := State.sout)
    (Q := OutsDiffer s) (fun t k hq => (hq.drive k false false).drive k true false)
    (fun t k j _ hj => State.drive_elim (P := fun u => u.sout j = t.sout j)
      (State.drive_elim (P := fun u => u.sout j = t.sout j) rfl (fun y => State.setSout_other _ _ _ _ hj) _ _)
      (fun y => (State.setSout_other _ _ _ _ hj).trans
        (State.drive_elim (P := fun u => u.sout j = t.sout j) rfl (fun y => State.setSout_other _ _ _ _ hj) _ _)) _ _)
    (s := s) ⟨_, rfl, hwf⟩ ho
  unfold State.outsOpen
  rw [hfinal, State.drive_low_soh (ht.drive o false false).wf]
  exact State.drive_opens ht.wf (hw t ht) (by rw [hget]; exact hz)

/-- A group in STO whose brake delay is over holds its brake outputs open. -/
theorem State.outWanted_of_brake {s : State} {g : Fin 32} {o : Nat} (hst : (s.sgrp g).st = .sto) (hat : (s.sgrp g).sbcAt = none)
    (hb : bitOf (s.sgP g 4) o = true) : s.outWanted o = false := by
  unfold State.outWanted
  dsimp only
  have hmem : g.val ∈ (List.range 32).filter fun g => bitOf (s.sgP g 3) o || bitOf (s.sgP g 4) o :=
    List.mem_filter.mpr ⟨List.mem_range.mpr g.isLt, by rw [hb, Bool.or_true]⟩
  rw [Bool.and_eq_false_iff]
  refine .inr (List.all_eq_false.mpr ⟨g, hmem, ?_⟩)
  simp [hst, hat]

theorem safetyTimersExpire : SafetyTimersExpire := by
  refine ⟨fun s g ho hn hr hst => ?_, fun s g hst hr ht => ?_, fun s g hst hr ht => ?_, fun s g c hst hat hc hwg hwo => ?_, fun s hd => ?_⟩
  · refine ⟨_, congrArg Host.Outcome.next (if_pos ⟨ho, hn, by simp [hr], hst⟩), ?_, ?_, State.raise_hasEvent ..⟩
    · rw [State.sgrp_congr ((State.raise_only ..).out .saf rfl), State.setSgrp_ne _ _ _ fun h => absurd (congrArg SGroup.slsReq h) Bool.noConfusion]
    · rw [State.sgrp_congr ((State.raise_only ..).out .saf rfl), State.setSgrp_ne _ _ _ fun h => absurd (congrArg SGroup.slsReq h) Bool.noConfusion]
  · refine ⟨_, congrArg Host.Outcome.next (if_pos ⟨hst, by simp [hr], ht⟩), ?_⟩
    rw [State.setSgrp_ne _ _ _ fun h => absurd (congrArg SGroup.tmax h) Bool.noConfusion]
    exact ⟨rfl, hst⟩
  · refine ⟨_, congrArg Host.Outcome.next (if_pos ⟨hst, hr, ht⟩), ?_⟩
    rw [State.setSgrp_ne _ _ _ fun h => absurd (congrArg SGroup.tmax h) Bool.noConfusion]
    exact ⟨rfl, hst⟩
  · have hex : exec (.sbcDelayExpiry g) s = .next (s.setSgrp g { s.sgrp g with sbcAt := none }).outsOpen := by
      change execSbcDelayExpiry g s = _
      unfold execSbcDelayExpiry
      dsimp only
      rw [hat]
      exact congrArg Host.Outcome.next (if_pos ⟨hst, hc⟩)
    have hgrp : (s.setSgrp g { s.sgrp g with sbcAt := none }).sgrp g = { s.sgrp g with sbcAt := none } := State.setSgrp_same _ _ _ hwg
    have hpar : (s.setSgrp g { s.sgrp g with sbcAt := none }).saf.params = s.saf.params := rfl
    have houts : (s.setSgrp g { s.sgrp g with sbcAt := none }).saf.outs = s.saf.outs := rfl
    generalize s.setSgrp g { s.sgrp g with sbcAt := none } = x at hex hgrp hpar houts
    have hwf : twf {} x.saf.outs = true := by rw [houts]; exact hwo
    have hdiffer : ∀ t, OutsDiffer x t → t.sgrp g = { s.sgrp g with sbcAt := none } ∧ t.sgP g 4 = s.sgP g 4 := fun t ht => by
      obtain ⟨outs, rfl, -⟩ := ht
      exact ⟨hgrp, State.pn11_congr hpar _ _⟩
    refine ⟨_, hex, congrArg SGroup.sbcAt (hdiffer _ (OutsDiffer.outsOpen hwf)).1, fun o ho hb hz => State.outsOpen_opens ho hwf (fun t ht => ?_) ?_⟩
    · obtain ⟨hg, hp⟩ := hdiffer t ht
      exact State.outWanted_of_brake (g := g) ((congrArg SGroup.st hg).trans hst) (congrArg SGroup.sbcAt hg) (by rw [hp]; exact hb)
    · rw [State.sout, houts]
      exact hz
  · refine ⟨_, congrArg Host.Outcome.next (if_pos hd), rfl, ?_, State.goto_now_max ..⟩
    exact (congrArg Saf.deg (State.goto_saf s _)).trans hd

/-- A transient fault that is not the fourth is counted alone. -/
theorem State.transient_few {s : State} {c : Bool} (h : ((s.chan c).trans.filter fun t => decide (s.frm.now < t + msT 3600000)).length < 3) :
    s.transient c = s.setChan c { s.chan c with trans := transAdd s.frm.now (s.chan c).trans } := by
  have hlen : (transAdd s.frm.now (s.chan c).trans).length < 4 := by
    rw [transAdd, List.length_cons]
    omega
  unfold State.transient
  exact if_neg (by omega)

theorem State.transient_fourth {s : State} {c : Bool} (h : 3 ≤ ((s.chan c).trans.filter fun t => decide (s.frm.now < t + msT 3600000)).length) :
    s.transient c = (s.setChan c { s.chan c with trans := transAdd s.frm.now (s.chan c).trans }).chanFault c .persistent := by
  have hlen : 4 ≤ (transAdd s.frm.now (s.chan c).trans).length := by
    rw [transAdd, List.length_cons]
    omega
  unfold State.transient
  exact if_pos hlen

theorem State.chanFault_own (s : State) (c : Bool) : ((s.chanFault c .persistent).chan c).fault = .persistent :=
  State.chanFault_persistent s c

theorem State.chanFault_other (s : State) (c : Bool) (f : ChFault) : (s.chanFault c f).chan (!c) = s.chan !c := by
  rw [State.chanFault_chan, if_neg (by cases c <;> decide)]

/-- The self-tests' results, noted. -/
def State.testsNoted (s : State) (a b : Bool) : State :=
  { s with saf := { s.saf with a := { s.saf.a with stOk := a }, b := { s.saf.b with stOk := b } } }

theorem execDiagnosisEnd_decide {s : State} {a b : ChFault} {okA okB : Bool} (hA : (a == .healthy) = okA) (hB : (b == .healthy) = okB)
    (hd : s.saf.diag ≠ 0) (h : ¬(okA = true ∧ okB = true ∧ s.saf.diag = 2)) :
    exec (.diagnosisEnd a b) s = .next ((s.testsNoted okA okB).diagDecide okA okB) := by
  subst hA hB
  exact congrArg Host.Outcome.next ((if_neg hd).trans (if_neg h))

theorem TicksStand.diag {s t : State} (h : TicksStand s t) : t.saf.diag = s.saf.diag := by
  have hview := h.view
  simp only [Saf.tickView, Prod.mk.injEq] at hview
  obtain ⟨-, -, -, -, -, hdiag, -⟩ := hview
  exact hdiag

/-- The diagnosis is over. -/
def State.diagOver (s : State) : State := { s with saf := { s.saf with diag := 0 } }

theorem State.diagDecide_failed (s : State) :
    s.diagDecide false true = s.diagOver.chanFault false .persistent ∧ s.diagDecide true false = s.diagOver.chanFault true .persistent :=
  ⟨rfl, rfl⟩

theorem State.diagDecide_mismatch {s : State} (h : s.saf.cmpBad = true) :
    s.diagDecide true true = (s.diagOver.chanFault false .persistent).chanFault true .persistent := by
  unfold State.diagDecide
  dsimp only
  rw [if_neg (by simp), if_pos h]
  rfl

theorem State.diagDecide_match {s : State} (h : s.saf.cmpBad = false)
    (hl : (s.saf.b.trans.filter fun t => decide (s.frm.now < t + msT 3600000)).length < 3) :
    s.diagDecide true true =
      (s.diagOver.setChan true { s.saf.b with trans := transAdd s.frm.now s.saf.b.trans }).chanFault true .transient := by
  have hlen : ¬4 ≤ (transAdd s.frm.now s.saf.b.trans).length := by
    rw [transAdd, List.length_cons]
    omega
  unfold State.diagDecide
  dsimp only
  rw [if_neg (by simp), if_neg (show ¬s.saf.cmpBad = true by rw [h]; exact Bool.false_ne_true), if_neg hlen]
  rfl

theorem channelFaultsAreClassed : ChannelFaultsAreClassed := by
  refine ⟨fun s ha hb hd => ?_, fun s ha => ?_, fun s hl => ?_, fun s hd => ?_, fun s hd hc => ?_, fun s hd hc hb hl => ?_,
    fun s ha hb hd hl => ?_, fun s hd ha hb hdeg => ⟨?_, ?_⟩⟩
  · obtain ⟨hopen, hend, hfault, hwin⟩ := State.chanFault_alone (c := false) .persistent ha hb hd
    exact ⟨_, rfl, State.chanFault_own s false, State.chanFault_other s false _, hopen, hend, hfault, hwin⟩
  · exact ⟨_, rfl, State.chanFault_own s true, State.chanFault_both (by decide) ha⟩
  · exact ⟨_, congrArg Host.Outcome.next (State.transient_few (c := false) hl), rfl, rfl, rfl⟩
  · refine ⟨_, congrArg Host.Outcome.next ((if_neg (by omega)).trans (if_pos ⟨rfl, rfl, hd⟩)), hd, rfl, rfl, rfl, rfl⟩
  · refine ⟨_, execDiagnosisEnd_decide (okA := true) (okB := true) rfl rfl (by omega) (by simp [hd]), ?_⟩
    rw [State.diagDecide_mismatch (s := s.testsNoted true true) hc]
    generalize hx : (s.testsNoted _ _).diagOver = x
    have hdiag : x.saf.diag = 0 := by rw [← hx]; rfl
    have ha := State.chanFault_own x false
    refine ⟨?_, ?_, State.chanFault_own _ true, State.chanFault_both (by decide) ?_⟩
    · rw [(State.chanFault_ticks ..).diag, (State.chanFault_ticks ..).diag, hdiag]
    · exact (congrArg SChan.fault (State.chanFault_other _ true _)).trans ha
    · exact fun h => absurd (ha.symm.trans h) (by decide)
  · refine ⟨_, execDiagnosisEnd_decide (okA := true) (okB := true) rfl rfl (by omega) (by simp [hd]), ?_⟩
    rw [State.diagDecide_match (s := s.testsNoted true true) hc hl]
    generalize hx : State.setChan _ true _ = x
    have hxb : (x.chan true).fault = .healthy := by rw [← hx]; exact hb
    have hxa : (x.chan false).fault = s.saf.a.fault := by rw [← hx]; rfl
    have hdiag : x.saf.diag = 0 := by rw [← hx]; rfl
    refine ⟨?_, ?_, ?_⟩
    · rw [(State.chanFault_ticks ..).diag, hdiag]
    · refine (congrArg SChan.fault (State.chanFault_chan x true .transient true)).trans ?_
      rw [if_pos rfl, hxb]
      rfl
    · exact (congrArg SChan.fault (State.chanFault_other x true _)).trans hxa
  · obtain ⟨hopen, -⟩ := State.chanFault_alone (s := s.setChan false { s.saf.a with trans := transAdd s.frm.now s.saf.a.trans }) (c := false)
      .persistent ha hb hd
    exact ⟨_, congrArg Host.Outcome.next (State.transient_fourth (c := false) hl), State.chanFault_own _ false, hopen⟩
  · refine ⟨_, execDiagnosisEnd_decide (okA := false) (okB := true) rfl rfl hd (by simp), ?_⟩
    have hx := (State.diagDecide_failed (s.testsNoted false true)).1
    obtain ⟨hopen, -⟩ := State.chanFault_alone (s := (s.testsNoted false true).diagOver) (c := false) .persistent ha hb hdeg
    refine ⟨(congrArg (·.saf.diag) hx).trans ((State.chanFault_ticks ..).diag.trans rfl), ?_, ?_, ?_⟩
    · exact (congrArg (fun t => (State.chan t false).fault) hx).trans (State.chanFault_own _ false)
    · exact (congrArg (fun t => (State.chan t true).fault) hx).trans ((congrArg SChan.fault (State.chanFault_other _ false _)).trans hb)
    · exact (congrArg (·.saf.deg) hx).trans hopen
  · refine ⟨_, execDiagnosisEnd_decide (okA := true) (okB := false) rfl rfl hd (by simp), ?_⟩
    have hx := (State.diagDecide_failed (s.testsNoted true false)).2
    obtain ⟨hopen, -⟩ := State.chanFault_alone (s := (s.testsNoted true false).diagOver) (c := true) .persistent hb ha hdeg
    refine ⟨(congrArg (·.saf.diag) hx).trans ((State.chanFault_ticks ..).diag.trans rfl), ?_, ?_, ?_⟩
    · exact (congrArg (fun t => (State.chan t true).fault) hx).trans (State.chanFault_own _ true)
    · exact (congrArg (fun t => (State.chan t false).fault) hx).trans ((congrArg SChan.fault (State.chanFault_other _ true _)).trans ha)
    · exact (congrArg (·.saf.deg) hx).trans hopen

/-- Settles O44: the timers, and the channels' faults. -/
theorem safetyTimersAndFaults : Obligations.SafetyTimersAndFaults := ⟨safetyTimersExpire, channelFaultsAreClassed⟩

end Sys2Proof.Machine
end

section
namespace Sys2Proof.Machine
open Host

/-! ### Output switches -/

theorem State.setFch_of_sw {s : State} {c : Nat} {x : FioCh} (h : x.sw = true) : (s.setFch c x).fch c = x :=
  State.setFch_ne _ _ _ fun hx => by rw [hx] at h; exact nomatch h

theorem State.setFch_of_die {s : State} {c : Nat} {x : FioCh} (i : Nat) (h : x.die.getLsbD i = true) : (s.setFch c x).fch c = x :=
  State.setFch_ne _ _ _ fun hx => by
    rw [hx] at h
    exact absurd ((BitVec.getLsbD_zero (w := 5) (i := i)).symm.trans h) Bool.noConfusion

theorem State.setFch_of_st {s : State} {c : Nat} {x : FioCh} (h : x.st ≠ .powerUp) : (s.setFch c x).fch c = x :=
  State.setFch_ne _ _ _ fun hx => h (by rw [hx])

/-- What setting and clearing of the die's flags does: OVERCUR, THERMAL, REVERSE in turn. -/
theorem dieFlags_bits : ∀ d : BitVec 5, (d ||| 1).getLsbD 0 = true ∧ ((d &&& 0b11110) ||| 2).getLsbD 1 = true ∧
    ((d &&& 0b11110) ||| 2).getLsbD 0 = false ∧ ((d &&& 0b11110) ||| 16).getLsbD 4 = true ∧ (d &&& 0b11101).getLsbD 1 = false ∧
    (d &&& 0b01111).getLsbD 4 = false := by
  decide

/-- The flags after a classification: OPEN and EXT_HIGH are what their runs give. -/
theorem classifiedFlags_bits : ∀ (d : BitVec 5) (o e : Bool),
    ((d &&& 0b10011) ||| (if o then 4 else 0) ||| (if e then 8 else 0)).getLsbD 2 = o ∧
    ((d &&& 0b10011) ||| (if o then 4 else 0) ||| (if e then 8 else 0)).getLsbD 3 = e := by
  decide

/-- The eighth classification in a row within the class sets its flag. -/
theorem flagRun_hit {on : Bool} {i o : Nat} (h : i = 7 ∨ i = 8) : (flagRun on i o true).1 = true := by
  rcases h with h | h <;> subst h <;> rfl

/-- The eighth in a row outside it clears the flag. -/
theorem flagRun_miss {on : Bool} {i o : Nat} (h : o = 7 ∨ o = 8) : (flagRun on i o false).1 = false := by
  rcases h with h | h <;> subst h <;> rfl

/-- The channel after its open output is classified. -/
def FioCh.classified (x : FioCh) (mv : Nat) : FioCh :=
  let fo := flagRun (x.die.getLsbD 2) x.openIn x.openOut (x.class mv == 1)
  let fe := flagRun (x.die.getLsbD 3) x.extIn x.extOut (x.class mv == 2)
  { x with openIn := fo.2.1, openOut := fo.2.2, extIn := fe.2.1, extOut := fe.2.2,
           die := (x.die &&& 0b10011) ||| (if fo.1 then 4 else 0) ||| (if fe.1 then 8 else 0) }

theorem execDiagClassify_output {s : State} {c : Fin 32} (mv : Nat) (hsw : (s.fch c).sw = false) (hst : (s.fch c).st = .output) :
    ∃ u, exec (.diagClassify c mv) s = .next u ∧ u.fch c = (s.fch c).classified mv :=
  ⟨_, congrArg Host.Outcome.next (if_neg (by simp [hsw, hst])),
    State.setFch_of_st (x := (s.fch c).classified mv) (by change (s.fch c).st ≠ _; rw [hst]; decide)⟩

/-- A retry that is due closes the switch and clears THERMAL. -/
theorem State.thermalRetry_closes {s : State} {c : Fin 32} {tj t : Nat} (hth : (s.fch c).die.getLsbD 1 = true)
    (hcmd : (s.fch c).commanded = true) (hrev : (s.fch c).die.getLsbD 4 = false) (htj : tj ≤ 145)
    (hdue : (if (s.fch c).dRetry then (s.fch c).offSeen else decide ((s.fch c).thAt + msT 100 ≤ t)) = true) :
    ∃ u, exec (.thermalRetry c tj t) s = .next u ∧ (u.fch c).sw = true ∧ (u.fch c).die.getLsbD 1 = false := by
  have hsw : (!(s.fch c).die.getLsbD 4) = true := by rw [hrev]; rfl
  refine ⟨_, congrArg Host.Outcome.next (if_pos ⟨hth, hcmd, htj, hdue⟩), ?_⟩
  rw [State.setFch_of_sw hsw]
  obtain ⟨-, -, -, -, hclear, -⟩ := dieFlags_bits (s.fch c).die
  exact ⟨hsw, hclear⟩

/-- Settles O49: each switch's shutdowns, their ends, and its classifications. -/
theorem switchesProtectThemselves : Obligations.SwitchesProtectThemselves := by
  have hgo : ∀ (s : State) (t c : Nat), (s.goto t).fch c = s.fch c := fun s t c => by simp
  refine ⟨fun s c hsw => ⟨?_, fun t => ?_, ?_⟩, fun s c tj t hth hcmd hrev => ⟨fun htj hr ht => ?_, fun htj hr ho => ?_, fun htj => ?_⟩,
    fun s c hrev hth hcmd => ?_, fun s c mv hsw hst => ⟨fun hmv hx => ?_, fun hmv hx => ?_, fun hlo hhi hol hx => ?_⟩⟩
  · have hex : exec (.overcur c true) s = .next (s.setFch c { s.fch c with
        die := if true && (s.fch c).sw then (s.fch c).die ||| 1 else (s.fch c).die &&& 0b11110 }) := rfl
    refine ⟨_, hex, ?_⟩
    have hread := State.setFch_of_sw (s := s) (c := c) (x := { s.fch c with
      die := if true && (s.fch c).sw then (s.fch c).die ||| 1 else (s.fch c).die &&& 0b11110 }) hsw
    rw [hread]
    dsimp only
    rw [hsw]
    exact ⟨(dieFlags_bits _).1, rfl⟩
  · refine ⟨_, congrArg Host.Outcome.next (if_pos hsw), ?_⟩
    obtain ⟨-, hset, hclear, -⟩ := dieFlags_bits (s.fch c).die
    dsimp only
    rw [hgo, State.setFch_of_die 1 (by exact hset)]
    exact ⟨rfl, hset, hclear, rfl, rfl⟩
  · refine ⟨_, congrArg Host.Outcome.next (if_pos hsw), ?_⟩
    obtain ⟨-, -, -, hset, -⟩ := dieFlags_bits (s.fch c).die
    rw [State.setFch_of_die 4 (by exact hset)]
    exact ⟨rfl, hset⟩
  · exact State.thermalRetry_closes hth hcmd hrev htj (by rw [hr]; simpa using ht)
  · exact State.thermalRetry_closes hth hcmd hrev htj (by rw [hr]; exact ho)
  · exact congrArg Host.Outcome.next (if_neg (by omega))
  · have hsw : (!(s.fch c).die.getLsbD 1) = true := by rw [hth]; rfl
    refine ⟨_, congrArg Host.Outcome.next (if_pos ⟨hrev, hcmd⟩), ?_⟩
    rw [State.setFch_of_sw (by exact hsw)]
    obtain ⟨-, -, -, -, -, hclear⟩ := dieFlags_bits (s.fch c).die
    exact ⟨hsw, hclear⟩
  · obtain ⟨u, hex, hu⟩ := execDiagClassify_output mv hsw hst
    have hclass : (s.fch c).class mv = 2 := (if_neg (by omega)).trans (if_neg (by omega))
    refine ⟨u, hex, ?_, by rw [hu]; exact hsw⟩
    rw [hu]
    refine (classifiedFlags_bits _ _ _).2.trans ?_
    rw [hclass]
    exact flagRun_hit hx
  · obtain ⟨u, hex, hu⟩ := execDiagClassify_output mv hsw hst
    have hclass : (s.fch c).class mv = 0 := if_pos hmv
    refine ⟨u, hex, ?_⟩
    rw [hu]
    refine (classifiedFlags_bits _ _ _).1.trans ?_
    rw [hclass]
    exact flagRun_miss hx
  · obtain ⟨u, hex, hu⟩ := execDiagClassify_output mv hsw hst
    have hclass : (s.fch c).class mv = 1 := ((if_neg (by omega)).trans (if_pos hhi)).trans (by rw [hol]; rfl)
    refine ⟨u, hex, ?_⟩
    rw [hu]
    refine (classifiedFlags_bits _ _ _).1.trans ?_
    rw [hclass]
    exact flagRun_hit (.inl hx)

end Sys2Proof.Machine
end

section
namespace Sys2Proof.Machine
open Host

/-! ### What ledger checks and the fault log keep -/

/-- The open ledgers and the course of the checks. -/
def Lgr.checkView (g : Lgr) : Byte × Bool × W32 × W48 × W48 := (g.opn, g.takeDue, g.chkCnt, g.takeFc, g.snapFc)

/-- The open ledgers and the course of the checks stand, and so does every event in the queue. -/
structure ChecksStand (s t : State) : Prop where
  view : t.lgr.checkView = s.lgr.checkView
  event : ∀ code obj, s.hasEvent code obj → t.hasEvent code obj

theorem ChecksStand.refl (s : State) : ChecksStand s s := ⟨rfl, fun _ _ h => h⟩

theorem ChecksStand.trans {s t u : State} (h : ChecksStand s t) (k : ChecksStand t u) : ChecksStand s u :=
  ⟨k.view.trans h.view, fun c o e => k.event c o (h.event c o e)⟩

theorem ChecksStand.of_view {s t : State} (hview : t.lgr.checkView = s.lgr.checkView) (hq : t.evt.queue = s.evt.queue) : ChecksStand s t :=
  ⟨hview, fun _ _ h => State.hasEvent_of_evt hq h⟩

theorem State.raiseCore_checkView (s : State) (code obj groups : Nat) (data : List Byte) :
    (s.raiseCore code obj groups data).lgr.checkView = s.lgr.checkView := by
  have hpulse : ∀ (x : State) c, (x.pulse c).lgr = x.lgr := fun x c => (State.pulse_only x c).out .lgr rfl
  have htrig : ∀ (x : State) c t, (x.capTrigger c t).lgr = x.lgr := fun x c t => (State.capTrigger_only x c t).out .lgr rfl
  unfold State.raiseCore
  dsimp only
  generalize hx : (if code = evFrameOverrun then (s.pulse 0x50).pulse 0x5C else s.pulse 0x50) = x
  have hxl : x.lgr = s.lgr := by
    rw [← hx]
    exact State.read_ite State.lgr ((hpulse _ _).trans (hpulse _ _)) (hpulse _ _)
  rw [← hxl]
  refine State.read_ite (·.lgr.checkView) ?_ ?_
  · rw [htrig]
    exact State.read_ite (·.lgr.checkView) rfl rfl
  · exact State.read_ite (·.lgr.checkView) rfl rfl

theorem State.raise_checks (s : State) (code obj groups : Nat) (data : List Byte) : ChecksStand s (s.raise code obj groups data) := by
  refine ⟨?_, fun c o h => State.hasEvent_raise _ _ _ _ _ _ _ h⟩
  unfold State.raise
  exact State.read_ite (·.lgr.checkView) ((State.raiseCore_checkView ..).trans (State.raiseCore_checkView ..)) (State.raiseCore_checkView ..)

theorem State.ledBreak_checks (s : State) (l kind i d : Nat) (diff : Int) : ChecksStand s (s.ledBreak l kind i d diff) := by
  unfold State.ledBreak
  refine ChecksStand.trans ?_ (State.raise_checks _ _ _ _ _)
  exact State.of_ite (P := ChecksStand s) (.of_view rfl rfl) (.of_view rfl rfl)

theorem State.checkInst_checks (l i d : Nat) (x : List Int) (a : State × Option (Nat × Nat × Nat × Int)) :
    ChecksStand a.1 (State.checkInst l i d x a).1 := by
  unfold State.checkInst
  dsimp only
  split <;> exact .of_view rfl rfl

/-- A ledger's check opens and closes none, and no event leaves the queue. -/
theorem State.checkLedger_checks (s : State) (snap : Tbl (List Int)) (l : Nat) : ChecksStand s (s.checkLedger snap l) := by
  have hfold : ∀ (is : List (Nat × List Int)) (a : State × Option (Nat × Nat × Nat × Int)), ChecksStand s a.1 → ChecksStand s
      (is.foldl (fun a x => State.checkInst l (x.1 % 1024 / 2) (x.1 % 2) x.2 a) a).1 := by
    intro is
    induction is with
    | nil => exact fun _ h => h
    | cons x is ih => exact fun a h => ih _ (h.trans (State.checkInst_checks _ _ _ _ a))
  unfold State.checkLedger
  dsimp only
  generalize hy : List.foldl _ _ _ = y
  have hsy : ChecksStand s y.1 := by
    rw [← hy]
    exact hfold _ _ (.of_view rfl rfl)
  split
  · exact hsy.trans (State.ledBreak_checks _ _ _ _ _ _)
  · exact hsy

/-- An open ledger's bit. -/
theorem State.ledOpen_eq (s : State) (l : Nat) : s.ledOpen l = s.lgr.opn.getLsbD l := by
  rw [State.ledOpen, bitOf, BitVec.getLsbD, Nat.testBit_eq_decide_div_mod_eq]

/-- Closing a ledger clears its bit and no other, and no event leaves the queue. -/
theorem State.closeLedger_clears (s : State) {l : Nat} (hl : l < 8) (cause : Nat) : (∀ j, (s.closeLedger l cause).lgr.opn.getLsbD j =
    if j = l then false else s.lgr.opn.getLsbD j) ∧ ∀ code obj, s.hasEvent code obj → (s.closeLedger l cause).hasEvent code obj := by
  unfold State.closeLedger
  cases hopen : s.ledOpen l
  · refine ⟨fun j => ?_, fun _ _ h => h⟩
    by_cases hj : j = l
    · rw [if_pos hj, hj]
      exact (State.ledOpen_eq s l).symm.trans hopen
    · rw [if_neg hj]
      rfl
  · have hcheck := State.checkLedger_checks s (s.ledTake [l]) l
    generalize s.checkLedger (s.ledTake [l]) l = x at hcheck
    refine ⟨fun j => ?_, fun code obj h => State.hasEvent_of_evt (s := x) rfl (hcheck.event code obj h)⟩
    have hopn : x.lgr.opn = s.lgr.opn := congrArg Prod.fst hcheck.view
    exact (getLsbD_bitFollows x.lgr.opn hl false j).trans (by rw [hopn])

theorem State.closeLedgers_clears (s : State) (ls : List Nat) (cause : Nat) (hls : ∀ l ∈ ls, l < 8) :
    (∀ j, (s.closeLedgers ls cause).lgr.opn.getLsbD j = (s.lgr.opn.getLsbD j && !ls.contains j)) ∧
    ∀ code obj, s.hasEvent code obj → (s.closeLedgers ls cause).hasEvent code obj := by
  induction ls generalizing s with
  | nil => exact ⟨fun j => (Bool.and_true _).symm, fun _ _ h => h⟩
  | cons l ls ih =>
    obtain ⟨hl, hls⟩ := List.forall_mem_cons.mp hls
    obtain ⟨hbit, hev⟩ := ih (s.closeLedger l cause) hls
    obtain ⟨hbit1, hev1⟩ := State.closeLedger_clears s hl cause
    refine ⟨fun j => (hbit j).trans ?_, fun c o h => hev c o (hev1 c o h)⟩
    rw [hbit1, List.contains_cons]
    by_cases hj : j = l
    · simp [hj]
    · simp [hj, beq_eq_false_iff_ne.mpr hj]

/-- With every ledger closed none is open. -/
theorem State.closeLedgers_all (s : State) (cause : Nat) : (s.closeLedgers [0, 1, 2, 3, 4, 5, 6, 7] cause).lgr.opn = 0 ∧
    ∀ code obj, s.hasEvent code obj → (s.closeLedgers [0, 1, 2, 3, 4, 5, 6, 7] cause).hasEvent code obj := by
  obtain ⟨hbit, hev⟩ := State.closeLedgers_clears s [0, 1, 2, 3, 4, 5, 6, 7] cause (by decide)
  refine ⟨BitVec.eq_of_getLsbD_eq fun j hj => ?_, hev⟩
  have hall : ∀ j < 8, [0, 1, 2, 3, 4, 5, 6, 7].contains j = true := by decide
  rw [hbit, hall j hj, Bool.not_true, Bool.and_false]
  exact BitVec.getLsbD_zero.symm

/-! ### Ledger checks and the log -/

theorem ledgersAreCheckedAndLogged : LedgersAreCheckedAndLogged := by
  refine ⟨fun s hd => ?_, fun s hd => congrArg Host.Outcome.next (if_pos (by simp [hd])), fun s h => ?_, fun s h => ?_⟩
  · generalize hx : { s with lgr := { s.lgr with
      takeDue := false, snapFc := s.lgr.takeFc, snapT := s.lgr.takeT, chkCnt := s.lgr.chkCnt + 1 } } = x
    have hex : exec .ledgerCheck s = .next (((List.range 7).filter x.ledOpen).foldl (fun s l => s.checkLedger x.lgr.take l) x).ledRetain := by
      rw [← hx]
      exact congrArg Host.Outcome.next (if_neg (by simp [hd]))
    have hxv : x.lgr.checkView = (s.lgr.opn, false, s.lgr.chkCnt + 1, s.lgr.takeFc, s.lgr.takeFc) := by rw [← hx]; rfl
    have hfold : ChecksStand x (((List.range 7).filter x.ledOpen).foldl (fun s l => s.checkLedger x.lgr.take l) x) :=
      List.foldlRecOn (motive := ChecksStand x) _ _ (.refl x) fun t ht l _ => ht.trans (State.checkLedger_checks t _ l)
    generalize List.foldl _ x _ = y at hex hfold
    have hview := hfold.view.trans hxv
    simp only [Lgr.checkView, Prod.mk.injEq] at hview
    obtain ⟨hopn, hdue, hcnt, -, hfc⟩ := hview
    exact ⟨_, hex, hdue, hcnt, hfc, hfc, hopn, rfl⟩
  · have hgo : ¬(s.lgr.logPend.isEmpty ∧ !s.pwr.commit) := by
      rcases h with h | h <;> simp [h]
    have hkeep : ∀ (l : List (List Byte)) (x : State), (l.foldl (fun s e => s.logKeep e) x).lgr.logUsed = x.lgr.logUsed := by
      intro l
      induction l with
      | nil => exact fun _ => rfl
      | cons e l ih => exact fun x => (ih _).trans (State.read_ite (·.lgr.logUsed) rfl rfl)
    exact ⟨_, congrArg Host.Outcome.next (if_neg hgo), rfl, rfl, congrArg (· + 128 * s.lgr.logPend.length + 128) (hkeep _ _)⟩
  · exact ⟨_, congrArg Host.Outcome.next (if_neg (by simp only [logHalfBytes]; omega)), rfl, rfl, rfl, rfl⟩

/-! ### Counters and bandwidth windows -/

/-- The passing of cycles leaves the bandwidth monitors as they are. -/
theorem State.goto_bw (s : State) (t : Nat) : (s.goto t).prf.bw = s.prf.bw := by
  have hpulse : ∀ (x : State) c l n, (x.pulseN c l n).prf.bw = x.prf.bw := fun _ _ _ _ => rfl
  have hcycles : ∀ (x : State) n, (x.cycles n).prf.bw = x.prf.bw := fun x n => State.read_ite (·.prf.bw) rfl rfl
  have hdroop : ∀ x : State, x.droopCycle.prf.bw = x.prf.bw := fun x =>
    State.read_ite (·.prf.bw) ((hcycles _ 1).trans rfl) (hcycles _ 1)
  have hrun : ∀ (n : Nat) (x : State) acc, (x.droopRun n acc).1.prf.bw = x.prf.bw := by
    intro n
    induction n with
    | zero => exact fun _ _ => rfl
    | succ n ih =>
      intro x acc
      unfold State.droopRun
      dsimp only
      generalize (if (recentStretch x.pwr.hist x.pwr.periods).length < 200 then 50 else 25) = len
      by_cases h : acc < len
      · rw [if_pos h]
      · rw [if_neg h, ih, hdroop]
  have hhold : ∀ (x : State) acc, (x.holdRun acc).1.prf.bw = x.prf.bw := by
    intro x acc
    unfold State.holdRun
    dsimp only
    split
    · rfl
    · exact hcycles _ _
  have hcore : ∀ (x : State) dt, (x.coreTime dt).prf.bw = x.prf.bw := by
    intro x dt
    unfold State.coreTime
    refine State.read_ite (·.prf.bw) rfl ?_
    dsimp only
    split_ifs
    · exact hhold _ _
    · exact hrun _ _ _
    · exact hcycles _ _
  have hcoreEv : ∀ (x : State) c o g d, (x.raiseCore c o g d).prf.bw = x.prf.bw := by
    intro x c o g d
    have htrig : ∀ (y : State) c t, (y.capTrigger c t).prf = y.prf := fun y c t => (State.capTrigger_only y c t).out .prf rfl
    unfold State.raiseCore
    dsimp only
    generalize hy : (if c = evFrameOverrun then (x.pulse 0x50).pulse 0x5C else x.pulse 0x50) = y
    have hyb : y.prf.bw = x.prf.bw := by
      rw [← hy]
      exact State.read_ite (·.prf.bw) rfl rfl
    refine State.read_ite (·.prf.bw) ?_ (State.read_ite (·.prf.bw) hyb hyb)
    rw [htrig]
    exact State.read_ite (·.prf.bw) hyb hyb
  have hraise : ∀ (x : State) c o g d, (x.raise c o g d).prf.bw = x.prf.bw := fun x c o g d =>
    State.read_ite (·.prf.bw) ((hcoreEv _ _ _ _ _).trans (hcoreEv x c o g d)) (hcoreEv x c o g d)
  have hadv : (s.advance t).prf.bw = s.prf.bw := hcore _ _
  unfold State.goto
  refine State.read_ite (·.prf.bw) ?_ hadv
  exact State.of_ite (P := fun u => (u.markEv evClkLimit devObj).prf.bw = s.prf.bw) ((hraise _ _ _ _ _).trans hadv) hadv

/-- Monitor m of a state at the end of a window that ends at e. -/
def State.bwEnded (v : State) (m : Fin 10) (e : Nat) : Bw :=
  let b := tget {} v.prf.bw m.val
  let calv : Bool := 1 ≤ v.pwr.stage
  let win := v.pn 13 0 m
  let n : W32 := BitVec.ofNat 32 (min (b.now + (if m.val = 9 then Config.dramUnits b.cnt.toNat else 0)) 0xFFFFFFFF)
  let b := if calv || b.skip then { b with skip := calv }
    else { b with last := n, min := if n < b.min then n else b.min, max := if b.max < n then n else b.max, cnt := b.cnt + 1 }
  let b := if win = b.win then b else { b with win := win, min := 0xFFFFFFFF, max := 0 }
  { b with now := 0, part := 0, endAt := e }

/-- A window that saw a calving stage leaves the last value and the count. -/
theorem State.bwEnded_calving {v : State} {m : Fin 10} {e : Nat} (h : 1 ≤ v.pwr.stage) :
    (v.bwEnded m e).last = (tget {} v.prf.bw m.val).last ∧ (v.bwEnded m e).cnt = (tget {} v.prf.bw m.val).cnt := by
  unfold State.bwEnded
  dsimp only
  rw [decide_eq_true h, Bool.true_or, if_pos rfl]
  dsimp only
  split <;> exact ⟨rfl, rfl⟩

theorem countersWrapAndWindowsEnd : CountersWrapAndWindowsEnd := by
  refine ⟨fun s k h => ?_, fun s m hw => ?_⟩
  · refine ⟨_, congrArg Host.Outcome.next (if_pos h), ?_⟩
    have hread : ∀ p : Pc, p.ovf = true → (s.setPc k p).pc k = p := fun p hp =>
      tget_tset_of_ne _ _ _ _ fun hx => absurd (hp.symm.trans (congrArg Pc.ovf hx)) Bool.noConfusion
    rw [hread _ rfl]
    exact ⟨rfl, rfl, rfl⟩
  · generalize he : ((tget {} s.prf.bw m.val).endAt / usT (tget {} s.prf.bw m.val).win + 1) * usT (tget {} s.prf.bw m.val).win = e
    have hex : exec (.bwWindowEnd m) s = .next { s.goto e with prf := { (s.goto e).prf with
        bw := tset {} m.val ((s.goto e).bwEnded m e) (s.goto e).prf.bw } } := by
      rw [← he]
      rfl
    have hbw := State.goto_bw s e
    have hne : (s.goto e).bwEnded m e ≠ {} := fun h => by
      have hend : e = 0 := congrArg Bw.endAt h
      have hpos : 0 < e := by
        rw [← he]
        exact Nat.mul_pos (Nat.succ_pos _) (by unfold usT; omega)
      omega
    refine ⟨_, hex, ?_⟩
    dsimp only
    rw [tget_tset_of_ne _ _ _ _ hne, he]
    refine ⟨State.goto_now_max .., rfl, rfl, fun hs => ?_⟩
    rw [← hbw]
    exact State.bwEnded_calving (by rw [State.goto_stage]; exact hs)

/-- Settles O56: the checks and the log, and the counters' wraps and windows. -/
theorem ledgersAndCountersAct : Obligations.LedgersAndCountersAct := ⟨ledgersAreCheckedAndLogged, countersWrapAndWindowsEnd⟩

end Sys2Proof.Machine
end

section
namespace Sys2Proof.Machine
open Host

/-! ### Resets of the core die -/

/-- A reset that no other awaits begins with its cause. -/
theorem State.beginReset_begins {s : State} (h : s.pwr.rst = none) (c : RstCause) (commit ret : Bool) :
    s.beginReset c commit ret = { s with pwr := { s.pwr with rst := some c, commit := commit }, lgr := { s.lgr with retUse := s.lgr.retUse || ret } } :=
  if_neg (by simp [h])

/-- A reset that commits first: every ledger is closed, and the field outputs are ordered safe. -/
theorem State.resetCommitted_closes {s : State} (h : s.pwr.rst = none) (c : RstCause) : (s.resetCommitted c).pwr.rst = some c ∧
    (s.resetCommitted c).pwr.commit = s.cfg.fwOn ∧ (s.resetCommitted c).lgr.opn = 0 ∧ (s.resetCommitted c).fio.order = true := by
  unfold State.resetCommitted
  have hopn := (State.closeLedgers_all s.safeOrder Config.closeCause.toNat).1
  have hpwr : (s.safeOrder.closeLedgers [0, 1, 2, 3, 4, 5, 6, 7] Config.closeCause.toNat).pwr = s.pwr :=
    (State.closeLedgers_only _ _ _).out .pwr rfl
  have hfio : (s.safeOrder.closeLedgers [0, 1, 2, 3, 4, 5, 6, 7] Config.closeCause.toNat).fio = s.safeOrder.fio :=
    (State.closeLedgers_only _ _ _).out .fio rfl
  generalize s.safeOrder.closeLedgers [0, 1, 2, 3, 4, 5, 6, 7] Config.closeCause.toNat = x at hopn hpwr hfio
  rw [State.beginReset_begins (by rw [hpwr]; exact h)]
  refine ⟨rfl, rfl, hopn, ?_⟩
  change x.fio.order = true
  rw [hfio]
  rfl

theorem resetsBegin : ResetsBegin := by
  refine ⟨fun s hup hrst => ⟨?_, fun v hv => ?_, fun v hv => ?_, ?_, ?_, fun mv hmv => ?_, fun mv hlo hhi => ?_, fun c => ?_⟩, fun s h => ?_⟩
  · exact ⟨_, congrArg Host.Outcome.next (if_neg (by simp [hup, hrst])), State.resetCommitted_closes hrst .pin⟩
  · exact ⟨_, congrArg Host.Outcome.next (if_neg (by simp [hv, hup, hrst])), State.resetCommitted_closes (s := s.hostWrite) hrst .host⟩
  · exact ⟨_, congrArg Host.Outcome.next (if_pos (.inl hv)), hrst, rfl⟩
  · refine ⟨_, congrArg Host.Outcome.next (if_neg (by simp [hup])), ?_⟩
    rw [State.beginReset_begins hrst]
    exact ⟨rfl, rfl⟩
  · refine ⟨_, congrArg Host.Outcome.next (if_pos hup), ?_⟩
    rw [State.beginReset_begins hrst]
    exact ⟨rfl, rfl, Bool.or_true _⟩
  · refine ⟨_, congrArg Host.Outcome.next ((if_neg (by simp [hup])).trans (if_neg (by omega))), ?_⟩
    rw [State.beginReset_begins (by exact hrst)]
    exact ⟨rfl, Bool.or_true _⟩
  · exact ⟨_, congrArg Host.Outcome.next ((if_neg (by simp [hup])).trans (if_pos ⟨hlo, hhi⟩)), hrst⟩
  · refine ⟨_, congrArg Host.Outcome.next (if_neg (by simp [hup])), ?_⟩
    rw [State.beginReset_begins (by exact hrst)]
    exact ⟨rfl, Bool.or_true _⟩
  · exact ⟨_, congrArg Host.Outcome.next (if_neg (by simp [h])), rfl, rfl⟩

/-- The field channels below n, each with what its die holds. -/
def diesKept (f : Nat → FioCh) (n : Nat) : Tbl FioCh := (List.range n).foldl (fun t k => tset {} k (f k).keepDie t) []

theorem diesKept_get (f : Nat → FioCh) {n k : Nat} (hk : k < n) : tget {} (diesKept f n) k = (f k).keepDie :=
  (tget_foldl_tset ({} : FioCh) (fun k => (f k).keepDie) n).2 k hk

/-- The part after its core die's reset: all at the reset values but what outlives it. -/
def State.coreReset (s : State) (c : RstCause) : State :=
  { pending := s.pending, cfg := s.cfg.afterReset, lgr := s.lgr.afterReset, pwr := s.pwr.afterReset c
    saf := { b := s.saf.b }
    fio := { ch := diesKept s.fch 32
             dies := (List.range 4).foldl (fun t k => tset {} k (s.die k).keepDie t) [] }
    host := { hostsel := s.host.hostsel } }

/-- A field channel keeps what its die holds. -/
theorem State.coreReset_fch (s : State) (c : RstCause) {k : Nat} (hk : k < 32) : (s.coreReset c).fch k = (s.fch k).keepDie := by
  have hch : (s.coreReset c).fio.ch = diesKept s.fch 32 := by simp only [State.coreReset]
  unfold State.fch
  rw [hch]
  exact diesKept_get s.fch hk

theorem coreDieResets : CoreDieResets := by
  refine ⟨fun s c hc hcom => ?_, fun s h => ?_⟩
  · have hex : exec .coreDieReset s = .next (s.coreReset c) := by
      change execCoreDieReset s = _
      unfold execCoreDieReset State.coreReset diesKept
      simp only [hc, hcom, Bool.false_eq_true, if_false]
    refine ⟨_, hex, rfl, rfl, rfl, rfl, rfl, rfl, rfl, rfl, rfl, rfl, rfl, rfl, rfl, fun _ => rfl, fun k hk => ?_, rfl⟩
    have hch := State.coreReset_fch s c hk
    exact ⟨(congrArg FioCh.sw hch).trans rfl, (congrArg FioCh.st hch).trans rfl⟩
  · change execCoreDieReset s = _
    unfold execCoreDieReset
    cases hr : s.pwr.rst with
    | none => rfl
    | some c => exact congrArg Host.Outcome.next (if_pos (h.resolve_right (by rw [hr]; exact Option.some_ne_none c)))

/-- Settles O54: how resets begin, and what the core die's reset keeps. -/
theorem resetsBeginAndAct : Obligations.ResetsBeginAndAct := ⟨resetsBegin, coreDieResets⟩

end Sys2Proof.Machine
end

section
namespace Sys2Proof.Machine
open Host

/-! ### Supplies -/

theorem suppliesAreWatched : SuppliesAreWatched := by
  have hraise : ∀ (x : State) c, (x.raiseDev c []).pwr = x.pwr := fun x c => (State.raiseDev_only x c []).out .pwr rfl
  refine ⟨fun s mv hup hd hmv => ?_, fun s mv hup hmv => ⟨?_, ?_⟩, fun s hup hv => ?_, fun s => ⟨_, rfl, rfl⟩, fun s hst hr => ?_⟩
  · have hmin : min mv 0xFFFF = mv := by omega
    refine ⟨_, congrArg Host.Outcome.next ((if_neg (by simp [hup])).trans (if_neg ?_)), rfl, rfl, hmin, congrArg (min s.pwr.vcoreMin) hmin⟩
    rintro (h | h)
    · omega
    · exact Bool.noConfusion (hd.symm.trans h)
  · exact ⟨_, congrArg Host.Outcome.next ((if_neg (by simp [hup])).trans (if_pos (.inl hmv))), rfl, rfl⟩
  · exact ⟨_, congrArg Host.Outcome.next ((if_neg (by simp [hup])).trans (if_neg (by omega))), rfl⟩
  · refine ⟨_, congrArg Host.Outcome.next (if_neg (by simp [hup, hv])), ?_, State.raiseDev_hasEvent ..⟩
    rw [hraise]
  · exact ⟨_, congrArg Host.Outcome.next (if_neg (by simp [hr]; omega)), rfl, State.goto_now_max ..⟩

/-! ### Calving -/

/-- What entering a stage from the one before it shows. -/
def State.StageEntered (s u : State) (k : Nat) : Prop :=
  u.pwr.stage = k + 1 ∧ u.pwr.vmain = s.pwr.vmain ∧ u.hasEvent (evCalve1 + k) devObj ∧ (k = 1 → u.pwr.hold75 = true) ∧
    (k = 2 → u.pwr.s3From = some s.frm.now)

theorem State.raiseDev_pwr (s : State) (code : Nat) (data : List Byte) : (s.raiseDev code data).pwr = s.pwr :=
  (State.raiseDev_only s code data).out .pwr rfl

theorem State.enterStage1_entered (s : State) : s.StageEntered s.enterStage1 0 := by
  unfold State.StageEntered State.enterStage1
  dsimp only
  rw [State.raiseDev_pwr]
  exact ⟨rfl, rfl, State.raiseDev_hasEvent .., fun h => absurd h (by decide), fun h => absurd h (by decide)⟩

theorem State.enterStage2_entered (s : State) : s.StageEntered s.enterStage2 1 := by
  unfold State.StageEntered State.enterStage2
  rw [State.raiseDev_pwr]
  exact ⟨rfl, rfl, State.raiseDev_hasEvent .., fun _ => rfl, fun h => absurd h (by decide)⟩

theorem State.enterStage3_entered (s : State) : s.StageEntered s.enterStage3 2 := by
  unfold State.StageEntered State.enterStage3
  rw [State.raiseDev_pwr]
  exact ⟨rfl, rfl, State.raiseDev_hasEvent .., fun h => absurd h (by decide), fun _ => rfl⟩

/-- From stage k the stage after it is entered, and none beyond. -/
theorem State.enterTo_next {s : State} {k : Nat} (hk : k < 3) (h : s.pwr.stage = k) : s.StageEntered (s.enterTo (k + 1)) k := by
  obtain rfl | rfl | rfl : k = 0 ∨ k = 1 ∨ k = 2 := by omega
  · have henter : s.enterTo 1 = s.enterStage1 := by simp [State.enterTo, h]
    rw [henter]
    exact State.enterStage1_entered s
  · have henter : s.enterTo 2 = s.enterStage2 := by simp [State.enterTo, h]
    rw [henter]
    exact State.enterStage2_entered s
  · have henter : s.enterTo 3 = s.enterStage3 := by simp [State.enterTo, h]
    rw [henter]
    exact State.enterStage3_entered s

/-- No stage's entry begins a reset. -/
theorem State.enterTo_rst (s : State) (k : Nat) : (s.enterTo k).pwr.rst = s.pwr.rst := by
  have h1 : ∀ x : State, x.enterStage1.pwr.rst = x.pwr.rst := fun x => (congrArg Pwr.rst (State.raiseDev_pwr _ _ _)).trans rfl
  have h2 : ∀ x : State, x.enterStage2.pwr.rst = x.pwr.rst := fun x => (congrArg Pwr.rst (State.raiseDev_pwr _ _ _)).trans rfl
  have h3 : ∀ x : State, x.enterStage3.pwr.rst = x.pwr.rst := fun x => (congrArg Pwr.rst (State.raiseDev_pwr _ _ _)).trans rfl
  have hite : ∀ (x y : State) (c : Prop) [Decidable c], x.pwr.rst = y.pwr.rst → (if c then x else y).pwr.rst = y.pwr.rst :=
    fun x y c _ h => State.read_ite (·.pwr.rst) h rfl
  unfold State.enterTo
  exact (hite _ _ _ (h3 _)).trans ((hite _ _ _ (h2 _)).trans (hite _ _ _ (h1 s)))

theorem State.capHalt_queue (s : State) (next : CapSt) : (s.capHalt next).evt.queue = s.evt.queue := by
  have hirq : ∀ (x : State) k, (x.irq k).evt.queue = x.evt.queue := fun x k => by
    obtain ⟨ms, hms⟩ := State.irq_evt x k
    rw [hms]
  have hended : ∀ x : State, x.capEnded.evt.queue = x.evt.queue := fun x => State.read_ite (·.evt.queue) (hirq _ _) rfl
  have hclose : ∀ x : State, x.crevClose.evt = x.evt := fun x => (State.crevClose_only x).out .evt rfl
  unfold State.capHalt
  split
  · unfold State.recEnd
    exact (hended _).trans (congrArg Evt.queue (hclose s))
  · exact hended _
  · exact hended _
  · exact hended _
  · rfl

/-- What stage 4 leaves to be committed: the field outputs ordered safe, a capture stopped. -/
def State.stage4Stopped (s : State) : State :=
  let s := { s with pwr := { s.pwr with stage := 4 }, saf := { s.saf with stage4 := true } }.raiseDev evCalve4 []
  let s := s.dropYield.safeOrder
  if s.cap.st.runs then s.capHalt .stopped else s

theorem State.stage4Stopped_shows (s : State) : s.stage4Stopped.pwr.stage = 4 ∧ s.stage4Stopped.pwr.rst = s.pwr.rst ∧
    s.stage4Stopped.saf.stage4 = true ∧ s.stage4Stopped.fio.order = true ∧ s.stage4Stopped.hasEvent evCalve4 devObj := by
  unfold State.stage4Stopped
  generalize hx : { s with pwr := { s.pwr with stage := 4 }, saf := { s.saf with stage4 := true } }.raiseDev evCalve4 [] = x
  have hpwr : x.pwr.stage = 4 ∧ x.pwr.rst = s.pwr.rst := by
    rw [← hx, State.raiseDev_pwr]
    exact ⟨rfl, rfl⟩
  have hsaf : x.saf.stage4 = true := by rw [← hx, (State.raiseDev_only _ _ _).out .saf rfl]
  have hev : x.hasEvent evCalve4 devObj := by
    rw [← hx]
    exact State.raiseDev_hasEvent ..
  have hdrop : x.dropYield.pwr = x.pwr ∧ x.dropYield.saf = x.saf ∧ x.dropYield.evt = x.evt :=
    ⟨(State.dropYield_only x).out .pwr rfl, (State.dropYield_only x).out .saf rfl, (State.dropYield_only x).out .evt rfl⟩
  dsimp only
  generalize hy : x.dropYield.safeOrder = y
  have hyp : y.pwr = x.pwr := by rw [← hy]; exact hdrop.1
  have hys : y.saf = x.saf := by rw [← hy]; exact hdrop.2.1
  have hye : y.evt = x.evt := by rw [← hy]; exact hdrop.2.2
  have hyo : y.fio.order = true := by rw [← hy]; rfl
  have hhalt : ∀ n, (y.capHalt n).pwr = y.pwr ∧ (y.capHalt n).saf = y.saf ∧ (y.capHalt n).fio = y.fio := fun n =>
    ⟨(State.capHalt_only y n).out .pwr rfl, (State.capHalt_only y n).out .saf rfl, (State.capHalt_only y n).out .fio rfl⟩
  refine ⟨?_, ?_, ?_, ?_, ?_⟩
  · rw [State.read_ite State.pwr (hhalt _).1 rfl, hyp, hpwr.1]
  · rw [State.read_ite State.pwr (hhalt _).1 rfl, hyp, hpwr.2]
  · rw [State.read_ite State.saf (hhalt _).2.1 rfl, hys, hsaf]
  · rw [State.read_ite State.fio (hhalt _).2.2 rfl, hyo]
  · have hyev := (State.hasEvent_congr hye evCalve4 devObj).mpr hev
    exact State.hasEvent_ite (State.hasEvent_of_evt (State.capHalt_queue y _) hyev) hyev

theorem calvingStagesFollowVmain : CalvingStagesFollowVmain := by
  refine ⟨fun s k mv hup hmv hst => ?_, fun s k mv hup hmv => ?_, fun s k mv hup hmv hst h4 => ?_, fun s mv hup hmv h4 hrst => ?_⟩
  · have hgo : ¬stageMv k ≤ mv := by unfold stageMv; omega
    obtain ⟨hstage, hvmain, hev, hhold, hs3⟩ := State.enterTo_next (s := s.seeVmain mv) k.isLt hst
    refine ⟨_, congrArg Host.Outcome.next ((if_neg (by simp [hup])).trans (if_neg hgo)), hstage, hvmain, hev, fun h => hhold ?_, fun h => hs3 ?_⟩
    · rw [h]; rfl
    · rw [h]; rfl
  · exact ⟨_, congrArg Host.Outcome.next ((if_neg (by simp [hup])).trans (if_pos hmv)), rfl, rfl⟩
  · refine ⟨_, congrArg Host.Outcome.next ((if_neg (by simp [hup])).trans (if_neg ?_)), rfl, rfl⟩
    rintro (h | h | h)
    · unfold stageMv at h
      omega
    · exact absurd hst (Nat.not_lt.mpr h)
    · exact h4 h
  · have hgo : ¬(stageMv 3 ≤ mv ∨ s.pwr.stage = 4) := by
      unfold stageMv
      omega
    have hex : exec (.calvingStage4 mv) s = .next ((((s.seeVmain mv).enterTo 3).stage4Stopped.closeLedgers [0, 1, 2, 3, 4, 5, 6, 7] 1).beginReset
        .stage4 true false) := congrArg Host.Outcome.next ((if_neg (by simp [hup])).trans (if_neg hgo))
    have hrst' : ((s.seeVmain mv).enterTo 3).pwr.rst = none := (State.enterTo_rst _ _).trans hrst
    obtain ⟨hstage, hr, hsaf, hfio, hev⟩ := State.stage4Stopped_shows ((s.seeVmain mv).enterTo 3)
    rw [hrst'] at hr
    generalize ((s.seeVmain mv).enterTo 3).stage4Stopped = x at hex hstage hr hsaf hfio hev
    obtain ⟨hopn, hkeep⟩ := State.closeLedgers_all x 1
    have hpwr : (x.closeLedgers [0, 1, 2, 3, 4, 5, 6, 7] 1).pwr = x.pwr := (State.closeLedgers_only _ _ _).out .pwr rfl
    have hxs : (x.closeLedgers [0, 1, 2, 3, 4, 5, 6, 7] 1).saf = x.saf := (State.closeLedgers_only _ _ _).out .saf rfl
    have hxf : (x.closeLedgers [0, 1, 2, 3, 4, 5, 6, 7] 1).fio = x.fio := (State.closeLedgers_only _ _ _).out .fio rfl
    have hevx := hkeep evCalve4 devObj hev
    generalize x.closeLedgers [0, 1, 2, 3, 4, 5, 6, 7] 1 = y at hex hopn hpwr hxs hxf hevx
    rw [State.beginReset_begins (by rw [hpwr]; exact hr)] at hex
    exact ⟨_, hex, (congrArg Pwr.stage hpwr).trans hstage, rfl, rfl, (congrArg Saf.stage4 hxs).trans hsaf,
      (congrArg Fio.order hxf).trans hfio, hopn, State.hasEvent_of_evt (s := y) rfl hevx⟩

/-- Settles O52: the supplies, and the calving stages. -/
theorem suppliesAndCalving : Obligations.SuppliesAndCalving := ⟨suppliesAreWatched, calvingStagesFollowVmain⟩

end Sys2Proof.Machine
end

section
namespace Sys2Proof.Machine
open Host

/-! ### Nibbles of the Quad SPI link -/

@[simp] theorem length_nibsOf (n v : Nat) : (nibsOf n v).length = n := by
  simp [nibsOf]

theorem nibsOf_succ (n v : Nat) : nibsOf (n + 1) v = nibsOf n (v / 16) ++ [BitVec.ofNat 4 v] := by
  unfold nibsOf
  rw [List.range_succ, List.map_append]
  congr 1
  · refine List.map_congr_left fun k hk => ?_
    have hk := List.mem_range.mp hk
    rw [Nat.div_div_eq_div_mul, ← Nat.pow_succ', show n + 1 - 1 - k = n - 1 - k + 1 by omega]
  · simp

/-- A number that its nibbles hold is read back from them. -/
theorem nibNat_nibsOf {n v : Nat} (h : v < 16 ^ n) : nibNat (nibsOf n v) = v := by
  induction n generalizing v with
  | zero =>
    have : v = 0 := by simpa using h
    subst this
    rfl
  | succ n ih =>
    have hdiv : nibNat (nibsOf n (v / 16)) = v / 16 := ih (by rw [Nat.pow_succ] at h; omega)
    rw [nibsOf_succ, nibNat, List.foldl_append]
    change nibNat (nibsOf n (v / 16)) * 16 + (BitVec.ofNat 4 v).toNat = v
    rw [hdiv, BitVec.toNat_ofNat]
    omega

/-- Two nibbles make their byte. -/
theorem nibBytes_nibsOf (b : Byte) (r : List Nibble) : nibBytes (nibsOf 2 b.toNat ++ r) = b :: nibBytes r := by
  have htwo : nibsOf 2 b.toNat = [BitVec.ofNat 4 (b.toNat / 16), BitVec.ofNat 4 b.toNat] := by
    rw [nibsOf_succ, nibsOf_succ]
    rfl
  rw [htwo]
  change BitVec.ofNat 8 _ :: nibBytes r = _
  congr 1
  apply BitVec.eq_of_toNat_eq
  have hb := b.isLt
  rw [BitVec.toNat_ofNat, BitVec.toNat_ofNat, BitVec.toNat_ofNat]
  omega

theorem nibBytes_flatMap (bs : List Byte) : nibBytes (bs.flatMap fun b => nibsOf 2 b.toNat) = bs := by
  induction bs with
  | nil => rfl
  | cons b bs ih => rw [List.flatMap_cons, nibBytes_nibsOf, ih]

theorem length_wordNibs (w : W32) : (wordNibs w).length = 8 := by
  simp [wordNibs, List.length_flatMap, List.map_const']

/-- A number that n bytes hold is read back from them. -/
theorem leNat_leBytes_of_lt {n v : Nat} (h : v < 256 ^ n) : leNat (leBytes n v) = v := by
  induction n generalizing v with
  | zero =>
    have hv : v = 0 := by simpa using h
    subst hv
    rfl
  | succ n ih =>
    rw [leBytes, leNat, ih (by rw [Nat.pow_succ] at h; omega), BitVec.toNat_ofNat]
    omega

/-- Eight nibbles make their word. -/
theorem wordNibs_word (w : W32) : BitVec.ofNat 32 (leNat (nibBytes (wordNibs w))) = w := by
  unfold wordNibs
  rw [nibBytes_flatMap, leNat_leBytes_of_lt w.isLt, BitVec.ofNat_toNat, BitVec.setWidth_eq]

/-- The words of a data phase are those sent, and a word cut short is dropped. -/
theorem nibWords_flatMap (ws : List W32) {cut : List Nibble} (hcut : cut.length < 8) :
    ∀ n, ws.length ≤ n → nibWords n (ws.flatMap wordNibs ++ cut) = ws := by
  induction ws with
  | nil =>
    intro n _
    cases n with
    | zero => rfl
    | succ n => exact if_pos hcut
  | cons w ws ih =>
    intro n hn
    cases n with
    | zero => exact absurd hn (by simp)
    | succ n =>
      have hlen := length_wordNibs w
      rw [List.flatMap_cons, List.append_assoc, nibWords, if_neg (by rw [List.length_append]; omega), List.take_left' hlen,
        List.drop_left' hlen, wordNibs_word, ih n (by simpa using hn)]

/-- The parts of a transaction: its command, and its address with the BAR and the offset. -/
theorem spi_parts {c : Nat} (hc : c < 256) (bar2 : Bool) {o : Nat} (ho : o < 2 ^ 26) (d : List Nibble) :
    let l := nibsOf 2 c ++ spiAddr bar2 o ++ d
    nibNat (l.take 2) = c ∧ nibNat ((l.drop 2).take 8) = (if bar2 then 2 ^ 31 else 0) + o ∧ l.drop 10 = d ∧ l.length = 10 + d.length := by
  intro l
  have h2 : (nibsOf 2 c).length = 2 := length_nibsOf 2 c
  have h8 : (spiAddr bar2 o).length = 8 := length_nibsOf 8 _
  have hl : l = nibsOf 2 c ++ (spiAddr bar2 o ++ d) := List.append_assoc ..
  refine ⟨?_, ?_, ?_, ?_⟩
  · rw [hl, List.take_left' h2]
    exact nibNat_nibsOf hc
  · rw [hl, List.drop_left' h2, List.take_left' h8]
    exact nibNat_nibsOf (by split <;> omega)
  · exact List.drop_left' (by rw [List.length_append, h2, h8])
  · rw [List.length_append, List.length_append, h2, h8]

/-- A transaction of a word-aligned offset: the accesses of its burst. -/
theorem spiAccesses_eq {c : Nat} (hc : c < 256) (bar2 : Bool) {o : Nat} (ho : o < 2 ^ 26) (ho4 : o % 4 = 0) (d : List Nibble) :
    spiAccesses (nibsOf 2 c ++ spiAddr bar2 o ++ d) = if c = 0x02 then burst bar2 true o ((nibWords d.length d).take (burstRoom o))
      else if c = 0x0B then burst bar2 false o (List.replicate (min ((10 + d.length - 18 + 7) / 8) (burstRoom o)) 0) else [] := by
  obtain ⟨hcmd, haddr, hdrop, hlen⟩ := spi_parts hc bar2 ho d
  generalize nibsOf 2 c ++ spiAddr bar2 o ++ d = l at hcmd haddr hdrop hlen
  have hbar : decide (2 ^ 31 ≤ (if bar2 then 2 ^ 31 else 0) + o) = bar2 := by
    cases bar2
    · exact decide_eq_false (by simp; omega)
    · exact decide_eq_true (by simp)
  have hoff : ((if bar2 then 2 ^ 31 else 0) + o) % 2 ^ 26 = o ∧ ((if bar2 then 2 ^ 31 else 0) + o) / 2 ^ 26 % 32 = 0 := by
    cases bar2
    · constructor <;> simp <;> omega
    · constructor <;> simp <;> omega
  have hok : (!(decide (10 ≤ l.length) && ((if bar2 then 2 ^ 31 else 0) + o) / 2 ^ 26 % 32 == 0 && o % 4 == 0)) = false := by
    rw [hlen, hoff.2, ho4]
    simp
  unfold spiAccesses
  dsimp only
  rw [hcmd, haddr, hbar, hoff.1, hok, hdrop, hlen, if_neg Bool.false_ne_true]

/-! ### The host link and the host watchdog -/

theorem theHostLinkComesAndGoes : TheHostLinkComesAndGoes := by
  refine ⟨fun bar2 o ws cut ho ho4 hroom hcut => ?_, fun bar2 o r ho ho4 hroom => ?_, fun s l => ⟨fun h => ?_, fun h => if_pos h⟩,
    fun s a b h => ⟨_, congrArg Host.Outcome.next (if_pos h), rfl, rfl, rfl⟩, fun s h => ⟨_, congrArg Host.Outcome.next (if_pos h), rfl, rfl, rfl, rfl⟩,
    fun s h => ⟨_, congrArg Host.Outcome.next (if_pos h), rfl, rfl, rfl, rfl, rfl⟩, fun s o n => rfl⟩
  · have hlen : ws.length ≤ (ws.flatMap wordNibs ++ cut).length := by
      have hflat : (ws.flatMap wordNibs).length = ws.length * 8 := by simp [List.length_flatMap, length_wordNibs, List.map_const']
      rw [List.length_append, hflat]
      omega
    rw [List.append_assoc _ _ cut, spiAccesses_eq (by decide) bar2 ho ho4, if_pos rfl, nibWords_flatMap ws hcut _ hlen, List.take_of_length_le]
    unfold burstRoom
    omega
  · have hcount : min ((10 + r.length - 18 + 7) / 8) (burstRoom o) = (r.length - 8 + 7) / 8 := by
      unfold burstRoom
      omega
    rw [spiAccesses_eq (by decide) bar2 ho ho4, if_neg (by decide), if_pos rfl, hcount]
  · exact if_neg (by simp [h])

theorem theHostWatchdogRuns : TheHostWatchdogRuns := by
  refine ⟨fun s v hv hen hrun => ?_, fun s v hv => ?_, fun s ha hr => ?_⟩
  · have hgo : s.hostWrite.pn 0 0 16 = 1 ∧ s.hostWrite.cfg.running = true := ⟨hen, hrun⟩
    exact ⟨_, congrArg Host.Outcome.next ((if_neg (by simp [hv])).trans (if_pos hgo)), rfl, rfl, rfl⟩
  · exact ⟨_, congrArg Host.Outcome.next (if_pos hv), rfl, rfl, rfl⟩
  · refine ⟨_, congrArg Host.Outcome.next (if_neg (by simp [ha, hr])), ?_⟩
    have hgo : (s.goto s.host.wdDue).host = s.host := by simp
    have hlast : ∀ x : State, ((x.irq 4).raiseDev evHostLost []).frm = x.frm ∧ ((x.irq 4).raiseDev evHostLost []).host = x.host := fun x =>
      ⟨((State.raiseDev_only _ _ _).out .frm rfl).trans ((State.irq_only _ _).out .frm rfl),
        ((State.raiseDev_only _ _ _).out .host rfl).trans ((State.irq_only _ _).out .host rfl)⟩
    dsimp only
    rw [(hlast _).1, (hlast _).2]
    refine ⟨State.goto_now_max .., rfl, ?_, rfl, ?_, State.raiseDev_hasEvent ..⟩
    · exact (congrArg (·.wdArmed) hgo).trans ha
    · exact congrArg (fun h => satAdd 13 h.wdCnt 1) hgo

/-- Settles O26: the host link, and the host watchdog. -/
theorem hostLinkAndWatchdogAct : Obligations.HostLinkAndWatchdogAct := ⟨theHostLinkComesAndGoes, theHostWatchdogRuns⟩

end Sys2Proof.Machine
end
